-- ==== Sys2Proof/Word.lean ====
section
/-! DEFINITION. The words of the part: bytes, 32-bit registers, 64-bit times, 128-bit load data, and signed reading. -/

namespace Sys2Proof

/-- One byte of memory. -/
abbrev Byte := BitVec 8
/-- A thread register, a uniform register, a 32-bit device register (R116, R64). -/
abbrev W32 := BitVec 32
/-- A 64-bit count, an instruction word, a semaphore (R119, R276, R414). -/
abbrev W64 := BitVec 64
/-- The data of one thread access, at most 16 bytes (R130). -/
abbrev W128 := BitVec 128
/-- A set of sites of the part, one bit per site identifier of R13. -/
abbrev Sites := BitVec 4096

end Sys2Proof
end

