-- ==== Sys2Proof/Syntax.lean ====
section
/-! DEFINITION. The commands of the block: one constructor of `Instr` for each row of the opcode table, with the row's
operands. What the environment alone knows (a measured power, a test's outcome, whether an access found an error) is an
operand of the command that carries it (log entry 3). -/

namespace Sys2Proof

/-- Where a thread instruction issues: the core's site identifier (R13) and the group slot (R91). -/
structure At where
  site : Nat
  slot : Nat
deriving DecidableEq, Repr

/-- Format R (R119): register arithmetic. -/
structure RForm where
  pg : BitVec 3
  pn : Bool
  mod : BitVec 4
  ud : Bool
  ua : Bool
  ub : Bool
  uc : Bool
  rsv : BitVec 12
  c : BitVec 8
  b : BitVec 8
  a : BitVec 8
  d : BitVec 8
deriving DecidableEq, Repr

/-- Format I (R119): immediate. -/
structure IForm where
  pg : BitVec 3
  pn : Bool
  ud : Bool
  ua : Bool
  rsv : BitVec 2
  d : BitVec 8
  a : BitVec 8
  imm : W32
deriving DecidableEq, Repr

/-- Format M (R119): memory. `sx` is bit 45: SX of a load, RET of an atomic. `off` is bits [23:0]: OFFSET, or B in
[23:16], C in [15:8] and reserved [7:0] for atomics and reductions. -/
structure MForm where
  pg : BitVec 3
  pn : Bool
  space : BitVec 2
  size : BitVec 3
  ua : Bool
  sx : Bool
  ud : Bool
  rsv : BitVec 4
  d : BitVec 8
  a : BitVec 8
  off : BitVec 24
deriving DecidableEq, Repr

/-- Format B (R119): branches. -/
structure BForm where
  pg : BitVec 3
  pn : Bool
  rsv : BitVec 4
  merge : BitVec 24
  target : BitVec 24
deriving DecidableEq, Repr

/-- Format T (R119): tiles, image loads, copies. -/
structure TForm where
  pg : BitVec 3
  pn : Bool
  mod : BitVec 4
  rsv : BitVec 10
  ubase : BitVec 6
  imm : W32
deriving DecidableEq, Repr

/-- Format S (R119): control and synchronisation. -/
structure SForm where
  pg : BitVec 3
  pn : Bool
  mod : BitVec 4
  rsv : BitVec 7
  ua : Bool
  a : BitVec 8
  imm : W32
deriving DecidableEq, Repr

/-- The fault that an access to a word of a slice meets (R203, R205): none; flipped bits, 0 to 255 of the data and 256 to 269 of the code; the
word of a location that differs in the bits of a number (R202: word index in [17:0], slice in [25:18], half in [26], stack in [29:27]); one
flipped bit of a tag or of line state, or more. What the code makes of it the model computes (R202 to R204). -/
inductive CacheErr where
  | clean
  | flips (bits : List Nat)
  | moved (location : Nat)
  | tagCorrected
  | tagLost
deriving DecidableEq, Repr

/-- The faults of one beat (R206): the error of each die's symbol, by die 0 to 17, and of each half of the beat index. -/
structure BeatErr where
  symbols : List (Nat × BitVec 16)
  addrLo : BitVec 16
  addrHi : BitVec 16
deriving DecidableEq, Repr

/-- What a burst at a memory interface meets (R206, R319): faults by beat, 0 to 15 of its 512 bytes; or that the bitmap word of its region is
corrected or uncorrectable (R208, R209). -/
inductive MemErr where
  | clean
  | beats (errs : List (Nat × BeatErr))
  | bitmapCorrected
  | bitmapLost
deriving DecidableEq, Repr

/-- What a patrol scrub works on (R218): the next word of a half's slices, or the next beat of a device. -/
inductive ScrubTarget where
  | cache (half : Nat) (err : CacheErr)
  | memory (dev : Nat) (err : MemErr)
deriving DecidableEq, Repr

/-- A control message, on the mesh or on the compatibility rings (R250). -/
inductive CtlMsg where
  | launch (cid site : Nat)
  | endOrder (cid site : Nat)
  | acknowledge (cid site : Nat)
  | invalidate (site : Nat)
  | latch (cid site : Nat)
  | fence (site : Nat)
  | reset (site : Nat)
deriving DecidableEq, Repr

/-- The core that a control message is for, or that acknowledges. -/
def CtlMsg.site : CtlMsg → Nat
  | .launch _ i => i
  | .endOrder _ i => i
  | .acknowledge _ i => i
  | .invalidate i => i
  | .latch _ i => i
  | .fence i => i
  | .reset i => i

/-- A transport packet of the fabric (R294): header fields, address, payload and its poison bits, one per 32 bytes. -/
structure FabPkt where
  cls : Nat
  mark : Bool
  rt : Bool
  dst : Nat
  src : Nat
  srcPort : Nat
  dstPart : Nat
  tag : Nat
  seq : W32
  addr : Nat
  op : Nat
  len : Nat
  data : List Byte
  poison : List Bool
deriving DecidableEq, Repr

/-- Whose performed-write records are released (R248, R294): those of a request of this part, or of a request of another part by source and
tag. -/
inductive Released where
  | own (rid : Nat)
  | peer (src tag : Nat)
deriving DecidableEq, Repr

/-- How a fabric port's training ended (R298): whether frames were heard, whether polarity or lane order was corrected, the lanes that
are bad at either end, and the peer that the training frames name. -/
structure FabTrain where
  heard : Bool
  corrected : Bool
  lanesBad : Nat
  peerId : Nat
  peerPort : Nat
  peerSerial : Nat
deriving DecidableEq, Repr

/-- What the sensors and the firmware's power model say in one Trim period (R338 to R342): the measured power and the
change of draw that one unit of each actuator is estimated to make, all in eighths of a watt. -/
structure TrimMeas where
  power : Nat
  fillerUnit : Nat
  stepUnit : Nat
  parkUnit : Nat
  idleLoad : Nat
deriving DecidableEq, Repr

/-- How a core fault was detected (R373). -/
inductive CoreCause where
  | weightParity
  | residue
  | espParity
  | rfParity
  | noAck
  | wakeCheck
  | selfTest
  | region
  | router
deriving DecidableEq, Repr

/-- The outcome of the three-corner self-test (R399): cores that fail, cores with exactly one failed lane (site, lane),
slices that fail (half, slice), regulators (stack × 256 + region) and routers that fail. -/
structure SelfTest where
  badCores : List Nat
  badLanes : List (Nat × Nat)
  badSlices : List (Nat × Nat)
  badRegs : List Nat
  badRouters : List Nat
deriving DecidableEq, Repr

/-- The outcome of stage 7 (R403): a stack link that does not train, failed interfaces, interfaces whose Quickset verify
failed, erased dies (device, die), device temperatures in 1/16 °C, device serials and the rates of full training (R315) by
interface. -/
structure Training where
  badStackLink : Option Nat
  failed : List Nat
  verifyFailed : List Nat
  erased : List (Nat × Nat)
  temps : List Int
  serials : List Nat
  rates : List Nat
deriving DecidableEq, Repr

/-- What the memory tests of one device find (R406): lines whose remapped row post-package repair has replaced and whose retest
passes, lines that still fail, and dies that fail throughout. -/
structure MemFail where
  dev : Nat
  repaired : List Nat
  lines : List Nat
  dies : List Nat
deriving DecidableEq, Repr

/-- The commands: one constructor for each row of spec/opcode_table.json. -/
inductive Instr where
  /-- NOP (R122). Thread instruction NOP issues and has no effect. -/
  | nop (w : At) (f : SForm)
  /-- BRA (R125). Threads whose guard passes branch to the instruction index plus TARGET; the group may diverge. -/
  | bra (w : At) (f : BForm)
  /-- BRX (R125). Each thread whose guard passes branches to the index held in its register v[TARGET[7:0]]. -/
  | brx (w : At) (f : BForm)
  /-- MERGE (R126). A thread reaching its pending merge point waits there, or the waiting threads rejoin into one path. -/
  | merge (w : At) (f : SForm)
  /-- EXIT (R127). A thread exits and counts as arrived at every barrier it has not yet reached. -/
  | exit (w : At) (f : SForm)
  /-- SPIN (R108). Spin-wait hint: the active path yields and its threads enter a lock wait. -/
  | spin (w : At) (f : SForm)
  /-- TRAP (R140). Raises the trap exception with code IMM[7:0]. -/
  | trap (w : At) (f : SForm)
  /-- S2R (R128). Reads a special value (lane, site, device time, cycles, mask, partition or next index). -/
  | s2r (w : At) (f : RForm)
  /-- IADD (R122). Integer add modulo 2^32. -/
  | iadd (w : At) (f : RForm)
  /-- ISUB (R122). Integer subtract modulo 2^32. -/
  | isub (w : At) (f : RForm)
  /-- IMUL (R122). Gives the low 32 bits of an integer product. -/
  | imul (w : At) (f : RForm)
  /-- IMULH (R122). Gives the high 32 bits of a signed product. -/
  | imulh (w : At) (f : RForm)
  /-- IMULHU (R122). Gives the high 32 bits of an unsigned product. -/
  | imulhu (w : At) (f : RForm)
  /-- IMAD (R122). Integer multiply-add modulo 2^32. -/
  | imad (w : At) (f : RForm)
  /-- IMIN (R122). Signed minimum. -/
  | imin (w : At) (f : RForm)
  /-- IMAX (R122). Signed maximum. -/
  | imax (w : At) (f : RForm)
  /-- IMINU (R122). Unsigned minimum. -/
  | iminu (w : At) (f : RForm)
  /-- IMAXU (R122). Unsigned maximum. -/
  | imaxu (w : At) (f : RForm)
  /-- IABS (R122). Integer absolute value modulo 2^32. -/
  | iabs (w : At) (f : RForm)
  /-- IDIV (R122). Signed quotient toward zero, with the defined results for division by zero and overflow. -/
  | idiv (w : At) (f : RForm)
  /-- IDIVU (R122). Unsigned quotient, with the defined result for division by zero. -/
  | idivu (w : At) (f : RForm)
  /-- IREM (R122). Signed remainder with the sign of a. -/
  | irem (w : At) (f : RForm)
  /-- IREMU (R122). Unsigned remainder. -/
  | iremu (w : At) (f : RForm)
  /-- AND (R122). Bitwise AND. -/
  | and (w : At) (f : RForm)
  /-- OR (R122). Bitwise OR. -/
  | or (w : At) (f : RForm)
  /-- XOR (R122). Bitwise XOR. -/
  | xor (w : At) (f : RForm)
  /-- SHL (R122). Shift left by b[7:0]. -/
  | shl (w : At) (f : RForm)
  /-- SHR (R122). Logical shift right by b[7:0]. -/
  | shr (w : At) (f : RForm)
  /-- SAR (R122). Arithmetic shift right by b[7:0]. -/
  | sar (w : At) (f : RForm)
  /-- POPC (R122). Count of ones. -/
  | popc (w : At) (f : RForm)
  /-- CLZ (R122). Count of leading zeros. -/
  | clz (w : At) (f : RForm)
  /-- BREV (R122). Bit reversal. -/
  | brev (w : At) (f : RForm)
  /-- ISETP (R121). Signed integer compare into a predicate. -/
  | isetp (w : At) (f : RForm)
  /-- ISETPU (R121). Unsigned integer compare into a predicate. -/
  | isetpu (w : At) (f : RForm)
  /-- FSETP (R121). FP32 compare into a predicate, including the NaN conditions. -/
  | fsetp (w : At) (f : RForm)
  /-- SEL (R122). Selects a or b by a predicate. -/
  | sel (w : At) (f : RForm)
  /-- MOV (R122). Copies a bit for bit. -/
  | mov (w : At) (f : RForm)
  /-- PLOP (R122). Logical operation between two predicates, chosen by MOD. -/
  | plop (w : At) (f : RForm)
  /-- P2R (R122). Packs p7 to p0 into a register. -/
  | p2r (w : At) (f : RForm)
  /-- REG_TO_PRED (R122). R2P instruction: sets p0 to p6 from bits a[6:0]. -/
  | regToPred (w : At) (f : RForm)
  /-- FADD (R123). FP32 add. -/
  | fadd (w : At) (f : RForm)
  /-- FSUB (R123). FP32 subtract. -/
  | fsub (w : At) (f : RForm)
  /-- FMUL (R123). FP32 multiply. -/
  | fmul (w : At) (f : RForm)
  /-- FFMA (R123). FP32 fused multiply-add, rounded once. -/
  | ffma (w : At) (f : RForm)
  /-- FMIN (R123). FP32 minimum as R71 gives. -/
  | fmin (w : At) (f : RForm)
  /-- FMAX (R123). FP32 maximum as R71 gives. -/
  | fmax (w : At) (f : RForm)
  /-- FABS (R122). Clears bit 31. -/
  | fabs (w : At) (f : RForm)
  /-- FNEG (R122). Inverts bit 31. -/
  | fneg (w : At) (f : RForm)
  /-- FDIV (R122). Correctly rounded FP32 divide. -/
  | fdiv (w : At) (f : RForm)
  /-- FSQRT (R122). Correctly rounded FP32 square root. -/
  | fsqrt (w : At) (f : RForm)
  /-- FRCP (R122). FP32 reciprocal, within 1 ulp. -/
  | frcp (w : At) (f : RForm)
  /-- FRSQ (R122). FP32 reciprocal square root, within 1 ulp. -/
  | frsq (w : At) (f : RForm)
  /-- FEXP2 (R122). FP32 2^a, within 2 ulp. -/
  | fexp2 (w : At) (f : RForm)
  /-- FLOG2 (R122). FP32 log2 a, within 2 ulp. -/
  | flog2 (w : At) (f : RForm)
  /-- FSIN (R122). FP32 sine, within the stated absolute error. -/
  | fsin (w : At) (f : RForm)
  /-- FCOS (R122). FP32 cosine, within the stated absolute error. -/
  | fcos (w : At) (f : RForm)
  /-- FTANH (R122). FP32 tanh, within 2 ulp. -/
  | ftanh (w : At) (f : RForm)
  /-- CVTIF (R123). Signed integer to FP32, with the rounding that MOD selects. -/
  | cvtif (w : At) (f : RForm)
  /-- CVTUF (R123). Unsigned integer to FP32, with the rounding that MOD selects. -/
  | cvtuf (w : At) (f : RForm)
  /-- CVTFI (R123). FP32 to signed integer, saturated. -/
  | cvtfi (w : At) (f : RForm)
  /-- CVTFU (R123). FP32 to unsigned integer, saturated. -/
  | cvtfu (w : At) (f : RForm)
  /-- CVTFB (R122). Packs two BF16 conversions of FP32 values. -/
  | cvtfb (w : At) (f : RForm)
  /-- CVTBF (R122). Exact conversion of BF16 to FP32. -/
  | cvtbf (w : At) (f : RForm)
  /-- CVTFH (R122). Packs two FP16 conversions of FP32 values. -/
  | cvtfh (w : At) (f : RForm)
  /-- CVTHF (R122). Exact conversion of FP16 to FP32. -/
  | cvthf (w : At) (f : RForm)
  /-- CVTF8 (R122). Converts FP32 to FP8 and writes it into one byte of the destination. -/
  | cvtf8 (w : At) (f : RForm)
  /-- CVT8F (R122). Exact conversion of an FP8 byte to FP32. -/
  | cvt8f (w : At) (f : RForm)
  /-- SHFL (R129). Lane exchange from a computed source lane. -/
  | shfl (w : At) (f : RForm)
  /-- VOTE (R122). Mask of the threads whose guard passes and whose predicate is true. -/
  | vote (w : At) (f : RForm)
  /-- LD (R130). Load from local memory, window, device address or context gather, allocating in the L1. -/
  | ld (w : At) (f : MForm)
  /-- ST (R130). Store, written through to its place. -/
  | st (w : At) (f : MForm)
  /-- LDNC (R131). Load read at the home slice without using the L1. -/
  | ldnc (w : At) (f : MForm)
  /-- AADD (R132). Atomic add. -/
  | aadd (w : At) (f : MForm)
  /-- AMIN (R132). Atomic signed minimum. -/
  | amin (w : At) (f : MForm)
  /-- AMAX (R132). Atomic signed maximum. -/
  | amax (w : At) (f : MForm)
  /-- AMINU (R132). Atomic unsigned minimum. -/
  | aminu (w : At) (f : MForm)
  /-- AMAXU (R132). Atomic unsigned maximum. -/
  | amaxu (w : At) (f : MForm)
  /-- AAND (R132). Atomic AND. -/
  | aand (w : At) (f : MForm)
  /-- AOR (R132). Atomic OR. -/
  | aor (w : At) (f : MForm)
  /-- AXOR (R132). Atomic XOR. -/
  | axor (w : At) (f : MForm)
  /-- AXCHG (R132). Atomic exchange. -/
  | axchg (w : At) (f : MForm)
  /-- ACAS (R132). Atomic compare-and-swap. -/
  | acas (w : At) (f : MForm)
  /-- AFADD (R132). Atomic FP32 add. -/
  | afadd (w : At) (f : MForm)
  /-- RADD_I32 (R133). In-cache 32-bit integer add reduction. -/
  | raddI32 (w : At) (f : MForm)
  /-- RADD_F32 (R133). In-cache FP32 add reduction. -/
  | raddF32 (w : At) (f : MForm)
  /-- RADD_BF16 (R133). In-cache BF16 add reduction. -/
  | raddBf16 (w : At) (f : MForm)
  /-- RMAX_I32 (R133). In-cache 32-bit integer maximum reduction. -/
  | rmaxI32 (w : At) (f : MForm)
  /-- RMIN_I32 (R133). In-cache 32-bit integer minimum reduction. -/
  | rminI32 (w : At) (f : MForm)
  /-- RMAX_F32 (R133). In-cache FP32 maximum reduction. -/
  | rmaxF32 (w : At) (f : MForm)
  /-- RMIN_F32 (R133). In-cache FP32 minimum reduction. -/
  | rminF32 (w : At) (f : MForm)
  /-- RMAX_BF16 (R133). In-cache BF16 maximum reduction. -/
  | rmaxBf16 (w : At) (f : MForm)
  /-- RMIN_BF16 (R133). In-cache BF16 minimum reduction. -/
  | rminBf16 (w : At) (f : MForm)
  /-- BARG (R134). Group barrier arrival, with the mask taken from a register or from IMM. -/
  | barg (w : At) (f : SForm)
  /-- BARB (R105). Arrival at one of the four block barriers. -/
  | barb (w : At) (f : SForm)
  /-- FENCE (R135). Fence of block, device or group-work scope. -/
  | fence (w : At) (f : SForm)
  /-- TILE (R136). Hands a tile descriptor to the array: checks, queueing and binding of the espalier image. -/
  | tile (w : At) (f : TForm)
  /-- TWAIT (R136). Stalls the group until at most IMM of its tiles remain unfinished. -/
  | twait (w : At) (f : TForm)
  /-- ESPLD (R137). Kernel load of an espalier image into a free slot. -/
  | espld (w : At) (f : TForm)
  /-- DMA (R138). Starts a contiguous copy from a DMA descriptor. -/
  | dma (w : At) (f : TForm)
  /-- DWAIT (R138). Stalls the group until at most IMM of its copies are outstanding. -/
  | dwait (w : At) (f : TForm)
  /-- MOVI (R122). Moves an immediate into a register. -/
  | movi (w : At) (f : IForm)
  /-- IADDI (R122). Integer add with an immediate. -/
  | iaddi (w : At) (f : IForm)
  /-- IMULI (R122). Integer multiply with an immediate. -/
  | imuli (w : At) (f : IForm)
  /-- ANDI (R122). AND with an immediate. -/
  | andi (w : At) (f : IForm)
  /-- ORI (R122). OR with an immediate. -/
  | ori (w : At) (f : IForm)
  /-- XORI (R122). XOR with an immediate. -/
  | xori (w : At) (f : IForm)
  /-- SHLI (R122). Shift left by an immediate. -/
  | shli (w : At) (f : IForm)
  /-- SHRI (R122). Logical shift right by an immediate. -/
  | shri (w : At) (f : IForm)
  /-- SARI (R122). Arithmetic shift right by an immediate. -/
  | sari (w : At) (f : IForm)
  /-- ISETPI (R122). Signed compare with an immediate. -/
  | isetpi (w : At) (f : IForm)
  /-- ISETPUI (R122). Unsigned compare with an immediate. -/
  | isetpui (w : At) (f : IForm)
  /-- FADDI (R122). FP32 add with an immediate. -/
  | faddi (w : At) (f : IForm)
  /-- FMULI (R122). FP32 multiply with an immediate. -/
  | fmuli (w : At) (f : IForm)
  /-- FSETPI (R122). FP32 compare with an immediate. -/
  | fsetpi (w : At) (f : IForm)
  /-- STAGE_WEIGHTS (R52). The feeder begins staging and block-aligning the 64 weight rows of a pass. -/
  | stageWeights (site : Nat)
  /-- PASS_START (R53). A staged front begins and plane 0 of the pass enters row 0. -/
  | passStart (site : Nat) (parityFail : Bool)
  /-- PASS_END (R53). The last plane of a pass has entered row 0. -/
  | passEnd (site : Nat)
  /-- DRAIN_PARTIALS (R53). The pass's block partials are converted and added into the drain bank. -/
  | drainPartials (site : Nat) (residueFail : Bool)
  /-- PRIOR_VALUE_READ (R57). In accumulate mode, the drain reads a strip's prior output values into the bank. -/
  | priorValueRead (site : Nat)
  /-- WRITE_OUT (R57). A strip's write-out starts, through the espalier when ESP = 1. -/
  | writeOut (site : Nat) (parityFail : Bool)
  /-- WRITE_OUT_DONE (R57). A strip's write-out completes and its bank is freed; the tile is finished after its last strip. -/
  | writeOutDone (site : Nat)
  /-- INTERLOCK_END (R56). The earlier tile's write-out ends, and a queued overlapping tile may begin staging. -/
  | interlockEnd (site : Nat)
  /-- FILLER_RAMP_DOWN (R62). After FILLER_MAX gap cycles, and then every 16 cycles, the enabled eighths fall by one. -/
  | fillerRampDown (site : Nat)
  /-- FILLER_RAMP_UP (R62). Every 16 cycles after work arrives, the enabled eighths rise by one. -/
  | fillerRampUp (site : Nat)
  /-- ESP_LOAD_START (R87). A write of 1 to ESP_LOAD.START starts a host load of an espalier image. -/
  | espLoadStart (port : Nat) (site : Nat) (word : W32)
  /-- ESP_IMAGE_LOAD_DONE (R77). An image load completes its checks, and the slot becomes active or the refusal is recorded. -/
  | espImageLoadDone (site : Nat)
  /-- DMA_COMPLETE (R138). Every destination byte of a copy has been written. -/
  | dmaComplete (site : Nat) (job : Nat)
  /-- BLOCK_PLACE (R96). A block is placed on a core with room, its local memory is cleared, and its launch state is set. -/
  | blockPlace (cid : Nat)
  /-- STALL_DETECTOR_FIRE (R111). A block's stall timer reaches 2^22, and the command ends with KERNEL_STALL. -/
  | stallDetectorFire (site : Nat) (block : Nat)
  /-- SLICE_READ (R146). A read reaches its home slice or window, and hits or allocates a miss entry. -/
  | sliceRead (rid : Nat) (errs : List (Nat × CacheErr))
  /-- SLICE_WRITE (R146). A store reaches its home slice or window and is performed, or fetches the sector first. -/
  | sliceWrite (rid : Nat) (errs : List (Nat × CacheErr))
  /-- SLICE_ATOMIC (R132). An atomic is performed indivisibly at its home slice or window. -/
  | sliceAtomic (rid : Nat) (errs : List (Nat × CacheErr))
  /-- SLICE_REDUCTION (R160). A reduction is applied at its home slice or window, or is staged when ordered. -/
  | sliceReduction (rid : Nat) (errs : List (Nat × CacheErr))
  /-- ORDERED_REDUCTION_APPLY (R162). At the end boundary, staged contributions are applied in increasing key order. -/
  | orderedReductionApply (cid : Nat) (half : Nat)
  /-- SECTOR_FILL (R146). Fetched sectors arrive from the memory interface and waiting accesses proceed. -/
  | sectorFill (half : Nat) (line : Nat) (errs : List (Nat × CacheErr))
  /-- WRITE_BACK_ISSUE (R161). The memory interface accepts a held write-back, and it becomes issued. -/
  | writeBackIssue (half : Nat) (line : Nat) (errs : List (Nat × CacheErr))
  /-- WRITE_BACK_PERFORMED (R161). The interface reports a write-back performed, and waiting accesses refetch. -/
  | writeBackPerformed (half : Nat) (line : Nat)
  /-- MIF_ACCESS (R309). A read or write burst is served by the memory interface in the order R309 gives. -/
  | mifAccess (dev : Nat) (line : Nat) (write : Bool) (err : MemErr)
  /-- REFRESH (R311). A per-bank refresh falls due at the interval of the device's band. -/
  | refresh (dev : Nat) (bank : Nat)
  /-- MIF_TEMP_READ (R311). Each die's temperature is read every 1 ms, and bands and holds change. -/
  | mifTempRead (dev : Nat) (temps : List Int)
  /-- WCK2DQ_READ (R314). Every 100 ms the oscillator is read and delays are adjusted, or a retrain starts. -/
  | wck2dqRead (dev : Nat) (drift : Bool)
  /-- MIF_RETRAIN_DONE (R314). A run-time read and write retrain completes, and stalled accesses resume. -/
  | mifRetrainDone (dev : Nat)
  /-- SELF_REFRESH_ENTRY (R333). Every region of a half is parked, and the half enters retention with its device in self-refresh. -/
  | selfRefreshEntry (half : Nat)
  /-- CACHE_WAKE (R333). A request reaches a retained half, and VDD_ARRAY and the device wake. -/
  | cacheWake (half : Nat)
  /-- CACHE_WAKE_DONE (R333). The wake of a retained half completes, and stalled requests proceed. -/
  | cacheWakeDone (half : Nat)
  /-- RETENTION_RETURN (R333). After 10 ms without a request, a parked half returns to retention. -/
  | retentionReturn (half : Nat)
  /-- CACHE_REMAP (R216). Firmware copies a qualifying word into the remap table, or retires the slice when the table is full. -/
  | cacheRemap (half : Nat) (slice : Nat) (word : Nat)
  /-- MEMORY_REMAP (R217). A qualifying line is redirected to a spare line, or reported when no entry is free. -/
  | memoryRemap (dev : Nat) (line : Nat)
  /-- BITMAP_ZERO_FILL (R208). A first write to an uninitialised region zero-fills the region, then sets its bit. -/
  | bitmapZeroFill (dev : Nat) (region : Nat)
  /-- SCRUB_ACCESS (R218). A patrol scrub access reads, corrects or poisons, and rewrites one word. -/
  | scrubAccess (target : ScrubTarget)
  /-- PORT_RESEND (R221). A vertical-port transfer in error is sent again 4 cycles later. -/
  | portResend (half : Nat) (slice : Nat) (lane : Nat) (word : Nat) (write : Bool) (result : CacheErr)
  /-- PORT_TEST (R222). A vertical port test starts on one lane half, periodically, on demand or after a lane threshold. -/
  | portTest (half : Nat) (slice : Nat)
  /-- PORT_TEST_DONE (R223). A port test ends, and failed lanes take spares, halve the width or retire the slice. -/
  | portTestDone (half : Nat) (slice : Nat) (failed : List Nat)
  /-- SLICE_RETIRE (R224). A slice is retired, drained and rehomed, and the core above is kept, replaced or its commands end. -/
  | sliceRetire (half : Nat) (slice : Nat) (errs : List (Nat × CacheErr))
  /-- REHOME_DONE (R145). Rehoming of a retired slice completes, and stalled requests resume. -/
  | rehomeDone (half : Nat) (slice : Nat)
  /-- THRASH_WINDOW_END (R158). A 100 µs thrash window ends, and the run, the thrash event and demotion are updated. -/
  | thrashWindowEnd (half : Nat)
  /-- TRANSPOSE_PIECE (R164). A transpose engine completes a piece of a TRANSPOSE, re-blocking MX data. -/
  | transposePiece (cid : Nat) (half : Nat) (engine : Nat) (fault : Bool)
  /-- ROUTER_PACKET (R235). A packet arrives at a router and is routed, detoured or discarded for a check failure. -/
  | routerPacket (pid : Nat) (checkFail : Bool)
  /-- RESPONSE_ARRIVAL (R247). A response completes its request, or a duplicate is discarded. -/
  | responseArrival (rid : Nat)
  /-- REQUEST_RETRY (R247). After 20 µs and again after 40 µs without a response, a request is resent on the alternate route. -/
  | requestRetry (rid : Nat)
  /-- REQUEST_GIVE_UP (R247). At 60 µs a request gives up and reports a path failure to Coppice. -/
  | requestGiveUp (rid : Nat)
  /-- RECORD_RELEASE (R248). A requester releases the performed-write records held at a target. -/
  | recordRelease (which : Released)
  /-- BUDGET_WINDOW_BOUNDARY (R241). A 1 µs window ends; budget counts restart and class tables take new values. -/
  | budgetWindowBoundary
  /-- CROSSING_MODE_SWITCH (R239). After a half's mesh clock changes, a pleach crossing delivers its flits in flight and switches mode. -/
  | crossingModeSwitch (stack : Nat) (half : Nat)
  /-- RING_MESSAGE (R250). A control message is delivered on the compatibility ring. -/
  | ringMessage (msg : CtlMsg)
  /-- RING_LINK_FAIL (R251). A ring link fails, and control moves to class 0 on the mesh. -/
  | ringLinkFail (stack : Nat) (layer : Nat)
  /-- LAUNCH_MESSAGE (R246). A launch message reaches a core, which invalidates its L1 and latches its start counters. -/
  | launchMessage (cid : Nat) (site : Nat)
  /-- END_BOUNDARY_ORDER (R23). A core receives the end-boundary order, invalidates its L1 and latches its end counters. -/
  | endBoundaryOrder (cid : Nat) (site : Nat)
  /-- CORE_ACKNOWLEDGE (R23). A core acknowledges that its accesses of the command have been performed. -/
  | coreAcknowledge (cid : Nat) (site : Nat)
  /-- COMMAND_END_BOUNDARY (R23). Every core has passed its end boundary; the completion time is taken and the counter record is written. -/
  | commandEndBoundary (cid : Nat)
  /-- STATUS_REPLY (R270). The detail entry and the 16-byte reply are written to the completion ring. -/
  | statusReply (cid : Nat) (writeFails : Bool)
  /-- MSI_X_INTERRUPT (R24). The completion interrupt is sent once the reply is visible. -/
  | msiXInterrupt (port : Nat)
  /-- SQ_TAIL_DOORBELL (R268). A host writes a queue's SQ tail doorbell. -/
  | sqTailDoorbell (port : Nat) (queue : Nat) (value : W32)
  /-- CQ_HEAD_DOORBELL (R268). A host frees completion slots by writing the CQ head doorbell. -/
  | cqHeadDoorbell (port : Nat) (queue : Nat) (value : W32)
  /-- COMMAND_FETCH (R269). Once room exists, the part reads the entry at SQ_HEAD; the packet's arrival is acceptance. -/
  | commandFetch (port : Nat) (queue : Nat) (readFails : Bool)
  /-- QUEUE_ENABLE (R267). A write of EN to a queue block enables or stops the queue, checking its bases. -/
  | queueEnable (port : Nat) (queue : Nat) (word : W32)
  /-- NOP_COMMAND (R276). The NOP command replies SUCCESS. -/
  | nopCommand (cid : Nat)
  /-- LAUNCH (R92). Runs a kernel grid on the partition's cores. -/
  | launch (cid : Nat)
  /-- COPY (R276). Copies a range, at most one side of which is remote. -/
  | copy (cid : Nat)
  /-- FILL (R276). Writes a 64-bit pattern repeatedly. -/
  | fill (cid : Nat)
  /-- TRANSPOSE (R164). Transposes a matrix on the transpose engines. -/
  | transpose (cid : Nat)
  /-- REDUCE (R276). Reduces each source element into the destination in cache. -/
  | reduce (cid : Nat)
  /-- SIGNAL (R276). After earlier commands of its queue reply, sets or adds to a semaphore. -/
  | signal (cid : Nat)
  /-- WAIT (R276). Replies when a semaphore reaches the value given. -/
  | wait (cid : Nat)
  /-- FENCE_COMMAND (R276). Replies when earlier commands of the queue or of the partition have replied. -/
  | fenceCommand (cid : Nat)
  /-- PIN (R157). Pins a range into pin window entries. -/
  | pin (cid : Nat)
  /-- UNPIN (R157). Unpins a window and frees its entry. -/
  | unpin (cid : Nat)
  /-- LOCALIZE (R154). Sets the slice-local window size of the named slices, flushing them. -/
  | localize (cid : Nat)
  /-- CTX_CREATE (R198). Creates a sequence context. -/
  | ctxCreate (cid : Nat)
  /-- CTX_APPEND (R198). Appends pages to a context and sets its length. -/
  | ctxAppend (cid : Nat)
  /-- CTX_TRUNCATE (R198). Shortens a context once earlier commands have passed their end boundaries. -/
  | ctxTruncate (cid : Nat)
  /-- CTX_FREE (R198). Frees a context once earlier commands have passed their end boundaries. -/
  | ctxFree (cid : Nat)
  /-- CTX_QUERY (R198). Writes a context descriptor to an address. -/
  | ctxQuery (cid : Nat)
  /-- TRIM_SET (R337). Sets the Trim setpoint, ramp and floor, or starts release. -/
  | trimSet (cid : Nat)
  /-- PARK (R332). Parks the named regions once no block is resident on them. -/
  | park (cid : Nat)
  /-- UNPARK (R334). Wakes the named regions, switches them on and runs the wake checks. -/
  | unpark (cid : Nat)
  /-- COUNTER_SNAP (R425). Writes same-cycle counter snapshots of one or more cores. -/
  | counterSnap (cid : Nat)
  /-- TRACE_STOP (R428). TRACE_CTL action 0 stops the trace ring. -/
  | traceStop (cid : Nat)
  /-- TRACE_START (R428). TRACE_CTL action 1 starts the trace ring with an event mask. -/
  | traceStart (cid : Nat)
  /-- TRACE_SET_RECORD_RING (R428). TRACE_CTL action 2 sets up or removes the record ring. -/
  | traceSetRecordRing (cid : Nat)
  /-- TRACE_SET_TRACE_RING (R428). TRACE_CTL action 3 sets up or removes the trace ring. -/
  | traceSetTraceRing (cid : Nat)
  /-- SELFTEST_VPORT (R280). SELFTEST kind 1 tests vertical ports. -/
  | selftestVport (cid : Nat) (failed : List (Nat × List Nat))
  /-- SELFTEST_CORE (R280). SELFTEST kind 2 tests core logic once no block is resident on the core. -/
  | selftestCore (cid : Nat) (failed : List Nat)
  /-- SELFTEST_MEMORY (R280). SELFTEST kind 3 tests memory patterns burst by burst without loss of data. -/
  | selftestMemory (cid : Nat) (failed : List (Nat × Nat))
  /-- PART_CREATE (R284). Creates a partition from a descriptor and clears its ranges. -/
  | partCreate (cid : Nat)
  /-- PART_DESTROY (R286). Resets a partition and frees everything it holds. -/
  | partDestroy (cid : Nat)
  /-- PART_RESET (R285). Resets a partition's cores, queues and windows without a reply to pending commands. -/
  | partReset (cid : Nat)
  /-- FW_LOAD (R412). Checks a signed firmware or configuration image and writes it to flash. -/
  | fwLoad (cid : Nat) (flashOk : Bool)
  /-- QUICKSET_STORE (R317). Stores the present training of every interface as Quickset records. -/
  | quicksetStore (cid : Nat) (flashOk : Bool)
  /-- HEALTH_QUERY (R393). Writes the health report. -/
  | healthQuery (cid : Nat)
  /-- THERMAL_READ (R288). Management command that returns every sensor reading. -/
  | thermalRead
  /-- POWER_READ (R288). Management command that returns the input power and the Trim state. -/
  | powerRead
  /-- SMBUS_BLOCK_WRITE (R288). An SMBus Block Write delivers a command packet, checked by PEC. -/
  | smbusBlockWrite (data : List Byte) (pecOk : Bool)
  /-- SMBUS_BLOCK_READ (R288). An SMBus Block Read returns the reply and result. -/
  | smbusBlockRead (pecOk : Bool)
  /-- COMMAND_TIMEOUT (R273). A command's timeout expires, and the command ends with TIMEOUT. -/
  | commandTimeout (cid : Nat)
  /-- HOST_WINDOW_READ (R263). A host read through the device-memory window is served at the place of the data, or refused. -/
  | hostWindowRead (port : Nat) (off : Nat) (len : Nat)
  /-- HOST_WINDOW_WRITE (R263). A host write through the device-memory window is performed, or discarded. -/
  | hostWindowWrite (port : Nat) (off : Nat) (data : List Byte)
  /-- ATOMICOP_REQUEST (R191). A PCI Express AtomicOp completes with Unsupported Request. -/
  | atomicopRequest (port : Nat)
  /-- FUNCTION_LEVEL_RESET (R264). Resets every partition and queue of one host port. -/
  | functionLevelReset (port : Nat)
  /-- PERST_N (R264). PERST_N of a host port resets the port's partitions and retrains the link. -/
  | perstN (port : Nat) (level : Bool)
  /-- D3HOT_ENTRY (R265). The host puts a port into D3hot, and fetching and replies to host memory are held. -/
  | d3hotEntry (port : Nat)
  /-- D0_RETURN (R265). A port returns to D0, writes held replies, sends held interrupts and resumes fetching. -/
  | d0Return (port : Nat)
  /-- HOST_LINK_TRAINING (R261). A host port trains its PCI Express link. -/
  | hostLinkTraining (port : Nat) (rate : Nat) (width : Nat) (bar2 : Nat)
  /-- FABRIC_PORT_TRAINING (R298). A fabric port trains on EN, RETRAIN or cable connection, detecting wiring faults. -/
  | fabricPortTraining (port : Nat)
  /-- RETRAIN (R298). A write of 1 to FP_CTRL.RETRAIN starts full retraining. -/
  | retrain (hostPort : Nat) (port : Nat)
  /-- ACCEPT_HELD (R298). A write of 1 to FP_CTRL.ACCEPT_HELD releases a link held for a crossed cable. -/
  | acceptHeld (hostPort : Nat) (port : Nat)
  /-- LINK_FRAME_ERROR (R299). A frame fails its CRC or shows a sequence gap, and a negative acknowledgement starts a replay. `nak`
is the peer and the number of the first frame it asks for, where a frame of this port failed there; none where a frame failed here. -/
  | linkFrameError (port : Nat) (nak : Option (Nat × W32)) (badLanes : Nat)
  /-- RETX_TIMER (R299). In Ethernet mode, unacknowledged packets are replayed after RETX_US. -/
  | retxTimer (port : Nat)
  /-- LINK_GIVE_UP (R300). The 17th replay within 100 µs gives up the link, fails its packets and starts retraining at reduced width. -/
  | linkGiveUp (port : Nat) (badLanes : Nat)
  /-- FABRIC_READ_REQUEST (R297). A remote read request arrives and is accepted, forwarded or refused. -/
  | fabricReadRequest (port : Nat) (pkt : FabPkt)
  /-- FABRIC_READ_RESPONSE (R294). A read response arrives at the requesting part. -/
  | fabricReadResponse (port : Nat) (pkt : FabPkt)
  /-- FABRIC_WRITE (R297). A remote write arrives and is performed once, answered from its record, or refused. -/
  | fabricWrite (port : Nat) (pkt : FabPkt)
  /-- FABRIC_ATOMIC (R297). A remote atomic arrives and is performed once, or refused. -/
  | fabricAtomic (port : Nat) (pkt : FabPkt)
  /-- FABRIC_REDUCTION (R297). A remote reduction arrives and is performed once, or refused. -/
  | fabricReduction (port : Nat) (pkt : FabPkt)
  /-- FABRIC_ACKNOWLEDGEMENT (R192). An acknowledgement completes a remote write, atomic or reduction. -/
  | fabricAcknowledgement (port : Nat) (pkt : FabPkt)
  /-- FABRIC_REFUSAL (R297). A refusal arrives, and the requesting command ends with REMOTE_FAIL. -/
  | fabricRefusal (port : Nat) (pkt : FabPkt)
  /-- TIME_MARK (R302). A marked packet is stamped on leaving or arriving, and a mark record is written. -/
  | timeMark (port : Nat) (pkt : FabPkt)
  /-- MARK_SEND (R302). While marks are enabled, a mark is sent on every up port each 1 ms. -/
  | markSend
  /-- REMOTE_ACCESS_TIMEOUT (R301). The 10 ms remote-access timer expires, and the command ends with REMOTE_FAIL code 6. -/
  | remoteAccessTimeout (rid : Nat)
  /-- REMOTE_RESEND (R301). After a give-up, a request is resent once on the alternate port. -/
  | remoteResend (rid : Nat)
  /-- GOVERNOR_MEASURE (R335). Every 1 µs the stack governor updates its average and lowers or raises region steps. -/
  | governorMeasure (stack : Nat) (power16 : Nat)
  /-- STEP_CHANGE (R354). A requested clock step takes effect at the region's next frame boundary. -/
  | stepChange (stack : Nat) (region : Nat)
  /-- DROOP_CROSSING (R355). The supply falls below the droop level, and the next clock edge is stretched. -/
  | droopCrossing (stack : Nat) (region : Nat) (below : Nat)
  /-- SWITCH_ON_STEP (R330). One eighth of a region's power switches closes, once headroom allows. -/
  | switchOnStep (stack : Nat) (region : Nat) (halfCurrent : Nat) (peaks : List Nat)
  /-- SWITCH_ON_WAIT_EXPIRY (R330). After a 50 µs wait, the governor lowers neighbours at peak or every running region of the half. -/
  | switchOnWaitExpiry (stack : Nat) (region : Nat) (peaks : List Nat)
  /-- REGION_ON (R331). A region's reset is released and it runs at its standing step. -/
  | regionOn (stack : Nat) (region : Nat)
  /-- REGULATOR_FAIL (R328). A region regulator fails; the region is capped, or goes dark together with a failed neighbour. -/
  | regulatorFail (stack : Nat) (region : Nat)
  /-- PHASE_FAIL (R324). An in-package converter phase fails and is disabled, and the stack cap is scaled. -/
  | phaseFail (stack : Nat) (array : Bool)
  /-- POWER_FAULT (R336). A rail out of range for 10 µs disables the stack's rails and holds the part not ready. -/
  | powerFault (stack : Nat)
  /-- TRIM_PERIOD (R339). Every 100 µs Trim measures power and moves its actuators within lo to hi. -/
  | trimPeriod (meas : TrimMeas)
  /-- TRIM_REPORT (R344). Every millisecond the average power is written to TRIM_POWER. -/
  | trimReport
  /-- SENSOR_SAMPLE (R361). The sensor hub samples every sensor at 1 or 20 kHz and applies throttle, bands, estimates and suspect marks. -/
  | sensorSample (stack : Nat) (readings : List Int) (powers : List Int)
  /-- SRAM_BAND_CHANGE (R364). A cache sensor's SRAM band changes, and the slices stall for 64 cycles. -/
  | sramBandChange (stack : Nat) (sensor : Nat) (band : Nat)
  /-- THERMAL_TRIP (R368). A comparator or firmware estimate starts the trip; all region switches open and the rails are disabled. -/
  | thermalTrip (stack : Nat) (sensor : Nat)
  /-- TRIP_LATCH_CLEAR (R369). After 10 s below 75 °C the latch clears, and the part restarts or waits for RESET_N. -/
  | tripLatchClear
  /-- CLOCK_FAULT (R352). A root PLL out of lock for 10 µs disables the stack's rails. -/
  | clockFault (stack : Nat)
  /-- TIME_ALIGN_CHECK (R358). Every 1 s the primary checks each stack's device-time copy and corrects it. -/
  | timeAlignCheck (stack : Nat) (found : Int)
  /-- CLK_TIME_READ (R371). A read of CLK_TIME_LO returns the low word and latches the high word for the reading port. -/
  | clkTimeRead (port : Nat) (stack : Nat)
  /-- COUNTER_LOW_READ (R415). A read of a 64-bit counter's low word latches its high word for the reading master. -/
  | counterLowRead (master : Nat) (addr : Nat)
  /-- CNT_CORE_CLEAR (R419). A write of 1 to CNT_CORE_CTRL.CLEAR clears the core's event counters and OVF flags. -/
  | cntCoreClear (port : Nat) (site : Nat)
  /-- CNT_CLEAR (R421). A write to the stack CNT_ CLEAR field clears the event counters of the named blocks. -/
  | cntClear (port : Nat) (stack : Nat) (mask : W32)
  /-- ELOG_CLEAR (R215). A write of 1 to ELOG_CTRL.CLEAR invalidates corrected log entries that are not remapped. -/
  | elogClear (port : Nat) (mem : Bool) (unit : Nat)
  /-- TR_RPTR_WRITE (R429). A ring owner writes TR_RPTR, freeing room and allowing a lost-records record. -/
  | trRptrWrite (port : Nat) (ring : Nat) (value : W32)
  /-- REGISTER_WRITE (R6). A write to a register without a row of its own updates its RW and W1C fields by access code. -/
  | registerWrite (port : Nat) (off : Nat) (value : W32)
  /-- CORE_FENCE (R374). Coppice fences a failed core: stops issue, waits out its requests and holds it in reset. -/
  | coreFence (site : Nat) (cause : CoreCause)
  /-- WAKE_CHECK_DONE (R334). A core's wake check completes, and it joins service or is handed to Coppice. -/
  | wakeCheckDone (site : Nat) (pass : Bool)
  /-- WINDOW_COPY (R380). A failed core's window is copied to the spare's slice. -/
  | windowCopy (src : Nat) (dst : Nat)
  /-- REPLAY_PLACE (R381). Affected blocks and pieces are replayed under their commit marks. -/
  | replayPlace (cid : Nat)
  /-- CONTROL_ACK_TIMEOUT (R373). No acknowledgement of a class-0 control message within 100 µs is a core fault. -/
  | controlAckTimeout (site : Nat)
  /-- ROUTER_CREDIT_TIMEOUT (R373). A router that returns no credit for 100 µs is bypassed. -/
  | routerCreditTimeout (site : Nat)
  /-- ROUTER_BYPASS (R237). Firmware writes override entries around a failed router or link. -/
  | routerBypass (site : Nat)
  /-- COMMAND_PROCESSOR_WATCHDOG (R373). After 10 ms of watchdog, a processor's queues move to the next processor. -/
  | commandProcessorWatchdog (stack : Nat) (cp : Nat)
  /-- HALF_LOSS (R388). A half is lost; its cores and routers leave service and its accesses are poisoned or refused. -/
  | halfLoss (half : Nat)
  /-- LANE_FAULT (R378). A thread-lane residue failure restricts the core and brings in a spare. -/
  | laneFault (site : Nat) (lane : Nat)
  /-- HEALTH_RECORD_STORE (R412). The health record is stored at stage 10, at each fault event and once per powered hour. -/
  | healthRecordStore
  /-- FLASH_STORE_DONE (R412). A flash store completes, or FLASH_FAIL is reported. -/
  | flashStoreDone (ok : Bool)
  /-- RESET_N_ASSERT (R394). RESET_N asserted resets the whole part. -/
  | resetNAssert (level : Bool)
  /-- PWRGD_DEASSERT (R442). PWRGD falls, and the part holds reset and powers down its rails within 20 µs. -/
  | pwrgdDeassert (level : Bool)
  /-- BOOT_ROM (R397). Stage 1: each controller runs its boot ROM and self-test. -/
  | bootRom (primaryOk : Bool) (badStack : Option Nat)
  /-- FIRMWARE_CHECK (R398). Stage 2: the primary chooses a valid firmware bank and configuration. -/
  | firmwareCheck
  /-- FIRMWARE_BROADCAST (R398). Stage 3: the rails come on, regions switch on and firmware is broadcast. -/
  | firmwareBroadcast (badCores : List Nat)
  /-- CORNER_SELF_TEST (R399). Stage 4: self-test of every unit at three corners. -/
  | cornerSelfTest (result : SelfTest)
  /-- RECONCILIATION (R400). Stage 5: fuses, test results and health records are reconciled and the enabled set is chosen. -/
  | reconciliation
  /-- VPORT_STAGE_TEST (R402). Stage 6: every vertical port is tested. -/
  | vportStageTest (failed : List (Nat × List Nat))
  /-- TRAINING_STAGE (R403). Stage 7: stack links, fabric ports and memory interfaces train, fully or from Quickset. -/
  | trainingStage (result : Training)
  /-- PATTERN_TEST (R404). Stage 8: every memory device is pattern-tested and failures are repaired or remapped. -/
  | patternTest (failed : List MemFail)
  /-- RETENTION_TEST (R404). Stage 9: every memory device is retention-tested. -/
  | retentionTest (failed : List MemFail)
  /-- TOPOLOGY_CHECK (R407). Stage 10: topology is checked, state is set up, records are stored and READY is raised. -/
  | topologyCheck (badLink : Option Nat)
  /-- REFCLK_STOP (R443). A stopped reference clock for 10 µs becomes a clock fault. -/
  | refclkStop
  /-- EXTEST (R430). TAP EXTEST drives boundary cells while RESET_N is asserted. -/
  | extest
  /-- SAMPLE_PRELOAD (R430). TAP SAMPLE/PRELOAD captures and preloads the boundary register. -/
  | samplePreload (captured : Nat) (preload : Nat)
  /-- IDCODE (R430). TAP IDCODE returns the identification code. -/
  | idcode
  /-- CLAMP (R430). TAP CLAMP holds boundary outputs while RESET_N is asserted. -/
  | clamp
  /-- HIGHZ (R430). TAP HIGHZ releases outputs to high impedance while RESET_N is asserted. -/
  | highz
  /-- BYPASS (R430). TAP BYPASS selects the 1-bit bypass register. -/
  | bypass
  /-- DBG_CHALLENGE (R430). Returns the debug nonce and the part serial. -/
  | dbgChallenge
  /-- DBG_TOKEN (R431). Verifies a signed debug token and sets the debug level. -/
  | dbgToken (token : List Byte)
  /-- DBG_LOCK (R431). Returns the debug level to 0 and releases halts and breakpoints. -/
  | dbgLock
  /-- DBG_REG (R430). Debug register read or write at the unlocked level. -/
  | dbgReg (dr : BitVec 96)
  /-- DBG_MEM (R430). Debug memory read or write, performed at the place. -/
  | dbgMem (dr : BitVec 128)
  /-- DEBUG_EXPIRY (R431). Device time reaches the token's EXPIRY, and the debug level returns to 0. -/
  | debugExpiry
  /-- HALT (R434). A write of 1 to a site's HALT stops issue of the target groups. -/
  | halt (site : Nat)
  /-- RESUME (R434). A write of 1 to a site's RESUME releases the target groups. -/
  | resume (site : Nat)
  /-- STEP (R434). A write of 1 to a site's STEP issues one instruction of a halted group once it is ready. -/
  | step (site : Nat)
  /-- HOST_LINK_DOWN (R287). A host port's PCI Express link goes down without PERST_N; admin commands become unavailable while other partitions run on and Trim holds its setting. -/
  | hostLinkDown (port : Nat)
  /-- FABRIC_LINK_DOWN (R303). An up fabric port loses its link, and packets queued for it move to the alternate port or fail as a give-up. -/
  | fabricLinkDown (port : Nat)
  /-- FABRIC_TRAINING_DONE (R298). Fabric port training ends, within 400 ms, with the port up, held for a wiring reason, or down. -/
  | fabricTrainingDone (port : Nat) (result : FabTrain)
  /-- FABRIC_TRAINING_RETRY (R298). A port left down because its peer is in the other mode retries training every 1 s. -/
  | fabricTrainingRetry (port : Nat)
  /-- VDD_AON_LOSS (R10). VDD_AON falls out of range; the kept fields and the thermal-trip latch lose their values. -/
  | vddAonLoss
  /-- ROOT_PLL_LOCK (R357). The root PLLs lock; device time starts at 0 in the primary's locking tick, and a bring-up waiting in stage 1 proceeds. -/
  | rootPllLock (stack : Nat)
  /-- TAP_RESET (R430). The TAP enters Test-Logic-Reset on TRST_N or the TMS sequence, and IDCODE is selected. -/
  | tapReset
deriving DecidableEq, Repr

end Sys2Proof
end

