-- ==== Sys2Proof/WellFormed.lean ====
section
/-! DEFINITION. Which commands are well formed: every unit they name lies in the range of the largest grade (R2, R13, R15,
R16, R91). Within a smaller grade, a unit it lacks stops the step (log entry 4). -/

namespace Sys2Proof

/-- A site identifier of 12 bits (R13). -/
def siteOk (n : Nat) : Bool := decide (n < 4096)
/-- A host port, 0 to 3 (R16). -/
def hostPortOk (n : Nat) : Bool := decide (n < 4)
/-- A fabric port, 0 to 15 (R16). -/
def fabPortOk (n : Nat) : Bool := decide (n < 16)
/-- A stack, 0 to 7 (R2). -/
def stackOk (n : Nat) : Bool := decide (n < 8)
/-- A half or a memory device, 0 to 15 (R15). -/
def halfOk (n : Nat) : Bool := decide (n < 16)
/-- A slice of a half or a region of a stack, 0 to 255 (R144, R349). -/
def sliceOk (n : Nat) : Bool := decide (n < 256)
/-- A site and a group slot (R13, R91). -/
def At.ok (w : At) : Bool := siteOk w.site && decide (w.slot < 64)

/-- Whether a command is well formed. -/
def Instr.wf : Instr → Bool
  | .nop w _ => w.ok
  | .bra w _ => w.ok
  | .brx w _ => w.ok
  | .merge w _ => w.ok
  | .exit w _ => w.ok
  | .spin w _ => w.ok
  | .trap w _ => w.ok
  | .s2r w _ => w.ok
  | .iadd w _ => w.ok
  | .isub w _ => w.ok
  | .imul w _ => w.ok
  | .imulh w _ => w.ok
  | .imulhu w _ => w.ok
  | .imad w _ => w.ok
  | .imin w _ => w.ok
  | .imax w _ => w.ok
  | .iminu w _ => w.ok
  | .imaxu w _ => w.ok
  | .iabs w _ => w.ok
  | .idiv w _ => w.ok
  | .idivu w _ => w.ok
  | .irem w _ => w.ok
  | .iremu w _ => w.ok
  | .and w _ => w.ok
  | .or w _ => w.ok
  | .xor w _ => w.ok
  | .shl w _ => w.ok
  | .shr w _ => w.ok
  | .sar w _ => w.ok
  | .popc w _ => w.ok
  | .clz w _ => w.ok
  | .brev w _ => w.ok
  | .isetp w _ => w.ok
  | .isetpu w _ => w.ok
  | .fsetp w _ => w.ok
  | .sel w _ => w.ok
  | .mov w _ => w.ok
  | .plop w _ => w.ok
  | .p2r w _ => w.ok
  | .regToPred w _ => w.ok
  | .fadd w _ => w.ok
  | .fsub w _ => w.ok
  | .fmul w _ => w.ok
  | .ffma w _ => w.ok
  | .fmin w _ => w.ok
  | .fmax w _ => w.ok
  | .fabs w _ => w.ok
  | .fneg w _ => w.ok
  | .fdiv w _ => w.ok
  | .fsqrt w _ => w.ok
  | .frcp w _ => w.ok
  | .frsq w _ => w.ok
  | .fexp2 w _ => w.ok
  | .flog2 w _ => w.ok
  | .fsin w _ => w.ok
  | .fcos w _ => w.ok
  | .ftanh w _ => w.ok
  | .cvtif w _ => w.ok
  | .cvtuf w _ => w.ok
  | .cvtfi w _ => w.ok
  | .cvtfu w _ => w.ok
  | .cvtfb w _ => w.ok
  | .cvtbf w _ => w.ok
  | .cvtfh w _ => w.ok
  | .cvthf w _ => w.ok
  | .cvtf8 w _ => w.ok
  | .cvt8f w _ => w.ok
  | .shfl w _ => w.ok
  | .vote w _ => w.ok
  | .ld w _ => w.ok
  | .st w _ => w.ok
  | .ldnc w _ => w.ok
  | .aadd w _ => w.ok
  | .amin w _ => w.ok
  | .amax w _ => w.ok
  | .aminu w _ => w.ok
  | .amaxu w _ => w.ok
  | .aand w _ => w.ok
  | .aor w _ => w.ok
  | .axor w _ => w.ok
  | .axchg w _ => w.ok
  | .acas w _ => w.ok
  | .afadd w _ => w.ok
  | .raddI32 w _ => w.ok
  | .raddF32 w _ => w.ok
  | .raddBf16 w _ => w.ok
  | .rmaxI32 w _ => w.ok
  | .rminI32 w _ => w.ok
  | .rmaxF32 w _ => w.ok
  | .rminF32 w _ => w.ok
  | .rmaxBf16 w _ => w.ok
  | .rminBf16 w _ => w.ok
  | .barg w _ => w.ok
  | .barb w _ => w.ok
  | .fence w _ => w.ok
  | .tile w _ => w.ok
  | .twait w _ => w.ok
  | .espld w _ => w.ok
  | .dma w _ => w.ok
  | .dwait w _ => w.ok
  | .movi w _ => w.ok
  | .iaddi w _ => w.ok
  | .imuli w _ => w.ok
  | .andi w _ => w.ok
  | .ori w _ => w.ok
  | .xori w _ => w.ok
  | .shli w _ => w.ok
  | .shri w _ => w.ok
  | .sari w _ => w.ok
  | .isetpi w _ => w.ok
  | .isetpui w _ => w.ok
  | .faddi w _ => w.ok
  | .fmuli w _ => w.ok
  | .fsetpi w _ => w.ok
  | .stageWeights site => siteOk site
  | .passStart site _ => siteOk site
  | .passEnd site => siteOk site
  | .drainPartials site _ => siteOk site
  | .priorValueRead site => siteOk site
  | .writeOut site _ => siteOk site
  | .writeOutDone site => siteOk site
  | .interlockEnd site => siteOk site
  | .fillerRampDown site => siteOk site
  | .fillerRampUp site => siteOk site
  | .espLoadStart port site _ => hostPortOk port && siteOk site
  | .espImageLoadDone site => siteOk site
  | .dmaComplete site _ => siteOk site
  | .blockPlace _ => true
  | .stallDetectorFire site _ => siteOk site
  | .sliceRead _ _ => true
  | .sliceWrite _ _ => true
  | .sliceAtomic _ _ => true
  | .sliceReduction _ _ => true
  | .orderedReductionApply _ half => halfOk half
  | .sectorFill half _ _ => halfOk half
  | .writeBackIssue half _ _ => halfOk half
  | .writeBackPerformed half _ => halfOk half
  | .mifAccess dev _ _ _ => halfOk dev
  | .refresh dev _ => halfOk dev
  | .mifTempRead dev _ => halfOk dev
  | .wck2dqRead dev _ => halfOk dev
  | .mifRetrainDone dev => halfOk dev
  | .selfRefreshEntry half => halfOk half
  | .cacheWake half => halfOk half
  | .cacheWakeDone half => halfOk half
  | .retentionReturn half => halfOk half
  | .cacheRemap half slice _ => halfOk half && sliceOk slice
  | .memoryRemap dev _ => halfOk dev
  | .bitmapZeroFill dev _ => halfOk dev
  | .scrubAccess _ => true
  | .portResend half slice _ _ _ _ => halfOk half && sliceOk slice
  | .portTest half slice => halfOk half && sliceOk slice
  | .portTestDone half slice _ => halfOk half && sliceOk slice
  | .sliceRetire half slice _ => halfOk half && sliceOk slice
  | .rehomeDone half slice => halfOk half && sliceOk slice
  | .thrashWindowEnd half => halfOk half
  | .transposePiece _ half _ _ => halfOk half
  | .routerPacket _ _ => true
  | .responseArrival _ => true
  | .requestRetry _ => true
  | .requestGiveUp _ => true
  | .recordRelease _ => true
  | .budgetWindowBoundary => true
  | .crossingModeSwitch stack half => stackOk stack && halfOk half
  | .ringMessage _ => true
  | .ringLinkFail stack _ => stackOk stack
  | .launchMessage _ site => siteOk site
  | .endBoundaryOrder _ site => siteOk site
  | .coreAcknowledge _ site => siteOk site
  | .commandEndBoundary _ => true
  | .statusReply _ _ => true
  | .msiXInterrupt port => hostPortOk port
  | .sqTailDoorbell port _ _ => hostPortOk port
  | .cqHeadDoorbell port _ _ => hostPortOk port
  | .commandFetch port _ _ => hostPortOk port
  | .queueEnable port _ _ => hostPortOk port
  | .nopCommand _ => true
  | .launch _ => true
  | .copy _ => true
  | .fill _ => true
  | .transpose _ => true
  | .reduce _ => true
  | .signal _ => true
  | .wait _ => true
  | .fenceCommand _ => true
  | .pin _ => true
  | .unpin _ => true
  | .localize _ => true
  | .ctxCreate _ => true
  | .ctxAppend _ => true
  | .ctxTruncate _ => true
  | .ctxFree _ => true
  | .ctxQuery _ => true
  | .trimSet _ => true
  | .park _ => true
  | .unpark _ => true
  | .counterSnap _ => true
  | .traceStop _ => true
  | .traceStart _ => true
  | .traceSetRecordRing _ => true
  | .traceSetTraceRing _ => true
  | .selftestVport _ _ => true
  | .selftestCore _ _ => true
  | .selftestMemory _ _ => true
  | .partCreate _ => true
  | .partDestroy _ => true
  | .partReset _ => true
  | .fwLoad _ _ => true
  | .quicksetStore _ _ => true
  | .healthQuery _ => true
  | .thermalRead => true
  | .powerRead => true
  | .smbusBlockWrite _ _ => true
  | .smbusBlockRead _ => true
  | .commandTimeout _ => true
  | .hostWindowRead port _ _ => hostPortOk port
  | .hostWindowWrite port _ _ => hostPortOk port
  | .atomicopRequest port => hostPortOk port
  | .functionLevelReset port => hostPortOk port
  | .perstN port _ => hostPortOk port
  | .d3hotEntry port => hostPortOk port
  | .d0Return port => hostPortOk port
  | .hostLinkTraining port _ _ _ => hostPortOk port
  | .fabricPortTraining port => fabPortOk port
  | .retrain hostPort port => hostPortOk hostPort && fabPortOk port
  | .acceptHeld hostPort port => hostPortOk hostPort && fabPortOk port
  | .linkFrameError port _ _ => fabPortOk port
  | .retxTimer port => fabPortOk port
  | .linkGiveUp port _ => fabPortOk port
  | .fabricReadRequest port _ => fabPortOk port
  | .fabricReadResponse port _ => fabPortOk port
  | .fabricWrite port _ => fabPortOk port
  | .fabricAtomic port _ => fabPortOk port
  | .fabricReduction port _ => fabPortOk port
  | .fabricAcknowledgement port _ => fabPortOk port
  | .fabricRefusal port _ => fabPortOk port
  | .timeMark port _ => fabPortOk port
  | .markSend => true
  | .remoteAccessTimeout _ => true
  | .remoteResend _ => true
  | .governorMeasure stack _ => stackOk stack
  | .stepChange stack region => stackOk stack && sliceOk region
  | .droopCrossing stack region _ => stackOk stack && sliceOk region
  | .switchOnStep stack region _ _ => stackOk stack && sliceOk region
  | .switchOnWaitExpiry stack region _ => stackOk stack && sliceOk region
  | .regionOn stack region => stackOk stack && sliceOk region
  | .regulatorFail stack region => stackOk stack && sliceOk region
  | .phaseFail stack _ => stackOk stack
  | .powerFault stack => stackOk stack
  | .trimPeriod _ => true
  | .trimReport => true
  | .sensorSample stack _ _ => stackOk stack
  | .sramBandChange stack _ _ => stackOk stack
  | .thermalTrip stack _ => stackOk stack
  | .tripLatchClear => true
  | .clockFault stack => stackOk stack
  | .timeAlignCheck stack _ => stackOk stack
  | .clkTimeRead port stack => hostPortOk port && stackOk stack
  | .counterLowRead _ _ => true
  | .cntCoreClear port site => hostPortOk port && siteOk site
  | .cntClear port stack _ => hostPortOk port && stackOk stack
  | .elogClear port _ _ => hostPortOk port
  | .trRptrWrite port _ _ => hostPortOk port
  | .registerWrite port _ _ => hostPortOk port
  | .coreFence site _ => siteOk site
  | .wakeCheckDone site _ => siteOk site
  | .windowCopy _ _ => true
  | .replayPlace _ => true
  | .controlAckTimeout site => siteOk site
  | .routerCreditTimeout site => siteOk site
  | .routerBypass site => siteOk site
  | .commandProcessorWatchdog stack _ => stackOk stack
  | .halfLoss half => halfOk half
  | .laneFault site _ => siteOk site
  | .healthRecordStore => true
  | .flashStoreDone _ => true
  | .resetNAssert _ => true
  | .pwrgdDeassert _ => true
  | .bootRom _ _ => true
  | .firmwareCheck => true
  | .firmwareBroadcast _ => true
  | .cornerSelfTest _ => true
  | .reconciliation => true
  | .vportStageTest _ => true
  | .trainingStage _ => true
  | .patternTest _ => true
  | .retentionTest _ => true
  | .topologyCheck _ => true
  | .refclkStop => true
  | .extest => true
  | .samplePreload _ _ => true
  | .idcode => true
  | .clamp => true
  | .highz => true
  | .bypass => true
  | .dbgChallenge => true
  | .dbgToken _ => true
  | .dbgLock => true
  | .dbgReg _ => true
  | .dbgMem _ => true
  | .debugExpiry => true
  | .halt site => siteOk site
  | .resume site => siteOk site
  | .step site => siteOk site
  | .hostLinkDown port => hostPortOk port
  | .fabricLinkDown port => fabPortOk port
  | .fabricTrainingDone port _ => fabPortOk port
  | .fabricTrainingRetry port => fabPortOk port
  | .vddAonLoss => true
  | .rootPllLock stack => stackOk stack
  | .tapReset => true

end Sys2Proof
end

