-- ==== Sys2Proof/Decode.lean ====
section
/-! DEFINITION. Words. No row of spec/opcode_table.json gives bits, so no word spells a command; but the spec lays out the words of
the thread instructions (R119, R120, R122), and these are encoded and decoded here. -/

namespace Sys2Proof

/-- The command that a word spells by the table's bits: none, since the table gives no row bits. -/
def decodeTableWord (_nbits _w : Nat) : Option Instr := none

/-! ## The formats (R119): bits [63:56] hold OP -/

/-- Bits [hi:lo] of a word. -/
def bitsOf (hi lo n : Nat) : Nat := n / 2 ^ lo % 2 ^ (hi + 1 - lo)

/-- A flag as a number. -/
def flagNat (b : Bool) : Nat := if b then 1 else 0

/-- Format R (R119), register arithmetic: the word of an opcode and its fields. -/
def RForm.word (op : Nat) (f : RForm) : Nat :=
  op * 2 ^ 56 + f.pg.toNat * 2 ^ 53 + flagNat f.pn * 2 ^ 52 + f.mod.toNat * 2 ^ 48 + flagNat f.ud * 2 ^ 47 +
    flagNat f.ua * 2 ^ 46 + flagNat f.ub * 2 ^ 45 + flagNat f.uc * 2 ^ 44 + f.rsv.toNat * 2 ^ 32 + f.c.toNat * 2 ^ 24 +
    f.b.toNat * 2 ^ 16 + f.a.toNat * 2 ^ 8 + f.d.toNat

/-- The fields of a word of format R (R119). -/
def RForm.ofWord (n : Nat) : RForm :=
  { pg := BitVec.ofNat 3 (bitsOf 55 53 n), pn := decide (bitsOf 52 52 n = 1), mod := BitVec.ofNat 4 (bitsOf 51 48 n),
    ud := decide (bitsOf 47 47 n = 1), ua := decide (bitsOf 46 46 n = 1), ub := decide (bitsOf 45 45 n = 1),
    uc := decide (bitsOf 44 44 n = 1), rsv := BitVec.ofNat 12 (bitsOf 43 32 n), c := BitVec.ofNat 8 (bitsOf 31 24 n),
    b := BitVec.ofNat 8 (bitsOf 23 16 n), a := BitVec.ofNat 8 (bitsOf 15 8 n), d := BitVec.ofNat 8 (bitsOf 7 0 n) }

/-- Format I (R119), immediate: the word of an opcode and its fields. -/
def IForm.word (op : Nat) (f : IForm) : Nat :=
  op * 2 ^ 56 + f.pg.toNat * 2 ^ 53 + flagNat f.pn * 2 ^ 52 + flagNat f.ud * 2 ^ 51 + flagNat f.ua * 2 ^ 50 +
    f.rsv.toNat * 2 ^ 48 + f.d.toNat * 2 ^ 40 + f.a.toNat * 2 ^ 32 + f.imm.toNat

/-- The fields of a word of format I (R119). -/
def IForm.ofWord (n : Nat) : IForm :=
  { pg := BitVec.ofNat 3 (bitsOf 55 53 n), pn := decide (bitsOf 52 52 n = 1), ud := decide (bitsOf 51 51 n = 1),
    ua := decide (bitsOf 50 50 n = 1), rsv := BitVec.ofNat 2 (bitsOf 49 48 n), d := BitVec.ofNat 8 (bitsOf 47 40 n),
    a := BitVec.ofNat 8 (bitsOf 39 32 n), imm := BitVec.ofNat 32 (bitsOf 31 0 n) }

/-- Format M (R119), memory: the word of an opcode and its fields. -/
def MForm.word (op : Nat) (f : MForm) : Nat :=
  op * 2 ^ 56 + f.pg.toNat * 2 ^ 53 + flagNat f.pn * 2 ^ 52 + f.space.toNat * 2 ^ 50 + f.size.toNat * 2 ^ 47 +
    flagNat f.ua * 2 ^ 46 + flagNat f.sx * 2 ^ 45 + flagNat f.ud * 2 ^ 44 + f.rsv.toNat * 2 ^ 40 + f.d.toNat * 2 ^ 32 +
    f.a.toNat * 2 ^ 24 + f.off.toNat

/-- The fields of a word of format M (R119). -/
def MForm.ofWord (n : Nat) : MForm :=
  { pg := BitVec.ofNat 3 (bitsOf 55 53 n), pn := decide (bitsOf 52 52 n = 1), space := BitVec.ofNat 2 (bitsOf 51 50 n),
    size := BitVec.ofNat 3 (bitsOf 49 47 n), ua := decide (bitsOf 46 46 n = 1), sx := decide (bitsOf 45 45 n = 1),
    ud := decide (bitsOf 44 44 n = 1), rsv := BitVec.ofNat 4 (bitsOf 43 40 n), d := BitVec.ofNat 8 (bitsOf 39 32 n),
    a := BitVec.ofNat 8 (bitsOf 31 24 n), off := BitVec.ofNat 24 (bitsOf 23 0 n) }

/-- Format B (R119), branches: the word of an opcode and its fields. -/
def BForm.word (op : Nat) (f : BForm) : Nat :=
  op * 2 ^ 56 + f.pg.toNat * 2 ^ 53 + flagNat f.pn * 2 ^ 52 + f.rsv.toNat * 2 ^ 48 + f.merge.toNat * 2 ^ 24 + f.target.toNat

/-- The fields of a word of format B (R119). -/
def BForm.ofWord (n : Nat) : BForm :=
  { pg := BitVec.ofNat 3 (bitsOf 55 53 n), pn := decide (bitsOf 52 52 n = 1), rsv := BitVec.ofNat 4 (bitsOf 51 48 n),
    merge := BitVec.ofNat 24 (bitsOf 47 24 n), target := BitVec.ofNat 24 (bitsOf 23 0 n) }

/-- Format T (R119), tiles, image loads, copies: the word of an opcode and its fields. -/
def TForm.word (op : Nat) (f : TForm) : Nat :=
  op * 2 ^ 56 + f.pg.toNat * 2 ^ 53 + flagNat f.pn * 2 ^ 52 + f.mod.toNat * 2 ^ 48 + f.rsv.toNat * 2 ^ 38 +
    f.ubase.toNat * 2 ^ 32 + f.imm.toNat

/-- The fields of a word of format T (R119). -/
def TForm.ofWord (n : Nat) : TForm :=
  { pg := BitVec.ofNat 3 (bitsOf 55 53 n), pn := decide (bitsOf 52 52 n = 1), mod := BitVec.ofNat 4 (bitsOf 51 48 n),
    rsv := BitVec.ofNat 10 (bitsOf 47 38 n), ubase := BitVec.ofNat 6 (bitsOf 37 32 n), imm := BitVec.ofNat 32 (bitsOf 31 0 n) }

/-- Format S (R119), control and synchronisation: the word of an opcode and its fields. -/
def SForm.word (op : Nat) (f : SForm) : Nat :=
  op * 2 ^ 56 + f.pg.toNat * 2 ^ 53 + flagNat f.pn * 2 ^ 52 + f.mod.toNat * 2 ^ 48 + f.rsv.toNat * 2 ^ 41 +
    flagNat f.ua * 2 ^ 40 + f.a.toNat * 2 ^ 32 + f.imm.toNat

/-- The fields of a word of format S (R119). -/
def SForm.ofWord (n : Nat) : SForm :=
  { pg := BitVec.ofNat 3 (bitsOf 55 53 n), pn := decide (bitsOf 52 52 n = 1), mod := BitVec.ofNat 4 (bitsOf 51 48 n),
    rsv := BitVec.ofNat 7 (bitsOf 47 41 n), ua := decide (bitsOf 40 40 n = 1), a := BitVec.ofNat 8 (bitsOf 39 32 n),
    imm := BitVec.ofNat 32 (bitsOf 31 0 n) }

/-! ## The opcode map (R122) -/

/-- The word of a thread instruction (R119, R122); none for a command that is no instruction of a thread. -/
def encodeThread : Instr → Option Nat
  | .nop _ f => some (f.word 0x00)
  | .bra _ f => some (f.word 0x01)
  | .brx _ f => some (f.word 0x02)
  | .merge _ f => some (f.word 0x03)
  | .exit _ f => some (f.word 0x04)
  | .spin _ f => some (f.word 0x05)
  | .trap _ f => some (f.word 0x06)
  | .s2r _ f => some (f.word 0x07)
  | .iadd _ f => some (f.word 0x10)
  | .isub _ f => some (f.word 0x11)
  | .imul _ f => some (f.word 0x12)
  | .imulh _ f => some (f.word 0x13)
  | .imulhu _ f => some (f.word 0x14)
  | .imad _ f => some (f.word 0x15)
  | .imin _ f => some (f.word 0x16)
  | .imax _ f => some (f.word 0x17)
  | .iminu _ f => some (f.word 0x18)
  | .imaxu _ f => some (f.word 0x19)
  | .iabs _ f => some (f.word 0x1A)
  | .idiv _ f => some (f.word 0x1B)
  | .idivu _ f => some (f.word 0x1C)
  | .irem _ f => some (f.word 0x1D)
  | .iremu _ f => some (f.word 0x1E)
  | .and _ f => some (f.word 0x20)
  | .or _ f => some (f.word 0x21)
  | .xor _ f => some (f.word 0x22)
  | .shl _ f => some (f.word 0x24)
  | .shr _ f => some (f.word 0x25)
  | .sar _ f => some (f.word 0x26)
  | .popc _ f => some (f.word 0x27)
  | .clz _ f => some (f.word 0x28)
  | .brev _ f => some (f.word 0x29)
  | .isetp _ f => some (f.word 0x30)
  | .isetpu _ f => some (f.word 0x31)
  | .fsetp _ f => some (f.word 0x32)
  | .sel _ f => some (f.word 0x33)
  | .mov _ f => some (f.word 0x34)
  | .plop _ f => some (f.word 0x35)
  | .p2r _ f => some (f.word 0x36)
  | .regToPred _ f => some (f.word 0x37)
  | .fadd _ f => some (f.word 0x40)
  | .fsub _ f => some (f.word 0x41)
  | .fmul _ f => some (f.word 0x42)
  | .ffma _ f => some (f.word 0x43)
  | .fmin _ f => some (f.word 0x44)
  | .fmax _ f => some (f.word 0x45)
  | .fabs _ f => some (f.word 0x46)
  | .fneg _ f => some (f.word 0x47)
  | .fdiv _ f => some (f.word 0x50)
  | .fsqrt _ f => some (f.word 0x51)
  | .frcp _ f => some (f.word 0x52)
  | .frsq _ f => some (f.word 0x53)
  | .fexp2 _ f => some (f.word 0x54)
  | .flog2 _ f => some (f.word 0x55)
  | .fsin _ f => some (f.word 0x56)
  | .fcos _ f => some (f.word 0x57)
  | .ftanh _ f => some (f.word 0x58)
  | .cvtif _ f => some (f.word 0x60)
  | .cvtuf _ f => some (f.word 0x61)
  | .cvtfi _ f => some (f.word 0x62)
  | .cvtfu _ f => some (f.word 0x63)
  | .cvtfb _ f => some (f.word 0x64)
  | .cvtbf _ f => some (f.word 0x65)
  | .cvtfh _ f => some (f.word 0x66)
  | .cvthf _ f => some (f.word 0x67)
  | .cvtf8 _ f => some (f.word 0x68)
  | .cvt8f _ f => some (f.word 0x69)
  | .shfl _ f => some (f.word 0x70)
  | .vote _ f => some (f.word 0x71)
  | .ld _ f => some (f.word 0x80)
  | .st _ f => some (f.word 0x81)
  | .ldnc _ f => some (f.word 0x82)
  | .aadd _ f => some (f.word 0x90)
  | .amin _ f => some (f.word 0x91)
  | .amax _ f => some (f.word 0x92)
  | .aminu _ f => some (f.word 0x93)
  | .amaxu _ f => some (f.word 0x94)
  | .aand _ f => some (f.word 0x95)
  | .aor _ f => some (f.word 0x96)
  | .axor _ f => some (f.word 0x97)
  | .axchg _ f => some (f.word 0x98)
  | .acas _ f => some (f.word 0x99)
  | .afadd _ f => some (f.word 0x9A)
  | .raddI32 _ f => some (f.word 0xA0)
  | .raddF32 _ f => some (f.word 0xA1)
  | .raddBf16 _ f => some (f.word 0xA2)
  | .rmaxI32 _ f => some (f.word 0xA3)
  | .rminI32 _ f => some (f.word 0xA4)
  | .rmaxF32 _ f => some (f.word 0xA5)
  | .rminF32 _ f => some (f.word 0xA6)
  | .rmaxBf16 _ f => some (f.word 0xA7)
  | .rminBf16 _ f => some (f.word 0xA8)
  | .barg _ f => some (f.word 0xB0)
  | .barb _ f => some (f.word 0xB1)
  | .fence _ f => some (f.word 0xB2)
  | .tile _ f => some (f.word 0xC0)
  | .twait _ f => some (f.word 0xC1)
  | .espld _ f => some (f.word 0xC2)
  | .dma _ f => some (f.word 0xC3)
  | .dwait _ f => some (f.word 0xC4)
  | .movi _ f => some (f.word 0xD0)
  | .iaddi _ f => some (f.word 0xD1)
  | .imuli _ f => some (f.word 0xD2)
  | .andi _ f => some (f.word 0xD3)
  | .ori _ f => some (f.word 0xD4)
  | .xori _ f => some (f.word 0xD5)
  | .shli _ f => some (f.word 0xD6)
  | .shri _ f => some (f.word 0xD7)
  | .sari _ f => some (f.word 0xD8)
  | .isetpi _ f => some (f.word 0xD9)
  | .isetpui _ f => some (f.word 0xDA)
  | .faddi _ f => some (f.word 0xDB)
  | .fmuli _ f => some (f.word 0xDC)
  | .fsetpi _ f => some (f.word 0xDD)
  | .stageWeights _ => none
  | .passStart _ _ => none
  | .passEnd _ => none
  | .drainPartials _ _ => none
  | .priorValueRead _ => none
  | .writeOut _ _ => none
  | .writeOutDone _ => none
  | .interlockEnd _ => none
  | .fillerRampDown _ => none
  | .fillerRampUp _ => none
  | .espLoadStart _ _ _ => none
  | .espImageLoadDone _ => none
  | .dmaComplete _ _ => none
  | .blockPlace _ => none
  | .stallDetectorFire _ _ => none
  | .sliceRead _ _ => none
  | .sliceWrite _ _ => none
  | .sliceAtomic _ _ => none
  | .sliceReduction _ _ => none
  | .orderedReductionApply _ _ => none
  | .sectorFill _ _ _ => none
  | .writeBackIssue _ _ _ => none
  | .writeBackPerformed _ _ => none
  | .mifAccess _ _ _ _ => none
  | .refresh _ _ => none
  | .mifTempRead _ _ => none
  | .wck2dqRead _ _ => none
  | .mifRetrainDone _ => none
  | .selfRefreshEntry _ => none
  | .cacheWake _ => none
  | .cacheWakeDone _ => none
  | .retentionReturn _ => none
  | .cacheRemap _ _ _ => none
  | .memoryRemap _ _ => none
  | .bitmapZeroFill _ _ => none
  | .scrubAccess _ => none
  | .portResend _ _ _ _ _ _ => none
  | .portTest _ _ => none
  | .portTestDone _ _ _ => none
  | .sliceRetire _ _ _ => none
  | .rehomeDone _ _ => none
  | .thrashWindowEnd _ => none
  | .transposePiece _ _ _ _ => none
  | .routerPacket _ _ => none
  | .responseArrival _ => none
  | .requestRetry _ => none
  | .requestGiveUp _ => none
  | .recordRelease _ => none
  | .budgetWindowBoundary => none
  | .crossingModeSwitch _ _ => none
  | .ringMessage _ => none
  | .ringLinkFail _ _ => none
  | .launchMessage _ _ => none
  | .endBoundaryOrder _ _ => none
  | .coreAcknowledge _ _ => none
  | .commandEndBoundary _ => none
  | .statusReply _ _ => none
  | .msiXInterrupt _ => none
  | .sqTailDoorbell _ _ _ => none
  | .cqHeadDoorbell _ _ _ => none
  | .commandFetch _ _ _ => none
  | .queueEnable _ _ _ => none
  | .nopCommand _ => none
  | .launch _ => none
  | .copy _ => none
  | .fill _ => none
  | .transpose _ => none
  | .reduce _ => none
  | .signal _ => none
  | .wait _ => none
  | .fenceCommand _ => none
  | .pin _ => none
  | .unpin _ => none
  | .localize _ => none
  | .ctxCreate _ => none
  | .ctxAppend _ => none
  | .ctxTruncate _ => none
  | .ctxFree _ => none
  | .ctxQuery _ => none
  | .trimSet _ => none
  | .park _ => none
  | .unpark _ => none
  | .counterSnap _ => none
  | .traceStop _ => none
  | .traceStart _ => none
  | .traceSetRecordRing _ => none
  | .traceSetTraceRing _ => none
  | .selftestVport _ _ => none
  | .selftestCore _ _ => none
  | .selftestMemory _ _ => none
  | .partCreate _ => none
  | .partDestroy _ => none
  | .partReset _ => none
  | .fwLoad _ _ => none
  | .quicksetStore _ _ => none
  | .healthQuery _ => none
  | .thermalRead => none
  | .powerRead => none
  | .smbusBlockWrite _ _ => none
  | .smbusBlockRead _ => none
  | .commandTimeout _ => none
  | .hostWindowRead _ _ _ => none
  | .hostWindowWrite _ _ _ => none
  | .atomicopRequest _ => none
  | .functionLevelReset _ => none
  | .perstN _ _ => none
  | .d3hotEntry _ => none
  | .d0Return _ => none
  | .hostLinkTraining _ _ _ _ => none
  | .fabricPortTraining _ => none
  | .retrain _ _ => none
  | .acceptHeld _ _ => none
  | .linkFrameError _ _ _ => none
  | .retxTimer _ => none
  | .linkGiveUp _ _ => none
  | .fabricReadRequest _ _ => none
  | .fabricReadResponse _ _ => none
  | .fabricWrite _ _ => none
  | .fabricAtomic _ _ => none
  | .fabricReduction _ _ => none
  | .fabricAcknowledgement _ _ => none
  | .fabricRefusal _ _ => none
  | .timeMark _ _ => none
  | .markSend => none
  | .remoteAccessTimeout _ => none
  | .remoteResend _ => none
  | .governorMeasure _ _ => none
  | .stepChange _ _ => none
  | .droopCrossing _ _ _ => none
  | .switchOnStep _ _ _ _ => none
  | .switchOnWaitExpiry _ _ _ => none
  | .regionOn _ _ => none
  | .regulatorFail _ _ => none
  | .phaseFail _ _ => none
  | .powerFault _ => none
  | .trimPeriod _ => none
  | .trimReport => none
  | .sensorSample _ _ _ => none
  | .sramBandChange _ _ _ => none
  | .thermalTrip _ _ => none
  | .tripLatchClear => none
  | .clockFault _ => none
  | .timeAlignCheck _ _ => none
  | .clkTimeRead _ _ => none
  | .counterLowRead _ _ => none
  | .cntCoreClear _ _ => none
  | .cntClear _ _ _ => none
  | .elogClear _ _ _ => none
  | .trRptrWrite _ _ _ => none
  | .registerWrite _ _ _ => none
  | .coreFence _ _ => none
  | .wakeCheckDone _ _ => none
  | .windowCopy _ _ => none
  | .replayPlace _ => none
  | .controlAckTimeout _ => none
  | .routerCreditTimeout _ => none
  | .routerBypass _ => none
  | .commandProcessorWatchdog _ _ => none
  | .halfLoss _ => none
  | .laneFault _ _ => none
  | .healthRecordStore => none
  | .flashStoreDone _ => none
  | .resetNAssert _ => none
  | .pwrgdDeassert _ => none
  | .bootRom _ _ => none
  | .firmwareCheck => none
  | .firmwareBroadcast _ => none
  | .cornerSelfTest _ => none
  | .reconciliation => none
  | .vportStageTest _ => none
  | .trainingStage _ => none
  | .patternTest _ => none
  | .retentionTest _ => none
  | .topologyCheck _ => none
  | .refclkStop => none
  | .extest => none
  | .samplePreload _ _ => none
  | .idcode => none
  | .clamp => none
  | .highz => none
  | .bypass => none
  | .dbgChallenge => none
  | .dbgToken _ => none
  | .dbgLock => none
  | .dbgReg _ => none
  | .dbgMem _ => none
  | .debugExpiry => none
  | .halt _ => none
  | .resume _ => none
  | .step _ => none
  | .hostLinkDown _ => none
  | .fabricLinkDown _ => none
  | .fabricTrainingDone _ _ => none
  | .fabricTrainingRetry _ => none
  | .vddAonLoss => none
  | .rootPllLock _ => none
  | .tapReset => none

/-- The thread instruction that a word holds, issued at `w` (R119, R122); none under a reserved opcode. -/
def decodeThread (w : At) (n : Nat) : Option Instr :=
  match bitsOf 63 56 n with
  | 0x00 => some (.nop w (SForm.ofWord n))
  | 0x01 => some (.bra w (BForm.ofWord n))
  | 0x02 => some (.brx w (BForm.ofWord n))
  | 0x03 => some (.merge w (SForm.ofWord n))
  | 0x04 => some (.exit w (SForm.ofWord n))
  | 0x05 => some (.spin w (SForm.ofWord n))
  | 0x06 => some (.trap w (SForm.ofWord n))
  | 0x07 => some (.s2r w (RForm.ofWord n))
  | 0x10 => some (.iadd w (RForm.ofWord n))
  | 0x11 => some (.isub w (RForm.ofWord n))
  | 0x12 => some (.imul w (RForm.ofWord n))
  | 0x13 => some (.imulh w (RForm.ofWord n))
  | 0x14 => some (.imulhu w (RForm.ofWord n))
  | 0x15 => some (.imad w (RForm.ofWord n))
  | 0x16 => some (.imin w (RForm.ofWord n))
  | 0x17 => some (.imax w (RForm.ofWord n))
  | 0x18 => some (.iminu w (RForm.ofWord n))
  | 0x19 => some (.imaxu w (RForm.ofWord n))
  | 0x1A => some (.iabs w (RForm.ofWord n))
  | 0x1B => some (.idiv w (RForm.ofWord n))
  | 0x1C => some (.idivu w (RForm.ofWord n))
  | 0x1D => some (.irem w (RForm.ofWord n))
  | 0x1E => some (.iremu w (RForm.ofWord n))
  | 0x20 => some (.and w (RForm.ofWord n))
  | 0x21 => some (.or w (RForm.ofWord n))
  | 0x22 => some (.xor w (RForm.ofWord n))
  | 0x24 => some (.shl w (RForm.ofWord n))
  | 0x25 => some (.shr w (RForm.ofWord n))
  | 0x26 => some (.sar w (RForm.ofWord n))
  | 0x27 => some (.popc w (RForm.ofWord n))
  | 0x28 => some (.clz w (RForm.ofWord n))
  | 0x29 => some (.brev w (RForm.ofWord n))
  | 0x30 => some (.isetp w (RForm.ofWord n))
  | 0x31 => some (.isetpu w (RForm.ofWord n))
  | 0x32 => some (.fsetp w (RForm.ofWord n))
  | 0x33 => some (.sel w (RForm.ofWord n))
  | 0x34 => some (.mov w (RForm.ofWord n))
  | 0x35 => some (.plop w (RForm.ofWord n))
  | 0x36 => some (.p2r w (RForm.ofWord n))
  | 0x37 => some (.regToPred w (RForm.ofWord n))
  | 0x40 => some (.fadd w (RForm.ofWord n))
  | 0x41 => some (.fsub w (RForm.ofWord n))
  | 0x42 => some (.fmul w (RForm.ofWord n))
  | 0x43 => some (.ffma w (RForm.ofWord n))
  | 0x44 => some (.fmin w (RForm.ofWord n))
  | 0x45 => some (.fmax w (RForm.ofWord n))
  | 0x46 => some (.fabs w (RForm.ofWord n))
  | 0x47 => some (.fneg w (RForm.ofWord n))
  | 0x50 => some (.fdiv w (RForm.ofWord n))
  | 0x51 => some (.fsqrt w (RForm.ofWord n))
  | 0x52 => some (.frcp w (RForm.ofWord n))
  | 0x53 => some (.frsq w (RForm.ofWord n))
  | 0x54 => some (.fexp2 w (RForm.ofWord n))
  | 0x55 => some (.flog2 w (RForm.ofWord n))
  | 0x56 => some (.fsin w (RForm.ofWord n))
  | 0x57 => some (.fcos w (RForm.ofWord n))
  | 0x58 => some (.ftanh w (RForm.ofWord n))
  | 0x60 => some (.cvtif w (RForm.ofWord n))
  | 0x61 => some (.cvtuf w (RForm.ofWord n))
  | 0x62 => some (.cvtfi w (RForm.ofWord n))
  | 0x63 => some (.cvtfu w (RForm.ofWord n))
  | 0x64 => some (.cvtfb w (RForm.ofWord n))
  | 0x65 => some (.cvtbf w (RForm.ofWord n))
  | 0x66 => some (.cvtfh w (RForm.ofWord n))
  | 0x67 => some (.cvthf w (RForm.ofWord n))
  | 0x68 => some (.cvtf8 w (RForm.ofWord n))
  | 0x69 => some (.cvt8f w (RForm.ofWord n))
  | 0x70 => some (.shfl w (RForm.ofWord n))
  | 0x71 => some (.vote w (RForm.ofWord n))
  | 0x80 => some (.ld w (MForm.ofWord n))
  | 0x81 => some (.st w (MForm.ofWord n))
  | 0x82 => some (.ldnc w (MForm.ofWord n))
  | 0x90 => some (.aadd w (MForm.ofWord n))
  | 0x91 => some (.amin w (MForm.ofWord n))
  | 0x92 => some (.amax w (MForm.ofWord n))
  | 0x93 => some (.aminu w (MForm.ofWord n))
  | 0x94 => some (.amaxu w (MForm.ofWord n))
  | 0x95 => some (.aand w (MForm.ofWord n))
  | 0x96 => some (.aor w (MForm.ofWord n))
  | 0x97 => some (.axor w (MForm.ofWord n))
  | 0x98 => some (.axchg w (MForm.ofWord n))
  | 0x99 => some (.acas w (MForm.ofWord n))
  | 0x9A => some (.afadd w (MForm.ofWord n))
  | 0xA0 => some (.raddI32 w (MForm.ofWord n))
  | 0xA1 => some (.raddF32 w (MForm.ofWord n))
  | 0xA2 => some (.raddBf16 w (MForm.ofWord n))
  | 0xA3 => some (.rmaxI32 w (MForm.ofWord n))
  | 0xA4 => some (.rminI32 w (MForm.ofWord n))
  | 0xA5 => some (.rmaxF32 w (MForm.ofWord n))
  | 0xA6 => some (.rminF32 w (MForm.ofWord n))
  | 0xA7 => some (.rmaxBf16 w (MForm.ofWord n))
  | 0xA8 => some (.rminBf16 w (MForm.ofWord n))
  | 0xB0 => some (.barg w (SForm.ofWord n))
  | 0xB1 => some (.barb w (SForm.ofWord n))
  | 0xB2 => some (.fence w (SForm.ofWord n))
  | 0xC0 => some (.tile w (TForm.ofWord n))
  | 0xC1 => some (.twait w (TForm.ofWord n))
  | 0xC2 => some (.espld w (TForm.ofWord n))
  | 0xC3 => some (.dma w (TForm.ofWord n))
  | 0xC4 => some (.dwait w (TForm.ofWord n))
  | 0xD0 => some (.movi w (IForm.ofWord n))
  | 0xD1 => some (.iaddi w (IForm.ofWord n))
  | 0xD2 => some (.imuli w (IForm.ofWord n))
  | 0xD3 => some (.andi w (IForm.ofWord n))
  | 0xD4 => some (.ori w (IForm.ofWord n))
  | 0xD5 => some (.xori w (IForm.ofWord n))
  | 0xD6 => some (.shli w (IForm.ofWord n))
  | 0xD7 => some (.shri w (IForm.ofWord n))
  | 0xD8 => some (.sari w (IForm.ofWord n))
  | 0xD9 => some (.isetpi w (IForm.ofWord n))
  | 0xDA => some (.isetpui w (IForm.ofWord n))
  | 0xDB => some (.faddi w (IForm.ofWord n))
  | 0xDC => some (.fmuli w (IForm.ofWord n))
  | 0xDD => some (.fsetpi w (IForm.ofWord n))
  | _ => none

end Sys2Proof
end

