-- ==== Sys2Proof/Config.lean ====
section
/-! DEFINITION. The values the spec leaves open: constants with no body, so that no proof can see what they are. -/

namespace Sys2Proof.Config

/-- The columns of the stacked-cache word code (R202): choice number n among the columns that are left. The spec gives their weights and that
they are distinct, not which column belongs to which bit. UNVERIFIED value; safe: free. Log entry 123. -/
opaque dataColumn : Nat → Nat

/-- The columns of the location bits of that code (R202), likewise. Safe: free. Log entry 123. -/
opaque locationColumn : Nat → Nat

/-- The low 16 bits of the polynomial of GF(2^16) in the external-memory beat code (R206), which the spec does not give: one that is not
irreducible is not used. Safe: free. Log entry 123. -/
opaque beatPolynomial : BitVec 16

/-- The locators of that code's 20 symbols, likewise: ones that are not pairwise distinct are not used. Safe: free. Log entry 123. -/
opaque beatLocator : Nat → BitVec 16

/-- SETTINGS of a Quickset record (R315), byte by byte, of training number n: the spec gives the values no number and no layout. Safe: free. Log
entry 8. -/
opaque trained : Nat → Nat → BitVec 8

/-- The flow label of a frame from its source, destination and partition (R292): a hash that the spec does not give. Safe: free. Log entry
126. -/
opaque flowHash : Nat → Nat → Nat → BitVec 20

/-- The bits [63:48] of the address of a request's packet, by its opcode and its length (R294): the spec gives the packet no field for
either. Safe: free. Log entry 150. -/
opaque requestHead : Nat → Nat → BitVec 16

/-- The result the part gives for an approximated FP32 operation (R122: FRCP, FRSQ, FEXP2, FLOG2, FSIN, FCOS, FTANH),
by the operation's opcode and the operand. R122 gives only an error bound, and R123 that the result is the same on
every core, so it is a function of these two alone. UNVERIFIED value; safe: free. Log entry 5. -/
opaque approx : Nat → W32 → W32

/-- Whether an ECDSA P-384 signature verifies: key (0 firmware key of R398, 1 debug key of R431), message, signature.
Uninterpreted: the algorithm is another standard's. Safe: free. Log entry 6. -/
opaque signatureVerifies : Nat → List Byte → List Byte → Bool

/-- The debug nonce of attempt number n (R431): the spec gives no way to compute it. Safe: free. Log entry 7. -/
opaque nonce : Nat → BitVec 128

/-- The TYPE byte of an image's signed header (R411): the spec does not lay the header out. Safe: free. Log entry 6. -/
opaque imageType : List Byte → Nat

/-- The VERSION of an image (R398). Safe: free. Log entry 6. -/
opaque imageVersion : List Byte → Nat

/-- The fields of a configuration image, by number (R179, R250, R287, R288, R292, R295, R298, R369, R406, R409): the spec does not
lay the record out. Safe: free. Log entry 6. -/
opaque imageField : Nat → List Byte → Nat

/-- The result of POWER_READ (R288), from the input power and the TRIM_ words: the spec does not lay it out. Safe: free. Log
entry 27. -/
opaque powerReport : List Nat → List Byte

/-- Merxel's manufacturer code in IDCODE (R430): the spec gives no number. Safe: free. Log entry 11. -/
opaque manufacturer : Nat

/-- A value the spec leaves open and that need not repeat (R9's undefined values and like cases), by the count of such
values drawn before it. Safe: free. Log entry 9. -/
opaque freeWord : Nat → W32

end Sys2Proof.Config
end

