-- ==== Sys2Proof/Machine/Bits.lean ====
section
/-! DEFINITION. Bit fields, byte strings, sparse maps: the plain helpers every other file uses. -/

namespace Sys2Proof.Machine

/-- Bits [hi:lo] of a number, as the ruler diagrams write them. -/
def fld (hi lo x : Nat) : Nat := x / 2 ^ lo % 2 ^ (hi + 1 - lo)

/-- Bits [hi:lo] of a 32-bit word as a number. -/
def getF (hi lo : Nat) (w : BitVec 32) : Nat := fld hi lo w.toNat

/-- A 32-bit word with bits [hi:lo] set to v (v taken modulo the field's width), the other bits kept. -/
def setF (hi lo v : Nat) (w : BitVec 32) : BitVec 32 :=
  let m := (BitVec.ofNat 32 (2 ^ (hi + 1 - lo) - 1)) <<< lo
  (w &&& ~~~ m) ||| ((BitVec.ofNat 32 v <<< lo) &&& m)

/-- The mask of bits [hi:lo]. -/
def maskF (hi lo : Nat) : BitVec 32 := (BitVec.ofNat 32 (2 ^ (hi + 1 - lo) - 1)) <<< lo

/-- Ceiling division, ⌈a / b⌉. -/
def cdiv (a b : Nat) : Nat := (a + b - 1) / b

/-- A two's-complement reading of the low n bits of x. -/
def sint (n x : Nat) : Int := let y := x % 2 ^ n; if y < 2 ^ (n - 1) then (y : Int) else (y : Int) - 2 ^ n

/-- The little-endian bytes of a number. -/
def toBytes : Nat → Nat → List Byte
  | 0, _ => []
  | n + 1, x => BitVec.ofNat 8 x :: toBytes n (x / 256)

/-- The number that little-endian bytes spell. -/
def ofBytes : List Byte → Nat
  | [] => 0
  | b :: bs => b.toNat + 256 * ofBytes bs

/-- The list a, a + 1, … of length n. -/
def upTo (a : Nat) : Nat → List Nat
  | 0 => []
  | n + 1 => a :: upTo (a + 1) n

/-- A finite map from numbers, as a list of pairs. -/
abbrev Map (α : Type) := List (Nat × α)

/-- The entry of a key, if there is one. -/
def mfind {α : Type} : Map α → Nat → Option α
  | [], _ => none
  | (k, v) :: m, i => if k = i then some v else mfind m i

/-- The map without a key. -/
def merase {α : Type} : Map α → Nat → Map α
  | [], _ => []
  | (k, v) :: m, i => if k = i then merase m i else (k, v) :: merase m i

/-- An entry put before the first greater key. -/
def minsert {α : Type} : Map α → Nat → α → Map α
  | [], i, x => [(i, x)]
  | (k, v) :: m, i, x => if i < k then (i, x) :: (k, v) :: m else (k, v) :: minsert m i x

/-- The map with a key set to a value. -/
def mput {α : Type} (m : Map α) (i : Nat) (x : α) : Map α := minsert (merase m i) i x

/-- The value of a key, where an absent key has the value d. -/
def mget {α : Type} (d : α) (m : Map α) (i : Nat) : α := (mfind m i).getD d

/-- The map with a key set, keeping the form in which no entry holds the default d. -/
def mset {α : Type} [DecidableEq α] (d : α) (m : Map α) (i : Nat) (x : α) : Map α :=
  if x = d then merase m i else mput m i x

/-- Whether the keys rise strictly. -/
def mkeysUp {α : Type} : Map α → Bool
  | [] => true
  | [_] => true
  | (k, _) :: (l, w) :: m => decide (k < l) && mkeysUp ((l, w) :: m)

/-- Apply f to the entry of a key, if there is one. -/
def mmod {α : Type} (m : Map α) (i : Nat) (f : α → α) : Map α :=
  match mfind m i with
  | some v => mput m i (f v)
  | none => m

/-- The number i put into a strictly rising list. -/
def insNat : List Nat → Nat → List Nat
  | [], i => [i]
  | k :: m, i => if i < k then i :: k :: m else if i = k then k :: m else k :: insNat m i

/-- The strictly rising list without i. -/
def delNat (m : List Nat) (i : Nat) : List Nat := m.filter (fun k => k != i)

/-- Element i of a list, or d. -/
def nth {α : Type} (d : α) : List α → Nat → α
  | [], _ => d
  | x :: _, 0 => x
  | _ :: xs, n + 1 => nth d xs n

/-- The list with element i set (unchanged when it is shorter). -/
def setNth {α : Type} : List α → Nat → α → List α
  | [], _, _ => []
  | _ :: xs, 0, y => y :: xs
  | x :: xs, n + 1, y => x :: setNth xs n y

/-- Whether a site is in a set of sites. -/
def hasSite (m : Sites) (i : Nat) : Bool := m.getLsbD i

/-- The set with a site added. -/
def addSite (m : Sites) (i : Nat) : Sites := m ||| ((1 : Sites) <<< i)

/-- The set with a site taken out. -/
def delSite (m : Sites) (i : Nat) : Sites := m &&& ~~~ ((1 : Sites) <<< i)

/-- The first n sites' members of a set, in rising order. -/
def sitesOf (m : Sites) (n : Nat) : List Nat := (upTo 0 n).filter (fun i => m.getLsbD i)

/-- One step of the IEEE 802.3 CRC-32, least significant bit first. -/
def crcBit : Nat → BitVec 32 → BitVec 32
  | 0, c => c
  | n + 1, c => crcBit n (if c.getLsbD 0 then (c >>> 1) ^^^ 0xEDB88320#32 else c >>> 1)

/-- IEEE 802.3 CRC-32 of a byte string (R76, R315, R412). -/
def crc32 (bs : List Byte) : BitVec 32 :=
  ~~~ (bs.foldl (fun c b => crcBit 8 (c ^^^ b.setWidth 32)) 0xFFFFFFFF#32)

/-- A byte and whether its word carries the poison mark (R210). -/
abbrev PByte := Byte × Bool

end Sys2Proof.Machine
end

