-- ==== Sys2Proof/Machine/Float.lean ====
section
/-! DEFINITION. Floating point by exact integers: decoding, one rounding, encoding (R35, R40, R71, R122, R123). -/

namespace Sys2Proof.Machine

/-- A decoded value: NaN, infinity, or ±m · 2^e exactly. -/
inductive FV where
  | nan
  | inf (neg : Bool)
  | fin (neg : Bool) (m : Nat) (e : Int)
deriving DecidableEq, Repr

/-- A binary format: p significand bits with the implicit one, nb total bits, the exponent of the least unit, and the
codes at which the specials start (R31). -/
structure Fmt where
  p : Nat
  nb : Nat
  emin : Int
deriving DecidableEq, Repr

/-- Binary32. -/
def f32 : Fmt := ⟨24, 32, -149⟩
/-- BF16 (R31: p 8, bias 127). -/
def bf16 : Fmt := ⟨8, 16, -133⟩
/-- FP16 (R31: p 11, bias 15). -/
def fp16 : Fmt := ⟨11, 16, -24⟩
/-- FP8 E4M3 (R31: p 4, bias 7; NaN only). -/
def e4m3 : Fmt := ⟨4, 8, -9⟩
/-- FP8 E5M2 (R31: p 3, bias 15). -/
def e5m2 : Fmt := ⟨3, 8, -16⟩
/-- FP4 E2M1 (R31: p 2, bias 1; no specials). -/
def e2m1 : Fmt := ⟨2, 4, -1⟩

/-- Conversion rounding of MOD[1:0]: nearest even, toward zero, toward −∞, toward +∞ (R123). -/
inductive Rnd where
  | rne
  | rtz
  | rdn
  | rup
deriving DecidableEq, Repr

/-- The rounding that MOD[1:0] selects (R123). -/
def rndOf (m : Nat) : Rnd := match m % 4 with | 0 => .rne | 1 => .rtz | 2 => .rdn | _ => .rup

/-- Whether a magnitude q with remainder r of 2^d steps up. -/
def roundUp (rm : Rnd) (neg : Bool) (q r half : Nat) : Bool :=
  match rm with
  | .rne => decide (half < r) || (decide (half = r) && decide (q % 2 = 1))
  | .rtz => false
  | .rdn => neg && decide (0 < r)
  | .rup => !neg && decide (0 < r)

/-- m · 2^e divided by 2^u, rounded to an integer. -/
def shiftRound (rm : Rnd) (neg : Bool) (m : Nat) (e u : Int) : Nat :=
  if u ≤ e then m * 2 ^ (e - u).toNat
  else
    let d := (u - e).toNat
    let q := m / 2 ^ d
    let r := m % 2 ^ d
    if roundUp rm neg q r (2 ^ (d - 1)) then q + 1 else q

/-- The number of bits of a magnitude. -/
def bitLen (m : Nat) : Nat := if m = 0 then 0 else Nat.log2 m + 1

/-- The magnitude code of ±m · 2^e rounded to a format, without limit above: codes rise with the magnitude, and the
code of an overflowing value is at or above the format's largest exponent code. -/
def magCode (f : Fmt) (rm : Rnd) (neg : Bool) (m : Nat) (e : Int) : Nat :=
  if m = 0 then 0 else
    let u := max (e + bitLen m - f.p) f.emin
    (u - f.emin).toNat * 2 ^ (f.p - 1) + shiftRound rm neg m e u

/-- The sign bit of a format over a magnitude code. -/
def withSign (f : Fmt) (neg : Bool) (c : Nat) : Nat := if neg then 2 ^ (f.nb - 1) + c else c

/-- The magnitude code of infinity in a format with infinities. -/
def infCode (f : Fmt) : Nat := (2 ^ (f.nb - f.p) - 1) * 2 ^ (f.p - 1)

/-- Decode a code of a format in which the top exponent means ±Inf and NaN. -/
def decIEEE (f : Fmt) (x : Nat) : FV :=
  let neg := decide (2 ^ (f.nb - 1) ≤ x % 2 ^ f.nb)
  let c := x % 2 ^ (f.nb - 1)
  if c = infCode f then .inf neg
  else if infCode f < c then .nan
  else
    let ex := c / 2 ^ (f.p - 1)
    let mt := c % 2 ^ (f.p - 1)
    if ex = 0 then .fin neg mt f.emin else .fin neg (2 ^ (f.p - 1) + mt) (f.emin + (ex : Int) - 1)

/-- Decode a code of a format with no infinities; E4M3 has NaN at S.1111.111 (R31). -/
def decFin (f : Fmt) (hasNan : Bool) (x : Nat) : FV :=
  let neg := decide (2 ^ (f.nb - 1) ≤ x % 2 ^ f.nb)
  let c := x % 2 ^ (f.nb - 1)
  if hasNan && decide (c = 2 ^ (f.nb - 1) - 1) then .nan
  else
    let ex := c / 2 ^ (f.p - 1)
    let mt := c % 2 ^ (f.p - 1)
    if ex = 0 then .fin neg mt f.emin else .fin neg (2 ^ (f.p - 1) + mt) (f.emin + (ex : Int) - 1)

/-- The value of an FP32 pattern. -/
def dec32 (w : W32) : FV := decIEEE f32 w.toNat

/-- The canonical NaN (R71). -/
def nan32 : W32 := 0x7FC00000#32

/-- ±Inf. -/
def inf32 (neg : Bool) : W32 := if neg then 0xFF800000#32 else 0x7F800000#32

/-- ±0. -/
def zero32 (neg : Bool) : W32 := if neg then 0x80000000#32 else 0#32

/-- ±m · 2^e rounded once to FP32, overflow to ±Inf (R40, R71); directed modes as R123. -/
def enc32r (rm : Rnd) (neg : Bool) (m : Nat) (e : Int) : W32 :=
  let c := magCode f32 rm neg m e
  let big := decide (infCode f32 ≤ c)
  let toInf := match rm with | .rne => true | .rtz => false | .rdn => neg | .rup => !neg
  let c := if big then (if toInf then infCode f32 else infCode f32 - 1) else c
  BitVec.ofNat 32 (withSign f32 neg c)

/-- Round to nearest even. -/
def enc32 (neg : Bool) (m : Nat) (e : Int) : W32 := enc32r .rne neg m e

/-- An exact signed integer times 2^e rounded to FP32; zero gives +0.0. -/
def roundInt32 (x : Int) (e : Int) : W32 := enc32 (decide (x < 0)) x.natAbs e

/-- ±m · 2^e as a signed integer at exponent e. -/
def sgn (neg : Bool) (m : Nat) : Int := if neg then -(m : Int) else (m : Int)

/-- The exact sum of two finite values: signed numerator and exponent. -/
def addExact (n1 : Bool) (m1 : Nat) (e1 : Int) (n2 : Bool) (m2 : Nat) (e2 : Int) : Int × Int :=
  let e := min e1 e2
  (sgn n1 m1 * 2 ^ (e1 - e).toNat + sgn n2 m2 * 2 ^ (e2 - e).toNat, e)

/-- FP32 of an FV, rounded once. -/
def encFV : FV → W32
  | .nan => nan32
  | .inf n => inf32 n
  | .fin n m e => enc32 n m e

/-- a + b of decoded values; an exact zero of operands of both signs is +0, of two −0 is −0 (IEEE 754). -/
def addFV (a b : FV) : W32 :=
  match a, b with
  | .nan, _ => nan32
  | _, .nan => nan32
  | .inf n, .inf k => if n = k then inf32 n else nan32
  | .inf n, _ => inf32 n
  | _, .inf n => inf32 n
  | .fin n1 m1 e1, .fin n2 m2 e2 =>
    let (x, e) := addExact n1 m1 e1 n2 m2 e2
    if x = 0 then zero32 (n1 && n2) else roundInt32 x e

/-- a × b of decoded values, exact unless special. -/
def mulFV (a b : FV) : FV :=
  match a, b with
  | .nan, _ => .nan
  | _, .nan => .nan
  | .inf n, .inf k => .inf (n != k)
  | .inf n, .fin k m _ => if m = 0 then .nan else .inf (n != k)
  | .fin n m _, .inf k => if m = 0 then .nan else .inf (n != k)
  | .fin n1 m1 e1, .fin n2 m2 e2 => .fin (n1 != n2) (m1 * m2) (e1 + e2)

/-- Invert the sign of a decoded value. -/
def negFV : FV → FV
  | .nan => .nan
  | .inf n => .inf (!n)
  | .fin n m e => .fin (!n) m e

/-- FADD (R122, R123). -/
def fadd (a b : W32) : W32 := addFV (dec32 a) (dec32 b)
/-- FSUB (R122, R123). -/
def fsub (a b : W32) : W32 := addFV (dec32 a) (negFV (dec32 b))
/-- FMUL (R122, R123). -/
def fmul (a b : W32) : W32 := encFV (mulFV (dec32 a) (dec32 b))
/-- FFMA: a × b + c rounded once (R122). -/
def ffma (a b c : W32) : W32 := addFV (mulFV (dec32 a) (dec32 b)) (dec32 c)

/-- Order of two decoded non-NaN values, −0 equal to +0: whether a < b. -/
def ltFV (a b : FV) : Bool :=
  match a, b with
  | .nan, _ => false
  | _, .nan => false
  | .inf n, .inf k => n && !k
  | .inf n, .fin _ _ _ => n
  | .fin _ _ _, .inf k => !k
  | .fin n1 m1 e1, .fin n2 m2 e2 =>
    let e := min e1 e2
    decide (sgn n1 m1 * 2 ^ (e1 - e).toNat < sgn n2 m2 * 2 ^ (e2 - e).toNat)

/-- Whether a decoded value is NaN. -/
def isNanFV : FV → Bool
  | .nan => true
  | _ => false

/-- FP32 a < b, false with a NaN (R121). -/
def flt (a b : W32) : Bool := ltFV (dec32 a) (dec32 b)
/-- FP32 a = b, false with a NaN (R121). -/
def feq (a b : W32) : Bool :=
  !isNanFV (dec32 a) && !isNanFV (dec32 b) && !flt a b && !flt b a

/-- The order of R71 for FMAX and FMIN, in which −0.0 is below +0.0. -/
def fltTotal (a b : W32) : Bool :=
  flt a b || (feq a b && a.getLsbD 31 && !b.getLsbD 31)

/-- FMAX (R71): the canonical NaN when either operand is NaN. -/
def fmax (a b : W32) : W32 :=
  if isNanFV (dec32 a) || isNanFV (dec32 b) then nan32 else if fltTotal a b then b else a
/-- FMIN (R71). -/
def fmin (a b : W32) : W32 :=
  if isNanFV (dec32 a) || isNanFV (dec32 b) then nan32 else if fltTotal b a then b else a

/-- FDIV: a ÷ b correctly rounded, with IEEE 754 specials (R122). -/
def fdiv (a b : W32) : W32 :=
  match dec32 a, dec32 b with
  | .nan, _ => nan32
  | _, .nan => nan32
  | .inf _, .inf _ => nan32
  | .inf n, .fin k _ _ => inf32 (n != k)
  | .fin n _ _, .inf k => zero32 (n != k)
  | .fin n1 m1 e1, .fin n2 m2 e2 =>
    if m2 = 0 then (if m1 = 0 then nan32 else inf32 (n1 != n2))
    else if m1 = 0 then zero32 (n1 != n2)
    else
      let q := m1 * 2 ^ 64 / m2
      let r := m1 * 2 ^ 64 % m2
      enc32 (n1 != n2) (2 * q + (if r = 0 then 0 else 1)) (e1 - e2 - 65)

/-- FSQRT: √a correctly rounded; a negative non-zero a gives NaN, √−0 is −0 (R122, IEEE 754). -/
def fsqrt (a : W32) : W32 :=
  match dec32 a with
  | .nan => nan32
  | .inf n => if n then nan32 else inf32 false
  | .fin n m e =>
    if m = 0 then zero32 n else if n then nan32
    else
      let odd := e % 2 != 0
      let x := (if odd then 2 * m else m) * 2 ^ 64
      let ex := (if odd then e - 1 else e)
      let q := Nat.sqrt x
      enc32 false (2 * q + (if q * q = x then 0 else 1)) (ex / 2 - 33)

/-- An FP32 value rounded to an integer in a rounding mode, not yet saturated; NaN gives none. -/
def fpToInt (rm : Rnd) (v : FV) : Option (Int × Bool × Bool) :=
  match v with
  | .nan => none
  | .inf n => some (0, true, n)
  | .fin n m e => some (sgn n (shiftRound rm n m e 0), false, n)

/-- Saturate into lo to hi; the Bool says whether it did. -/
def satInt (lo hi x : Int) : Int × Bool := if x < lo then (lo, true) else if hi < x then (hi, true) else (x, false)

/-- An FP32 value to an integer in lo to hi: saturated, NaN gives 0; the Bool says NaN or saturation (R122, R74). -/
def fpToIntSat (rm : Rnd) (lo hi : Int) (v : FV) : Int × Bool :=
  match fpToInt rm v with
  | none => (0, true)
  | some (x, isInf, neg) => if isInf then ((if neg then lo else hi), true) else satInt lo hi x

/-- CVTFI (R122). -/
def cvtfi (rm : Rnd) (a : W32) : W32 := BitVec.ofInt 32 (fpToIntSat rm (-2147483648) 2147483647 (dec32 a)).1
/-- CVTFU (R122). -/
def cvtfu (rm : Rnd) (a : W32) : W32 := BitVec.ofInt 32 (fpToIntSat rm 0 4294967295 (dec32 a)).1
/-- CVTIF (R122). -/
def cvtif (rm : Rnd) (a : W32) : W32 := enc32r rm (decide (a.toInt < 0)) a.toInt.natAbs 0
/-- CVTUF (R122). -/
def cvtuf (rm : Rnd) (a : W32) : W32 := enc32r rm false a.toNat 0

/-- BF16 of a value, nearest even, overflow to ±Inf, every NaN 0x7FC0 (R42). -/
def toBf16 (v : FV) : Nat :=
  match v with
  | .nan => 0x7FC0
  | .inf n => withSign bf16 n (infCode bf16)
  | .fin n m e => withSign bf16 n (min (magCode bf16 .rne n m e) (infCode bf16))

/-- FP16 of a value: nearest even, overflow ±Inf, NaN 0x7E00 (R122). -/
def toFp16 (v : FV) : Nat :=
  match v with
  | .nan => 0x7E00
  | .inf n => withSign fp16 n (infCode fp16)
  | .fin n m e => withSign fp16 n (min (magCode fp16 .rne n m e) (infCode fp16))

/-- FP8 of a value (R74): nearest even, saturated to ±448 or ±57,344, NaN gives 0x7F; the Bool says a saturation. -/
def toFp8 (isE5 : Bool) (v : FV) : Nat × Bool :=
  let f := if isE5 then e5m2 else e4m3
  let mx := if isE5 then 0x7B else 0x7E
  match v with
  | .nan => (0x7F, false)
  | .inf n => (withSign f n mx, true)
  | .fin n m e =>
    let c := magCode f .rne n m e
    if mx < c then (withSign f n mx, true) else (withSign f n c, false)

/-- The exact value of an FP8 code (R31). -/
def ofFp8 (isE5 : Bool) (x : Nat) : FV := if isE5 then decIEEE e5m2 x else decFin e4m3 true x

/-- ⌊log2 |a|⌋ of a finite non-zero magnitude m · 2^e. -/
def floorLog2 (m : Nat) (e : Int) : Int := (bitLen m : Int) - 1 + e

/-- a × 2^b rounded once (R70 FSCALE). -/
def fscale (a b : W32) : W32 :=
  match dec32 a with
  | .fin n m e =>
    let s := max (-2000) (min 2000 b.toInt)
    enc32 n m (e + s)
  | v => encFV v

/-- FEXP (R70): ⌊log2 |a|⌋, or 0x8000_0000 for zero, ±Inf and NaN. -/
def fexpOp (a : W32) : W32 :=
  match dec32 a with
  | .fin _ m e => if m = 0 then 0x80000000#32 else BitVec.ofInt 32 (floorLog2 m e)
  | _ => 0x80000000#32

/-- The drain's addition (R40, R44): as FADD, but an exact zero sum is +0.0. -/
def drainAdd (a b : W32) : W32 :=
  match dec32 a, dec32 b with
  | .fin n1 m1 e1, .fin n2 m2 e2 =>
    let (x, e) := addExact n1 m1 e1 n2 m2 e2
    roundInt32 x e
  | x, y => addFV x y


end Sys2Proof.Machine
end

