-- ==== Sys2Proof/Machine/State.lean ====
section
/-! DEFINITION. The state of the part as plain data, the reasons a step can stop, and the state after reset. Device
registers of the spec's register tables are held whole in `regs`, keyed by their offset from device address
0xF200_0000_0000 (R183); an absent key reads as the reset value of the table (Machine/Regs.lean). -/

namespace Sys2Proof.Machine

/-- The grades of R2. -/
inductive Grade where
  | xn8_3840
  | xn8_3584
  | xn4_1920
  | xn4_1792
  | xn2_960
deriving DecidableEq, Repr

/-- What a part is made as: grade (R2), serial (R430), stepping (R393), fuse map of bad and first enabled sites and of bad
slices (half × 256 + slice; R400, R401), the fused minimum version (R398), the thermal resistance at each buried sensor, by stack × 256 + sensor
in 1/256 °C per W (R365). Nothing a command does changes it. -/
structure Part where
  grade : Grade
  serial : Nat
  stepping : Nat
  fuseBad : Sites
  fuseEnabled : Sites
  fuseSlices : List Nat
  minVersion : Nat
  theta : Map Nat
deriving DecidableEq, Repr

/-- The flash configuration (R179, R250, R287, R288, R292, R295, R298, R369, R406, R409) and the VERSION of its image (R398). -/
structure Cfg where
  spread : Bool
  adminPort : Nat
  degradedOk : Bool
  compat : Bool
  restartEn : Bool
  deviceId : Nat
  smbusAddr : Nat
  fabEthernet : List Bool
  fabEn : List Bool
  fabExpect : List W32
  routes : Map W32
  ipv6Prefix : Nat
  gwMac : Nat
  version : Nat
deriving DecidableEq, Repr

/-- A firmware bank of the flash (R398, R411, R412): the signed image, its version, its store count. -/
structure FwBank where
  image : List Byte
  version : Nat
  seq : Nat
deriving DecidableEq, Repr

/-- A Quickset record (R315), field by field; `settings` numbers the training whose values SETTINGS holds (log entry 8). -/
structure QRec where
  magic : Nat
  version : Nat
  seq : Nat
  serial : Nat
  iface : Nat
  devSerial : Nat
  rate : Nat
  temp : Int
  hours : Nat
  settings : Nat
  crc : W32
deriving DecidableEq, Repr

/-- A unit entry of the health report (R393). -/
structure UnitEntry where
  kind : Nat
  site : Nat
  detail : Nat
  time : Nat
deriving DecidableEq, Repr

/-- The health record (R400, R405, R412, R216, R217, R224, R319, R324, R328, R329, R336, R366, R369). Power faults are kept as (stack, time), trips as (stack × 256 + sensor, time), error
log entries as (block offset, the four words of the entry). Thread lanes are kept by site; vertical lanes by (half × 256 + slice) × 2,048 +
lane, 1 for a lane that a spare covers, 2 for one that none does. Slices, regions and sensors are
named by half × 256 + slice, stack × 256 + region and stack × 256 + sensor; lines and dies by device. -/
structure Health where
  enabled : Sites
  enabledKnown : Bool
  retired : Sites
  badLanes : Map Nat
  vertLanes : Map Nat
  retiredSlices : List Nat
  homeMaps : Map Nat
  halfWidth : Map Nat
  cacheRemaps : List (Nat × Nat × Nat)
  memRemaps : List (Nat × Nat × Nat)
  lineReports : List (Nat × Nat)
  regFails : List Nat
  darkRegions : List Nat
  phaseFails : List Nat
  failedSensors : List Nat
  suspectCount : Map Nat
  erasedDies : Map Nat
  lostHalves : List Nat
  retentionHours : Option Nat
  retentionSerials : List Nat
  excursion : Bool
  hours : Nat
  entries : List UnitEntry
  powerFault : List (Nat × Nat)
  trips : List (Nat × Nat)
  logs : List (Nat × List W32)
deriving DecidableEq, Repr

/-- What a flash store in progress writes (R412). -/
inductive FlashWrite where
  | health (slot : Nat) (h : Health) (seq : Nat)
  | quickset (recs : List (Nat × QRec))
  | firmware (bank : Nat) (b : FwBank)
  | config (slot : Nat) (c : Cfg) (seq : Nat)
deriving DecidableEq, Repr

/-- The SPI flash (R411): two firmware banks, two configuration slots, Quickset slots by interface × 2 + slot, two health
slots, the reconciliation log, newest first, and whether a store of the health record is due. A slot is none when it is empty or its check fails. -/
structure Flash where
  fwA : Option FwBank
  fwB : Option FwBank
  cfgA : Option (Cfg × Nat)
  cfgB : Option (Cfg × Nat)
  quick : Map QRec
  healthA : Option (Health × Nat)
  healthB : Option (Health × Nat)
  recLog : List (Nat × Nat)
  storing : Option FlashWrite
  due : Bool
deriving DecidableEq, Repr

/-- Pins and rails of the part (R395, R438, R441, R10). -/
structure Pins where
  resetN : Bool
  pwrgd : Bool
  vddAon : Bool
  refclk : Bool
  perstN : List Bool
  thermtrip : Bool
  alert : Bool
deriving DecidableEq, Repr

/-- What bring-up carries from stage to stage (R396 to R410): configuration and booted bank, the self-test's outcome, whether the
part has stopped, degraded service and grade shortfall, interfaces trained fully, how far stage 10 has come, the reconciliation
entries not yet written, and the ticks since the last whole powered hour. -/
structure Boot where
  cfg : Cfg
  bank : Option Nat
  test : SelfTest
  stopped : Bool
  degraded : Bool
  shortfall : Bool
  fullTrained : List Nat
  setUp : Nat
  recEntries : List (Nat × Nat)
  sinceReset : Nat
deriving DecidableEq, Repr

/-- Where a thread of a group stands (R102 to R106). -/
inductive Wait where
  | run
  | merge
  | barG
  | barB (n : Nat)
  | exited
deriving DecidableEq, Repr

/-- One thread (R116, R108, R128, R133, R140): its instruction index, wait, predicates p0 to p6, registers with their
poison marks (registers absent from the map hold 0), pending divergences innermost first, lock wait, the latched high
words of S2R, and the count of reductions it has issued. -/
structure Thread where
  pc : Nat
  wait : Wait
  preds : BitVec 7
  regs : Map W32
  rpois : List Nat
  divs : List Nat
  lock : Bool
  timeHi : W32
  cycHi : W32
  nred : Nat
deriving DecidableEq, Repr

/-- A divergence still pending in a group (R103, R126): its merge index and the threads that diverged. -/
structure Div where
  merge : Nat
  members : List Nat
deriving DecidableEq, Repr

/-- A thread group in its slot (R89, R91, R102, R104): block slot, index in the block, threads by lane, uniform
registers and their poison, the lowest lane of the active path, the count of R102, pending divergences, the mask of
the open group-barrier instance, whether an exception stopped it (R140), an espalier load it waits for (R78), the
accumulate strips it has issued (R385), and whether a breakpoint just released lets one instruction pass (R434). -/
structure Group where
  blk : Nat
  idx : Nat
  threads : List Thread
  uregs : Map W32
  upois : List Nat
  act : Option Nat
  count : Nat
  divs : Map Div
  nextDiv : Nat
  barMask : Option (BitVec 32)
  stopped : Bool
  espWait : Bool
  accIssued : Nat
  bpSkip : Bool
deriving DecidableEq, Repr

/-- An espalier image as loaded (R76), with the source it came from (R83): in SPACE 0 an offset within the core's local memory. -/
structure Image where
  bytes : List Byte
  space : Nat
  addr : Nat
deriving DecidableEq, Repr

/-- The detail entry of a reply (R275). -/
structure Detail where
  kind : Nat
  code : Nat
  site : Nat
  group : Nat
  block : Nat
  lane : Nat
  index : Nat
  port : Nat
  trap : Nat
  time : Nat
deriving DecidableEq, Repr

/-- A block on a core (R89, R90, R95, R109, R381 to R386); `images` are the espalier images that its replay reloads (R83), `ate` the
detail of the poison for which it is to run again (R387). -/
structure Block where
  cid : Nat
  lin : Nat
  t : Nat
  groups : Nat
  regs : Nat
  lmemBase : Nat
  lmemUnits : Nat
  width : Nat
  stall : Nat
  stopped : Bool
  commits : Map Nat
  strips : Map Nat
  replays : Nat
  poisonReplayed : Bool
  didAtomic : Bool
  images : List Image
  ate : Option Detail
deriving DecidableEq, Repr

/-- An operand location (R48), the stride in bytes. -/
structure Loc where
  space : Nat
  stride : Nat
  addr : Nat
deriving DecidableEq, Repr

/-- A tile descriptor (R46, R47), the guard as it acts. -/
structure TileDesc where
  m : Nat
  k : Nat
  n : Nat
  wfmt : Nat
  afmt : Nat
  ofmt : Nat
  guard : Nat
  axis : Bool
  acc : Bool
  esp : Bool
  out : Loc
  act : Loc
  wgt : Loc
deriving DecidableEq, Repr

/-- A tile in the array (R55): its descriptor, issuing group and block, bound image slot (R79), passes staged, started,
ended, drained, strips whose write-out started and completed, whether its interlock ended (R56), whether it was issued to an idle
array (R58), and the tile's number; the index and the lowest lane of the instruction that issued it. -/
structure Tile where
  num : Nat
  desc : TileDesc
  group : Nat
  lane : Nat
  index : Nat
  blk : Nat
  cid : Nat
  image : Option Nat
  staged : Nat
  started : Nat
  ended : Nat
  drained : Nat
  woStarted : Nat
  woDone : Nat
  interlock : Bool
  alone : Bool
deriving DecidableEq, Repr

/-- One block of 32 aligned elements along the reduction axis (R34 to R38, R44, R45): aligned integers, the exponent
X + σ − G of the block, and its NaN and poison bits. -/
structure ABlock where
  q : List Int
  e : Int
  nan : Bool
  pois : Bool
deriving DecidableEq, Repr

/-- The weights of a pass as the cells hold them (R26, R27): the 8-bit slot of each cell, row by row and by physical column, and by
output the exponent, NaN and poison bits of each weight block (R34 to R38, R44, R45). -/
structure WSet where
  slots : List (List Byte)
  heads : List (List (Int × Bool × Bool))
deriving DecidableEq, Repr

/-- The column accumulators of one block of one output element (R27, R28, R39): of the low cell of a pair or of the only cell, and of
the high cell; with the exponent, NaN and poison of the block partial (R38, R44, R45). -/
structure ColAcc where
  low : Int
  high : Int
  e : Int
  nan : Bool
  pois : Bool
deriving DecidableEq, Repr

/-- An output element as the drain holds it (R40, R41, R51): an FP32 value, or the exact integer sum with the prior value
(accumulate mode), and its poison. -/
inductive DVal where
  | fp (v : W32)
  | int (s : Int) (prior : Option W32)
deriving DecidableEq, Repr

/-- A drain bank (R51, R57): the tile's number and strip it holds, its entries row by row, whether the prior values have
been read, whether its write-out runs. -/
structure Bank where
  tile : Nat
  strip : Nat
  vals : List (List (DVal × Bool))
  priorRead : Bool
  writing : Bool
deriving DecidableEq, Repr

/-- The array of a core (R51 to R62): the tile queue (first is running), the stage buffer (tile number, pass, weights), the pass in the
array (tile number, pass, weights, activation blocks by row) and the plane cycles it has run, the accumulators of ended passes that
wait for the drain (tile number, pass, by row, output and block), two banks, filler eighths, the gap cycles so far (none: planes
run), FILLER_MAX as the present gap took it (R65), whether work has arrived in the gap and the cycles since then or since the last
eighth rose (R62), whether the activation feeder lacks planes (R60), whether Trim holds filler, whether a hardware check has failed
(R63). -/
structure Array where
  tiles : List Tile
  nextTile : Nat
  stage : Option (Nat × Nat × WSet)
  pass : Option (Nat × Nat × WSet × List (List ABlock))
  run : Nat
  drain : List (Nat × Nat × List (List (List ColAcc)))
  banks : List (Option Bank)
  eighths : Nat
  gap : Option Nat
  fillMax : Nat
  arrived : Bool
  ramp : Nat
  starved : Bool
  trimHold : Bool
  fault : Bool
deriving DecidableEq, Repr

/-- An espalier load in progress (R78): the group that waits for it, or none for ESP_LOAD; space and address; slot. -/
structure EspLoad where
  group : Option Nat
  cid : Option Nat
  space : Nat
  addr : Nat
  slot : Nat
  lane : Nat
  index : Nat
deriving DecidableEq, Repr

/-- The espalier of a core (R78, R79): two image slots, the active one, the load that runs and those that wait. -/
structure Esp where
  slots : List (Option Image)
  active : Option Nat
  load : Option EspLoad
  waiting : List EspLoad
  busy : Bool
deriving DecidableEq, Repr

/-- A copy of the DMA engine (R138): issuing group, source, destination, length. -/
structure DmaJob where
  id : Nat
  group : Nat
  blk : Nat
  cid : Nat
  lane : Nat
  index : Nat
  src : Loc
  dst : Loc
  len : Nat
deriving DecidableEq, Repr

/-- A line of an L1 (R131, R210, R451): line number (address ÷ 128), bytes, and the poison of its four 32-byte words. -/
structure L1Line where
  line : Nat
  bytes : List Byte
  pois : List Bool
deriving DecidableEq, Repr

/-- A buffered in-cache reduction of a core (R383): block slot, thread, its index n, the instruction's index, operation, address, value,
poison. -/
structure Contrib where
  blk : Nat
  thread : Nat
  n : Nat
  index : Nat
  op : Nat
  addr : Nat
  val : W32
  pois : Bool
deriving DecidableEq, Repr

/-- One core (R91): group and block slots, array, espalier, DMA copies, L1 with the most recently used line first
(R451), commit buffer, lent partition (R377), whether SELFTEST keeps blocks away (R280), lines of the L1 being filled
that an invalidation discards (R135). -/
structure Core where
  groups : Map Group
  blocks : Map Block
  rr : Nat
  arr : Array
  esp : Esp
  dma : List DmaJob
  nextDma : Nat
  l1 : List L1Line
  commit : List Contrib
  selfTest : Bool
  trans : Map Nat
deriving DecidableEq, Repr

/-- The standing of the part's cores (R376 to R379, R400, R401): enabled, spare, restricted spare or restricted in
service, fenced, retired, and the partition a lent core serves. -/
structure Roster where
  enabled : Sites
  spare : Sites
  restricted : Sites
  fenced : Sites
  retired : Sites
  lent : Map Nat
  badLane : Map Nat
  waking : Map Nat
deriving DecidableEq, Repr

/-- A line in the stacked cache (R143, R147, R157, R159): the line number (address ÷ 256), valid and dirty sectors, RRV,
pinned and demoted bits, the partition that filled it. -/
structure Line where
  line : Nat
  valid : BitVec 4
  dirty : BitVec 4
  rrv : Nat
  pinned : Bool
  demoted : Bool
  part : Nat
deriving DecidableEq, Repr

/-- A miss entry (R146): the line it tracks, the sectors asked for, those fetched already, whether the interface has served the fetch, the
requests that wait (none for a PIN's fetch), the allocation policy of the first of them (R150) and the partition that allocates. -/
structure Miss where
  line : Nat
  sectors : BitVec 4
  got : BitVec 4
  fetched : Bool
  waiting : List Nat
  policy : Nat
  part : Nat
deriving DecidableEq, Repr

/-- A victim in a write-back buffer (R161). -/
structure Victim where
  line : Nat
  dirty : BitVec 4
  issued : Bool
deriving DecidableEq, Repr

/-- A staged ordered contribution (R162), with the class that carried it (R242). -/
structure Staged where
  cls : Nat
  cid : Nat
  lin : Nat
  thread : Nat
  n : Nat
  op : Nat
  addr : Nat
  val : W32
  pois : Bool
deriving DecidableEq, Repr

/-- The cache of one half (R143 to R177): lines keyed by (slice × 2,048 + set) × 16 + way, age counts by
slice × 2,048 + set, valid granules of the ways by (slice × 2,048 + set) × 4 + way ÷ 4 (R207), miss entries, write-back buffer, staged
contributions, counts of the thrash window (R158) and when it began, slices that stall, cycles that a band change still stalls one (R364), those that a LOCALIZE or a rehoming flushes (R168),
transpose engine faults handled, the times of the corrected port errors of a lane within the present second
(R221), ports queued for a test and when, the last test of a port, the bytes that a port has carried within 1 ms and when, and the least that one
due for its test has carried in a millisecond (R222), slices whose retirement is due (R205, R216, R223), which side a
slice's port served last, 1 the core's and 2 the router's (R148), the scrubber's position and when it last worked (R218). -/
structure Half where
  lines : Map Line
  ages : Map Nat
  granules : List Nat
  misses : List Miss
  wb : List Victim
  staged : List Staged
  reqs : Nat
  missed : Nat
  thrashFrom : Nat
  stalled : List Nat
  bandLeft : Map Nat
  flushing : List Nat
  xposeBusy : List Nat
  retained : Bool
  waking : Option Nat
  lastUse : Nat
  woken : Bool
  lost : Bool
  laneBad : Map Nat
  laneErr : Map (List Nat)
  portDue : Map Nat
  portTested : Map Nat
  portUse : Map (List (Nat × Nat))
  portLow : Map Nat
  retireDue : List Nat
  sideLast : Map Nat
  scrubPos : Nat
  scrubAt : Nat
deriving DecidableEq, Repr

/-- One memory device and its interface (R306 to R322): bank refreshes done, readings toward a falling band and hold,
retrain in progress, the times of a die's corrections within the present second, accesses waiting, serial of the device, scrub position, when the
scrubber last worked, and the beat that it has yet to rewrite, with the bits it inverts and whether as stored poison (R219), initialised regions (R208), words poisoned at the device beneath a clean copy in the cache
(R206, R209), the settings trained last and the powered hours at that training (R315). -/
structure Mif where
  refreshes : Map Nat
  coolBand : Nat
  coolLow : Nat
  coolWr : Nat
  coolAll : Nat
  retraining : Bool
  dieErr : Map (List Nat)
  waitingReads : List Nat
  waitingWrites : List Nat
  serial : Nat
  scrubPos : Nat
  scrubAt : Nat
  scrubWrite : Option (Nat × List Nat × Bool)
  inited : List Nat
  hidden : List Nat
  draining : Bool
  settings : Nat
  trainHours : Nat
deriving DecidableEq, Repr

/-- What a request asks of its place (R130, R132, R133), or the control message for a core that it is (R232, R250). -/
inductive ReqKind where
  | read
  | write
  | atomic (op : Nat)
  | reduce (op : Nat)
  | order (msg : CtlMsg)
deriving DecidableEq, Repr

/-- How far a request has come: waiting for a tag of its core, on its way, at its place, waiting in a miss entry, or an end order that a core has yet to
acknowledge, performed, answered with data
that its master has yet to use, answered (R146, R247, R252). -/
inductive ReqState where
  | queued
  | sent
  | arrived
  | missing
  | performed
  | ready
  | answered
deriving DecidableEq, Repr

/-- A request in flight (R130 to R133, R186, R230, R247, R248). Its master is named by `slot`: a group of the core at `site` (0 to 63; 64 where
nobody waits for it any more), the core's array as it stages (65), feeds (66), reads prior values (67) or writes out (68), its DMA engine (69) or
espalier (70), a command's processor or, in a lane from 64 on, a transpose engine for it (71), a host port (72), a fabric port (73), the debug
port (75), a half that applies staged reductions (77); `lane` is the lane, the copy, the processor or the port. `serial` numbers the instruction,
or the access of a port. `red` is (block's linear index, thread, n) of a reduction; `line` and `lpois` are the L1 line that a load brings back
(R131), or the bytes of up to a line that another master reads or writes with the marks of their words, or its reductions' operands with a mark
each; `refused` is set where its place refuses it (R184, R285, R388); `tag` is the reserve of its core whose tag it holds, 0 load/store, 1 feeder,
2 drain, 3 DMA, 4 class 0 (R252, R253). -/
structure Req where
  rid : Nat
  cid : Nat
  lin : Nat
  site : Nat
  slot : Nat
  lane : Nat
  serial : Nat
  index : Nat
  kind : ReqKind
  space : Nat
  ea : Nat
  addr : Nat
  size : Nat
  data : W128
  cmp : W128
  pois : Bool
  dest : Option Nat
  uni : Bool
  sx : Bool
  fillL1 : Bool
  cls : Nat
  part : Nat
  sentAt : Nat
  attempt : Nat
  state : ReqState
  result : W128
  rpois : Bool
  remote : Option (Nat × Nat × Nat)
  heldOnce : Bool
  dropFill : Bool
  red : Option (Nat × Nat × Nat)
  line : List Byte
  lpois : List Bool
  refused : Bool
  tag : Nat
deriving DecidableEq, Repr

/-- The ports of a router that are no links to other routers (R229, R230): the core, the slice, the outer port where a host port, a fabric port
or the stack controller attaches. -/
inductive Endpoint where
  | core
  | slice
  | outer
deriving DecidableEq, Repr

/-- A packet on the mesh (R230, R233 to R237): the request it belongs to, whether it is a response, its class, the router it is at, the input it
came by (a router, or an endpoint of this one), since when it waits there, its destination router and endpoint, its source, whether it has moved
to the detour channels, RETRY and the attempt number, and the routers that its way round a bypassed element still names. -/
structure Packet where
  pid : Nat
  rid : Nat
  response : Bool
  cls : Nat
  at_ : Nat
  input : Nat
  since : Nat
  dest : Nat
  endpoint : Endpoint
  src : Nat
  detour : Bool
  retry : Bool
  attempt : Nat
  via : List Nat
deriving DecidableEq, Repr

/-- The number of an endpoint's input among the inputs of router i, beside the numbers of routers. -/
def Endpoint.input (e : Endpoint) (i : Nat) : Nat := i + 4096 * (match e with | .core => 1 | .slice => 2 | .outer => 3)

/-- The virtual channel that a packet takes (R233). -/
def Packet.vc (k : Packet) : Nat := (if k.detour then 4 else 0) + (if k.cls = 0 then 0 else 2) + (if k.response then 1 else 0)

/-- Who stalls at a limit (R252): a thread group, a request, a line of a half, a queue, a fabric port. -/
inductive Staller where
  | group (site slot : Nat)
  | request (rid : Nat)
  | line (half line : Nat)
  | queue (port queue : Nat)
  | fabric (port : Nat)
deriving DecidableEq, Repr

/-- What it stalls for (R146, R248, R252): a tag of its core, a place among a fabric port's reads, a half's miss entries or ways, a device's
accesses, a target's records, a host port's reads, the part's commands. -/
inductive StallOn where
  | tags (site : Nat)
  | reads (port : Nat)
  | misses (half : Nat)
  | device (dev : Nat)
  | records (site : Nat)
  | hostReads (port : Nat)
  | commands
deriving DecidableEq, Repr

/-- The network (R228 to R260): requests and packets in flight, performed-write records by place, bytes counted in the
present budget window by master, new class tables and budgets that wait for the boundary, class-0 flits of the window by
router output (site × 8 + output, for a stack link with 65,536 × (1 + the stack it leads to), R243), bypassed routers and links, the times of the check failures of a link within the present
millisecond, failed rings, crossings that have yet to switch mode, the time when a core's unit last had a request in flight by site × 4 +
unit (R253), who stalls for what, the path failures reported to Coppice that no bypass has answered, by master and target (R247), and the
fence orders that have yet to reach their cores, with the class of the fault (R374). -/
structure Net where
  reqs : List Req
  nextRid : Nat
  nextSerial : Nat
  packets : List Packet
  nextPid : Nat
  records : List (Nat × Nat)
  units : Map Nat
  pendingRegs : Map W32
  c0 : Map Nat
  bypassed : List Nat
  linkErrs : Map (List Nat)
  ringFailed : List Nat
  crossing : Map Nat
  unitUse : Map Nat
  stalls : List (Staller × StallOn)
  pathFails : List (Nat × Nat)
  fences : Map Nat
deriving DecidableEq, Repr

/-- A queue of a host port (R266 to R270). -/
structure Queue where
  en : Bool
  sqDev : Bool
  cqDev : Bool
  detailDev : Bool
  intEach : Bool
  sizeM1 : Nat
  qerr : Bool
  qerrCode : Nat
  sqHead : Nat
  sqTail : Nat
  sqBase : Nat
  cqBase : Nat
  detailBase : Nat
  cqTail : Nat
  cqHead : Nat
  phase : Bool
  inflight : Nat
  vector : Nat
deriving DecidableEq, Repr

/-- A host port (R261 to R265): D3hot, what is held in it, a command's reply, or its detail entry alone for a slot whose reply is written, interrupts
to send, interrupts held, sent vectors,
BAR 2 size, the last window or register read, partitions that a reset of the port has yet to reset (R264), whether a reset
waits for a PART_CREATE for the port (R290), and posted writes that wait behind one that a slice stalls (R191): whether each is one to the
window, its offset or doorbell number, and its bytes; the queues that have a read of an entry in host memory under way (R252, R269); and the
reads of its window under way: their numbers, partitions, addresses and lengths. -/
structure Port where
  d3hot : Bool
  held : List (Nat × Option Nat)
  irqs : List Nat
  heldIrqs : List Nat
  sent : List Nat
  dmwGib : Nat
  lastRead : List Byte
  lastPoisoned : Bool
  lastOk : Bool
  resets : List Nat
  resetDue : Bool
  posted : List (Bool × Nat × List Byte)
  reads : List Nat
  windowReads : List (Nat × Nat × Nat × Nat)
deriving DecidableEq, Repr

/-- The host side (R262, R266): ports, queues by port × 2,048 + queue index, MSI-X vectors not masked and pending bits
by port × 2,048 + vector (log entry 112), and the processor that has taken over a failed command processor's queues (R373), by
stack × 4 + processor. -/
structure HostSide where
  ports : Map Port
  queues : Map Queue
  msixUnmasked : List Nat
  msixPending : List Nat
  msixAddr : Map W64
  msixData : Map W32
  cpMap : Map Nat
deriving DecidableEq, Repr

/-- How far a command has come (R23, R270, R272). -/
inductive Phase where
  | accepted
  | running
  | ending
  | bounded
  | replied
deriving DecidableEq, Repr

/-- A command (R266, R271 to R275, R381, R387, R422): its queue and packet, times, status, the work it has left (blocks placed
or pieces done, the blocks that have exited with an access yet to be performed, by site, the piece whose accesses to its destination are under way, the pieces that transpose engines have, by half × 2 + engine, each with whether its
destination is being written, the completion slot whose bytes in device memory are being written, the pieces replayed after poison), the bytes and the poisoned words of a LAUNCH's
code as they stood when it started (R119), and whether it has started. -/
structure Cmd where
  cid : Nat
  port : Nat
  queue : Nat
  admin : Bool
  part : Nat
  pkt : List W32
  slot : Nat
  accepted : Nat
  started : Nat
  deadline : Option Nat
  held : Nat
  heldRemote : Nat
  phase : Phase
  status : Nat
  result : Nat
  detail : Option Detail
  nextBlock : Nat
  blocksDone : Nat
  exited : List (Nat × Block)
  cores : List Nat
  launched : List Nat
  ordered : List Nat
  acked : List Nat
  startVals : Map (List Nat)
  endVals : Map (List Nat)
  cleared : Bool
  recovered : Bool
  poisoned : Bool
  replay : List (Nat × Block)
  pieces : List Nat
  sentPiece : Option Nat
  engines : List (Nat × Nat × Bool)
  replyAt : Option Nat
  retried : List Nat
  bounded : Nat
  recIndex : W32
  segs : Map W32
  code : List Host.Cell
  codePoison : List Nat
  begun : Bool
deriving DecidableEq, Repr

/-- A partition (R282 to R284): owner, quota, default timeout in ms, ranges (base, length), regions (stack × 256 + layer
× 128 + half × 64 + region), semaphores. -/
structure Partition where
  owner : Nat
  quota : Nat
  timeoutMs : Nat
  ranges : List (Nat × Nat)
  regions : List Nat
  sems : Map Nat
  resetting : Bool
deriving DecidableEq, Repr

/-- A frame that a fabric port has sent and keeps for a replay (R299): when it was sent last, its TYPE, its packet, and its number, which is the
link frame's sequence number or, in Ethernet mode, the packet's SEQ. -/
structure SentPkt where
  at_ : Nat
  typ : Nat
  pkt : FabPkt
  frame : W32
deriving DecidableEq, Repr

/-- A link of a fabric port (R294, R298 to R302): peer serial, frames kept for a replay, packets that wait for room among them, times of the
replays of the past 100 µs by peer, the number of the next link frame to send and of the next to arrive, next SEQ to send by peer, last SEQ
seen by source × 16 + source port, when training began, whether it is full, whether a port left down trains again after 1 s, and the widest
WIDTH that a give-up has left it. -/
structure FabPort where
  peerSerial : Nat
  sentPkts : List SentPkt
  waiting : List (Nat × FabPkt)
  replays : Map (List Nat)
  nextFrame : W32
  expFrame : W32
  nextSeq : Map W32
  peerIn : Map W32
  trainFrom : Nat
  full : Bool
  retry : Bool
  most : Nat
deriving DecidableEq, Repr

/-- The head of an Ethernet frame (R292, R293): the MAC address it goes to, traffic class and flow label, IPv6 source and destination,
UDP source and destination ports; and the priority under flow control, where there is one. -/
structure EthHead where
  mac : Nat
  tclass : Nat
  flow : Nat
  src : Nat
  dst : Nat
  udpSrc : Nat
  udpDst : Nat
  prio : Option Nat
deriving DecidableEq, Repr

/-- What carries a packet out of a port (R292): an Ethernet frame, or a link frame with its sequence number and its CRC-32. -/
inductive FabFrame where
  | eth (head : EthHead)
  | link (seq crc : W32)
deriving DecidableEq, Repr

/-- The record of a write, an atomic or a reduction of another part that has been performed (R248, R294): the port it came by, its source and
tag, and the response with its poison bits. -/
structure FabRecord where
  port : Nat
  src : Nat
  tag : Nat
  data : List Byte
  poison : List Bool
deriving DecidableEq, Repr

/-- The fabric side (R295 to R302): ports, the route table, FP_ACCEPT and segment registers, performed-write records, packets that have left with
their TYPE, the frames that carried them, negative acknowledgements sent, by port, peer and number of the frame asked for, packets of this part
for itself on their way, own requests that a link gave up on, with that link's port, and the requests of other parts that this one serves: port,
TYPE, packet, the number of their accesses, and whether one of these was refused. -/
structure Fab where
  ports : Map FabPort
  routes : Map W32
  accepts : Map W32
  segs : Map W32
  records : List FabRecord
  out : List (Nat × FabPkt)
  frames : List FabFrame
  naks : List (Nat × Nat × W32)
  loop : List (Nat × FabPkt)
  failed : Map Nat
  serving : List (Nat × Nat × FabPkt × Nat × Bool)
deriving DecidableEq, Repr

/-- Regions switching on, Trim and the governors beside their registers (R330 to R346); `droop` and `late` are the regions stretched in
the present Trim period and the root cycles by which a region's next edges come late, `sag` how many mV the supply of a region stands below
its set point and whether its next edge is stretched already (R355). STEP_GOV is made up of the governor's own holds (R335), the steps of
capped regions (R328) and what a switch-on has lowered, by the region that switches on (R330). `govAt`, `stepAt` and `trimLast` are the times
of the last measurement of a stack, step change of a region and Trim period (R335, R338, R354), `trimSeen` the power, hi and full load of a
region that Trim last saw (R342). -/
structure Power where
  swWait : Map Nat
  lowered : Map (List (Nat × Nat))
  govHold : Map Nat
  capStep : Map Nat
  govAt : Map Nat
  stepAt : Map Nat
  sag : Map (Nat × Bool)
  cmdParked : List Nat
  thrReq : Map Nat
  hotHold : List Nat
  droop : List Nat
  late : Map Nat
  govBelow : Map Nat
  govLast : Map Nat
  trimR : Option Nat
  trimLast : Option Nat
  trimSeen : Option (Nat × Nat × Nat)
  trimPending : Option (Nat × Nat × Nat × Bool)
  trimEnabled : Bool
  trimSum : Nat
  trimN : Nat
  trimRot : Nat
  idleSince : Map Nat
deriving DecidableEq, Repr

/-- Thermal control beside its registers (R361 to R369); `tripCool` counts each stack's samples in a row with every sensor below
75 °C while the trip is latched. -/
structure Therm where
  sampled : List Nat
  coolSince : Map Nat
  fastSince : Map Nat
  step4Since : Map Nat
  below : Map Nat
  bandCool : Map Nat
  suspectFrom : Map Nat
  clearFrom : Map Nat
  estimates : Map Int
  tripCool : Map Nat
  sampleAt : Map Nat
deriving DecidableEq, Repr

/-- Device time (R357, R358): the master count, the difference of each stack's copy, the difference that an aligned copy takes at the next
tick, whether time runs, stacks whose root PLL is locked. -/
structure Time where
  now : Nat
  diff : Map Int
  drift : Map Int
  running : Bool
  locked : List Nat
deriving DecidableEq, Repr

/-- The debug port and the TAP (R430 to R435, R447): instruction register, the boundary register as last captured, the values that
SAMPLE/PRELOAD left in its cells, what the selected data register shifts out, debug attempts and resets so far, and the access to memory that is
under way: what was shifted in, and the number of its requests. -/
structure Dbg where
  ir : Nat
  boundary : Nat
  preload : Nat
  dr : Nat
  nonceCount : Nat
  mem : Option (BitVec 128 × Nat)
deriving DecidableEq, Repr

/-- The SMBus management port (R288): the packet received, the reply and result it will return. -/
structure Mgmt where
  packet : Option (List Byte)
  reply : List Byte
  out : List Byte
deriving DecidableEq, Repr

/-- The whole part. -/
structure State where
  part : Part
  flash : Flash
  health : Health
  pins : Pins
  boot : Boot
  regs : Map W32
  latches : Map W32
  mem : List Host.Cell
  poison : List Nat
  granules : List Nat
  hmem : List Host.Cell
  cores : Map Core
  roster : Roster
  halves : Map Half
  mifs : Map Mif
  net : Net
  host : HostSide
  cmds : List Cmd
  nextCid : Nat
  parts : Map Partition
  fab : Fab
  power : Power
  therm : Therm
  time : Time
  lostRecs : Map Nat
  dbg : Dbg
  mgmt : Mgmt
  recoveredCnt : Nat
  unrecoveredCnt : Nat
  pending : List Instr
  drawn : Nat
deriving DecidableEq, Repr

/-- The reasons a step stops: there is none. The spec gives every command an effect, and one that names a unit the part's grade does not
have finds nothing there to act (R2, R11, R13, R16; log entry 4). -/
inductive Fault where
deriving DecidableEq, Repr

/-- The refusals. -/
inductive Refusal where
  /-- Answered by `exec` alone, for a command that has no meaning yet. Safe: nothing follows from a refusal. -/
  | notModelled (mnemonic : String)
deriving DecidableEq, Repr

/-- The configuration before firmware has read one (R398). DESIGN CHOICE for every field, log entry 10. -/
def Cfg.blank : Cfg :=
  ⟨false, 0, false, false, true, 0, 0x4C, [], [], [], [], 0, 0, 0⟩

/-- An empty health record (R400): DESIGN CHOICE, log entry 10: the part has not started before. -/
def Health.blank : Health :=
  ⟨0, false, 0, [], [], [], [], [], [], [], [], [], [], [], [], [], [], [], none, [], false, 0, [], [], [], []⟩

/-- No self-test failures. -/
def SelfTest.none : SelfTest := ⟨[], [], [], [], []⟩

/-- A thread at block start but for v0 (R95). -/
def Thread.start (pc : Nat) : Thread := ⟨pc, .run, 0, [], [], [], false, 0, 0, 0⟩

/-- The array of an idle core (R62 with ARR_STATUS.EIGHTHS reset 0). -/
def Array.idle : Array := ⟨[], 0, none, none, 0, [], [none, none], 0, some 0, 48, false, 0, false, false, false⟩

/-- The espalier of an idle core. -/
def Esp.idle : Esp := ⟨[none, none], none, none, [], false⟩

/-- A core with nothing resident. -/
def Core.idle : Core := ⟨[], [], 0, Array.idle, Esp.idle, [], 0, [], [], false, []⟩

/-- A half's cache with no line. -/
def Half.empty : Half :=
  ⟨[], [], [], [], [], [], 0, 0, 0, [], [], [], [], false, none, 0, false, false, [], [], [], [], [], [], [], [], 0, 0⟩

/-- An interface with nothing pending. -/
def Mif.idle : Mif := ⟨[], 0, 0, 0, 0, false, [], [], [], 0, 0, 0, none, [], [], false, 0, 0⟩

/-- A port in D0 with nothing held; BAR 2 of 16 GiB (R262). -/
def Port.reset : Port := ⟨false, [], [], [], [], 16, [], false, false, [], false, [], [], []⟩

/-- A queue block at reset (R267). -/
def Queue.reset : Queue :=
  ⟨false, false, false, false, false, 0, false, 0, 0, 0, 0, 0, 0, 0, 0, true, 0, 0⟩

/-- A fabric port with no link. -/
def FabPort.idle : FabPort := ⟨0, [], [], [], 0, 0, [], [], 0, false, false, 0⟩

/-- The network with nothing in flight. -/
def Net.idle : Net := ⟨[], 0, 0, [], 0, [], [], [], [], [], [], [], [], [], [], [], []⟩

/-- The roster before reconciliation: no core in service. -/
def Roster.empty : Roster := ⟨0, 0, 0, 0, 0, [], [], []⟩

/-- Power control at reset (R337: Trim starts disabled). -/
def Power.reset : Power where
  swWait := []
  lowered := []
  govHold := []
  capStep := []
  govAt := []
  stepAt := []
  sag := []
  cmdParked := []
  thrReq := []
  hotHold := []
  droop := []
  late := []
  govBelow := []
  govLast := []
  trimR := none
  trimLast := none
  trimSeen := none
  trimPending := none
  trimEnabled := false
  trimSum := 0
  trimN := 0
  trimRot := 0
  idleSince := []

/-- Thermal control at reset. -/
def Therm.reset : Therm := ⟨[], [], [], [], [], [], [], [], [], [], []⟩

/-- The fuse map of the enabled sites at first boot (R401): DESIGN CHOICE, log entry 10: rows 0 to 14 of every layer. -/
def fuseRows : Nat → Sites
  | 0 => 0
  | n + 1 => (fuseRows n <<< 256) ||| BitVec.ofNat 4096 (2 ^ 240 - 1)

/-- The part right after RESET_N is deasserted for the first time, with PWRGD high and VDD_AON in range (R10, R395):
every register at its Reset column, memory with nothing listed, device time not yet running (R357), bring-up about to
start. The grade, the serial and the flash contents are the model's choice (log entries 2 and 10). -/
def State.reset : State where
  part := ⟨.xn2_960, 0, 0, 0, fuseRows 4, [], 0, []⟩
  flash := ⟨some ⟨[], 0, 0⟩, none, some (Cfg.blank, 0), none, [], some (Health.blank, 0), none, [], none, false⟩
  health := Health.blank
  pins := ⟨true, true, true, true, [true, true, true, true], false, false⟩
  boot := ⟨Cfg.blank, none, SelfTest.none, false, false, false, [], 0, [], 0⟩
  regs := []
  latches := []
  mem := []
  poison := []
  granules := []
  hmem := []
  cores := []
  roster := Roster.empty
  halves := []
  mifs := []
  net := Net.idle
  host := ⟨[], [], [], [], [], [], []⟩
  cmds := []
  nextCid := 0
  parts := []
  fab := ⟨[], [], [], [], [], [], [], [], [], [], []⟩
  power := Power.reset
  therm := Therm.reset
  time := ⟨0, [], [], false, []⟩
  lostRecs := []
  dbg := ⟨2, 0, 0, 0, 0, none⟩
  mgmt := ⟨none, [], []⟩
  recoveredCnt := 0
  unrecoveredCnt := 0
  pending := []
  drawn := 0

end Sys2Proof.Machine
end

