-- ==== Sys2Proof/Machine/Tile.lean ====
section
/-! DEFINITION. The arithmetic of a tile: formats (R31), the fold (R51), block alignment (R34 to R38), partials and the
drain (R28, R39 to R42, R44, R45). Nothing here touches the state. -/

namespace Sys2Proof.Machine

/-! ## Formats (R31) -/

/-- Whether a code is an input format. -/
def isInFmt (f : Nat) : Bool := [0, 1, 2, 4, 5, 6, 7, 8, 9, 11].contains f
/-- Whether a code is an output format. -/
def isOutFmt (f : Nat) : Bool := [12, 13, 14].contains f
/-- Whether a format is INT2, INT4 or INT8. -/
def isIntFmt (f : Nat) : Bool := decide (f ≤ 2)
/-- Whether a format is an MX format. -/
def isMxFmt (f : Nat) : Bool := [8, 9, 11].contains f

/-- Weight slot width bw (R31). -/
def slotBits (f : Nat) : Nat := match f with | 0 => 2 | 1 => 4 | 6 => 16 | 7 => 16 | _ => 8
/-- Weight guard gw (R31). -/
def weightGuard (f : Nat) : Nat := match f with | 4 => 3 | 5 => 4 | 6 => 7 | 7 => 4 | 9 => 3 | 11 => 5 | _ => 0
/-- Activation planes ba at guard g (R31). -/
def planes (f g : Nat) : Nat :=
  match f with
  | 0 => 2 | 1 => 4 | 2 => 8 | 4 => 5 + g | 5 => 4 + g | 6 => 9 + g | 7 => 12 + g | 8 => 8 | 9 => 5 + g | _ => 3 + g
/-- Bits of a stored element (R31, R49). -/
def elemBits (f : Nat) : Nat := match f with | 0 => 2 | 1 => 4 | 6 => 16 | 7 => 16 | 11 => 4 | 12 => 32 | 13 => 32 | 14 => 16 | _ => 8

/-- Bytes that n elements of a format take. -/
def rowBytes (f n : Nat) : Nat := cdiv (n * elemBits f) 8

/-! ## The fold (R51) -/

/-- Logical weight columns per pass. -/
def TileDesc.ncap (d : TileDesc) : Nat := 512 / slotBits d.wfmt
/-- Output columns of a chunk. -/
def TileDesc.nout (d : TileDesc) : Nat := if d.axis then 64 else d.ncap
/-- Output columns of the tile: N, or K when AXIS = 1. -/
def TileDesc.cols (d : TileDesc) : Nat := if d.axis then d.k else d.n
/-- The reduction length: K, or N when AXIS = 1. -/
def TileDesc.red (d : TileDesc) : Nat := if d.axis then d.n else d.k
/-- Reduction elements of one pass. -/
def TileDesc.redCap (d : TileDesc) : Nat := if d.axis then d.ncap else 64
/-- Output chunks. -/
def TileDesc.chunks (d : TileDesc) : Nat := cdiv d.cols d.nout
/-- Reduction passes of a strip. -/
def TileDesc.reds (d : TileDesc) : Nat := cdiv d.red d.redCap
/-- Strip height ms. -/
def TileDesc.ms (d : TileDesc) : Nat := 16384 / d.nout
/-- Strips of a chunk. -/
def TileDesc.strips (d : TileDesc) : Nat := cdiv d.m d.ms
/-- Strips of the tile, over all chunks. -/
def TileDesc.allStrips (d : TileDesc) : Nat := d.chunks * d.strips
/-- Passes of the tile: for each chunk, for each strip, one per reduction group. -/
def TileDesc.passes (d : TileDesc) : Nat := d.allStrips * d.reds
/-- The strip, counted over all chunks, of a pass. -/
def TileDesc.stripOf (d : TileDesc) (p : Nat) : Nat := p / d.reds
/-- The chunk of a strip. -/
def TileDesc.chunkOf (d : TileDesc) (st : Nat) : Nat := st / d.strips
/-- The first row of a strip. -/
def TileDesc.rowOf (d : TileDesc) (st : Nat) : Nat := st % d.strips * d.ms
/-- Rows m of a strip. -/
def TileDesc.rowsOf (d : TileDesc) (st : Nat) : Nat := min d.ms (d.m - d.rowOf st)
/-- The first output column of a strip's chunk. -/
def TileDesc.colOf (d : TileDesc) (st : Nat) : Nat := d.chunkOf st * d.nout
/-- Output columns of a strip's chunk that the tile has. -/
def TileDesc.colsOf (d : TileDesc) (st : Nat) : Nat := min d.nout (d.cols - d.colOf st)
/-- The first reduction index of a pass. -/
def TileDesc.redOf (d : TileDesc) (p : Nat) : Nat := p % d.reds * d.redCap
/-- Reduction elements of a pass that the tile has. -/
def TileDesc.redLen (d : TileDesc) (p : Nat) : Nat := min d.redCap (d.red - d.redOf p)
/-- Planes that a pass enters: m × ba. -/
def TileDesc.planesOf (d : TileDesc) (p : Nat) : Nat := d.rowsOf (d.stripOf p) * planes d.afmt d.guard
/-- Whether both operands are integer formats (R41). -/
def TileDesc.ints (d : TileDesc) : Bool := isIntFmt d.wfmt && isIntFmt d.afmt

/-! ## Block alignment (R34 to R38, R44, R45) -/

/-- The codes that one byte packs, element 0 in the lowest bits (R49). -/
def unpackByte (eb : Nat) (b : PByte) : List (Nat × Bool) :=
  (upTo 0 (8 / eb)).map (fun i => (b.1.toNat / 2 ^ (i * eb) % 2 ^ eb, b.2))

/-- 16-bit codes, little-endian. -/
def unpack16 : List PByte → List (Nat × Bool)
  | a :: b :: r => (a.1.toNat + 256 * b.1.toNat, a.2 || b.2) :: unpack16 r
  | _ => []

/-- The first n element codes of a row's bytes. -/
def unpackRow (f n : Nat) (bs : List PByte) : List (Nat × Bool) :=
  (if elemBits f = 16 then unpack16 bs else bs.flatMap (unpackByte (elemBits f))).take n

/-- Columns of a list of rows. -/
def columns {α : Type} (d : α) (n : Nat) (rows : List (List α)) : List (List α) :=
  (upTo 0 n).map (fun j => rows.map (fun r => nth d r j))

/-- A list cut into pieces of 32; the fuel bounds their number. -/
def pieces32 {α : Type} : Nat → List α → List (List α)
  | 0, _ => []
  | _, [] => []
  | n + 1, x => x.take 32 :: pieces32 n (x.drop 32)

/-- The value of an element code of a floating-point or MX-float format (R35). -/
def elemVal (f c : Nat) : FV :=
  match f with
  | 4 => decFin e4m3 true c
  | 5 => decIEEE e5m2 c
  | 6 => decIEEE bf16 c
  | 7 => decIEEE fp16 c
  | 9 => decFin e4m3 true c
  | _ => decFin e2m1 false c

/-- Block alignment of at most 32 elements with guard G and an MX scale code (R34 to R38). The exponent is X + σ − G; a NaN
or ±Inf element or a scale of 0xFF makes the block NaN (R44); any poisoned element or scale makes it poisoned (R45). -/
def alignBlock (f g : Nat) (elems : List (Nat × Bool)) (scale : Option (Nat × Bool)) : ABlock :=
  let sig : Int := match scale with | some (c, _) => (c : Int) - 127 | none => 0
  let sNan := match scale with | some (c, _) => decide (c = 255) | none => false
  let sPois := match scale with | some (_, p) => p | none => false
  let pois := sPois || elems.any (·.2)
  if isIntFmt f then ⟨elems.map (fun x => sint (elemBits f) x.1), 0, false, pois⟩
  else if f = 8 then ⟨elems.map (fun x => sint 8 x.1), sig - 6, sNan, pois⟩
  else
    let vs := elems.map (fun x => elemVal f x.1)
    let x := (vs.foldl (fun (acc : Option Int) v =>
      match v with
      | .fin _ m e => if m = 0 then acc else (match acc with | some y => some (max y e) | none => some e)
      | _ => acc) none).getD 0
    let nan := vs.any (fun v => match v with | .fin _ _ _ => false | _ => true)
    ⟨vs.map (fun v => match v with
      | .fin n m e => sgn n (shiftRound .rne false m e (x - g))
      | _ => 0), x - g + sig, sNan || nan, pois⟩

/-! ## Weight slots, planes and accumulators (R26 to R28) -/

/-- The 8-bit slots of adjacent cells that hold the logical weights of one row, packed from bit 0 upward: four of 2 bits, two of 4, one of
8, or one of 16 over the pair of columns 2c and 2c + 1 (R26, R27). -/
def packSlots (bw : Nat) (ws : List Int) : List Byte :=
  if bw = 16 then ws.flatMap (fun w => [BitVec.ofInt 8 w, BitVec.ofInt 8 (w / 256)])
  else
    let k := 8 / bw
    (upTo 0 (cdiv ws.length k)).map (fun c =>
      BitVec.ofNat 8 ((upTo 0 k).foldl (fun v i =>
        v + (nth 0 ws (k * c + i) % (2 : Int) ^ bw).toNat * 2 ^ (bw * i)) 0))

/-- The bits of logical weight n of a row that its cell or the low cell of its pair holds, as a number: two's complement, but for the low
cell of a pair, whose bits are unsigned (R26, R27). -/
def lowWeight (bw : Nat) (row : List Byte) (n : Nat) : Int :=
  if bw = 16 then ((nth 0 row (2 * n)).toNat : Int)
  else sint bw ((nth 0 row (n / (8 / bw))).toNat / 2 ^ (bw * (n % (8 / bw))) % 2 ^ bw)

/-- The bits that the high cell of a pair holds, two's complement; 0 where there is no pair (R27). -/
def highWeight (bw : Nat) (row : List Byte) (n : Nat) : Int := if bw = 16 then sint 8 (nth 0 row (2 * n + 1)).toNat else 0

/-- Bit j of an activation of ba bits in two's complement (R28). -/
def planeBit (ba : Nat) (a : Int) (j : Nat) : Nat := (a % (2 : Int) ^ ba).toNat / 2 ^ j % 2

/-- What plane j adds over the rows of a block: the sum of the weights whose row's plane bit is 1 (R28). -/
def planeSum (ba j : Nat) (as ws : List Int) : Int :=
  (List.zip as ws).foldl (fun s x => if planeBit ba x.1 j = 1 then s + x.2 else s) 0

/-- An accumulator after all ba planes: each plane's sum shifted by its bit, the sign plane's subtracted (R28). -/
def accumulate (ba : Nat) (as ws : List Int) : Int :=
  (upTo 0 ba).foldl (fun acc j =>
    if j + 1 = ba then acc - planeSum ba j as ws * 2 ^ j else acc + planeSum ba j as ws * 2 ^ j) 0

/-- The block partial P that the drain forms of an accumulator or of a pair's (R27, R39). -/
def ColAcc.total (x : ColAcc) : Int := x.high * 256 + x.low

/-- The converted partial of R40; NaN where either block is NaN (R44). -/
def ColAcc.fp (x : ColAcc) : W32 := if x.nan then nan32 else roundInt32 x.total x.e

/-- One pass's block partials added into an element, in increasing reduction index (R40, R41, R45). -/
def DVal.add (v : DVal × Bool) (xs : List ColAcc) : DVal × Bool :=
  xs.foldl (fun v x =>
    (match v.1 with
     | .fp acc => .fp (drainAdd acc x.fp)
     | .int s q => .int (s + x.total) q, v.2 || x.pois)) v

/-- The weights of a pass as the cells hold them, from the blocks of each output: outputs are logical columns, or rows where the tile reads
along the other axis (R26, R27, R59). -/
def WSet.of (d : TileDesc) (ws : List (List ABlock)) : WSet :=
  let rows : List (List Int) :=
    if d.axis then ws.map (fun bs => bs.flatMap (·.q))
    else
      let cols := ws.map (fun bs => bs.flatMap (·.q))
      (upTo 0 ((cols.map List.length).foldl max 0)).map (fun r => cols.map (fun c => nth 0 c r))
  ⟨rows.map (packSlots (slotBits d.wfmt)), ws.map (fun bs => bs.map (fun b => (b.e, b.nan, b.pois)))⟩

/-- The weights of output o in block b, as a part of its cells gives them: of the rows 32b on in a column, or of the columns 32b on in a
row (R28, R59). -/
def WSet.weights (d : TileDesc) (w : WSet) (part : Nat → List Byte → Nat → Int) (o b n : Nat) : List Int :=
  (upTo (32 * b) n).map (fun i =>
    if d.axis then part (slotBits d.wfmt) (nth [] w.slots o) i else part (slotBits d.wfmt) (nth [] w.slots i) o)

/-- The accumulators of one output element for one activation row (R27, R28, R59). -/
def WSet.accs (d : TileDesc) (w : WSet) (o : Nat) (as : List ABlock) : List ColAcc :=
  let hs := nth [] w.heads o
  (upTo 0 (min hs.length as.length)).map (fun b =>
    let a := nth ⟨[], 0, false, false⟩ as b
    let (e, nan, pois) := nth (0, false, false) hs b
    let go (part : Nat → List Byte → Nat → Int) : Int :=
      accumulate (planes d.afmt d.guard) a.q (w.weights d part o b a.q.length)
    ⟨go lowWeight, if slotBits d.wfmt = 16 then go highWeight else 0, e + a.e, nan || a.nan, pois || a.pois⟩)

/-- What the accumulators hold once the last plane of a pass has entered: by activation row, output and block (R28). -/
def passAccs (d : TileDesc) (w : WSet) (ab : List (List ABlock)) : List (List (List ColAcc)) :=
  ab.map (fun row => (upTo 0 w.heads.length).map (fun o => w.accs d o row))

/-- A bank's element before the first pass (R40, R41): 0, or the prior value. -/
def DVal.start (ints : Bool) (ofmt : Nat) (prior : Option Nat) : DVal :=
  let asFp (c : Nat) : W32 := if ofmt = 14 then encFV (decIEEE bf16 c) else BitVec.ofNat 32 c
  if ints then
    (match prior with
     | none => .int 0 none
     | some c => if ofmt = 12 then .int (sint 32 c) none else .int 0 (some (asFp c)))
  else .fp (match prior with | none => 0 | some c => asFp c)

/-- The INT32 value of an integer sum, saturated, and whether it saturated (R41). -/
def DVal.toInt32 (v : DVal) : W32 × Bool :=
  match v with
  | .int s _ => let (x, b) := satInt (-2147483648) 2147483647 s; (BitVec.ofInt 32 x, b)
  | .fp w => (w, false)

/-- The FP32 value (R40, R41). -/
def DVal.toFp32 (v : DVal) : W32 :=
  match v with
  | .fp w => w
  | .int s none => roundInt32 s 0
  | .int s (some p) => drainAdd p (roundInt32 s 0)

/-- The stored code of an element in the output format without an espalier image (R41, R42), and whether it saturated. -/
def DVal.stored (ofmt : Nat) (v : DVal) : Nat × Bool :=
  match ofmt with
  | 12 => let (w, b) := v.toInt32; (w.toNat, b)
  | 13 => (v.toFp32.toNat, false)
  | _ => (toBf16 (dec32 v.toFp32), false)

/-! ## Footprints (R48 to R50) -/

/-- Where the last byte of parts (rows, row length) ends, the parts following each other in row strides. -/
def spanOf (stride : Nat) : Nat → List (Nat × Nat) → Nat
  | _, [] => 0
  | b, (r, l) :: ps => max (if r = 0 then 0 else (b + r - 1) * stride + l) (spanOf stride (b + r) ps)

/-- Length of the footprint of an operand at a location: strided, or packed in SPACE 3 (R196). -/
def Loc.span (l : Loc) (parts : List (Nat × Nat)) : Nat :=
  if l.space = 3 then parts.foldl (fun n p => n + p.1 * p.2) 0 else spanOf l.stride 0 parts

/-- The offset of byte x of row r of part number i of an operand (R49, R196). DESIGN CHOICE (log 153): a packed row
of 2-bit or 4-bit elements that ends inside a byte is rounded up, so the next row begins at the next byte. -/
def Loc.offset (l : Loc) (parts : List (Nat × Nat)) (i r x : Nat) : Nat :=
  if l.space = 3 then (parts.take i).foldl (fun n p => n + p.1 * p.2) 0 + r * (nth (0, 0) parts i).2 + x
  else ((parts.take i).foldl (fun n p => n + p.1) 0 + r) * l.stride + x

/-- Parts of the activation operand: rows, then MX scale rows (R49). -/
def TileDesc.actParts (d : TileDesc) : List (Nat × Nat) :=
  (d.m, rowBytes d.afmt d.red) :: (if isMxFmt d.afmt then [(d.m, cdiv d.k 32)] else [])

/-- Parts of the weight operand. -/
def TileDesc.wgtParts (d : TileDesc) : List (Nat × Nat) :=
  (d.k, rowBytes d.wfmt d.n) :: (if isMxFmt d.wfmt then [(cdiv d.k 32, d.n)] else [])

/-- Parts of the output for an element format, with MX scale rows and statistics rows (R49, R73, R75). -/
def TileDesc.outParts (d : TileDesc) (fmt : Nat) (stats : Bool) : List (Nat × Nat) :=
  (d.m, rowBytes fmt d.cols) :: (if isMxFmt fmt then [(d.m, cdiv d.cols 32)] else []) ++
    (if stats then [(d.m, 8 * d.chunks)] else [])

/-- Whether [a, a + n) and [b, b + m) meet. -/
def meets (a n b m : Nat) : Bool := decide (a < b + m) && decide (b < a + n)

/-- A location word pair of a descriptor (R48). -/
def locOf (lo hi : W32) : Loc := ⟨getF 31 30 hi, getF 29 16 hi * 16, lo.toNat + 2 ^ 32 * getF 15 0 hi⟩

/-- The descriptor that eight words spell (R46, R47). -/
def tileDescOf (w : Nat → W32) : TileDesc :=
  { m := getF 11 0 (w 0) + 1, k := getF 27 16 (w 0) + 1, n := getF 9 0 (w 1) + 1
    wfmt := getF 15 12 (w 1), afmt := getF 19 16 (w 1), ofmt := getF 23 20 (w 1)
    guard := if (w 1).getLsbD 27 then getF 26 24 (w 1) else 3
    axis := (w 1).getLsbD 28, acc := (w 1).getLsbD 29, esp := (w 1).getLsbD 30
    out := locOf (w 2) (w 3), act := locOf (w 4) (w 5), wgt := locOf (w 6) (w 7) }

/-! ## The tile in the queue (R55, R64) -/

/-- Whether the drain bank b belongs to strip st of tile t. -/
def Bank.is (b : Bank) (tile strip : Nat) : Bool := b.tile == tile && b.strip == strip

/-- The tile with a number. -/
def Array.tile? (a : Array) (n : Nat) : Option Tile := a.tiles.find? (fun t => t.num == n)

/-- Tiles that have passes to end, the running one first (R55). -/
def Array.live (a : Array) : List Tile := a.tiles.filter (fun t => decide (t.ended < t.desc.passes))

/-- Whether a strip holds a drain bank (R57). -/
def Array.hasBank (a : Array) (n st : Nat) : Bool :=
  a.banks.any (fun b => match b with | some x => x.is n st | none => false)

/-- Whether the oldest ended pass waits for the prior values of its strip (R57). -/
def Array.drainWaits (a : Array) : Bool :=
  match a.drain with
  | [] => false
  | (n, p, _) :: _ =>
    match a.tile? n with
    | none => false
    | some t => t.desc.acc && a.banks.any (fun b => match b with | some x => x.is n (t.desc.stripOf p) && !x.priorRead | none => false)

/-- Whether the staged pass is the first of its strip and finds no drain bank free (R57). -/
def Array.bankWaits (a : Array) : Bool :=
  match a.stage with
  | none => false
  | some (n, p, _) =>
    match a.tile? n with
    | none => false
    | some t => !a.hasBank n (t.desc.stripOf p) && a.banks.all Option.isSome

/-- Whether the array is frozen because the drain accepts no partial, or a pass waits for a bank (R57, R60). -/
def Array.drainFrozen (a : Array) : Bool := a.drainWaits || (a.pass.isNone && a.bankWaits)

/-- STATE of the array (R64): 0 off, 1 filler, 2 planes, 3 freeze, 4 stage wait, 5 interlock, 6 ramp-up. The checking and staging cycles
of a tile issued to an idle array read 0 or 1, and those in which a staged pass waits for the front of a short one read 2 (DESIGN
CHOICE, log entry 114). -/
def Array.state (a : Array) : Nat :=
  let idle := if a.eighths = 0 then 0 else 1
  if a.starved || a.drainFrozen then 3
  else if a.pass.isSome then (if a.eighths < 8 then 6 else 2)
  else
    match a.live with
    | [] => idle
    | t :: _ =>
      if !t.interlock then 5
      else if a.stage.isSome then (if a.eighths < 8 then 6 else 2)
      else if t.alone && decide (t.staged = 0) then idle
      else 4

/-- ARR_STATUS as the array stands (R64). -/
def Array.status (a : Array) : W32 :=
  BitVec.ofNat 32 ((if a.tiles = [] then 0 else 1) + (a.live.length - 1) * 2 + a.eighths * 8 +
    (if a.trimHold then 128 else 0) + a.state * 256)

/-- Trim's hold on filler is set or ends (R62, R340); at its end the gap counts from where the next eighth falls (DESIGN CHOICE, log entry 141). -/
def Array.hold (a : Array) (v : Bool) : Array :=
  if v = a.trimHold then a
  else if v then { a with trimHold := true, ramp := if a.arrived then a.ramp else 0 }
  else { a with trimHold := false, gap := a.gap.map (fun g => min g (a.fillMax + 16 * (8 - a.eighths))) }

/-- n cycles of the array (R54, R61, R62, R65): planes run, which ends the gap; or rows finish a short pass before the next front, which is no
gap; or gap cycles, of which the first takes FILLER_MAX as it stands; the cycles counted as planes and as filler. -/
def Array.cycles (a : Array) (n fillNow : Nat) : Array × Nat × Nat :=
  let a := if a.arrived || (a.trimHold && decide (a.eighths < 8)) then { a with ramp := a.ramp + n } else a
  if a.state = 2 ∧ a.pass.isNone = true ∧ a.gap.isNone = true then (a, 0, 0)
  else if a.state = 2 ∧ a.pass.isSome = true then
    match a.pass.bind (fun x => (a.tile? x.1).map (fun t => t.desc.planesOf x.2.1)) with
    | some l => ({ a with run := min l (a.run + n), gap := none, arrived := false, ramp := 0 }, min l (a.run + n) - a.run, 0)
    | none => (a, 0, 0)
  else
    let a := match a.gap with | none => { a with gap := some 0, fillMax := fillNow } | some _ => a
    let g := a.gap.getD 0
    let fill := if a.eighths = 0 then 0
      else if a.trimHold || a.arrived then n else min n (a.fillMax + 112 - g)
    ({ a with gap := some (g + n), arrived := a.arrived && decide (a.state ≠ 3) && decide (a.state ≠ 5) && !a.live.isEmpty }, 0, fill)

end Sys2Proof.Machine
end

