-- ==== Sys2Proof/Machine/EspMath.lean ====
section
/-! DEFINITION. Espalier images and what they compute (R68 to R77): the layout of an image, its checks, its stages, its
lookup tables, row statistics and output formats. Nothing here touches the state. -/

namespace Sys2Proof.Machine

/-! ## Layout (R76) -/

/-- n little-endian bytes of an image from an offset. -/
def imgNum (bs : List Byte) (o n : Nat) : Nat := ofBytes ((bs.drop o).take n)
/-- A word of an image. -/
def imgWord (bs : List Byte) (o : Nat) : W32 := BitVec.ofNat 32 (imgNum bs o 4)
/-- STAGES. -/
def imgStages (bs : List Byte) : Nat := fld 4 0 (imgNum bs 8 4)
/-- IN_TYPE. -/
def imgIn (bs : List Byte) : Nat := fld 11 8 (imgNum bs 8 4)
/-- OUT_FMT. -/
def imgOut (bs : List Byte) : Nat := fld 15 12 (imgNum bs 8 4)
/-- NLUT. -/
def imgLuts (bs : List Byte) : Nat := fld 17 16 (imgNum bs 8 4)
/-- NTAB. -/
def imgTabs (bs : List Byte) : Nat := fld 20 18 (imgNum bs 8 4)
/-- STATS. -/
def imgStats (bs : List Byte) : Bool := decide (fld 21 21 (imgNum bs 8 4) = 1)
/-- TABLENi. -/
def imgTabLen (bs : List Byte) (i : Nat) : Nat := imgNum bs (12 + 4 * i) 4
/-- Bytes that a column table takes: its entries, padded to a multiple of 64. -/
def tabBytes (n : Nat) : Nat := cdiv (4 * n) 64 * 64
/-- Offset of column table i. -/
def imgTabOff (bs : List Byte) (i : Nat) : Nat :=
  0xC0 + 1280 * imgLuts bs + ((upTo 0 i).map (fun j => tabBytes (imgTabLen bs j))).foldl (· + ·) 0

/-- A stage word (R69). -/
structure Stage where
  op : Nat
  dst : Nat
  a : Nat
  b : Nat
  c : Nat
  k : Nat
  imm : Nat
deriving DecidableEq, Repr

/-- Stage i of an image (R69). -/
def imgStage (bs : List Byte) (i : Nat) : Stage :=
  let w := imgNum bs (0x80 + 4 * i) 4
  ⟨fld 5 0 w, fld 8 6 w, fld 12 9 w, fld 16 13 w, fld 20 17 w, fld 24 21 w, fld 29 25 w⟩

/-- The used stages. -/
def imgProgram (bs : List Byte) : List Stage := (upTo 0 (imgStages bs)).map (imgStage bs)

/-- How many of its sources a stage's operation uses (R70); none for an undefined OP. -/
def opSources (op : Nat) : Option Nat :=
  match op with
  | 0x00 => some 1 | 0x01 => some 2 | 0x02 => some 2 | 0x03 => some 3 | 0x04 => some 2 | 0x05 => some 2 | 0x06 => some 2
  | 0x07 => some 1 | 0x08 => some 1 | 0x10 => some 2 | 0x11 => some 2 | 0x12 => some 1 | 0x13 => some 3 | 0x18 => some 1
  | 0x19 => some 1 | 0x20 => some 1 | 0x21 => some 1 | _ => none

/-- The sources a stage uses. -/
def Stage.sources (g : Stage) : List Nat := [g.a, g.b, g.c].take ((opSources g.op).getD 0)

/-- The column tables an image's stages use. -/
def imgUses (bs : List Byte) (i : Nat) : Bool := (imgProgram bs).any (fun g => g.sources.contains (8 + i))

/-! ## Checks (R77) -/

/-- CODE 1 for the header: MAGIC, VERSION, reserved bits (R76). -/
def imgHeadBad (bs : List Byte) : Bool :=
  decide (imgNum bs 0 2 ≠ 0x4553) || decide (imgNum bs 2 1 ≠ 1) || decide (imgNum bs 3 1 ≠ 0) ||
  decide (fld 7 5 (imgNum bs 8 4) ≠ 0) || decide (fld 31 22 (imgNum bs 8 4) ≠ 0) ||
  (upTo 0x1C 32).any (fun o => decide (imgNum bs o 1 ≠ 0))

/-- CODE 7: IN_TYPE or OUT_FMT not defined. -/
def imgTypeBad (bs : List Byte) : Bool :=
  !([12, 13].contains (imgIn bs)) || !([12, 13, 14, 2, 1, 4, 5, 8, 9, 11].contains (imgOut bs))

/-- CODE 4: STAGES, NLUT, NTAB or a TABLEN outside its range. -/
def imgCountBad (bs : List Byte) : Bool :=
  decide (imgStages bs = 0) || decide (16 < imgStages bs) || decide (2 < imgLuts bs) || decide (4 < imgTabs bs) ||
  (upTo 0 4).any (fun i =>
    if i < imgTabs bs then decide (imgTabLen bs i = 0) || decide (1024 < imgTabLen bs i) else decide (imgTabLen bs i ≠ 0))

/-- CODE 3: the CRC, taken with its word as 0. -/
def imgCrcBad (bs : List Byte) : Bool := crc32 (bs.take 0x3C ++ [0, 0, 0, 0] ++ bs.drop 0x40) != imgWord bs 0x3C

/-- CODE 1 for the used stage words. -/
def imgStageBad (bs : List Byte) : Bool :=
  (upTo 0 (imgStages bs)).any (fun i => decide (fld 31 30 (imgNum bs (0x80 + 4 * i) 4) ≠ 0))

/-- CODE 5: an undefined OP, a source naming a missing column table, FLUT naming a missing table. -/
def imgOpBad (bs : List Byte) : Bool :=
  (imgProgram bs).any (fun g => (opSources g.op).isNone ||
    g.sources.any (fun x => decide (8 ≤ x) && decide (x < 12) && decide (imgTabs bs ≤ x - 8)) ||
    (decide (g.op = 8) && decide (imgLuts bs ≤ g.imm % 2)))

/-- CODE 6: a statistic stage with STATS = 0, or two on one slot. -/
def imgStatBad (bs : List Byte) : Bool :=
  let st := (imgProgram bs).filter (fun g => g.op = 0x20 || g.op = 0x21)
  (!imgStats bs && decide (st ≠ [])) || decide (1 < (st.filter (fun g => g.imm % 2 = 0)).length) ||
    decide (1 < (st.filter (fun g => g.imm % 2 = 1)).length)

/-- The checks of R77 that only the header's bytes decide, in order: 1, 7, 2, 4, 2. -/
def imgHeadCheck (bs : List Byte) : Option Nat :=
  let len := imgNum bs 4 4
  if imgHeadBad bs then some 1
  else if imgTypeBad bs then some 7
  else if 20480 < len ∨ len % 64 ≠ 0 then some 2
  else if imgCountBad bs then some 4
  else if len ≠ imgTabOff bs (imgTabs bs) then some 2
  else none

/-- The checks on the whole image, in order: 3, 1, 5, 6. -/
def imgBodyCheck (bs : List Byte) : Option Nat :=
  if imgCrcBad bs then some 3
  else if imgStageBad bs then some 1
  else if imgOpBad bs then some 5
  else if imgStatBad bs then some 6
  else none

/-! ## Stages (R69 to R73, R450) -/

/-- A value in the espalier: its bits, whether its type is INT32 (R450), its poison (R82). -/
structure EVal where
  w : W32
  int : Bool
  pois : Bool
deriving DecidableEq, Repr

/-- The difference of two decoded values before any rounding. -/
def subFV (a b : FV) : FV :=
  match a, b with
  | .nan, _ => .nan
  | _, .nan => .nan
  | .inf n, .inf k => if n = k then .nan else .inf n
  | .inf n, _ => .inf n
  | _, .inf k => .inf (!k)
  | .fin n1 m1 e1, .fin n2 m2 e2 =>
    let (x, e) := addExact n1 m1 e1 (!n2) m2 e2
    .fin (decide (x < 0)) x.natAbs e

/-- FLUT in lookup table t of an image (R72). -/
def flut (bs : List Byte) (t : Nat) (a : W32) : W32 :=
  let o := 0xC0 + 1280 * t
  let pt (i : Nat) : W32 := imgWord bs (o + 64 + 4 * i)
  if isNanFV (dec32 a) then nan32
  else
    let u := encFV (mulFV (subFV (dec32 a) (dec32 (imgWord bs o))) (dec32 (imgWord bs (o + 4))))
    match dec32 u with
    | .nan => nan32
    | .inf true => fadd (pt 0) (fmul 0 (fsub (pt 1) (pt 0)))
    | .inf false => fadd (pt 255) (fmul 0x3F800000#32 (fsub (pt 256) (pt 255)))
    | .fin n m e =>
      let u := if n then (0 : W32) else if fltTotal 0x43800000#32 u then 0x43800000#32 else enc32 false m e
      let fl := match dec32 u with
        | .fin _ m e => if 0 ≤ e then m * 2 ^ e.toNat else m / 2 ^ (-e).toNat
        | _ => 0
      let i := min fl 255
      let f := fsub u (cvtuf .rne (BitVec.ofNat 32 i))
      fadd (pt i) (fmul f (fsub (pt (i + 1)) (pt i)))

/-- a ÷ 2^n rounded to nearest, ties to even (R70 ISHR). -/
def ishr (a : W32) (n : Nat) : W32 :=
  let q := shiftRound .rne false a.toInt.natAbs 0 n
  BitVec.ofInt 32 (if a.toInt < 0 then -(q : Int) else q)

/-- min(max(a, b), c), signed (R70 ICLAMP). -/
def iclamp (a b c : W32) : W32 :=
  let m := if a.slt b then b else a
  if c.slt m then c else m

/-- The bits of a stage's result (R70). -/
def stageWord (bs : List Byte) (g : Stage) (a b c : W32) : W32 :=
  match g.op with
  | 0x01 => fadd a b
  | 0x02 => fmul a b
  | 0x03 => ffma a b c
  | 0x04 => fmax a b
  | 0x05 => fmin a b
  | 0x06 => fscale a b
  | 0x07 => fexpOp a
  | 0x08 => flut bs (g.imm % 2) a
  | 0x10 => a + b
  | 0x11 => a * b
  | 0x12 => ishr a g.imm
  | 0x13 => iclamp a b c
  | 0x18 => cvtfi .rne a
  | 0x19 => cvtif .rne a
  | _ => a

/-- The type of a stage's result (R450). -/
def stageInt (op : Nat) (a : Bool) : Bool :=
  if [0x10, 0x11, 0x12, 0x13, 0x18, 0x07].contains op then true
  else if [0x00, 0x20, 0x21].contains op then a else false

/-- A source of a stage (R69, R450). -/
def stageSrc (bs : List Byte) (e : List EVal) (row col k x : Nat) : EVal :=
  if x < 8 then nth ⟨0, false, false⟩ e x
  else if x < 12 then ⟨imgWord bs (imgTabOff bs (x - 8) + 4 * col), false, false⟩
  else if x = 12 then ⟨imgWord bs (0x40 + 4 * k), false, false⟩
  else if x = 13 then ⟨BitVec.ofNat 32 col, true, false⟩
  else if x = 14 then ⟨BitVec.ofNat 32 row, true, false⟩
  else ⟨0, false, false⟩

/-- One stage on one value: working registers and the row's two statistics (R70, R73, R82). -/
def stageStep (bs : List Byte) (row col : Nat) (st : List EVal × List (W32 × Bool)) (g : Stage) :
    List EVal × List (W32 × Bool) :=
  let a := stageSrc bs st.1 row col g.k g.a
  let b := stageSrc bs st.1 row col g.k g.b
  let c := stageSrc bs st.1 row col g.k g.c
  let n := (opSources g.op).getD 0
  let p := a.pois || (decide (2 ≤ n) && b.pois) || (decide (3 ≤ n) && c.pois)
  let stats :=
    if g.op = 0x20 ∨ g.op = 0x21 then
      let i := g.imm % 2
      let x := nth (0, false) st.2 i
      setNth st.2 i (if g.op = 0x20 then fadd x.1 a.w else fmax x.1 a.w, x.2 || a.pois)
    else st.2
  (setNth st.1 g.dst ⟨stageWord bs g a.w b.w c.w, stageInt g.op a.int, p⟩, stats)

/-- The starting statistics of a row: +0.0 for RSUM and an unused slot, −Inf for RMAX (R73). -/
def statStart (bs : List Byte) : List (W32 × Bool) :=
  (upTo 0 2).map (fun i =>
    (if (imgProgram bs).any (fun g => g.op = 0x21 && g.imm % 2 = i) then inf32 true else 0, false))

/-- A row of delivered values through the program: e0 of each, and the row's statistics. -/
def espRow (bs : List Byte) (row col0 : Nat) (vals : List EVal) : List EVal × List (W32 × Bool) :=
  let r := vals.foldl (fun (acc : List EVal × List (W32 × Bool) × Nat) v =>
    let e := v :: List.replicate 7 ⟨0, false, false⟩
    let o := (imgProgram bs).foldl (stageStep bs row acc.2.2) (e, acc.2.1)
    (nth ⟨0, false, false⟩ o.1 0 :: acc.1, o.2, acc.2.2 + 1)) ([], statStart bs, col0)
  (r.1.reverse, r.2.1)

/-! ## Output (R74, R75) -/

/-- e0 as FP32 (R74). -/
def EVal.fp (v : EVal) : W32 := if v.int then cvtif .rne v.w else v.w

/-- e0 as an integer of a range, and whether it saturated or was NaN (R74). -/
def EVal.toRange (v : EVal) (lo hi : Int) : Int × Bool :=
  if v.int then satInt lo hi v.w.toInt
  else if isNanFV (dec32 v.w) then (0, true) else fpToIntSat .rne lo hi (dec32 v.w)

/-- The stored code of e0 in a format other than MX, and whether it counts in ESP_CNT_SAT (R74). -/
def espCode (fmt : Nat) (v : EVal) : Nat × Bool :=
  let ofInt (n : Nat) (x : Int × Bool) : Nat × Bool := ((BitVec.ofInt n x.1).toNat, x.2)
  match fmt with
  | 12 => if v.int then (v.w.toNat, false) else ofInt 32 (v.toRange (-2147483648) 2147483647)
  | 13 => (v.fp.toNat, false)
  | 14 => (toBf16 (dec32 v.fp), false)
  | 2 => ofInt 8 (v.toRange (-128) 127)
  | 1 => ofInt 4 (v.toRange (-8) 7)
  | _ => toFp8 (fmt = 5) (dec32 v.fp)

/-- emax of R75. -/
def mxEmax (fmt : Nat) : Int := match fmt with | 9 => 8 | 11 => 2 | _ => 0

/-- The scale code of an MX group of exact values (R75, R165). -/
def mxScaleFV (fmt : Nat) (vs : List FV) : Nat :=
  if vs.any (fun v => match v with | .fin _ _ _ => false | _ => true) then 255
  else
    let lg := vs.foldl (fun (acc : Option Int) v =>
      match v with
      | .fin _ m e => if m = 0 then acc else (match acc with
        | some y => some (max y (floorLog2 m e))
        | none => some (floorLog2 m e))
      | _ => acc) none
    match lg with
    | none => 127
    | some l => (max (-127) (min 127 (l - mxEmax fmt)) + 127).toNat

/-- The scale code of an MX group of FP32 values (R75). -/
def mxScale (fmt : Nat) (vs : List W32) : Nat := mxScaleFV fmt (vs.map dec32)

/-- One MX element: value × 2^−σ in the element format, nearest even, saturated; and whether it saturated (R75). -/
def mxElemFV (fmt scale : Nat) (v : FV) : Nat × Bool :=
  if scale = 255 then (0, false)
  else
    match v with
    | .fin n m e =>
      let e := e - ((scale : Int) - 127)
      match fmt with
      | 9 =>
        let c := magCode e4m3 .rne n m e
        (withSign e4m3 n (min c 0x7E), decide (0x7E < c))
      | 11 =>
        let c := magCode e2m1 .rne n m e
        (withSign e2m1 n (min c 7), decide (7 < c))
      | _ =>
        let q := sgn n (shiftRound .rne false m e (-6))
        let (x, b) := satInt (-127) 127 q
        ((BitVec.ofInt 8 x).toNat, b)
    | _ => (0, false)

/-- One MX element of an FP32 value (R75). -/
def mxElem (fmt scale : Nat) (v : W32) : Nat × Bool := mxElemFV fmt scale (dec32 v)

/-- Whether every value of a group is zero, of either sign: every element is then 0 (R75). -/
def mxAllZero (vs : List FV) : Bool := vs.all (fun v => match v with | .fin _ m _ => decide (m = 0) | _ => false)

/-- A code stream packed into bytes, poison per code (R49): the low code first; a last half byte is completed by `pad`. -/
def packCodes (eb pad : Nat) (cs : List (Nat × Bool)) : List PByte :=
  if 8 ≤ eb then cs.flatMap (fun c => (toBytes (eb / 8) c.1).map (fun b => (b, c.2)))
  else pack4 cs pad
where
  /-- Two 4-bit codes to a byte. -/
  pack4 : List (Nat × Bool) → Nat → List PByte
    | [], _ => []
    | [a], pad => [(BitVec.ofNat 8 (a.1 % 16 + pad % 16 * 16), a.2)]
    | a :: b :: r, pad => (BitVec.ofNat 8 (a.1 % 16 + b.1 % 16 * 16), a.2 || b.2) :: pack4 r pad

/-- A row's MX groups: codes, scales, saturations; a poisoned value poisons its whole group (R82). -/
def mxRow (fmt : Nat) (vs : List EVal) : List (Nat × Bool) × List (Nat × Bool) × Nat :=
  (pieces32 (vs.length + 1) vs).foldl (fun acc g =>
    let p := g.any (·.pois)
    let sc := mxScale fmt (g.map (·.fp))
    let zero := mxAllZero (g.map (fun v => dec32 v.fp))
    let es := g.map (fun v => if zero then (0, false) else mxElem fmt sc v.fp)
    (acc.1 ++ es.map (fun x => (x.1, p)), acc.2.1 ++ [(sc, p)], acc.2.2 + es.countP (·.2))) ([], [], 0)

end Sys2Proof.Machine
end

