-- ==== Sys2Proof/Machine/Regs.lean ====
section
/-! DEFINITION. The register tables of the spec: blocks and their places (R183), fields with access and reset (R6, R9,
R10), and which offsets are counters (R414, R417). -/

namespace Sys2Proof.Machine

/-- Access codes (R6). -/
inductive Acc where
  | rw
  | ro
  | wo
  | w1c
  | w1s
deriving DecidableEq, Repr

/-- One field of a register table: bits [hi:lo], access, reset value (0 for "fw" until firmware loads it, and for
"kept", R10). -/
structure RField where
  hi : Nat
  lo : Nat
  acc : Acc
  reset : Nat
deriving DecidableEq, Repr

/-- A register block and its unit (R183): core blocks by site, SC_ by half of the part, MIF_ by device, FP_ by fabric
port, HP_ by stack and k, the others by stack. -/
inductive Blk where
  | arr (site : Nat)
  | esp (site : Nat)
  | cntCore (site : Nat)
  | router (site : Nat)
  | sc (half : Nat)
  | mif (dev : Nat)
  | msh (stack : Nat)
  | fp (port : Nat)
  | hp (stack k : Nat)
  | pwr (stack : Nat)
  | clk (stack : Nat)
  | thm (stack : Nat)
  | cnt (stack : Nat)
  | ctx (stack : Nat)
  | dbg (stack : Nat)
  | trim
deriving DecidableEq, Repr

/-- The offset of a block from 0xF200_0000_0000 (R183). -/
def Blk.base : Blk → Nat
  | .arr i => i * 0x1000
  | .esp i => i * 0x1000 + 0x400
  | .cntCore i => i * 0x1000 + 0x800
  | .router i => i * 0x1000 + 0xC00
  | .sc h => 0x1000000 + h / 2 * 0x100000 + h % 2 * 0x4000
  | .mif d => 0x1000000 + d / 2 * 0x100000 + 0x10000 + d % 2 * 0x4000
  | .msh s => 0x1000000 + s * 0x100000 + 0x20000
  | .fp j => 0x1000000 + j / 2 * 0x100000 + 0x30000 + j % 2 * 0x4000
  | .hp s k => 0x1000000 + s * 0x100000 + 0x40000 + k * 0x4000
  | .pwr s => 0x1000000 + s * 0x100000 + 0x50000
  | .clk s => 0x1000000 + s * 0x100000 + 0x60000
  | .thm s => 0x1000000 + s * 0x100000 + 0x70000
  | .cnt s => 0x1000000 + s * 0x100000 + 0x80000
  | .ctx s => 0x1000000 + s * 0x100000 + 0x90000
  | .dbg s => 0x1000000 + s * 0x100000 + 0xA0000
  | .trim => 0x1000000 + 0xB0000

/-- The block that a stack-block offset lies in, and the offset within it (R183). -/
def locateStack (s o : Nat) : Option (Blk × Nat) :=
  if o < 0x8000 then some (.sc (2 * s + o / 0x4000), o % 0x4000)
  else if o < 0x10000 then none
  else if o < 0x18000 then some (.mif (2 * s + (o - 0x10000) / 0x4000), o % 0x4000)
  else if o < 0x20000 then none
  else if o < 0x30000 then some (.msh s, o - 0x20000)
  else if o < 0x38000 then some (.fp (2 * s + (o - 0x30000) / 0x4000), o % 0x4000)
  else if o < 0x40000 then none
  else if o < 0x48000 then some (.hp s ((o - 0x40000) / 0x4000), o % 0x4000)
  else if o < 0x50000 then none
  else if o < 0x60000 then some (.pwr s, o - 0x50000)
  else if o < 0x70000 then some (.clk s, o - 0x60000)
  else if o < 0x80000 then some (.thm s, o - 0x70000)
  else if o < 0x90000 then some (.cnt s, o - 0x80000)
  else if o < 0xA0000 then some (.ctx s, o - 0x90000)
  else if o < 0xB0000 then some (.dbg s, o - 0xA0000)
  else if o < 0xC0000 then (if s = 0 then some (.trim, o - 0xB0000) else none)
  else none

/-- The block of an offset from 0xF200_0000_0000 (R183). -/
def locate (a : Nat) : Option (Blk × Nat) :=
  if a < 0x1000000 then
    let i := a / 0x1000
    let o := a % 0x1000
    if o < 0x400 then some (.arr i, o)
    else if o < 0x800 then some (.esp i, o - 0x400)
    else if o < 0xC00 then some (.cntCore i, o - 0x800)
    else some (.router i, o - 0xC00)
  else if a < 0x1800000 then locateStack ((a - 0x1000000) / 0x100000) ((a - 0x1000000) % 0x100000)
  else none

/-- A counter word or another whole-word read-only field. -/
def roWord : List RField := [⟨31, 0, .ro, 0⟩]

/-- A whole-word flag array (R417). -/
def flagWord : List RField := [⟨31, 0, .w1c, 0⟩]

/-- Whether lo ≤ o < hi and o lies on the step from lo. -/
def inStep (o lo hi st : Nat) : Bool := decide (lo ≤ o) && decide (o < hi) && decide ((o - lo) % st = 0)

/-- ARR_ registers (R64 to R67). -/
def arrFields (o : Nat) : List RField :=
  if o = 0x000 then [⟨0, 0, .ro, 0⟩, ⟨2, 1, .ro, 0⟩, ⟨6, 3, .ro, 0⟩, ⟨7, 7, .ro, 0⟩, ⟨10, 8, .ro, 0⟩]
  else if o = 0x004 then [⟨7, 0, .rw, 0x30⟩]
  else if o = 0x008 then [⟨0, 0, .w1c, 0⟩, ⟨3, 1, .ro, 0⟩, ⟨9, 4, .ro, 0⟩, ⟨31, 16, .ro, 0⟩]
  else if inStep o 0x040 0x068 4 then roWord else []

/-- ESP_ registers (R85 to R88). -/
def espFields (o : Nat) : List RField :=
  if o = 0x000 then [⟨0, 0, .ro, 0⟩, ⟨1, 1, .ro, 0⟩, ⟨3, 2, .ro, 0⟩, ⟨4, 4, .ro, 0⟩, ⟨12, 8, .ro, 0⟩, ⟨19, 16, .ro, 0⟩]
  else if o = 0x008 then [⟨31, 0, .rw, 0⟩]
  else if o = 0x00C then [⟨15, 0, .rw, 0⟩]
  else if o = 0x010 then [⟨0, 0, .w1s, 0⟩, ⟨2, 1, .rw, 0⟩]
  else if o = 0x014 then [⟨0, 0, .w1c, 0⟩, ⟨7, 4, .ro, 0⟩]
  else if inStep o 0x040 0x04C 4 then roWord else []

/-- Core CNT_ registers (R419) and the core's flag arrays (R417). -/
def cntCoreFields (o : Nat) : List RField :=
  if inStep o 0x000 0x050 4 then roWord
  else if inStep o 0x080 0x0A0 4 then roWord
  else if o = 0x100 then [⟨0, 0, .w1s, 0⟩, ⟨1, 1, .rw, 0⟩]
  else if inStep o 0x200 0x240 4 then [⟨6, 0, .ro, 0⟩, ⟨14, 8, .ro, 0⟩, ⟨15, 15, .ro, 0⟩]
  else if inStep o 0x300 0x400 4 then flagWord else []

/-- MSH_ router registers (R259, R260). -/
def routerFields (o : Nat) : List RField :=
  if inStep o 0x040 0x060 4 then [⟨0, 0, .ro, 0⟩, ⟨12, 1, .ro, 0⟩, ⟨24, 13, .ro, 0⟩, ⟨27, 25, .ro, 0⟩]
  else if inStep o 0x100 0x124 4 then roWord else []

/-- SC_ registers (R168 to R177, R226, R227). -/
def scFields (o : Nat) : List RField :=
  if o = 0x000 then [⟨8, 0, .ro, 0⟩, ⟨16, 9, .ro, 0⟩, ⟨17, 17, .ro, 0⟩, ⟨19, 18, .ro, 0⟩, ⟨20, 20, .ro, 0⟩]
  else if o = 0x004 then [⟨3, 0, .rw, 8⟩, ⟨4, 4, .ro, 0⟩]
  else if o = 0x008 then [⟨7, 0, .rw, 0x80⟩, ⟨15, 8, .rw, 0x60⟩, ⟨19, 16, .rw, 4⟩, ⟨20, 20, .rw, 1⟩, ⟨21, 21, .rw, 0⟩]
  else if o = 0x00C then
    [⟨0, 0, .w1c, 0⟩, ⟨8, 1, .ro, 0⟩, ⟨16, 9, .ro, 0⟩, ⟨20, 17, .ro, 0⟩, ⟨26, 21, .ro, 0⟩, ⟨27, 27, .w1c, 0⟩]
  else if o = 0x010 then [⟨15, 0, .rw, 0⟩]
  else if o = 0x014 then [⟨16, 0, .ro, 0⟩]
  else if inStep o 0x040 0x080 4 then [⟨15, 0, .ro, 0⟩]
  else if inStep o 0x100 0x178 4 then roWord
  else if inStep o 0x180 0x19C 4 then roWord
  else if inStep o 0x400 0x800 16 then [⟨31, 0, .ro, 0⟩]
  else if inStep o 0x404 0x800 16 then [⟨23, 0, .ro, 0⟩]
  else if inStep o 0x408 0x800 16 then [⟨0, 0, .ro, 0⟩, ⟨2, 1, .ro, 0⟩, ⟨6, 3, .ro, 0⟩, ⟨8, 7, .ro, 0⟩]
  else if inStep o 0x40C 0x800 16 then [⟨23, 0, .ro, 0⟩]
  else if inStep o 0x800 0xC00 4 then [⟨2, 0, .ro, 0⟩, ⟨7, 4, .ro, 0⟩]
  else if inStep o 0x1000 0x2000 4 then [⟨7, 0, .ro, 0⟩, ⟨15, 8, .ro, 0⟩, ⟨23, 16, .ro, 0⟩, ⟨31, 24, .ro, 0⟩]
  else if inStep o 0x2000 0x2008 4 then [⟨0, 0, .ro, 0⟩, ⟨1, 1, .ro, 0⟩, ⟨2, 2, .w1c, 0⟩]
  else if inStep o 0x2100 0x2300 4 then roWord
  else if inStep o 0x2300 0x2340 4 then [⟨26, 0, .ro, 0⟩]
  else if o = 0x2380 then [⟨0, 0, .rw, 1⟩, ⟨15, 4, .rw, 0x03C⟩]
  else if o = 0x2384 then [⟨7, 0, .rw, 0x18⟩, ⟨15, 8, .rw, 0x10⟩]
  else if o = 0x238C then [⟨7, 0, .rw, 4⟩, ⟨8, 8, .w1s, 0⟩]
  else if inStep o 0x2800 0x2C00 4 then [⟨1, 0, .ro, 0⟩, ⟨8, 2, .ro, 0⟩, ⟨9, 9, .ro, 0⟩, ⟨10, 10, .w1c, 0⟩]
  else []

/-- MIF_ registers (R320, R321, R226, R227). -/
def mifFields (o : Nat) : List RField :=
  if o = 0x000 then
    [⟨1, 0, .ro, 0⟩, ⟨3, 2, .ro, 0⟩, ⟨4, 4, .ro, 0⟩, ⟨6, 5, .ro, 0⟩, ⟨7, 7, .ro, 0⟩, ⟨8, 8, .ro, 0⟩, ⟨9, 9, .ro, 0⟩,
     ⟨10, 10, .ro, 0⟩, ⟨15, 11, .ro, 0⟩]
  else if o = 0x004 then [⟨15, 0, .ro, 0⟩, ⟨20, 16, .ro, 0⟩]
  else if o = 0x008 then [⟨15, 0, .ro, 0⟩, ⟨31, 16, .ro, 0⟩]
  else if o = 0x00C then [⟨7, 0, .rw, 0x40⟩]
  else if inStep o 0x100 0x114 4 then roWord
  else if inStep o 0x120 0x130 4 then roWord
  else if inStep o 0x2100 0x2300 4 then roWord
  else if inStep o 0x2300 0x2340 8 then [⟨4, 0, .ro, 0⟩]
  else if inStep o 0x2304 0x2340 8 then [⟨28, 0, .ro, 0⟩]
  else if o = 0x2380 then [⟨0, 0, .rw, 1⟩, ⟨15, 4, .rw, 0x5A0⟩]
  else if o = 0x238C then [⟨7, 0, .rw, 8⟩, ⟨8, 8, .w1s, 0⟩]
  else if inStep o 0x2400 0x2420 4 then roWord else []

/-- MSH_ stack registers (R255 to R258, R260). -/
def mshFields (o : Nat) : List RField :=
  if o = 0x000 then
    [⟨0, 0, .ro, 0⟩, ⟨1, 1, .w1c, 0⟩, ⟨5, 2, .ro, 0xF⟩, ⟨9, 6, .ro, 0xF⟩, ⟨10, 10, .ro, 0⟩, ⟨13, 11, .ro, 0⟩]
  else if o = 0x004 then [⟨2, 0, .rw, 6⟩]
  else if inStep o 0x100 0x140 4 then [⟨20, 0, .rw, 0⟩]
  else if inStep o 0x200 0x280 4 then [⟨15, 0, .rw, 0⟩, ⟨31, 16, .rw, 0⟩]
  else if inStep o 0x300 0x308 4 then [⟨15, 0, .rw, 0x0800⟩]
  else if inStep o 0x310 0x318 4 then [⟨15, 0, .rw, 0x0C80⟩]
  else if inStep o 0x320 0x330 4 then [⟨15, 0, .rw, 0x0010⟩]
  else if o = 0x330 then [⟨15, 0, .rw, 0x0004⟩]
  else if o = 0x400 then roWord
  else if inStep o 0x410 0x438 4 then [⟨11, 0, .ro, 0⟩, ⟨27, 16, .ro, 0⟩]
  else if o = 0x438 then [⟨4, 0, .ro, 0⟩]
  else if inStep o 0x800 0x808 4 then roWord
  else if inStep o 0x810 0x818 4 then roWord
  else if inStep o 0x820 0x838 4 then roWord else []

/-- FP_ registers of one port (R304, R305); the part-wide tables at 0x014, 0x040 and 0x100 are in `Fab`. -/
def fpFields (o : Nat) : List RField :=
  if o = 0x000 then [⟨1, 0, .ro, 0⟩, ⟨3, 2, .ro, 0⟩, ⟨4, 4, .ro, 0⟩, ⟨7, 5, .ro, 0⟩, ⟨15, 8, .ro, 0⟩]
  else if o = 0x004 then [⟨14, 0, .ro, 0⟩, ⟨19, 16, .ro, 0⟩, ⟨31, 31, .ro, 0⟩]
  else if o = 0x008 then
    [⟨0, 0, .rw, 0⟩, ⟨1, 1, .w1s, 0⟩, ⟨2, 2, .w1s, 0⟩, ⟨3, 3, .rw, 0⟩, ⟨6, 4, .rw, 3⟩, ⟨12, 7, .rw, 0⟩, ⟨20, 13, .rw, 8⟩]
  else if o = 0x00C then [⟨14, 0, .rw, 0⟩, ⟨19, 16, .rw, 0⟩, ⟨31, 31, .rw, 0⟩]
  else if o = 0x010 then [⟨14, 0, .rw, 0⟩]
  else if o = 0x014 then [⟨9, 0, .rw, 0⟩]
  else if o = 0x020 ∨ o = 0x024 ∨ o = 0x028 then [⟨31, 0, .rw, 0⟩]
  else if o = 0x02C then [⟨15, 0, .rw, 0⟩]
  else if o = 0x030 then [⟨15, 0, .rw, 0xB80E⟩]
  else if inStep o 0x040 0x080 4 then [⟨30, 0, .rw, 0⟩]
  else if inStep o 0x100 0x500 4 then (if o % 16 = 12 then [⟨3, 0, .rw, 0⟩] else [⟨31, 0, .rw, 0⟩])
  else if inStep o 0x500 0x530 4 then roWord else []

/-- HP_ registers (R289). -/
def hpFields (o : Nat) : List RField :=
  if o = 0x000 then [⟨0, 0, .ro, 0⟩, ⟨3, 1, .ro, 0⟩, ⟨8, 4, .ro, 0⟩, ⟨9, 9, .ro, 0⟩]
  else if o = 0x008 then [⟨31, 0, .rw, 0⟩]
  else if o = 0x00C then [⟨15, 0, .rw, 0⟩]
  else if o = 0x010 then [⟨10, 0, .rw, 0⟩, ⟨16, 16, .rw, 0⟩]
  else if o = 0x014 then [⟨9, 0, .w1c, 0⟩]
  else if inStep o 0x100 0x120 4 then roWord else []

/-- PWR_ registers (R348, R349, R410). -/
def pwrFields (o : Nat) : List RField :=
  if o = 0x000 then
    [⟨0, 0, .ro, 0⟩, ⟨1, 1, .ro, 0⟩, ⟨2, 2, .ro, 0⟩, ⟨3, 3, .ro, 0⟩, ⟨4, 4, .ro, 0⟩, ⟨10, 5, .ro, 0⟩, ⟨14, 11, .ro, 0⟩]
  else if o = 0x004 then [⟨15, 0, .ro, 0⟩, ⟨31, 16, .ro, 0⟩]
  else if o = 0x040 then
    [⟨3, 0, .ro, 0⟩, ⟨4, 4, .ro, 0⟩, ⟨5, 5, .ro, 0⟩, ⟨6, 6, .ro, 0⟩, ⟨11, 8, .ro, 0⟩, ⟨27, 12, .ro, 0⟩]
  else if o = 0x044 ∨ o = 0x048 then roWord
  else if inStep o 0x100 0x500 4 then
    [⟨1, 0, .ro, 0⟩, ⟨2, 2, .ro, 0⟩, ⟨3, 3, .ro, 0⟩, ⟨4, 4, .ro, 0⟩, ⟨9, 5, .ro, 0x10⟩, ⟨14, 10, .ro, 0x10⟩,
     ⟨19, 15, .ro, 0x10⟩, ⟨23, 20, .ro, 0⟩]
  else if inStep o 0x800 0x818 4 then roWord else []

/-- CLK_ registers (R371). -/
def clkFields (o : Nat) : List RField :=
  if o = 0x000 then [⟨0, 0, .ro, 0⟩, ⟨1, 1, .w1c, 0⟩, ⟨2, 2, .ro, 0⟩]
  else if o = 0x004 then [⟨7, 0, .rw, 0x2D⟩]
  else if o = 0x010 ∨ o = 0x014 ∨ o = 0x020 then roWord
  else if inStep o 0x400 0x800 4 then roWord else []

/-- THM_ registers (R372). -/
def thmFields (o : Nat) : List RField :=
  if o = 0x000 then [⟨0, 0, .ro, 0⟩, ⟨1, 1, .ro, 0⟩, ⟨2, 2, .ro, 0⟩, ⟨3, 3, .w1c, 0⟩, ⟨11, 4, .ro, 0⟩, ⟨14, 12, .ro, 0⟩]
  else if o = 0x004 then [⟨0, 0, .rw, 0⟩, ⟨7, 1, .rw, 0x64⟩, ⟨14, 8, .rw, 0x5F⟩]
  else if o = 0x008 then [⟨0, 0, .w1c, 0⟩, ⟨1, 1, .w1c, 0⟩, ⟨2, 2, .w1c, 0⟩, ⟨3, 3, .w1c, 0⟩]
  else if inStep o 0x100 0x300 4 then
    [⟨15, 0, .ro, 0⟩, ⟨16, 16, .ro, 0⟩, ⟨17, 17, .ro, 0⟩, ⟨19, 18, .ro, 0⟩]
  else if inStep o 0x300 0x400 4 then [⟨15, 0, .ro, 0⟩, ⟨16, 16, .ro, 0⟩, ⟨17, 17, .ro, 0⟩, ⟨19, 18, .ro, 1⟩]
  else if inStep o 0x400 0x440 4 then
    [⟨15, 0, .ro, 0⟩, ⟨16, 16, .ro, 0⟩, ⟨17, 17, .ro, 0⟩, ⟨19, 18, .ro, 0⟩]
  else if inStep o 0x800 0x810 4 then roWord else []

/-- Stack CNT_ registers (R417, R421, R427); the part counters and rings exist in stack 0's block only. -/
def cntFields (s o : Nat) : List RField :=
  if o = 0x000 then [⟨13, 0, .ro, 0⟩]
  else if o = 0x004 then [⟨13, 0, .w1s, 0⟩]
  else if inStep o 0x040 0x080 4 then roWord
  else if inStep o 0x1000 0x1380 4 then flagWord
  else if s ≠ 0 then []
  else if inStep o 0x100 0x124 4 then roWord
  else if decide (0x2000 ≤ o) && decide (o < 0x2440) then
    (let r := (o - 0x2000) % 0x40
     if r = 0x00 ∨ r = 0x0C ∨ r = 0x10 ∨ r = 0x20 ∨ r = 0x28 then [⟨31, 0, .ro, 0⟩]
     else if r = 0x04 ∨ r = 0x14 then [⟨15, 0, .ro, 0⟩]
     else if r = 0x08 then [⟨20, 0, .ro, 0⟩]
     else if r = 0x18 then [⟨24, 0, .ro, 0⟩]
     else if r = 0x1C then [⟨8, 0, .ro, 0⟩]
     else if r = 0x24 then [⟨31, 0, .w1s, 0⟩]
     else [])
  else []

/-- CTX_ registers (R200): stack 0's block only. -/
def ctxFields (s o : Nat) : List RField :=
  if s ≠ 0 then [] else if o = 0x000 then [⟨20, 0, .ro, 0⟩]
  else if inStep o 0x100 0x180 4 then [⟨20, 0, .ro, 0⟩] else []

/-- DBG_ registers (R433): written only through DBG_REG. -/
def dbgFields (o : Nat) : List RField :=
  if o = 0x000 then [⟨1, 0, .ro, 0⟩, ⟨2, 2, .ro, 0⟩, ⟨4, 3, .ro, 0⟩, ⟨31, 16, .ro, 0⟩]
  else if o = 0x008 ∨ o = 0x00C then roWord
  else if decide (0x4000 ≤ o) && decide (o < 0x10000) then
    (let r := (o - 0x4000) % 0x60
     if r = 0x00 then [⟨0, 0, .w1s, 0⟩, ⟨1, 1, .w1s, 0⟩, ⟨2, 2, .w1s, 0⟩, ⟨3, 3, .rw, 0⟩, ⟨9, 4, .rw, 0⟩]
     else if r = 0x04 then [⟨0, 0, .w1c, 0⟩, ⟨1, 1, .ro, 0⟩, ⟨4, 2, .ro, 0⟩, ⟨10, 5, .ro, 0⟩]
     else if r = 0x08 ∨ r = 0x0C then roWord
     else if inStep r 0x10 0x30 4 then [⟨19, 0, .rw, 0⟩, ⟨20, 20, .rw, 0⟩, ⟨21, 21, .rw, 0⟩, ⟨27, 22, .rw, 0⟩]
     else if inStep r 0x30 0x60 12 then [⟨31, 0, .rw, 0⟩]
     else if inStep r 0x34 0x60 12 then [⟨20, 0, .rw, 0⟩]
     else if inStep r 0x38 0x60 12 then [⟨4, 0, .rw, 0⟩]
     else [])
  else []

/-- TRIM_ registers (R350). -/
def trimFields (o : Nat) : List RField :=
  if o = 0x000 then [⟨0, 0, .ro, 0⟩, ⟨1, 1, .ro, 0⟩, ⟨2, 2, .ro, 0⟩, ⟨3, 3, .ro, 0⟩, ⟨4, 4, .ro, 0⟩, ⟨5, 5, .ro, 0⟩]
  else if o = 0x004 ∨ o = 0x008 ∨ o = 0x00C then [⟨15, 0, .ro, 0⟩]
  else if o = 0x010 then [⟨0, 0, .rw, 0⟩, ⟨31, 16, .rw, 0⟩]
  else if o = 0x014 then [⟨15, 0, .ro, 0⟩]
  else if o = 0x018 then [⟨15, 0, .ro, 0⟩, ⟨31, 16, .ro, 0⟩]
  else if o = 0x020 ∨ o = 0x024 then roWord
  else if inStep o 0x100 0x110 4 then roWord else []

/-- The fields of the register at an offset of a block. -/
def blkFields : Blk → Nat → List RField
  | .arr _, o => arrFields o
  | .esp _, o => espFields o
  | .cntCore _, o => cntCoreFields o
  | .router _, o => routerFields o
  | .sc _, o => scFields o
  | .mif _, o => mifFields o
  | .msh _, o => mshFields o
  | .fp _, o => fpFields o
  | .hp _ _, o => hpFields o
  | .pwr _, o => pwrFields o
  | .clk _, o => clkFields o
  | .thm _, o => thmFields o
  | .cnt s, o => cntFields s o
  | .ctx s, o => ctxFields s o
  | .dbg _, o => dbgFields o
  | .trim, o => trimFields o

/-- The fields at an offset from 0xF200_0000_0000; none where no register lies (R11). -/
def fieldsAt (a : Nat) : List RField :=
  match locate a with
  | some (b, o) => blkFields b o
  | none => []

/-- The reset word of a list of fields (R10). -/
def resetOf : List RField → W32
  | [] => 0
  | f :: fs => setF f.hi f.lo f.reset (resetOf fs)

/-- The reset value of the register at an offset (R10). -/
def regReset (a : Nat) : W32 := resetOf (fieldsAt a)

/-- What a write of w over the value v leaves: RW fields take w, a 1 clears a W1C field, RO and reserved bits and the
W1S bits (whose actions are rows of their own) keep v (R6, R9). -/
def writeFields : List RField → W32 → W32 → W32
  | [], v, _ => v
  | f :: fs, v, w =>
    let v' := writeFields fs v w
    match f.acc with
    | .rw => setF f.hi f.lo (getF f.hi f.lo w) v'
    | .w1c => v' &&& ~~~ (w &&& maskF f.hi f.lo)
    | _ => v'

/-- Whether an offset of a block is an event counter (R414). -/
def isEvent : Blk → Nat → Bool
  | .arr _, o => inStep o 0x040 0x068 4
  | .esp _, o => inStep o 0x040 0x04C 4
  | .cntCore _, o => inStep o 0x080 0x0A0 4
  | .router _, o => inStep o 0x100 0x124 4
  | .sc _, o => inStep o 0x100 0x160 4 || inStep o 0x180 0x19C 4
  | .mif _, o => inStep o 0x100 0x114 4 || inStep o 0x2400 0x2420 4
  | .msh _, o => inStep o 0x800 0x808 4 || inStep o 0x810 0x818 4 || inStep o 0x820 0x838 4
  | .fp _, o => inStep o 0x500 0x520 4
  | .hp _ _, o => inStep o 0x100 0x110 4
  | .pwr _, o => inStep o 0x800 0x818 4
  | .clk _, o => decide (o = 0x020) || inStep o 0x400 0x800 4
  | .thm _, o => inStep o 0x800 0x810 4
  | .cnt s, o => decide (s = 0) && (decide (o = 0x120) || inStep o 0x2028 0x2440 0x40)
  | .trim, o => inStep o 0x100 0x110 4
  | _, _ => false

/-- Whether an offset of a block is the low word of a 64-bit counter (R414). -/
def isWide : Blk → Nat → Bool
  | .cntCore _, o => inStep o 0x000 0x050 8
  | .sc _, o => inStep o 0x160 0x178 8
  | .mif _, o => inStep o 0x120 0x130 8
  | .fp _, o => inStep o 0x520 0x530 8
  | .hp _ _, o => inStep o 0x110 0x120 8
  | .cnt s, o => decide (s = 0) && inStep o 0x100 0x120 8
  | _, _ => false

/-- The words of a block that can hold counters, in increasing offset order. -/
def counterWords : Blk → List Nat
  | .arr _ => (upTo 0 10).map (fun i => 0x040 + 4 * i)
  | .esp _ => [0x040, 0x044, 0x048]
  | .cntCore _ => (upTo 0 10).map (fun i => 8 * i) ++ (upTo 0 8).map (fun i => 0x080 + 4 * i)
  | .router _ => (upTo 0 9).map (fun i => 0x100 + 4 * i)
  | .sc _ => (upTo 0 24).map (fun i => 0x100 + 4 * i) ++ [0x160, 0x168, 0x170] ++ (upTo 0 7).map (fun i => 0x180 + 4 * i)
  | .mif _ => (upTo 0 5).map (fun i => 0x100 + 4 * i) ++ [0x120, 0x128] ++ (upTo 0 8).map (fun i => 0x2400 + 4 * i)
  | .msh _ => [0x800, 0x804, 0x810, 0x814] ++ (upTo 0 6).map (fun i => 0x820 + 4 * i)
  | .fp _ => (upTo 0 8).map (fun i => 0x500 + 4 * i) ++ [0x520, 0x528]
  | .hp _ _ => (upTo 0 4).map (fun i => 0x100 + 4 * i) ++ [0x110, 0x118]
  | .pwr _ => (upTo 0 6).map (fun i => 0x800 + 4 * i)
  | .clk _ => 0x020 :: (upTo 0 256).map (fun i => 0x400 + 4 * i)
  | .thm _ => (upTo 0 4).map (fun i => 0x800 + 4 * i)
  | .cnt s => if s = 0 then [0x100, 0x108, 0x110, 0x118, 0x120] ++ (upTo 0 17).map (fun i => 0x2028 + 0x40 * i) else []
  | .trim => [0x100, 0x104, 0x108, 0x10C]
  | _ => []

/-- The position of x in a list. -/
def posOf : List Nat → Nat → Nat
  | [], _ => 0
  | y :: ys, x => if x = y then 0 else posOf ys x + 1

/-- The number b of a block's flag array and whether it is a core array (R417). -/
def Blk.flagNo : Blk → Nat × Bool
  | .arr _ => (0, true)
  | .esp _ => (1, true)
  | .router _ => (2, true)
  | .cntCore _ => (3, true)
  | .sc h => (h % 2, false)
  | .mif d => (2 + d % 2, false)
  | .msh _ => (4, false)
  | .fp j => (5 + j % 2, false)
  | .hp _ k => (7 + k, false)
  | .pwr _ => (9, false)
  | .clk _ => (10, false)
  | .thm _ => (11, false)
  | .trim => (12, false)
  | .cnt _ => (13, false)
  | .ctx _ => (14, false)
  | .dbg _ => (15, false)

/-- The stack a block lies in; for core blocks the site's stack (R13). -/
def Blk.stack : Blk → Nat
  | .arr i => i / 512
  | .esp i => i / 512
  | .cntCore i => i / 512
  | .router i => i / 512
  | .sc h => h / 2
  | .mif d => d / 2
  | .msh s => s
  | .fp j => j / 2
  | .hp s _ => s
  | .pwr s => s
  | .clk s => s
  | .thm s => s
  | .cnt s => s
  | .ctx s => s
  | .dbg s => s
  | .trim => 0

/-- The site of a core block. -/
def Blk.site : Blk → Option Nat
  | .arr i => some i
  | .esp i => some i
  | .cntCore i => some i
  | .router i => some i
  | _ => none

/-- The offset of the flag word and the bit of a counter (R417). -/
def flagPlace (b : Blk) (o : Nat) : Nat × Nat :=
  let i := posOf (counterWords b) o
  let (n, core) := b.flagNo
  let base := if core then (Blk.cntCore (b.site.getD 0)).base + 0x300 else (Blk.cnt b.stack).base + 0x1000
  (base + 0x40 * n + 4 * (i / 32), i % 32)

end Sys2Proof.Machine
end

