-- ==== Sys2Proof/Machine/Ops.lean ====
section
/-! DEFINITION. The named operations every family uses: grades and sites, device registers, counters with their flags,
events and interrupts, trace rings, memory with its poison marks, the address map, partitions. -/

namespace Sys2Proof.Machine

/-- The answer of a meaning. -/
abbrev Out := Host.Outcome State Fault Refusal

/-! ## Grades, stacks, sites (R2, R13 to R16) -/

/-- Stacks of a grade (R2). -/
def Grade.stacks : Grade → Nat
  | .xn8_3840 => 8
  | .xn8_3584 => 8
  | .xn4_1920 => 4
  | .xn4_1792 => 4
  | .xn2_960 => 2

/-- Enabled cores of a grade (R2). -/
def Grade.enabled : Grade → Nat
  | .xn8_3840 => 3840
  | .xn8_3584 => 3584
  | .xn4_1920 => 1920
  | .xn4_1792 => 1792
  | .xn2_960 => 960

/-- Max power of a grade in W (R2). -/
def Grade.maxPower : Grade → Nat
  | .xn8_3840 => 5200
  | .xn8_3584 => 5200
  | .xn4_1920 => 2700
  | .xn4_1792 => 2700
  | .xn2_960 => 1400

/-- The stack and the index k of a host port (R16, R183). -/
def Grade.hostPort (g : Grade) (p : Nat) : Nat × Nat :=
  match g.stacks with
  | 8 => (nth 0 [0, 3, 4, 7] p, 0)
  | 4 => (p, 0)
  | _ => (p / 2, p % 2)

/-- Stacks of the part. -/
def State.stacks (s : State) : Nat := s.part.grade.stacks
/-- Sites of the part. -/
def State.sites (s : State) : Nat := s.stacks * 512
/-- Memory devices, and halves (R15). -/
def State.devices (s : State) : Nat := s.stacks * 2
/-- Fabric ports (R16). -/
def State.fabPorts (s : State) : Nat := s.stacks * 2

/-- The stack of a site (R13). -/
def siteStack (i : Nat) : Nat := i / 512
/-- The layer of a site (R13). -/
def siteLayer (i : Nat) : Nat := i / 256 % 2
/-- The row of a site (R13). -/
def siteRow (i : Nat) : Nat := i / 16 % 16
/-- The column of a site (R13). -/
def siteCol (i : Nat) : Nat := i % 16
/-- The half of a site, 0 west (R14). -/
def siteEast (i : Nat) : Nat := i / 8 % 2
/-- The half of the part a site lies in: 2 × stack + (0 west, 1 east) (R15, R283). -/
def siteHalf (i : Nat) : Nat := 2 * siteStack i + siteEast i
/-- The region of a site within its half (R14). -/
def siteRegion (i : Nat) : Nat := siteRow i * 4 + siteCol i / 2 % 4
/-- The region of a site in the numbering of R349: layer × 128 + half × 64 + region. -/
def regionN (i : Nat) : Nat := siteLayer i * 128 + siteEast i * 64 + siteRegion i
/-- The region of a site in the numbering of R283: stack × 256 + R349's. -/
def regionOf (i : Nat) : Nat := siteStack i * 256 + regionN i
/-- The two sites of a region of R283's numbering. -/
def regionSites (r : Nat) : List Nat :=
  let b := r / 256 * 512 + r / 128 % 2 * 256 + r % 64 / 4 * 16 + r / 64 % 2 * 8 + r % 4 * 2
  [b, b + 1]
/-- The site above slice sl of a half (R144). -/
def sliceSite (h sl : Nat) : Nat := h / 2 * 512 + sl / 128 * 256 + sl / 8 % 16 * 16 + h % 2 * 8 + sl % 8
/-- The slice beneath a site (R144). -/
def siteSlice (i : Nat) : Nat := siteLayer i * 128 + siteRow i * 8 + siteCol i % 8
/-- The number n of a site in its stack (R421). -/
def siteN (i : Nat) : Nat := i % 512

/-! ## Device registers -/

/-- The word a register holds. -/
def State.rg (s : State) (b : Blk) (o : Nat) : W32 := mget (regReset (b.base + o)) s.regs (b.base + o)

/-- Hardware or firmware sets a register's word. -/
def State.wg (s : State) (b : Blk) (o : Nat) (v : W32) : State :=
  { s with regs := mset (regReset (b.base + o)) s.regs (b.base + o) v }

/-- Bits [hi:lo] of a register. -/
def State.rgF (s : State) (b : Blk) (o hi lo : Nat) : Nat := getF hi lo (s.rg b o)

/-- Set bits [hi:lo] of a register. -/
def State.wgF (s : State) (b : Blk) (o hi lo v : Nat) : State := s.wg b o (setF hi lo v (s.rg b o))

/-- One bit of a register. -/
def State.rgB (s : State) (b : Blk) (o i : Nat) : Bool := (s.rg b o).getLsbD i

/-- Set one bit of a register. -/
def State.wgB (s : State) (b : Blk) (o i : Nat) (v : Bool) : State := s.wgF b o i i (if v then 1 else 0)

/-- Two adjacent words as a 64-bit number, low word first. -/
def State.rg64 (s : State) (b : Blk) (o : Nat) : Nat := (s.rg b o).toNat + 2 ^ 32 * (s.rg b (o + 4)).toNat

/-- Set two adjacent words. -/
def State.wg64 (s : State) (b : Blk) (o v : Nat) : State :=
  (s.wg b o (BitVec.ofNat 32 v)).wg b (o + 4) (BitVec.ofNat 32 (v / 2 ^ 32))

/-- Whether a slice of a half stalls its requests: LOCALIZE and rehoming (R145, R154), or a change of its SRAM band (R364). -/
def Half.shut (x : Half) (sl : Nat) : Bool := x.stalled.contains sl || (mfind x.bandLeft sl).isSome

/-- Device time as a stack's copy holds it (R357, R359). -/
def State.timeOf (s : State) (t : Nat) : Nat := ((s.time.now : Int) + mget 0 s.time.diff t).toNat

/-- Key of a latched high word: reading master × 2^32 + offset of the high word (R371, R415). -/
def latchKey (master off : Nat) : Nat := master * 2 ^ 32 + off

/-- Change the thermal record. -/
def State.modTherm (s : State) (f : Therm → Therm) : State := { s with therm := f s.therm }

/-- Change the health record. -/
def State.modHealth (s : State) (f : Health → Health) : State := { s with health := f s.health }

/-! ## Memory: bytes and poison marks (R210) -/

/-- The byte at a device address. -/
def State.byte (s : State) (a : Nat) : Byte := mget 0 s.mem a

/-- n bytes from an address. -/
def State.bytes (s : State) (a : Nat) : Nat → List Byte
  | 0 => []
  | n + 1 => s.byte a :: s.bytes (a + 1) n

/-- n bytes from an address as a little-endian number. -/
def State.num (s : State) (a n : Nat) : Nat := ofBytes (s.bytes a n)

/-- The canonical form of a memory: addresses strictly rising, and no cell that holds 0, which is what an unlisted address reads as. -/
def Memory.wf (m : List Host.Cell) : Bool := mkeysUp m && m.all (fun c => c.2 != 0)

/-- Write bytes into the cells of a memory. -/
def putCells (m : List Host.Cell) (a : Nat) : List Byte → List Host.Cell
  | [] => m
  | b :: bs => putCells (mset (0 : Byte) m a b) (a + 1) bs

/-- The marks after a store to [a, a + n): a poisoned store marks every word it touches, a clean one clears the words it
covers whole (R210). -/
def storeMarks (p : List Nat) (a n : Nat) (pois : Bool) : List Nat :=
  if pois then (upTo (a / 32) (cdiv (a + n) 32 - a / 32)).foldl insNat p
  else p.filter (fun w => !(decide (a ≤ w * 32) && decide (w * 32 + 32 ≤ a + n)))

/-- Store bytes at a device address with the marks of R210. -/
def State.store (s : State) (a : Nat) (bs : List Byte) (pois : Bool) : State :=
  { s with mem := putCells s.mem a bs, poison := storeMarks s.poison a bs.length pois }

/-- Store a number as n little-endian bytes, clean. -/
def State.storeN (s : State) (a n v : Nat) : State := s.store a (toBytes n v) false

/-- Drop every cell and mark of [a, a + n): the bytes then read as zero and clean (R95, R207, R208). -/
def State.clear (s : State) (a n : Nat) : State :=
  { s with
    mem := s.mem.filter (fun c => !(decide (a ≤ c.1) && decide (c.1 < a + n)))
    poison := s.poison.filter (fun w => !(decide (a < w * 32 + 32) && decide (w * 32 < a + n))) }

/-- Poison every word of [a, a + n). -/
def State.poisonAll (s : State) (a n : Nat) : State :=
  { s with poison := (upTo (a / 32) (cdiv (a + n) 32 - a / 32)).foldl insNat s.poison }

/-- The cells of [a, a + n) moved to b. -/
def moveCells (m : List Host.Cell) (a n b : Nat) : List Host.Cell :=
  (m.filter (fun c => decide (a ≤ c.1) && decide (c.1 < a + n))).map (fun c => (c.1 - a + b, c.2))

/-- Copy [a, a + n) to [b, b + n), disjoint, with the marks of R210: every destination word that receives a byte of a
poisoned word is poisoned; a word covered whole by clean bytes is cleared. -/
def State.copyRange (s : State) (a b n : Nat) : State :=
  let mv := moveCells s.mem a n b
  let ps := s.poison.filter (fun w => decide (a < w * 32 + 32) && decide (w * 32 < a + n))
  let s1 : State :=
    { s with
      mem := mv.foldl (fun m c => mset (0 : Byte) m c.1 c.2)
        (s.mem.filter (fun c => !(decide (b ≤ c.1) && decide (c.1 < b + n))))
      poison := storeMarks s.poison b n false }
  ps.foldl (fun t w =>
    let lo := max a (w * 32)
    let hi := min (a + n) (w * 32 + 32)
    t.poisonAll (lo - a + b) (hi - lo)) s1

/-- Key of a host memory byte: port × 2^64 + host address. -/
def hostKey (port a : Nat) : Nat := port * 2 ^ 64 + a

/-- n bytes of a host's memory. -/
def State.hostBytes (s : State) (port a n : Nat) : List Byte := (upTo (hostKey port a) n).map (fun k => mget 0 s.hmem k)

/-- The part writes bytes into a host's memory. -/
def State.hostStore (s : State) (port a : Nat) (bs : List Byte) : State :=
  { s with hmem := putCells s.hmem (hostKey port a) bs }

/-! ## The address map (R178 to R183) -/

/-- Bytes of one memory device: 72 GiB (R2, R179). -/
def devBytes : Nat := 0x1200000000

/-- E, the end of external memory (R178). -/
def State.extEnd (s : State) : Nat := s.devices * devBytes

/-- Start of the windows. -/
def winBase : Nat := 0xF00000000000
/-- Start of the local memories. -/
def lmemBase : Nat := 0xF10000000000
/-- Start of the registers. -/
def regBase : Nat := 0xF20000000000

/-- The end of the registers (R178). -/
def regEnd : Nat := 0xF20001800000

/-- The device of an external address (R179). -/
def State.devOf (s : State) (a : Nat) : Nat :=
  if s.boot.cfg.spread then a / 4096 % s.devices else a / devBytes

/-- The offset of an external address within its device (R179). -/
def State.offOf (s : State) (a : Nat) : Nat :=
  if s.boot.cfg.spread then a / 4096 / s.devices * 4096 + a % 4096 else a % devBytes

/-- The external address of an offset within a device (R179). -/
def State.addrOf (s : State) (d o : Nat) : Nat :=
  if s.boot.cfg.spread then (o / 4096 * s.devices + d) * 4096 + o % 4096 else d * devBytes + o

/-- The address of byte b of the context directory (R180, R193). -/
def State.dirAddr (s : State) (b : Nat) : Nat :=
  s.addrOf (b / 4096 % s.devices) (devBytes - 0x4000000 / s.devices + b / 4096 / s.devices * 4096 + b % 4096)

/-- Whether a device offset lies in the context directory (R180). -/
def State.inDirectory (s : State) (a : Nat) : Bool :=
  decide (a < s.extEnd) && decide (devBytes - 0x4000000 / s.devices ≤ s.offOf a)

/-- The home map index of a device offset (R145). -/
def homeIdx (o : Nat) : Nat :=
  let c := o / 4096
  (BitVec.ofNat 64 c ^^^ BitVec.ofNat 64 (c / 4096) ^^^ BitVec.ofNat 64 (c / 2 ^ 24)).toNat % 4096

/-- The entry of sc_home_map (R145, R175). -/
def State.homeEntry (s : State) (h i : Nat) : Nat :=
  s.rgF (.sc h) (0x1000 + 4 * (i / 4)) (8 * (i % 4) + 7) (8 * (i % 4))

/-- Set an entry of sc_home_map. -/
def State.setHome (s : State) (h i v : Nat) : State :=
  s.wgF (.sc h) (0x1000 + 4 * (i / 4)) (8 * (i % 4) + 7) (8 * (i % 4)) v

/-- The window size of a slice in MiB (R174). -/
def State.winSize (s : State) (h sl : Nat) : Nat := s.rgF (.sc h) (0x800 + 4 * sl) 2 0

/-- The partition of a slice's window (R174). -/
def State.winPart (s : State) (h sl : Nat) : Nat := s.rgF (.sc h) (0x800 + 4 * sl) 7 4

/-- The sets of a slice for a window of w MiB (R143). -/
def setCount (sl w : Nat) : Nat := (if sl < 128 then 1536 else 2048) - 256 * w

/-- Sets of a slice (R143). -/
def State.sets (s : State) (h sl : Nat) : Nat := setCount sl (s.winSize h sl)

/-- The set number n of R145 before the modulus. -/
def setHash (o : Nat) : Nat := o / 4096 / 256 * 16 + o / 256 % 16

/-- The home of an external address: half, slice, set (R145). -/
def State.home (s : State) (a : Nat) : Nat × Nat × Nat :=
  let h := s.devOf a
  let o := s.offOf a
  let sl := s.homeEntry h (homeIdx o)
  (h, sl, setHash o % s.sets h sl)

/-- The site of the window an address lies in. -/
def winSite (a : Nat) : Nat := (a - winBase) / 0x400000

/-- Whether a slice is retired (R226: SC_VPORTs.MODE 3). -/
def State.retired (s : State) (h sl : Nat) : Bool := decide (s.rgF (.sc h) (0x2800 + 4 * sl) 1 0 = 3)

/-- Whether [a, a + n) lies within the window of one slice, within its size (R181). -/
def State.inWindow (s : State) (a n : Nat) : Bool :=
  decide (winBase ≤ a) && decide (winSite a < s.sites) && decide (0 < n) &&
  decide ((a - winBase) % 0x400000 + n ≤ s.winSize (siteHalf (winSite a)) (siteSlice (winSite a)) * 0x100000)

/-- The site whose router and slice serve an address of external memory or of a window (R19, R144). -/
def State.placeSite (s : State) (a : Nat) : Nat :=
  if a < s.extEnd then (let (h, sl, _) := s.home a; sliceSite h sl)
  else if a < lmemBase then winSite a
  else (a - lmemBase) / 0x80000

/-- Whether an address lies in a half that is lost (R388): its reads give poison. -/
def State.inLost (s : State) (a : Nat) : Bool :=
  if a < s.extEnd then (mget Half.empty s.halves (s.devOf a)).lost
  else decide (winBase ≤ a) && decide (a < lmemBase) && (mget Half.empty s.halves (siteHalf (winSite a))).lost

/-- Whether any 32-byte word that [a, a + n) touches carries the mark, or lies in a lost half (R210, R388). -/
def State.poisoned (s : State) (a n : Nat) : Bool :=
  s.poison.any (fun w => decide (a / 32 ≤ w) && decide (w * 32 < a + n)) || s.inLost a

/-! ## Partitions (R282) and who serves whom (R377) -/

/-- The partition that holds a region of R283's numbering. -/
def State.regionPart (s : State) (r : Nat) : Option Nat :=
  (s.parts.find? (fun p => p.2.regions.contains r)).map (·.1)

/-- The partition a core serves: the one it is lent to, else the holder of its region; spares serve none. -/
def State.corePart (s : State) (i : Nat) : Option Nat :=
  match mfind s.roster.lent i with
  | some p => some p
  | none => if hasSite s.roster.enabled i then s.regionPart (regionOf i) else none

/-- State field of a region (R349): 0 parked, 1 switching on, 2 on, 3 dark. -/
def State.regionState (s : State) (r : Nat) : Nat := s.rgF (.pwr (r / 256)) (0x100 + 4 * (r % 256)) 1 0

/-- Whether a core is parked for its partition: its region is not on, or a PARK named it (R332, R377). -/
def State.coreParked (s : State) (i : Nat) : Bool :=
  !decide (s.regionState (regionOf i) = 2) ||
    (s.power.cmdParked.contains (regionOf i) && (mfind s.roster.lent i).isNone)

/-- The enabled cores that serve a partition. -/
def State.partCores (s : State) (p : Nat) : List Nat :=
  (upTo 0 s.sites).filter (fun i => hasSite s.roster.enabled i && decide (s.corePart i = some p))

/-- The owner of a partition, if it exists. -/
def State.ownerOf (s : State) (p : Nat) : Option Nat := (mfind s.parts p).map (·.owner)

/-- How many bytes from a the ranges cover, going on from range to range. -/
def coverFrom (rs : List (Nat × Nat)) : Nat → Nat → Nat
  | 0, a => a
  | f + 1, a =>
    match rs.find? (fun r => decide (r.1 ≤ a) && decide (a < r.1 + r.2)) with
    | some r => coverFrom rs f (r.1 + r.2)
    | none => a

/-- Whether every byte of [a, a + n) lies in a partition's memory ranges (R277 check 5). -/
def State.inRanges (s : State) (p a n : Nat) : Bool :=
  match mfind s.parts p with
  | some q => decide (0 < n) && decide (a + n ≤ coverFrom q.ranges 8 a)
  | none => false

/-- Whether a device access of a partition's own masters reaches [a, a + n) (R184): its ranges, or a window of its slices
within its size. -/
def State.reach (s : State) (p a n : Nat) : Bool :=
  s.inRanges p a n ||
  (s.inWindow a n && decide (s.winPart (siteHalf (winSite a)) (siteSlice (winSite a)) = p))

/-- The remote segment of a partition that an access falls in (R296): segment number, remote part, partition, address. -/
def segmentIn (segs : Map W32) (p a : Nat) : Option (Nat × Nat × Nat × Nat) :=
  ((upTo 0 4).find? (fun k =>
    let w := mget 0 segs (64 * p + 16 * k + 4)
    let b := (mget 0 segs (64 * p + 16 * k)).toNat * 65536
    w.getLsbD 31 && decide (b ≤ a) && decide (a < b + getF 15 0 w * 65536))).map (fun k =>
    let w := mget 0 segs (64 * p + 16 * k + 4)
    let b := (mget 0 segs (64 * p + 16 * k)).toNat * 65536
    (k, getF 30 16 w, getF 3 0 (mget 0 segs (64 * p + 16 * k + 12)),
      (mget 0 segs (64 * p + 16 * k + 8)).toNat * 65536 + (a - b)))

/-- The segment in force for a partition's accesses. -/
def State.segment (s : State) (p a : Nat) : Option (Nat × Nat × Nat × Nat) := segmentIn s.fab.segs p a

/-! ## Interrupts and events (R24, R265, R289) -/

/-- The HP_ block of a host port. -/
def State.hpBlk (s : State) (p : Nat) : Blk :=
  let (t, k) := s.part.grade.hostPort p
  .hp t k

/-- A port's record. -/
def State.port (s : State) (p : Nat) : Port := mget Port.reset s.host.ports p

/-- Set a port's record. -/
def State.setPort (s : State) (p : Nat) (x : Port) : State :=
  { s with host := { s.host with ports := mset Port.reset s.host.ports p x } }

/-- Whether a port's link is up (R261, R289). -/
def State.linkUp (s : State) (p : Nat) : Bool := s.rgB (s.hpBlk p) 0x000 0

/-- Whether accesses to a port's host memory wait: the port is in D3hot, or its link is down (R265, R287). -/
def State.hostWaits (s : State) (p : Nat) : Bool := (s.port p).d3hot || !s.linkUp p

/-- Put an MSI-X vector among those a port will send, or hold it while the port is in D3hot (R265). -/
def State.raiseIrq (s : State) (p v : Nat) : State :=
  let x := s.port p
  s.setPort p (if x.d3hot then { x with heldIrqs := x.heldIrqs ++ [v] } else { x with irqs := x.irqs ++ [v] })

/-- Set bit i of a port's HP_EVENT word; the interrupt follows a change from 0 to 1 while EVENT_EN is 1 (R289). -/
def State.portEvent (s : State) (p i : Nat) : State :=
  let b := s.hpBlk p
  let t := s.wgB b 0x014 i true
  if !s.rgB b 0x014 i && s.rgB b 0x010 16 then t.raiseIrq p (s.rgF b 0x010 10 0) else t

/-- An event sent to the admin port (R289): 0 thrash, 1 uncorrectable, 2 log lost, 3 remap full, 4 ring fail, 6 health,
7 Trim, 8 thermal, 9 fabric. -/
def State.adminEvent (s : State) (i : Nat) : State := s.portEvent s.boot.cfg.adminPort i

/-! ## Trace rings and counters (R414 to R418, R426 to R429) -/

/-- The ring registers of ring r (R427). -/
def ringOff (r : Nat) : Nat := 0x2000 + 0x40 * r

/-- A 32-byte trace record (R426): device time, 20 payload bytes, and type, partition and site. -/
def traceBytes (time : Nat) (payload : List Byte) (typ part site : Nat) : List Byte :=
  toBytes 8 time ++ (payload ++ toBytes 20 0).take 20 ++ toBytes 4 (typ + part * 256 + site * 65536)

/-- Place one record at the write pointer of a ring, without a check. -/
def State.putRecord (s : State) (r : Nat) (bs : List Byte) : State :=
  let o := ringOff r
  let w := s.rg (.cnt 0) (o + 0x20)
  let n := s.rgF (.cnt 0) (o + 0x18) 24 0
  let a := (s.rg (.cnt 0) (o + 0x10)).toNat + 2 ^ 32 * s.rgF (.cnt 0) (o + 0x14) 15 0 + 32 * (w.toNat % n)
  let s := if r = 16 then s.hostStore s.boot.cfg.adminPort a bs else s.store a bs false
  s.wg (.cnt 0) (o + 0x20) (w + 1)

/-- Whether a ring has room for one more record (R429); the admin ring in host memory has none in D3hot (R265). -/
def State.ringRoom (s : State) (r : Nat) : Bool :=
  let o := ringOff r
  (s.rg (.cnt 0) (o + 0x20) - s.rg (.cnt 0) (o + 0x24)).toNat != s.rgF (.cnt 0) (o + 0x18) 24 0 &&
    !(r == 16 && s.hostWaits s.boot.cfg.adminPort)

/-- Whether a counter's flag is set. -/
def State.flag (s : State) (b : Blk) (o : Nat) : Bool :=
  let (w, i) := flagPlace b o
  (mget 0 s.regs w).getLsbD i

/-- Set a counter's flag. -/
def State.setFlag (s : State) (b : Blk) (o : Nat) : State :=
  let (w, i) := flagPlace b o
  { s with regs := mset 0 s.regs w (setF i i 1 (mget 0 s.regs w)) }

/-- An event counter counts n events (R414): the state, and whether a counter-flag event is raised. -/
def State.count (s : State) (b : Blk) (o n : Nat) : State × Bool :=
  let v := (s.rg b o).toNat
  if n = 0 then (s, false)
  else if v + n < 0xFFFFFFFF then (s.wg b o (BitVec.ofNat 32 (v + n)), false)
  else ((s.wg b o 0xFFFFFFFF#32).setFlag b o, !s.flag b o)

/-- A 64-bit counter counts n (R414). -/
def State.count64 (s : State) (b : Blk) (o n : Nat) : State × Bool :=
  let v := s.rg64 b o + n
  let t := s.wg64 b o v
  if v < 2 ^ 64 then (t, false) else (t.setFlag b o, true)

/-- The payload of a counter-flag record (R426 type 3). -/
def flagPayload (b : Blk) (o : Nat) (wrap : Bool) : List Byte :=
  let (n, core) := b.flagNo
  let i := posOf (counterWords b) o
  toBytes 4 (n + (if core then 16 else 0) + i * 32 + (if wrap then 16384 else 0)) ++ toBytes 4 b.stack

/-- A record on its way to a ring: ring, mask bit (none: always), bytes. -/
abbrev Job := Nat × Option Nat × List Byte

/-- The records of a counter-flag event (R418): type 3, to the ring of the partition whose core counts and to the admin
ring (R429). -/
def State.flagJobs (s : State) (b : Blk) (o : Nat) (wrap : Bool) : List Job :=
  let p := b.site.bind s.corePart
  let bs := traceBytes (s.timeOf b.stack) (flagPayload b o wrap) 3 (p.getD 0) (b.site.getD 0xFFF)
  (match p with | some q => [(q, some 1, bs)] | none => []) ++ [(16, some 1, bs)]

/-- Whether a ring runs and takes records of a mask bit (R427, R428). -/
def State.ringTakes (s : State) (r : Nat) (mask : Option Nat) : Bool :=
  let o := ringOff r
  decide (r < 17) && s.rgB (.cnt 0) (o + 0x1C) 8 && decide (s.rgF (.cnt 0) (o + 0x18) 24 0 ≠ 0) &&
    (match mask with | some i => s.rgB (.cnt 0) (o + 0x1C) i | none => true)

/-- Write a pending type 8 record when room exists (R429). -/
def State.ringLost (s : State) (r : Nat) : State :=
  let lost := mget 0 s.lostRecs r
  if lost ≠ 0 && s.ringRoom r then
    { s.putRecord r (traceBytes s.time.now (toBytes 4 lost) 8 (if r < 16 then r else 0) 0xFFF) with
      lostRecs := merase s.lostRecs r }
  else s

/-- One record meets its ring (R429): written, after a pending type 8 record, or dropped and counted. The second part
holds the records of the counter-flag events that the loss counters raise. -/
def State.ringOne (s : State) (j : Job) : State × List Job :=
  let (r, mask, bs) := j
  if !s.ringTakes r mask then (s, [])
  else
    let s := s.ringLost r
    if s.ringRoom r then (s.putRecord r bs, [])
    else
      let (s, e1) := s.count (.cnt 0) (ringOff r + 0x28) 1
      let (s, e2) := s.count (.cnt 0) 0x120 1
      let s := { s with lostRecs := mset 0 s.lostRecs r (mget 0 s.lostRecs r + 1) }
      (s, (if e1 then s.flagJobs (.cnt 0) (ringOff r + 0x28) false else []) ++
          (if e2 then s.flagJobs (.cnt 0) 0x120 false else []))

/-- Write records in order, with those that arise on the way. The fuel is never used up: each of the 18 loss counters
raises at most one event until software clears it. -/
def State.rings : Nat → State → List Job → State
  | 0, s, _ => s
  | _, s, [] => s
  | f + 1, s, j :: js => let (t, k) := s.ringOne j; State.rings f t (js ++ k)

/-- Write records (R429). -/
def State.trace (s : State) (js : List Job) : State := State.rings 100 s js

/-- An event counter counts n events, with its flag event (R414, R418). -/
def State.bump (s : State) (b : Blk) (o : Nat) (n : Nat) : State :=
  let (t, e) := s.count b o n
  if e then t.trace (t.flagJobs b o false) else t

/-- A 64-bit counter counts n, with its flag event (R414, R418). -/
def State.bump64 (s : State) (b : Blk) (o : Nat) (n : Nat) : State :=
  let (t, e) := s.count64 b o n
  if e then t.trace (t.flagJobs b o true) else t

/-- A record of a partition's own to its ring and the admin ring (R429), stamped by the stack in which its event occurred (R359). -/
def State.tracePart (s : State) (stack p : Nat) (mask typ site : Nat) (payload : List Byte) : State :=
  let bs := traceBytes (s.timeOf stack) payload typ p site
  s.trace [(p, some mask, bs), (16, some mask, bs)]

/-- A record of no partition, to the admin ring. -/
def State.traceAdmin (s : State) (stack mask typ site : Nat) (payload : List Byte) : State :=
  s.trace [(16, some mask, traceBytes (s.timeOf stack) payload typ 0 site)]

/-- A record that goes to every running ring whose mask enables it (R429). -/
def State.traceEvery (s : State) (mask : Nat) (bs : List Byte) : State :=
  s.trace ((upTo 0 17).map (fun r => (r, some mask, bs)))

/-- The event counters of a block return to 0 with their OVF flags (R416). -/
def State.clearCounters (s : State) (b : Blk) : State :=
  (counterWords b).foldl (fun t o =>
    if isEvent b o then
      let (w, i) := flagPlace b o
      let t := t.wg b o 0
      { t with regs := mset 0 t.regs w (setF i i 0 (mget 0 t.regs w)) }
    else t) s

/-- The counter blocks of a core (R419). -/
def coreBlks (i : Nat) : List Blk := [.arr i, .esp i, .router i, .cntCore i]

/-- Payload that a host port receives (R289, R421). -/
def State.hostRx (s : State) (port n : Nat) : State := (s.bump64 (s.hpBlk port) 0x110 n).bump64 (.cnt 0) 0x108 n

/-- Payload that a host port sends (R289, R421). -/
def State.hostTx (s : State) (port n : Nat) : State := (s.bump64 (s.hpBlk port) 0x118 n).bump64 (.cnt 0) 0x108 n

/-! ## Health (R393) -/

/-- A store of the health record is due (R412). -/
def State.storeDue (s : State) : State := { s with flash := { s.flash with due := true } }

/-- A unit entry is added to the health report, newest first, with the time of its stack, EV_HEALTH sets, and the record is due for a store
(R289, R359, R393, R412). -/
def State.healthEntry (s : State) (stack kind site detail : Nat) : State :=
  ({ s.storeDue with health := { s.health with entries := ⟨kind, site, detail, s.timeOf stack⟩ :: s.health.entries } }).adminEvent 6

/-- A Coppice trace record (R426 type 5) to the partition's ring, if one is named, and to the admin ring. -/
def State.traceCoppice (s : State) (stack : Nat) (p : Option Nat) (cls act site other : Nat) : State :=
  let pay := toBytes 4 cls ++ toBytes 4 act ++ toBytes 4 other
  match p with
  | some q => s.tracePart stack q 4 5 site pay
  | none => s.traceAdmin stack 4 5 site pay

/-- The stack of the command processor that a command runs on (R11, R359). -/
def State.cpStack (s : State) (c : Cmd) : Nat := (s.part.grade.hostPort c.port).1

end Sys2Proof.Machine
end

