-- ==== Sys2Proof/Machine/CmdOps.lean ====
section
/-! DEFINITION. Operations over commands, cores and blocks that several families share: packets, ending a command, poison
consumption, taking blocks off a core, commit points. -/

namespace Sys2Proof.Machine

/-! ## Commands and their packets (R271) -/

/-- Dword i of a command's packet. -/
def Cmd.dw (c : Cmd) (i : Nat) : W32 := nth 0 c.pkt i
/-- Bits [hi:lo] of dword i. -/
def Cmd.f (c : Cmd) (i hi lo : Nat) : Nat := getF hi lo (c.dw i)
/-- OPCODE (R271). -/
def Cmd.opcode (c : Cmd) : Nat := c.f 0 7 0
/-- SEQUENCE (R271). -/
def Cmd.seqNo (c : Cmd) : Nat := c.f 0 31 16
/-- A bit of FLAGS: 8 NO_REPLAY, 9 ORDERED, 10 BARRIER, 11 INTR (R271). -/
def Cmd.flag (c : Cmd) (i : Nat) : Bool := (c.dw 0).getLsbD i
/-- The 48-bit address in dwords i and i + 1 (R276). -/
def Cmd.addr (c : Cmd) (i : Nat) : Nat := (c.dw i).toNat + 2 ^ 32 * c.f (i + 1) 15 0
/-- The 64-bit value in dwords i and i + 1. -/
def Cmd.val64 (c : Cmd) (i : Nat) : Nat := (c.dw i).toNat + 2 ^ 32 * (c.dw (i + 1)).toNat

/-- CODE_BASE of a LAUNCH. -/
def Cmd.codeBase (c : Cmd) : Nat := c.addr 2
/-- CODE_LEN of a LAUNCH. -/
def Cmd.codeLen (c : Cmd) : Nat := (c.dw 5).toNat
/-- GRID_X, GRID_Y, GRID_Z. -/
def Cmd.gridX (c : Cmd) : Nat := (c.dw 6).toNat
/-- GRID_Y. -/
def Cmd.gridY (c : Cmd) : Nat := c.f 7 15 0
/-- GRID_Z. -/
def Cmd.gridZ (c : Cmd) : Nat := c.f 7 31 16
/-- T. -/
def Cmd.threads (c : Cmd) : Nat := c.f 8 10 0
/-- REGS. -/
def Cmd.nregs (c : Cmd) : Nat := c.f 8 20 12
/-- WIDTH_SEL. -/
def Cmd.widthSel (c : Cmd) : Bool := (c.dw 8).getLsbD 21
/-- LMEM in 4 KiB units. -/
def Cmd.lmemUnits (c : Cmd) : Nat := c.f 9 7 0
/-- Blocks of the grid. -/
def Cmd.blocks (c : Cmd) : Nat := c.gridX * c.gridY * c.gridZ

/-- The instruction word at an index of a LAUNCH's code, as its groups fetch it (R119). -/
def Cmd.codeWord (c : Cmd) (i : Nat) : Nat := ofBytes ((upTo 0 8).map (fun j => mget 0 c.code (c.codeBase + 8 * i + j)))
/-- The opcode at an index of a LAUNCH's code. -/
def Cmd.opAt (c : Cmd) (i : Nat) : Nat := (mget (0 : Byte) c.code (c.codeBase + 8 * i + 7)).toNat

/-- The code of a LAUNCH as it stands in memory: writes to it while the command runs are not seen (R119). -/
def State.keepCode (s : State) (c : Cmd) : Cmd :=
  if c.opcode = 1 then
    { c with
      code := s.mem.filter (fun x => decide (c.codeBase ≤ x.1) && decide (x.1 < c.codeBase + 8 * c.codeLen))
      codePoison := s.poison.filter (fun w => decide (c.codeBase / 32 ≤ w) && decide (w * 32 < c.codeBase + 8 * c.codeLen)) }
  else c

/-- The command with an identifier. -/
def State.cmd? (s : State) (cid : Nat) : Option Cmd := s.cmds.find? (fun c => c.cid == cid)

/-- The stack whose command processor serves the command of an identifier (R232, R266). -/
def State.cmdStack (s : State) (cid : Nat) : Nat := ((s.cmd? cid).map s.cpStack).getD 0

/-- Replace a command. -/
def State.setCmd (s : State) (c : Cmd) : State :=
  { s with cmds := s.cmds.map (fun d => if d.cid = c.cid then c else d) }

/-- Change a command. -/
def State.modCmd (s : State) (cid : Nat) (f : Cmd → Cmd) : State :=
  { s with cmds := s.cmds.map (fun d => if d.cid = cid then f d else d) }

/-- Whether a command runs on a core: launched there, its end not acknowledged (R23, R87, R246). -/
def State.commandOn (s : State) (i : Nat) : Bool := s.cmds.any (fun c => c.launched.contains i && !c.acked.contains i)

/-- The host port whose writes a core's registers take: the owner of the partition it serves, else the admin port (R65, R84, R419). -/
def State.coreOwner (s : State) (i : Nat) : Nat := ((s.corePart i).bind s.ownerOf).getD s.boot.cfg.adminPort

/-- A core's record. -/
def State.core (s : State) (i : Nat) : Core := mget Core.idle s.cores i

/-- Set a core's record. -/
def State.setCore (s : State) (i : Nat) (c : Core) : State := { s with cores := mset Core.idle s.cores i c }

/-- Change a core's record. -/
def State.modCore (s : State) (i : Nat) (f : Core → Core) : State := s.setCore i (f (s.core i))

/-- A half's cache record. -/
def State.half (s : State) (h : Nat) : Half := mget Half.empty s.halves h

/-- Set a half's cache record. -/
def State.setHalf (s : State) (h : Nat) (x : Half) : State := { s with halves := mset Half.empty s.halves h x }

/-- Change a half's cache record. -/
def State.modHalf (s : State) (h : Nat) (f : Half → Half) : State := s.setHalf h (f (s.half h))

/-- A device's interface record. -/
def State.mif (s : State) (d : Nat) : Mif := mget Mif.idle s.mifs d

/-- Set a device's interface record. -/
def State.setMif (s : State) (d : Nat) (x : Mif) : State := { s with mifs := mset Mif.idle s.mifs d x }

/-! ## Transposes (R49, R164, R168, R176, R276, R279) -/

/-- Bits of an element of a TRANSPOSE (R276). -/
def xposeBits (elem : Nat) : Nat :=
  match elem with
  | 0 => 4
  | 1 => 8
  | 2 => 16
  | 3 => 32
  | 11 => 4
  | _ => 8

/-- Whether a TRANSPOSE re-blocks MX data. -/
def xposeMx (elem : Nat) : Bool := decide (8 ≤ elem)

/-- Rows of a stored matrix, with the scale rows of an MX one, in the layout of a weight operand (R49, R165). -/
def xposeRows (elem rows : Nat) : Nat := rows + (if xposeMx elem then cdiv rows 32 else 0)

/-- Bytes of row k of a stored matrix. -/
def xposeRowBytes (elem rows cols k : Nat) : Nat := if k < rows then cdiv (cols * xposeBits elem) 8 else cols

/-- Bytes from a matrix's address to the end of its footprint (R279): strides and MX scales included. -/
def matrixSpan (elem rows cols stride : Nat) : Nat :=
  (upTo 0 (xposeRows elem rows)).foldl (fun m k => max m (k * stride + xposeRowBytes elem rows cols k)) 0

/-- The matrices of a TRANSPOSE: element code, rows and columns of the source, its address and stride, the destination's. -/
structure Xpose where
  elem : Nat
  rows : Nat
  cols : Nat
  src : Nat
  sstr : Nat
  dst : Nat
  dstr : Nat
deriving DecidableEq, Repr

/-- The parameters of R276. -/
def Cmd.xpose (c : Cmd) : Xpose :=
  ⟨c.f 8 3 0, (c.dw 6).toNat, (c.dw 7).toNat, c.addr 2, (c.dw 9).toNat, c.addr 4, (c.dw 10).toNat⟩

/-- The bytes of the source by row: address and length. -/
def Xpose.rowsIn (x : Xpose) : List (Nat × Nat) :=
  (upTo 0 (xposeRows x.elem x.rows)).map (fun k => (x.src + k * x.sstr, xposeRowBytes x.elem x.rows x.cols k))

/-- The bytes of the destination by row: address and length. -/
def Xpose.rowsOut (x : Xpose) : List (Nat × Nat) :=
  (upTo 0 (xposeRows x.elem x.cols)).map (fun k => (x.dst + k * x.dstr, xposeRowBytes x.elem x.cols x.rows k))

/-- Bytes of the destination's footprint. -/
def Xpose.span (x : Xpose) : Nat := matrixSpan x.elem x.cols x.rows x.dstr

/-- The pieces of a TRANSPOSE: the 4 KiB chunks in which the destination has bytes, the grain in which addresses are homed (R145, R164,
R179). -/
def Xpose.chunks (x : Xpose) : List Nat :=
  x.rowsOut.foldl (fun m r => (upTo (r.1 / 4096) (cdiv (r.1 + r.2) 4096 - r.1 / 4096)).foldl insNat m) []

/-- The half of the part that homes a piece's destination (R164). -/
def State.xposeHalf (s : State) (i : Nat) : Nat :=
  if i * 4096 < s.extEnd then s.devOf (i * 4096) else siteHalf (winSite (i * 4096))

/-- BUSY and MX of the engines of a half, and XPOSE_BUSY, follow the running TRANSPOSEs with pieces left there (R168, R176). -/
def State.xposeSync (s : State) (h : Nat) : State :=
  let live := s.cmds.filter (fun c => c.opcode == 4 && c.begun && c.phase == .running &&
    c.xpose.chunks.any (fun i => !c.pieces.contains i && s.xposeHalf i == h))
  let mx := live.any (fun c => xposeMx c.xpose.elem)
  [0, 1].foldl (fun s e =>
    let b := live.any (fun c => !(s.half h).xposeBusy.contains (c.cid * 2 + e))
    ((s.wgB (.sc h) (0x2000 + 4 * e) 0 b).wgB (.sc h) (0x2000 + 4 * e) 1 (b && mx)).wgB (.sc h) 0x000 (18 + e) b) s

/-- The transpose engines of every half follow, where a command is a TRANSPOSE. -/
def State.xposeSyncAll (s : State) (c : Cmd) : State :=
  if c.opcode = 4 then (upTo 0 s.devices).foldl State.xposeSync s else s

/-- SC_STATUS.FLUSH_BUSY follows the slices that a LOCALIZE or a rehoming flushes (R168). -/
def State.flushSync (s : State) (h : Nat) : State := s.wgB (.sc h) 0x000 17 (!(s.half h).flushing.isEmpty)

/-- A slice takes requests again, unless its retirement is due or a LOCALIZE flushes it. -/
def State.unstallSlice (s : State) (h sl : Nat) : State :=
  s.modHalf h (fun x => if x.retireDue.contains sl || x.flushing.contains sl then x else { x with stalled := delNat x.stalled sl })

/-- The flush of a LOCALIZE at the slice beneath a site is over: requests go on (R154). -/
def State.flushOver (s : State) (i : Nat) : State :=
  let h := siteHalf i
  let sl := siteSlice i
  ((s.modHalf h (fun x => if x.retireDue.contains sl then x else { x with flushing := delNat x.flushing sl })).unstallSlice h sl).flushSync h

/-- What a command that is over kept busy is free: transpose engines, and slices that a LOCALIZE stalls, whose sites it keeps in retried. -/
def State.freeUnits (s : State) (c : Cmd) : State :=
  let s := s.xposeSyncAll c
  if c.opcode = 0x12 then c.retried.foldl State.flushOver s else s

/-! ## Ending a command (R23, R111, R140, R212, R453) -/

/-- A detail entry that names no thread (R275), with the time of the stack where the event occurs (R359). -/
def Detail.plain (s : State) (stack kind code : Nat) : Detail := ⟨kind, code, 0xFFF, 0, 0, 0, 0, 0xFF, 0, s.timeOf stack⟩

/-- The order of R453 among statuses that fall together. -/
def endRank (status : Nat) : Nat :=
  match status with
  | 0x12 => 0
  | 0x10 => 1
  | 0x13 => 2
  | 0x11 => 3
  | 0x16 => 4
  | 0x14 => 5
  | _ => 6

/-- Whether ending (st1, d1) goes before (st2, d2): earlier device time, then R453's order, then the lowest site and group
slot (R141, R212). -/
def endBefore (st1 : Nat) (d1 : Detail) (st2 : Nat) (d2 : Detail) : Bool :=
  if d1.time ≠ d2.time then decide (d1.time < d2.time)
  else if endRank st1 ≠ endRank st2 then decide (endRank st1 < endRank st2)
  else if d1.site ≠ d2.site then decide (d1.site < d2.site)
  else decide (d1.group < d2.group)

/-- An exception that no reply will name (R141): counted at its core. -/
def State.unreported (s : State) (status : Nat) (d : Detail) : State :=
  if status = 0x10 ∧ d.site < s.sites then s.bump (.cntCore d.site) 0x094 1 else s

/-- Issue stops for every block of a command on every core (R111 step 1). -/
def State.stopBlocks (s : State) (cid : Nat) : State :=
  { s with cores := s.cores.map (fun e => (e.1, { e.2 with
      blocks := e.2.blocks.map (fun b => (b.1, if b.2.cid = cid then { b.2 with stopped := true } else b.2)) })) }

/-- SC_ORED_STATUS and SC_STATUS.ORED_ACTIVE follow the staging store (R168, R171). -/
def State.oredSync (s : State) (h : Nat) : State :=
  let n := (s.half h).staged.length
  (s.wgF (.sc h) 0x014 16 0 n).wgB (.sc h) 0x000 20 (decide (0 < n))

/-- Staged ordered contributions are discarded (R162, R163). -/
def State.dropStaged (s : State) (p : Staged → Bool) : State :=
  ((s.halves.filter (fun e => e.2.staged.any p)).map (·.1)).foldl (fun t h =>
    (t.modHalf h (fun x => { x with staged := x.staged.filter (fun y => !p y) })).oredSync h) s

/-- A command is set to end with a status and a detail entry; issue of its blocks stops and no further block is placed, nor placed again
(R111, R115). A second ending event stands only if it goes before the first (R453). -/
def State.endCmd (s : State) (cid status : Nat) (d : Detail) : State :=
  match s.cmd? cid with
  | none => s
  | some c =>
    let go (t : State) : State :=
      let t := t.stopBlocks cid
      let t := if status = 0x13 then t.dropStaged (fun x => x.cid == cid) else t
      (t.setCmd { c with phase := .ending, status := status, detail := some d, replay := [] }).freeUnits c
    match c.phase with
    | .accepted => go s
    | .running => go s
    | .ending =>
      match c.detail with
      | none => s
      | some old =>
        if endBefore status d c.status old then go (s.unreported c.status old) else s.unreported status d
    | _ => s

/-- A command other than a LAUNCH, or a refused one, comes to its end with a status and a RESULT (R275 KIND 6). -/
def State.finish (s : State) (cid status result : Nat) : State :=
  s.modCmd cid (fun c =>
    match c.phase with
    | .accepted => { c with phase := .ending, status := status, result := result }
    | .running => { c with phase := .ending, status := status, result := result }
    | _ => c)

/-- A command ends with UNRECOVERED, with the lowest reason (R386); `other` is the other site of the fault, for the trace. -/
def State.unrecoveredBy (s : State) (cid code site other : Nat) : State :=
  match s.cmd? cid with
  | none => s
  | some c =>
    let d : Detail := { Detail.plain s (if site < s.sites then siteStack site else s.cpStack c) 5 code with site := site }
    match c.phase with
    | .ending =>
      if c.status = 0x15 then
        s.setCmd { c with detail := c.detail.map (fun o => if code < o.code then { o with code := code } else o) }
      else s
    | .bounded => s
    | .replied => s
    | _ =>
      let t := (s.stopBlocks cid).setCmd { c with phase := .ending, status := 0x15, detail := some d, replay := [] }
      (t.freeUnits c).traceCoppice (s.cpStack c) (some c.part) 8 4 site other

/-- A command ends with UNRECOVERED for a fault that has no other site. -/
def State.unrecovered (s : State) (cid code site : Nat) : State := s.unrecoveredBy cid code site 0xFFF

/-! ## Blocks on cores -/

/-- The debug site registers of a site (R433). -/
def dbgOff (i : Nat) : Nat := 0x4000 + 0x60 * siteN i

/-- Groups that leave their slots are halted no more, and a step that waits for one of them is dropped (R434). -/
def State.unhalt (s : State) (site : Nat) (slots : List Nat) : State :=
  let b := Blk.dbg (siteStack site)
  let o := dbgOff site
  let s := slots.foldl (fun t k => t.wgB b (o + 0x08 + k / 32 * 4) (k % 32) false) s
  if slots.contains (s.rgF b o 9 4) then s.wgB b o 2 false else s

/-- Every halt of a core is released, with a step that waits, and its breakpoints are disabled (R431, R435). -/
def State.dropHalts (s : State) (site : Nat) : State :=
  let b := Blk.dbg (siteStack site)
  let o := dbgOff site
  (upTo 0 8).foldl (fun t i => t.wgB b (o + 0x10 + 4 * i) 20 false)
    (((s.wgB b o 2 false).wg b (o + 0x08) 0).wg b (o + 0x0C) 0)

/-- The groups of a block on a core. -/
def Core.groupsOf (c : Core) (b : Nat) : List (Nat × Group) := c.groups.filter (fun g => g.2.blk == b)

/-- Whether a request has its answer (R252). -/
def Req.ended (r : Req) : Bool := r.state == .ready || r.state == .answered

/-- Whether a request is a control message (R250). -/
def Req.isOrder (r : Req) : Bool := match r.kind with | .order _ => true | _ => false

/-- A request whose answer has been used: a read that went out once, or a control message, is over; any other is kept until its record is
released (R248). -/
def Req.over (r : Req) : Option Req :=
  if r.remote.isSome || r.isOrder || (r.kind == .read && r.attempt == 0) then none
  else some { r with state := .answered, dest := none, line := [], lpois := [] }

/-- Requests of groups in the slots given at a site answer nobody from now on; their effects at their places stand
(R111 step 2, R374 step 2). -/
def State.orphanReqs (s : State) (site : Nat) (slots : List Nat) : State :=
  { s with net := { s.net with reqs := s.net.reqs.map (fun r =>
      if r.site = site ∧ slots.contains r.slot then { r with dest := none, fillL1 := false, slot := 64 } else r) } }

/-- Requests of a core's engines for a block likewise; their answers that have come go (R374, R381). -/
def State.orphanEngines (s : State) (site cid lin : Nat) : State :=
  let ours (r : Req) : Bool := r.site == site && r.cid == cid && r.lin == lin && decide (64 < r.slot) && decide (r.slot < 71)
  { s with net := { s.net with reqs := s.net.reqs.filterMap (fun r =>
      if ours r then (if r.state = .ready then r.over else some r).map (fun q => { q with dest := none, slot := 64 }) else some r) } }

/-- CNT_PLACEk of a core (R182, R419). The size field has seven bits: a block of all 128 units shows 0 there (DESIGN CHOICE, log entry
130). -/
def State.setPlace (s : State) (site k base units : Nat) (valid : Bool) : State :=
  s.wg (.cntCore site) (0x200 + 4 * k) (BitVec.ofNat 32 (base % 128 + units % 128 * 256 + (if valid then 32768 else 0)))

/-- ARR_STATUS follows the array (R64). -/
def State.arrSync (s : State) (site : Nat) : State := s.wg (.arr site) 0x000 (s.core site).arr.status

/-- ESP_STATUS follows the espalier (R85), and START reads 1 while a host's load is pending (R6, R8). -/
def State.espSync (s : State) (site : Nat) : State :=
  let e := (s.core site).esp
  let img := (e.active.bind (fun i => nth none e.slots i)).map (·.bytes)
  (s.wgB (.esp site) 0x010 0 ((e.load.toList ++ e.waiting).any (fun l => l.group.isNone))).wg (.esp site) 0x000
    (BitVec.ofNat 32 ((if e.busy then 1 else 0) + (if e.load.isSome then 2 else 0) +
    (if (nth none e.slots 0).isSome then 4 else 0) + (if (nth none e.slots 1).isSome then 8 else 0) +
    (e.active.getD 0) * 16 + ((img.map imgStages).getD 0) * 256 + ((img.map imgOut).getD 0) * 65536))

/-- Change the array of a core, with its status. -/
def State.modArr (s : State) (site : Nat) (f : Array → Array) : State :=
  (s.modCore site (fun k => { k with arr := f k.arr })).arrSync site

/-- Change the espalier of a core, with its status. -/
def State.modEsp (s : State) (site : Nat) (f : Esp → Esp) : State :=
  (s.modCore site (fun k => { k with esp := f k.esp })).espSync site

/-- The slots an image load may write: neither active nor bound to an unfinished tile (R78). -/
def Core.espFree (k : Core) : List Nat :=
  (upTo 0 2).filter (fun i => k.esp.active != some i && k.arr.tiles.all (fun t => t.image != some i))

/-- The next waiting load starts when none runs and a slot is free (R78). -/
def Core.espNext (k : Core) : Core :=
  match k.esp.load, k.esp.waiting, k.espFree with
  | none, l :: ls, i :: _ => { k with esp := { k.esp with load := some { l with slot := i }, waiting := ls } }
  | _, _, _ => k

/-- Take a block off a core, with its groups, tiles, image loads and copies (R285 step 3, R374 step 1): what waited for the room they
leave goes on (R57, R78, R85). -/
def State.dropBlock (s : State) (site b : Nat) : State :=
  let c := s.core site
  let slots := (c.groupsOf b).map (·.1)
  let a := c.arr
  let gone := (a.tiles.filter (fun t => t.blk == b)).map (·.num)
  let arr : Array := { a with
    tiles := a.tiles.filter (fun t => t.blk != b)
    stage := a.stage.filter (fun x => !gone.contains x.1)
    pass := a.pass.filter (fun x => !gone.contains x.1)
    drain := a.drain.filter (fun x => !gone.contains x.1)
    banks := a.banks.map (fun k => k.filter (fun x => !gone.contains x.tile))
    starved := a.starved && a.stage.any (fun x => !gone.contains x.1)
    arrived := a.arrived || a.drainFrozen }
  let ours (l : EspLoad) : Bool := match l.group with | some g => slots.contains g | none => false
  let esp : Esp := { c.esp with
    load := c.esp.load.filter (fun l => !ours l)
    waiting := c.esp.waiting.filter (fun l => !ours l)
    busy := arr.banks.any (fun k => match k with
      | some x => x.writing && arr.tiles.any (fun t => t.num == x.tile && t.desc.esp)
      | none => false) }
  let c := { c with
    groups := c.groups.filter (fun g => g.2.blk != b)
    blocks := merase c.blocks b
    arr := arr
    esp := esp
    dma := c.dma.filter (fun j => j.blk != b)
    commit := c.commit.filter (fun x => x.blk != b) }.espNext
  let s := match mfind (s.core site).blocks b with | some x => s.orphanEngines site x.cid x.lin | none => s
  (((((s.setCore site c).orphanReqs site slots).unhalt site slots).setPlace site b 0 0 false).arrSync site).espSync site

/-- Whether a fault now falls between the first and the last write of an accumulate strip of a block (R386 CODE 3). -/
def Core.midAccStrip (c : Core) (b : Nat) : Bool :=
  c.arr.banks.any (fun k =>
    match k with
    | some x => x.writing && c.arr.tiles.any (fun t =>
        t.num == x.tile && t.blk == b && t.desc.acc && t.desc.out.space != 0)
    | none => false)

/-- Whether an access is still to be performed (R23, R381): one to another part until that part has answered. -/
def Req.open_ (r : Req) : Bool :=
  !r.isOrder &&
    match r.state with
    | .performed => r.remote.isSome
    | .ready => false
    | .answered => false
    | _ => true

/-- Whether an access that a block of a core issued is still to be performed (R381). -/
def State.openAt (s : State) (site cid lin : Nat) : Bool :=
  s.net.reqs.any (fun r => r.site == site && r.cid == cid && r.lin == lin && r.open_)

/-- Whether a block has performed an atomic at a home slice or window, or a remote atomic or reduction, or has one on its way, which completes
whatever becomes of the block (R374 step 2, R386 CODE 6). -/
def State.unrepeatable (s : State) (site : Nat) (b : Block) : Bool :=
  b.didAtomic || s.net.reqs.any (fun r => r.site == site && r.cid == b.cid && r.lin == b.lin && r.open_ && r.state != .queued &&
    (match r.kind with
     | .atomic _ => true
     | .reduce _ => r.remote.isSome
     | _ => false))

/-- The reason of R386 other than CODE 1 that forbids the replay of a block, if one does; one that has exited has no slot. -/
def State.blockReason (s : State) (site : Nat) (bs : Option Nat) (b : Block) : Option Nat :=
  if (bs.map (s.core site).midAccStrip).getD false then some 3
  else if s.unrepeatable site b then some 6
  else if 3 ≤ b.replays then some 9
  else none

/-- The espalier images that unfinished tiles of a block have bound, in tile order (R79, R83). -/
def Core.boundImages (k : Core) (b : Nat) : List Image :=
  ((k.arr.tiles.filterMap (fun t => if t.blk == b && t.desc.esp then t.image else none)).eraseDups).filterMap (fun i => nth none k.esp.slots i)

/-- An image as its source holds it while the core still has it (R83): one from local memory is read there now, none of it where a word is
poisoned. -/
def State.imageSource (s : State) (site : Nat) (im : Image) : Image :=
  let a := lmemBase + site * 0x80000 + im.addr
  if im.space ≠ 0 then im
  else { im with bytes := if s.poisoned a im.bytes.length then [] else s.bytes a im.bytes.length }

/-- The ordered contributions of a block are discarded, staged ones and those still on their way (R162). -/
def State.dropOrdered (s : State) (cid lin : Nat) : State :=
  let way (r : Req) : Bool := r.cid == cid && r.lin == lin && r.red.isSome && r.state != .performed && !r.ended
  let gone := (s.net.reqs.filter way).map (·.rid)
  let s := s.dropStaged (fun x => x.cid == cid && x.lin == lin)
  { s with net := { s.net with
    reqs := s.net.reqs.filter (fun r => !way r), packets := s.net.packets.filter (fun k => !gone.contains k.rid) } }

/-- Requests that wait for a tag of their core never leave it (R374 step 1): all of a core, or those of one block that runs again. What a
commit point has released does leave (R383). -/
def State.dropQueued (s : State) (site : Nat) (which : Req → Bool) : State :=
  { s with net := { s.net with
    reqs := s.net.reqs.filter (fun r => !(r.site == site && r.state == .queued && r.tag != 5 && which r)) } }

/-- A block leaves its core to be replayed (R381): it keeps its commit mark and the images to reload (R83), its ordered contributions go
(R162, R171), and accesses that it has not injected; one that has exited has no slot. `ate` tells of the poison that it consumed, if it did. -/
def State.takeForReplay (s : State) (site : Nat) (bs : Option Nat) (b : Block) (ate : Option Detail) : State :=
  let b := match (bs.map (s.core site).boundImages).getD [] with
    | [] => b
    | ims => { b with images := ims.map (s.imageSource site) }
  let s := s.dropQueued site (fun r => r.cid == b.cid && r.lin == b.lin)
  let s := (match bs with | some k => s.dropBlock site k | none => s).dropOrdered b.cid b.lin
  let b := { b with replays := b.replays + 1, poisonReplayed := b.poisonReplayed || ate.isSome, ate := ate }
  s.modCmd b.cid (fun c => { c with
    replay := c.replay ++ [(b.lin, b)], exited := c.exited.filter (fun e => e.2.lin != b.lin) })

/-- A block consumes poison (R212, R387): it is replayed once where nothing forbids it, else its command ends with POISON_CONSUMED. -/
def State.consumeBlock (s : State) (site : Nat) (bs : Option Nat) (b : Block) (d : Detail) : State :=
  match s.cmd? b.cid with
  | none => s
  | some c =>
    if !c.flag 8 && !b.poisonReplayed && (s.blockReason site bs b).isNone && c.phase == .running then s.takeForReplay site bs b (some d)
    else s.endCmd b.cid 0x12 d

/-- What a consumption by a thread tells (R275 KIND 3). -/
def State.ateBy (s : State) (site slot bs lane index : Nat) : Detail :=
  ⟨3, 0, site, slot, bs, lane, index, 0xFF, 0, s.timeOf (siteStack site)⟩

/-- A thread of a block consumes poison (R212, R387). -/
def State.consumeThread (s : State) (site slot bs : Nat) (b : Block) (lane index : Nat) : State :=
  s.consumeBlock site (some bs) b (s.ateBy site slot bs lane index)

/-- Blocks of a command that have exited are complete once every access that they issued has been performed, and with the last of them the
command comes to its end (R23, R381, R419). -/
def State.settle (s : State) (cid : Nat) : State :=
  match s.cmd? cid with
  | none => s
  | some c =>
    let done := c.exited.filter (fun e => !s.openAt e.1 cid e.2.lin)
    if done = [] then s
    else
      let c := { c with exited := c.exited.filter (fun e => s.openAt e.1 cid e.2.lin), blocksDone := c.blocksDone + done.length }
      let s := done.foldl (fun t e => t.bump (.cntCore e.1) 0x098 1) (s.setCmd c)
      if c.phase = .running ∧ c.blocks ≤ c.blocksDone ∧ c.replay = [] then s.finish cid 0 0 else s

/-- A port, or a unit that names no thread, consumes poison for a command (R211, R212). -/
def State.consumePort (s : State) (cid port : Nat) : State :=
  s.endCmd cid 0x12 { Detail.plain s (s.cmdStack cid) 3 0 with port := port }

/-! ## Local-memory placement (R90, R182) -/

/-- Whether the run of n units from u is free of every block. -/
def runFree (bs : List Block) (u n : Nat) : Bool :=
  bs.all (fun b => decide (u + n ≤ b.lmemBase) || decide (b.lmemBase + b.lmemUnits ≤ u) || decide (b.lmemUnits = 0))

/-- The lowest-addressed free run of n units of the 128 (R182). -/
def lmemRun (bs : List Block) (n : Nat) : Option Nat := (upTo 0 (129 - n)).find? (fun u => runFree bs u n)

/-- Device address of byte off of a block's local memory (R182). -/
def lmemAddr (site : Nat) (b : Block) (off : Nat) : Nat := lmemBase + site * 0x80000 + b.lmemBase * 4096 + off

end Sys2Proof.Machine
end

