-- ==== Sys2Proof/Machine/Route.lean ====
section
/-! DEFINITION. Routes of the network: rows, columns, layers, stacks, bypassed elements and override entries, held crossings (R231, R232,
R235 to R239, R243, R258, R259). -/

namespace Sys2Proof.Machine

/-- The number by which a failed link is named among bypassed elements; a router is named by its site. -/
def linkNo (a b : Nat) : Nat := 2 ^ 24 + a * 4096 + b

/-- The site at which an element of the mesh lies. -/
def elemSite (e : Nat) : Nat := if e < 2 ^ 24 then e else (e - 2 ^ 24) / 4096

/-- The place of a stack in the grid: column and row (R17). -/
def State.gridPos (s : State) (t : Nat) : Nat × Nat :=
  let w := if s.stacks = 8 then 4 else 2
  (t % w, t / w)

/-- The next stack on the way to a stack (R236, R258). -/
def State.nextStack (s : State) (t d : Nat) : Option Nat :=
  let e := s.rgF (.msh t) 0x400 (4 * d + 3) (4 * d)
  if 8 ≤ e then some (e % 8) else none

/-- The edge router of a stack from which a packet to site dest goes over the link to stack u, and the router it reaches
there (R231). -/
def State.lane (s : State) (t u dest : Nat) : Nat × Nat :=
  let (x, y) := s.gridPos t
  let (x', y') := s.gridPos u
  let l := siteLayer dest * 256
  let row := siteRow dest * 16
  let col := siteCol dest
  if x < x' then (t * 512 + l + row + 15, u * 512 + l + row)
  else if x' < x then (t * 512 + l + row, u * 512 + l + row + 15)
  else if y < y' then (t * 512 + l + 240 + col, u * 512 + l + col)
  else (t * 512 + l + col, u * 512 + l + 240 + col)

/-- One step along a column or a row toward a router of the same layer and stack. -/
def toward (i d : Nat) (rowFirst : Bool) : Nat :=
  let along : Nat := if siteCol i < siteCol d then i + 1 else i - 1
  let down : Nat := if siteRow i < siteRow d then i + 16 else i - 16
  if rowFirst then (if siteCol i ≠ siteCol d then along else down)
  else (if siteRow i ≠ siteRow d then down else along)

/-- The next router of a packet within a stack: the layer first, then row first, or column first on a detour (R235, R237,
R247). -/
def hopIn (i d : Nat) (detour : Bool) : Nat :=
  if siteLayer i ≠ siteLayer d then (if siteLayer i = 0 then i + 256 else i - 256) else toward i d (!detour)

/-- The next router of a packet while nothing is bypassed. -/
def State.nextHop (s : State) (i d : Nat) (detour : Bool) : Option Nat :=
  if siteStack i = siteStack d then some (hopIn i d detour)
  else
    (s.nextStack (siteStack i) (siteStack d)).map (fun u =>
      let (e, f) := s.lane (siteStack i) u d
      if i = e then f else hopIn i e detour)

/-- The output of a router toward another, in the coding of R259; 5 is the outer port. -/
def outputTo (i j : Nat) : Nat :=
  if siteStack i ≠ siteStack j then 5 else if siteLayer i ≠ siteLayer j then 4
  else if siteCol i < siteCol j then 2 else if siteCol j < siteCol i then 3 else if siteRow j < siteRow i then 0 else 1

/-- The router that an exit of R259 leads to, where there is one. -/
def exitTo (i exit : Nat) : Option Nat :=
  match exit with
  | 0 => if siteRow i = 0 then none else some (i - 16)
  | 1 => if siteRow i = 15 then none else some (i + 16)
  | 2 => if siteCol i = 15 then none else some (i + 1)
  | 3 => if siteCol i = 0 then none else some (i - 1)
  | 4 => some (if siteLayer i = 0 then i + 256 else i - 256)
  | _ => none

/-- The exit by the first override entry of a router that a destination meets (R237, R259). -/
def State.override (s : State) (i d : Nat) : Option Nat :=
  if s.net.bypassed.isEmpty then none
  else
    (upTo 0 8).findSome? (fun k =>
      let w := s.rg (.router i) (0x040 + 4 * k)
      if w.getLsbD 0 && (BitVec.ofNat 12 d &&& BitVec.ofNat 12 (getF 24 13 w)) == (BitVec.ofNat 12 (getF 12 1 w) &&&
          BitVec.ofNat 12 (getF 24 13 w)) then exitTo i (getF 27 25 w) else none)

/-- Whether the way from router i to j is bypassed. -/
def State.blocked (s : State) (i j : Nat) : Bool := s.net.bypassed.contains j || s.net.bypassed.contains (linkNo i j)

/-- The router beside i off the line from i to j, toward rising numbers where there is one. -/
def beside (i j : Nat) : Nat :=
  if siteLayer i ≠ siteLayer j ∨ siteCol i = siteCol j then (if siteCol i = 15 then i - 1 else i + 1)
  else (if siteRow i = 15 then i - 16 else i + 16)

/-- The way round a bypassed element straight ahead within a stack, from router i: beside i, past the element, and back on the line (R237: two
hops more). Where the element lies across a vertical link, only beside i. -/
def goRound (i j : Nat) (router : Bool) : List Nat :=
  if siteLayer i ≠ siteLayer j then [beside i j]
  else
    let back (x : Nat) : Nat := x + beside i j - i
    if router then [back i, back j, back (j + j - i), j + j - i] else [back i, back j, j]

/-- The way round a lane of a stack link whose routers are e and f (R231, R237): from router i, e itself or one before it, over the lane beside,
one row or one column on along the edge. No override entry names such a way (DESIGN CHOICE, log entry 122). -/
def laneRound (i e f : Nat) : List Nat :=
  let on (x : Nat) : Nat :=
    if siteCol e = siteCol f then (if siteCol e = 15 then x - 1 else x + 1) else (if siteRow e = 15 then x - 16 else x + 16)
  if i = e then [on e, on f]
  else if i = on e then [on f]
  else if siteCol e = siteCol f ∧ siteRow i = siteRow e ∨ siteCol e ≠ siteCol f ∧ siteCol i = siteCol e then [f + i - e]
  else [on i, on e, on f]

/-- The way round a bypassed element before router j on the way from i to d. -/
def State.wayRound (s : State) (i j d : Nat) : List Nat :=
  let round := goRound i j (s.net.bypassed.contains j)
  if siteStack i = siteStack d then round
  else
    match s.nextStack (siteStack i) (siteStack d) with
    | none => []
    | some u =>
      let (e, f) := s.lane (siteStack i) u d
      if i = e ∨ (j = e ∧ s.net.bypassed.contains e = true) then laneRound i e f else round

/-- Where a packet goes next: router, whether it is on a detour from there on, and the routers that its way round an element still
names. An override that its destination meets comes first; at a bypassed element without one it goes column first, and where that is
bypassed too, round it (R235, R237, R259; log entry 122). -/
def State.route (s : State) (i d : Nat) (detour : Bool) (via : List Nat) : Option (Nat × Bool × List Nat) :=
  match via with
  | j :: rest => some (j, true, rest)
  | [] =>
    match s.override i d with
    | some j => some (j, true, [])
    | none =>
      match s.nextHop i d detour with
      | none => none
      | some j =>
        if !s.blocked i j then some (j, detour, [])
        else
          match s.nextHop i d (!detour) with
          | some k =>
            if !s.blocked i k then some (k, true, [])
            else
              (match s.wayRound i j d with
               | k :: rest => some (k, true, rest)
               | [] => none)
          | none => none

/-- Whether the link from router i to j crosses between the halves of a stack (R239). -/
def pleach (i j : Nat) : Bool := siteStack i == siteStack j && siteHalf i != siteHalf j

/-- Whether the crossing on the link from i to j is held for a change of mode (R239). -/
def State.heldCrossing (s : State) (i j : Nat) : Bool :=
  pleach i j && ((mfind s.net.crossing (siteHalf i)).isSome || (mfind s.net.crossing (siteHalf j)).isSome)

/-- The links of a route from router i to d: at most 256 routers. -/
def State.path (s : State) : Nat → Nat → Nat → Bool → List Nat → List (Nat × Nat)
  | 0, _, _, _, _ => []
  | f + 1, i, d, detour, via =>
    if i = d then []
    else
      match s.route i d detour via with
      | none => []
      | some (j, q, rest) => (i, j) :: State.path s f j d q rest

/-- The number of the output of router i toward j among the counts of class-0 flits: stack links apart by the stack they lead to. -/
def c0Key (i j : Nat) : Nat := (if siteStack i = siteStack j then 0 else 65536 * (1 + siteStack j)) + i * 8 + outputTo i j

/-- Class-0 flits leave router i for j in the present window (R243). -/
def State.addC0 (s : State) (i j n : Nat) : State :=
  let key := c0Key i j
  { s with net := { s.net with c0 := mput s.net.c0 key (mget 0 s.net.c0 key + n) } }

/-- The attach router of a stack's port on a layer (R232, R258): number 0 is the controller, then the host ports and the fabric ports of the
stack. A port's accesses enter and leave by the lower of its two routers (DESIGN CHOICE, log entry 149). -/
def State.attach (s : State) (t n layer : Nat) : Nat :=
  let count := s.rgF (.msh t) 0x438 4 0 / 2
  let e := layer * count + (if n = 0 then 0 else 2 * n - 1)
  s.rgF (.msh t) (0x410 + 4 * (e / 2)) (16 * (e % 2) + 11) (16 * (e % 2))

end Sys2Proof.Machine
end

