-- ==== Sys2Proof/Machine/Access.lean ====
section
/-! DEFINITION. Accesses to memory: classes and budgets (R240, R241), the stacked cache's lines, misses and victims (R143 to
R161), context translation (R196), and what an access does at its place (R132, R133, R160, R185, R210). -/

namespace Sys2Proof.Machine

/-! ## Classes and budgets (R240, R241) -/

/-- A class field of MSH_CLASS_TABLEp at a stack: lo is 0 LS, 3 FEED, 6 DRAIN, 9 DMA, 12 HOST, 15 FABRIC, 18 CP. -/
def State.classField (s : State) (stack p lo : Nat) : Nat := s.rgF (.msh stack) (0x100 + 4 * p) (lo + 2) lo

/-- Count u units for a master and give the class that carries the request; the first excess of a window is counted in the
master's budget counter (R241). -/
def State.inject (s : State) (key cls budget u : Nat) (drop : Blk × Nat) : State × Nat :=
  let n := mget 0 s.net.units key
  let exceeds := decide (budget ≠ 0xFFFF) && (decide (budget = 0) || decide (budget < n))
  let s := { s with net := { s.net with units := mset 0 s.net.units key (n + u) } }
  let s := if decide (budget ≠ 0xFFFF) && decide (n ≤ budget) && decide (budget < n + u) then s.bump drop.1 drop.2 1 else s
  (s, if exceeds then 7 else cls)

/-- A request of a core master m (0 LS, 1 FEED, 2 DRAIN, 3 DMA) of partition p moves n bytes (R240, R241, R253, R257). -/
def State.coreInject (s : State) (site p m n : Nat) : State × Nat :=
  let t := siteStack site
  let s := { s with net := { s.net with unitUse := mput s.net.unitUse (site * 4 + m) s.time.now } }
  let o := 0x200 + 8 * p + m / 2 * 4
  let budget := s.rgF (.msh t) o (m % 2 * 16 + 15) (m % 2 * 16)
  s.inject (site * 4 + m) (s.classField t p (3 * m)) budget (cdiv n 64) (.router site, 0x108 + 4 * m)

/-! ## Tags (R252, R253) -/

/-- The unit of a core that a request's slot names: 0 load/store, 1 array feeder, 2 array drain, 3 DMA engine. -/
def unitOf (slot : Nat) : Nat := if slot ≤ 64 then 0 else if slot = 67 ∨ slot = 68 then 2 else if slot = 69 then 3 else 1

/-- The tags of a reserve: those of the units, and 4 class 0 (R252). -/
def tagSize (k : Nat) : Nat := if k = 2 ∨ k = 4 then 32 else 64

/-- The tags of a reserve that no request in flight holds. -/
def State.tagFree (s : State) (site k : Nat) : Nat :=
  tagSize k - s.net.reqs.countP (fun r => r.site == site && r.tag == k && !r.ended)

/-- Whether a unit of a core has had no request in flight for 1 µs (R253). -/
def State.unitIdle (s : State) (site v : Nat) : Bool :=
  s.net.reqs.all (fun r => !(r.site == site && unitOf r.slot == v && !r.ended)) &&
    (match mfind s.net.unitUse (site * 4 + v) with | none => true | some t => decide (t + 250 ≤ s.time.now))

/-- The tags that a unit may borrow from the idle ones. -/
def State.tagsLent (s : State) (site v : Nat) : Nat :=
  (upTo 0 4).foldl (fun n k => if k ≠ v ∧ s.unitIdle site k = true then n + s.tagFree site k else n) 0

/-- The reserve whose tag a request of a unit takes: its own first, then for class 0 the class-0 reserve, for the others that of an idle
unit (R253). -/
def State.tagOf (s : State) (site v cls : Nat) : Option Nat :=
  if 0 < s.tagFree site v then some v
  else if cls = 0 then (if 0 < s.tagFree site 4 then some 4 else none)
  else (upTo 0 4).find? (fun k => k != v && s.unitIdle site k && decide (0 < s.tagFree site k))

/-- How many of a unit's next n requests of u units each for a partition its core carries in class 0: none where the class is another, else
those that find the window's budget not exceeded (R240, R241). -/
def State.classZero (s : State) (site p v n u : Nat) : Nat :=
  let t := siteStack site
  let budget := s.rgF (.msh t) (0x200 + 8 * p + v / 2 * 4) (v % 2 * 16 + 15) (v % 2 * 16)
  let used := mget 0 s.net.units (site * 4 + v)
  if s.classField t p (3 * v) ≠ 0 then 0
  else if budget = 0xFFFF then n
  else if budget = 0 ∨ budget < used then 0
  else min n ((budget - used) / u + 1)

/-- Whether n requests of u units each, of a unit for a partition, find tags: the unit's own first, then for those of class 0 the class-0
reserve and for the others what idle units lend (R252, R253). -/
def State.tagsHold (s : State) (site p v n u : Nat) : Bool :=
  let own := s.tagFree site v
  let c0 := s.classZero site p v n u - own
  decide (c0 ≤ s.tagFree site 4) && decide (n - own - c0 ≤ s.tagsLent site v)

/-- A requester stalls from now on (R252). -/
def State.stall (s : State) (who : Staller) (on : StallOn) : State :=
  { s with net := { s.net with stalls := s.net.stalls.filter (fun x => x.1 != who) ++ [(who, on)] } }

/-- A requester stalls no more. -/
def State.unstall (s : State) (who : Staller) : State :=
  { s with net := { s.net with stalls := s.net.stalls.filter (fun x => x.1 != who) } }

/-- A request of a host port for partition p (R240, R257). -/
def State.hostInject (s : State) (port p n : Nat) : State × Nat :=
  let (t, k) := s.part.grade.hostPort port
  s.inject (100000 + port) (s.classField t p 12) (s.rgF (.msh t) (0x300 + 4 * k) 15 0) (cdiv n 64) (.msh t, 0x800 + 4 * k)

/-- A request of a fabric port for partition p (R240, R257, R297). -/
def State.fabInject (s : State) (port p n : Nat) : State × Nat :=
  let t := port / 2
  s.inject (101000 + port) (s.classField t p 15) (s.rgF (.msh t) (0x310 + 4 * (port % 2)) 15 0) (cdiv n 64)
    (.msh t, 0x810 + 4 * (port % 2))

/-- The processor that serves the queues of processor i of a stack: itself, or the one that has taken over (R373). -/
def State.processor (s : State) (t i : Nat) : Nat := mget i s.host.cpMap (t * 4 + i)

/-- The processor to which the queue of a command belongs, by stack × 4 + number (R266). -/
def State.homeCp (s : State) (c : Cmd) : Nat := (s.part.grade.hostPort c.port).1 * 4 + c.queue % 4

/-- A data access of the command processor that serves the queues of a processor, for partition p (R240, R257, R266). -/
def State.cpInject (s : State) (home p n : Nat) : State × Nat :=
  let t := home / 4
  let q := s.processor t (home % 4)
  s.inject (102000 + t * 4 + q) (s.classField t p 18) (s.rgF (.msh t) (0x320 + 4 * q) 15 0) (cdiv n 64)
    (.msh t, 0x820 + 4 * q)

/-- Whether a request is for a slice or the window beneath it. -/
def Req.atSlice (r : Req) : Bool := r.remote.isNone && decide (r.addr < lmemBase)

/-- A request of a master of n bytes is injected: its class (R240, R241). A control message counts in the budget of its processor and stays in
class 0 (R240, R257); a half's own requests take the class that they carry. -/
def State.injectFor (s : State) (r : Req) (n : Nat) : State × Nat :=
  if r.slot ≤ 70 then s.coreInject r.site r.part (unitOf r.slot) n
  else if r.isOrder then ((s.cpInject (r.lane % 64) r.part n).1, 0)
  else if r.slot = 71 then s.cpInject (r.lane % 64) r.part n
  else if r.slot = 72 then s.hostInject r.lane r.part n
  else if r.slot = 73 then s.fabInject r.lane r.part n
  else (s, r.cls)

/-! ## Lines of the stacked cache -/

/-- The base key of a set: (slice × 2,048 + set) × 16. -/
def setKey (sl set : Nat) : Nat := (sl * 2048 + set) * 16

/-- Allocation policy of a class (R150, R171). -/
def State.policy (s : State) (h cls : Nat) : Nat := s.rgF (.sc h) 0x010 (2 * cls + 1) (2 * cls)

/-- The way mask of a partition in a half (R151, R172). -/
def State.wayMask (s : State) (h p : Nat) : W32 := s.rg (.sc h) (0x040 + 4 * p)

/-- The way that holds a line in a set, with the line. -/
def Half.find (x : Half) (base line : Nat) : Option (Nat × Line) :=
  (upTo base 16).findSome? (fun k =>
    match mfind x.lines k with
    | some l => if l.line = line then some (k, l) else none
    | none => none)

/-- The sectors that [a, a + n) of one line touches, as a bit mask (R143, R145). -/
def sectorMask (a n : Nat) : BitVec 4 :=
  (upTo 0 4).foldl (fun m i =>
    let lo := a / 256 * 256 + 64 * i
    if a < lo + 64 ∧ lo < a + n then m ||| ((1 : BitVec 4) <<< i) else m) 0

/-- The sectors that [a, a + n) covers whole (R146). -/
def wholeMask (a n : Nat) : BitVec 4 :=
  (upTo 0 4).foldl (fun m i =>
    let lo := a / 256 * 256 + 64 * i
    if a ≤ lo ∧ lo + 64 ≤ a + n then m ||| ((1 : BitVec 4) <<< i) else m) 0

/-- How many of four sectors a mask names. -/
def sectorCount (m : BitVec 4) : Nat := (upTo 0 4).countP (fun i => m.getLsbD i)

/-- The candidate ways of a set (R147): in the mask, holding no pinned line and none with a fill or an access pending; while
writes to the device are held, none that holds a dirty line (R312). -/
def Half.candidates (x : Half) (base : Nat) (mask : W32) (hold : Bool) : List Nat :=
  (upTo base 16).filter (fun k => mask.getLsbD (k - base) &&
    (match mfind x.lines k with
     | some l => !l.pinned && x.misses.all (fun m => m.line != l.line) && (!hold || decide (l.dirty = 0))
     | none => true))

/-- The loop of R147 on candidate ways: the victim way, the lines after ageing, the age count. Twelve rounds are enough: a
demoted line ages once in four. -/
def pickVictim : Nat → Map Line → List Nat → Nat → Option (Nat × Map Line × Nat)
  | 0, _, _, _ => none
  | f + 1, ls, cs, age =>
    match cs.find? (fun k => match mfind ls k with | some l => decide (3 ≤ l.rrv) | none => false) with
    | some k => some (k, ls, age)
    | none =>
      let age := (age + 1) % 4
      pickVictim f (cs.foldl (fun m k => mmod m k (fun l =>
        if !l.demoted || age = 0 then { l with rrv := l.rrv + 1 } else l)) ls) cs age

/-- A way for a new line of a set: an empty way of the mask if there is one (log entry 21), else the victim of R147, whose
dirty sectors enter the write-back buffer as held (R161), and which comes back with it. None when the set has no candidate. -/
def Half.makeRoom (x : Half) (sl set : Nat) (mask : W32) (hold : Bool) : Option (Nat × Half × Option Line) :=
  let base := setKey sl set
  let cs := x.candidates base mask hold
  match cs.find? (fun k => (mfind x.lines k).isNone) with
  | some k => some (k, x, none)
  | none =>
    match pickVictim 16 x.lines cs (mget 0 x.ages (sl * 2048 + set)) with
    | none => none
    | some (k, ls, age) =>
      let wb := match mfind ls k with
        | some l => if l.dirty = 0 then x.wb else x.wb ++ [⟨l.line, l.dirty, false⟩]
        | none => x.wb
      some (k, { x with lines := merase ls k, ages := mset 0 x.ages (sl * 2048 + set) age, wb := wb }, mfind ls k)

/-- The first use of a granule of a half's ways: zeros go to its other words and its bit is set (R207). -/
def State.wayGranule (s : State) (h k : Nat) : State :=
  if (s.half h).granules.contains (k / 4) then s
  else (s.modHalf h (fun x => { x with granules := insNat x.granules (k / 4) })).bump (.sc h) 0x198 1

/-- A line leaves its set: where its clean sectors hid words that the device holds poisoned, these read as poison now (R206, R209). -/
def State.uncover (s : State) (h : Nat) (l : Line) : State :=
  let d := s.mif h
  let ws := d.hidden.filter (fun w => w / 8 == l.line && !l.dirty.getLsbD (w / 2 % 4))
  if ws.isEmpty then s
  else ws.foldl (fun t w => t.poisonAll (w * 32) 32) (s.setMif h { d with hidden := d.hidden.filter (fun w => !ws.contains w) })

/-- A line takes a way of its set, in the mask (R147, R151, R207). None when the set has no candidate. -/
def State.takeWay (s : State) (h sl set : Nat) (mask : W32) (hold : Bool) (l : Line) : Option State :=
  ((s.half h).makeRoom sl set mask hold).map (fun r =>
    let t := s.setHalf h { r.2.1 with lines := mput r.2.1.lines r.1 l }
    (match r.2.2 with | some o => t.uncover h o | none => t).wayGranule h r.1)

/-- RRV that a fill sets (R147, R150). -/
def fillRrv (policy : Nat) : Nat := if policy = 1 then 3 else 2

/-- Fill sectors of a line, some dirty, allocating the line where it is absent (R146, R147). None when no way is free. -/
def State.fillLine (s : State) (a p rrv : Nat) (valid dirty : BitVec 4) : Option State :=
  let (h, sl, set) := s.home a
  let x := s.half h
  match x.find (setKey sl set) (a / 256) with
  | some (k, l) =>
    let l := { l with valid := l.valid ||| valid, dirty := l.dirty ||| dirty, rrv := rrv }
    some (s.setHalf h { x with lines := mput x.lines k l })
  | none => s.takeWay h sl set (s.wayMask h p) (s.rgB (.mif h) 0x000 7) ⟨a / 256, valid, dirty, rrv, false, false, p⟩

/-- Change a line where its set holds it. -/
def State.modLine (s : State) (a : Nat) (f : Line → Line) : State :=
  let (h, sl, set) := s.home a
  let x := s.half h
  match x.find (setKey sl set) (a / 256) with
  | some (k, l) => s.setHalf h { x with lines := mput x.lines k (f l) }
  | none => s

/-- The sectors a write touches are valid and dirty (R146). -/
def State.dirtyLine (s : State) (a : Nat) (dirty : BitVec 4) : State :=
  s.modLine a (fun l => { l with valid := l.valid ||| dirty, dirty := l.dirty ||| dirty })

/-- A hit: RRV 0 (R147), and the sectors a write touches become dirty. -/
def State.hitLine (s : State) (a : Nat) (dirty : BitVec 4) : State := (s.modLine a (fun l => { l with rrv := 0 })).dirtyLine a dirty

/-- The victim of a line in the write-back buffer. -/
def Half.victim (x : Half) (line : Nat) : Option Victim := x.wb.find? (fun v => v.line == line)

/-- What an access of one line finds at its home (R146, R152, R161). -/
inductive Found where
  | hit
  | buffer (issued : Bool)
  | miss (need : BitVec 4)
deriving DecidableEq, Repr

/-- What an access to [a, a + n) of external memory, within one line, finds. A write needs valid only the sectors it covers
in part (R146). -/
def State.lookup (s : State) (a n : Nat) (write : Bool) : Found :=
  let (h, sl, set) := s.home a
  let x := s.half h
  let need := if write then sectorMask a n &&& ~~~ wholeMask a n else sectorMask a n
  match x.find (setKey sl set) (a / 256) with
  | some (_, l) => if need &&& ~~~ l.valid = 0 then .hit else .miss (need &&& ~~~ l.valid)
  | none =>
    match x.victim (a / 256) with
    | some v => .buffer v.issued
    | none => .miss need

/-- A request to unpinned lines counts in the thrash window (R158); hits and misses count per class (R152). -/
def State.countAccess (s : State) (a cls : Nat) (hit : Bool) : State :=
  let (h, sl, set) := s.home a
  let x := s.half h
  let pinned := match x.find (setKey sl set) (a / 256) with | some (_, l) => l.pinned | none => false
  let x := if pinned then x else { x with reqs := x.reqs + 1, missed := x.missed + (if hit then 0 else 1) }
  (s.setHalf h { x with lastUse := s.time.now }).bump (.sc h) (0x100 + 8 * cls + (if hit then 0 else 4)) 1

/-- A write that meets a held victim merges into it (R161). -/
def State.mergeVictim (s : State) (a n : Nat) : State :=
  let h := s.devOf a
  let x := s.half h
  s.setHalf h { x with wb := x.wb.map (fun v =>
    if v.line = a / 256 then { v with dirty := v.dirty ||| sectorMask a n } else v) }

/-- Whether the 64 KiB region of a device that holds an external address is initialised (R208). -/
def State.isInit (s : State) (a : Nat) : Bool := (s.mif (s.devOf a)).inited.contains (s.offOf a / 65536)

/-- The words of [a, a + n) that carry the poison mark. -/
def State.poisonWords (s : State) (a n : Nat) : Nat :=
  (upTo (a / 32) (cdiv (a + n) 32 - a / 32)).countP (fun w => s.poison.contains w)

/-- A read burst at a device for sectors of lines of one 512-byte pair, the line at a among them (R177, R206, R208, R307, R308, R321, R421):
512 bytes from DRAM, or none where the region is not initialised, which is counted line by line; beats of stored poison that are delivered
are counted; the sectors are filled into the half. -/
def State.readBurst (s : State) (a : Nat) (sec : Nat → BitVec 4) (lines : List Nat) : State :=
  let h := s.devOf a
  let n := (lines.map (fun l => 64 * sectorCount (sec l))).sum
  let s := s.bump64 (.sc h) 0x160 n
  if n = 0 then s
  else if s.isInit a then
    let bad := (lines.map (fun l => ((upTo 0 4).map (fun i =>
      if (sec l).getLsbD i then s.poisonWords (l * 256 + 64 * i) 64 else 0)).sum)).sum
    ((s.bump64 (.mif h) 0x120 512).bump64 (.cnt 0) 0x100 512).bump (.mif h) 0x240C bad
  else s.bump (.mif h) 0x2410 lines.length

/-- The R349 numbers of the regions of a half, as offsets of their registers in the PWR_ block of its stack. -/
def regionOffs (h : Nat) : List Nat :=
  (upTo (h % 2 * 64) 64 ++ upTo (128 + h % 2 * 64) 64).map (fun n => 0x100 + 4 * n)

/-- Whether every region of a half is parked or dark. -/
def State.allParked (s : State) (h : Nat) : Bool :=
  (regionOffs h).all (fun o => decide (s.rgF (.pwr (h / 2)) o 1 0 = 0) || decide (s.rgF (.pwr (h / 2)) o 1 0 = 3))

/-- A retained half is awake: its array at 0.80 V, its device out of self-refresh and retraining (R333, R334, R348). -/
def State.cacheAwake (s : State) (h : Nat) : State :=
  if (s.half h).retained then
    let w := s.allParked h
    let s := s.modHalf h (fun x => { x with retained := false, waking := none, woken := w, lastUse := s.time.now })
    let s := ((s.wgB (.pwr (h / 2)) 0x000 (2 + h % 2) false).wgB (.mif h) 0x000 9 false).bump (.pwr (h / 2)) 0x814 1
    (s.setMif h { s.mif h with retraining := true }).bump (.mif h) 0x10C 1
  else s

/-- Cut [a, a + n) at line boundaries. -/
def linePieces (a n : Nat) : List (Nat × Nat) :=
  (upTo (a / 256) (cdiv (a + n) 256 - a / 256)).map (fun l =>
    (max a (l * 256), min (a + n) (l * 256 + 256) - max a (l * 256)))

/-- The port of the slice at a place carries n bytes (R148, R222). -/
def State.carried (s : State) (a n : Nat) : State :=
  let i := s.placeSite a
  s.modHalf (siteHalf i) (fun x => { x with
    portUse := mput x.portUse (siteSlice i)
      (((mfind x.portUse (siteSlice i)).getD []).filter (fun e => decide (s.time.now < e.1 + 250000)) ++ [(s.time.now, n)]) })

/-- Flits of a packet that carries n bytes (R230). -/
def flitsOf (n : Nat) : Nat := max 1 (cdiv n 64)

/-- The router where the stack controller of a stack attaches, on the layer of a destination (R232). -/
def State.cpEnter (s : State) (t i : Nat) : Nat := s.attach t 0 (siteLayer i)

/-- The router where a host port attaches. -/
def State.hostEnter (s : State) (port i : Nat) : Nat :=
  let (t, k) := s.part.grade.hostPort port
  s.attach t (1 + k) (siteLayer i)

/-- The router where a fabric port attaches. -/
def State.fabEnter (s : State) (port i : Nat) : Nat :=
  let t := port / 2
  s.attach t (1 + (upTo 0 4).countP (fun p => decide ((s.part.grade.hostPort p).1 = t)) + port % 2) (siteLayer i)

/-- Set the valid bits of the window granules that a write to [a, a + n) touches (R207). -/
def State.markGranules (s : State) (a n : Nat) : State :=
  if winBase ≤ a ∧ a < lmemBase then
    (upTo (a / 1024) (cdiv (a + n) 1024 - a / 1024)).foldl (fun t g =>
      if t.granules.contains g then t
      else { t.bump (.sc (siteHalf (winSite a))) 0x198 1 with granules := insNat t.granules g }) s
  else s

/-- Store bytes at their place with the granule bits of R207. -/
def State.place (s : State) (a : Nat) (bs : List Byte) (pois : Bool) : State :=
  (s.markGranules a bs.length).store a bs pois

/-! ## Context translation (R193 to R197) -/

/-- The address of context c's descriptor (R193). -/
def State.descAddr (s : State) (c : Nat) : Nat := s.dirAddr (c * 64)

/-- What a translation gives. -/
inductive Xlat where
  | at_ (a : Nat) (page : Nat)
  | poison
  | ctxRange
  | addrRange
deriving DecidableEq, Repr

/-- Position pos of context c for an access of n bytes by partition p from a core (R196, R197): the core's kept translation
of the page, else the list. -/
def State.translate (s : State) (keep : Map Nat) (p c pos n : Nat) : Xlat :=
  let d := s.descAddr c
  if 2 ^ 20 ≤ c then .ctxRange
  else if s.poisoned d 64 then .poison
  else
    let w0 := s.num d 4
    if w0 % 2 = 0 ∨ fld 4 1 w0 ≠ p then .ctxRange
    else if fld 28 0 (s.num (d + 4) 4) < pos + n then .ctxRange
    else
      let i := pos / 65536
      let fin (pg : Nat) : Xlat :=
        if s.inRanges p (pg + pos % 65536) n then .at_ (pg + pos % 65536) pg else .addrRange
      match mfind keep (c * 4096 + i) with
      | some pg => fin pg
      | none =>
        let r := fld 47 0 (s.num (d + 16) 8) + 8 * (i / 64)
        if s.poisoned r 8 then .poison
        else
          let e := s.num r 8
          if e % 2 = 0 then .ctxRange
          else
            let l := fld 47 9 e * 512 + 8 * (i % 64)
            if s.poisoned l 8 then .poison
            else
              let e := s.num l 8
              if e % 2 = 0 then .ctxRange else fin (fld 47 16 e * 65536)

/-- A core keeps a translation it has used (R197). -/
def State.keepXlat (s : State) (site c pos page : Nat) : State :=
  s.modCore site (fun k => { k with trans := mput k.trans (c * 4096 + pos / 65536) page })

/-! ## Requests at their places -/

/-- The router where a request enters the network toward a router, and where its answer leaves it: its core's, or the attach router of its
processor, its port, or the stack controller of the debug port (R229, R232). -/
def State.portal (s : State) (r : Req) (i : Nat) : Nat :=
  if r.slot = 71 then s.cpEnter (r.lane % 64 / 4) i
  else if r.slot = 72 then s.hostEnter r.lane i
  else if r.slot = 73 then s.fabEnter r.lane i
  else if r.slot = 75 then s.cpEnter 0 i
  else r.site

/-- The port of a master's router to which answers go (R229, R232). -/
def Req.door (r : Req) : Endpoint := if 71 ≤ r.slot ∧ r.slot ≤ 75 then .outer else .core

/-- The port of the target's router that an access takes: the slice for external memory and windows, the core for its local memory (R229,
R232). -/
def targetEnd (a : Nat) : Endpoint := if a < lmemBase then .slice else .core

/-- Bytes of a place with their marks (R210). -/
def State.marked (s : State) (a n : Nat) : List PByte := (upTo a n).map (fun x => (s.byte x, s.poisoned x 1))

/-- Store bytes with marks: a word that receives a marked byte is marked, a word covered whole by clean bytes is cleared
(R210). -/
def State.storeMarked (s : State) (a : Nat) (bs : List PByte) : State :=
  let s := s.place a (bs.map (·.1)) false
  let ms := ((upTo a bs.length).zip bs).filter (fun x => x.2.2)
  { s with poison := (ms.map (fun x => x.1 / 32)).foldl insNat s.poison }

/-- The marks of the 32-byte words that bytes lie in, the first of which lies at an offset in its word. -/
def wordMarks (o : Nat) (bs : List PByte) : List Bool :=
  (upTo 0 (cdiv (o + bs.length) 32)).map (fun w => ((upTo o bs.length).zip bs).any (fun x => x.1 / 32 == w && x.2.2))

/-- Where the payload of a request begins in its first marked word: a packet to another part counts words from its payload's first byte, one
within the part by memory words (R210, R294). -/
def Req.markOff (r : Req) : Nat := if r.remote.isSome then 0 else r.addr % 32

/-- The data of a request with the marks of its words. -/
def Req.marked (r : Req) : List PByte :=
  ((upTo r.markOff r.line.length).zip r.line).map (fun x => (x.2, nth false r.lpois (x.1 / 32)))

/-- A request by its identifier. -/
def State.req? (s : State) (rid : Nat) : Option Req := s.net.reqs.find? (fun r => r.rid == rid)

/-- Replace a request. -/
def State.setReq (s : State) (r : Req) : State :=
  { s with net := { s.net with reqs := s.net.reqs.map (fun q => if q.rid = r.rid then r else q) } }

/-- Drop a request. -/
def State.dropReq (s : State) (rid : Nat) : State :=
  { s with net := { s.net with reqs := s.net.reqs.filter (fun q => q.rid != rid) } }

/-- The value of one atomic (R132): opcode 0x90 to 0x9A, width in bytes, old value, b and c. -/
def atomicNew (op n old b c : Nat) : Nat :=
  let m := 2 ^ (8 * n)
  match op with
  | 0x90 => (old + b) % m
  | 0x91 => if sint (8 * n) b < sint (8 * n) old then b else old
  | 0x92 => if sint (8 * n) old < sint (8 * n) b then b else old
  | 0x93 => min old b
  | 0x94 => max old b
  | 0x95 => old &&& b
  | 0x96 => old ||| b
  | 0x97 => old ^^^ b
  | 0x98 => b
  | 0x99 => if old = b then c else old
  | _ => (fadd (BitVec.ofNat 32 old) (BitVec.ofNat 32 b)).toNat

/-- A BF16 pattern as FP32, exact. -/
def bf16to32 (x : Nat) : W32 := encFV (decIEEE bf16 x)

/-- FP32 maximum of two BF16 patterns as a BF16 pattern (R71, R133). -/
def bf16Max (x y : Nat) : Nat := toBf16 (dec32 (fmax (bf16to32 x) (bf16to32 y)))
/-- The minimum. -/
def bf16Min (x y : Nat) : Nat := toBf16 (dec32 (fmin (bf16to32 x) (bf16to32 y)))

/-- BF16 addition, rounded once to nearest even, canonical NaN (R133). -/
def bf16Add (x y : Nat) : Nat :=
  match decIEEE bf16 x, decIEEE bf16 y with
  | .fin n1 m1 e1, .fin n2 m2 e2 =>
    let (z, e) := addExact n1 m1 e1 n2 m2 e2
    if z = 0 then (if n1 && n2 then 0x8000 else 0) else toBf16 (.fin (decide (z < 0)) z.natAbs e)
  | a, b => toBf16 (dec32 (addFV a b))

/-- Bytes of a reduction's word by OP 0 to 8, in the order of opcodes 0xA0 to 0xA8 (R133, R276). -/
def reduceSize (op : Nat) : Nat := if op = 2 ∨ op = 7 ∨ op = 8 then 2 else 4

/-- The value of one reduction (R133). -/
def reduceNew (op old b : Nat) : Nat :=
  let x := BitVec.ofNat 32 old
  let y := BitVec.ofNat 32 b
  match op with
  | 0 => (x + y).toNat
  | 1 => (fadd x y).toNat
  | 2 => bf16Add old b
  | 3 => if x.slt y then b else old
  | 4 => if y.slt x then b else old
  | 5 => (fmax x y).toNat
  | 6 => (fmin x y).toNat
  | 7 => bf16Max old b
  | _ => bf16Min old b

/-- The reductions that a request asks for: number, address, operand and mark; a processor's carries several (R160, R276). -/
def Req.terms (r : Req) (op : Nat) : List (Nat × Nat × Nat × Bool) :=
  if r.line = [] then [(0, r.addr, r.data.toNat, r.pois)]
  else
    let z := reduceSize op
    (upTo 0 (r.size / z)).map (fun j => (j, r.addr + z * j, ofBytes ((r.line.drop (z * j)).take z), nth false r.lpois j))

/-- Apply one reduction at its place (R160): a poisoned word stays poisoned, a poisoned b poisons it. -/
def State.reduceAt (s : State) (op a b : Nat) (pois : Bool) : State :=
  let n := reduceSize op
  let p := pois || s.poisoned a n
  let t := s.place a (toBytes n (reduceNew op (s.num a n) b)) p
  if a < s.extEnd then t.bump (.sc (s.devOf a)) 0x140 1
  else t.bump (.sc (siteHalf (winSite a))) 0x140 1

/-- The slot of the block of a command with a linear index on a core. -/
def Core.blockOf (k : Core) (cid lin : Nat) : Option Nat :=
  (k.blocks.find? (fun b => b.2.cid == cid && b.2.lin == lin)).map (·.1)

/-- A memory effect of a thread was performed: its lock wait ends and its block's stall timer restarts (R108, R109). -/
def State.progress (s : State) (site cid lin slot lane : Nat) : State :=
  s.modCore site (fun k =>
    let k := { k with groups := mmod k.groups slot (fun g =>
      { g with threads := setNth g.threads lane { nth (Thread.start 0) g.threads lane with lock := false } }) }
    match k.blockOf cid lin with
    | some b => { k with blocks := mmod k.blocks b (fun x => { x with stall := 0 }) }
    | none => k)

/-- The command wrote poisoned data (R213). -/
def State.tainted (s : State) (cid : Nat) (p : Bool) : State :=
  if p then s.modCmd cid (fun c => { c with poisoned := true }) else s

/-- The watchpoint that an access matches, if one is enabled (R433, R434). -/
def State.watchpoint (s : State) (site space ea n : Nat) (write : Bool) : Option Nat :=
  (upTo 0 4).find? (fun j =>
    let b := Blk.dbg (siteStack site)
    let o := dbgOff site + 0x30 + 12 * j
    let v := s.rg b (o + 4)
    let len := 2 ^ s.rgF b (o + 8) 4 0
    let lo := ((s.rg b o).toNat + 2 ^ 32 * getF 15 0 v) / len * len
    v.getLsbD 18 && decide (getF 17 16 v = space) && (if write then v.getLsbD 20 else v.getLsbD 19) &&
      decide (lo < ea + n) && decide (ea < lo + len))

/-- After a matching access the group halts (R434). -/
def State.watch (s : State) (site slot space ea n : Nat) (write : Bool) : State :=
  match s.watchpoint site space ea n write with
  | none => s
  | some j =>
    let b := Blk.dbg (siteStack site)
    let o := dbgOff site
    let s := s.wgB b (o + 0x08 + slot / 32 * 4) (slot % 32) true
    (((s.wgB b (o + 4) 0 true).wgB b (o + 4) 1 true).wgF b (o + 4) 4 2 j).wgF b (o + 4) 10 5 slot

/-- The number of bytes of SIZE 0 to 4 (R130). -/
def sizeBytes (n : Nat) : Nat := 2 ^ n

/-- A packet enters the network at a router. -/
def State.postPacket (s : State) (k : Packet) : State :=
  { s with net := { s.net with packets := s.net.packets ++ [{ k with pid := s.net.nextPid, since := s.time.now }], nextPid := s.net.nextPid + 1 } }

/-- The answer of a request sets out from its place to its master (R230, R233), in the class that carried the request (R241). -/
def State.respond (s : State) (r : Req) : State :=
  let i := s.placeSite r.addr
  if i = r.site then s
  else
    s.postPacket
      { pid := 0, rid := r.rid, response := true, cls := r.cls, at_ := i, input := (targetEnd r.addr).input i, since := 0
        dest := s.portal r i, endpoint := r.door, src := i, detour := false, retry := decide (0 < r.attempt)
        attempt := r.attempt, via := [] }

/-- A thread of a command consumes poison that an access of its brought back (R211, R212). -/
def State.eatAt (s : State) (r : Req) : State :=
  match (s.core r.site).blockOf r.cid r.lin with
  | some b =>
    (match mfind (s.core r.site).blocks b with
     | some blk => s.consumeThread r.site r.slot b blk r.lane r.index
     | none => s)
  | none =>
    let d := s.ateBy r.site r.slot 0 r.lane r.index
    match (s.cmd? r.cid).bind (fun c => c.exited.find? (fun e => e.1 == r.site && e.2.lin == r.lin)) with
    | some e => s.consumeBlock r.site none e.2 d
    | none => s.endCmd r.cid 0x12 d

/-- What a read brings back beside its datum: the line of the L1 that it fills (R131), or all its bytes for a master other than a thread, with
the marks of their words. -/
def State.readLine (s : State) (r : Req) : List Byte × List Bool :=
  let words (a n : Nat) : List Bool := (upTo (a / 32) (cdiv (a + n) 32 - a / 32)).map (fun w => s.poisoned (32 * w) 32)
  if r.fillL1 then (s.bytes (r.addr / 128 * 128) 128, words (r.addr / 128 * 128) 128)
  else if 64 < r.slot then (s.bytes r.addr r.size, words r.addr r.size)
  else ([], [])

/-- A thread's access is performed: its progress, and the watchpoint that it matches (R108, R109, R434). -/
def State.seenBy (s : State) (r : Req) : State :=
  if r.slot ≤ 64 then s.watch r.site r.slot r.space r.ea r.size (r.kind != .read) else s

/-- A write, an atomic or a reduction moves its thread on (R108, R109). -/
def State.moves (s : State) (r : Req) : State := if r.slot ≤ 64 then s.progress r.site r.cid r.lin r.slot r.lane else s

/-- A target refuses a request (R184, R285, R388). -/
def State.refuseReq (s : State) (r : Req) : State := (s.respond r).setReq { r with state := .performed, refused := true }

/-- Perform a request at its place (R132, R133, R160, R185). A poisoned old value of an atomic is consumed and the access
has no effect (R139, R212). -/
def State.perform (s : State) (r : Req) : State :=
  let old := s.num r.addr r.size
  let p := s.poisoned r.addr r.size
  let done (t : State) (res : Nat) (rp : Bool) : State :=
    let l := if r.kind = .read then s.readLine r else ([], [])
    ((t.respond r).setReq { r with state := .performed, result := BitVec.ofNat 128 res, rpois := rp, line := l.1, lpois := l.2 }).seenBy r
  let rec_ (t : State) : State := if r.slot = 77 then t else
    { t with net := { t.net with records := t.net.records ++ [(s.placeSite r.addr, r.rid)] } }
  match r.kind with
  | .read => done s old p
  | .write =>
    let t := if r.line = [] then s.place r.addr (toBytes r.size r.data.toNat) r.pois else s.storeMarked r.addr r.marked
    done (rec_ ((t.tainted r.cid (r.pois || r.lpois.any id)).moves r)) 0 false
  | .atomic op =>
    if p ∧ r.slot = 73 then done s old true
    else if p then ((s.respond r).setReq { r with state := .performed, dest := none }).eatAt r
    else
      let new := atomicNew op r.size old r.data.toNat r.cmp.toNat
      let t := s.place r.addr (toBytes r.size new) false
      let t := if 64 < r.slot then t else t.modCore r.site (fun k =>
        match k.blockOf r.cid r.lin with
        | some b => { k with blocks := mmod k.blocks b (fun x => { x with didAtomic := true }) }
        | none => k)
      let t := if new = old then t else t.moves r
      done (rec_ t) old false
  | .reduce op =>
    let t := (r.terms op).foldl (fun t x => t.reduceAt op x.2.1 x.2.2.1 x.2.2.2) s
    done (rec_ ((t.tainted r.cid (r.pois || r.lpois.any id || p)).moves r)) 0 false
  | .order _ => s

/-- Whether a request has yet to be performed. -/
def Req.unperformed (r : Req) : Bool := r.state != .performed && !r.ended

/-- Whether an earlier request must be performed before this one: one of the same thread, or of a lower lane of the same
instruction, or of the same master otherwise, to the same bytes (R131, R132, R186, R191). -/
def State.mustWait (s : State) (r : Req) : Bool :=
  s.net.reqs.any (fun q => decide (q.rid < r.rid) && q.site == r.site && q.slot == r.slot && q.remote.isNone &&
    (q.lane == r.lane || (decide (r.slot ≤ 64) && q.serial == r.serial)) && (decide (r.slot ≤ 64) || q.cid == r.cid) &&
    decide (q.addr < r.addr + r.size) && decide (r.addr < q.addr + q.size) && q.unperformed)

end Sys2Proof.Machine
end

