-- ==== Sys2Proof/Machine/Codes.lean ====
section
/-! DEFINITION. The codes of stored words and what an access finds in error: the stacked-cache word code (R202 to R205), the beat code of
external memory (R206), error logs (R214, R226), and words that the remap table serves (R216). -/

namespace Sys2Proof.Machine

/-- The number with the least measure, the first on ties. -/
def leastOf (f : Nat → Nat) : List Nat → Option Nat
  | [] => none
  | x :: xs =>
    match leastOf f xs with
    | none => some x
    | some y => if f x ≤ f y then some x else some y

/-- The keys of a slice's ways. -/
def inSlice (sl k : Nat) : Bool := decide (k / 32768 = sl)

/-- The first address of a slice's window. -/
def winAddr (h sl : Nat) : Nat := winBase + sliceSite h sl * 0x400000

/-! ## Error logs (R214, R226) -/

/-- Where an error log keeps COUNT and REMAPPED, and its counter of errors not logged: stacked cache or memory interface. -/
structure LogKind where
  countLo : Nat
  remapBit : Nat
  lost : Nat
deriving DecidableEq, Repr

/-- The log of an SC_ block. -/
def scLog : LogKind := ⟨20, 28, 0x190⟩
/-- The log of a MIF_ block. -/
def mifLog : LogKind := ⟨10, 18, 0x2414⟩

/-- The offset of log entry i. -/
def logOff (i : Nat) : Nat := 0x2100 + 16 * i

/-- COUNT of log entry i. -/
def State.logCount (s : State) (b : Blk) (k : LogKind) (i : Nat) : Nat := s.rgF b (logOff i) (k.countLo + 7) k.countLo

/-- The time of log entry i. -/
def State.logTime (s : State) (b : Blk) (i : Nat) : Nat := s.rg64 b (logOff i + 8)

/-- Whether an entry may be replaced: corrected and not remapped (R214). One of KIND 2, be it of a corrected tag, does not count as corrected
(DESIGN CHOICE, log entry 25). -/
def State.logOld (s : State) (b : Blk) (k : LogKind) (i : Nat) : Bool :=
  decide (s.rgF b (logOff i) 2 1 = 0) && !s.rgB b (logOff i) k.remapBit

/-- The entry that a new location takes: a free one, else the replaceable one of lowest COUNT, the oldest on ties (R214). -/
def State.logSlot (s : State) (b : Blk) (k : LogKind) : Option Nat :=
  match (upTo 0 32).find? (fun i => !s.rgB b (logOff i) 0) with
  | some i => some i
  | none => leastOf (fun i => s.logCount b k i * 2 ^ 64 + s.logTime b i) ((upTo 0 32).filter (s.logOld b k))

/-- Write log entry i: its first word without COUNT, the location, COUNT, the time now. -/
def State.logWrite (s : State) (b : Blk) (k : LogKind) (i : Nat) (w0 loc : W32) (count : Nat) : State :=
  ((s.wg b (logOff i) (setF (k.countLo + 7) k.countLo (min 255 count) w0)).wg b (logOff i + 4) loc).wg64 b (logOff i + 8) (s.timeOf b.stack)

/-- An error at a location is logged (R214). A location already logged keeps KIND 1 once uncorrectable, and otherwise
takes the KIND of its last error, so that KIND 2 gives way to a corrected error's 0 (DESIGN CHOICE, log entry 25). -/
def State.elog (s : State) (b : Blk) (k : LogKind) (w0 loc : W32) : State :=
  match (upTo 0 32).find? (fun i => s.rgB b (logOff i) 0 && s.rg b (logOff i + 4) == loc) with
  | some i =>
    let old := s.rg b (logOff i)
    let kind := if getF 2 1 old = 1 then 1 else getF 2 1 w0
    let w := setF k.remapBit k.remapBit (getF k.remapBit k.remapBit old) (setF 2 1 kind w0)
    s.logWrite b k i w loc (s.logCount b k i + 1)
  | none =>
    match s.logSlot b k with
    | some i => s.logWrite b k i w0 loc 1
    | none => (s.bump b k.lost 1).adminEvent 2

/-- The first word of an SC_ log entry (R226). -/
def scWord (kind src synd : Nat) : W32 := BitVec.ofNat 32 (1 + kind * 2 + src * 8 + synd % 2 ^ 14 * 64)

/-- The first word of a MIF_ log entry (R226). -/
def mifWord (kind src die : Nat) : W32 := BitVec.ofNat 32 (1 + kind * 2 + src * 8 + die * 32)

/-! ## The stacked-cache word code (R202) -/

/-- How many ones a column of the code has. -/
def weight (x : Nat) : Nat := (upTo 0 14).countP (fun i => x.testBit i)

/-- The columns that data bits may have: odd weight 3 or 5. -/
def dataPool : List Nat := (upTo 0 16384).filter (fun x => weight x == 3 || weight x == 5)

/-- The columns that location bits may have: even weight of 4 or more. -/
def locPool : List Nat := (upTo 0 16384).filter (fun x => decide (4 ≤ weight x) && decide (weight x % 2 = 0))

/-- n columns taken from a pool, each once, as a choice says. -/
def pickColumns (choice : Nat → Nat) : Nat → List Nat → List Nat
  | 0, _ => []
  | n + 1, pool =>
    let x := nth 0 pool (choice n % pool.length)
    x :: pickColumns choice n (pool.erase x)

/-- The columns of the 256 data bits; which are theirs is free (log entry 123). -/
def dataColumns : List Nat := pickColumns Config.dataColumn 256 dataPool

/-- Addition of syndromes. -/
def xorNat (x y : Nat) : Nat := (BitVec.ofNat 32 x ^^^ BitVec.ofNat 32 y).toNat

/-- A basis of what columns span over GF(2). -/
def spanBasis (cs : List Nat) : List Nat :=
  cs.foldl (fun b x => let y := b.foldl (fun y z => min y (xorNat y z)) x; if y = 0 then b else b ++ [y]) []

/-- Whether 30 columns can be those of the location bits (R202, R203): of even weight of 4 or more and pairwise distinct; a location that differs
in one or two bits is not taken for stored poison; and one in 8,192 of all differences goes unseen, as the columns span every even syndrome. -/
def locSound (cs : List Nat) : Bool :=
  decide (cs.length = 30) &&
    cs.all (fun x => decide (x < 2 ^ 14) && decide (4 ≤ weight x) && decide (weight x % 2 = 0) && x != 0x3FFF) &&
    decide cs.Nodup && cs.all (fun x => cs.all (fun y => xorNat x y != 0x3FFF)) && decide ((spanBasis cs).length = 13)

/-- Columns of the location bits that stand in where the free choice is not sound. -/
def locDefault : List Nat :=
  [15, 30, 60, 120, 240, 480, 960, 1920, 3840, 7680, 15360, 14337, 12291, 8199, 23, 46, 92, 184, 368, 736, 1472, 2944, 5888, 11776, 7169,
   14338, 12293, 8203, 43, 86]

/-- The columns of the 30 location bits; which are theirs is free among the sound choices (log entry 123). -/
def locColumns : List Nat :=
  let free := pickColumns Config.locationColumn 30 locPool
  if locSound free then free else locDefault

/-- The column of a bit of the codeword: data bits 0 to 255, check bits 256 to 269. -/
def codeColumn (i : Nat) : Nat := if i < 256 then nth 0 dataColumns i else 2 ^ (i - 256)

/-- What flipped bits add to the syndrome. -/
def flipSyndrome (bits : List Nat) : Nat := (bits.map codeColumn).foldl xorNat 0

/-- What a location that differs in the bits of d adds to it. -/
def locSyndrome (d : Nat) : Nat :=
  (((upTo 0 30).filter (fun i => d.testBit i)).map (fun i => nth 0 locColumns i)).foldl xorNat 0

/-- The syndrome of stored poison (R204). -/
def poisonSyndrome : Nat := 0x3FFF

/-- What the reader makes of a syndrome (R203, R204): nothing amiss, stored poison, one bit corrected, or uncorrectable. -/
inductive Verdict where
  | clean
  | poison
  | corrected (bit : Nat)
  | uncorrectable
deriving DecidableEq, Repr

/-- The verdict on a syndrome. -/
def verdict (y : Nat) : Verdict :=
  if y = 0 then .clean
  else if y = poisonSyndrome then .poison
  else match (upTo 0 270).find? (fun i => codeColumn i == y) with
    | some i => .corrected i
    | none => .uncorrectable

/-! ## Words and their places -/

/-- The half, slice and word index of the 32-byte word at an address of external memory or a window: ways of the sets in order,
then the window (log entry 26). -/
def State.wordAt (s : State) (a : Nat) : Nat × Nat × Nat :=
  if a < s.extEnd then
    let (h, sl, set) := s.home a
    let way := match (s.half h).find (setKey sl set) (a / 256) with | some (k, _) => k - setKey sl set | none => 0
    (h, sl, (set * 16 + way) * 8 + a / 32 % 8)
  else
    let h := siteHalf (winSite a)
    let sl := siteSlice (winSite a)
    (h, sl, s.sets h sl * 128 + (a - winBase) % 0x400000 / 32)

/-- The addresses of the lines that a set holds. -/
def Half.setLines (x : Half) (base : Nat) : List Nat :=
  (upTo base 16).filterMap (fun k => (mfind x.lines k).map (fun l => l.line * 256))

/-- The address of the 32-byte word at an index within a slice (log entry 26), where a line holds it. -/
def State.wordAddr (s : State) (h sl w : Nat) : Option Nat :=
  if s.sets h sl * 128 ≤ w then some (winAddr h sl + (w - s.sets h sl * 128) * 32)
  else (mfind (s.half h).lines (sl * 32768 + w / 8)).map (fun l => l.line * 256 + w % 8 * 32)

/-- The location of a word (R202): word index, slice, half, stack. -/
def locNo (h sl w : Nat) : Nat := w % 2 ^ 18 + sl * 2 ^ 18 + h % 2 * 2 ^ 26 + h / 2 * 2 ^ 27

/-- The address of the word at a location, where there is one. -/
def State.locAddr (s : State) (l : Nat) : Option Nat :=
  let h := l / 2 ^ 27 % 8 * 2 + l / 2 ^ 26 % 2
  if h < s.devices then s.wordAddr h (l / 2 ^ 18 % 256) (l % 2 ^ 18) else none

/-- Whether the word at an address is stored in a slice, in a granule whose valid bit is set (R207), or in its write-back buffer (R225), and
not remapped (R216). -/
def State.inSlices (s : State) (a : Nat) : Bool :=
  let (h, sl, w) := s.wordAt a
  (if a < s.extEnd then
     (match (s.half h).find (setKey sl (s.home a).2.2) (a / 256) with
      | some (k, l) => l.valid.getLsbD (a / 64 % 4) && (s.half h).granules.contains (k / 4)
      | none => ((s.half h).victim (a / 256)).isSome)
   else decide (winBase ≤ a) && decide (a < lmemBase) && s.granules.contains (a / 1024)) &&
  (upTo 0 16).all (fun j => !(s.rgB (.sc h) (0x2300 + 4 * j) 0 && s.rgF (.sc h) (0x2300 + 4 * j) 8 1 == sl &&
    s.rgF (.sc h) (0x2300 + 4 * j) 26 9 == w))

/-- The syndrome of a word whose own mark is p. -/
def markSyndrome (p : Bool) : Nat := if p then poisonSyndrome else 0

/-- The syndrome that a read of the word at an address meets with a fault (R202 to R204). -/
def State.syndrome (s : State) (a : Nat) (err : CacheErr) : Nat :=
  let w := a / 32 * 32
  match err with
  | .flips bs => xorNat (markSyndrome (s.poisoned w 32)) (flipSyndrome bs)
  | .moved d =>
    let (h, sl, k) := s.wordAt w
    let l := locNo h sl k
    let p := match s.locAddr (xorNat l d) with | some b => s.poisoned b 32 | none => false
    xorNat (markSyndrome p) (locSyndrome d)
  | _ => 0

/-- Invert bits of the 32 bytes at an address. -/
def State.invert (s : State) (a : Nat) (bits : List Nat) : State :=
  bits.foldl (fun t i =>
    if i < 256 then { t with mem := mset (0 : Byte) t.mem (a + i / 8) (t.byte (a + i / 8) ^^^ BitVec.ofNat 8 (2 ^ (i % 8))) } else t) s

/-- The 32 bytes at an address without their mark. -/
def State.unmark (s : State) (a : Nat) : State := { s with poison := s.poison.filter (fun w => w != a / 32) }

/-- Faults in [a, a + n). -/
def errsIn (errs : List (Nat × CacheErr)) (a n : Nat) : List (Nat × CacheErr) :=
  errs.filter (fun e => decide (a ≤ e.1) && decide (e.1 < a + n))

/-- The words of [a, a + n) that a read of them finds to be stored poison (R204): a word that a fault lets be found in error otherwise is no such
word. -/
def State.storedPoison (s : State) (a n : Nat) (errs : List (Nat × CacheErr)) : Nat :=
  let other (w : Nat) : Bool := errs.any (fun e => e.1 / 32 == w &&
    verdict (s.syndrome e.1 e.2) != .clean && verdict (s.syndrome e.1 e.2) != .poison)
  (upTo (a / 32) (cdiv (a + n) 32 - a / 32)).countP (fun w => s.poison.contains w && !other w)

/-- What a fault turns the word at an address into for whoever reads it (R203, R204): corrected or miscorrected, poisoned, or the bytes of
another place. A fault of a single flipped bit turns it into itself. -/
def State.turned (s : State) (a : Nat) (err : CacheErr) : State :=
  let w := a / 32 * 32
  match err with
  | .flips bs =>
    if !s.inSlices w then s
    else
      (match verdict (s.syndrome a err) with
       | .clean => (s.unmark w).invert w bs
       | .corrected i => if bs = [i] ∧ s.poisoned w 32 = false then s else (s.unmark w).invert w (bs ++ [i])
       | _ => s.poisonAll w 32)
  | .moved d =>
    if !s.inSlices w then s
    else
      let (h, sl, k) := s.wordAt w
      let bytes : List Byte := match s.locAddr (xorNat (locNo h sl k) d) with
        | some b => s.bytes b 32
        | none => (upTo 0 8).flatMap (fun i => toBytes 4 (Config.freeWord (s.drawn + i)).toNat)
      (match verdict (s.syndrome a err) with
       | .clean => { s.store w bytes false with drawn := s.drawn + 8 }
       | .corrected i => { (s.store w bytes false).invert w [i] with drawn := s.drawn + 8 }
       | _ => s.poisonAll w 32)
  | _ => s

/-- The part as whoever reads it finds it, with faults at words of slices. -/
def State.asFound (s : State) (errs : List (Nat × CacheErr)) : State := errs.foldl (fun t e => t.turned e.1 e.2) s

/-- A slice takes no more requests and is due for retirement (R205, R216, R223). -/
def State.dueRetire (s : State) (h sl : Nat) : State :=
  s.modHalf h (fun x => { x with retireDue := insNat x.retireDue sl, stalled := insNat x.stalled sl })

/-- A fault in a word of a slice is counted and logged by the access that meets it (R204, R205, R214). A lost tag poisons the lines of its
set and retires the slice; faults of tags are logged at the word's place. -/
def State.report (s : State) (a : Nat) (err : CacheErr) (src : Nat) : State :=
  let (h, sl, w) := s.wordAt a
  let loc := BitVec.ofNat 32 (sl + w * 256)
  let b := Blk.sc h
  let y := s.syndrome a err
  match err with
  | .clean => s
  | .tagCorrected => (s.bump b 0x180 1).elog b scLog (scWord 2 2 0) loc
  | .tagLost =>
    let s := ((s.bump b 0x184 1).elog b scLog (scWord 2 2 0) loc).adminEvent 1
    let s :=
      if a < s.extEnd then
        let (h, sl, set) := s.home a
        ((s.half h).setLines (setKey sl set)).foldl (fun t x => t.poisonAll x 256) s
      else s.poisonAll (a / 32 * 32) 32
    s.dueRetire h sl
  | _ =>
    if !s.inSlices (a / 32 * 32) then s
    else
      let s := (match err with | .moved _ => { s with drawn := s.drawn + 8 } | _ => s)
      match verdict y with
      | .clean => s
      | .poison => s.bump b 0x188 (if s.poisoned (a / 32 * 32) 32 then 0 else 1)
      | .corrected _ => (s.bump b 0x180 1).elog b scLog (scWord 0 src y) loc
      | .uncorrectable => ((s.bump b 0x184 1).elog b scLog (scWord 1 src y) loc).adminEvent 1

/-- Faults that an access meets, each reported. -/
def State.reports (s : State) (errs : List (Nat × CacheErr)) (src : Nat) : State :=
  errs.foldl (fun t e => t.report e.1 e.2 src) s

/-- A word that an access reads, and writes or may write, is reported and from then on stands as it was found. -/
def State.sliceErr (s : State) (a : Nat) (err : CacheErr) (src : Nat) : State := (s.report a err src).turned a err

/-! ## The external-memory beat code (R206) -/

/-- Multiplication by x in GF(2^16) with polynomial x^16 + p. -/
def gfDouble (p a : BitVec 16) : BitVec 16 := (a <<< 1) ^^^ (if a.msb then p else 0)

/-- The product in that field. -/
def gfMul (p a b : BitVec 16) : BitVec 16 := (upTo 0 16).foldl (fun c i => gfDouble p c ^^^ (if b.getLsbD (15 - i) then a else 0)) 0

/-- The power of exponent 2^n. -/
def gfSquares (p a : BitVec 16) : Nat → BitVec 16
  | 0 => a
  | n + 1 => let b := gfSquares p a n; gfMul p b b

/-- Whether x^16 + p is irreducible: x is its own power of 2^16, and its power of 2^8 less x is a unit. -/
def isField (p : BitVec 16) : Bool :=
  let y := gfSquares p 2 8 ^^^ 2
  gfSquares p 2 16 == 2 && (upTo 0 16).foldl (fun c i => gfMul p c (gfSquares p y i)) 1 == 1

/-- The polynomial of the beat code's field: free among the irreducible ones (log entry 123). -/
def beatPoly : BitVec 16 := if isField Config.beatPolynomial then Config.beatPolynomial else 0x100B

/-- The locators of the code's 20 symbols: free where they are distinct. -/
def locators : List (BitVec 16) :=
  let free := (upTo 0 20).map Config.beatLocator
  if free.Nodup then free else (upTo 0 20).map (fun i => BitVec.ofNat 16 (i + 1))

/-- The product of an error of symbol i with its locator. -/
def symbolTimes (i : Nat) (e : BitVec 16) : BitVec 16 := gfMul beatPoly (nth 0 locators i) e

/-- The two syndromes that symbol errors leave (R206), as {S1, S0}: dies 0 to 17, the halves of the beat index 18 and 19. -/
def beatSyndrome (es : List (Nat × BitVec 16)) : BitVec 16 × BitVec 16 :=
  es.foldl (fun y e => (y.1 ^^^ symbolTimes e.1 e.2, y.2 ^^^ e.2)) (0, 0)

/-- What the interface makes of a beat (R206): nothing amiss, stored poison, one die corrected, an address fault, or uncorrectable. -/
inductive BeatVerdict where
  | clean
  | poison
  | die (i : Nat) (e : BitVec 16)
  | address
  | uncorrectable
deriving DecidableEq, Repr

/-- The errors of a beat by symbol; those of an erased die are made good from the other dies and do not count (R319). -/
def symbolErrs (er : Option Nat) (x : BeatErr) : List (Nat × BitVec 16) :=
  (x.symbols.filter (fun e => decide (e.1 < 18) && e.2 != 0 && er != some e.1)) ++ (if x.addrLo = 0 then [] else [(18, x.addrLo)]) ++
    (if x.addrHi = 0 then [] else [(19, x.addrHi)])

/-- The verdict on a beat whose own mark is p, with die k erased (R206, R319): the known erasure takes one of the two check symbols, so an error
in any one other symbol is uncorrectable; of more, what the rest of the syndrome shows. -/
def erasedVerdict (k : Nat) (es : List (Nat × BitVec 16)) (p : Bool) : BeatVerdict :=
  let (s1, s0) := beatSyndrome es
  let rest := s1 ^^^ symbolTimes k s0 ^^^ (if p then 0xFFFF else 0)
  if p = false ∧ es.length = 1 then .uncorrectable
  else if rest = 0 then .clean
  else if rest = 0xFFFF then .poison
  else .uncorrectable

/-- The verdict on a beat whose own mark is p: what the table of R206 covers is as it says; the rest is what the syndromes make of it. -/
def beatVerdict (er : Option Nat) (x : BeatErr) (p : Bool) : BeatVerdict :=
  match er with
  | some k => erasedVerdict k (symbolErrs er x) p
  | none =>
    match p, symbolErrs er x with
    | false, [] => .clean
    | true, [] => .poison
    | false, [(i, e)] => if i < 18 then .die i e else .address
    | _, es =>
      let (s1, s0) := beatSyndrome es
      let s1 := if p then s1 ^^^ 0xFFFF else s1
      if s0 = 0 ∧ s1 = 0 then (if p = false ∧ es.length = 2 then .uncorrectable else .clean)
      else if s0 = 0 ∧ s1 = 0xFFFF then .poison
      else
        match (upTo 0 20).find? (fun i => decide (s0 ≠ 0) && symbolTimes i s0 == s1) with
        | some i => if i < 18 then .die i s0 else .address
        | none => .uncorrectable

/-- The data bits that symbol errors invert: symbol i of 0 to 15 is bits 16i to 16i + 15 of the beat (log entry 128). -/
def symbolBits (es : List (Nat × BitVec 16)) : List Nat :=
  (es.filter (fun e => decide (e.1 < 16))).flatMap (fun e => ((upTo 0 16).filter (fun j => e.2.getLsbD j)).map (fun j => 16 * e.1 + j))

/-- The data bits of a beat that come out wrong though the verdict is clean, or corrects one die: the errors themselves and what the decoder took
for the error of a die. -/
def wrongBits (er : Option Nat) (x : BeatErr) (v : BeatVerdict) : List Nat :=
  let es := symbolErrs er x
  match v, er with
  | .die i e, _ => if es = [(i, e)] then [] else symbolBits (es ++ [(i, e)])
  | .clean, some k => if es = [] then [] else symbolBits (es ++ [(k, (beatSyndrome es).2)])
  | .clean, none => symbolBits es
  | _, _ => []

/-- The erased die of a device (R319, R320). -/
def State.erased (s : State) (dev : Nat) : Option Nat :=
  if s.rgB (.mif dev) 0x000 10 then some (s.rgF (.mif dev) 0x000 15 11) else none

/-- What a beat's faults turn the 32 bytes at an address into when they come in from the device (R206, R319): a single die's error into nothing,
a miscorrected beat into other bytes, an uncorrectable one or an address fault into poison. -/
def State.beatTurned (s : State) (er : Option Nat) (a : Nat) (x : BeatErr) : State :=
  let p := s.poisoned a 32
  let v := beatVerdict er x p
  match v with
  | .clean => if p = false ∧ wrongBits er x v = [] then s else (s.unmark a).invert a (wrongBits er x v)
  | .die _ _ => if p = false ∧ wrongBits er x v = [] then s else (s.unmark a).invert a (wrongBits er x v)
  | _ => s.poisonAll a 32

end Sys2Proof.Machine
end

