-- ==== Sys2Proof/Machine/FabOps.lean ====
section
/-! DEFINITION. Sending on the fabric: routes, ports, transport packets of this part's own accesses (R294 to R297, R301). -/

namespace Sys2Proof.Machine

/-- Whether a fabric port is up and not held (R295, R304: STATE 2). -/
def State.portUp (s : State) (j : Nat) : Bool := decide (j < s.fabPorts) && decide (s.rgF (.fp j) 0x000 1 0 = 2)

/-- The port that a packet to a part takes: primary while usable, else the alternate (R295). -/
def State.routePort (s : State) (dst : Nat) : Option Nat :=
  let e := mget 0 s.fab.routes dst
  if !e.getLsbD 0 then none
  else if s.portUp (getF 4 1 e) then some (getF 4 1 e)
  else if e.getLsbD 9 && s.portUp (getF 8 5 e) then some (getF 8 5 e)
  else none

/-- The alternate port of a route other than the one that gave up (R301). -/
def State.altPort (s : State) (dst failed : Nat) : Option Nat :=
  let e := mget 0 s.fab.routes dst
  if !e.getLsbD 0 then none
  else
    (([getF 4 1 e] ++ (if e.getLsbD 9 then [getF 8 5 e] else [])).filter (fun j => j != failed && s.portUp j)).head?

/-- A fabric port's record. -/
def State.fport (s : State) (j : Nat) : FabPort := mget FabPort.idle s.fab.ports j

/-- Set a fabric port's record. -/
def State.setFport (s : State) (j : Nat) (x : FabPort) : State :=
  { s with fab := { s.fab with ports := mset FabPort.idle s.fab.ports j x } }

/-- The address of a port of a part: the prefix and the device identifier × 16 plus the port (R293). -/
def State.ipv6 (s : State) (j dev port : Nat) : Nat :=
  ((s.rg (.fp j) 0x020).toNat + 2 ^ 32 * (s.rg (.fp j) 0x024).toNat) * 2 ^ 64 + dev * 16 + port

/-- The port of a destination part that its route entry names, for a packet that leaves by port j: the alternate where the packet takes it,
else the primary (R293; log entry 126). -/
def State.namedPort (s : State) (dst j : Nat) : Nat :=
  let e := mget 0 s.fab.routes dst
  if e.getLsbD 9 = true ∧ getF 8 5 e = j ∧ getF 4 1 e ≠ j then j else getF 4 1 e

/-- The head of the frame that carries a packet out of a port in Ethernet mode (R292, R293). -/
def State.ethHead (s : State) (j : Nat) (k : FabPkt) : EthHead where
  mac := (s.rg (.fp j) 0x028).toNat + 2 ^ 32 * s.rgF (.fp j) 0x02C 15 0
  tclass := 4 * s.rgF (.fp j) 0x008 12 7
  flow := (Config.flowHash k.src k.dst k.dstPart).toNat
  src := s.ipv6 j s.boot.cfg.deviceId j
  dst := s.ipv6 j k.dst (s.namedPort k.dst j)
  udpSrc := s.rgF (.fp j) 0x030 15 0
  udpDst := s.rgF (.fp j) 0x030 15 0
  prio := if s.rgB (.fp j) 0x008 3 then some (s.rgF (.fp j) 0x008 6 4) else none

/-- Whether a TYPE is a request (R294). -/
def isRequest (typ : Nat) : Bool := [1, 3, 4, 5].contains typ

/-- The 16-byte header of a packet of a TYPE (R294). -/
def pktHeader (typ : Nat) (k : FabPkt) : List Byte :=
  toBytes 4 (typ % 256 + (if k.rt then 256 else 0) + (if k.mark then 512 else 0) + k.cls % 8 * 1024 + cdiv k.data.length 64 * 65536) ++
    toBytes 4 (k.src % 2 ^ 15 + k.dst % 2 ^ 15 * 65536) ++ toBytes 4 (k.dstPart % 16 + k.srcPort % 16 * 16 + k.tag % 2 ^ 24 * 256) ++
    toBytes 4 k.seq.toNat

/-- The 16-byte trailer of a packet: the poison bits of its payload, in order (R294). -/
def pktTrailer (k : FabPkt) : List Byte := toBytes 16 (ofBits k.poison)
where
  /-- Bits from bit 0 on, as a number. -/
  ofBits : List Bool → Nat
    | [] => 0
    | b :: bs => (if b then 1 else 0) + 2 * ofBits bs

/-- The bytes of a packet of a TYPE (R294): header, for a request the address, the payload in 64-byte units, filled up with zeros, and the
trailer. -/
def pktBytes (typ : Nat) (k : FabPkt) : List Byte :=
  pktHeader typ k ++ (if isRequest typ then toBytes 8 (k.addr % 2 ^ 48 + (Config.requestHead k.op k.len).toNat * 2 ^ 48) else []) ++
    k.data ++ List.replicate (cdiv k.data.length 64 * 64 - k.data.length) 0 ++ pktTrailer k

/-- Whether a port runs in Ethernet mode. -/
def State.isEth (s : State) (j : Nat) : Bool := s.rgB (.fp j) 0x000 4

/-- The part and the port at the other end of a port's link, for a packet to or from a part: in direct mode the peer of its training (R302,
R304). -/
def State.otherEnd (s : State) (j dev port : Nat) : Nat × Nat :=
  if s.isEth j then (dev, port) else (s.rgF (.fp j) 0x004 14 0, s.rgF (.fp j) 0x004 19 16)

/-- The 32 bytes of a mark record (R302). -/
def markBytes (time own port peer peerPort : Nat) (received : Bool) (seq : W32) : List Byte :=
  toBytes 8 time ++ toBytes 4 (own % 2 ^ 15 + port % 16 * 2 ^ 16 + (if received then 2 ^ 20 else 0)) ++
    toBytes 4 (peer % 2 ^ 15 + peerPort % 16 * 2 ^ 16) ++ toBytes 4 seq.toNat ++ toBytes 12 0

/-- A mark record goes to every running ring whose mask enables marks; a ring that is full loses it (R302, R426, R429). -/
def State.traceMark (s : State) (port : Nat) (bs : List Byte) : State :=
  (upTo 0 17).foldl (fun t r =>
    let lost := t.ringTakes r (some 2) && !(t.ringLost r).ringRoom r
    let t := t.trace [(r, some 2, bs)]
    if lost then t.bump (.fp port) 0x51C 1 else t) s

/-- A packet with MK = 1 is stamped as it leaves or arrives at a port (R302). -/
def State.stamp (s : State) (j : Nat) (received : Bool) (k : FabPkt) : State :=
  if !k.mark then s
  else
    let (dev, port) := s.otherEnd j (if received then k.src else k.dst) (if received then k.srcPort else s.namedPort k.dst j)
    s.traceMark j (markBytes (s.timeOf (Blk.fp j).stack) s.boot.cfg.deviceId j dev port received k.seq)

/-- What carries a packet out of a port under a frame number (R292): the CRC-32 of a link frame covers its number and the packet (DESIGN
CHOICE, log entry 150). -/
def State.frameOf (s : State) (j typ : Nat) (k : FabPkt) (n : W32) : FabFrame :=
  if s.isEth j then .eth (s.ethHead j k) else .link n (crc32 (toBytes 4 n.toNat ++ pktBytes typ k))

/-- A packet leaves by a port in its frame; its payload is counted (R292, R293, R302, R305, R421). -/
def State.leave (s : State) (j typ : Nat) (k : FabPkt) (n : W32) : State :=
  let s := { s with fab := { s.fab with out := s.fab.out ++ [(typ, k)], frames := s.fab.frames ++ [s.frameOf j typ k n] } }
  ((s.bump64 (.fp j) 0x520 k.data.length).bump64 (.cnt 0) 0x110 k.data.length).stamp j false k

/-- Bytes of the replay buffer that frames take (R299). -/
def replayBytes (l : List SentPkt) : Nat := (l.map (fun p => (pktBytes p.typ p.pkt).length)).sum

/-- The frames that stay in the replay buffer of 512 KiB beside n more bytes: all of them, or the requests alone, which nothing has answered
yet; none where even they leave no room (R299; DESIGN CHOICE, log entry 150). -/
def roomFor (l : List SentPkt) (n : Nat) : Option (List SentPkt) :=
  let keep := l.filter (fun p => isRequest p.typ)
  if replayBytes l + n ≤ 524288 then some l else if replayBytes keep + n ≤ 524288 then some keep else none

/-- A packet goes out by a port in the next frame and is kept for a replay; where the buffer has no room it waits (R294, R299). -/
def State.transmit (s : State) (j typ : Nat) (k : FabPkt) : State :=
  let x := s.fport j
  match (if x.waiting = [] then roomFor x.sentPkts (pktBytes typ k).length else none) with
  | none => s.setFport j { x with waiting := x.waiting ++ [(typ, k)] }
  | some l =>
    let n := if s.isEth j then k.seq else x.nextFrame
    (s.setFport j { x with sentPkts := l ++ [⟨s.time.now, typ, k, n⟩], nextFrame := x.nextFrame + 1 }).leave j typ k n

/-- Packets that waited for room go out in order, as far as there is room now. -/
def State.transmitAll (s : State) (j : Nat) : List (Nat × FabPkt) → State
  | [] => s
  | p :: ps => State.transmitAll (s.transmit j p.1 p.2) j ps

/-- What waits at a port that is up tries again. -/
def State.drainPort (s : State) (j : Nat) : State :=
  let ps := (s.fport j).waiting
  if ps = [] ∨ s.portUp j = false then s else (s.setFport j { s.fport j with waiting := [] }).transmitAll j ps

/-- A packet of this part's own leaves by a port: it takes the next SEQ to its peer (R294, R299). -/
def State.emit (s : State) (j typ : Nat) (k : FabPkt) : State :=
  let x := s.fport j
  let q := mget 0 x.nextSeq k.dst
  (s.setFport j { x with nextSeq := mput x.nextSeq k.dst (q + 1) }).transmit j typ { k with seq := q, srcPort := j }

/-- A packet of this part for itself is delivered: it comes back as one that arrives (R295). -/
def State.loopBack (s : State) (typ : Nat) (k : FabPkt) : State :=
  { s with fab := { s.fab with loop := s.fab.loop ++ [(typ, k)] } }

/-- The fabric port whose 8,192 outstanding remote reads leave no room for n more to a part (R252). -/
def State.readsFull (s : State) (dst n : Nat) : Option Nat :=
  match (if dst = s.boot.cfg.deviceId then none else s.routePort dst) with
  | none => none
  | some j =>
    let out := s.net.reqs.countP (fun r => r.kind == .read && !r.ended && r.state != .queued &&
      (match r.remote with | some x => s.routePort x.1 == some j | none => false))
    if 8192 < out + n then some j else none

/-- The command of a remote access fails (R297): KIND 7, the code in CODE and RESULT, the port in PORT. The first failure stands. -/
def State.remoteFail (s : State) (cid code port : Nat) : State :=
  let t := s.endCmd cid 0x16 { Detail.plain s (s.cmdStack cid) 7 code with port := port }
  t.modCmd cid (fun c => if c.status = 0x16 ∧ c.phase = .ending then { c with result := (c.detail.map (·.code)).getD code } else c)

/-- TYPE of a request's packet (R294). -/
def ReqKind.typ : ReqKind → Nat
  | .read => 1
  | .write => 3
  | .atomic _ => 4
  | .reduce _ => 5
  | .order _ => 0

/-- The opcode a request's packet carries for an atomic or a reduction. -/
def ReqKind.op : ReqKind → Nat
  | .atomic o => o
  | .reduce o => o
  | _ => 0

/-- The packet of a request to another part (R294, R296). -/
def Req.packet (r : Req) (own : Nat) (dst part addr : Nat) (rt : Bool) : FabPkt :=
  { cls := r.cls, mark := false, rt := rt, dst := dst, src := own, srcPort := 0, dstPart := part, tag := r.rid % 2 ^ 24
    seq := 0, addr := addr, op := r.kind.op, len := r.size
    data := match r.kind with
      | .read => []
      | .atomic _ => toBytes r.size r.data.toNat ++ toBytes r.size r.cmp.toNat
      | _ => if r.line = [] then toBytes r.size r.data.toNat else r.line
    poison := [] }

/-- A request goes to another part: by its route, or, with no usable route, the command fails with code 1 (R295, R297); one for the part
itself is delivered. Poisoned data is consumed and not sent (R211). -/
def State.sendRemote (s : State) (r : Req) (dst part addr : Nat) : State :=
  if dst = s.boot.cfg.deviceId then s.loopBack r.kind.typ (r.packet s.boot.cfg.deviceId dst part addr false)
  else
  match s.routePort dst with
  | none => (s.dropReq r.rid).remoteFail r.cid 1 0xFF
  | some j => s.emit j r.kind.typ (r.packet s.boot.cfg.deviceId dst part addr false)

/-- A master releases the records that targets keep of its answered requests (R248). -/
def State.releaseRecords (s : State) (ok : Req → Bool) : State :=
  let done := (s.net.reqs.filter (fun r => r.remote.isNone && r.state == .answered && ok r)).map (·.rid)
  if done.isEmpty then s
  else { s with net := { s.net with
    reqs := s.net.reqs.filter (fun r => !done.contains r.rid), records := s.net.records.filter (fun x => !done.contains x.2) } }

/-- A request among those of the part, under the next number. -/
def State.enter (s : State) (r : Req) : State :=
  { s with net := { s.net with reqs := s.net.reqs ++ [{ r with rid := s.net.nextRid }], nextRid := s.net.nextRid + 1 } }

/-- A request as it leaves its master: the time, the tag of its core that it takes, and whether it is at its place already (R252, R253). -/
def State.leaving (s : State) (r : Req) : Req :=
  { r with
    sentAt := s.time.now
    state := if s.placeSite r.addr = r.site ∧ r.remote.isNone = true then .arrived else .sent
    tag := if r.slot ≤ 70 then (s.tagOf r.site (unitOf r.slot) r.cls).getD 5 else 5 }

/-- Whether two requests come from one master: one core's, or one processor's or port's. -/
def Req.sameMaster (r q : Req) : Bool := r.site == q.site && (decide (r.slot ≤ 70) && decide (q.slot ≤ 70) || r.slot == q.slot && r.lane == q.lane)

/-- A request goes out with the releases of records at the same target (R248). -/
def State.releaseFor (s : State) (r : Req) : State :=
  if r.remote.isSome then s
  else s.releaseRecords (fun q => q.sameMaster r && s.placeSite q.addr == s.placeSite r.addr)

/-- The payload that a request carries (R230). -/
def Req.carries (r : Req) : Nat := match r.kind with | .read => 0 | .atomic _ => 2 * r.size | _ => r.size

/-- The payload that its answer carries. -/
def Req.brings (r : Req) : Nat :=
  match r.kind with | .read => if r.fillL1 then 128 else r.size | .atomic _ => r.size | _ => 0

/-- The packet in which a request enters the network at its master's router (R230, R232, R235); a resend goes on the detour channels (R247). -/
def State.outward (s : State) (r : Req) (attempt : Nat) : Packet :=
  let d := s.placeSite r.addr
  let i := s.portal r d
  { pid := 0, rid := r.rid, response := false, cls := r.cls, at_ := i, input := r.door.input i, since := 0, dest := d
    endpoint := targetEnd r.addr, src := i, detour := decide (0 < attempt), retry := decide (0 < attempt), attempt := attempt, via := [] }

/-- A request's way out of its master: to another part, over the mesh to the router of its place, or straight to the slice beneath its core
(R19, R230, R296). -/
def State.goOut (s : State) (r : Req) : State :=
  match r.remote with
  | some (dst, part, a) => s.sendRemote r dst part a
  | none =>
    if s.placeSite r.addr = r.site then s.bump64 (.cntCore r.site) 0x030 r.carries
    else (if r.slot ≤ 70 then s.bump64 (.cntCore r.site) 0x038 r.carries else s).postPacket (s.outward r 0)

/-- A request leaves its master. -/
def State.send (s : State) (r : Req) : State :=
  let s := s.releaseFor r
  let r := { s.leaving r with rid := s.net.nextRid }
  (s.enter r).goOut r

/-- What keeps a request that waits from leaving: its core has no tag that its class may take (R252, R253), or the fabric port of its route has
no place among its remote reads (R252). -/
def State.heldBy (s : State) (r : Req) (cls : Nat) : Option StallOn :=
  if r.slot ≤ 70 ∧ (s.tagOf r.site (unitOf r.slot) cls).isNone = true then some (.tags r.site)
  else
    match r.kind, r.remote with
    | .read, some (dst, _, _) => (s.readsFull dst 1).map .reads
    | _, _ => none

/-- A request that waits leaves where nothing keeps it, and stalls where something does (R241, R252): the state, and what keeps it. -/
def State.departs (s : State) (r : Req) : State × Option StallOn :=
  let (t, cls) := s.injectFor r r.size
  match t.heldBy r cls with
  | some on => (s.stall (.request r.rid) on, some on)
  | none =>
    let t := (t.unstall (.request r.rid)).releaseFor r
    let r := t.leaving { r with cls := cls }
    ((t.setReq r).goOut r, none)

/-- The number of the unit behind whose first waiting request others wait. -/
def Req.lineUp (r : Req) : Nat := if r.slot ≤ 70 then unitOf r.slot else 4

/-- Requests that wait leave in the order of their units, as far as nothing keeps them; behind one that stalls its unit's others wait
(R252). -/
def State.departAll (s : State) (rs : List Req) : State :=
  (rs.foldl (fun (a : State × List Nat) r =>
    if a.2.contains r.lineUp then a
    else
      match a.1.departs r with
      | (t, none) => (t, a.2)
      | (t, some _) => (t, r.lineUp :: a.2)) (s, [])).1

/-- What waits at a core, or at the processors and ports, leaves. -/
def State.sendQueued (s : State) (site : Nat) : State :=
  s.departAll (s.net.reqs.filter (fun r => r.site == site && r.state == .queued))

/-! ## Requests of masters other than threads -/

/-- Who accesses memory: an engine of a core (slot 65 staging, 66 feeding, 67 prior values, 68 write-out, each with its tile's number as lane; 69
DMA with its job as lane; 70 espalier), a command's processor (71, at site 0xFFFF, its home as lane), a host port (72), a fabric port (73), the
debug port (75); for which command, block, partition and under which segments; and, of a port, the number of the access. -/
structure Eng where
  site : Nat
  slot : Nat
  lane : Nat
  cid : Nat
  lin : Nat
  part : Nat
  segs : Map W32
  lbase : Nat
  lunits : Nat
  index : Nat
  serial : Nat
deriving DecidableEq, Repr

/-- The site that stands for masters that are no cores. -/
def noSite : Nat := 0xFFFF

/-- The command number of accesses that no command makes. -/
def noCid : Nat := 2 ^ 64

/-- Whether a request is a master's. -/
def Eng.owns (e : Eng) (r : Req) : Bool :=
  r.site == e.site && r.slot == e.slot && r.lane == e.lane && r.cid == e.cid && r.serial == e.serial

/-- A request of a master. -/
def Eng.req (e : Eng) (kind : ReqKind) (remote : Option (Nat × Nat × Nat)) (a n : Nat) : Req :=
  { rid := 0, cid := e.cid, lin := e.lin, site := e.site, slot := e.slot, lane := e.lane, serial := e.serial
    index := e.index, kind := kind, space := 2, ea := a, addr := a, size := n, data := 0, cmp := 0, pois := false
    dest := none, uni := false, sx := false, fillL1 := false, cls := 7, part := e.part, sentAt := 0
    attempt := 0, state := .queued, result := 0, rpois := false, remote := remote
    heldOnce := false, dropFill := false, red := none, line := [], lpois := [], refused := false, tag := 6 }

/-- The request of a master for a run, if it is under way or answered. -/
def State.engReq (s : State) (e : Eng) (kind : ReqKind) (remote : Option (Nat × Nat × Nat)) (a n : Nat) : Option Req :=
  s.net.reqs.find? (fun r => e.owns r && r.kind == kind && r.remote == remote && r.addr == a && r.size == n && r.state != .answered)

/-- Whether a request of a master has yet to be answered. -/
def State.engBusy (s : State) (e : Eng) : Bool := s.net.reqs.any (fun r => e.owns r && !r.ended)

/-- A master has used its answers. -/
def State.used (s : State) (e : Eng) : State :=
  { s with net := { s.net with reqs := s.net.reqs.filterMap (fun r => if e.owns r && r.state == .ready then r.over else some r) } }

/-- A write of a master to a place of this part, cut at line boundaries (R146, R230). -/
def State.queueWrite (s : State) (e : Eng) (a : Nat) (bs : List PByte) : State :=
  (linePieces a bs.length).foldl (fun t x =>
    let r := e.req .write none x.1 x.2
    let d := (bs.drop (x.1 - a)).take x.2
    t.enter { r with line := d.map (·.1), lpois := wordMarks r.markOff d }) s

/-- A read of a master of a place of this part, cut at line boundaries, as far as it is not under way. -/
def State.queueRead (s : State) (e : Eng) (a n : Nat) : State :=
  (linePieces a n).foldl (fun t x => if (t.engReq e .read none x.1 x.2).isSome then t else t.enter (e.req .read none x.1 x.2)) s

/-! ## Control messages (R232, R250) -/

/-- A control message on its way, or whose answer is. -/
def State.order? (s : State) (msg : CtlMsg) : Option Req := s.net.reqs.find? (fun r => r.kind == .order msg && !r.ended)

/-- Whether a request is an end order that its core holds until it can acknowledge (R23). -/
def Req.held (r : Req) : Bool := r.isOrder && r.state == .missing

/-- A control message of 64 bytes as a command processor sends it, by the processor's stack × 4 + number, for a command. -/
def orderReq (home cid : Nat) (msg : CtlMsg) : Req :=
  Eng.req ⟨noSite, 71, home, cid, 0, 0, [], 0, 0, 0, 1⟩ (.order msg) none (lmemBase + msg.site * 0x80000) 64

/-- A control message sets out from the stack controller (R232). -/
def State.sendOrder (s : State) (home cid : Nat) (msg : CtlMsg) : State := (s.enter (orderReq home cid msg)).sendQueued noSite

/-- A control message has been carried out, or a core that is fenced refuses it: its answer sets out (R184, R374). -/
def State.obeyed (s : State) (r : Req) : State :=
  (s.respond r).setReq { r with state := .performed, refused := hasSite s.roster.fenced (s.placeSite r.addr) }

end Sys2Proof.Machine
end

