-- ==== Sys2Proof/Machine/Operands.lean ====
section
/-! DEFINITION. What every thread instruction shares: which group and path issues (R99, R102), registers and predicates
(R116 to R118), reserved fields (R120), the order of causes (R141), the advance of a path (R102). -/

namespace Sys2Proof.Machine

/-! ## Registers (R116, R117). A register is named n for vn and 256 + n for un. -/

/-- A blank lane: no thread (R89). -/
def Thread.none : Thread := { Thread.start 0 with wait := .exited }

/-- The thread of a lane. -/
def Group.th (g : Group) (lane : Nat) : Thread := nth Thread.none g.threads lane

/-- The number of a register field under its uniform flag (R120). -/
def regNo (uni : Bool) (n : Nat) : Nat := if uni then 256 + n else n

/-- The value a lane reads from a register; v255 reads as 0 (R116). -/
def Group.reg (g : Group) (lane r : Nat) : W32 :=
  if 256 ≤ r then mget 0 g.uregs (r - 256) else if r = 255 then 0 else mget 0 (g.th lane).regs r

/-- The poison bit a lane reads with a register. -/
def Group.rpois (g : Group) (lane r : Nat) : Bool :=
  if 256 ≤ r then g.upois.contains (r - 256) else decide (r ≠ 255) && (g.th lane).rpois.contains r

/-- Set a poison mark in a list of register numbers. -/
def markNat (m : List Nat) (i : Nat) (p : Bool) : List Nat := if p then insNat m i else delNat m i

/-- Change the thread of a lane. -/
def Group.modTh (g : Group) (lane : Nat) (f : Thread → Thread) : Group :=
  { g with threads := setNth g.threads lane (f (g.th lane)) }

/-- Write a lane's thread register; a write to v255 is discarded (R116). -/
def Group.setV (g : Group) (lane n : Nat) (v : W32) (p : Bool) : Group :=
  if n = 255 then g
  else g.modTh lane (fun t => { t with regs := mset 0 t.regs n v, rpois := markNat t.rpois n p })

/-- Write a uniform register. -/
def Group.setU (g : Group) (n : Nat) (v : W32) (p : Bool) : Group :=
  { g with uregs := mset 0 g.uregs n v, upois := markNat g.upois n p }

/-- One lane's result: lane, value, poison. -/
abbrev Lane := Nat × W32 × Bool

/-- Write results, given by rising lane, to register r: each lane its own, or the lowest lane's to a uniform register
(R117). -/
def Group.write (g : Group) (r : Nat) (outs : List Lane) : Group :=
  if 256 ≤ r then
    (match outs with
     | [] => g
     | (_, v, p) :: _ => g.setU (r - 256) v p)
  else outs.foldl (fun h o => h.setV o.1 r o.2.1 o.2.2) g

/-- Predicate n of a lane; p7 is true (R116). -/
def Group.pred (g : Group) (lane n : Nat) : Bool := if n = 7 then true else (g.th lane).preds.getLsbD n

/-- A predicate word with bit n set to b; bit 7 does not exist (R116). -/
def setPredBit (p : BitVec 7) (n : Nat) (b : Bool) : BitVec 7 :=
  if b then p ||| ((1 : BitVec 7) <<< n) else p &&& ~~~ ((1 : BitVec 7) <<< n)

/-- Write predicate n of a lane; a write to p7 is discarded (R116). -/
def Group.setPred (g : Group) (lane n : Nat) (b : Bool) : Group :=
  if n = 7 then g else g.modTh lane (fun t => { t with preds := setPredBit t.preds n b })

/-! ## Paths (R102, R103) -/

/-- Whether a lane's thread is runnable. -/
def Group.runs (g : Group) (lane : Nat) : Bool := (g.th lane).wait == .run

/-- The lanes of the runnable path at an instruction index. -/
def Group.pathAt (g : Group) (pc : Nat) : List Nat :=
  (upTo 0 32).filter (fun l => g.runs l && (g.th l).pc == pc)

/-- The lowest lane of each runnable path, rising. -/
def Group.lows (g : Group) : List Nat :=
  (upTo 0 32).filter (fun l => g.runs l && (upTo 0 l).all (fun k => !(g.runs k && (g.th k).pc == (g.th l).pc)))

/-- The next active path after one whose lowest lane was cur: cyclic order by lowest lane, the count at 0 (R102). -/
def Group.nextPath (g : Group) (cur : Nat) : Group :=
  let ls := g.lows
  let pick := match ls.find? (fun l => decide (cur < l)) with
    | some l => some l
    | none => ls.head?
  { g with act := pick, count := 0 }

/-- Lanes that move on to an index. -/
def Group.moveTo (g : Group) (lanes : List Nat) (pc : Nat) : Group :=
  lanes.foldl (fun h l => h.modTh l (fun t => { t with pc := pc })) g

/-- One more instruction issued on the active path: after 64, another runnable path takes over (R102). -/
def Group.counted (g : Group) (low : Nat) : Group :=
  let g := { g with count := g.count + 1 }
  if 64 ≤ g.count && decide (1 < g.lows.length) then g.nextPath low else g

/-- The path moves to the next instruction (R102). -/
def Group.advance (g : Group) (path : List Nat) (low pc : Nat) : Group := (g.moveTo path (pc + 1)).counted low

/-! ## Issue -/

/-- Where an instruction issues: core and group as they stand, the active path, its index and its lowest lane. -/
structure Ctx where
  site : Nat
  slot : Nat
  core : Core
  grp : Group
  blk : Block
  cmd : Cmd
  low : Nat
  pc : Nat
  path : List Nat
deriving DecidableEq, Repr

/-- Whether the debug port holds a group (R434). -/
def State.halted (s : State) (site slot : Nat) : Bool :=
  s.rgB (.dbg (siteStack site)) (dbgOff site + 0x08 + slot / 32 * 4) (slot % 32)

/-- Whether a step of a group is pending (R434). -/
def State.stepPending (s : State) (site slot : Nat) : Bool :=
  s.rgB (.dbg (siteStack site)) (dbgOff site) 2 &&
    decide (s.rgF (.dbg (siteStack site)) (dbgOff site) 9 4 = slot)

/-- Whether groups of a block of a command may issue: it runs; or it came to its end in this tick by a stall, an exception or poison, whose
others of the same device time still count (R141, R142; log entry 116). -/
def State.mayIssue (s : State) (c : Cmd) (b : Block) : Bool :=
  (c.phase == .running && !b.stopped) ||
    (c.phase == .ending && [0x10, 0x11, 0x12].contains c.status && c.detail.any (fun d => d.time == s.timeOf (if d.site = 0xFFF then s.cpStack c else siteStack d.site)))

/-- The group in a slot and the path that may issue from it (R99, R102); none while it may not. -/
def State.issueCtx (s : State) (w : At) : Option Ctx :=
  let k := s.core w.site
  match mfind k.groups w.slot with
  | none => none
  | some g =>
    match mfind k.blocks g.blk with
    | none => none
    | some b =>
      match s.cmd? b.cid, g.act with
      | some c, some low =>
        if s.mayIssue c b && !g.stopped && !g.espWait && g.runs low &&
           (!s.halted w.site w.slot || s.stepPending w.site w.slot) then
          let path := g.pathAt (g.th low).pc
          some ⟨w.site, w.slot, k, g, b, c, path.headD low, (g.th low).pc, path⟩
        else none
      | _, _ => none

/-- The breakpoint that matches a group's next instruction, if one is enabled (R433, R434). -/
def State.breakpoint (s : State) (c : Ctx) : Option Nat :=
  (upTo 0 8).find? (fun i =>
    let v := s.rg (.dbg (siteStack c.site)) (dbgOff c.site + 0x10 + 4 * i)
    v.getLsbD 20 && decide (getF 19 0 v = c.pc) && (v.getLsbD 21 || decide (getF 27 22 v = c.slot)))

/-- A breakpoint or watchpoint halts a group (R433, R434). -/
def State.hitHalt (s : State) (site slot which : Nat) (wp : Bool) : State :=
  let b := Blk.dbg (siteStack site)
  let o := dbgOff site
  let s := s.wgB b (o + 0x08 + slot / 32 * 4) (slot % 32) true
  (((s.wgB b (o + 4) 0 true).wgB b (o + 4) 1 wp).wgF b (o + 4) 4 2 which).wgF b (o + 4) 10 5 slot

/-- Change a group. -/
def State.modGroup (s : State) (site slot : Nat) (f : Group → Group) : State :=
  s.modCore site (fun k => { k with groups := mmod k.groups slot f })

/-- Change a block. -/
def State.modBlock (s : State) (site b : Nat) (f : Block → Block) : State :=
  s.modCore site (fun k => { k with blocks := mmod k.blocks b f })

/-- Whether a thread is neither waiting at a barrier or a merge point nor in a lock wait, nor gone (R89, R109). -/
def Thread.moves (t : Thread) : Bool := t.wait == .run && !t.lock

/-- The stall timer of a block after n core cycles (R109): it stands still while a group of the block is halted, and restarts where a
thread moves. -/
def stallAfter (k : Core) (halted : Nat → Bool) (n b : Nat) (x : Block) : Block :=
  let gs := k.groupsOf b
  if gs.any (fun g => halted g.1) then x
  else if gs.any (fun g => g.2.threads.any Thread.moves) then { x with stall := 0 }
  else { x with stall := min (2 ^ 22) (x.stall + n) }

/-- The stall timers of a core's blocks after n core cycles (R109). -/
def Core.stalled (k : Core) (halted : Nat → Bool) (n : Nat) : Core :=
  { k with blocks := k.blocks.map (fun (e : Nat × Block) => (e.1, stallAfter k halted n e.1 e.2)) }

/-- One issue: the round robin moves on, a pending step is used up, 32 ÷ w issue cycles are counted, and with them the stall timers of the
core run (R100, R109, R113, R434). -/
def State.issued (s : State) (c : Ctx) : State :=
  let n := 32 / max 8 c.blk.width
  let halted (g : Nat) : Bool := s.halted c.site g
  let s := s.modCore c.site (fun k => { k.stalled halted n with rr := (c.slot + 1) % 64 })
  let s := if s.stepPending c.site c.slot then s.wgB (.dbg (siteStack c.site)) (dbgOff c.site) 2 false else s
  let s := s.modGroup c.site c.slot (fun g => { g with bpSkip := false })
  (s.bump64 (.cntCore c.site) 0x000 n).bump64 (.cntCore c.site) 0x008 n

/-- The group of the context takes a new value and the instruction has issued. -/
def State.put (s : State) (c : Ctx) (g : Group) : State := (s.modGroup c.site c.slot (fun _ => g)).issued c

/-- An exception stops the group at the instruction and the command ends with KERNEL_EXCEPTION (R140). -/
def State.raise (s : State) (c : Ctx) (code lane trap : Nat) : State :=
  let t := (s.modGroup c.site c.slot (fun g => { g with stopped := true })).issued c
  t.endCmd c.blk.cid 0x10 ⟨1, code, c.site, c.slot, c.grp.blk, lane, c.pc, 0xFF, trap, s.timeOf (siteStack c.site)⟩

/-- A thread consumes poison: the instruction has no effect (R139, R212). -/
def State.consume (s : State) (c : Ctx) (lane : Nat) : State :=
  let t := (s.modGroup c.site c.slot (fun g => { g with stopped := true })).issued c
  t.consumeThread c.site c.slot c.grp.blk c.blk lane c.pc

/-- Device address of an instruction of the command (R119, R124). -/
def Ctx.codeAddr (c : Ctx) (i : Nat) : Nat := c.cmd.codeBase + 8 * i

/-- Whether the instruction word of the group is fetched poisoned (R119, R211): it was so when the command started, as writes to its code since
are not seen (log entry 17). -/
def State.codePoisoned (_ : State) (c : Ctx) : Bool := c.cmd.codePoison.contains (c.codeAddr c.pc / 32)

/-- The threads of the path whose guard passes (R120), rising. -/
def Ctx.lanes (c : Ctx) (pg : BitVec 3) (pn : Bool) : List Nat :=
  c.path.filter (fun l => c.grp.pred l pg.toNat != pn)

/-- Registers with a result still on its way to a group (R99, R101). -/
def State.awaited (s : State) (site slot : Nat) : List Nat :=
  (s.net.reqs.filter (fun r => r.site == site && r.slot == slot)).flatMap (fun r =>
    match r.dest with
    | some d => upTo (regNo r.uni d) (if r.size ≤ 4 then 1 else r.size / 4)
    | none => [])

/-- What an instruction asks of the shared checks: its guard, whether a reserved field is broken, the registers it reads
and writes, those whose poison it consumes. -/
structure Need where
  pg : BitVec 3
  pn : Bool
  legal : Bool
  regs : List Nat
  eats : List Nat
deriving DecidableEq, Repr

/-- The first lane that would consume poison. -/
def Ctx.eater (c : Ctx) (lanes eats : List Nat) : Option Nat :=
  lanes.find? (fun l => eats.any (fun r => c.grp.rpois l r))

/-- Whether a thread register lies at or above REGS (R94). -/
def Ctx.badReg (c : Ctx) (r : Nat) : Bool := decide (r < 255) && decide (c.cmd.nregs ≤ r)

/-- An instruction issues: the causes of R141 in their order, then its own effect on the lanes whose guard passes. With no
such lane it only moves on (R120). With a register still awaited it does not issue, whatever its guard (R99). -/
def runThread (w : At) (s : State) (n : Need) (body : Ctx → List Nat → State) : Out :=
  if s.sites ≤ w.site ∨ 64 ≤ w.slot then .next s
  else
    match s.issueCtx w with
    | none => .next s
    | some c =>
      match (if c.grp.bpSkip || s.halted w.site w.slot then none else s.breakpoint c) with
      | some i => .next (s.hitHalt w.site w.slot i false)
      | none =>
        if c.cmd.codeLen ≤ c.pc then .next (s.raise c 0x04 c.low 0)
        else if s.codePoisoned c then .next (s.consume c c.low)
        else if n.legal && n.regs.any (fun r => (s.awaited w.site w.slot).contains r) then .next s
        else
          match c.lanes n.pg n.pn with
          | [] => .next (s.put c (c.grp.advance c.path c.low c.pc))
          | l :: ls =>
            if !n.legal then .next (s.raise c 0x01 l 0)
            else
              match c.eater (l :: ls) n.eats with
              | some e => .next (s.consume c e)
              | none =>
                if n.regs.any c.badReg then .next (s.raise c 0x02 l 0)
                else .next (body c (l :: ls))

/-! ## Fields (R120) -/

/-- What an instruction makes of an 8-bit register field. -/
inductive Use where
  /-- not used: the field and its flag must be 0 -/
  | no
  /-- a register; under the uniform flag u0 to u63 -/
  | reg
  /-- a predicate number in bits [2:0] -/
  | pred
  /-- a meaning of its own in all 8 bits -/
  | raw
deriving DecidableEq, Repr

/-- Whether a field and its uniform flag keep R120. -/
def Use.ok (u : Use) (n : BitVec 8) (flag : Bool) : Bool :=
  match u with
  | .no => decide (n = 0) && !flag
  | .reg => !flag || decide (n.toNat < 64)
  | .pred => decide (n.toNat < 8) && !flag
  | .raw => !flag

/-- The register a field names, where it names one. -/
def Use.reg? (u : Use) (n : BitVec 8) (flag : Bool) : List Nat :=
  match u with
  | .reg => [regNo flag n.toNat]
  | _ => []

/-- How an R-format instruction uses its fields, which MOD values it defines, and which sources it consumes poison from. -/
structure RUse where
  d : Use
  a : Use
  b : Use
  c : Use
  mods : Nat
  eatA : Bool
  eatB : Bool
deriving DecidableEq, Repr

/-- Two sources, no MOD. -/
def RUse.dab : RUse := ⟨.reg, .reg, .reg, .no, 1, false, false⟩
/-- One source, no MOD. -/
def RUse.da : RUse := ⟨.reg, .reg, .no, .no, 1, false, false⟩
/-- Three sources, no MOD. -/
def RUse.dabc : RUse := ⟨.reg, .reg, .reg, .reg, 1, false, false⟩

/-- The shared checks of an R-format instruction; `extra` is what its own fields add. -/
def RUse.need (u : RUse) (f : RForm) (extra : Bool) : Need :=
  { pg := f.pg, pn := f.pn
    legal := u.d.ok f.d f.ud && u.a.ok f.a f.ua && u.b.ok f.b f.ub && u.c.ok f.c f.uc &&
      decide (f.mod.toNat < u.mods) && decide (f.rsv = 0) && extra
    regs := u.d.reg? f.d f.ud ++ u.a.reg? f.a f.ua ++ u.b.reg? f.b f.ub ++ u.c.reg? f.c f.uc
    eats := (if u.eatA then u.a.reg? f.a f.ua else []) ++ (if u.eatB then u.b.reg? f.b f.ub else []) }

/-- A lane's source values and the OR of their poison bits (R139). -/
structure Src where
  a : W32
  b : W32
  c : W32
  p : Bool
deriving DecidableEq, Repr

/-- Read the sources of an R-format instruction in a lane. -/
def RUse.read (u : RUse) (f : RForm) (g : Group) (lane : Nat) : Src :=
  let ra := regNo f.ua f.a.toNat
  let rb := regNo f.ub f.b.toNat
  let rc := regNo f.uc f.c.toNat
  { a := if u.a = .reg then g.reg lane ra else 0
    b := if u.b = .reg then g.reg lane rb else 0
    c := if u.c = .reg then g.reg lane rc else 0
    p := (decide (u.a = .reg) && g.rpois lane ra) || (decide (u.b = .reg) && g.rpois lane rb) ||
      (decide (u.c = .reg) && g.rpois lane rc) }

/-- The group after an R-format instruction that writes D: every lane's result, then the path moves on. -/
def aluGroup (u : RUse) (f : RForm) (op : Ctx → Nat → Src → W32) (c : Ctx) (lanes : List Nat) : Group :=
  (c.grp.write (regNo f.ud f.d.toNat)
    (lanes.map (fun l => let x := u.read f c.grp l; (l, op c l x, x.p)))).advance c.path c.low c.pc

/-- An R-format instruction that computes D from its sources. -/
def runAlu (w : At) (s : State) (f : RForm) (u : RUse) (op : Ctx → Nat → Src → W32) : Out :=
  runThread w s (u.need f true) (fun c lanes => s.put c (aluGroup u f op c lanes))

/-- The shared checks of an I-format instruction. -/
def iNeed (f : IForm) (useA : Bool) (dst : Use) (extra : Bool) (eatA : Bool) : Need :=
  { pg := f.pg, pn := f.pn
    legal := dst.ok f.d f.ud && (if useA then Use.reg.ok f.a f.ua else Use.no.ok f.a f.ua) &&
      decide (f.rsv = 0) && extra
    regs := dst.reg? f.d f.ud ++ (if useA then [regNo f.ua f.a.toNat] else [])
    eats := if eatA then [regNo f.ua f.a.toNat] else [] }

/-- The group after an I-format instruction that writes D. -/
def immGroup (f : IForm) (useA : Bool) (op : W32 → W32 → W32) (c : Ctx) (lanes : List Nat) : Group :=
  (c.grp.write (regNo f.ud f.d.toNat) (lanes.map (fun l =>
    let r := regNo f.ua f.a.toNat
    (l, op (if useA then c.grp.reg l r else 0) f.imm, useA && c.grp.rpois l r)))).advance c.path c.low c.pc

/-- An I-format instruction that computes D from A and IMM. -/
def runImm (w : At) (s : State) (f : IForm) (useA : Bool) (op : W32 → W32 → W32) : Out :=
  runThread w s (iNeed f useA .reg true false) (fun c lanes => s.put c (immGroup f useA op c lanes))

end Sys2Proof.Machine
end

