-- ==== Sys2Proof/Machine/Flags.lean ====
section
/-! DEFINITION. Predicates: the conditions of R121, and the instructions' way of setting predicates. -/

namespace Sys2Proof.Machine

/-- The D field of a set-predicate opcode: COND, bit 3 clear, PD (R121). -/
def condOf (d : BitVec 8) : Nat := d.toNat / 16
/-- PD (R121). -/
def pdOf (d : BitVec 8) : Nat := d.toNat % 8

/-- Whether a set-predicate D field is legal: bit 3 clear and COND below the limit of its compare (R121). -/
def condOk (d : BitVec 8) (limit : Nat) : Bool := !d.getLsbD 3 && decide (condOf d < limit)

/-- COND 0 to 5 from the order of the operands (R121). -/
def condOrd (cond : Nat) (lt eq : Bool) : Bool :=
  match cond with
  | 0 => eq
  | 1 => !eq
  | 2 => lt
  | 3 => lt || eq
  | 4 => !lt && !eq
  | _ => !lt

/-- A signed compare. -/
def condS (cond : Nat) (a b : W32) : Bool := condOrd cond (a.slt b) (a == b)
/-- An unsigned compare. -/
def condU (cond : Nat) (a b : W32) : Bool := condOrd cond (a.ult b) (a == b)
/-- An FP32 compare: with a NaN only NE and UN hold; OR holds without one (R121). -/
def condF (cond : Nat) (a b : W32) : Bool :=
  let un := isNanFV (dec32 a) || isNanFV (dec32 b)
  match cond with
  | 6 => un
  | 7 => !un
  | 1 => un || !feq a b
  | _ => !un && condOrd cond (flt a b) (feq a b)

/-- The group after a set-predicate instruction: PD in each lane, then the path moves on. -/
def setpGroup (pd : Nat) (val : Nat → Bool) (c : Ctx) (lanes : List Nat) : Group :=
  (lanes.foldl (fun g l => g.setPred l pd (val l)) c.grp).advance c.path c.low c.pc

/-- A set-predicate instruction of the R format; a poisoned source is consumed (R139). -/
def runSetp (w : At) (s : State) (f : RForm) (limit : Nat) (cond : Nat → W32 → W32 → Bool) : Out :=
  let u : RUse := ⟨.raw, .reg, .reg, .no, 1, true, true⟩
  runThread w s (u.need f (condOk f.d limit)) (fun c lanes =>
    s.put c (setpGroup (pdOf f.d) (fun l => let x := u.read f c.grp l; cond (condOf f.d) x.a x.b) c lanes))

/-- A set-predicate instruction of the I format. -/
def runSetpI (w : At) (s : State) (f : IForm) (limit : Nat) (cond : Nat → W32 → W32 → Bool) : Out :=
  runThread w s (iNeed f true .raw (condOk f.d limit) true) (fun c lanes =>
    s.put c (setpGroup (pdOf f.d) (fun l =>
      cond (condOf f.d) (c.grp.reg l (regNo f.ua f.a.toNat)) f.imm) c lanes))

end Sys2Proof.Machine
end

