-- ==== Sys2Proof/Machine/ThreadMem.lean ====
section
/-! DEFINITION. Loads, stores, atomics and in-cache reductions of threads (R130 to R133, R139, R186, R383). Local memory is
accessed as the instruction issues; every other access becomes a request that SLICE_READ and its kin perform at its place. -/

namespace Sys2Proof.Machine

/-- What the effective address of a lane is (R130). -/
inductive Ea where
  | ok (addr ea : Nat) (page : Option (Nat × Nat × Nat))
  | exc (code : Nat)
  | eat
deriving DecidableEq, Repr

/-- The registers of a base: one, or the pair A, A+1 of SPACE 2 and 3 (R130). -/
def baseRegs (space : Nat) (ua : Bool) (a : Nat) : List Nat := upTo (regNo ua a) (if 2 ≤ space then 2 else 1)

/-- The registers of a datum of n bytes: one, a pair or a quad (R118, R130). -/
def dataRegs (u : Bool) (d n : Nat) : List Nat := upTo (regNo u d) (if n ≤ 4 then 1 else n / 4)

/-- Whether a register field is aligned for a datum of n bytes (R118). -/
def aligned (d n : Nat) : Bool := decide (n ≤ 4) || decide (d % (n / 4) = 0)

/-- The effective address of one lane, checked in the order of the exception codes (R130, R141, R196). -/
def State.effAddr (s : State) (c : Ctx) (space ra : Nat) (off : Int) (n lane : Nat) : Ea :=
  let a := (c.grp.reg lane ra).toNat
  let hi := (c.grp.reg lane (ra + 1)).toNat
  match space with
  | 0 =>
    let x := (a : Int) + off
    if x % n ≠ 0 then .exc 3
    else if x < 0 ∨ c.blk.lmemUnits * 4096 < x + n then .exc 4
    else .ok (lmemAddr c.site c.blk x.toNat) x.toNat none
  | 1 =>
    let x := (a : Int) + off
    let h := siteHalf c.site
    let sl := siteSlice c.site
    if x % n ≠ 0 then .exc 3
    else if x < 0 ∨ s.winSize h sl * 0x100000 < x + n ∨ s.winPart h sl ≠ c.cmd.part then .exc 4
    else .ok (winBase + c.site * 0x400000 + x.toNat) x.toNat none
  | 2 =>
    let x := ((((a + hi % 65536 * 2 ^ 32 : Nat) : Int) + off) % 2 ^ 48).toNat
    if x % n ≠ 0 then .exc 3
    else if 65536 ≤ hi ∨ s.reach c.cmd.part x n = false then .exc 4
    else .ok x x none
  | _ =>
    let x := (hi : Int) + off
    if x % n ≠ 0 then .exc 3
    else if x < 0 then .exc 5
    else
      match s.translate c.core.trans c.cmd.part a x.toNat n with
      | .at_ y pg => .ok y x.toNat (some (a, x.toNat, pg))
      | .poison => .eat
      | .ctxRange => .exc 5
      | .addrRange => .exc 4

/-- The lowest lane whose address gives a code. -/
def laneWith (es : List (Nat × Ea)) (code : Nat) : Option Nat :=
  (es.find? (fun e => e.2 == .exc code)).map (·.1)

/-- A memory instruction: addresses of every lane, consumption first, then the lowest exception code (R141), then its
effect on (lane, address, address in its space). -/
def runMem (w : At) (s : State) (n : Need) (space ra : Nat) (off : Int) (size : Nat)
    (body : State → Ctx → List (Nat × Nat × Nat) → State) : Out :=
  runThread w s n (fun c lanes =>
    let es := lanes.map (fun l => (l, s.effAddr c space ra off size l))
    match es.find? (fun e => e.2 == .eat) with
    | some e => s.consume c e.1
    | none =>
      match [3, 4, 5].findSome? (fun k => (laneWith es k).map (fun l => (k, l))) with
      | some (k, l) => s.raise c k l 0
      | none =>
        let t := es.foldl (fun t e =>
          match e.2 with
          | .ok _ _ (some (x, p, pg)) => t.keepXlat c.site x p pg
          | _ => t) s
        body t c (es.filterMap (fun e => match e.2 with | .ok a x _ => some (e.1, a, x) | _ => none)))

end Sys2Proof.Machine

namespace Sys2Proof

open Sys2Proof.Machine

/-- OFFSET, sign-extended (R130). -/
def MForm.offset (f : MForm) : Int := f.off.toInt
/-- B of an atomic or reduction. -/
def MForm.b (f : MForm) : Nat := fld 23 16 f.off.toNat
/-- C of an atomic or reduction. -/
def MForm.c (f : MForm) : Nat := fld 15 8 f.off.toNat
/-- SPACE. -/
def MForm.sp (f : MForm) : Nat := f.space.toNat
/-- The access width in bytes. -/
def MForm.bytes (f : MForm) : Nat := sizeBytes f.size.toNat

/-- Fields that every M-format instruction checks (R118, R120): the base register, aligned where it is a pair. -/
def MForm.baseOk (f : MForm) : Bool :=
  decide (f.rsv = 0) && Use.reg.ok f.a f.ua && (decide (f.sp < 2) || decide (f.a.toNat % 2 = 0))

end Sys2Proof

namespace Sys2Proof.Machine

/-- The checks of a load (R130). -/
def loadNeed (f : MForm) : Need :=
  { pg := f.pg, pn := f.pn
    legal := f.baseOk && decide (f.size.toNat ≤ 4) && (!f.sx || decide (f.size.toNat ≤ 1)) && Use.reg.ok f.d f.ud &&
      aligned f.d.toNat f.bytes
    regs := baseRegs f.sp f.ua f.a.toNat ++ dataRegs f.ud f.d.toNat f.bytes
    eats := baseRegs f.sp f.ua f.a.toNat }

/-- The checks of a store (R130). -/
def storeNeed (f : MForm) : Need :=
  { loadNeed f with
    legal := f.baseOk && decide (f.size.toNat ≤ 4) && !f.sx && decide (f.sp ≠ 3) && Use.reg.ok f.d f.ud &&
      aligned f.d.toNat f.bytes }

/-- The checks of an atomic (R132, R139): cas for ACAS, wide where SIZE 3 is allowed. With RET 0 the instruction does not use D and UD, which
R120 then reserves (DEDUCED, log entry 119). -/
def atomicNeed (f : MForm) (cas wide : Bool) : Need :=
  { pg := f.pg, pn := f.pn
    legal := f.baseOk && decide (f.sp ≠ 3) && (decide (f.size = 2) || (wide && decide (f.size = 3))) &&
      decide (f.off.toNat % 256 = 0) && (cas || decide (f.c = 0)) && aligned f.b f.bytes && (!cas || aligned f.c f.bytes) &&
      (if f.sx then Use.reg.ok f.d f.ud && aligned f.d.toNat f.bytes else Use.no.ok f.d f.ud)
    regs := baseRegs f.sp f.ua f.a.toNat ++ dataRegs false f.b f.bytes ++ (if cas then dataRegs false f.c f.bytes else []) ++
      (if f.sx then dataRegs f.ud f.d.toNat f.bytes else [])
    eats := baseRegs f.sp f.ua f.a.toNat ++ dataRegs false f.b f.bytes ++ (if cas then dataRegs false f.c f.bytes else []) }

/-- The checks of a reduction (R133, R139). -/
def reduceNeed (f : MForm) (op : Nat) : Need :=
  { pg := f.pg, pn := f.pn
    legal := f.baseOk && (decide (f.sp = 1) || decide (f.sp = 2)) && decide (f.bytes = reduceSize op) &&
      decide (f.off.toNat % 65536 = 0) && !f.sx && Use.no.ok f.d f.ud
    regs := baseRegs f.sp f.ua f.a.toNat ++ [f.b]
    eats := baseRegs f.sp f.ua f.a.toNat }

/-- A datum of n bytes read from registers, lowest register first; with the OR of the poison bits. -/
def Group.datum (g : Group) (lane : Nat) (rs : List Nat) (n : Nat) : Nat × Bool :=
  (ofBytes ((rs.flatMap (fun r => toBytes 4 (g.reg lane r).toNat)).take n), rs.any (fun r => g.rpois lane r))

/-- The words a load writes, extended as SX says (R130). -/
def loadWords (n : Nat) (sx : Bool) (v : Nat) : List W32 :=
  if n < 4 then [if sx then BitVec.ofInt 32 (sint (8 * n) v) else BitVec.ofNat 32 v]
  else (upTo 0 (n / 4)).map (fun i => BitVec.ofNat 32 (v / 2 ^ (32 * i)))

/-- Write a loaded datum into registers from r on (R130, R210). -/
def Group.writeData (g : Group) (lane r : Nat) (ws : List W32) (p : Bool) : Group :=
  ((upTo 0 ws.length).zip ws).foldl (fun h x => h.write (r + x.1) [(lane, x.2, p)]) g

/-- The L1 line of an address, if the core holds it. -/
def Core.l1Line (k : Core) (a : Nat) : Option L1Line := k.l1.find? (fun x => x.line == a / 128)

/-- Make a line the most recently used (R451). -/
def Core.l1Use (k : Core) (a : Nat) : Core :=
  match k.l1Line a with
  | some x => { k with l1 := x :: k.l1.filter (fun y => y.line != a / 128) }
  | none => k

/-- Fill a line: eight ways of a set hold the most recently used lines (R451). -/
def Core.l1Fill (k : Core) (x : L1Line) : Core :=
  let rest := k.l1.filter (fun y => y.line != x.line)
  let keep := (rest.filter (fun y => y.line % 128 == x.line % 128)).take 7
  { k with l1 := x :: rest.filter (fun y => y.line % 128 != x.line % 128 || keep.contains y) }

/-- A store updates the line of its core's L1 if the line is present (R131, R210). -/
def Core.l1Store (k : Core) (a : Nat) (bs : List Byte) (p : Bool) : Core :=
  { k with l1 := k.l1.map (fun x =>
      if x.line = a / 128 then
        { x with
          bytes := x.bytes.take (a % 128) ++ bs ++ x.bytes.drop (a % 128 + bs.length)
          pois := (upTo 0 4).map (fun i =>
            let lo := x.line * 128 + 32 * i
            let touched := decide (lo < a + bs.length) && decide (a < lo + 32)
            let whole := decide (a ≤ lo) && decide (lo + 32 ≤ a + bs.length)
            if touched && p then true else if whole then false else nth false x.pois i) }
      else x) }

/-- The line leaves the L1 (R131). -/
def Core.l1Drop (k : Core) (a : Nat) : Core := { k with l1 := k.l1.filter (fun x => x.line != a / 128) }

/-- The fills of a line that are under way to a core bring no line back: a store of a thread of the core comes between (R131, R186; log
entry 127). -/
def State.dropFills (s : State) (site a : Nat) : State :=
  { s with net := { s.net with reqs := s.net.reqs.map (fun r =>
      if r.site = site ∧ r.fillL1 = true ∧ r.addr / 128 = a / 128 then { r with dropFill := true } else r) } }

/-- Whether a write of a core to a line is still to be performed. -/
def State.writeUnderWay (s : State) (site a : Nat) : Bool :=
  s.net.reqs.any (fun r => r.site == site && r.kind != .read && r.addr / 128 == a / 128 && r.unperformed)

/-- A request of a thread, blank but for where it comes from and where it goes. -/
def Ctx.req (c : Ctx) (lane serial : Nat) (kind : ReqKind) (space ea addr size : Nat) : Req :=
  { rid := 0, cid := c.blk.cid, lin := c.blk.lin, site := c.site, slot := c.slot, lane := lane, serial := serial
    index := c.pc, kind := kind, space := space, ea := ea, addr := addr, size := size, data := 0, cmp := 0
    pois := false, dest := none, uni := false, sx := false, fillL1 := false, cls := 7, part := c.cmd.part, sentAt := 0
    attempt := 0, state := .sent, result := 0, rpois := false
    remote := (segmentIn c.cmd.segs c.cmd.part addr).map (fun x => (x.2.1, x.2.2.1, x.2.2.2))
    heldOnce := false, dropFill := false, red := none, line := [], lpois := [], refused := false, tag := 0 }

/-- Send a request in the class of the load/store unit (R240, R241). A poisoned datum bound for another part is consumed
(R211). -/
def State.sendLs (s : State) (c : Ctx) (r : Req) : State :=
  if r.pois && r.remote.isSome then s.consumeThread c.site c.slot c.grp.blk c.blk r.lane c.pc
  else
    let (t, cls) := s.coreInject r.site r.part 0 (if r.fillL1 then 128 else r.size)
    t.send { r with cls := cls }

/-- One more instruction number for the order of R131. -/
def State.bumpSerial (s : State) : State := { s with net := { s.net with nextSerial := s.net.nextSerial + 1 } }

/-- Whether the load/store unit has tags for an instruction's n requests, each of which moves a number of bytes (R241, R252). -/
def State.tagsFor (s : State) (c : Ctx) (n bytes : Nat) : Bool := s.tagsHold c.site c.cmd.part 0 n (cdiv bytes 64)

/-- A contribution of a thread that waits in the commit buffer and lies over n bytes from a. -/
def Ctx.buffered (c : Ctx) (n : Nat) (e : Nat × Nat × Nat) : Bool :=
  c.core.commit.any (fun x => x.blk == c.grp.blk && x.thread == c.grp.idx * 32 + e.1 &&
    decide (x.addr < e.2.1 + n) && decide (e.2.1 < x.addr + reduceSize x.op))

/-- A stall for transaction tags: nothing issues, and the cycles count (R252). -/
def State.tagStall (s : State) (c : Ctx) : State := s.stall (.group c.site c.slot) (.tags c.site)

/-- The group of an instruction as it now stands, moved on. -/
def State.moveOn (s : State) (c : Ctx) : State :=
  ((s.unstall (.group c.site c.slot)).modGroup c.site c.slot (fun g => g.advance c.path c.low c.pc)).issued c

/-- Whether a load of a lane goes through the L1 (R131). -/
def State.throughL1 (s : State) (c : Ctx) (f : MForm) (alloc : Bool) (a : Nat) : Bool :=
  alloc && decide (f.sp = 2) && decide (a < s.extEnd) && (segmentIn c.cmd.segs c.cmd.part a).isNone

/-- The lanes of a load whose data the L1 does not hold: each sends a request (R131). -/
def State.loadSends (s : State) (c : Ctx) (f : MForm) (alloc : Bool) (es : List (Nat × Nat × Nat)) : List (Nat × Nat × Nat) :=
  es.filter (fun e => !(s.throughL1 c f alloc e.2.1 && ((s.core c.site).l1Line e.2.1).isSome))

/-- Whether the load/store unit has tags for the requests of a load, each of which brings back its line or its datum (R131, R241, R252). -/
def State.loadTags (s : State) (c : Ctx) (f : MForm) (alloc : Bool) (es : List (Nat × Nat × Nat)) : Bool :=
  s.tagsFor c (s.loadSends c f alloc es).length (if alloc then 128 else f.bytes)

/-- A load (R130, R131): local memory and L1 hits answer at once, the rest as requests. alloc is LD, false LDNC. -/
def State.load (s : State) (c : Ctx) (f : MForm) (alloc : Bool) (es : List (Nat × Nat × Nat)) : State :=
  let n := f.bytes
  let rd := regNo f.ud f.d.toNat
  let first := es.head?.map (·.1)
  let one (t : State) (e : Nat × Nat × Nat) : State :=
    let (lane, a, x) := e
    let writes := !f.ud || decide (first = some lane)
    let now (t : State) (v : Nat) (p : Bool) : State :=
      if writes then t.modGroup c.site c.slot (fun g => g.writeData lane rd (loadWords n f.sx v) p) else t
    if f.sp = 0 then
      ((now t (s.num a n) (s.poisoned a n)).bump64 (.cntCore c.site) 0x018 n).watch c.site c.slot 0 x n false
    else
      let r := c.req lane s.net.nextSerial .read f.sp x a n
      let cached := s.throughL1 c f alloc a
      match (if cached then (t.core c.site).l1Line a else none) with
      | some l =>
        let v := ofBytes ((l.bytes.drop (a % 128)).take n)
        let t := now t v (nth false l.pois (a % 128 / 32))
        let t := t.modCore c.site (fun k => k.l1Use a)
        ((t.bump (.cntCore c.site) 0x08C 1).bump64 (.cntCore c.site) 0x020 n).watch c.site c.slot f.sp x n false
      | none =>
        let t := if cached then t.bump (.cntCore c.site) 0x090 1 else t
        t.sendLs c { r with
          dest := if writes then some f.d.toNat else none, uni := f.ud, sx := f.sx, fillL1 := cached
          dropFill := cached && t.writeUnderWay c.site a }
  let full := es.findSome? (fun e => (segmentIn c.cmd.segs c.cmd.part e.2.1).bind (fun x => s.readsFull x.2.1 es.length))
  if f.sp ≠ 0 ∧ s.loadTags c f alloc es = false then s.tagStall c
  else
    match (if f.sp = 0 then none else full) with
    | some j => s.stall (.group c.site c.slot) (.reads j)
    | none => ((es.foldl one s).bumpSerial).moveOn c

/-- LD (R130, R131). -/
def execLd (w : At) (f : MForm) (s : State) : Out :=
  runMem w s (loadNeed f) f.sp (regNo f.ua f.a.toNat) f.offset f.bytes (fun t c es =>
    t.load c f (decide (f.sp = 2)) es)

/-- LDNC (R131): read at the home slice; the L1 is neither read nor filled. -/
def execLdnc (w : At) (f : MForm) (s : State) : Out :=
  runMem w s (loadNeed f) f.sp (regNo f.ua f.a.toNat) f.offset f.bytes (fun t c es => t.load c f false es)

/-- The remote part that a contribution of a block goes to, if it does (R296). -/
def State.contribRemote (s : State) (b : Block) (x : Contrib) : Option (Nat × Nat × Nat) :=
  (s.cmd? b.cid).bind (fun c => (segmentIn c.segs c.part x.addr).map (fun y => (y.2.1, y.2.2.1, y.2.2.2)))

/-- The slot of the group that a contribution comes from, if it is still there. -/
def State.contribSlot (s : State) (site : Nat) (x : Contrib) : Option Nat :=
  ((s.core site).groups.find? (fun g => g.2.blk == x.blk && g.2.idx == x.thread / 32)).map (·.1)

/-- A contribution of a core's commit buffer becomes a request, which leaves as soon as its core has a tag for it (R252, R383). -/
def State.release (s : State) (site : Nat) (b : Block) (x : Contrib) : State :=
  let p := ((s.cmd? b.cid).map (·.part)).getD 0
  let r : Req :=
    { rid := 0, cid := b.cid, lin := b.lin, site := site, slot := (s.contribSlot site x).getD 64, lane := x.thread % 32
      serial := s.net.nextSerial, index := x.index, kind := .reduce x.op, space := if winBase ≤ x.addr then 1 else 2
      ea := x.addr, addr := x.addr, size := reduceSize x.op, data := x.val.setWidth 128, cmp := 0, pois := x.pois
      dest := none, uni := false, sx := false, fillL1 := false, cls := 7, part := p, sentAt := 0, attempt := 0
      state := .queued, result := 0, rpois := false, remote := s.contribRemote b x, heldOnce := false, dropFill := false
      red := none, line := [], lpois := [], refused := false, tag := 5 }
  s.enter r

/-- A commit point of a block (R383): the mark takes the count of reductions each thread has issued, then the block's contributions are
released in order. A block of an ORDERED command has no mark (R162). -/
def State.commitBlock (s : State) (site bs : Nat) : State :=
  let k := s.core site
  match mfind k.blocks bs with
  | none => s
  | some b =>
    let mark := if ((s.cmd? b.cid).map (·.flag 9)).getD false then b.commits else (k.groupsOf bs).foldl (fun m g =>
      (upTo 0 32).foldl (fun m l => mset 0 m (g.2.idx * 32 + l) (max (mget 0 m (g.2.idx * 32 + l)) (g.2.th l).nred)) m) b.commits
    let ours := k.commit.filter (fun x => x.blk == bs)
    let k := { k with blocks := mput k.blocks bs { b with commits := mark }
                      commit := k.commit.filter (fun x => x.blk != bs) }
    let t := ours.foldl (fun t x => t.release site b x) (s.setCore site k)
    if ours.isEmpty then t else t.sendQueued site

/-- A commit point of a block, at which a poisoned contribution bound for another part is consumed by its thread and not sent (R211, R212):
where the block is then replayed, none of its contributions is committed. -/
def State.commitPoint (s : State) (site bs : Nat) : State :=
  let k := s.core site
  match mfind k.blocks bs with
  | none => s
  | some b =>
    let bad (x : Contrib) : Bool := x.blk == bs && x.pois && (s.contribRemote b x).isSome
    match k.commit.find? bad with
    | none => s.commitBlock site bs
    | some x =>
      let t := match s.contribSlot site x with
        | some slot => s.consumeThread site slot bs b (x.thread % 32) x.index
        | none => s.consumePort b.cid (((s.contribRemote b x).bind (fun y => s.routePort y.1)).elim 0xFF (16 + ·))
      if (mfind (t.core site).blocks bs).isNone then t
      else (t.modCore site (fun k => { k with commit := k.commit.filter (fun y => !bad y) })).commitBlock site bs

/-- A commit point of every resident block: the buffer is full (R383). -/
def State.commitAll (s : State) (site : Nat) : State :=
  (s.core site).blocks.foldl (fun t b => t.commitPoint site b.1) s

/-- ST (R130, R131): local memory at once, else a write-through request; lanes in order (R131). Over a reduction of its own thread that
still waits in the commit buffer, its block first comes to a commit point, and the store issues after it (R186; DESIGN CHOICE, log entry
142). -/
def execSt (w : At) (f : MForm) (s : State) : Out :=
  runMem w s (storeNeed f) f.sp (regNo f.ua f.a.toNat) f.offset f.bytes (fun t c es =>
    let n := f.bytes
    let one (t : State) (e : Nat × Nat × Nat) : State :=
      let (lane, a, x) := e
      let (v, p) := c.grp.datum lane (dataRegs f.ud f.d.toNat n) n
      if f.sp = 0 then
        let t := (t.store a (toBytes n v) p).tainted c.blk.cid p
        let t := (t.progress c.site c.blk.cid c.blk.lin c.slot lane).bump64 (.cntCore c.site) 0x018 n
        t.watch c.site c.slot 0 x n true
      else
        let r := { c.req lane s.net.nextSerial .write f.sp x a n with data := BitVec.ofNat 128 v, pois := p }
        let t := t.sendLs c r
        if f.sp = 2 && r.remote.isNone then (t.dropFills c.site a).modCore c.site (fun k => k.l1Store a (toBytes n v) p) else t
    if f.sp ≠ 0 ∧ es.any (c.buffered n) = true then t.commitPoint c.site c.grp.blk
    else if f.sp ≠ 0 ∧ t.tagsFor c es.length n = false then t.tagStall c
    else ((es.foldl one t).bumpSerial).moveOn c)

/-- An atomic (R132): lanes in order; local memory at once, else at the home slice or the window, over a buffered reduction of its own thread
as a store (log entry 142). A poisoned old value in local memory is
consumed, and the instruction has no effect (R139). -/
def runAtomic (w : At) (s : State) (f : MForm) (op : Nat) (cas wide : Bool) : Out :=
  runMem w s (atomicNeed f cas wide) f.sp (regNo f.ua f.a.toNat) 0 f.bytes (fun t c es =>
    let n := f.bytes
    let rd := regNo f.ud f.d.toNat
    let first := es.head?.map (·.1)
    let vals (lane : Nat) : Nat × Nat :=
      ((c.grp.datum lane (dataRegs false f.b n) n).1, if cas then (c.grp.datum lane (dataRegs false f.c n) n).1 else 0)
    let one (t : State) (e : Nat × Nat × Nat) : State :=
      let (lane, a, x) := e
      let (b, cv) := vals lane
      let writes := f.sx && (!f.ud || decide (first = some lane))
      if f.sp = 0 then
        let old := t.num a n
        let new := atomicNew op n old b cv
        let t := t.store a (toBytes n new) false
        let t := if new = old then t else t.progress c.site c.blk.cid c.blk.lin c.slot lane
        let t := if writes then t.modGroup c.site c.slot (fun g => g.writeData lane rd (loadWords n false old) false) else t
        (t.bump64 (.cntCore c.site) 0x018 (2 * n)).watch c.site c.slot 0 x n true
      else
        let t := t.sendLs c { c.req lane s.net.nextSerial (.atomic op) f.sp x a n with
          data := BitVec.ofNat 128 b, cmp := BitVec.ofNat 128 cv, dest := if writes then some f.d.toNat else none
          uni := f.ud }
        if f.sp = 2 then (t.dropFills c.site a).modCore c.site (fun k => k.l1Drop a) else t
    if f.sp ≠ 0 ∧ es.any (c.buffered n) = true then t.commitPoint c.site c.grp.blk
    else if f.sp ≠ 0 ∧ t.tagsFor c es.length n = false then t.tagStall c
    else
      match (if f.sp = 0 then es.find? (fun e => t.poisoned e.2.1 n) else none) with
      | some e => t.consume c e.1
      | none => ((es.foldl one t).bumpSerial).moveOn c)

/-- A reduction (R133, R383, R385): counted for its thread; skipped below the thread's committed count; buffered in the core
unless the command is NO_REPLAY or ORDERED; it invalidates the core's L1 line (R131). -/
def runReduce (w : At) (s : State) (f : MForm) (op : Nat) : Out :=
  runMem w s (reduceNeed f op) f.sp (regNo f.ua f.a.toNat) 0 f.bytes (fun t c es =>
    let one (t : State) (e : Nat × Nat × Nat) : State :=
      let (lane, a, x) := e
      let v := c.grp.reg lane f.b
      let p := c.grp.rpois lane f.b
      let th := c.grp.idx * 32 + lane
      let n := (c.grp.th lane).nred
      let t := t.modGroup c.site c.slot (fun g => g.modTh lane (fun q => { q with nred := n + 1 }))
      let t := if f.sp = 2 then (t.dropFills c.site a).modCore c.site (fun k => k.l1Drop a) else t
      if n < mget 0 c.blk.commits th then t
      else if c.cmd.flag 8 || c.cmd.flag 9 then
        t.sendLs c { c.req lane s.net.nextSerial (.reduce op) f.sp x a f.bytes with
          data := v.setWidth 128, pois := p, red := if c.cmd.flag 9 then some (c.blk.lin, th, n) else none }
      else
        let t := if 4096 ≤ (t.core c.site).commit.length then t.commitAll c.site else t
        t.modCore c.site (fun k => { k with commit := k.commit ++ [⟨c.grp.blk, th, n, c.pc, op, a, v, p⟩] })
    if t.tagsFor c es.length f.bytes = false then t.tagStall c
    else ((es.foldl one t).bumpSerial).moveOn c)

/-- AADD (R132). -/
def execAadd (w : At) (f : MForm) (s : State) : Out := runAtomic w s f 0x90 false true

/-- AMIN (R132). -/
def execAmin (w : At) (f : MForm) (s : State) : Out := runAtomic w s f 0x91 false true

/-- AMAX (R132). -/
def execAmax (w : At) (f : MForm) (s : State) : Out := runAtomic w s f 0x92 false true

/-- AMINU (R132). -/
def execAminu (w : At) (f : MForm) (s : State) : Out := runAtomic w s f 0x93 false true

/-- AMAXU (R132). -/
def execAmaxu (w : At) (f : MForm) (s : State) : Out := runAtomic w s f 0x94 false true

/-- AAND (R132). -/
def execAand (w : At) (f : MForm) (s : State) : Out := runAtomic w s f 0x95 false true

/-- AOR (R132). -/
def execAor (w : At) (f : MForm) (s : State) : Out := runAtomic w s f 0x96 false true

/-- AXOR (R132). -/
def execAxor (w : At) (f : MForm) (s : State) : Out := runAtomic w s f 0x97 false true

/-- AXCHG (R132). -/
def execAxchg (w : At) (f : MForm) (s : State) : Out := runAtomic w s f 0x98 false true

/-- ACAS (R132). -/
def execAcas (w : At) (f : MForm) (s : State) : Out := runAtomic w s f 0x99 true true

/-- AFADD (R132). -/
def execAfadd (w : At) (f : MForm) (s : State) : Out := runAtomic w s f 0x9A false false

/-- RADD.I32 (R133). -/
def execRaddI32 (w : At) (f : MForm) (s : State) : Out := runReduce w s f 0

/-- RADD.F32 (R133). -/
def execRaddF32 (w : At) (f : MForm) (s : State) : Out := runReduce w s f 1

/-- RADD.BF16 (R133). -/
def execRaddBf16 (w : At) (f : MForm) (s : State) : Out := runReduce w s f 2

/-- RMAX.I32 (R133). -/
def execRmaxI32 (w : At) (f : MForm) (s : State) : Out := runReduce w s f 3

/-- RMIN.I32 (R133). -/
def execRminI32 (w : At) (f : MForm) (s : State) : Out := runReduce w s f 4

/-- RMAX.F32 (R133). -/
def execRmaxF32 (w : At) (f : MForm) (s : State) : Out := runReduce w s f 5

/-- RMIN.F32 (R133). -/
def execRminF32 (w : At) (f : MForm) (s : State) : Out := runReduce w s f 6

/-- RMAX.BF16 (R133). -/
def execRmaxBf16 (w : At) (f : MForm) (s : State) : Out := runReduce w s f 7

/-- RMIN.BF16 (R133). -/
def execRminBf16 (w : At) (f : MForm) (s : State) : Out := runReduce w s f 8

end Sys2Proof.Machine
end

