-- ==== Sys2Proof/Machine/Engine.lean ====
section
/-! DEFINITION. Accesses of the array, the espalier, the DMA engine and the commands that copy: operand locations resolved to
places (R48, R130, R184, R196), the requests by which they read and write them (R19, R230, R252), remote parts through segments (R296), and
the counters of the bytes they move. -/

namespace Sys2Proof.Machine

/-- The engine of a block of a command. -/
def engOf (site slot lane : Nat) (b : Block) (c : Cmd) (index : Nat) : Eng :=
  ⟨site, slot, lane, c.cid, b.lin, c.part, c.segs, b.lmemBase, b.lmemUnits, index, 0⟩

/-- A run of bytes of an operand: at a place of this part, on another part, out of reach with an exception code, or behind a
poisoned descriptor or page-list entry; or the page of a position of a context, which the runs after it go by (R197). -/
inductive Piece where
  | here (a n : Nat)
  | away (dst part a n : Nat)
  | bad (code : Nat)
  | eat
  | xlat (c pos page : Nat)
deriving DecidableEq, Repr

/-- [a, a + n) cut at 4 KiB boundaries. -/
def pagePieces (a n : Nat) : List (Nat × Nat) :=
  (upTo (a / 4096) (cdiv (a + n) 4096 - a / 4096)).map (fun l =>
    (max a (l * 4096), min (a + n) (l * 4096 + 4096) - max a (l * 4096)))

/-- One run of device addresses under a partition's segments (R296). -/
def devPiece (segs : Map W32) (part a n : Nat) : Piece :=
  match segmentIn segs part a with
  | some (_, dst, p, ra) => .away dst p ra n
  | none => .here a n

/-- The places of n bytes at an address of a space (R48, R130, R184, R196, R197). -/
def State.pieces (s : State) (e : Eng) (space addr n : Nat) : List Piece :=
  match space with
  | 0 =>
    if addr + n ≤ e.lunits * 4096 then [.here (lmemBase + e.site * 0x80000 + e.lbase * 4096 + addr) n] else [.bad 4]
  | 1 =>
    let h := siteHalf e.site
    let sl := siteSlice e.site
    if addr + n ≤ s.winSize h sl * 0x100000 ∧ s.winPart h sl = e.part then [.here (winBase + e.site * 0x400000 + addr) n]
    else [.bad 4]
  | 2 =>
    if s.reach e.part addr n then (pagePieces addr n).map (fun x => devPiece e.segs e.part x.1 x.2) else [.bad 4]
  | _ =>
    (pagePieces (addr % 2 ^ 28) n).flatMap (fun x =>
      match s.translate (s.core e.site).trans e.part (addr / 2 ^ 28) x.1 x.2 with
      | .at_ a pg => [.xlat (addr / 2 ^ 28) x.1 pg, devPiece e.segs e.part a x.2]
      | .poison => [.eat]
      | .ctxRange => [.bad 5]
      | .addrRange => [.bad 4])

/-- Whether a run lies in the local memory of the engine's own core, which it accesses as it works. -/
def Piece.own (e : Eng) : Piece → Bool
  | .here a _ => decide (e.slot ≤ 70) && decide (lmemBase ≤ a)
  | _ => false

/-- What gathering an operand gives: its bytes, an exception code, consumption of poison, or nothing yet. -/
inductive Got where
  | data (bs : List PByte)
  | exc (code : Nat)
  | eat
  | wait
deriving DecidableEq, Repr

/-- More bytes after those gathered so far. -/
def Got.more (g h : Got) : Got :=
  match g, h with
  | .data bs, .data cs => .data (bs ++ cs)
  | .data _, x => x
  | x, _ => x

/-- What an answer gives: refused, it is out of reach (R184); from another part its poison is consumed, but not by a command's processor, which
sees to it (R211). -/
def Eng.takes (e : Eng) (r : Option Req) : Got :=
  match r with
  | none => .wait
  | some r =>
    if r.state ≠ .ready then .wait
    else if r.refused then .exc 4
    else if r.remote.isSome ∧ e.slot ≠ 71 ∧ r.lpois.any id = true then .eat
    else .data r.marked

/-- The bytes of one run, from the answers to its requests. -/
def State.gatherOne (s : State) (e : Eng) (p : Piece) : Got :=
  match p with
  | .here a n =>
    if p.own e then .data (s.marked a n)
    else (linePieces a n).foldl (fun g x => g.more (e.takes (s.engReq e .read none x.1 x.2))) (.data [])
  | .away dst part a n => e.takes (s.engReq e .read (some (dst, part, a)) a n)
  | .bad c => .exc c
  | .eat => .eat
  | .xlat _ _ _ => .data []

/-- The first of many that is no data and no wait, else whether something is waited for: poison comes before an exception. -/
def firstTrouble (gs : List Got) : Option Got :=
  if gs.contains .eat then some .eat
  else
    match gs.find? (fun g => match g with | .exc _ => true | _ => false) with
    | some g => some g
    | none => if gs.contains .wait then some .wait else none

/-- The bytes of runs, where all are to hand. -/
def State.gather (s : State) (e : Eng) (ps : List Piece) : Got :=
  let gs := ps.map (s.gatherOne e)
  (firstTrouble gs).getD (gs.foldl Got.more (.data []))

/-- The bytes of runs as they stand in the part now. -/
def State.peek (s : State) (ps : List Piece) : Got :=
  let gs := ps.map (fun p => match p with
    | .here a n => Got.data (s.marked a n)
    | .away _ _ _ _ => .wait
    | .bad c => .exc c
    | .eat => .eat
    | .xlat _ _ _ => .data [])
  (firstTrouble gs).getD (gs.foldl Got.more (.data []))

/-- The part as a reader of runs found it: what it read at an address stands in place of what is there. -/
def State.overlay (s : State) (a : Nat) (bs : List PByte) : State :=
  let t := s.store a (bs.map (·.1)) false
  let ws := (upTo (a / 32) (cdiv (a + bs.length) 32 - a / 32))
  let bad := (((upTo a bs.length).zip bs).filter (fun x => x.2.2)).map (fun x => x.1 / 32)
  { t with poison := bad.foldl insNat (t.poison.filter (fun w => !ws.contains w)) }

/-- Ask for every run that has not been asked for (R19, R230, R252, R296). -/
def State.ask (s : State) (e : Eng) (ps : List Piece) : State :=
  (ps.foldl (fun t p =>
    match p with
    | .here a n => if p.own e then t else t.queueRead e a n
    | .away dst part a n =>
      if (t.engReq e .read (some (dst, part, a)) a n).isSome then t else t.enter (e.req .read (some (dst, part, a)) a n)
    | _ => t) s).sendQueued e.site

/-- Runs that an engine of a core has moved: the bytes of its own local memory are counted as they move, and the translations of the runs are
kept (R197, R419). -/
def State.moved (s : State) (e : Eng) (ps : List Piece) : State :=
  ps.foldl (fun t p =>
    match p with
    | .here _ n => if p.own e then t.bump64 (.cntCore e.site) 0x018 n else t
    | .xlat c x pg => t.keepXlat e.site c x pg
    | _ => t) s

/-- The bytes that a request takes to another part, which carry no poison (R211). -/
def State.queueAway (s : State) (e : Eng) (kind : ReqKind) (dst part a : Nat) (bs : List Byte) : State :=
  s.enter { e.req kind (some (dst, part, a)) a bs.length with line := bs }

/-- Write bytes to runs: in the engine's own local memory, or by requests; poisoned data bound for another part is consumed and not sent
(R211). -/
def State.scatter (s : State) (e : Eng) (ps : List Piece) (bs : List PByte) : State :=
  ((ps.foldl (fun (acc : State × List PByte) p =>
    match p with
    | .here a n =>
      (if p.own e then acc.1.storeMarked a (acc.2.take n) else acc.1.queueWrite e a (acc.2.take n), acc.2.drop n)
    | .away dst part a n =>
      let d := acc.2.take n
      (if d.any (·.2) then
         acc.1.consumePort e.cid (match acc.1.routePort dst with | some j => 16 + j | none => 0xFF)
       else acc.1.queueAway e .write dst part a (d.map (·.1)), acc.2.drop n)
    | _ => acc) (s, bs)).1).sendQueued e.site

end Sys2Proof.Machine
end

