-- ==== Sys2Proof/Machine/BlockOps.lean ====
section
/-! DEFINITION. Divergence, merges and barriers of a group (R102 to R106, R125 to R127), the end of groups and blocks (R91,
R127), espalier loads that wait for a slot (R78), and the end of a tile. -/

namespace Sys2Proof.Machine

/-! ## Groups -/

/-- With no path runnable, the released path with the lowest thread becomes active (R102). -/
def Group.wake (g : Group) : Group :=
  match g.act with
  | some l => if g.runs l then g else { g with act := g.lows.head?, count := 0 }
  | none => { g with act := g.lows.head?, count := 0 }

/-- Whether every thread that diverged at d has reached its merge point or exited (R103). -/
def Group.mergeDone (g : Group) (d : Nat) (v : Div) : Bool :=
  v.members.all (fun l => (g.th l).wait == .exited || ((g.th l).wait == .merge && (g.th l).divs.head? == some d))

/-- Whether a MERGE is also the merge point of the divergence that a thread has pending outside its innermost one (R103, R126). -/
def Group.again (g : Group) (merge : Nat) (t : Thread) : Bool :=
  match (t.divs.drop 1).head? with
  | some d => ((mfind g.divs d).map (·.merge)) == some merge
  | none => false

/-- The threads that diverged at d and have not exited rejoin behind the merge point as the active path (R102, R103); a thread whose next
divergence has the same merge point waits on there for that one (R126). -/
def Group.rejoin (g : Group) (d : Nat) (v : Div) : Group :=
  let live := (upTo 0 32).filter (fun l => v.members.contains l && (g.th l).wait != .exited)
  let free := live.filter (fun l => !g.again v.merge (g.th l))
  let h := live.foldl (fun h l => h.modTh l (fun t =>
    if g.again v.merge t then { t with wait := .merge, pc := v.merge, divs := t.divs.drop 1 }
    else { t with wait := .run, pc := v.merge + 1, divs := t.divs.drop 1 })) g
  let h := { h with divs := merase h.divs d }
  match free with
  | [] => h
  | l :: _ => { h with act := some l, count := 0 }

/-- Every merge that is now complete, the innermost first; the Bool says whether one was. -/
def Group.merges (g : Group) : Group × Bool :=
  (g.divs.map (·.1)).reverse.foldl (fun x d =>
    match mfind x.1.divs d with
    | some v => if x.1.mergeDone d v then (x.1.rejoin d v, true) else x
    | none => x) (g, false)

/-- Whether the open group barrier is complete (R104, R106). -/
def Group.barDone (g : Group) : Bool :=
  match g.barMask with
  | none => false
  | some m => (upTo 0 32).all (fun l => !m.getLsbD l || (g.th l).wait == .exited || (g.th l).wait == .barG)

/-- The threads of a complete group barrier go on; the Bool says whether it was complete. -/
def Group.bars (g : Group) : Group × Bool :=
  if g.barDone then
    (Group.wake { (upTo 0 32).foldl (fun (h : Group) l =>
      if (h.th l).wait = .barG then h.modTh l (fun t => { t with wait := .run }) else h) g with barMask := none }, true)
  else (g, false)

/-- Lanes that leave the path for a wait, at an index (R102): with them the whole path leaves and the next one becomes active; where threads
whose guard failed remain, they are the active path still (DEDUCED, log entry 118). An arrival at a barrier ends the lock wait (R108). -/
def Group.leave (g : Group) (lanes rest : List Nat) (low : Nat) (w : Wait) (pc : Nat) (unlock : Bool) : Group :=
  let g := lanes.foldl (fun h l => h.modTh l (fun t => { t with wait := w, pc := pc, lock := t.lock && !unlock })) g
  match rest with
  | [] => g.nextPath low
  | l :: _ => Group.counted { g with act := some l } l

/-- Whether every thread of a group has exited. -/
def Group.over (g : Group) : Bool := g.threads.all (fun t => t.wait == .exited)

/-! ## Blocks -/

/-- The stall timer of a block restarts (R109). -/
def State.restart (s : State) (site b : Nat) : State := s.modBlock site b (fun x => { x with stall := 0 })

/-- Whether barrier n of a block is complete: a thread waits at it and all others have arrived or exited (R105, R106). -/
def Core.barReady (k : Core) (b n : Nat) : Bool :=
  let ts := (k.groupsOf b).flatMap (fun g => g.2.threads)
  ts.any (fun t => t.wait == .barB n) && ts.all (fun t => t.wait == .barB n || t.wait == .exited)

/-- Every thread waiting at barrier n of a block goes on (R105). -/
def Core.barRelease (k : Core) (b n : Nat) : Core :=
  { k with groups := k.groups.map (fun e =>
      if e.2.blk = b then
        (e.1, Group.wake { e.2 with threads := e.2.threads.map (fun t =>
          if t.wait = .barB n then { t with wait := .run } else t) })
      else e) }

/-- Complete the block barriers that are ready: the timer restarts and the block reaches a commit point (R105, R109, R383). -/
def State.blockBars (s : State) (site b : Nat) : State :=
  (upTo 0 4).foldl (fun t n =>
    if (t.core site).barReady b n then
      ((t.modCore site (fun k => k.barRelease b n)).restart site b).commitPoint site b
    else t) s

/-- Whether a group may be freed: every thread has exited, every tile and copy it issued has completed (R127). -/
def Core.groupFree (k : Core) (slot : Nat) (g : Group) : Bool :=
  g.over && k.arr.tiles.all (fun t => t.group != slot) && k.dma.all (fun j => j.group != slot)

/-- The last thread of a group left: groups of the block that are done are freed, and with the last of them the block's slot (R91, R127),
unless its last commit point has it replayed. -/
def State.freeBlock (s : State) (site b : Nat) : State :=
  let k := s.core site
  let s := if (k.groupsOf b).all (fun g => g.2.over) then s.commitPoint site b else s
  match mfind (s.core site).blocks b with
  | none => s
  | some blk =>
    let done := ((k.groupsOf b).filter (fun g => k.groupFree g.1 g.2)).map (·.1)
    let s := s.modCore site (fun k => { k with groups := k.groups.filter (fun g => !done.contains g.1) })
    let s := (s.orphanReqs site done).unhalt site done
    if (k.groupsOf b).all (fun g => k.groupFree g.1 g.2) then
      ((s.dropBlock site b).modCmd blk.cid (fun c => { c with exited := c.exited ++ [(site, blk)] })).settle blk.cid
    else s

/-! ## Espalier loads (R78) -/

/-- Start the next waiting load when none runs and a slot is free (R78). -/
def State.espStart (s : State) (site : Nat) : State := (s.modCore site Core.espNext).espSync site

/-! ## Faults of the array (R50, R63, R66) -/

/-- A failure is counted, and recorded while none is (R66, R67). -/
def State.arrFault (s : State) (site code group detail : Nat) : State :=
  let b := Blk.arr site
  let s := s.bump b 0x064 1
  if s.rgB b 0x008 0 then s
  else s.wg b 0x008 (BitVec.ofNat 32 (1 + code * 2 + group * 16 + detail * 65536))

/-- An exception that a tile, load or copy raises in its group after the instruction issued (R78, R138, R197). -/
def State.raiseLate (s : State) (site slot lane index cid code : Nat) : State :=
  let b := ((mfind (s.core site).groups slot).map (·.blk)).getD 0
  (s.modGroup site slot (fun g => { g with stopped := true })).endCmd cid 0x10
    ⟨1, code, site, slot, b, lane, index, 0xFF, 0, s.timeOf (siteStack site)⟩

/-- A tile that has nothing left to write leaves the array (R55, R136). -/
def State.tileOver (s : State) (site : Nat) (t : Tile) : State :=
  let s := s.modArr site (fun a => { a with tiles := a.tiles.filter (fun x => x.num != t.num) })
  (s.espStart site).freeBlock site t.blk

end Sys2Proof.Machine
end

