-- ==== Sys2Proof/Machine/ThreadSync.lean ====
section
/-! DEFINITION. Control and synchronisation of threads (R102 to R108, R125 to R128, R134, R135, R140). -/

namespace Sys2Proof.Machine

/-- How an S-format instruction uses A, MOD and IMM: the registers it reads, whether its fields keep R120. -/
def sNeed (f : SForm) (useA : Bool) (modOk immOk eatA : Bool) : Need :=
  { pg := f.pg, pn := f.pn
    legal := decide (f.rsv = 0) && modOk && immOk && (if useA then Use.reg.ok f.a f.ua else Use.no.ok f.a f.ua)
    regs := if useA then [regNo f.ua f.a.toNat] else []
    eats := if eatA then [regNo f.ua f.a.toNat] else [] }

/-- An S-format instruction without operands. -/
def plainNeed (f : SForm) : Need := sNeed f false (decide (f.mod = 0)) (decide (f.imm = 0)) false

/-- NOP (R122). -/
def execNop (w : At) (f : SForm) (s : State) : Out :=
  runThread w s (plainNeed f) (fun c _ => s.put c (c.grp.advance c.path c.low c.pc))

/-! ## Branches (R125) -/

/-- An instruction index plus a signed displacement; below 0 it lies outside every code (R124). -/
def branchTo (pc : Nat) (d : Int) : Nat := (((pc : Int) + d) % 2 ^ 64).toNat

/-- The different indices of a list of (lane, index). -/
def targets (ts : List (Nat × Nat)) : List Nat := ts.foldl (fun m t => insNat m t.2) []

/-- A branch that gives every lane of the path its next index. More than one path diverges: it needs the merge point, which
every thread of the path then has pending, and the path with the lowest thread goes on (R102, R103, R125). -/
def branch (s : State) (c : Ctx) (lanes : List Nat) (m : Int) (next : Nat → Nat) : State :=
  let ts := c.path.map (fun l => (l, if lanes.contains l then next l else c.pc + 1))
  let move (g : Group) : Group := ts.foldl (fun h t => h.modTh t.1 (fun x => { x with pc := t.2 })) g
  if (targets ts).length ≤ 1 then s.put c ((move c.grp).counted c.low)
  else
    let mi := branchTo c.pc m
    if m = 0 ∨ c.cmd.codeLen ≤ mi ∨ c.cmd.opAt mi ≠ 0x03 then s.raise c 0x07 (lanes.headD c.low) 0
    else
      let d := c.grp.nextDiv
      let g := c.path.foldl (fun h l => h.modTh l (fun x => { x with divs := d :: x.divs })) (move c.grp)
      s.put c { g with divs := mput g.divs d ⟨mi, c.path⟩, nextDiv := d + 1, act := some c.low, count := 0 }

/-- BRA (R125). -/
def execBra (w : At) (f : BForm) (s : State) : Out :=
  runThread w s ⟨f.pg, f.pn, decide (f.rsv = 0), [], []⟩ (fun c lanes =>
    branch s c lanes f.merge.toInt (fun _ => branchTo c.pc f.target.toInt))

/-- BRX (R125): to the index in v[TARGET[7:0]] of each thread; a poisoned one is consumed (R139). -/
def execBrx (w : At) (f : BForm) (s : State) : Out :=
  let r := f.target.toNat % 256
  runThread w s ⟨f.pg, f.pn, decide (f.rsv = 0) && decide (f.target.toNat < 256), [r], [r]⟩ (fun c lanes =>
    branch s c lanes f.merge.toInt (fun l => (c.grp.reg l r).toNat))

/-- MERGE (R103, R126): threads for which it is the innermost pending merge point wait; when the last one arrives they
rejoin. For the others it has no effect. -/
def execMerge (w : At) (f : SForm) (s : State) : Out :=
  runThread w s (plainNeed f) (fun c lanes =>
    let here := lanes.filter (fun l =>
      match (c.grp.th l).divs.head? with
      | some d => ((mfind c.grp.divs d).map (·.merge)) == some c.pc
      | none => false)
    let rest := c.path.filter (fun l => !here.contains l)
    if here = [] then s.put c (c.grp.advance c.path c.low c.pc)
    else
      let g := (c.grp.moveTo rest (c.pc + 1)).leave here rest c.low .merge c.pc false
      let (g, done) := g.merges
      let t := s.put c g
      if done then t.restart c.site c.grp.blk else t)

/-- EXIT (R106, R108, R109, R127). -/
def execExit (w : At) (f : SForm) (s : State) : Out :=
  runThread w s (plainNeed f) (fun c lanes =>
    let rest := c.path.filter (fun l => !lanes.contains l)
    let g := (c.grp.moveTo rest (c.pc + 1)).leave lanes rest c.low .exited c.pc true
    let g := (g.merges.1.bars).1
    (((s.put c g).restart c.site c.grp.blk).blockBars c.site c.grp.blk).freeBlock c.site c.grp.blk)

/-- SPIN (R102, R108): the active path yields and its threads enter a lock wait. -/
def execSpin (w : At) (f : SForm) (s : State) : Out :=
  runThread w s (plainNeed f) (fun c lanes =>
    let g := lanes.foldl (fun h l => h.modTh l (fun t => { t with lock := true })) (c.grp.moveTo c.path (c.pc + 1))
    s.put c (g.nextPath c.low))

/-- TRAP (R140): the trap exception with code IMM[7:0]. -/
def execTrap (w : At) (f : SForm) (s : State) : Out :=
  runThread w s (sNeed f false (decide (f.mod = 0)) (decide (f.imm.toNat < 256)) false) (fun c lanes =>
    s.raise c 0x0D (lanes.headD c.low) (f.imm.toNat % 256))

/-- The special value of S2R (R128). -/
def special (s : State) (c : Ctx) (g : Group) (lane n : Nat) : W32 :=
  match n with
  | 0 => BitVec.ofNat 32 lane
  | 1 => BitVec.ofNat 32 c.site
  | 2 => BitVec.ofNat 32 (s.timeOf (siteStack c.site))
  | 3 => (g.th lane).timeHi
  | 4 => s.rg (.cntCore c.site) 0x000
  | 5 => (g.th lane).cycHi
  | 6 => c.path.foldl (fun m l => m ||| ((1 : W32) <<< l)) 0
  | 7 => BitVec.ofNat 32 c.cmd.part
  | _ => BitVec.ofNat 32 (c.pc + 1)

/-- S2R (R128): numbers 2 and 4 latch the high word for the thread. -/
def execS2r (w : At) (f : RForm) (s : State) : Out :=
  let u : RUse := ⟨.reg, .raw, .no, .no, 1, false, false⟩
  runThread w s (u.need f (decide (f.a.toNat ≤ 8))) (fun c lanes =>
    let n := f.a.toNat
    let g := c.grp.write (regNo f.ud f.d.toNat) (lanes.map (fun l => (l, special s c c.grp l n, false)))
    let hi := if n = 2 then BitVec.ofNat 32 (s.timeOf (siteStack c.site) / 2 ^ 32) else s.rg (.cntCore c.site) 0x004
    let g := if n = 2 then lanes.foldl (fun h l => h.modTh l (fun t => { t with timeHi := hi })) g
      else if n = 4 then lanes.foldl (fun h l => h.modTh l (fun t => { t with cycHi := hi })) g else g
    s.put c (g.advance c.path c.low c.pc))

/-! ## Barriers and fences -/

/-- BARG (R104, R134): the mask from register A or from IMM. A thread outside its mask, or whose mask differs from the
instance's, takes the barrier-mask exception. DESIGN CHOICE: a group has one group-barrier instance open at a time, so that a thread that
arrives at another BARG while one is open arrives at that instance (log entry 117). -/
def execBarg (w : At) (f : SForm) (s : State) : Out :=
  let useA := decide (f.mod = 1)
  runThread w s (sNeed f useA (decide (f.mod.toNat ≤ 1)) (!useA || decide (f.imm = 0)) useA) (fun c lanes =>
    let mask (l : Nat) : W32 := if useA then c.grp.reg l (regNo f.ua f.a.toNat) else f.imm
    let inst := c.grp.barMask.getD (mask (lanes.headD c.low))
    match lanes.find? (fun l => !(mask l).getLsbD l || mask l != inst) with
    | some l => s.raise c 0x06 l 0
    | none =>
      let rest := c.path.filter (fun l => !lanes.contains l)
      let g := (c.grp.moveTo rest (c.pc + 1)).leave lanes rest c.low .barG (c.pc + 1) true
      let (g, done) := Group.bars { g with barMask := some inst }
      let t := s.put c g
      if done then t.restart c.site c.grp.blk else t)

/-- BARB (R105, R134): arrival at block barrier IMM[1:0]. -/
def execBarb (w : At) (f : SForm) (s : State) : Out :=
  runThread w s (sNeed f false (decide (f.mod = 0)) (decide (f.imm.toNat < 4)) false) (fun c lanes =>
    let rest := c.path.filter (fun l => !lanes.contains l)
    let g := (c.grp.moveTo rest (c.pc + 1)).leave lanes rest c.low (.barB f.imm.toNat) (c.pc + 1) true
    (s.put c g).blockBars c.site c.grp.blk)

/-- Whether requests of the lanes that store are still to be performed (R135). -/
def State.unperformed (s : State) (c : Ctx) (lanes : List Nat) : Bool :=
  s.net.reqs.any (fun r => r.site == c.site && r.slot == c.slot && lanes.contains r.lane && r.kind != .read && r.open_)

/-- Whether the group has tiles or copies under way (R135). -/
def Ctx.working (c : Ctx) : Bool :=
  c.core.arr.tiles.any (fun t => t.group == c.slot) || c.core.dma.any (fun j => j.group == c.slot)

/-- The core's L1 is invalidated; lines of loads in flight are discarded on arrival (R135). -/
def State.dropL1 (s : State) (site : Nat) : State :=
  let s := s.modCore site (fun k => { k with l1 := [] })
  { s with net := { s.net with reqs := s.net.reqs.map (fun r =>
      if r.site = site ∧ r.fillL1 = true then { r with dropFill := true } else r) } }

/-- FENCE (R135, R383): scope 0 finds local memory already ordered; scopes 1 and 2 are a commit point, and the group does not
issue past them until what they name is performed. -/
def execFence (w : At) (f : SForm) (s : State) : Out :=
  runThread w s (sNeed f false (decide (f.mod.toNat ≤ 2)) (decide (f.imm = 0)) false) (fun c lanes =>
    if f.mod = 0 then s.put c (c.grp.advance c.path c.low c.pc)
    else if c.core.commit.any (fun x => x.blk == c.grp.blk) then s.commitPoint c.site c.grp.blk
    else if s.unperformed c lanes || (f.mod = 2 && c.working) then s
    else ((s.commitPoint c.site c.grp.blk).dropL1 c.site).moveOn c)

end Sys2Proof.Machine
end

