-- ==== Sys2Proof/Machine/ThreadTile.lean ====
section
/-! DEFINITION. TILE, TWAIT, ESPLD, DMA and DWAIT (R46 to R50, R55, R56, R73, R78 to R80, R136 to R138, R449). -/

namespace Sys2Proof.Machine

/-- The shared checks of a T-format instruction: its registers are n uniform registers from UBASE, whose poison it consumes
(R139). -/
def tNeed (f : TForm) (n step : Nat) (modOk immOk : Bool) : Need :=
  { pg := f.pg, pn := f.pn
    legal := decide (f.rsv = 0) && modOk && immOk &&
      (if n = 0 then decide (f.ubase = 0) else decide (f.ubase.toNat % step = 0))
    regs := upTo (256 + f.ubase.toNat) n
    eats := upTo (256 + f.ubase.toNat) n }

/-- Whether the footprint of n bytes of an operand lies where the block may reach (R50). -/
def State.spanOk (s : State) (e : Eng) (l : Loc) (n : Nat) : Bool :=
  match l.space with
  | 0 => decide (l.addr + n ≤ e.lunits * 4096)
  | 1 => decide (l.addr + n ≤ s.winSize (siteHalf e.site) (siteSlice e.site) * 0x100000) &&
      decide (s.winPart (siteHalf e.site) (siteSlice e.site) = e.part)
  | 2 => s.reach e.part l.addr n
  | _ =>
    let d := s.descAddr (l.addr / 2 ^ 28)
    decide (s.num d 4 % 2 = 1) && decide (fld 4 1 (s.num d 4) = e.part) &&
      decide (l.addr % 2 ^ 28 + n ≤ fld 28 0 (s.num (d + 4) 4))

/-- Whether an operand's location fails a tile-address check (R50, R73): ADDRESS, stride, reach. -/
def State.locBad (s : State) (e : Eng) (l : Loc) (parts : List (Nat × Nat)) (least : Nat) : Bool :=
  decide (l.addr % 64 ≠ 0) || (decide (l.space ≠ 3) && decide (l.stride < least)) || !s.spanOk e l (l.span parts)

/-- The output element format: OFMT, or OUT_FMT of the bound image (R49). -/
def outFmt (d : TileDesc) (img : Option (List Byte)) : Nat := if d.esp then (img.map imgOut).getD d.ofmt else d.ofmt

/-- Whether the bound image writes row statistics (R73). -/
def outStats (d : TileDesc) (img : Option (List Byte)) : Bool := d.esp && (img.map imgStats).getD false

/-- The tile-format failure of a descriptor, lowest DETAIL first (R32, R34, R50, R80, R449). -/
def formatFault (d : TileDesc) (img : Option (List Byte)) : Option Nat :=
  if !isInFmt d.wfmt then some 1
  else if !isInFmt d.afmt then some 2
  else if !isOutFmt d.ofmt then some 3
  else if d.ofmt = 12 && !d.ints then some 4
  else if d.axis && (isMxFmt d.wfmt || isMxFmt d.afmt) then some 5
  else if !d.esp then none
  else
    match img with
    | none => some 6
    | some bs =>
      if d.ofmt ≠ imgIn bs then some 7
      else if d.acc then some 8
      else if (upTo 0 4).any (fun i => imgUses bs i && decide (imgTabLen bs i < d.cols)) then some 9
      else if d.ofmt ≠ (if d.ints then 12 else 13) then some 10
      else none

/-- The tile-address failure: output, activation, weight (R50, R73, R449). A stride is held against the row of elements alone, not against
the scale row of an MXFP4 weight, which R50 does not name (DESIGN CHOICE, log entry 138). -/
def State.addrFault (s : State) (e : Eng) (d : TileDesc) (img : Option (List Byte)) : Option Nat :=
  let fmt := outFmt d img
  let st := outStats d img
  if d.out.space = 3 || s.locBad e d.out (d.outParts fmt st)
      (max (rowBytes fmt d.cols) (if st then 8 * d.chunks else 0)) then some 1
  else if s.locBad e d.act d.actParts (rowBytes d.afmt d.red) then some 2
  else if s.locBad e d.wgt d.wgtParts (rowBytes d.wfmt d.n) then some 3
  else none

/-- Whether the output footprint of a tile meets an input footprint in the same space (R50, R56). -/
def inMeetsOut (out : Loc) (outLen : Nat) (l : Loc) (len : Nat) : Bool :=
  decide (out.space = l.space) && meets out.addr outLen l.addr len

/-- The tile-overlap failure: activation, weight. -/
def overlapFault (d : TileDesc) (img : Option (List Byte)) : Option Nat :=
  let n := d.out.span (d.outParts (outFmt d img) (outStats d img))
  if inMeetsOut d.out n d.act (d.act.span d.actParts) then some 2
  else if inMeetsOut d.out n d.wgt (d.wgt.span d.wgtParts) then some 3
  else none

/-- The image of a slot. -/
def Core.image (k : Core) (i : Option Nat) : Option (List Byte) :=
  (i.bind (fun j => nth none k.esp.slots j)).map (·.bytes)

/-- Whether an input of a tile of a block meets the output of an earlier unfinished tile in the same space (R56): SPACE 0 is each block's own
local memory. -/
def Core.locked (k : Core) (earlier : List Tile) (blk : Nat) (d : TileDesc) : Bool :=
  (earlier.filter (fun t => t.desc.out.space != 0 || t.blk == blk)).any (fun t =>
    let img := k.image t.image
    let n := t.desc.out.span (t.desc.outParts (outFmt t.desc img) (outStats t.desc img))
    inMeetsOut t.desc.out n d.act (d.act.span d.actParts) || inMeetsOut t.desc.out n d.wgt (d.wgt.span d.wgtParts))

/-- Accumulate strips that a replayed group has committed and skips (R385). -/
def Ctx.skipStrips (c : Ctx) (d : TileDesc) : Nat :=
  if d.acc ∧ d.out.space ≠ 0 then min d.allStrips (mget 0 c.blk.strips c.grp.idx - c.grp.accIssued) else 0

/-- TILE (R50, R55, R56, R79, R99, R136, R449): with both queue places full nothing issues; else the checks, then the queue. DESIGN CHOICE:
the running tile gives up its place at the end of its last pass, while its last strips are still written out (log entry 37). -/
def execTile (w : At) (f : TForm) (s : State) : Out :=
  runThread w s (tNeed f 8 8 (decide (f.mod = 0)) (decide (f.imm = 0))) (fun c lanes =>
    let d := tileDescOf (fun i => mget 0 c.grp.uregs (f.ubase.toNat + i))
    let e := engOf c.site 65 0 c.blk c.cmd c.pc
    let lane := lanes.headD c.low
    let img := c.core.image c.core.esp.active
    let ctxBad (l : Loc) : Bool := l.space = 3 && s.poisoned (s.descAddr (l.addr / 2 ^ 28)) 64
    let fail (code arr det : Nat) : State := (s.arrFault c.site arr c.slot det).raise c code lane 0
    if 3 ≤ c.core.arr.live.length then s
    else if ctxBad d.act || ctxBad d.wgt then s.consume c lane
    else
      match formatFault d img with
      | some x => fail 0x08 1 x
      | none =>
        match s.addrFault e d img with
        | some x => fail 0x09 2 x
        | none =>
          match overlapFault d img with
          | some x => fail 0x0A 3 x
          | none =>
            let a := c.core.arr
            let skip := c.skipStrips d
            let t : Tile :=
              { num := a.nextTile, desc := d, group := c.slot, lane := lane, index := c.pc, blk := c.grp.blk
                cid := c.blk.cid, image := if d.esp then c.core.esp.active else none
                staged := skip * d.reds, started := skip * d.reds, ended := skip * d.reds, drained := skip * d.reds
                woStarted := skip, woDone := skip, interlock := !c.core.locked a.tiles c.grp.blk d, alone := a.live.isEmpty }
            let s := s.modArr c.site (fun a => { a with
              tiles := a.tiles ++ [t], nextTile := a.nextTile + 1, arrived := a.arrived || t.alone
              ramp := if a.arrived then a.ramp else 0 })
            let s := if d.acc ∧ d.out.space ≠ 0 then
                s.modGroup c.site c.slot (fun g => { g with accIssued := g.accIssued + d.allStrips }) else s
            let s := s.moveOn c
            if skip = d.allStrips then s.tileOver c.site t else s)

/-- TWAIT (R136, R383): until at most IMM[1:0] of the group's tiles remain unfinished; then a commit point. -/
def execTwait (w : At) (f : TForm) (s : State) : Out :=
  runThread w s (tNeed f 0 1 (decide (f.mod = 0)) (decide (f.imm.toNat < 4))) (fun c _ =>
    if f.imm.toNat < (c.core.arr.tiles.filter (fun t => t.group == c.slot)).length then s
    else (s.commitPoint c.site c.grp.blk).moveOn c)

/-- ESPLD (R78, R137): the load joins those of the core, and its group waits until it has completed or failed. DESIGN CHOICE: bits [31:16] of
the upper address register, which the spec does not name, are ignored (log entry 120). -/
def execEspld (w : At) (f : TForm) (s : State) : Out :=
  runThread w s (tNeed f 2 2 (decide (f.mod.toNat ≤ 2)) (decide (f.imm = 0))) (fun c lanes =>
    let lo := mget 0 c.grp.uregs f.ubase.toNat
    let hi := mget 0 c.grp.uregs (f.ubase.toNat + 1)
    let l : EspLoad :=
      { group := some c.slot, cid := some c.blk.cid, space := f.mod.toNat, addr := lo.toNat + 2 ^ 32 * getF 15 0 hi
        slot := 0, lane := lanes.headD c.low, index := c.pc }
    let s := s.modEsp c.site (fun e => { e with waiting := e.waiting ++ [l] })
    let s := (s.modGroup c.site c.slot (fun g => { g.advance c.path c.low c.pc with espWait := true })).issued c
    s.espStart c.site)

/-- Whether a DMA descriptor is refused (R138). -/
def dmaBad (src dst : Loc) (len : Nat) (rest : W32) : Bool :=
  decide (len % 64 ≠ 0) || decide (len = 0) || decide (2 ^ 24 < len) || decide (rest ≠ 0) || decide (dst.space = 3) ||
    (decide (src.space = dst.space) && meets src.addr len dst.addr len)

/-- DMA (R138): a fifth copy of the group waits; else a copy starts, or a bad descriptor or address takes its exception. -/
def execDma (w : At) (f : TForm) (s : State) : Out :=
  runThread w s (tNeed f 8 8 (decide (f.mod = 0)) (decide (f.imm = 0))) (fun c lanes =>
    let u (i : Nat) : W32 := mget 0 c.grp.uregs (f.ubase.toNat + i)
    let src := locOf (u 0) (u 1)
    let dst := locOf (u 2) (u 3)
    let len := (u 4).toNat
    let lane := lanes.headD c.low
    let e := engOf c.site 69 c.core.nextDma c.blk c.cmd c.pc
    let bad := dmaBad src dst len (u 5 ||| u 6 ||| u 7)
    let codes := (s.pieces e src.space src.addr (max len 1) ::
      (if dst.space = 3 then [] else [s.pieces e dst.space dst.addr (max len 1)])).filterMap (fun ps =>
        if ps.contains .eat then some 0 else ps.findSome? (fun p => match p with | .bad x => some x | _ => none))
    if 4 ≤ (c.core.dma.filter (fun j => j.group == c.slot)).length then s
    else if codes.contains 0 then s.consume c lane
    else if codes.contains 4 then s.raise c 0x04 lane 0
    else if codes.contains 5 then s.raise c 0x05 lane 0
    else if bad then s.raise c 0x0C lane 0
    else
      (s.modCore c.site (fun k => { k with
        dma := k.dma ++ [⟨k.nextDma, c.slot, c.grp.blk, c.blk.cid, lane, c.pc, src, dst, len⟩]
        nextDma := k.nextDma + 1 })).moveOn c)

/-- DWAIT (R138, R383): until at most IMM[2:0] of the group's copies are outstanding; then a commit point. -/
def execDwait (w : At) (f : TForm) (s : State) : Out :=
  runThread w s (tNeed f 0 1 (decide (f.mod = 0)) (decide (f.imm.toNat < 8))) (fun c _ =>
    if f.imm.toNat < (c.core.dma.filter (fun j => j.group == c.slot)).length then s
    else (s.commitPoint c.site c.grp.blk).moveOn c)

end Sys2Proof.Machine
end

