-- ==== Sys2Proof/Machine/ArrayRun.lean ====
section
/-! DEFINITION. The array at work (R51 to R63, R68, R73 to R75, R82, R384): staging, passes, the drain, prior values,
write-outs, the interlock and filler. An event that is not due leaves the state unchanged. -/

namespace Sys2Proof.Machine

/-- Change a tile. -/
def Array.modTile (a : Array) (n : Nat) (f : Tile → Tile) : Array :=
  { a with tiles := a.tiles.map (fun t => if t.num = n then f t else t) }

/-- The engine that serves a tile. -/
def State.tileEng (s : State) (site slot : Nat) (t : Tile) : Option Eng :=
  match mfind (s.core site).blocks t.blk, s.cmd? t.cid with
  | some b, some c => some (engOf site slot t.num b c t.index)
  | _, _ => none

/-- What gathering many rows gives. -/
inductive Rows where
  | data (rows : List (List PByte))
  | exc (code : Nat)
  | eat
  | wait
deriving DecidableEq, Repr

/-- Gather every row, where all are to hand. -/
def State.gatherRows (s : State) (e : Eng) (rows : List (List Piece)) : Rows :=
  let gs := rows.map (s.gather e)
  if gs.contains .eat then .eat
  else
    match gs.findSome? (fun g => match g with | .exc c => some c | _ => none) with
    | some c => .exc c
    | none =>
      if gs.contains .wait then .wait
      else .data (gs.map (fun g => match g with | .data b => b | _ => []))

/-- The places of bytes [x, x + n) of rows r0 to r0 + k − 1 of part i of an operand. -/
def State.rowPieces (s : State) (e : Eng) (l : Loc) (parts : List (Nat × Nat)) (i r0 k x n : Nat) : List (List Piece) :=
  (upTo r0 k).map (fun r => s.pieces e l.space (l.addr + l.offset parts i r x) n)

/-- Blocks along each row: 32 consecutive elements, each with its scale where the format is MX. -/
def rowBlocks (f g n : Nat) (row : List PByte) (scales : List PByte) : List ABlock :=
  let ps := pieces32 (n / 32 + 1) (unpackRow f n row)
  ((upTo 0 ps.length).zip ps).map (fun x =>
    alignBlock f g x.2 (if isMxFmt f then some (let b := nth (0, false) scales x.1; (b.1.toNat, b.2)) else none))

/-- Blocks down each of n columns of rows; scale rows hold one scale per column. -/
def colBlocks (f g n : Nat) (rows scales : List (List PByte)) : List (List ABlock) :=
  ((upTo 0 n).zip (columns (0, false) n (rows.map (unpackRow f n)))).map (fun c =>
    let ps := pieces32 (rows.length / 32 + 1) c.2
    ((upTo 0 ps.length).zip ps).map (fun x =>
      alignBlock f g x.2 (if isMxFmt f then
        some (let b := nth (0, false) (nth [] scales x.1) c.1; (b.1.toNat, b.2)) else none)))

/-- The weight rows and scale rows that a pass needs (R49, R51, R52, R59). -/
def State.weightRows (s : State) (e : Eng) (d : TileDesc) (p : Nat) : List (List Piece) × List (List Piece) :=
  let st := d.stripOf p
  if d.axis then
    (s.rowPieces e d.wgt d.wgtParts 0 (d.colOf st) (d.colsOf st) (d.redOf p * elemBits d.wfmt / 8)
      (rowBytes d.wfmt (d.redLen p)), [])
  else
    (s.rowPieces e d.wgt d.wgtParts 0 (d.redOf p) (d.redLen p) (d.colOf st * elemBits d.wfmt / 8)
      (rowBytes d.wfmt (d.colsOf st)),
     if isMxFmt d.wfmt then
       s.rowPieces e d.wgt d.wgtParts 1 (d.redOf p / 32) (cdiv (d.redLen p) 32) (d.colOf st) (d.colsOf st)
     else [])

/-- The weight blocks of each output column of a pass. -/
def weightBlocks (d : TileDesc) (p : Nat) (rows scales : List (List PByte)) : List (List ABlock) :=
  if d.axis then rows.map (fun r => rowBlocks d.wfmt (weightGuard d.wfmt) (d.redLen p) r [])
  else colBlocks d.wfmt (weightGuard d.wfmt) (d.colsOf (d.stripOf p)) rows scales

/-- The activation rows and scale rows of a pass. -/
def State.actRows (s : State) (e : Eng) (d : TileDesc) (p : Nat) : List (List Piece) × List (List Piece) :=
  let st := d.stripOf p
  (s.rowPieces e d.act d.actParts 0 (d.rowOf st) (d.rowsOf st) (d.redOf p * elemBits d.afmt / 8)
     (rowBytes d.afmt (d.redLen p)),
   if isMxFmt d.afmt then
     s.rowPieces e d.act d.actParts 1 (d.rowOf st) (d.rowsOf st) (d.redOf p / 32) (cdiv (d.redLen p) 32)
   else [])

/-- The activation blocks of each row of a pass. -/
def actBlocks (d : TileDesc) (p : Nat) (rows scales : List (List PByte)) : List (List ABlock) :=
  ((upTo 0 rows.length).zip rows).map (fun x => rowBlocks d.afmt d.guard (d.redLen p) x.2 (nth [] scales x.1))

/-- A tile meets poison behind an address (R197, R211). -/
def State.tileEat (s : State) (site : Nat) (t : Tile) : State :=
  match mfind (s.core site).blocks t.blk with
  | some b => s.consumeThread site t.group t.blk b t.lane t.index
  | none => s

/-- The space of an operand by its DETAIL in ARR_FAULT: 1 output, 2 activation, 3 weight (R50). -/
def TileDesc.spaceOf (d : TileDesc) (detail : Nat) : Nat :=
  (match detail with | 1 => d.out | 2 => d.act | _ => d.wgt).space

/-- A tile's operand turns out to lie out of reach after its issue: through a page list it is the failure of R50 (R197), elsewhere the refusal of
an access (R184). -/
def State.tileBad (s : State) (site : Nat) (t : Tile) (detail : Nat) : State :=
  if t.desc.spaceOf detail = 3 then (s.arrFault site 2 t.group detail).raiseLate site t.group t.lane t.index t.cid 0x09
  else s.raiseLate site t.group t.lane t.index t.cid 0x04

/-- A hardware check of the array or the espalier fails (R63, R82): recorded, and the array stops until its core is fenced
(R374). -/
def State.arrCheck (s : State) (site group detail : Nat) : State :=
  (s.arrFault site 4 group detail).modArr site (fun a => { a with fault := true })

/-- An event of the array of a site: refused where no core is, idle after a failed check. -/
def onArray (s : State) (site : Nat) (f : Array → State) : Out :=
  if s.sites ≤ site then .next s
  else if (s.core site).arr.fault then .next s
  else .next (f (s.core site).arr)

/-- The tile whose next pass is staged next: the first with a pass to stage, while its interlock has ended (R55, R56). -/
def Array.toStage (a : Array) : Option Tile :=
  match a.tiles.find? (fun t => decide (t.staged < t.desc.passes)) with
  | some t => if t.interlock then some t else none
  | none => none

/-- STAGE_WEIGHTS (R52, R55, R56, R59, R60): while the array is not frozen, the next pass's weights are read and block-aligned into the free stage buffer. -/
def execStageWeights (site : Nat) (s : State) : Out :=
  onArray s site (fun a =>
    if a.state = 3 then s
    else
    match a.stage, a.toStage with
    | none, some t =>
      (match s.tileEng site 65 t with
       | none => s
       | some e =>
         let d := t.desc
         let p := t.staged
         let (rows, scales) := s.weightRows e d p
         match s.gatherRows e rows, s.gatherRows e scales with
         | .eat, _ => s.tileEat site t
         | _, .eat => s.tileEat site t
         | .exc _, _ => s.tileBad site t 3
         | _, .exc _ => s.tileBad site t 3
         | .data r, .data q =>
           ((s.moved e (rows.flatten ++ scales.flatten)).used e).modArr site (fun a =>
             { a.modTile t.num (fun t => { t with staged := p + 1 }) with
               stage := some (t.num, p, .of d (weightBlocks d p r q)), arrived := true, ramp := if a.arrived then a.ramp else 0 })
         | _, _ => s.ask e (rows.flatten ++ scales.flatten))
    | _, _ => s)

/-- A bank's elements before the first pass of a strip. -/
def freshVals (d : TileDesc) (st : Nat) : List (List (DVal × Bool)) :=
  List.replicate (d.rowsOf st) (List.replicate (d.colsOf st) (DVal.start d.ints d.ofmt none, false))

/-- Place a strip in the first free bank (R57). -/
def takeBank (bs : List (Option Bank)) (b : Bank) : Option (List (Option Bank)) :=
  match bs with
  | [] => none
  | none :: r => some (some b :: r)
  | some x :: r => (takeBank r b).map (fun q => some x :: q)

/-- PASS_START (R53, R54, R57, R60, R62, R63): the staged set moves into the array and the pass's activation rows stream; a strip's first
pass takes a free drain bank; all eighths must be enabled. A feeder that finds no plane to hand freezes the array until it does, which comes
before what the drain waits for. -/
def execPassStart (site : Nat) (parityFail : Bool) (s : State) : Out :=
  onArray s site (fun a =>
    match a.pass, a.stage with
    | none, some (n, p, w) =>
      (match a.tile? n with
       | none => s
       | some t =>
         let d := t.desc
         let st := d.stripOf p
         match s.tileEng site 66 t with
         | none => s
         | some e =>
           let (rows, scales) := s.actRows e d p
           let fed (s : State) : State :=
             if a.starved then s.modArr site (fun a => { a with starved := false, arrived := true, ramp := 0 }) else s
           if decide (a.eighths < 8) && !a.starved then s
           else
             (match s.gatherRows e rows, s.gatherRows e scales with
              | .eat, _ => s.tileEat site t
              | _, .eat => s.tileEat site t
              | .exc _, _ => s.tileBad site t 2
              | _, .exc _ => s.tileBad site t 2
              | .data r, .data q =>
                (match (if a.hasBank n st then some a.banks else takeBank a.banks ⟨n, st, freshVals d st, false, false⟩) with
                 | none => fed s
                 | some banks =>
                   if a.drainWaits || decide (a.eighths < 8) then fed s
                   else if parityFail then s.arrCheck site t.group 1
                   else ((s.moved e (rows.flatten ++ scales.flatten)).used e).modArr site (fun a =>
                     { a.modTile n (fun t => { t with started := p + 1 }) with
                       stage := none, pass := some (n, p, w, actBlocks d p r q), run := 0, banks := banks, gap := none
                       arrived := false, ramp := 0, starved := false }))
              | _, _ => (s.ask e (rows.flatten ++ scales.flatten)).modArr site (fun a => { a with starved := true })))
    | _, _ => s)

/-- PASS_END (R28, R53, R60, R67): the last plane has entered; the accumulators hold the pass's block partials for the drain, and the planes
that no tick counted are counted. A frozen array, or one that ramps up, ends no pass. -/
def execPassEnd (site : Nat) (s : State) : Out :=
  onArray s site (fun a =>
    match a.pass with
    | none => s
    | some (n, p, w, ab) =>
      match a.tile? n with
      | none => s.modArr site (fun a => { a with pass := none })
      | some t =>
        if a.state ≠ 2 then s
        else
          (s.modArr site (fun a => { a.modTile n (fun t => { t with ended := p + 1 }) with
            pass := none, run := 0, drain := a.drain ++ [(n, p, passAccs t.desc w ab)], arrived := a.stage.isSome, ramp := 0 })).bump
            (.arr site) 0x044 (t.desc.planesOf p - a.run))

/-- Change the bank of a strip. -/
def Array.modBank (a : Array) (n st : Nat) (f : Bank → Bank) : Array :=
  { a with banks := a.banks.map (fun b => b.map (fun x => if x.is n st then f x else x)) }

/-- DRAIN_PARTIALS (R40, R41, R53, R57, R63): the oldest ended pass's partials are added into its bank; in accumulate mode
a strip's first pass drains only after the prior values have been read. -/
def execDrainPartials (site : Nat) (residueFail : Bool) (s : State) : Out :=
  onArray s site (fun a =>
    match a.drain with
    | [] => s
    | (n, p, xs) :: rest =>
      match a.tile? n with
      | none => s.modArr site (fun a => { a with drain := rest })
      | some t =>
        let st := t.desc.stripOf p
        if a.drainWaits then s
        else if residueFail then s.arrCheck site t.group 2
        else
          s.modArr site (fun a =>
            { (a.modTile n (fun t => { t with drained := p + 1 })).modBank n st (fun b =>
                { b with vals := (b.vals.zip xs).map (fun r => (r.1.zip r.2).map (fun x => DVal.add x.1 x.2)) }) with
              drain := rest }))

/-- PRIOR_VALUE_READ (R40, R41, R57): the prior output values of a strip are read into its bank. -/
def execPriorValueRead (site : Nat) (s : State) : Out :=
  onArray s site (fun a =>
    match (a.banks.filterMap (fun b => b.bind (fun x =>
        match a.tile? x.tile with
        | some t => if t.desc.acc && !x.priorRead then some (x, t) else none
        | none => none))).head? with
    | none => s
    | some (x, t) =>
      match s.tileEng site 67 t with
      | none => s
      | some e =>
        let d := t.desc
        let rows := s.rowPieces e d.out (d.outParts d.ofmt false) 0 (d.rowOf x.strip) (d.rowsOf x.strip)
          (d.colOf x.strip * elemBits d.ofmt / 8) (rowBytes d.ofmt (d.colsOf x.strip))
        match s.gatherRows e rows with
        | .eat => s.tileEat site t
        | .exc _ => s.tileBad site t 1
        | .wait => s.ask e rows.flatten
        | .data r =>
          let vals := r.map (fun row =>
            (unpackRow' d.ofmt (d.colsOf x.strip) row).map (fun c => (DVal.start d.ints d.ofmt (some c.1), c.2)))
          ((s.moved e rows.flatten).used e).modArr site (fun a =>
            { a.modBank x.tile x.strip (fun b => { b with vals := vals, priorRead := true }) with arrived := true, ramp := 0 }))
where
  /-- The first n output elements of a row: 32-bit or 16-bit codes. -/
  unpackRow' (f n : Nat) (bs : List PByte) : List (Nat × Bool) :=
    let w := elemBits f / 8
    (upTo 0 n).map (fun i =>
      let b := (bs.drop (w * i)).take w
      (ofBytes (b.map (·.1)), b.any (·.2)))

/-- One row of a strip as it is stored: element bytes, scale bytes, statistics bytes, saturations at the drain and in the
espalier (R41, R42, R68, R73 to R75, R82). -/
structure OutRow where
  elems : List PByte
  scales : List PByte
  stats : List PByte
  sat : Nat
  espSat : Nat
deriving DecidableEq, Repr

/-- A row of drained values in its stored form. -/
def outRow (d : TileDesc) (img : Option (List Byte)) (pad row col0 : Nat) (vals : List (DVal × Bool)) : OutRow :=
  match img with
  | none =>
    let cs := vals.map (fun v => (v.1.stored d.ofmt, v.2))
    ⟨packCodes (elemBits d.ofmt) pad (cs.map (fun c => (c.1.1, c.2))), [], [], cs.countP (·.1.2), 0⟩
  | some bs =>
    let fmt := imgOut bs
    let ins := vals.map (fun v =>
      if d.ints then (let (w, b) := v.1.toInt32; (EVal.mk w true v.2, b)) else (EVal.mk v.1.toFp32 false v.2, false))
    let (es, st) := espRow bs row col0 (ins.map (·.1))
    let stats := if imgStats bs then st.flatMap (fun x => (toBytes 4 x.1.toNat).map (fun b => (b, x.2))) else []
    let sat := ins.countP (·.2)
    if isMxFmt fmt then
      let (cs, scs, n) := mxRow fmt es
      ⟨packCodes (elemBits fmt) pad cs, scs.map (fun x => (BitVec.ofNat 8 x.1, x.2)), stats, sat, n⟩
    else
      let cs := es.map (fun v => (espCode fmt v, v.pois))
      ⟨packCodes (elemBits fmt) pad (cs.map (fun c => (c.1.1, c.2))), [], stats, sat, cs.countP (·.1.2)⟩

/-- The next strip to write out, in order: its tile and bank, drained whole, while no write-out runs (R57). -/
def Array.toWrite (a : Array) : Option (Tile × Bank) :=
  if a.banks.any (fun b => match b with | some x => x.writing | none => false) then none
  else
    match a.tiles.find? (fun t => decide (t.woStarted < t.desc.allStrips)) with
    | none => none
    | some t =>
      if (t.woStarted + 1) * t.desc.reds ≤ t.drained then
        (a.banks.filterMap (fun b => b.bind (fun x => if x.is t.num t.woStarted then some (t, x) else none))).head?
      else none

/-- WRITE_OUT (R42, R57, R68 to R75, R82): a strip's write-out starts: its values are converted and written. -/
def execWriteOut (site : Nat) (parityFail : Bool) (s : State) : Out :=
  onArray s site (fun a =>
    match a.toWrite with
    | none => s
    | some (t, b) =>
      let d := t.desc
      let img := (s.core site).image t.image
      match s.tileEng site 68 t with
      | none => s
      | some e =>
        if d.esp && parityFail then s.arrCheck site t.group 3
        else
          let fmt := outFmt d img
          let parts := d.outParts fmt (outStats d img)
          let r0 := d.rowOf b.strip
          let c0 := d.colOf b.strip
          let rows := ((upTo r0 b.vals.length).zip b.vals).map (fun x =>
            (x.1, outRow d img (Config.freeWord (s.drawn + x.1)).toNat x.1 c0 x.2))
          let place (i r x : Nat) (bs : List PByte) : List (List Piece × List PByte) :=
            if bs = [] then [] else [(s.pieces e d.out.space (d.out.addr + d.out.offset parts i r x) bs.length, bs)]
          let puts := rows.flatMap (fun r =>
            place 0 r.1 (c0 * elemBits fmt / 8) r.2.elems ++ place 1 r.1 (c0 / 32) r.2.scales ++
            place (parts.length - 1) r.1 (8 * d.chunkOf b.strip) r.2.stats)
          if puts.any (fun x => x.1.any (fun p => match p with | .bad _ => true | _ => false)) then s.tileBad site t 1
          else
            let pois := puts.any (fun x => x.2.any (·.2))
            let s := puts.foldl (fun s x => (s.moved e x.1).scatter e x.1 x.2) s
            let s := (s.tainted t.cid pois).bump (.arr site) 0x060 ((rows.map (·.2.sat)).foldl (· + ·) 0)
            let n := b.vals.length * d.colsOf b.strip
            let s := if d.esp then
                ((s.bump (.esp site) 0x040 n).bump (.esp site) 0x044 ((rows.map (·.2.espSat)).foldl (· + ·) 0)).modEsp site
                  (fun x => { x with busy := true })
              else s
            { s.modArr site (fun a => (a.modTile t.num (fun t => { t with woStarted := b.strip + 1 })).modBank t.num b.strip
                (fun x => { x with writing := true })) with drawn := s.drawn + d.m })

/-- WRITE_OUT_DONE (R55, R57, R136, R192, R384): the bank is free; an accumulate strip outside local memory is committed;
after its last strip the tile is finished and counted (R67). -/
def execWriteOutDone (site : Nat) (s : State) : Out :=
  onArray s site (fun a =>
    match (a.banks.filterMap (fun b => b.bind (fun x => if x.writing then some x else none))).head? with
    | none => s
    | some b =>
      match a.tile? b.tile with
      | none => s.modArr site (fun a => { a with banks := a.banks.map (fun x => if x = some b then none else x) })
      | some t =>
        let late := match s.tileEng site 68 t with | some e => s.engBusy e | none => false
        if late then s
        else
          let s := s.modArr site (fun a =>
            { a.modTile t.num (fun t => { t with woDone := t.woDone + 1 }) with
              banks := a.banks.map (fun x => if x = some b then none else x), arrived := a.arrived || a.bankWaits
              ramp := if a.arrived then a.ramp else 0 })
          let s := s.modEsp site (fun x => { x with busy := false })
          let idx := ((mfind (s.core site).groups t.group).map (·.idx)).getD 0
          let s := if t.desc.acc ∧ t.desc.out.space ≠ 0 then
              s.modBlock site t.blk (fun x => { x with strips := mset 0 x.strips idx (mget 0 x.strips idx + 1) })
            else s
          if t.woDone + 1 = t.desc.allStrips then (s.bump (.arr site) 0x040 1).tileOver site t else s)

/-- INTERLOCK_END (R56, R62): no earlier unfinished tile's output meets the tile's inputs any more; it may begin staging. Work arrives with it where
the interlock was what the gap came from. -/
def execInterlockEnd (site : Nat) (s : State) : Out :=
  onArray s site (fun a =>
    match a.tiles.find? (fun t => !t.interlock) with
    | none => s
    | some t =>
      if (s.core site).locked (a.tiles.takeWhile (fun x => x.num != t.num)) t.blk t.desc then s
      else s.modArr site (fun a => { a.modTile t.num (fun t => { t with interlock := true }) with
        arrived := a.arrived || (a.pass.isNone && decide (a.live.head?.map (·.num) = some t.num)), ramp := if a.arrived then a.ramp else 0 }))

/-- FILLER_RAMP_DOWN (R61, R62): after FILLER_MAX gap cycles, and every 16 cycles more, one eighth fewer; not once work has arrived, nor
while Trim holds filler. Where Trim's hold ends late in a gap the next eighth falls at once and the others every 16 cycles (DESIGN CHOICE, log
entry 141). -/
def execFillerRampDown (site : Nat) (s : State) : Out :=
  onArray s site (fun a =>
    match a.gap with
    | none => s
    | some g =>
      if a.trimHold || a.arrived || decide (a.eighths = 0) || decide (g < a.fillMax + 16 * (8 - a.eighths)) then s
      else s.modArr site (fun a => { a with eighths := a.eighths - 1 }))

/-- FILLER_RAMP_UP (R61, R62, R340): one eighth more, 16 cycles after work arrived and every 16 cycles more; Trim's hold raises the eighths of a
gap in the same steps, as its filler runs through every gap (DESIGN CHOICE, log entry 141). -/
def execFillerRampUp (site : Nat) (s : State) : Out :=
  onArray s site (fun a =>
    if !(a.arrived || a.trimHold) || decide (8 ≤ a.eighths) || decide (a.ramp < 16) then s
    else s.modArr site (fun a => { a with eighths := a.eighths + 1, ramp := a.ramp - 16 }))

/-! ## Espalier loads (R77, R78, R86, R87, R137) -/

/-- The engine of a load: of the block whose group waits for it, which goes by the segments of its command (R296; DEDUCED, log entry 129), or of
the core for the owning host. -/
def State.imgEng (s : State) (site : Nat) (l : EspLoad) : Option Eng :=
  match l.cid.bind s.cmd?, l.group.bind (fun g => mfind (s.core site).groups g) with
  | some c, some g =>
    (mfind (s.core site).blocks g.blk).map (fun b => engOf site 70 0 b c l.index)
  | _, _ =>
    (match s.corePart site with
     | some p => some ⟨site, 70, 0, noCid, 0, p, [], 0, 128, 0, 0⟩
     | none => if l.space = 0 then some ⟨site, 70, 0, noCid, 0, 0, [], 0, 128, 0, 0⟩ else none)

/-- The places of the first n bytes of an image. -/
def State.imgPieces (s : State) (e : Option Eng) (l : EspLoad) (n : Nat) : List Piece :=
  match e with
  | some e => s.pieces e l.space l.addr n
  | none => [.bad 4]

/-- What a load comes to: an image, a refusal code of R77, consumption of poison, or nothing yet. -/
inductive Loaded where
  | ok (bs : List Byte)
  | refused (code : Nat)
  | eat
  | wait
deriving DecidableEq, Repr

/-- The checks of R77 in their order, on what `read` finds at places. -/
def State.imgLoad (s : State) (read : List Piece → Got) (e : Option Eng) (l : EspLoad) : Loaded :=
  let host := l.group.isNone
  let get (n : Nat) : Loaded :=
    let ps := s.imgPieces e l n
    if ps.any (fun p => match p with | .bad _ => true | _ => false) then .refused 8
    else
      match read ps with
      | .data bs => if bs.any (·.2) then (if host then .refused 11 else .eat) else .ok (bs.map (·.1))
      | .wait => .wait
      | _ => .refused 8
  if l.addr % 64 ≠ 0 then .refused 10
  else
    match get 64 with
    | .ok hd =>
      (match imgHeadCheck hd with
       | some c => .refused c
       | none =>
         match get (imgNum hd 4 4) with
         | .ok bs => (match imgBodyCheck bs with | some c => .refused c | none => .ok bs)
         | x => x)
    | x => x

/-- The places that a load reads next: its header, and once that is known the image. -/
def State.imgNext (s : State) (e : Eng) (l : EspLoad) : List Piece :=
  match s.gather e (s.imgPieces (some e) l 64) with
  | .data hd => s.imgPieces (some e) l (imgNum (hd.map (·.1)) 4 4)
  | _ => s.imgPieces (some e) l 64

/-- A load completes: its slot holds the image and becomes active (R78, R88). -/
def State.espInstall (s : State) (site slot : Nat) (im : Image) : State :=
  (s.modEsp site (fun e => { e with slots := setNth e.slots slot (some im), active := some slot })).bump (.esp site) 0x048 1

/-- A refusal is recorded in ESP_LOAD_ERR (R77, R87). -/
def State.espRefuse (s : State) (site code : Nat) : State :=
  (s.wgB (.esp site) 0x014 0 true).wgF (.esp site) 0x014 7 4 code

/-- A write of ESP_LOAD (R8, R78, R86, R87): SPACE is kept as written, 3 too, which the table does not define and by which a load then reads
context space (DESIGN CHOICE, log entry 131); START queues a load unless one it started is still pending, and is refused
with CODE 9 while a command runs on the core. -/
def State.espLoadWrite (s : State) (site : Nat) (word : W32) : State :=
  let b := Blk.esp site
  let s := s.wgF b 0x010 2 1 (getF 2 1 word)
  if !word.getLsbD 0 || s.rgB b 0x010 0 then s
  else if !(s.core site).blocks.isEmpty || s.commandOn site then s.espRefuse site 9
  else
    let addr := (s.rg b 0x008).toNat + 2 ^ 32 * s.rgF b 0x00C 15 0
    (s.modEsp site (fun e => { e with waiting := e.waiting ++ [⟨none, none, getF 2 1 word, addr, 0, 0, 0⟩] })).espStart site

/-- ESP_LOAD_START (R84, R87): a write of ESP_LOAD by the owning host. -/
def execEspLoadStart (port site : Nat) (word : W32) (s : State) : Out :=
  if s.sites ≤ site ∨ 4 ≤ port then .next s
  else
    let s := if s.linkUp port then s.hostRx port 4 else s
    .next (if !s.linkUp port || decide (s.coreOwner site ≠ port) then s else s.espLoadWrite site word)

/-- ESP_IMAGE_LOAD_DONE (R77, R78, R88): the load's checks complete. The slot becomes active, or the refusal is recorded and
its group takes the espalier-load exception, or poison is consumed. -/
def execEspImageLoadDone (site : Nat) (s : State) : Out :=
  if s.sites ≤ site then .next s
  else
    match (s.core site).esp.load with
    | none => .next s
    | some l =>
      let e := s.imgEng site l
      let free (s : State) : State :=
        let s := match e with | some e => s.used e | none => s
        let s := s.modEsp site (fun e => { e with load := none })
        let s := match l.group with
          | some g => s.modGroup site g (fun x => { x with espWait := false })
          | none => s
        s.espStart site
      match s.imgLoad (fun ps => e.elim .wait (fun e => s.gather e ps)) e l with
      | .wait => .next (match e with | some e => s.ask e (s.imgNext e l) | none => s)
      | .ok bs =>
        let s := match e with | some e => s.moved e (s.imgPieces (some e) l bs.length) | none => s
        let base := match e with | some e => (if l.space = 0 then e.lbase * 4096 else 0) | none => 0
        .next (free (s.espInstall site l.slot ⟨bs, l.space, base + l.addr⟩))
      | .refused code =>
        let t := free (s.espRefuse site code)
        .next (match l.group, l.cid with
          | some g, some c => t.raiseLate site g l.lane l.index c 0x0B
          | _, _ => t)
      | .eat =>
        let t := free s
        .next (match l.group with
          | some g =>
            (match mfind (t.core site).groups g with
             | some x =>
               (match mfind (t.core site).blocks x.blk with
                | some b => t.consumeThread site g x.blk b l.lane l.index
                | none => t)
             | none => t)
          | none => t)

/-! ## DMA (R138) -/

/-- DMA_COMPLETE (R138, R192, R210, R211): a copy asks for its source bytes, writes them once all are to hand, and is complete when every write
has been acknowledged. -/
def execDmaComplete (site job : Nat) (s : State) : Out :=
  if s.sites ≤ site then .next s
  else
    match (s.core site).dma.find? (fun j => j.id == job) with
    | none => .next s
    | some j =>
      match mfind (s.core site).blocks j.blk, s.cmd? j.cid with
      | some b, some c =>
        let e := engOf site 69 j.id b c j.index
        let finish (s : State) : State :=
          (s.modCore site (fun k => { k with dma := k.dma.filter (fun x => x.id != job) })).freeBlock site j.blk
        let src := s.pieces e j.src.space j.src.addr j.len
        let dst := s.pieces e j.dst.space j.dst.addr j.len
        let bad (ps : List Piece) : Option Nat := ps.findSome? (fun p => match p with | .bad x => some x | _ => none)
        if j.len = 0 then .next (if s.engBusy e then s else finish s)
        else
          match bad dst, s.gather e src with
          | _, .eat => .next (s.consumeThread site j.group j.blk b j.lane j.index)
          | some x, _ => .next (s.raiseLate site j.group j.lane j.index j.cid x)
          | none, .exc x => .next (s.raiseLate site j.group j.lane j.index j.cid x)
          | none, .wait => .next (s.ask e src)
          | none, .data bs =>
            let s := ((s.moved e src).used e).moved e dst
            let s := ((s.scatter e dst bs).tainted j.cid (bs.any (·.2))).bump64 (.cntCore site) 0x048 j.len
            if s.engBusy e then
              .next (s.modCore site (fun k => { k with dma := k.dma.map (fun x => if x.id = job then { x with len := 0 } else x) }))
            else .next (finish s)
      | _, _ => .next s

end Sys2Proof.Machine
end

