-- ==== Sys2Proof/Machine/Regions.lean ====
section
/-! DEFINITION. Regions: their registers, steps, neighbours, waking and parking (R21, R326 to R334, R341, R349, R354). A region
is named stack × 256 + n with the n of R349. -/

namespace Sys2Proof.Machine

/-- Bits [hi:lo] of PWR_REGIONn (R349). -/
def State.regF (s : State) (r hi lo : Nat) : Nat := s.rgF (.pwr (r / 256)) (0x100 + 4 * (r % 256)) hi lo

/-- Set bits [hi:lo] of PWR_REGIONn. -/
def State.setReg (s : State) (r hi lo v : Nat) : State := s.wgF (.pwr (r / 256)) (0x100 + 4 * (r % 256)) hi lo v

/-- The half of the part that a region lies in (R15). -/
def regionHalf (r : Nat) : Nat := 2 * (r / 256) + r / 64 % 2

/-- The regions of a stack. -/
def stackRegions (t : Nat) : List Nat := upTo (t * 256) 256

/-- The regions of a half of the part, on both layers. -/
def halfRegions (h : Nat) : List Nat :=
  upTo (h / 2 * 256 + h % 2 * 64) 64 ++ upTo (h / 2 * 256 + 128 + h % 2 * 64) 64

/-- Every region of the part. -/
def State.allRegions (s : State) : List Nat := upTo 0 (s.stacks * 256)

/-- Whether a region is switched on. -/
def State.regionOn (s : State) (r : Nat) : Bool := s.regF r 1 0 == 2

/-- Whether two regions are neighbours (R327): same layer and half, one apart in row within a column or in column within a
row. -/
def neighbours (a b : Nat) : Bool :=
  decide (a / 64 = b / 64) &&
    ((decide (a % 4 = b % 4) && (decide (a + 4 = b) || decide (b + 4 = a))) ||
     (decide (a / 4 = b / 4) && (decide (a + 1 = b) || decide (b + 1 = a))))

/-- The neighbours of a region. -/
def neighboursOf (r : Nat) : List Nat := (upTo (r / 64 * 64) 64).filter (fun x => neighbours r x)

/-- The step that the thermal throttle and the hold of R362 request for the regions of a half. -/
def State.thermStep (s : State) (h : Nat) : Nat :=
  min (mget 16 s.power.thrReq h) (if s.power.hotHold.contains h then 4 else 16)

/-- The lowest step that a governor requests for a region (R21, R326). -/
def State.wantStep (s : State) (r : Nat) : Nat :=
  min (min (s.regF r 14 10) (s.regF r 19 15)) (s.thermStep (regionHalf r))

/-- Whether a region counts for its half's mesh clock (R353): it is not parked. A dark region, which has no clock, counts as parked (DEDUCED,
log entry 139). -/
def State.clocked (s : State) (r : Nat) : Bool := s.regF r 1 0 == 1 || s.regF r 1 0 == 2

/-- The step of a half's mesh clock (R353): the highest step among its regions that are not parked, else 4. -/
def State.meshStep (s : State) (h : Nat) : Nat :=
  (halfRegions h).foldl (fun m r => if s.clocked r then max m (s.regF r 9 5) else m) 4

/-- CLK_W or CLK_E of a half follows its mesh clock; a change makes its crossings switch mode (R239, R255, R354). -/
def State.meshSync (s : State) (h : Nat) : State :=
  let lo := 2 + 4 * (h % 2)
  let k := s.meshStep h - 1
  if s.rgF (.msh (h / 2)) 0x000 (lo + 3) lo = k then s
  else
    let t := s.wgF (.msh (h / 2)) 0x000 (lo + 3) lo k
    { t with net := { t.net with crossing := mput t.net.crossing h 1 } }

/-- The step of a region takes a value. -/
def State.setStep (s : State) (r k : Nat) : State := (s.setReg r 9 5 k).meshSync (regionHalf r)

/-- The step that the stack governor requests for a region (R326): the lowest of its own hold (R335), the cap of a failed regulator (R328)
and what switch-ons have lowered (R330). -/
def Power.govStep (p : Power) (r : Nat) : Nat :=
  p.lowered.foldl (fun m e => e.2.foldl (fun m x => if x.1 = r then min m x.2 else m) m) (min (mget 16 p.govHold r) (mget 16 p.capStep r))

/-- STEP_GOV of a region follows the governor's requests (R349). -/
def State.govSet (s : State) (r : Nat) : State := s.setReg r 14 10 (s.power.govStep r)

/-- One step below what a region has, which the governor never takes below 4 (R330, R335, R347). -/
def State.oneLower (s : State) (r : Nat) : Nat := max 4 (min (s.regF r 14 10) (s.regF r 9 5) - 1)

/-- The stack governor lowers its own hold on a region by one step (R335). -/
def State.govLower (s : State) (r : Nat) : State :=
  { s with power := { s.power with
    govHold := mset 16 s.power.govHold r (min (mget 16 s.power.govHold r) (s.oneLower r)) } : State }.govSet r

/-- The stack governor raises its own hold on a region by one step (R335). -/
def State.govRaise (s : State) (r : Nat) : State :=
  { s with power := { s.power with
    govHold := mset 16 s.power.govHold r (min 16 (mget 16 s.power.govHold r + 1)) } : State }.govSet r

/-- A region is capped at 4.2 A by holding its step down (R328): the step is a free value of 4 to 16 (log entry 9). -/
def State.capRegion (s : State) (r : Nat) : State :=
  let k := (mfind s.power.capStep r).getD (4 + (Config.freeWord s.drawn).toNat % 13)
  { s.setReg r 4 4 1 with drawn := s.drawn + 1, power := { s.power with capStep := mput s.power.capStep r k } : State }.govSet r

/-- GOV_ACTIVE: whether the governor holds a running region down (R348). -/
def State.govSync (s : State) (t : Nat) : State :=
  s.wgB (.pwr t) 0x000 4 ((stackRegions t).any (fun r => s.regionOn r && decide (s.regF r 14 10 < 16)))

/-- The lowerings made for a region's switch-on are released (R330). -/
def State.unlower (s : State) (r : Nat) : State :=
  let who := ((mfind s.power.lowered r).getD []).map (·.1)
  who.foldl State.govSet { s with power := { s.power with lowered := merase s.power.lowered r } }

/-- What power control kept of a region goes as the region is switched off (R332, R335): the governor's own hold, a switch-on that waits with
the lowerings made for it, a droop and its delay. -/
def State.govForget (s : State) (r : Nat) : State :=
  (({ s with power := { s.power with
    govHold := merase s.power.govHold r, swWait := merase s.power.swWait r
    sag := merase s.power.sag r, late := merase s.power.late r } : State }.unlower r).govSet r).govSync (r / 256)

/-- A parked region begins to switch on; the cache of a retained half wakes first (R330, R333, R334). -/
def State.wakeRegion (s : State) (r : Nat) : State :=
  if s.regF r 1 0 = 0 then
    let h := regionHalf r
    let t := (((s.setReg r 1 0 1).setReg r 2 2 0).setReg r 23 20 0).meshSync h
    let t := t.modHalf h (fun x => { x with woken := false })
    if (t.half h).retained then t.modHalf h (fun x => { x with waking := some (x.waking.getD t.time.now) }) else t
  else s

/-- A port test under way beneath a site stops, to run again later (R225). -/
def State.stopPortTest (s : State) (i : Nat) : State :=
  let h := siteHalf i
  let sl := siteSlice i
  if s.rgB (.sc h) (0x2800 + 4 * sl) 9 then
    (s.wgB (.sc h) (0x2800 + 4 * sl) 9 false).modHalf h (fun x => { x with portDue := mput x.portDue sl s.time.now })
  else s

/-- A region is parked: the L1s of its cores are invalidated, port tests stop (R225, R332); its arrays, without power, hold no filler for
Trim (R62, R340). -/
def State.parkRegion (s : State) (r : Nat) (trim : Bool) : State :=
  if s.regF r 1 0 = 3 then s
  else
    let t := ((s.setReg r 1 0 0).setReg r 2 2 (if trim then 1 else 0)).setReg r 23 20 0
    let t := (regionSites r).foldl State.stopPortTest t
    (((regionSites r).foldl (fun t i => t.modCore i (fun k => { k with l1 := [], arr := { k.arr with trimHold := false } })) t).meshSync
      (regionHalf r)).govForget r

/-- Whether a block is resident on a core of a region. -/
def State.regionBusy (s : State) (r : Nat) : Bool := (regionSites r).any (fun i => !(s.core i).blocks.isEmpty)

/-- Whether a region holds a lent core in service or about to join (R376, R377). -/
def State.regionLent (s : State) (r : Nat) : Bool :=
  (regionSites r).any (fun i => (mfind s.roster.lent i).isSome && (hasSite s.roster.enabled i || (mfind s.roster.waking i).isSome))

/-- Trim unparks a region that it parked (R341, R350). -/
def State.trimUnpark (s : State) (r : Nat) : State := (s.wakeRegion r).bump .trim 0x10C 1

end Sys2Proof.Machine
end

