-- ==== Sys2Proof/Machine/Power.lean ====
section
/-! DEFINITION. Power: the stack governor, steps, droop, switch-on and Trim (R324 to R346, R354 to R356). Times are device time;
1 µs is 250 ticks (R357). An event that is not due leaves the state unchanged. -/

namespace Sys2Proof.Machine

/-- The cap of a stack in 1/16 W (R20, R324): 540 W, in an XN8 times its working logic phases ÷ 40. -/
def State.stackCap (s : State) (t : Nat) : Nat :=
  if s.stacks = 8 then 216 * s.rgF (.pwr t) 0x000 10 5 else 8640

/-- Whether a time is none or n ticks past. -/
def State.past (s : State) (m : Map Nat) (k n : Nat) : Bool := match mfind m k with | some x => decide (x + n ≤ s.time.now) | none => true

/-- GOVERNOR_MEASURE (R20, R335, R348): every µs, `power16` is the 10 µs running average in 1/16 W. Above the cap every running region is
lowered one step each 2 µs; after 50 µs below 95 % of it, each region the governor holds is raised one step each 20 µs. -/
def execGovernorMeasure (stack power16 : Nat) (s : State) : Out :=
  if s.stacks ≤ stack then .next s
  else if !s.past s.power.govAt stack 250 then .next s
  else
    let b := Blk.pwr stack
    let s := s.wgF b 0x004 15 0 (min power16 65535)
    let s := { s with power := { s.power with govAt := mput s.power.govAt stack s.time.now } }
    let cap := s.stackCap stack
    let now := s.time.now
    let on := (stackRegions stack).filter s.regionOn
    let stamp (t : State) : State := { t with power := { t.power with govLast := mput t.power.govLast stack now } }
    let s :=
      if cap < power16 then
        let s := { s with power := { s.power with govBelow := merase s.power.govBelow stack } }
        if s.past s.power.govLast stack 500 then stamp (on.foldl State.govLower s) else s
      else if power16 * 100 < cap * 95 then
        let from_ := (mfind s.power.govBelow stack).getD now
        let s := { s with power := { s.power with govBelow := mput s.power.govBelow stack from_ } }
        if from_ + 12500 ≤ now && s.past s.power.govLast stack 5000 then
          stamp ((on.filter (fun r => decide (mget 16 s.power.govHold r < 16))).foldl State.govRaise s)
        else s
      else { s with power := { s.power with govBelow := merase s.power.govBelow stack } }
    let s := s.govSync stack
    .next (if s.rgB b 0x000 4 then s.bump b 0x800 1 else s)

/-- STEP_CHANGE (R21, R353, R354): at a frame boundary, one in four ticks, the step in effect takes the lowest requested one, once in a
frame. -/
def execStepChange (stack region : Nat) (s : State) : Out :=
  if s.stacks ≤ stack ∨ 256 ≤ region then .next s
  else
    let r := stack * 256 + region
    .next (if s.regionOn r && decide (s.time.now % 4 = 0) && s.past s.power.stepAt r 1 then
      { s with power := { s.power with stepAt := mput s.power.stepAt r s.time.now } : State }.setStep r (s.wantStep r)
    else s)

/-- Whether n mV below the set point is below the level of a region's droop detector (R355). -/
def State.droops (s : State) (r n : Nat) : Bool := decide (s.rgF (.clk (r / 256)) 0x004 7 0 < n)

/-- A stretched cycle of a region (R355, R356). -/
def State.stretch (s : State) (r n : Nat) : State :=
  { s.bump (.clk (r / 256)) (0x400 + 4 * (r % 256)) n with power := { s.power with droop := insNat s.power.droop r } }

/-- DROOP_CROSSING (R355, R356): the supply of a running region stands `below` mV below its set point. Below the detector's level its next
edge comes 2 root cycles late, and so does each one after it while the supply stays there. -/
def execDroopCrossing (stack region below : Nat) (s : State) : Out :=
  if s.stacks ≤ stack ∨ 256 ≤ region then .next s
  else
    let r := stack * 256 + region
    .next (if !s.regionOn r then s
    else if !s.droops r below then { s with power := { s.power with sag := merase s.power.sag r } }
    else match mfind s.power.sag r with
      | some x => { s with power := { s.power with sag := mput s.power.sag r (below, x.2) } }
      | none =>
        let t := s.stretch r 1
        { t with power := { t.power with late := mput s.power.late r (mget 0 s.power.late r + 2), sag := mput s.power.sag r (below, true) } })

/-- Whether a region has begun to switch on (R331): a step has closed, or the first one waits. -/
def State.switching (s : State) (r : Nat) : Bool :=
  decide (s.regF r 1 0 = 1) && (decide (s.regF r 23 20 ≠ 0) || (mfind s.power.swWait r).isSome)

/-- Whether it is a region's turn to switch on (R331): it has begun, or no other of its layer of its half has and it is the lowest-numbered
one that is to switch on there; and the half's cache is awake (R334). -/
def State.switchTurn (s : State) (r : Nat) : Bool :=
  decide (s.regF r 1 0 = 1) && decide (s.regF r 23 20 < 8) && !(s.half (regionHalf r)).retained &&
    (s.switching r || ((upTo (r / 64 * 64) 64).all (fun x => !s.switching x) &&
      (upTo (r / 64 * 64) (r % 64)).all (fun x => s.regF x 1 0 != 1)))

/-- A switch-on step closes (R330): the wait is counted in µs; with step 8 the lowerings are released, and a failed regulator's
cap applies (R347). -/
def State.closeStep (s : State) (r : Nat) : State :=
  let b := Blk.pwr (r / 256)
  let s := match mfind s.power.swWait r with
    | some t => { s.bump b 0x804 ((s.time.now - t) / 250) with power := { s.power with swWait := merase s.power.swWait r } }
    | none => s
  let n := s.regF r 23 20 + 1
  let s := s.setReg r 23 20 n
  if n = 8 then
    let s := s.unlower r
    let s := if s.regF r 3 3 = 1 then s.capRegion r else s
    s.govSync (r / 256)
  else s

/-- SWITCH_ON_STEP (R330): `halfCurrent` in amperes is the 1 µs average of the half's monitor, `peaks` the regions of the stack
at peak. Without headroom the step waits. -/
def execSwitchOnStep (stack region halfCurrent : Nat) (peaks : List Nat) (s : State) : Out :=
  if s.stacks ≤ stack ∨ 256 ≤ region then .next s
  else
    let r := stack * 256 + region
    .next (if !s.switchTurn r then s
    else if decide (halfCurrent < 324) && peaks.all (fun p => !neighbours region p) then s.closeStep r
    else { s with power := { s.power with
      swWait := if (mfind s.power.swWait r).isSome then s.power.swWait else mput s.power.swWait r s.time.now } })

/-- SWITCH_ON_WAIT_EXPIRY (R330): after 50 µs the governor lowers by one step each neighbour at peak, or every running region of
the half where none is, and the step starts. -/
def execSwitchOnWaitExpiry (stack region : Nat) (peaks : List Nat) (s : State) : Out :=
  if s.stacks ≤ stack ∨ 256 ≤ region then .next s
  else
    let r := stack * 256 + region
    match mfind s.power.swWait r with
    | none => .next s
    | some t =>
      if !s.switchTurn r ∨ s.time.now < t + 12500 then .next s
      else
        let near := (neighboursOf r).filter (fun x => peaks.contains (x % 256) && s.regionOn x)
        let who := if near = [] then (halfRegions (regionHalf r)).filter s.regionOn else near
        let old := (mfind s.power.lowered r).getD []
        let s := { s.bump (.pwr stack) 0x808 who.length with power := { s.power with
          lowered := mput s.power.lowered r (old ++ who.map (fun x => (x, s.oneLower x))) } }
        let s := who.foldl State.govSet s
        .next (s.govSync stack |>.closeStep r)

/-- The standing step of regions with no block (R342): the highest at which p plus their full load, taken as proportional to
the step, stays at or below hi + 50 W. -/
def standingStep (p hi n load : Nat) : Nat :=
  ((upTo 4 13).filter (fun k => decide (p + n * load * k / 16 ≤ hi + 400))).foldl max 4

/-- While Trim is enabled, every running region with no block stands at the step of R342, by what Trim last saw. -/
def State.standIdle (s : State) : State :=
  match s.power.trimSeen with
  | none => s
  | some (p, hi, load) =>
    let idle := s.allRegions.filter (fun r => s.regionOn r && !s.regionBusy r)
    let k := standingStep p hi idle.length load
    idle.foldl (fun t r => t.setReg r 19 15 k) s

/-- REGION_ON (R331, R342, R347): the reset of a region is released after its eighth step; its step is the standing step of R342 while Trim is
enabled, else 16. -/
def execRegionOn (stack region : Nat) (s : State) : Out :=
  if s.stacks ≤ stack ∨ 256 ≤ region then .next s
  else
    let r := stack * 256 + region
    if s.regF r 1 0 = 1 ∧ s.regF r 23 20 = 8 then
      let t := (s.setReg r 1 0 2).setReg r 19 15 16
      let t := if s.power.trimEnabled then t.standIdle else t
      .next ((t.setStep r (t.wantStep r)).govSync stack)
    else .next s

/-! ## Trim (R337 to R346) -/

/-- What Trim still has to move, and how the state stands. Estimates are in eighths of a watt. -/
abbrev TrimAcc := State × Nat

/-- Whether a region runs with its filler held by Trim. -/
def State.fillHeld (s : State) (r : Nat) : Bool := (regionSites r).any (fun i => (s.core i).arr.trimHold)

/-- Set or clear TRIM_HOLD of a region's arrays. -/
def State.holdFill (s : State) (r : Nat) (v : Bool) : State :=
  (regionSites r).foldl (fun t i => if hasSite t.roster.enabled i then t.modArr i (fun a => a.hold v) else t) s

/-- Move one unit of an actuator in each of a list of regions while something is left to move. -/
def trimEach (f : State → Nat → State) (unit : Nat) (rs : List Nat) (x : TrimAcc) : TrimAcc :=
  rs.foldl (fun x r => if x.2 = 0 then x else (f x.1 r, x.2 - max 1 unit)) x

/-- Lower (down) or raise Trim's step request of a region by one. -/
def State.trimStep (s : State) (down : Bool) (r : Nat) : State :=
  let k := s.regF r 19 15
  s.setReg r 19 15 (if down then max 4 (k - 1) else min 16 (k + 1))

/-- Rounds of one step per region in the fixed rotation. -/
def trimRounds (down : Bool) (unit : Nat) (rs : List Nat) : Nat → TrimAcc → TrimAcc
  | 0, x => x
  | n + 1, x =>
    let movable := rs.filter (fun r => if down then decide (4 < x.1.regF r 19 15) else decide (x.1.regF r 19 15 < 16))
    trimRounds down unit rs n (trimEach (fun t r => t.trimStep down r) unit movable x)

/-- Whether Trim may park a region (R341). -/
def State.trimParkable (s : State) (r : Nat) : Bool :=
  s.rgB .trim 0x010 0 && s.regionOn r && !s.regionBusy r && !s.regionLent r &&
    (match s.regionPart r with | some p => s.rgB .trim 0x010 (16 + p) | none => false) &&
    (match mfind s.power.idleSince r with | some t => decide (t + 250000 ≤ s.time.now) | none => false)

/-- Running regions with a block resident, from the place in the rotation where the last period stopped. -/
def State.rotation (s : State) (rs : List Nat) : List Nat :=
  let k := s.power.trimRot % (rs.length + 1)
  rs.drop k ++ rs.take k

/-- Lower the draw by e eighths of a watt (R340): withdraw filler, lower steps, park. What is left could not be moved. -/
def State.trimLower (s : State) (m : TrimMeas) (e : Nat) : TrimAcc :=
  let on := s.allRegions.filter s.regionOn
  let x := trimEach (fun t r => t.holdFill r false) m.fillerUnit (on.filter s.fillHeld) (s, e)
  let x := trimRounds true m.stepUnit (s.rotation (on.filter s.regionBusy)) 12 x
  trimEach (fun t r => (t.parkRegion r true).bump .trim 0x108 1) m.parkUnit (on.filter x.1.trimParkable) x

/-- Raise the draw by e eighths of a watt (R340): unpark, raise steps, hold filler on. -/
def State.trimRaise (s : State) (m : TrimMeas) (e : Nat) : TrimAcc :=
  let on := s.allRegions.filter s.regionOn
  let x := trimEach (fun t r => t.trimUnpark r) m.parkUnit
    (s.allRegions.filter (fun r => decide (s.regF r 2 2 = 1))) (s, e)
  let x := trimRounds false m.stepUnit (s.rotation (on.filter s.regionBusy)) 12 x
  trimEach (fun t r => t.holdFill r true) m.fillerUnit (on.filter (fun r => !s.fillHeld r)) x

/-- Release holds one unit at a time while the estimate stays within lo to hi, stopping at the first that would leave the band
(R340). The list gives each unit's effect, the change of draw and whether it lowers the draw. -/
def trimRelease (lo hi : Nat) : List ((State → State) × Nat × Bool) → State × Nat → State × Nat
  | [], x => x
  | (f, u, down) :: rest, (s, p) =>
    let q := if down then p - u else p + u
    if (down && decide (p < lo + u)) || (!down && decide (hi < p + u)) then (s, p)
    else trimRelease lo hi rest (f s, q)

/-- The units that Trim holds, in the order of release (R340). -/
def State.trimUnits (s : State) (m : TrimMeas) : List ((State → State) × Nat × Bool) :=
  let on := s.allRegions.filter s.regionOn
  (on.filter s.fillHeld).map (fun r => ((fun (t : State) => t.holdFill r false), m.fillerUnit, true)) ++
  (s.allRegions.filter (fun r => decide (s.regF r 2 2 = 1))).map
    (fun r => ((fun (t : State) => t.trimUnpark r), m.parkUnit, false)) ++
  ((on.filter s.regionBusy).flatMap (fun r =>
    (upTo 0 (16 - s.regF r 19 15)).map (fun _ => ((fun (t : State) => t.trimStep false r), m.stepUnit, false))))

/-- Since when a region has had no block, which a block's start ends (R341). -/
def State.trimIdle (s : State) : State :=
  let m := s.allRegions.foldl (fun m r =>
    if !s.regionBusy r then (if (mfind m r).isSome then m else mput m r s.time.now)
    else merase m r) s.power.idleSince
  { s with power := { s.power with idleSince := m } }

/-- Set a status bit of Trim; a flag of R345 that becomes 1 raises EV_TRIM. -/
def State.trimFlag (s : State) (i : Nat) (v : Bool) : State :=
  let t := s.wgB .trim 0x000 i v
  if v && !s.rgB .trim 0x000 i then t.adminEvent 7 else t

/-- Whether a governor other than Trim holds a running region below Trim's request (R345). -/
def State.overridden (s : State) : Bool :=
  s.allRegions.any (fun r => s.regionOn r &&
    (decide (min (s.regF r 14 10) (s.thermStep (regionHalf r)) < s.regF r 19 15) || s.power.droop.contains r))

/-- Whether Trim holds an actuator (R346): filler, a region that it parked, or a step of a region at work. -/
def State.trimHolds (s : State) : Bool :=
  s.allRegions.any (fun r => decide (s.regF r 2 2 = 1) ||
    (s.regionOn r && (s.fillHeld r || (s.regionBusy r && decide (s.regF r 19 15 < 16)))))

/-- Trim stops running (R346, R350): its requests end, REF reads 0, and of its status only CLAMPED is left. -/
def State.trimOff (s : State) : State :=
  let s := ((s.wg .trim 0x000 (s.rg .trim 0x000 &&& 4)).wgF .trim 0x014 15 0 0)
  let s := s.allRegions.foldl (fun t r => t.setReg r 19 15 16) s
  { s with power := { s.power with trimEnabled := false, trimR := none, trimSeen := none } }

/-- hi, lo and the next r of R339, in 1/80,000 W, so that RAMP × 0.0001 s is RAMP × 8. -/
def trimBand (setp flr ramp p r : Nat) : Nat × Nat × Nat :=
  let d := ramp * 8
  let hi := if ramp = 0 then setp else max (min setp (r + d)) (r - d)
  let lo := if ramp = 0 then min flr hi else min (max flr (r - d)) hi
  (hi, lo, min (max p lo) hi)

/-- One period of the loop while Trim is enabled (R339, R340, R342, R345, R346). -/
def State.trimLoop (s : State) (m : TrimMeas) : State :=
  let rel := s.rgB .trim 0x000 1
  let setp := if rel then s.part.grade.maxPower else s.rgF .trim 0x004 15 0
  let flr := if rel then 0 else s.rgF .trim 0x00C 15 0
  let p := m.power * 10000
  let (hi, lo, r) := trimBand (setp * 80000) (flr * 80000) (s.rgF .trim 0x008 15 0) p (s.power.trimR.getD p)
  let s := { s with power := { s.power with trimSeen := some (m.power, hi / 10000, m.idleLoad) } : State }.standIdle
  let (s, left) :=
    if hi < p then s.trimLower m (cdiv (p - hi) 10000)
    else if p < lo then s.trimRaise m (cdiv (lo - p) 10000)
    else ((trimRelease (cdiv lo 10000) (hi / 10000) (s.trimUnits m) (s, m.power)).1, 0)
  let s := (s.trimFlag 3 (decide (p < lo) && decide (0 < left))).trimFlag 4 (decide (hi < p) && decide (0 < left))
  let s := s.trimFlag 5 s.overridden
  let s := { s with power := { s.power with trimR := some r, trimRot := s.power.trimRot + 1 } }
  let s := s.wgF .trim 0x014 15 0 (r / 10000)
  if rel && !s.trimHolds then s.trimOff else s

/-- Whether a period of Trim ends now (R338): at a multiple of 25,000 ticks of device time, once. -/
def State.trimDue (s : State) : Bool :=
  s.time.running && decide (s.time.now % 25000 = 0) && decide (s.time.now ≠ 0) && decide (s.power.trimLast ≠ some s.time.now)

/-- TRIM_PERIOD (R337 to R346): a period ends; a pending TRIM_SET takes effect, the loop runs while enabled, the power adds to the
average of its millisecond. -/
def execTrimPeriod (meas : TrimMeas) (s : State) : Out :=
  if !s.trimDue then .next s else
  let s := s.trimIdle
  let s := match s.power.trimPending with
    | none => s
    | some (_, _, _, en) =>
      let s := { s with power := { s.power with trimPending := none } }
      if en then
        { (s.wgB .trim 0x000 0 true).wgB .trim 0x000 1 false with power := { s.power with trimEnabled := true } }
      else if s.power.trimEnabled then s.wgB .trim 0x000 1 true
      else s
  let s := if s.power.trimEnabled then s.trimLoop meas else s
  let first := s.time.now % 250000 = 25000
  .next { s with power := { s.power with
    trimSum := (if first then 0 else s.power.trimSum) + meas.power, trimN := (if first then 0 else s.power.trimN) + 1
    droop := (s.power.sag.map (·.1)).foldl insNat [], trimLast := some s.time.now } }

/-- TRIM_REPORT (R344, R350): at the end of a millisecond of device time, the average of its ten periods, SEQ, the time, a type 4
record. -/
def execTrimReport (s : State) : Out :=
  if s.time.now % 250000 ≠ 0 ∨ s.power.trimN ≠ 10 then .next s
  else
    let s := s.wgF .trim 0x018 15 0 (s.power.trimSum / s.power.trimN)
    let s := s.wgF .trim 0x018 31 16 (s.rgF .trim 0x018 31 16 + 1)
    let s := s.wg64 .trim 0x020 s.time.now
    let s := { s with power := { s.power with trimSum := 0, trimN := 0 } }
    let s := if s.rgB .trim 0x000 3 || s.rgB .trim 0x000 4 then s.bump .trim 0x100 1 else s
    let s := if s.rgB .trim 0x000 5 then s.bump .trim 0x104 1 else s
    let pay := toBytes 4 (s.rgF .trim 0x018 15 0) ++ toBytes 4 (s.rgF .trim 0x014 15 0) ++ toBytes 4 (s.rgF .trim 0x000 5 0)
    .next (s.traceEvery 3 (traceBytes s.time.now pay 4 0 0xFFF))

end Sys2Proof.Machine
end

