-- ==== Sys2Proof/Machine/Place.lean ====
section
/-! DEFINITION. Blocks placed on cores, first and again after a fault, and the stall detector (R89 to R98, R109 to R113, R381). -/

namespace Sys2Proof.Machine

/-- Groups of a block of T threads (R89). -/
def groupsFor (t : Nat) : Nat := cdiv t 32

/-- Registers that one group takes (R91, R93). -/
def groupRegs (n : Nat) : Nat := cdiv n 8 * 256

/-- The width a core runs WIDTH_SEL blocks at (R112, R114). -/
def State.coreWidth (s : State) (i : Nat) : Nat := if hasSite s.roster.restricted i then 16 else 32

/-- Whether a block of g groups with n registers a thread and u local-memory units has room on a core (R90, R91, R112, R113). -/
def State.room (s : State) (i g n u : Nat) (sel : Bool) : Bool :=
  let k := s.core i
  let used := (k.groups.map (fun e => groupRegs (((mfind k.blocks e.2.blk).map (·.regs)).getD 0))).sum
  decide (k.groups.length + g ≤ 64) && decide (k.blocks.length < 16) &&
    decide (used + g * groupRegs n ≤ 65536 * s.coreWidth i / 32) && (lmemRun (k.blocks.map (·.2)) u).isSome &&
    (sel || decide (s.coreWidth i = 32))

/-- The cores of a partition that take blocks: on, past their wake check, not parked for it, not under a self-test (R96, R280,
R334). -/
def State.placeable (s : State) (p : Nat) : List Nat :=
  (s.partCores p).filter (fun i => !s.coreParked i && !(s.core i).selfTest && (mfind s.roster.waking i).isNone)

/-- Resident blocks of a command on a core. -/
def State.resident (s : State) (i cid : Nat) : Nat := ((s.core i).blocks.filter (fun b => b.2.cid == cid)).length

/-- The core that R96 chooses: among cores with room, the fewest resident blocks of the command, then the lowest site. -/
def State.choose (s : State) (c : Cmd) : Option Nat :=
  leastOf (fun i => s.resident i c.cid)
    ((s.placeable c.part).filter (fun i => s.room i (groupsFor c.threads) c.nregs c.lmemUnits c.widthSel))

/-- The lowest free slots of a map of n. -/
def freeSlots {α : Type} (m : Map α) (n : Nat) : List Nat := (upTo 0 n).filter (fun i => (mfind m i).isNone)

/-- The uniform registers of a group at block start (R95). -/
def startUregs (c : Cmd) (lin gi w : Nat) : Map W32 :=
  let x := lin % c.gridX
  let y := lin / c.gridX % c.gridY
  let z := lin / c.gridX / c.gridY
  ([x, y, z, c.gridX, c.gridY, c.gridZ, gi, c.threads, (c.dw 10).toNat, c.f 11 15 0, c.lmemUnits * 4096, w].foldl
    (fun (a : Map W32 × Nat) v => (mset 0 a.1 a.2 (BitVec.ofNat 32 v), a.2 + 1)) ([], 0)).1

/-- A group at block start (R89, R95): lanes above T − 1 hold no thread. -/
def startGroup (c : Cmd) (b lin gi w : Nat) : Group :=
  let entry := (c.dw 4).toNat
  { blk := b, idx := gi
    threads := (upTo 0 32).map (fun l =>
      let i := gi * 32 + l
      if i < c.threads then { Thread.start entry with regs := mset 0 [] 0 (BitVec.ofNat 32 i) }
      else { Thread.start entry with wait := .exited })
    uregs := startUregs c lin gi w, upois := [], act := some 0, count := 0, divs := [], nextDiv := 0, barMask := none
    stopped := false, espWait := false, accIssued := 0, bpSkip := false }

/-- A block starts on a core (R90, R95, R182, R419), with the commit marks `old` carries where it is replayed (R381, R385). -/
def State.startBlock (s : State) (i : Nat) (c : Cmd) (lin : Nat) (old : Option Block) : State :=
  let k := s.core i
  let b := (freeSlots k.blocks 16).headD 0
  let g := groupsFor c.threads
  let u := (lmemRun (k.blocks.map (·.2)) c.lmemUnits).getD 0
  let w := s.coreWidth i
  let fresh : Block := ⟨c.cid, lin, c.threads, g, c.nregs, u, c.lmemUnits, w, 0, false, [], [], 0, false, false, [], none⟩
  let blk : Block := match old with
    | none => fresh
    | some o => { fresh with
        commits := o.commits, strips := o.strips, replays := o.replays, poisonReplayed := o.poisonReplayed
        images := o.images }
  let slots := (freeSlots k.groups 64).take g
  let groups := ((upTo 0 g).zip slots).foldl (fun m x => mput m x.2 (startGroup c b lin x.1 w)) k.groups
  let s := { s.setCore i { k with blocks := mput k.blocks b blk, groups := groups } with
    power := { s.power with idleSince := merase s.power.idleSince (regionOf i) } }
  (s.clear (lmemAddr i blk 0) (c.lmemUnits * 4096)).setPlace i b u c.lmemUnits true

/-- With no other core of the partition with room, Trim unparks a region that it parked (R341). -/
def State.unparkForPlace (s : State) (c : Cmd) : State :=
  match s.allRegions.find? (fun r => decide (s.regF r 2 2 = 1) && decide (s.regF r 1 0 = 0) && decide (s.regionPart r = some c.part))
  with
  | some r => s.trimUnpark r
  | none => s

/-- The engine by which a replayed block of a command reloads its images on a core, beside the core's own loads. -/
def Cmd.reloadEng (c : Cmd) (i lin : Nat) : Eng := ⟨i, 70, 1, c.cid, lin, c.part, c.segs, 0, 128, 0, 0⟩

/-- The load of an image from its source. -/
def Image.asLoad (im : Image) : EspLoad := ⟨none, none, im.space, im.addr, 0, 0, 0⟩

/-- A replayed block's espalier image loads again on its core, from the source it came from (R83; log entry 115), that of local memory as it was
read when the block left. Refused where a check of R77 fails or it reads poisoned; nothing yet while no slot is free, or its bytes are on their
way. -/
def State.reloadImage (s : State) (e : Eng) (im : Image) : Loaded :=
  if (s.core e.site).esp.load.isSome || (s.core e.site).espFree.isEmpty then .wait
  else if im.space = 0 then
    (match imgHeadCheck im.bytes, imgBodyCheck im.bytes with | none, none => .ok im.bytes | _, _ => .refused 3)
  else s.imgLoad (s.gather e) (some e) im.asLoad

/-- A replayed block's images load again, the one that its first tile binds last. Where one fails, the command is not recovered with CODE 2, or
ends with POISON_CONSUMED if the block runs again for poison (R83, R386, R387). -/
def State.reloadImages (s : State) (e : Eng) (ate : Option Detail) (after : State → State) : List Image → State
  | [] => after s
  | im :: ims =>
    s.reloadImages e ate (fun t =>
      match t.reloadImage e im with
      | .ok bs => after (t.espInstall e.site ((t.core e.site).espFree.headD 0) ⟨bs, im.space, im.addr⟩)
      | .wait => if im.space = 0 then s else s.ask e (s.imgNext e im.asLoad)
      | _ =>
        let s := s.used e
        (match ate with | some d => s.endCmd e.cid 0x12 d | none => s.unrecovered e.cid 2 e.site)) ims

/-- Place a block on the core of R96, once its launch message has reached that core (log entry 24), which one that was unparked since the command
began is sent now; one that is replayed takes its
espalier image with it (R83). -/
def State.placeBlock (s : State) (c : Cmd) (lin : Nat) (old : Option Block) (after : State → State) : State :=
  match s.choose c with
  | none => s.unparkForPlace c
  | some i =>
    if !c.cores.contains i then s.modCmd c.cid (fun d => { d with cores := insNat d.cores i })
    else if !c.launched.contains i then s
    else
      let e := c.reloadEng i lin
      let go (t : State) : State := after ((t.used e).startBlock i c lin old)
      s.reloadImages e (old.bind (·.ate)) go ((old.map (·.images)).getD [])

/-- BLOCK_PLACE (R95, R96): the next block of a LAUNCH in linear order. -/
def execBlockPlace (cid : Nat) (s : State) : Out :=
  match s.cmd? cid with
  | none => .next s
  | some c =>
    .next (if c.opcode = 1 ∧ c.phase = .running ∧ c.nextBlock < c.blocks then
      s.placeBlock c c.nextBlock none (fun t => t.modCmd cid (fun c => { c with nextBlock := c.nextBlock + 1 }))
    else s)

/-- REPLAY_PLACE (R25, R381, R385): the lowest block that waits for replay is placed again; the command is RECOVERED. -/
def execReplayPlace (cid : Nat) (s : State) : Out :=
  match s.cmd? cid with
  | none => .next s
  | some c =>
    match leastOf id (c.replay.map (·.1)) with
    | none => .next s
    | some lin =>
      match c.replay.find? (fun x => x.1 == lin) with
      | none => .next s
      | some x =>
        .next (if c.phase = .running then
          s.placeBlock c lin (some x.2) (fun t =>
            (t.modCmd cid (fun c => { c with
              replay := c.replay.filter (fun y => y.1 != lin), recovered := true })).traceCoppice (s.cpStack c) (some c.part) 8 3 0xFFF 0xFFF)
        else s)

/-- STALL_DETECTOR_FIRE (R109 to R111): the stall timer of a block has reached 2^22. -/
def execStallDetectorFire (site block : Nat) (s : State) : Out :=
  if s.sites ≤ site then .next s
  else
    match mfind (s.core site).blocks block with
    | none => .next s
    | some b =>
      .next (if 2 ^ 22 ≤ b.stall ∧ b.stopped = false then
        s.endCmd b.cid 0x11 { Detail.plain s (siteStack site) 2 0 with site := site, block := block }
      else s)

end Sys2Proof.Machine
end

