-- ==== Sys2Proof/Machine/Boundary.lean ====
section
/-! DEFINITION. The boundaries of a command, its counter record, reply and interrupt (R23, R24, R190, R213, R246, R265, R270,
R274, R275, R392, R420, R422 to R424, R426). -/

namespace Sys2Proof.Machine

/-! ## Memory of the command processor -/

/-- The command processor as it reads and writes for a command (R232, R266, R296). -/
def State.cmdEng (s : State) (c : Cmd) : Eng := ⟨noSite, 71, s.homeCp c, c.cid, 0, c.part, c.segs, 0, 0, 0, 0⟩

/-- The command processor writes at a device address for a command; the command ends and replies once that is performed (R23). -/
def State.cpWrite (s : State) (c : Cmd) (a : Nat) (bs : List Byte) : State :=
  (s.queueWrite (s.cmdEng c) a (bs.map (fun b => (b, false)))).sendQueued noSite

/-- Bytes go to a host's memory (R289, R421). -/
def State.hostWrite (s : State) (port a : Nat) (bs : List Byte) : State :=
  (s.hostStore port a bs).hostTx port bs.length

/-! ## Counter records (R422 to R424) -/

/-- The 24 counters of a record, at a core: 64-bit counters 0 to 9, event counters from 10 (R423). -/
def recordFields (i : Nat) : List (Blk × Nat) :=
  (upTo 0 10).map (fun k => (Blk.cntCore i, 8 * k)) ++ (upTo 0 5).map (fun k => (Blk.cntCore i, 0x080 + 4 * k)) ++
  [(.arr i, 0x044), (.arr i, 0x048), (.arr i, 0x04C), (.arr i, 0x050), (.arr i, 0x058), (.arr i, 0x040), (.esp i, 0x040),
   (.clk (siteStack i), 0x400 + 4 * regionN i), (.router i, 0x118)]

/-- The values of a record's counters at a core now. -/
def State.fieldVals (s : State) (i : Nat) : List Nat :=
  ((upTo 0 24).zip (recordFields i)).map (fun x => if x.1 < 10 then s.rg64 x.2.1 x.2.2 else (s.rg x.2.1 x.2.2).toNat)

/-- A core contributes end − start to each field, 64-bit counters modulo 2^64; a start latch of 0 stands for a clear in the
interval (R424). -/
def contribution (st en : List Nat) : List Nat :=
  (upTo 0 24).map (fun k => if k < 10 then (nth 0 en k + 2 ^ 64 - nth 0 st k) % 2 ^ 64 else nth 0 en k - nth 0 st k)

/-- The summed fields of a command. -/
def Cmd.fields (c : Cmd) : List Nat :=
  c.endVals.foldl (fun acc e =>
    let x := contribution ((mfind c.startVals e.1).getD []) e.2
    (upTo 0 24).map (fun k => (nth 0 acc k + nth 0 x k) % 2 ^ 64)) ((upTo 0 24).map (fun _ => 0))

/-- SAT of a command's record (R424). -/
def Cmd.sat (c : Cmd) : Nat :=
  (upTo 10 14).foldl (fun m k => if c.endVals.any (fun e => nth 0 e.2 k == 0xFFFFFFFF) then m + 2 ^ k else m) 0

/-- The 256 bytes of a counter record (R423). -/
def Cmd.record (c : Cmd) (idx : W32) (endTime : Nat) : List Byte :=
  toBytes 4 idx.toNat ++ toBytes 4 (c.seqNo + c.opcode * 65536 + c.status * 2 ^ 24) ++ toBytes 4 (c.dw 1).toNat ++
  toBytes 4 (c.queue % 1024 + c.part * 1024 + (if c.recovered && decide (c.status = 0) then 2 ^ 14 else 0) +
    (if c.poisoned then 2 ^ 15 else 0) + (if c.cleared then 2 ^ 16 else 0) + c.cores.length * 2 ^ 17) ++
  toBytes 8 c.started ++ toBytes 8 endTime ++ toBytes 4 c.sat ++ toBytes 28 0 ++ c.fields.flatMap (toBytes 8)

/-- The record ring of a partition: base and entries. -/
def State.recRing (s : State) (p : Nat) : Nat × Nat :=
  ((s.rg (.cnt 0) (ringOff p)).toNat + 2 ^ 32 * s.rgF (.cnt 0) (ringOff p + 4) 15 0, s.rgF (.cnt 0) (ringOff p + 8) 20 0)

/-- A command of a partition takes the INDEX of its record where a record ring is set up (R274, R427). -/
def State.takeIndex (s : State) (cid : Nat) : State :=
  match s.cmd? cid with
  | none => s
  | some c =>
    if c.admin || c.recIndex != 0xFFFFFFFF || (s.recRing c.part).2 == 0 then s
    else
      let n := s.rg (.cnt 0) (ringOff c.part + 0x0C)
      (s.wg (.cnt 0) (ringOff c.part + 0x0C) (n + 1)).setCmd { c with recIndex := n }

/-- The payload of a command's start or end record in a trace (R426). -/
def Cmd.tracePayload (c : Cmd) (status : Nat) : List Byte :=
  toBytes 4 (c.seqNo + c.opcode * 65536 + status * 2 ^ 24) ++ toBytes 4 (c.dw 1).toNat ++ toBytes 4 c.queue ++
    toBytes 4 c.recIndex.toNat

/-- A trace record of a command: to its partition's ring and the admin ring, or to the admin ring alone (R429). -/
def State.traceCmd (s : State) (c : Cmd) (mask typ status : Nat) : State :=
  if c.admin then s.traceAdmin (s.cpStack c) mask typ 0xFFF (c.tracePayload status)
  else s.tracePart (s.cpStack c) c.part mask typ 0xFFF (c.tracePayload status)

/-! ## Start and end at a core -/

/-- Clear the event counters of a core's four blocks (R416, R419): the start latches of the commands that run there stand at 0
from then on, and their records show CLEARED (R424). -/
def State.clearCore (s : State) (i : Nat) : State :=
  let s := (coreBlks i).foldl State.clearCounters s
  { s with cmds := s.cmds.map (fun c =>
      match mfind c.startVals i with
      | some v => if (mfind c.endVals i).isSome then c
        else { c with startVals := mput c.startVals i (v.take 10 ++ (upTo 10 12).map (fun _ => 0) ++ (v.drop 22).take 1 ++ [0])
                      cleared := true }
      | none => c) }

/-- A core passes a boundary: its L1 and its kept translations go (R23, R131, R197). -/
def State.coreBoundary (s : State) (i : Nat) : State := (s.dropL1 i).modCore i (fun k => { k with trans := [] })

/-- Whether another command is between its boundaries on a core (R420). -/
def State.othersRun (s : State) (cid i : Nat) : Bool :=
  s.cmds.any (fun c => c.cid != cid && c.launched.contains i && !c.ordered.contains i)

/-- Whether a launch message of a command is due at a core (R246). -/
def Cmd.launchDue (c : Cmd) (site : Nat) : Bool :=
  c.begun && c.cores.contains site && !c.launched.contains site && (c.phase == .running || c.phase == .ending)

/-- A launch message reaches a core, which passes the start boundary (R246, R420, R422). -/
def State.launchReach (s : State) (cid site : Nat) : State :=
  match s.cmd? cid with
  | none => s
  | some c =>
    if c.launchDue site then
      let s := s.coreBoundary site
      let s := s.modCmd cid (fun c => { c with
        launched := insNat c.launched site, started := s.timeOf (siteStack site), startVals := mput c.startVals site (s.fieldVals site) })
      if s.rgB (.cntCore site) 0x100 1 && !s.othersRun cid site then s.clearCore site else s
    else s

/-- Whether the ring of a site's layer carries control messages (R250, R251). -/
def State.ringRuns (s : State) (site : Nat) : Bool :=
  s.rgB (.msh (siteStack site)) 0x000 0 && !s.net.ringFailed.contains (siteStack site * 2 + siteLayer site)

/-- Whether what holds of a command is due. -/
def State.dueCmd (s : State) (cid : Nat) (due : Cmd → Bool) : Bool := ((s.cmd? cid).map due).getD false

/-- The processor of a command sends a control message where no ring carries it and none is on its way (R246, R250). -/
def State.order (s : State) (cid : Nat) (msg : CtlMsg) : State :=
  match s.cmd? cid with
  | some c => if s.ringRuns msg.site then s else s.sendOrder (s.homeCp c) cid msg
  | none => s

/-- LAUNCH_MESSAGE (R246, R250, R420, R422): it sets out where it is due, and has its effect where it has come to its core. -/
def execLaunchMessage (cid site : Nat) (s : State) : Out :=
  if s.sites ≤ site then .next s
  else .next (
    match s.order? (.launch cid site) with
    | some r => if r.state = .arrived then (s.launchReach cid site).obeyed r else s
    | none => if s.dueCmd cid (fun c => c.launchDue site) then s.order cid (.launch cid site) else s)

/-- Whether a command is coming to its end with nothing left to replay. -/
def Cmd.isEnding (c : Cmd) : Bool := c.phase == .ending && c.replay.isEmpty

/-- Whether an end-boundary order of a command is due at a core. -/
def Cmd.endDue (c : Cmd) (site : Nat) : Bool := c.isEnding && c.launched.contains site && !c.ordered.contains site

/-- An end-boundary order reaches a core: what its blocks have issued and the core still buffers is released, the command's blocks leave it,
its L1 is invalidated, the end latch is taken (R23, R111, R133, R422). -/
def State.endReach (s : State) (cid site : Nat) : State :=
  match s.cmd? cid with
  | none => s
  | some c =>
    if c.endDue site then
      let bs := ((s.core site).blocks.filter (fun b => b.2.cid == cid)).map (·.1)
      let s := bs.foldl (fun t b => (t.commitPoint site b).dropBlock site b) s
      let s := s.coreBoundary site
      s.modCmd cid (fun c => { c with
        ordered := insNat c.ordered site, endVals := mput c.endVals site (s.fieldVals site) })
    else s

/-- END_BOUNDARY_ORDER (R23, R111, R250, R422): it sets out where it is due; the core that it has come to keeps it until it can acknowledge. -/
def execEndBoundaryOrder (cid site : Nat) (s : State) : Out :=
  if s.sites ≤ site then .next s
  else .next (
    match s.order? (.endOrder cid site) with
    | some r =>
      if r.state ≠ .arrived then s
      else if s.dueCmd cid (fun c => c.endDue site) then (s.endReach cid site).setReq { r with state := .missing }
      else s.obeyed r
    | none => if s.dueCmd cid (fun c => c.endDue site) then s.order cid (.endOrder cid site) else s)

/-- Whether accesses of a command from a core are still to be performed. -/
def State.accessing (s : State) (cid : Nat) (site : Option Nat) : Bool :=
  s.net.reqs.any (fun r => r.cid == cid && (match site with | some i => r.site == i | none => true) && r.open_)

/-- Whether a core may acknowledge the end of a command: its accesses of the command have been performed (R23). -/
def State.ackDue (s : State) (site : Nat) (c : Cmd) : Bool :=
  c.ordered.contains site && !c.acked.contains site && !s.accessing c.cid (some site)

/-- A core acknowledges the end of a command (R23). -/
def State.ackReach (s : State) (cid site : Nat) : State :=
  match s.cmd? cid with
  | none => s
  | some c =>
    if s.ackDue site c then
      s.modCmd cid (fun c => { c with acked := insNat c.acked site })
    else s

/-- CORE_ACKNOWLEDGE (R23, R250): the answer to the end order sets out. Where the order came by a ring that has failed since, the core
acknowledges over the mesh all the same (R251). -/
def execCoreAcknowledge (cid site : Nat) (s : State) : Out :=
  if s.sites ≤ site then .next s
  else .next (
    match s.cmd? cid with
    | none => s
    | some c =>
      if !s.ackDue site c || s.ringRuns site then s
      else
        match s.order? (.endOrder cid site) with
        | some r => if r.state = .missing then s.obeyed r else s
        | none =>
          let r := { orderReq (s.homeCp c) cid (.endOrder cid site) with rid := s.net.nextRid, state := .missing, sentAt := s.time.now }
          (s.enter r).obeyed r)

/-- A reset order reaches a core: where its partition is being reset, its blocks leave it (R250, R285). -/
def State.resetReach (s : State) (site : Nat) : State :=
  if ((s.corePart site).bind (fun p => (mfind s.parts p).map (·.resetting))).getD false then
    ((s.core site).blocks.map (·.1)).foldl (fun t b => t.dropBlock site b) s
  else s

/-- COMMAND_END_BOUNDARY (R23, R422 to R424, R426): every core has acknowledged, nothing is staged or outstanding: the
completion time is taken and the counter record written. -/
def execCommandEndBoundary (cid : Nat) (s : State) : Out :=
  match s.cmd? cid with
  | none => .next s
  | some c =>
    if c.isEnding && (!c.begun || c.cores.all (fun i => c.acked.contains i)) && !s.accessing cid none &&
        s.halves.all (fun h => h.2.staged.all (fun x => x.cid != cid)) then
      let s := s.takeIndex cid
      match s.cmd? cid with
      | none => .next s
      | some c =>
        let now := s.timeOf (s.cpStack c)
        let s := s.setCmd { c with phase := .bounded, bounded := now }
        let s := if c.status = 0x15 then { s with unrecoveredCnt := s.unrecoveredCnt + 1 } else s
        let (base, n) := s.recRing c.part
        let s := if c.recIndex = 0xFFFFFFFF ∨ n = 0 then s
          else s.cpWrite c (base + 256 * (c.recIndex.toNat % n)) (c.record c.recIndex now)
        .next (s.traceCmd c 0 2 c.status)
    else .next s

/-! ## Replies (R270, R274, R275) -/

/-- A queue. -/
def State.queue (s : State) (port qi : Nat) : Queue := mget Queue.reset s.host.queues (port * 2048 + qi)

/-- Set a queue. -/
def State.setQueue (s : State) (port qi : Nat) (q : Queue) : State :=
  { s with host := { s.host with queues := mset Queue.reset s.host.queues (port * 2048 + qi) q } }

/-- Entries of a queue: SIZE_M1 + 1, SIZE_M1 0 acting as 1 (R267). -/
def Queue.size (q : Queue) : Nat := max 1 q.sizeM1 + 1

/-- The command processor of a queue as it reads an entry of a ring in device memory (R232, R266). -/
def State.ringEng (s : State) (port qi : Nat) : Eng :=
  ⟨noSite, 71, (s.part.grade.hostPort port).1 * 4 + qi % 4, noCid + 1 + port * 2048 + qi, 0, if qi < 1024 then qi / 64 else 0, [], 0, 0, 0, 0⟩

/-- No read of an entry of a queue is awaited any more. -/
def State.endRead (s : State) (port qi : Nat) : State :=
  let e := s.ringEng port qi
  let s := s.used e
  let s := { s with net := { s.net with reqs := s.net.reqs.map (fun r => if e.owns r then { r with cid := noCid } else r) } }
  if (s.port port).reads.contains qi then s.setPort port { s.port port with reads := (s.port port).reads.filter (fun i => i != qi) } else s

/-- A queue stops on an error (R267, R426 type 7). -/
def State.stopQueue (s : State) (port qi code : Nat) : State :=
  let s := (s.endRead port qi).setQueue port qi { s.queue port qi with en := false, qerr := true, qerrCode := code }
  let pay := toBytes 4 qi ++ toBytes 4 code
  let t := (s.part.grade.hostPort port).1
  if qi < 1024 then s.tracePart t (qi / 64) 6 7 0xFFF pay else s.traceAdmin t 6 7 0xFFF pay

/-- The 32 bytes of a detail entry (R275). -/
def Detail.bytes (d : Detail) (result : Nat) : List Byte :=
  toBytes 4 (d.kind + d.code * 256 + d.site % 4096 * 65536) ++ toBytes 4 (d.group % 64 + d.block % 16 * 64 + d.lane % 32 * 1024) ++
  toBytes 4 d.index ++ toBytes 4 (d.port + d.trap * 256) ++ toBytes 8 d.time ++ toBytes 8 result

/-- Whether a command's detail entry holds a RESULT and nothing else (R275 KIND 6, R276): the opcodes that have one, where they
end with SUCCESS or SELFTEST_FAIL. -/
def Cmd.resultOnly (c : Cmd) : Bool :=
  c.detail.isNone && [0x10, 0x30, 0x3A, 0x48].contains c.opcode && (decide (c.status = 0) || decide (c.status = 0x3A))

/-- The 16 bytes of a reply (R274). -/
def Cmd.reply (c : Cmd) (phase : Bool) : List Byte :=
  toBytes 4 (c.seqNo + c.status * 65536 + (if c.recovered && decide (c.status = 0) then 2 ^ 24 else 0) +
    (if c.poisoned && decide (c.status = 0) then 2 ^ 25 else 0) + (if c.detail.isSome || c.resultOnly then 2 ^ 26 else 0) +
    (if phase then 2 ^ 31 else 0)) ++ toBytes 4 c.recIndex.toNat ++ toBytes 8 c.bounded

/-- Write to a ring of a queue: device memory, or the memory of the port's host. -/
def State.ringWrite (s : State) (c : Cmd) (dev : Bool) (a : Nat) (bs : List Byte) : State :=
  if dev then s.cpWrite c a bs else s.hostWrite c.port a bs

/-- The detail entry of a command's reply, where it has one (R275). -/
def Cmd.replyDetail (c : Cmd) (s : State) : Option Detail :=
  match c.detail with
  | some d => some d
  | none => if !c.resultOnly then none else some { Detail.plain s (s.cpStack c) 6 0 with time := c.bounded }

/-- Write a command's detail entry for slot j. -/
def State.writeDetail (s : State) (c : Cmd) (j : Nat) : State :=
  let q := s.queue c.port c.queue
  match c.replyDetail s with
  | some d => s.ringWrite c q.detailDev (q.detailBase + 32 * j) (d.bytes c.result)
  | none => s

/-- Write a command's 16 bytes of reply (R270): dwords 1 to 3, dword 0. -/
def State.writeSlot (s : State) (c : Cmd) : State :=
  let q := s.queue c.port c.queue
  s.ringWrite c q.cqDev (q.cqBase + 16 * q.cqTail) (c.reply q.phase)

/-- A reply is written: CQ_TAIL and PHASE move on, the interrupt follows (R270). -/
def State.slotDone (s : State) (c : Cmd) : State :=
  let q := s.queue c.port c.queue
  let j := q.cqTail
  let q' := { q with
    cqTail := (j + 1) % q.size, phase := if j + 1 = q.size then !q.phase else q.phase, inflight := q.inflight - 1 }
  let s := (s.setQueue c.port c.queue q').bump64 (.cnt 0) 0x118 1
  let s := if c.recovered ∧ c.status = 0 then { s with recoveredCnt := s.recoveredCnt + 1 } else s
  if q.intEach || c.flag 11 then s.raiseIrq c.port q.vector else s

/-- A command that has replied is gone, and what it has read and not used. -/
def State.dropCmd (s : State) (cid : Nat) : State :=
  { s with
    cmds := s.cmds.filter (fun x => x.cid != cid)
    net := { s.net with reqs := s.net.reqs.filterMap (fun r => if 64 < r.slot ∧ r.cid = cid ∧ r.state = .ready then r.over else some r) } }

/-- Whether part of a command's reply goes to host memory: its slot, or its detail entry where it has one (R265, R270). -/
def State.replyToHost (s : State) (c : Cmd) : Bool :=
  let q := s.queue c.port c.queue
  !q.cqDev || (!q.detailDev && (c.replyDetail s).isSome)

/-- The slot of a command's reply: the queue's next, behind its replies that are held already for want of D0 (R265). -/
def State.replySlot (s : State) (c : Cmd) : Nat :=
  let q := s.queue c.port c.queue
  let n := if q.cqDev then 0
    else (s.port c.port).held.countP (fun x => x.2.isNone &&
      (match s.cmd? x.1 with | some d => d.queue == c.queue | none => false))
  (q.cqTail + n) % q.size

/-- The first part of a reply (R265, R270): its detail entry, unless it is bound for a host in D3hot, then its slot where the ring lies in device
memory. -/
def State.replyBegin (s : State) (c : Cmd) (j : Nat) : State :=
  let q := s.queue c.port c.queue
  let s := if q.detailDev || !(s.port c.port).d3hot then s.writeDetail c j else s
  let s := if q.cqDev then s.writeSlot c else s
  s.modCmd c.cid (fun d => { d with replyAt := some j })

/-- A reply in D3hot (R265): what lies in host memory is held in the port; the slot that lies in device memory is written. -/
def State.holdReply (s : State) (c : Cmd) (j : Nat) : State :=
  let hold (t : State) (x : Option Nat) : State :=
    let p := t.port c.port
    (t.setPort c.port { p with held := p.held ++ [(c.cid, x)] }).setCmd { c with phase := .replied, replyAt := none }
  if (s.queue c.port c.queue).cqDev then hold (s.slotDone c) (some j) else hold s none

/-- Whether a command's reply is written and only its detail entry held in the port (R265). -/
def State.replyWritten (s : State) (c : Cmd) : Bool := (s.port c.port).held.any (fun x => x.1 == c.cid && x.2.isSome)

/-- A held reply or detail entry is written on the return to D0 (R265, R270). -/
def State.writeHeld (s : State) (x : Nat × Option Nat) : State :=
  match s.cmd? x.1 with
  | none => s
  | some c =>
    match x.2 with
    | some j => (s.writeDetail c j).dropCmd c.cid
    | none =>
      let q := s.queue c.port c.queue
      (((if q.detailDev then s else s.writeDetail c q.cqTail).writeSlot c).slotDone c).dropCmd c.cid

/-- The end of a reply, once what lies in device memory is performed (R265, R270). -/
def State.replyEnd (s : State) (c : Cmd) (j : Nat) : State :=
  if (s.port c.port).d3hot && s.replyToHost c then s.holdReply c j
  else ((if (s.queue c.port c.queue).cqDev then s else s.writeSlot c).slotDone c).dropCmd c.cid

/-- STATUS_REPLY (R265, R270, R285): the record of the command is performed first, then what of the reply lies in device memory, and with that
the reply is complete; the replies of a queue are written one by one. In D3hot what is bound for host memory is held in the port; a failed write
stops the queue, and its command is gone while INFLIGHT goes on counting it (DESIGN CHOICE, log entry 146). A command whose partition is being
reset gets no reply. -/
def execStatusReply (cid : Nat) (writeFails : Bool) (s : State) : Out :=
  match s.cmd? cid with
  | none => .next s
  | some c =>
    if c.phase ≠ .bounded ∨ s.engBusy (s.cmdEng c) = true then .next s
    else if !c.admin && ((mfind s.parts c.part).map (·.resetting)).getD false then .next s
    else if s.cmds.any (fun d => d.cid != cid && d.port == c.port && d.queue == c.queue && d.replyAt.isSome) then .next s
    else
      let p := s.port c.port
      if !p.d3hot && !s.linkUp c.port && !writeFails && s.replyToHost c then .next s
      else if writeFails && !(p.d3hot && s.replyToHost c) then .next ((s.dropCmd cid).stopQueue c.port c.queue 3)
      else
        match c.replyAt with
        | some j => .next (s.replyEnd c j)
        | none =>
          let j := s.replySlot c
          let t := s.replyBegin c j
          .next (if t.engBusy (t.cmdEng c) then t else t.replyEnd { c with replyAt := some j } j)

/-- MSI_X_INTERRUPT (R24, R262, R265): the oldest interrupt of a port is sent, or pends while its vector is masked; in D3hot it is held. -/
def execMsiXInterrupt (port : Nat) (s : State) : Out :=
  if 4 ≤ port then .next s
  else
    let p := s.port port
    match p.irqs with
    | [] => .next s
    | v :: vs =>
      if !s.linkUp port || p.d3hot then .next s
      else if !s.host.msixUnmasked.contains (port * 2048 + v) then
        let s := s.setPort port { p with irqs := vs }
        .next { s with host := { s.host with msixPending := insNat s.host.msixPending (port * 2048 + v) } }
      else .next (s.setPort port { p with irqs := vs, sent := p.sent ++ [v] })

end Sys2Proof.Machine
end

