-- ==== Sys2Proof/Machine/Slice.lean ====
section
/-! DEFINITION. Slices: what reaches a home slice or a window (R132, R146, R148, R152, R160 to R163, R185, R207, R388), fills and write-backs
(R146, R161), and the interface that serves them (R206, R208, R209, R307 to R312, R319, R321). -/

namespace Sys2Proof.Machine

/-! ## Requests at a slice -/

/-- The half and the slice of the place of a request. -/
def State.placeOf (s : State) (a : Nat) : Nat × Nat :=
  let i := s.placeSite a
  (siteHalf i, siteSlice i)

/-- Whether a target has a free performed-write record (R248, R252). -/
def State.recordFree (s : State) (site : Nat) : Bool :=
  decide ((s.net.records.filter (fun x => x.1 == site)).length < 1024)

/-- Whether a half's miss entries and its device's queue have room for a fetch of the line at an address (R146, R252). -/
def State.missRoom (s : State) (a : Nat) : Bool :=
  let x := s.half (s.devOf a)
  let d := s.mif (s.devOf a)
  x.misses.any (fun m => m.line == a / 256 && !m.fetched) ||
    (decide (x.misses.length < 8192 || x.misses.any (fun m => m.line == a / 256)) && decide (d.waitingReads.length + d.waitingWrites.length < 1024))

/-- The bytes that a request reads at its home: the whole line of the L1 where it fills one (R131, R451). -/
def Req.span (r : Req) : Nat × Nat := if r.fillL1 then (r.addr / 128 * 128, 128) else (r.addr, r.size)

/-- Whether a request could be served at its place now: it has arrived, earlier ones to its bytes are performed (R131, R132,
R186), and at a slice the half is awake, the slice does not stall (R145, R333), and a host's access to a window does not wait for the reset of
its partition (R290). -/
def State.couldServe (s : State) (r : Req) : Bool :=
  let (h, sl) := s.placeOf r.addr
  let frozen := r.slot == 72 && decide (winBase ≤ r.addr) && ((mfind s.parts r.part).map (·.resetting)).getD false
  r.state == .arrived && !r.isOrder && !s.mustWait r && (decide (lmemBase ≤ r.addr) || (!(s.half h).retained && !(s.half h).shut sl && !frozen))

/-- Whether nothing that R252 limits keeps a request from going on at its slice. -/
def State.roomFor (s : State) (r : Req) : Bool :=
  (r.kind == .read || r.slot == 77 || s.recordFree (s.placeSite r.addr)) &&
    (decide (s.extEnd ≤ r.addr) ||
     (match s.lookup r.span.1 r.span.2 (r.kind == .write) with
      | .hit => true
      | .buffer issued => r.kind == .read || !issued || s.missRoom r.addr
      | .miss need => decide (need = 0) || s.missRoom r.addr))

/-- The side of a vertical port by which a request comes: 1 the core above, 2 the router (R148). -/
def State.sideOf (s : State) (r : Req) : Nat := if s.placeSite r.addr = r.site then 1 else 2

/-- Whether it is a request's turn at its slice's port (R148): class 0 first, then the sides in turn while both wait. -/
def State.turn (s : State) (r : Req) : Bool :=
  r.cls == 0 || decide (lmemBase ≤ r.addr) ||
    (let (h, sl) := s.placeOf r.addr
     let rivals := s.net.reqs.filter (fun q => q.rid != r.rid && q.atSlice && s.placeOf q.addr == (h, sl) && s.couldServe q && s.roomFor q)
     rivals.all (fun q => q.cls != 0) &&
       !(mget 0 (s.half h).sideLast sl == s.sideOf r && rivals.any (fun q => s.sideOf q != s.sideOf r)))

/-- Whether a request may be served at its slice now. -/
def State.serves (s : State) (r : Req) : Bool := s.couldServe r && s.turn r

/-- A request has been served by its side of the port. -/
def State.served (s : State) (r : Req) : State :=
  if r.cls = 0 ∨ lmemBase ≤ r.addr then s
  else
    let (h, sl) := s.placeOf r.addr
    s.modHalf h (fun x => { x with sideLast := mput x.sideLast sl (s.sideOf r) })

/-- Where an access comes from, for the log: the core above the slice or its router, an operation at the slice, a transpose engine (R226). -/
def State.accessSource (s : State) (r : Req) : Nat :=
  match r.kind with
  | .atomic _ => 4
  | .reduce _ => 4
  | _ => if r.slot = 71 ∧ 64 ≤ r.lane then 5 else if s.placeSite r.addr = r.site then 0 else 1

/-- The faults that a request meets: those in the words that it reads; a write reads those that it covers in part (R202, R207). -/
def Req.finds (r : Req) (errs : List (Nat × CacheErr)) : List (Nat × CacheErr) :=
  (errsIn errs (r.span.1 / 32 * 32) (cdiv (r.span.1 + r.span.2) 32 * 32 - r.span.1 / 32 * 32)).filter (fun e =>
    r.kind != .write || decide (e.1 / 32 * 32 < r.addr) || decide (r.addr + r.size < e.1 / 32 * 32 + 32))

/-- A request's access passes the slice's port, and the reads of stored poison count word by word (R148, R204, R222). -/
def State.passed (s : State) (r : Req) (stored : Nat) : State :=
  if lmemBase ≤ r.addr then s
  else
    let (h, _) := s.placeOf r.addr
    ((s.carried r.addr r.span.2).modHalf h (fun x => { x with lastUse := s.time.now })).bump (.sc h) 0x188 stored

/-- Perform a request at its place, with what it finds in error (R203, R204): a read finds the words so and leaves them as they stand. -/
def State.performAt (s : State) (r : Req) (errs : List (Nat × CacheErr)) : State :=
  let es := r.finds errs
  let stored := if r.kind = .write then 0 else s.storedPoison r.span.1 r.span.2 es
  let s := (s.reports es (s.accessSource r)).passed r stored
  let t := (s.asFound es).perform r
  let t := if r.kind = .read then { t with mem := s.mem, poison := s.poison } else t
  (if r.slot = 77 then t.dropReq r.rid else t).settle r.cid

/-- A request waits in a miss entry for sectors of its line (R146); `fetch` is false while a write-back of the line is
issued (R161). The limits of R252 stall it. Requests that merge follow the allocation policy of the class that came first (DESIGN CHOICE, log
entry 132); the debug port's allocate nothing (R432). -/
def State.addMiss (s : State) (r : Req) (need : BitVec 4) (fetch : Bool) : State :=
  let h := s.devOf r.addr
  let x := s.half h
  let line := r.addr / 256
  let d := s.mif h
  let go (t : State) : State := (t.unstall (.request r.rid)).setReq { r with state := .missing }
  match x.misses.find? (fun m => m.line == line) with
  | some m =>
    let again := m.fetched && decide (need &&& ~~~ m.sectors ≠ 0)
    if again && decide (1024 ≤ d.waitingReads.length + d.waitingWrites.length) then s.stall (.request r.rid) (.device h)
    else
    let m' := { m with
      sectors := m.sectors ||| need, got := if again then m.sectors else m.got, fetched := m.fetched && !again
      waiting := m.waiting ++ [r.rid] }
    let s := s.setHalf h { x with misses := x.misses.map (fun y => if y.line = line then m' else y) }
    go (if again then s.setMif h { d with waitingReads := d.waitingReads ++ [line] } else s)
  | none =>
    if 8192 ≤ x.misses.length then s.stall (.request r.rid) (.misses h)
    else if 1024 ≤ d.waitingReads.length + d.waitingWrites.length then s.stall (.request r.rid) (.device h)
    else
      let s := s.setHalf h { x with
        misses := x.misses ++ [⟨line, need, 0, false, [r.rid], if r.slot = 75 then 3 else s.policy h r.cls, r.part⟩] }
      go (if fetch then s.setMif h { d with waitingReads := d.waitingReads ++ [line] } else s)

/-- Whether an error lies in a tag or in line state (R205). -/
def inTag (e : CacheErr) : Bool := e == .tagCorrected || e == .tagLost

/-- A write that covers every sector it touches, to a line that the cache does not hold: it takes a way, or waits for one; the debug port's
takes none (R146, R147, R432). -/
def State.writeWhole (s : State) (r : Req) (errs : List (Nat × CacheErr)) : State :=
  let h := s.devOf r.addr
  let m := sectorMask r.addr r.size
  if r.slot = 75 then (s.countAccess r.addr r.cls false).performAt r errs
  else
    match s.fillLine r.addr r.part (fillRrv (s.policy h r.cls)) m m with
    | none => s.stall (.request r.rid) (.misses h)
    | some t => (t.countAccess r.addr r.cls false).performAt r errs

/-- A request to external memory at its home slice (R146, R152, R160, R161). -/
def State.atHome (s : State) (r : Req) (errs : List (Nat × CacheErr)) : State :=
  let write := r.kind != .read
  let reds := match r.kind with | .reduce op => (r.terms op).length | _ => 0
  let h := s.devOf r.addr
  match s.lookup r.span.1 r.span.2 (r.kind == .write) with
  | .hit => ((s.countAccess r.addr r.cls true).hitLine r.addr (if write then sectorMask r.addr r.size else 0)).performAt r errs
  | .buffer issued =>
    if !write then (s.countAccess r.addr r.cls true).performAt r errs
    else if issued then
      let t := s.addMiss r (sectorMask r.addr r.size) false
      if (t.req? r.rid).map (·.state) = some .missing then (t.countAccess r.addr r.cls false).bump (.sc h) 0x148 reds else t
    else (((s.countAccess r.addr r.cls true).mergeVictim r.addr r.size).bump (.sc h) 0x144 reds).performAt r errs
  | .miss need =>
    if need = 0 ∧ (s.half h).misses.all (fun m => m.line != r.addr / 256) = true then s.writeWhole r errs
    else
      let t := s.addMiss r need true
      if (t.req? r.rid).map (·.state) = some .missing then t.countAccess r.addr r.cls false else t

/-- A request homed in a lost half (R388): a read returns stored poison, anything else is refused under R184. -/
def State.atLost (s : State) (r : Req) : State :=
  let n := if r.fillL1 then 128 else if 64 < r.slot then r.size else 0
  match r.kind with
  | .read => ((s.respond r).setReq { r with
      state := .performed, rpois := true, line := List.replicate n 0, lpois := List.replicate 9 true }).settle r.cid
  | _ => (s.refuseReq r).settle r.cid

/-- Whether packets for a core are sunk: its partition is being reset (R285). -/
def State.coreResets (s : State) (site : Nat) : Bool :=
  ((s.corePart site).bind (fun p => (mfind s.parts p).map (·.resetting))).getD false

/-- A request reaches its place: an external line, a window, a core's local memory (R146, R148, R185, R285). An error of a tag is found
whether the line is there or not (R205). -/
def State.reachPlace (s : State) (r : Req) (errs : List (Nat × CacheErr)) : State :=
  let (h, _) := s.placeOf r.addr
  if !s.serves r then s
  else if lmemBase ≤ r.addr ∧ s.coreResets (s.placeSite r.addr) = true then s.refuseReq r
  else if r.kind != .read && decide (r.slot ≠ 77) && !s.recordFree (s.placeSite r.addr) then
    s.stall (.request r.rid) (.records (s.placeSite r.addr))
  else
    let s := (s.served r).unstall (.request r.rid)
    let s := ((errsIn errs (r.addr / 256 * 256) 256).filter (fun e => inTag e.2)).foldl (fun t e => t.sliceErr e.1 e.2 2) s
    let errs := errs.filter (fun e => !inTag e.2)
    if r.addr < lmemBase ∧ (s.half h).lost = true then s.atLost r
    else if r.addr < s.extEnd then s.atHome r errs
    else s.performAt r errs

/-- A row that serves requests of one kind. -/
def runSlice (s : State) (rid : Nat) (ok : ReqKind → Bool) (body : Req → State) : Out :=
  match s.req? rid with
  | none => .next s
  | some r => .next (if ok r.kind && r.remote.isNone then body r else s)

/-- SLICE_READ (R146, R152, R185). -/
def execSliceRead (rid : Nat) (errs : List (Nat × CacheErr)) (s : State) : Out :=
  runSlice s rid (fun k => match k with | .read => true | _ => false) (fun r => s.reachPlace r errs)

/-- SLICE_WRITE (R146, R152, R185). -/
def execSliceWrite (rid : Nat) (errs : List (Nat × CacheErr)) (s : State) : Out :=
  runSlice s rid (fun k => match k with | .write => true | _ => false) (fun r => s.reachPlace r errs)

/-- SLICE_ATOMIC (R132, R185, R189). -/
def execSliceAtomic (rid : Nat) (errs : List (Nat × CacheErr)) (s : State) : Out :=
  runSlice s rid (fun k => match k with | .atomic _ => true | _ => false) (fun r => s.reachPlace r errs)

/-! ## Ordered reductions (R162, R163) -/

/-- A request whose effect is discarded: it counts as performed (R162, R163). -/
def State.discard (s : State) (r : Req) : State := ((s.respond r).setReq { r with state := .performed }).settle r.cid

/-- The reductions of a request of an ordered command are staged under their keys; a full store ends the command (R163), which is counted once
for it, with a detail entry of KIND 6 (DESIGN CHOICE, log entry 147). -/
def State.stage (s : State) (r : Req) (op : Nat) (key : Nat × Nat × Nat) : State :=
  let (h, _) := s.placeOf r.addr
  let xs : List Staged := (r.terms op).map (fun x =>
    ⟨r.cls, r.cid, key.1, key.2.1, key.2.2 + x.1, op, x.2.1, BitVec.ofNat 32 x.2.2.1, x.2.2.2⟩)
  if 65536 < (s.half h).staged.length + xs.length then
    let t := (s.discard r).endCmd r.cid 0x13 (Detail.plain s (h / 2) 6 0)
    let full (u : State) : Bool := ((u.cmd? r.cid).map (·.status)) == some 0x13
    if full t && !full s then t.bump (.sc h) 0x158 1 else t
  else
    let s := (s.modHalf h (fun y => { y with staged := y.staged ++ xs })).oredSync h
    let s := { s with net := { s.net with records := s.net.records ++ [(s.placeSite r.addr, r.rid)] } }
    (s.discard r).moves r

/-- SLICE_REDUCTION (R160, R162, R163): applied at its place, or staged where its command is ordered. One whose ordered command is gone, or
ended with ORDERED_OVERFLOW, is discarded. -/
def execSliceReduction (rid : Nat) (errs : List (Nat × CacheErr)) (s : State) : Out :=
  runSlice s rid (fun k => match k with | .reduce _ => true | _ => false) (fun r =>
    match r.kind, r.red with
    | .reduce op, some key =>
      if !s.serves r then s
      else if !s.recordFree (s.placeSite r.addr) then s.stall (.request r.rid) (.records (s.placeSite r.addr))
      else
        let s := (s.served r).unstall (.request r.rid)
        if (s.half (s.placeOf r.addr).1).lost then s.atLost r
        else
          match s.cmd? r.cid with
          | none => s.discard r
          | some c => if c.status = 0x13 then s.discard r else s.stage r op key
    | _, _ => s.reachPlace r errs)

/-- Whether one staged contribution comes before another: increasing key order (R162). -/
def Staged.before (x y : Staged) : Bool :=
  decide (x.lin < y.lin) || (decide (x.lin = y.lin) && (decide (x.thread < y.thread) ||
    (decide (x.thread = y.thread) && decide (x.n ≤ y.n))))

/-- A contribution put in its place by key. -/
def insStaged (x : Staged) : List Staged → List Staged
  | [] => [x]
  | y :: ys => if x.before y then x :: y :: ys else y :: insStaged x ys

/-- The request by which a half applies a staged contribution at its place (R160, R162, R242). -/
def State.stagedReq (s : State) (half : Nat) (x : Staged) : Req :=
  { rid := 0, cid := x.cid, lin := x.lin, site := s.placeSite x.addr, slot := 77, lane := half, serial := 0
    index := 0, kind := .reduce x.op, space := 2, ea := x.addr, addr := x.addr, size := reduceSize x.op, data := x.val.setWidth 128, cmp := 0
    pois := x.pois, dest := none, uni := false, sx := false, fillL1 := false, cls := x.cls
    part := ((s.cmd? x.cid).map (·.part)).getD 0, sentAt := s.time.now, attempt := 0, state := .arrived, result := 0, rpois := false
    remote := none, heldOnce := false, dropFill := false, red := none, line := [], lpois := [], refused := false, tag := 5 }

/-- ORDERED_REDUCTION_APPLY (R162): at the end boundary a half applies the command's contributions in key order, each at its place. -/
def execOrderedReductionApply (cid half : Nat) (s : State) : Out :=
  if s.devices ≤ half then .next s
  else
    match s.cmd? cid with
    | none => .next s
    | some c =>
      let mine := ((s.half half).staged.filter (fun x => x.cid == cid)).foldl (fun l x => insStaged x l) []
      if c.isEnding && !s.accessing cid none then
        let s := s.modHalf half (fun y => { y with staged := y.staged.filter (fun x => x.cid != cid) })
        .next ((mine.foldl (fun t x => t.enter (t.stagedReq half x)) s).oredSync half)
      else .next s

/-! ## Fills and write-backs -/

/-- Perform a request that waited for its sector, with what it finds in error. -/
def State.performWaiting (s : State) (rid : Nat) (cached : Bool) (errs : List (Nat × CacheErr)) : State :=
  match s.req? rid with
  | none => s
  | some r =>
    let d : BitVec 4 := if r.kind = .read then 0 else sectorMask r.addr r.size
    (if cached then s.dirtyLine r.addr d else s).performAt r errs

/-- The requests of a miss entry are performed in order. -/
def State.performAll (s : State) (rids : List Nat) (cached : Bool) (errs : List (Nat × CacheErr)) : State :=
  rids.foldl (fun t i => t.performWaiting i cached errs) s

/-- Who stalls for a way for a miss entry: the first request that waits in it, or a PIN's line. -/
def Miss.staller (m : Miss) (h : Nat) : Staller := match m.waiting with | i :: _ => .request i | [] => .line h m.line

/-- SECTOR_FILL (R146, R147, R150, R432): the fetched sectors enter the line, or pass by it under policy 2 or for the debug port, and the
requests that waited are performed in order. With no candidate way the miss waits, and the cycles count. -/
def execSectorFill (half line : Nat) (errs : List (Nat × CacheErr)) (s : State) : Out :=
  if s.devices ≤ half then .next s
  else
    match (s.half half).misses.find? (fun m => m.line == line && m.fetched) with
    | none => .next s
    | some m =>
      let reads := m.waiting.all (fun i => ((s.req? i).map (fun r => r.kind == .read || r.slot == 75)).getD true)
      let s0 := s.modHalf half (fun x => { x with misses := x.misses.filter (fun y => y.line != line) })
      if decide (2 ≤ m.policy) && reads then .next (s0.performAll m.waiting false [])
      else
        match s0.fillLine (line * 256) m.part (fillRrv m.policy) m.sectors 0 with
        | none => .next (s.stall (m.staller half) (.misses half))
        | some t =>
          let es := errsIn errs (line * 256) 256
          let t := (es.filter (fun e => inTag e.2)).foldl (fun t e => t.sliceErr e.1 e.2 2) t
          .next ((t.unstall (m.staller half)).performAll m.waiting true (es.filter (fun e => !inTag e.2)))

/-- The words marked as poison in sectors of a line. -/
def State.poisonIn (s : State) (line : Nat) (sec : BitVec 4) : Nat :=
  ((upTo 0 4).map (fun i => if sec.getLsbD i then s.poisonWords (line * 256 + 64 * i) 64 else 0)).sum

/-- WRITE_BACK_ISSUE (R161, R225, R252, R312): the interface accepts a held victim; words of it that read uncorrectable leave as stored
poison, and those read as stored poison are counted (R204). -/
def execWriteBackIssue (half line : Nat) (errs : List (Nat × CacheErr)) (s : State) : Out :=
  if s.devices ≤ half then .next s
  else
    match (s.half half).victim line with
    | none => .next s
    | some v =>
      let d := s.mif half
      if v.issued || s.rgB (.mif half) 0x000 7 || s.rgB (.mif half) 0x000 8 then .next s
      else if 1024 ≤ d.waitingReads.length + d.waitingWrites.length then .next (s.stall (.line half line) (.device half))
      else
        let s := (errs.filter (fun e => e.1 / 256 == line)).foldl (fun t e => t.sliceErr e.1 e.2 2) (s.unstall (.line half line))
        let s := s.modHalf half (fun x => { x with wb := x.wb.map (fun y => if y.line = line then { y with issued := true } else y) })
        let s := s.bump (.sc half) 0x188 (s.poisonIn line v.dirty)
        let n := d.waitingWrites.length + 1
        .next (s.setMif half { s.mif half with waitingWrites := d.waitingWrites ++ [line], draining := d.draining || decide (512 ≤ n) })

/-- WRITE_BACK_PERFORMED (R161, R177): the victim leaves the buffer; accesses that waited for it refetch the line, once the device has a place
(R252). -/
def execWriteBackPerformed (half line : Nat) (s : State) : Out :=
  if s.devices ≤ half then .next s
  else
    match (s.half half).victim line with
    | none => .next s
    | some v =>
      let d := s.mif half
      let again := (s.half half).misses.any (fun m => m.line == line && !m.fetched)
      if !v.issued || d.waitingWrites.contains line then .next s
      else if again && decide (1024 ≤ d.waitingReads.length + d.waitingWrites.length) then .next (s.stall (.line half line) (.device half))
      else
        let s := s.unstall (.line half line)
        let s := s.modHalf half (fun x => { x with wb := x.wb.filter (fun y => y.line != line) })
        let s := s.bump64 (.sc half) 0x168 (64 * sectorCount v.dirty)
        .next (if again then
          s.setMif half { d with waitingReads := d.waitingReads ++ [line] } else s)

/-! ## The memory interface -/

/-- Whether a device keeps a line among its spare lines (R217). -/
def State.lineRemapped (s : State) (dev line : Nat) : Bool :=
  (upTo 0 8).any (fun j => s.rgB (.mif dev) (0x2300 + 8 * j) 0 && s.rgF (.mif dev) (0x2304 + 8 * j) 28 0 == line)

/-- What the cache holds of a line, in its set or in the write-back buffer: valid and dirty sectors. -/
def State.cached (s : State) (a : Nat) : BitVec 4 × BitVec 4 :=
  let (h, sl, set) := s.home a
  let held := (((s.half h).victim (a / 256)).map (·.dirty)).getD 0
  match (s.half h).find (setKey sl set) (a / 256) with
  | some (_, l) => (l.valid ||| held, l.dirty ||| held)
  | none => (held, held)

/-- The device writes stored poison to the sectors of a line: what no cache line holds valid reads as poison, what one holds clean does so
once the line has left (R206, R209). -/
def State.poisonDevice (s : State) (a : Nat) (which : BitVec 4) : State :=
  let dev := s.devOf a
  let (valid, dirty) := s.cached a
  (upTo 0 4).foldl (fun t i =>
    let b := a / 256 * 256 + 64 * i
    if !which.getLsbD i || dirty.getLsbD i then t
    else if valid.getLsbD i then
      let d := t.mif dev
      t.setMif dev { d with hidden := insNat (insNat d.hidden (b / 32)) (b / 32 + 1) }
    else t.poisonAll b 64) s

/-- Whether the device holds the word at an address as stored poison. -/
def State.devicePoison (s : State) (a : Nat) : Bool :=
  if (s.cached a).1.getLsbD (a / 64 % 4) then (s.mif (s.devOf a)).hidden.contains (a / 32) else s.poisoned a 32

/-- A die is erased (R319, R320, R393). -/
def State.eraseDie (s : State) (dev die : Nat) : State :=
  let s := (s.wgB (.mif dev) 0x000 10 true).wgF (.mif dev) 0x000 15 11 die
  let s := s.modHealth (fun h => { h with erasedDies := mput h.erasedDies dev die })
  s.healthEntry (dev / 2) 10 0xFFF die

/-- The times of a list that lie within the past n ticks, with the present one. -/
def State.recent (s : State) (n : Nat) (ts : List Nat) : List Nat := ts.filter (fun t => decide (s.time.now < t + n)) ++ [s.time.now]

/-- A correction of a die: THR of them within 1 s erase it (R319). -/
def State.dieCorrected (s : State) (dev die : Nat) : State :=
  let d := s.mif dev
  let ts := s.recent 250000000 ((mfind d.dieErr die).getD [])
  let s := s.setMif dev { d with dieErr := mput d.dieErr die ts }
  let thr := s.rgF (.mif dev) 0x00C 7 0
  if decide (thr ≠ 0) && decide (thr ≤ ts.length) && !s.rgB (.mif dev) 0x000 10 then s.eraseDie dev die else s

/-- The 256 regions of a lost bitmap word are written with stored poison and count as initialised (R209). -/
def State.bitmapLost (s : State) (a : Nat) : State :=
  let dev := s.devOf a
  let r0 := s.offOf a / 16777216 * 256
  let d := s.mif dev
  let s := s.setMif dev { d with inited := (upTo r0 256).foldl insNat d.inited }
  let s := (upTo (r0 * 256) 65536).foldl (fun t l => t.poisonDevice (t.addrOf dev (l * 256)) 15) s
  (((s.bump (.mif dev) 0x2404 1).elog (.mif dev) mifLog (mifWord 1 2 31) (BitVec.ofNat 32 (r0 * 2048))).adminEvent 1)

/-- A bitmap word that is corrected is counted and logged with SOURCE 2 (R208, R209, R214). -/
def State.bitmapFixed (s : State) (a : Nat) : State :=
  let dev := s.devOf a
  (s.bump (.mif dev) 0x2400 1).elog (.mif dev) mifLog (mifWord 0 2 31) (BitVec.ofNat 32 (s.offOf a / 16777216 * 524288))

/-- What a beat of a device at offset o finds in error is counted and logged with its own index (R206, R214, R319). -/
def State.beatReport (s : State) (dev o : Nat) (v : BeatVerdict) (src : Nat) : State :=
  let b := Blk.mif dev
  let loc := BitVec.ofNat 32 (o / 32)
  match v with
  | .clean => s
  | .poison => s
  | .die i _ => ((s.bump b 0x2400 1).elog b mifLog (mifWord 0 src i) loc).dieCorrected dev i
  | .address => (((s.bump b 0x2404 1).bump b 0x2408 1).elog b mifLog (mifWord 2 src 31) loc).adminEvent 1
  | .uncorrectable => ((s.bump b 0x2404 1).elog b mifLog (mifWord 1 src 31) loc).adminEvent 1

/-- The burst of a device offset (R307). -/
def burstOf (o : Nat) : Nat := o / 512
/-- The column of a burst in its die row: 64 bursts of 32 bytes per die (R307). -/
def burstCol (burst : Nat) : Nat := burst / 16 % 64
/-- The row of a burst, 0 to 147,455 (R307). -/
def burstRow (burst : Nat) : Nat := burst / 1024
/-- The bank of a burst (R307). -/
def burstBank (burst : Nat) : Nat := xorNat (burst % 16) (burstRow burst % 16)
/-- The bank group of a burst (R307). -/
def burstGroup (burst : Nat) : Nat := burstBank burst % 4

/-- The offset of the other line of the burst of an offset (R307). -/
def pairOffset (o : Nat) : Nat := burstOf o * 512 + (o + 256) % 512

/-- A beat of a read burst with its faults: reported, and what is delivered of it stands as it was found (R206). Beats of regions that are not
initialised are not read, and a remapped line lies elsewhere (R208, R217). A die is decoded as erased where it was so when the burst began
(R322). -/
def State.burstBeat (s : State) (dev base : Nat) (sec : Nat → BitVec 4) (er : Option Nat) (i : Nat) (x : BeatErr) : State :=
  let o := base + 32 * i
  let a := s.addrOf dev o
  if 16 ≤ i ∨ s.isInit a = false ∨ s.lineRemapped dev (o / 256) = true then s
  else
    let p := s.devicePoison a
    let v := beatVerdict er x p
    let t := s.beatReport dev o v 0
    let t := if p = false ∧ v = .poison then t.bump (.mif dev) 0x240C 1 else t
    if (sec (a / 256)).getLsbD (a / 64 % 4) then t.beatTurned er a x else t

/-- What a read burst of 512 bytes from a device offset finds in error (R206, R209). -/
def State.memErr (s : State) (dev base : Nat) (sec : Nat → BitVec 4) (err : MemErr) : State :=
  match err with
  | .clean => s
  | .beats es => es.foldl (fun t e => t.burstBeat dev base sec (s.erased dev) e.1 e.2) s
  | .bitmapCorrected => s.bitmapFixed (s.addrOf dev base)
  | .bitmapLost => s.bitmapLost (s.addrOf dev base)

/-- Whether the interface serves accesses now (R310 to R314, R320). -/
def State.mifRuns (s : State) (dev : Nat) (write : Bool) : Bool :=
  decide (s.rgF (.mif dev) 0x000 1 0 = 2) && !s.rgB (.mif dev) 0x000 8 && !s.rgB (.mif dev) 0x000 9 &&
    !(s.mif dev).retraining && !(write && s.rgB (.mif dev) 0x000 7)

/-- A miss entry's fetch has been served. -/
def State.fetched (s : State) (h line : Nat) : State :=
  s.modHalf h (fun x => { x with misses := x.misses.map (fun m => if m.line = line then { m with fetched := true } else m) })

/-- The sectors that a miss entry has yet to fetch (R146). -/
def Miss.want (m : Miss) : BitVec 4 := m.sectors &&& ~~~ m.got

/-- The dirty sectors of a victim are written to the device: a scrub of the line that is between its read and its write is dropped (R219), and
what the device held poisoned of them is gone. -/
def State.writeLine (s : State) (dev line : Nat) (dirty : BitVec 4) : State :=
  let d := s.mif dev
  let drop := match d.scrubWrite with | some x => decide (x.1 / 8 = s.offOf (line * 256) / 256) | none => false
  let s := s.setMif dev { d with
    hidden := d.hidden.filter (fun w => !(w / 8 == line && dirty.getLsbD (w / 2 % 4))), scrubWrite := if drop then none else d.scrubWrite }
  if drop then s.bump (.mif dev) 0x241C 1 else s

/-- A read burst is served for lines of it that wait (R308): what it finds in error, and their sectors delivered. -/
def State.deliver (s : State) (dev o : Nat) (got : List Nat) (err : MemErr) : State :=
  let sec := fun (l : Nat) => if got.contains l then
    (match (s.half dev).misses.find? (fun m => m.line == l) with | some m => m.want | none => 0) else 0
  let s := s.setMif dev { s.mif dev with waitingReads := (s.mif dev).waitingReads.filter (fun x => !got.contains x) }
  let s := (s.readBurst (s.addrOf dev o) sec got).memErr dev (burstOf o * 512) sec err
  got.foldl (fun t l => t.fetched dev l) s

/-- MIF_ACCESS (R206 to R209, R307 to R309, R312, R319, R321): a read burst serves both its lines that wait; reads go before writes unless
512 writes wait, which then drain to 256, but not while they are held. A first write to a region waits for its zero fill. -/
def execMifAccess (dev line : Nat) (write : Bool) (err : MemErr) (s : State) : Out :=
  if s.devices ≤ dev then .next s
  else
    let d := s.mif dev
    let a := line * 256
    if !s.mifRuns dev write then .next s
    else if write then
      if !d.waitingWrites.contains line || !(d.draining || d.waitingReads.isEmpty) then .next s
      else if err = .bitmapLost then .next (s.bitmapLost a)
      else if s.isInit a then
        let dirty := (((s.half dev).victim line).map (·.dirty)).getD 0
        let n := 64 * sectorCount dirty
        let left := d.waitingWrites.filter (fun x => x != line)
        let s := s.setMif dev { d with waitingWrites := left, draining := d.draining && decide (256 < left.length) }
        let s := if err = .bitmapCorrected then s.bitmapFixed a else s
        .next (((s.writeLine dev line dirty).bump64 (.mif dev) 0x128 n).bump64 (.cnt 0) 0x100 n)
      else .next s
    else if d.waitingReads.contains line && (!d.draining || s.rgB (.mif dev) 0x000 7) then
      let o := s.offOf a
      let s := if err = .bitmapLost then s.bitmapLost a else s
      let got := [line, s.addrOf dev (pairOffset o) / 256].filter (fun l => (s.mif dev).waitingReads.contains l)
      .next (s.deliver dev o got (if err = .bitmapLost then .clean else err))
    else .next s

/-- BITMAP_ZERO_FILL (R208, R312): a first write to a region waits; zeros go to its other 255 lines and its bit is set. -/
def execBitmapZeroFill (dev region : Nat) (s : State) : Out :=
  if s.devices ≤ dev then .next s
  else
    let d := s.mif dev
    if s.mifRuns dev true && !d.inited.contains region &&
        d.waitingWrites.any (fun l => s.offOf (l * 256) / 65536 == region) then
      let s := s.setMif dev { d with inited := insNat d.inited region }
      .next ((s.bump64 (.mif dev) 0x128 65280).bump64 (.cnt 0) 0x100 65280)
    else .next s

end Sys2Proof.Machine
end

