-- ==== Sys2Proof/Machine/Thermal.lean ====
section
/-! DEFINITION. What the sensors cover, throttle, SRAM bands, suspect marks (R360 to R366, R372) and the copies of device time (R357 to R359,
R371). A sensor is named stack × 256 + index; temperatures are in 1/16 °C. -/

namespace Sys2Proof.Machine

/-- The halves of a stack that a sensor covers, 0 west and 1 east (R360, R363): the ring counts toward both. -/
def sensorHalves (i : Nat) : List Nat :=
  if i < 128 then [i / 32 % 2] else if i < 192 then [(i - 128) / 16 % 2] else [0, 1]

/-- The layer of a sensor, 0 to 3 for L0, L1, C0 and C1, and 4 for the ring (R360). -/
def sensorLayer (i : Nat) : Nat := if i < 128 then i / 64 else if i < 192 then 2 + (i - 128) / 32 else 4

/-- The first row of the area of a sensor of a layer (R360). -/
def sensorRow (i : Nat) : Nat := if i < 128 then i / 2 % 16 else 2 * (i / 2 % 8)

/-- The columns of a half that a sensor of a layer covers (R360). -/
def sensorCols (i : Nat) : List Nat := upTo (i % 2 * 4) 4

/-- The regions that a sensor of a logic layer covers, in the numbering of R283 (R360). -/
def sensorRegions (t i : Nat) : List Nat :=
  if i < 128 then upTo (t * 256 + i / 64 * 128 + i / 32 % 2 * 64 + sensorRow i * 4 + i % 2 * 2) 2 else []

/-- The slices of its half that a sensor of a cache layer covers (R144, R360). -/
def sensorSlices (i : Nat) : List Nat :=
  if 128 ≤ i ∧ i < 192 then
    (upTo (sensorRow i) 2).flatMap (fun r => (sensorCols i).map (fun c => (i - 128) / 32 * 128 + r * 8 + c))
  else []

/-- Whether a sensor lies in a cache layer. -/
def cacheSensor (i : Nat) : Bool := decide (128 ≤ i) && decide (i < 192)

/-- Whether a sensor is buried (R365): L0 or C1. -/
def buried (i : Nat) : Bool := decide (i < 64) || (decide (160 ≤ i) && decide (i < 192))

/-- The throttle limit of a sensor in 1/16 °C (R362, R372). -/
def State.sensorLimit (s : State) (t i : Nat) : Int :=
  16 * (if cacheSensor i then (s.rgF (.thm t) 0x004 14 8 : Int) else s.rgF (.thm t) 0x004 7 1)

/-- A bit of THM_SENSORi. -/
def State.sensorB (s : State) (t i b : Nat) : Bool := s.rgB (.thm t) (0x100 + 4 * i) b

/-- Set a THM_EVENT bit: ALERT_N is asserted while it stays set, and EV_THERMAL is raised when it sets (R372, R426). -/
def State.thermEvent (s : State) (t b : Nat) : State :=
  if s.rgB (.thm t) 0x008 b then s
  else
    let s := ((s.wgB (.thm t) 0x008 b true).adminEvent 8)
    let s := { s with pins := { s.pins with alert := true } }
    s.traceAdmin t 5 6 0xFFF (toBytes 4 (2 ^ b))

/-- Keep the time since when a condition has held: the present time when it starts, nothing when it fails. -/
def holdSince (m : Map Nat) (k now : Nat) (c : Bool) : Map Nat :=
  if c then (if (mfind m k).isSome then m else mput m k now) else merase m k

/-- Whether a condition has held for n ticks. -/
def heldFor (m : Map Nat) (k now n : Nat) : Bool := match mfind m k with | some t => decide (t + n ≤ now) | none => false

/-- The value that governs for a sensor (R362, R366): the estimate while it is suspect or failed. -/
def State.governs (s : State) (t i : Nat) (raw est : Int) : Int :=
  if s.sensorB t i 16 || s.sensorB t i 17 then est else raw

/-- A sensor is declared suspect; the third time it is marked failed (R366). -/
def State.declareSuspect (s : State) (t i : Nat) : State :=
  let k := t * 256 + i
  let o := 0x100 + 4 * i
  let n := mget 0 s.health.suspectCount k + 1
  let s := ((s.wgB (.thm t) o 16 true).thermEvent t 1).bump (.thm t) 0x804 1
  let s := s.modHealth (fun h => { h with suspectCount := mput h.suspectCount k n })
  let s := s.modTherm (fun th => { th with clearFrom := merase th.clearFrom k })
  if n = 3 then
    ((s.wgB (.thm t) o 17 true).modHealth (fun h => { h with failedSensors := insNat h.failedSensors k })).healthEntry t 11 0xFFF i
  else s

/-- The suspect rules of one buried sensor (R366). -/
def State.suspectOne (s : State) (t i : Nat) (raw est : Int) : State :=
  let k := t * 256 + i
  let now := s.time.now
  let s := s.modTherm (fun th => { th with suspectFrom := holdSince th.suspectFrom k now (decide (raw < est - 128)) })
  if s.sensorB t i 16 then
    let s := s.modTherm (fun th => { th with clearFrom := holdSince th.clearFrom k now (decide ((raw - est).natAbs ≤ 48)) })
    if heldFor s.therm.clearFrom k now 2500000000 && !s.sensorB t i 17 then
      (s.wgB (.thm t) (0x100 + 4 * i) 16 false).modTherm (fun th => { th with clearFrom := merase th.clearFrom k })
    else s
  else if heldFor s.therm.suspectFrom k now 12500000 then s.declareSuspect t i
  else s

/-- What the band rule of R364 remembers of one cache sensor: since when its readings have stayed 3 °C below 10 °C, 3 °C above 10 °C, and 3 °C
below 70 °C and 95 °C. -/
def State.bandTrack (s : State) (t i : Nat) (v : Int) : State :=
  let k := (t * 256 + i) * 4
  let now := s.time.now
  let m := holdSince s.therm.bandCool k now (decide (v ≤ 112))
  let m := holdSince m (k + 1) now (decide (208 ≤ v))
  let m := holdSince m (k + 2) now (decide (v ≤ 1072))
  let m := holdSince m (k + 3) now (decide (v ≤ 1472))
  { s with therm := { s.therm with bandCool := m } }

/-- The throttle of one half at a sample (R362, R363). -/
def State.throttle (s : State) (t hf : Nat) (vs : List (Nat × Int)) : State :=
  let h := 2 * t + hf
  let now := s.time.now
  let mine := vs.filter (fun x => (sensorHalves x.1).contains hf)
  let hot := mine.any (fun x => decide (s.sensorLimit t x.1 ≤ x.2))
  let cool := mine.all (fun x => decide (x.2 ≤ s.sensorLimit t x.1 - 32))
  let req := mget 16 s.power.thrReq h
  let th := s.therm
  let coolS := holdSince th.coolSince h now cool
  let raise := !hot && heldFor coolS h now 2500000 && decide (req < 16) &&
    (match mfind th.below h with | some x => decide (x + 2500000 ≤ now) | none => true)
  let req' := if hot then max 4 (req - 1) else if raise then req + 1 else req
  let s4 := holdSince th.step4Since h now (hot && decide (req' = 4))
  let s := { s with
    power := { s.power with thrReq := mset 16 s.power.thrReq h req' }
    therm := { th with
      coolSince := coolS, step4Since := s4, below := if raise then mput th.below h now else th.below } }
  let s := s.wgB (.thm t) 0x000 (1 + hf) hot
  let s := if heldFor s4 h now 25000000 then s.thermEvent t 0 else s
  let cache := mine.filter (fun x => cacheSensor x.1)
  let s := if cache.any (fun x => decide (1680 < x.2)) then
      { s.thermEvent t 2 with power := { s.power with hotHold := insNat s.power.hotHold h } }
    else s
  if cache.all (fun x => decide (x.2 ≤ 1600)) then
    { s with power := { s.power with hotHold := delNat s.power.hotHold h } }
  else s

/-- The sampling rate after a sample (R361). -/
def State.sampleRate (s : State) (t : Nat) (vs : List (Nat × Int)) : State :=
  let now := s.time.now
  let near := vs.any (fun x => decide (s.sensorLimit t x.1 - 80 ≤ x.2))
  let far := vs.all (fun x => decide (x.2 < s.sensorLimit t x.1 - 112))
  let s := { s with therm := { s.therm with fastSince := holdSince s.therm.fastSince t now far } }
  if near then
    if s.rgB (.thm t) 0x000 0 then s else (s.wgB (.thm t) 0x000 0 true).bump (.thm t) 0x80C 1
  else if heldFor s.therm.fastSince t now 25000000 then s.wgB (.thm t) 0x000 0 false
  else s

/-- The sample's readings and, while the trip is latched, the stack's count of cool samples (R361, R369). -/
def State.takeSample (s : State) (t : Nat) (raws : List (Nat × Int)) : State :=
  let s := raws.foldl (fun t' x => t'.wgF (.thm t) (0x100 + 4 * x.1) 15 0 (x.2 % 65536).toNat) s
  let cool := s.pins.thermtrip && raws.all (fun x => decide (x.2 < 1200))
  s.modTherm (fun th => { th with
    tripCool := if cool then mput th.tripCool t (mget 0 th.tripCool t + 1) else merase th.tripCool t })

/-- The band of a reading (R362). -/
def bandOf (v : Int) : Nat := if v < 160 then 0 else if v ≤ 1120 then 1 else if v ≤ 1520 then 2 else 3

/-- The band that a cache sensor is due to take (R364): up at once, down only after 10 ms, straight to the highest band whose
lower threshold the readings have not stayed 3 °C below, the cold one where they have so stayed below every threshold. The cold band, which
ends in the other direction, is entered from the normal one at the first reading below 10 °C. -/
def State.bandDue (s : State) (t i : Nat) (v : Int) : Nat :=
  let k := (t * 256 + i) * 4
  let cur := s.rgF (.thm t) (0x100 + 4 * i) 19 18
  let stayed (j : Nat) : Bool := heldFor s.therm.bandCool (k + j) s.time.now 2500000
  if cur < 2 ∧ bandOf v = 0 then 0
  else if cur = 0 then (if 1 < bandOf v then bandOf v else if stayed 1 then 1 else 0)
  else if cur < bandOf v then bandOf v
  else if cur = 3 then (if !stayed 3 then 3 else if !stayed 2 then 2 else if !stayed 0 then 1 else 0)
  else if cur = 2 then (if !stayed 2 then 2 else if !stayed 0 then 1 else 0)
  else cur

/-- A slice applies a band: its requests stall for 64 cycles of its clock, within the stall that it is in already, if any (R364, R370). -/
def State.bandStall (s : State) (h sl : Nat) : State :=
  s.modHalf h (fun x => if x.stalled.contains sl then x else { x with bandLeft := mput x.bandLeft sl 64 })

/-- SRAM_BAND_CHANGE (R364): the band that is due takes effect in the slices that the sensor covers, and is counted. -/
def execSramBandChange (stack sensor band : Nat) (s : State) : Out :=
  if s.stacks ≤ stack then .next s
  else
    let raw := sint 16 (s.rgF (.thm stack) (0x100 + 4 * sensor) 15 0)
    let v := s.governs stack sensor raw (mget 0 s.therm.estimates (stack * 256 + sensor))
    let cur := s.rgF (.thm stack) (0x100 + 4 * sensor) 19 18
    if cacheSensor sensor && s.therm.sampled.contains stack && decide (s.bandDue stack sensor v = band) &&
        decide (band ≠ cur) then
      let s := (s.wgF (.thm stack) (0x100 + 4 * sensor) 19 18 band).bump (.thm stack) 0x808 1
      .next ((sensorSlices sensor).foldl (fun t sl => t.bandStall (2 * stack + sensor / 16 % 2) sl) s)
    else .next s

/-! ## Copies of device time -/

/-- The difference that a stack's copy has after the next tick, if nothing else drifts: a difference closes by one tick (R358). -/
def State.nextDiff (s : State) (t : Nat) : Int :=
  match mfind s.time.drift t with
  | some d => d
  | none => let x := mget 0 s.time.diff t
    if 0 < x then x - 1 else if x < 0 then x + 1 else 0

/-- Whether an aligned copy can be found `found` ticks ahead of the master at the next tick: it was held for that tick or advanced by 2 in it at
most, and no two copies then differ by more than one tick (R358). -/
def State.drifts (s : State) (stack : Nat) (found : Int) : Bool :=
  decide ((found - mget 0 s.time.diff stack).natAbs ≤ 1) &&
    (upTo 0 s.stacks).all (fun t => t == stack || decide ((found - s.nextDiff t).natAbs ≤ 1))

/-- TIME_ALIGN_CHECK (R358): the check finds a stack's copy `found` ticks ahead of the master. Until the copies are aligned a
difference of more than one tick is counted and corrected tick by tick. An aligned copy takes at the next tick what it was found to have
drifted by, so that it never runs backward, and is corrected from then on. -/
def execTimeAlignCheck (stack : Nat) (found : Int) (s : State) : Out :=
  if s.stacks ≤ stack then .next s
  else if s.time.running = false then .next s
  else if stack = 0 then .next (s.wgB (.clk 0) 0x000 2 true)
  else if s.rgB (.clk stack) 0x000 2 = true then
    .next (if s.drifts stack found then { s with time := { s.time with drift := mset 0 s.time.drift stack found } } else s)
  else
    let s := { s with time := { s.time with diff := mset 0 s.time.diff stack found } }
    let s := if 1 < found.natAbs then s.bump (.clk stack) 0x020 1 else s
    .next (s.wgB (.clk stack) 0x000 2 (decide (found.natAbs ≤ 1)))

/-- CLK_TIME_READ (R371): the low word is read, the high word latched for the reading port. -/
def execClkTimeRead (port stack : Nat) (s : State) : Out :=
  if s.stacks ≤ stack ∨ 4 ≤ port then .next s
  else if !s.linkUp port then .next s
  else
    let s := s.hostTx port 4
    let n := s.timeOf stack
    let s := { s with latches := mset 0 s.latches (latchKey port ((Blk.clk stack).base + 0x014)) (BitVec.ofNat 32 (n / 2 ^ 32)) }
    .next (s.setPort port { s.port port with lastRead := toBytes 4 n, lastOk := true, lastPoisoned := false })

end Sys2Proof.Machine
end

