-- ==== Sys2Proof/Machine/Mif.lean ====
section
/-! DEFINITION. Memory interfaces on their own clock: refresh, temperature bands and holds, drift and retrain (R310 to R314,
R320), and retention of a half with its device in self-refresh (R333, R334). -/

namespace Sys2Proof.Machine

/-- Whether an interface is trained (R320: STATE 2). -/
def State.mifReady (s : State) (dev : Nat) : Bool := decide (s.rgF (.mif dev) 0x000 1 0 = 2)

/-- REFRESH (R311): one per-bank refresh; a device in self-refresh refreshes itself (R310). -/
def execRefresh (dev bank : Nat) (s : State) : Out :=
  if s.devices ≤ dev ∨ 16 ≤ bank then .next s
  else if s.mifReady dev && !s.rgB (.mif dev) 0x000 9 then
    let d := s.mif dev
    .next (s.setMif dev { d with refreshes := mput d.refreshes bank (mget 0 d.refreshes bank + 1) })
  else .next s

/-- The highest of a list of temperatures and the lowest die that has it. -/
def hottest : List Int → Int × Nat
  | [] => (0, 0)
  | [t] => (t, 0)
  | t :: ts => let (u, i) := hottest ts; if u ≤ t then (t, 0) else (u, i + 1)

/-- One more consecutive reading at least 2 °C below a threshold, up to ten, or none (R311). -/
def coolCount (n : Nat) (temp thr : Int) : Nat := if temp + 2 ≤ thr then min 10 (n + 1) else 0

/-- The band after a reading, with the counts of cool readings below 95 °C and below 85 °C (R311). -/
def nextBand (cur : Nat) (temp : Int) (cool95 cool85 : Nat) : Nat :=
  let up := if 95 < temp then 2 else if 85 < temp then 1 else 0
  if cur < up then up
  else if cur = 2 then (if cool95 < 10 then 2 else if cool85 < 10 then 1 else 0)
  else if cur = 1 then (if cool85 < 10 then 1 else 0)
  else cur

/-- A hold after a reading (R311). -/
def nextHold (cur : Bool) (temp thr : Int) (cool : Nat) : Bool := decide (thr < temp) || (cur && decide (cool < 10))

/-- MIF_TEMP_READ (R311, R312, R320, R321): the dies' temperatures in °C; a hold that begins raises a thermal event. -/
def execMifTempRead (dev : Nat) (temps : List Int) (s : State) : Out :=
  if s.devices ≤ dev then .next s
  else if !s.mifReady dev then .next s
  else
    let b := Blk.mif dev
    let (t, die) := hottest (temps.take 18)
    let d := s.mif dev
    let c95 := coolCount d.coolBand t 95
    let c85 := coolCount d.coolLow t 85
    let cWr := coolCount d.coolWr t 105
    let cAll := coolCount d.coolAll t 115
    let band := s.rgF b 0x000 6 5
    let band' := nextBand band t c95 c85
    let wr := s.rgB b 0x000 7
    let wr' := nextHold wr t 105 cWr
    let all := s.rgB b 0x000 8
    let all' := nextHold all t 115 cAll
    let s := s.setMif dev { d with coolBand := c95, coolLow := c85, coolWr := cWr, coolAll := cAll }
    let s := (s.wgF b 0x004 15 0 (t * 16 % 65536).toNat).wgF b 0x004 20 16 die
    let s := ((s.wgF b 0x000 6 5 band').wgB b 0x000 7 wr').wgB b 0x000 8 all'
    let s := if band' = band then s else s.bump b 0x110 1
    .next (if (wr' && !wr) || (all' && !all) then s.thermEvent (dev / 2) 3 else s)

/-- WCK2DQ_READ (R314): a drift beyond the trained window starts a retrain. -/
def execWck2dqRead (dev : Nat) (drift : Bool) (s : State) : Out :=
  if s.devices ≤ dev then .next s
  else if drift && s.mifReady dev && !(s.mif dev).retraining then
    .next ((s.setMif dev { s.mif dev with retraining := true }).bump (.mif dev) 0x10C 1)
  else .next s

/-- MIF_RETRAIN_DONE (R314, R322): the retrain leaves settings of its own, and accesses go on. -/
def execMifRetrainDone (dev : Nat) (s : State) : Out :=
  if s.devices ≤ dev then .next s
  else if !(s.mif dev).retraining then .next s
  else .next { s.setMif dev { s.mif dev with retraining := false, settings := s.drawn } with drawn := s.drawn + 1 }

/-! ## Retention (R333) -/

/-- A half enters retention, its device self-refresh (R333, R348, R320). -/
def State.retain (s : State) (h : Nat) : State :=
  let s := s.modHalf h (fun x => { x with retained := true, waking := none, woken := false })
  (s.wgB (.pwr (h / 2)) 0x000 (2 + h % 2) true).wgB (.mif h) 0x000 9 (s.mifReady h)

/-- Whether a request waits at a slice of a half. -/
def State.requestAt (s : State) (h : Nat) : Bool :=
  s.net.reqs.any (fun r => r.state == .arrived && r.atSlice && decide ((s.placeOf r.addr).1 = h)) ||
    !(s.half h).misses.isEmpty

/-- SELF_REFRESH_ENTRY (R333): every region of the half is parked. -/
def execSelfRefreshEntry (half : Nat) (s : State) : Out :=
  if s.devices ≤ half then .next s
  else
    let x := s.half half
    .next (if s.allParked half && s.rgB (.pwr (half / 2)) 0x000 1 && !x.retained && !x.woken && !x.lost then s.retain half
      else s)

/-- CACHE_WAKE (R333): a request has reached the retained half. -/
def execCacheWake (half : Nat) (s : State) : Out :=
  if s.devices ≤ half then .next s
  else
    let x := s.half half
    .next (if x.retained && x.waking.isNone && s.requestAt half then
      s.modHalf half (fun x => { x with waking := some s.time.now }) else s)

/-- CACHE_WAKE_DONE (R333, R334). -/
def execCacheWakeDone (half : Nat) (s : State) : Out :=
  if s.devices ≤ half then .next s
  else .next (if (s.half half).waking.isSome then s.cacheAwake half else s)

/-- RETENTION_RETURN (R333): 10 ms without a request to the woken half, whose regions are still parked. -/
def execRetentionReturn (half : Nat) (s : State) : Out :=
  if s.devices ≤ half then .next s
  else
    let x := s.half half
    .next (if x.woken && s.allParked half && !s.requestAt half && decide (x.lastUse + 2500000 ≤ s.time.now) then
      s.retain half else s)

end Sys2Proof.Machine
end

