-- ==== Sys2Proof/Machine/Recover.lean ====
section
/-! DEFINITION. What Coppice does with blocks, cores, spares, windows and routers (R83, R114, R153, R154, R156, R237, R259, R373 to
R388, R422). -/

namespace Sys2Proof.Machine

/-! ## Pin windows (R155, R169, R173) -/

/-- The offset of pin window entry i. -/
def pinOff (i : Nat) : Nat := 0x400 + 16 * i

/-- A bit field of entry i's third word, as a half shows it. -/
def State.pinF (s : State) (t i hi lo : Nat) : Nat := s.rgF (.sc (2 * t)) (pinOff i + 8) hi lo

/-- The range of entry i of a stack: base and length in bytes. -/
def State.pinRange (s : State) (t i : Nat) : Nat × Nat :=
  ((s.rg (.sc (2 * t)) (pinOff i)).toNat * 65536, s.rgF (.sc (2 * t)) (pinOff i + 4) 23 0 * 65536)

/-- Set a field of entry i in both halves' registers. -/
def State.setPinF (s : State) (t i hi lo v : Nat) : State :=
  (s.wgF (.sc (2 * t)) (pinOff i + 8) hi lo v).wgF (.sc (2 * t + 1)) (pinOff i + 8) hi lo v

/-- Whether a line lies in [a, a + n). -/
def lineIn (a n line : Nat) : Bool := decide (a ≤ line * 256) && decide (line * 256 < a + n)

/-- Whether a set of a half holds more pinned lines than the cap (R169). -/
def State.overCap (s : State) (h : Nat) : Bool :=
  let ks := ((s.half h).lines.filter (fun e => e.2.pinned)).map (fun e => e.1 / 16)
  ks.any (fun k => decide (s.rgF (.sc h) 0x004 3 0 < ks.countP (fun j => j == k)))

/-- LINES of every entry and OVER_CAP of both halves of a stack follow the pinned lines (R169, R173). -/
def State.pinSync (s : State) (t : Nat) : State :=
  [2 * t, 2 * t + 1].foldl (fun s h =>
    let s := (upTo 0 64).foldl (fun s i =>
      if s.pinF t i 0 0 = 0 then s
      else
        let (a, n) := s.pinRange t i
        s.wgF (.sc h) (pinOff i + 12) 23 0 ((s.half h).lines.countP (fun e =>
          e.2.pinned && (if i = 0 then s.inDirectory (e.2.line * 256) else lineIn a n e.2.line)))) s
    s.wgB (.sc h) 0x004 4 (s.overCap h)) s

/-! ## Slices: pinned lines, windows (R153, R154, R156, R168) -/

/-- The lines of a slice. -/
def Half.linesOf (x : Half) (sl : Nat) : List (Nat × Line) := x.lines.filter (fun e => inSlice sl e.1)

/-- The pinned lines of a slice. -/
def Half.pinnedOf (x : Half) (sl : Nat) : List Line := ((x.linesOf sl).map (·.2)).filter (·.pinned)

/-- The set that a line takes in a slice with a window of w MiB (R143, R145). -/
def State.setOf (s : State) (sl w line : Nat) : Nat := setHash (s.offOf (line * 256)) % setCount sl w

/-- Ways of a mask. -/
def wayCount (m : W32) : Nat := (upTo 0 16).countP (fun i => m.getLsbD i)

/-- The ways that a pinned line may take: those of its partition, or all for the directory's (R155). -/
def State.lineMask (s : State) (h p : Nat) : W32 := if p = 16 then 0xFFFF#32 else s.wayMask h p

/-- Pinned lines of a set, and those in ways of a mask. -/
def pinnedIn (m : Map Line) (base : Nat) (mask : W32) : Nat × Nat :=
  let ks := (upTo base 16).filter (fun k => match mfind m k with | some l => l.pinned | none => false)
  (ks.length, ks.countP (fun k => mask.getLsbD (k - base)))

/-- A line takes a free way of its set, in the mask where one is free (R154, R166). -/
def placeLine (m : Map Line) (mask : W32) (sl set : Nat) (l : Line) : Map Line :=
  let base := setKey sl set
  let free := (upTo base 16).filter (fun k => (mfind m k).isNone)
  match (free.filter (fun k => mask.getLsbD (k - base))) ++ free with
  | k :: _ => mput m k l
  | [] => m

/-- The lines of a half once a slice's pinned lines have their places under a window of w MiB and its other lines are gone (R154). -/
def State.placed (s : State) (h sl w : Nat) : Map Line :=
  let x := s.half h
  (x.pinnedOf sl).foldl (fun m l => placeLine m (s.lineMask h l.part) sl (s.setOf sl w l.line) l)
    (x.lines.filter (fun e => !inSlice sl e.1))

/-- Whether a slice's pinned lines keep R156 under a window of w MiB (R154): in each set no more than CAP, and two ways unpinned in the mask
of every partition that has a line there. The directory's lines belong to no partition (R155). -/
def State.pinsFit (s : State) (h sl w : Nat) : Bool :=
  let ls := (s.half h).pinnedOf sl
  let m := s.placed h sl w
  ls.all (fun l =>
    let set := s.setOf sl w l.line
    let mask := s.lineMask h l.part
    decide (ls.countP (fun y => s.setOf sl w y.line == set) ≤ s.rgF (.sc h) 0x004 3 0) &&
      (l.part == 16 || decide ((pinnedIn m (setKey sl set) mask).2 + 2 ≤ wayCount mask)))

/-- A line's dirty sectors go to the device at once (R146, R154, R177, R208). -/
def State.flushLine (s : State) (h : Nat) (line : Nat) (dirty : BitVec 4) : State :=
  let n := 64 * sectorCount dirty
  if n = 0 then s
  else
    let d := s.mif h
    let reg := s.offOf (line * 256) / 65536
    let fill := if d.inited.contains reg then 0 else 65280
    let s := (s.setMif h { d with inited := insNat d.inited reg }).writeLine h line dirty
    ((s.bump64 (.sc h) 0x168 n).bump64 (.mif h) 0x128 (n + fill)).bump64 (.cnt 0) 0x100 (n + fill)

/-- The bytes and valid bits of [a, a + n) of a window are gone (R207). -/
def State.dropGranules (s : State) (a n : Nat) : State :=
  let s := s.clear a n
  { s with granules := s.granules.filter (fun g => !(decide (a / 1024 ≤ g) && decide (g < (a + n) / 1024))) }

/-- Whether any granule of a slice's window is valid (R207, R224, R386). -/
def State.windowUsed (s : State) (h sl : Nat) : Bool :=
  s.granules.any (fun g => decide (winAddr h sl ≤ g * 1024) && decide (g * 1024 < winAddr h sl + 0x400000))

/-- A slice's window takes a size and an owner (R153, R154, R174): unpinned lines are written back and leave, pinned lines
take their places under the new set count, bytes that the window gives up go, and granules that it gains are no longer valid (R207). -/
def State.resizeWindow (s : State) (h sl w p : Nat) : State :=
  let mine := (s.half h).linesOf sl
  let s := (mine.filter (fun e => !e.2.pinned)).foldl (fun t e => (t.flushLine h e.2.line e.2.dirty).uncover h e.2) s
  let keep := min w (s.winSize h sl) * 0x100000
  let s := s.dropGranules (winAddr h sl + keep) (0x400000 - keep)
  let lines := s.placed h sl w
  let s := s.modHalf h (fun y => { y with
    lines := lines, granules := y.granules.filter (fun g => !(decide (g / 8192 = sl) && decide (setCount sl w ≤ g / 4 % 2048))) })
  let s := ((lines.filter (fun e => inSlice sl e.1)).map (·.1)).foldl (fun t k => t.wayGranule h k) s
  (s.wg (.sc h) (0x800 + 4 * sl) (BitVec.ofNat 32 (if w = 0 then 0 else w + p * 16))).pinSync (h / 2)

/-- Whether the slice beneath a site can take a window of w MiB (R153, R376). -/
def State.sliceTakes (s : State) (i w : Nat) : Bool :=
  let h := siteHalf i
  let sl := siteSlice i
  !s.retired h sl && decide (s.winSize h sl = 0) && decide (w ≤ if sl < 128 then 3 else 4) && s.pinsFit h sl w

/-- A window is lost (R224, R380, R386): with a valid granule, every running command of its partition ends with CODE 4. -/
def State.loseWindow (s : State) (h sl site : Nat) : State :=
  let p := s.winPart h sl
  let s :=
    if s.windowUsed h sl then
      (s.cmds.filter (fun c => !c.admin && c.part == p && c.begun)).foldl (fun t c => t.unrecovered c.cid 4 site) s
    else s
  s.resizeWindow h sl 0 0

/-- R380: the window of a failed site's slice moves to the slice of the spare. -/
def State.copyWindow (s : State) (src dst : Nat) : State :=
  let h := siteHalf src
  let sl := siteSlice src
  let w := s.winSize h sl
  if w = 0 ∨ s.retired h sl then s
  else
    let p := s.winPart h sl
    let a := winAddr h sl
    let b := winAddr (siteHalf dst) (siteSlice dst)
    let s := s.resizeWindow (siteHalf dst) (siteSlice dst) w p
    let gs := s.granules.filter (fun g => decide (a ≤ g * 1024) && decide (g * 1024 < a + w * 0x100000))
    let s := s.copyRange a b (w * 0x100000)
    let new := (gs.map (fun g => g - a / 1024 + b / 1024)).filter (fun g => !s.granules.contains g)
    let s := { s.bump (.sc (siteHalf dst)) 0x198 new.length with granules := new.foldl insNat s.granules }
    s.resizeWindow h sl 0 0

/-! ## Spares (R376 to R379) -/

/-- Stack links between two stacks in the grid (R17, R18). -/
def State.stackLinks (s : State) (t u : Nat) : Nat :=
  let w := if s.stacks = 8 then 4 else 2
  ((t % w : Int) - (u % w : Int)).natAbs + ((t / w : Int) - (u / w : Int)).natAbs

/-- How far a spare lies from a failed site, in the order of R376, ties to the lowest site. -/
def State.farness (s : State) (site i : Nat) : Nat :=
  let hops := ((siteRow site : Int) - siteRow i).natAbs + ((siteCol site : Int) - siteCol i).natAbs +
    (if siteLayer site = siteLayer i then 0 else 1)
  (if siteHalf site = siteHalf i then hops
   else if siteStack site = siteStack i then 1000 + hops
   else 2000 + s.stackLinks (siteStack site) (siteStack i)) * 4096 + i

/-- The class of a spare for a partition (R376). -/
def State.spareClass (s : State) (p : Option Nat) (i : Nat) : Nat :=
  match s.regionPart (regionOf i) with
  | none => 1
  | some q => if p = some q then 0 else 2

/-- The best of a set of spares for a failed site whose window has w MiB. -/
def State.bestSpare (s : State) (p : Option Nat) (site w : Nat) (m : Sites) : Option Nat :=
  let all := (sitesOf m s.sites).filter (fun i =>
    decide (s.regionState (regionOf i) ≠ 3) && (mfind s.roster.waking i).isNone && !(s.half (siteHalf i)).lost)
  let fit := if w = 0 then all else all.filter (fun i => s.sliceTakes i w)
  leastOf (fun i => s.spareClass p i * 2 ^ 40 + s.farness site i) (if fit = [] then all else fit)

/-- The restricted spares (R378). -/
def Roster.restrictedSpares (r : Roster) : Sites := r.restricted &&& ~~~ r.enabled &&& ~~~ r.fenced

/-- The spare that takes a failed site's place: a spare, else a restricted spare (R376, R378). -/
def State.pickSpare (s : State) (p : Option Nat) (site w : Nat) : Option Nat :=
  match s.bestSpare p site w s.roster.spare with
  | some i => some i
  | none => s.bestSpare p site w s.roster.restrictedSpares

/-- Change the roster. -/
def State.modRoster (s : State) (f : Roster → Roster) : State := { s with roster := f s.roster }

/-- Running commands of a partition that has no core left, nor one about to join, end with CODE 7 (R379). -/
def State.noCoreLeft (s : State) (p : Option Nat) (site : Nat) : State :=
  match p with
  | none => s
  | some q =>
    if (s.partCores q).isEmpty && s.roster.waking.all (fun e => !(s.corePart e.1 == some q || s.regionPart (regionOf e.1) == some q)) then
      (s.cmds.filter (fun c => !c.admin && c.part == q && c.begun)).foldl
        (fun t c => t.unrecovered c.cid 7 site) s
    else s

/-- A spare is chosen for a failed site and its region switched on (R376, R377); without one the partition goes on with fewer
cores (R379). The window of the site's slice is lost where the chosen slice cannot take it (R380). -/
def State.replaceCore (s : State) (p : Option Nat) (site : Nat) : State × Nat :=
  let h := siteHalf site
  let sl := siteSlice site
  let w := if s.retired h sl then 0 else s.winSize h sl
  match s.pickSpare p site w with
  | none => (s.noCoreLeft p site, 0xFFF)
  | some i =>
    let s := if w ≠ 0 && !s.sliceTakes i w then s.loseWindow h sl site else s
    let s := s.modRoster (fun r => { r with
      spare := delSite r.spare i, waking := mput r.waking i site
      lent := match p with | some q => if s.regionPart (regionOf i) = p then r.lent else mput r.lent i q | none => r.lent })
    (s.wakeRegion (regionOf i), i)

/-! ## Fencing (R374, R381, R386) -/

/-- Whether the espalier images that tiles of a block have bound reload from their sources with a good CRC (R83). -/
def State.imageReloads (s : State) (site b : Nat) : Bool :=
  ((s.core site).boundImages b).all (fun img =>
    let l : EspLoad := ⟨none, none, img.space, img.addr, 0, 0, 0⟩
    match s.imgLoad s.peek (s.imgEng site l) l with
    | .ok _ => true
    | .wait => true
    | _ => false)

/-- The lowest reason of R386 for which a block on a core that fails cannot be replayed. -/
def State.noReplay (s : State) (site : Nat) (bs : Option Nat) (b : Block) (router : Bool) : Option Nat :=
  if ((s.cmd? b.cid).map (fun c => c.flag 8)).getD false then some 1
  else if !(bs.map (s.imageReloads site)).getD true then some 2
  else if (bs.map (s.core site).midAccStrip).getD false then some 3
  else if router && (!b.commits.isEmpty || !b.strips.isEmpty) then some 5
  else s.blockReason site bs b

/-- A block that an element's failure spoils is replayed, or its command is not recovered (R381, R386): the class of the fault, the other site
that the trace names. -/
def State.replayBlock (s : State) (site : Nat) (bs : Option Nat) (b : Block) (router : Bool) (cls other : Nat) : State :=
  match s.cmd? b.cid, s.noReplay site bs b router with
  | some _, some code => s.unrecoveredBy b.cid code site other
  | some c, none => (s.takeForReplay site bs b none).traceCoppice (siteStack site) (some c.part) cls 3 site other
  | none, _ => s

/-- The blocks of a core that leaves service, and those that have exited there with an access yet to be performed: replayed, or their commands
not recovered (R374, R381, R386). -/
def State.takeBlocks (s : State) (site cls : Nat) (router : Bool) : State :=
  let (was, slots) := ((s.core site).blocks.map (fun e => (some e.1, e.2)), (s.core site).blocks.map (·.1))
  let left := s.cmds.flatMap (fun c => (c.exited.filter (fun e => e.1 == site)).map (fun e => ((none : Option Nat), e.2)))
  let s := (was ++ left).foldl (fun t e =>
    let (bs, b) := e
    match t.cmd? b.cid with
    | none => t
    | some c =>
      if c.phase = .running then t.replayBlock site bs b router cls 0xFFF
      else if c.phase = .ending ∧ c.status = 0x15 then
        (match t.noReplay site bs b router with
         | some code => t.unrecovered b.cid code site
         | none => t)
      else t) s
  (slots.foldl (fun t k => t.dropBlock site k) s).dropQueued site (fun _ => true)

/-- A core that leaves service latches its end values for the commands that run there (R422). -/
def State.latchEnd (s : State) (site : Nat) : State :=
  let v := s.fieldVals site
  { s with cmds := s.cmds.map (fun c =>
      if c.cores.contains site && !c.ordered.contains site then
        { c with
          startVals := if (mfind c.startVals site).isSome then c.startVals else mput c.startVals site v
          endVals := mput c.endVals site v, launched := insNat c.launched site, ordered := insNat c.ordered site
          acked := insNat c.acked site }
      else c) }

/-- A core out of service keeps its local placement registers clear and only its espalier images, which a spare reloads (R83). -/
def State.idleCore (s : State) (site : Nat) : State :=
  ((s.setCore site { Core.idle with esp := { Esp.idle with
      slots := (s.core site).esp.slots, active := (s.core site).esp.active } }).arrSync site).espSync site

/-- The control messages that a core has and has not answered are answered FENCED (R374). -/
def State.answerFenced (s : State) (site : Nat) : State :=
  (s.net.reqs.filter (fun r => r.isOrder && (r.state == .arrived || r.state == .missing) && s.placeSite r.addr == site)).foldl State.obeyed s

/-- Coppice fences a core (R374) and retires it; the partition it served. Its halts and breakpoints go (R435). -/
def State.fenceOnly (s : State) (site cls : Nat) (router : Bool) : State :=
  let s := (((s.takeBlocks site cls router).latchEnd site).idleCore site).dropHalts site
  let s := s.modRoster (fun r => { r with
    enabled := delSite r.enabled site, spare := delSite r.spare site, fenced := addSite r.fenced site
    retired := addSite r.retired site, lent := merase r.lent site, waking := merase r.waking site })
  (s.answerFenced site).modHealth (fun x => { x with retired := addSite x.retired site, enabled := delSite x.enabled site })

/-- Whether a core is a unit that Coppice may still remove: in service, a spare, restricted or waking (R390). -/
def State.removable (s : State) (site : Nat) : Bool :=
  !hasSite s.roster.fenced site && (hasSite s.roster.enabled site || hasSite s.roster.spare site ||
    hasSite s.roster.restricted site || (mfind s.roster.waking site).isSome)

/-- A failed core is fenced, and replaced where it was in service or waking (R373, R376, R391, R392). -/
def State.fenceCore (s : State) (site cls : Nat) (router : Bool) : State :=
  if !s.removable site then s
  else
    let p := s.corePart site
    let served := hasSite s.roster.enabled site
    let failed := (mfind s.roster.waking site).filter (fun f => f < 4096)
    let s := s.fenceOnly site cls router
    let (s, i) :=
      match failed with
      | some f => s.replaceCore p f
      | none => if served then s.replaceCore p site else (s, 0xFFF)
    (s.healthEntry (siteStack site) 1 site i).traceCoppice (siteStack site) p cls 1 site i

/-- A running LAUNCH of partition p takes a core that joins, with its start latch (R422). -/
def Cmd.join (c : Cmd) (p : Option Nat) (i : Nat) (v : List Nat) : Cmd :=
  if c.opcode = 1 ∧ c.begun = true ∧ c.phase = .running ∧ some c.part = p then
    { c with cores := insNat c.cores i, launched := insNat c.launched i, startVals := mput c.startVals i v }
  else c

/-- A spare joins the partition of the core it replaces (R376, R380, R422): the window comes with it, or is lost where its slice can take none
any more, it joins the running LAUNCH
commands, and it takes the image that was active (R83). -/
def State.joinCore (s : State) (i failed : Nat) : State :=
  let (h, sl) := (siteHalf failed, siteSlice failed)
  let s :=
    if s.winSize h sl = 0 || s.retired h sl then s
    else if s.sliceTakes i (s.winSize h sl) then s.copyWindow failed i
    else s.loseWindow h sl failed
  let old := (s.core failed).esp
  let s := s.modEsp i (fun e => if e.active.isNone then { e with slots := old.slots, active := old.active } else e)
  let s := s.modRoster (fun r => { r with enabled := addSite r.enabled i, waking := merase r.waking i })
  let s := s.modHealth (fun x => { x with enabled := addSite x.enabled i })
  let s := if (mfind s.roster.lent i).isSome then s
    else { s with power := { s.power with cmdParked := delNat s.power.cmdParked (regionOf i) } }
  let p := s.corePart i
  let v := s.fieldVals i
  let s := { s with cmds := s.cmds.map (fun (c : Cmd) => Cmd.join c p i v) }
  ((s.coreBoundary i).healthEntry (siteStack i) 2 i failed).traceCoppice (siteStack i) p 8 2 i failed

/-! ## Routers and links (R237, R255, R259, R388) -/

/-- Sites of routers next to a router: north, south, east, west, vertical, where they exist. -/
def routersNear (i : Nat) : List Nat :=
  (if siteRow i = 0 then [] else [i - 16]) ++ (if siteRow i = 15 then [] else [i + 16]) ++
  (if siteCol i = 15 then [] else [i + 1]) ++ (if siteCol i = 0 then [] else [i - 1]) ++
  [if siteLayer i = 0 then i + 256 else i - 256]

/-- Whether bypassing one more element keeps the rule of R237; routers of dark regions stand apart from it. -/
def State.bypassRule (s : State) (e : Nat) : Bool :=
  let i := elemSite e
  let same := (s.net.bypassed.filter (fun f => s.regionState (regionOf (elemSite f)) != 3 &&
    decide (elemSite f / 256 = i / 256))).map elemSite
  decide (same.length < 4) && same.all (fun j => siteHalf j != siteHalf i || (siteRow j != siteRow i && siteCol j != siteCol i))

/-- Rows beyond row r, to the south or to the north, as prefixes of four bits: the bits and which of them count. -/
def rowsBeyond (r : Nat) (south : Bool) : List (Nat × Nat) :=
  (upTo 0 4).filterMap (fun k =>
    if r.testBit k = south then none else some ((r / 2 ^ (k + 1) * 2 + (if south then 1 else 0)) * 2 ^ k, 15 / 2 ^ k * 2 ^ k))

/-- The override entries of router i where the way to its neighbour j is bypassed, destination, mask and exit (R237, R259): from a row,
destinations of other rows leave along the column; from a column, those beyond the element leave along the row; from the other layer, those
of the element's layer leave along the row (DESIGN CHOICE, log entry 9). -/
def overridesAt (i j : Nat) (router : Bool) : List (Nat × Nat × Nat) :=
  let base := j / 256 * 256
  let side := if siteCol i = 15 then 3 else 2
  if siteStack i ≠ siteStack j then []
  else if siteLayer i ≠ siteLayer j then [(base, 0xF00, side)]
  else if siteRow i = siteRow j then
    (rowsBeyond (siteRow i) true).map (fun x => (base + x.1 * 16, 0xF00 + x.2 * 16, 1)) ++
      (rowsBeyond (siteRow i) false).map (fun x => (base + x.1 * 16, 0xF00 + x.2 * 16, 0))
  else
    (rowsBeyond (siteRow (if router then j else i)) (decide (siteRow i < siteRow j))).map (fun x =>
      (base + x.1 * 16 + siteCol i, 0xF0F + x.2 * 16, side))

/-- Firmware writes override entries into the free places of a router (R237, R259). -/
def State.writeOverrides (s : State) (i j : Nat) (router : Bool) : State :=
  (overridesAt i j router).foldl (fun t x =>
    match (upTo 0 8).find? (fun k => !t.rgB (.router i) (0x040 + 4 * k) 0) with
    | none => t
    | some k => t.wg (.router i) (0x040 + 4 * k) (BitVec.ofNat 32 (1 + x.1 * 2 + x.2.1 * 2 ^ 13 + x.2.2 * 2 ^ 25))) s

/-- Whether the way from a master to a target goes through an element. -/
def State.goesThrough (s : State) (i d e : Nat) : Bool :=
  (s.path 256 i d false []).any (fun x => x.2 == e || x.1 == e || linkNo x.1 x.2 == e)

/-- Routes go round an element from now on (R237, R255), which answers the path failures reported on ways through it (R373). Packets that a failed
router held are lost (R254). -/
def State.passBy (s : State) (e : Nat) : State :=
  let i := elemSite e
  let s := { s with net := { s.net with
    pathFails := s.net.pathFails.filter (fun x => !s.goesThrough x.1 x.2 e)
    bypassed := insNat s.net.bypassed e
    packets := if e < 2 ^ 24 then s.net.packets.filter (fun k => k.at_ != i) else s.net.packets } }
  let s := if e < 2 ^ 24 then (routersNear i).foldl (fun t k => t.writeOverrides k i true) s
    else s.writeOverrides i ((e - 2 ^ 24) % 4096) false
  let n := (s.net.bypassed.filter (fun f => siteStack (elemSite f) == siteStack i)).length
  s.wgF (.msh (siteStack i)) 0x000 13 11 (min 7 n)

/-- An element is bypassed, which the health report tells (R237, R393). -/
def State.bypass (s : State) (e : Nat) : State :=
  (s.passBy e).healthEntry (siteStack (elemSite e)) 7 (elemSite e) 0

/-- A half is lost (R373, R386, R388): its spares go, its cores are fenced and replaced as spares remain, commands with an
access homed there end with CODE 8, those of the partitions of its used windows with CODE 4. -/
def State.loseHalf (s : State) (h : Nat) : State :=
  if (s.half h).lost then s
  else
    let sites := (upTo (h / 2 * 512) 512).filter (fun i => siteHalf i == h)
    let hit := s.net.reqs.filter (fun r => r.remote.isNone && r.unperformed && decide (r.addr < lmemBase) &&
      decide ((s.placeOf r.addr).1 = h))
    let s := s.modHealth (fun x => { x with lostHalves := insNat x.lostHalves h })
    let s := s.modRoster (fun r => { r with spare := sites.foldl delSite r.spare })
    let s := hit.foldl (fun t r => t.unrecovered r.cid 8 r.site) s
    let s := (upTo 0 256).foldl (fun t sl => if t.winSize h sl = 0 then t else t.loseWindow h sl (sliceSite h sl)) s
    let s := s.setHalf h { Half.empty with lost := true }
    let s := s.oredSync h
    let s := (sites.filter (fun i => hasSite s.roster.enabled i)).foldl (fun t i => t.fenceCore i 3 true) s
    s.healthEntry (h / 2) 8 0xFFF h

/-- A router fails: it is bypassed and the core behind it fenced, or the half is lost where the rule of R237 does not cover it. -/
def State.failRouter (s : State) (i cls : Nat) : State :=
  if s.net.bypassed.contains i then s
  else if s.bypassRule i then (s.bypass i).fenceCore i cls true
  else s.loseHalf (siteHalf i)

/-- A link fails: it is bypassed, or its half is lost. -/
def State.failLink (s : State) (a b : Nat) : State :=
  let e := linkNo a b
  if s.net.bypassed.contains e then s
  else if s.bypassRule e then s.bypass e
  else s.loseHalf (siteHalf a)

end Sys2Proof.Machine
end

