-- ==== Sys2Proof/Machine/Integrity.lean ====
section
/-! DEFINITION. Pin windows under pressure, remapping, scrubbing, vertical ports, slices that retire (R145, R155 to R159, R166,
R169, R170, R173, R205, R216 to R225). -/

namespace Sys2Proof.Machine

/-! ## Pin windows under pressure (R157 to R159) -/

/-- The lines of [a, a + n) in a half change by f; dirty ones are written back first where `flush` (R157, R159). -/
def State.modLines (s : State) (h a n : Nat) (flush : Bool) (f : Line → Line) : State :=
  let hit := (s.half h).lines.filter (fun e => lineIn a n e.2.line)
  let s := if flush then hit.foldl (fun t e => t.flushLine h e.2.line e.2.dirty) s else s
  s.modHalf h (fun x => { x with lines := x.lines.map (fun e =>
    if lineIn a n e.2.line then (e.1, f (if flush then { e.2 with dirty := 0 } else e.2)) else e) })

/-- The entry of a stack that a thrash event demotes: pinned, not 0, the lowest priority, then the highest number (R159). -/
def State.demotable (s : State) (t : Nat) : Option Nat :=
  leastOf (fun i => s.pinF t i 8 7 * 64 + (63 - i)) ((upTo 1 63).filter (fun i => decide (s.pinF t i 0 0 = 1) && decide (s.pinF t i 2 1 = 1)))

/-- Demotion of an entry (R159): its lines are written back, unpinned and demoted. -/
def State.demote (s : State) (h i : Nat) : State :=
  let t := h / 2
  let (a, n) := s.pinRange t i
  let un (l : Line) : Line := { l with pinned := false, demoted := true }
  let s := (s.modLines (2 * t) a n true un).modLines (2 * t + 1) a n true un
  let s := (s.setPinF t i 2 1 2).bump (.sc h) 0x15C 1
  ((s.wgF (.sc h) 0x00C 26 21 i).wgB (.sc h) 0x00C 27 true).pinSync t

/-- The thrash event of a half is reported (R158). -/
def State.thrashEvent (s : State) (h : Nat) : State :=
  let s := (s.wgB (.sc h) 0x00C 0 true).bump (.sc h) 0x150 1
  if s.rgB (.sc h) 0x008 20 then s.adminEvent 0 else s

/-- Lines of a half outside windows: 16 ways in each set of a slice in service (R158). -/
def State.cacheLines (s : State) (h : Nat) : Nat :=
  ((upTo 0 256).map (fun sl => if s.retired h sl then 0 else s.sets h sl * 16)).sum

/-- THRASH_WINDOW_END (R158, R159, R170): a window lasts 25,000 ticks. -/
def execThrashWindowEnd (half : Nat) (s : State) : Out :=
  if s.devices ≤ half then .next s
  else if s.time.now < (s.half half).thrashFrom + 25000 then .next s
  else
    let b := Blk.sc half
    let x := s.half half
    let rate := if x.reqs = 0 then 0 else min 255 (256 * x.missed / x.reqs)
    let pins := x.lines.countP (fun e => e.2.pinned)
    let n := s.cacheLines half
    let occ := if n = 0 then 0 else min 255 (256 * pins / n)
    let counts := decide (s.rgF b 0x008 7 0 < rate) && decide (s.rgF b 0x008 15 8 < occ)
    let run := if counts then s.rgF b 0x00C 20 17 + 1 else 0
    let fires := decide (max 1 (s.rgF b 0x008 19 16) ≤ run)
    let s := s.setHalf half { x with reqs := 0, missed := 0, thrashFrom := s.time.now }
    let s := ((s.wgF b 0x00C 8 1 rate).wgF b 0x00C 16 9 occ).wgF b 0x00C 20 17 (if fires then 0 else run)
    .next (if fires then
      let s := s.thrashEvent half
      if s.rgB b 0x008 21 then (match s.demotable (half / 2) with | some i => s.demote half i | none => s) else s
    else s)

/-! ## Remapping (R216, R217) -/

/-- Whether a log entry qualifies its location for remap. DESIGN CHOICE (log 154): an entry of KIND 2 (an address or
tag fault) does not, whatever its count. -/
def State.qualifies (s : State) (b : Blk) (k : LogKind) (i : Nat) : Bool :=
  s.rgB b (logOff i) 0 && !s.rgB b (logOff i) k.remapBit &&
    (decide (s.rgF b (logOff i) 2 1 = 1) ||
     (decide (s.rgF b (logOff i) 2 1 = 0) && decide (max 1 (s.rgF b 0x238C 7 0) ≤ s.logCount b k i)))

/-- CACHE_REMAP (R216): a full table retires the slice; an uncorrectable word is copied as stored poison. -/
def execCacheRemap (half slice word : Nat) (s : State) : Out :=
  if s.devices ≤ half ∨ 256 ≤ slice then .next s
  else
    let b := Blk.sc half
    let loc := BitVec.ofNat 32 (slice + word * 256)
    match (upTo 0 32).find? (fun i => s.rg b (logOff i + 4) == loc && s.qualifies b scLog i) with
    | none => .next s
    | some i =>
      let entry := BitVec.ofNat 32 (1 + slice * 2 + word * 512)
      if (upTo 0 16).any (fun j => s.rg b (0x2300 + 4 * j) == entry) then .next (s.wgB b (logOff i) 28 true)
      else
      match (upTo 0 16).find? (fun j => !s.rgB b (0x2300 + 4 * j) 0) with
      | none => .next (s.dueRetire half slice)
      | some j =>
        let s := match s.wordAddr half slice word with
          | some a => if s.rgF b (logOff i) 2 1 = 1 then s.poisonAll a 32 else s
          | none => s
        let s := (s.wg b (0x2300 + 4 * j) entry).wgB b (logOff i) 28 true
        .next (s.storeDue.modHealth (fun x => { x with cacheRemaps := x.cacheRemaps ++ [(half, slice, word)] }))

/-- A line of a device goes to a spare line (R217), its log entries `hit` marked; with no free entry it is reported once and
listed in the health report. -/
def State.remapLine (s : State) (dev line : Nat) (hit : List Nat) : State :=
  let b := Blk.mif dev
  if s.lineRemapped dev line then hit.foldl (fun t i => t.wgB b (logOff i) 18 true) s
  else
    match (upTo 0 8).find? (fun j => !s.rgB b (0x2300 + 8 * j) 0) with
    | none =>
      if s.health.lineReports.contains (dev, line) then s
      else
        ((s.modHealth (fun x => { x with lineReports := x.lineReports ++ [(dev, line)] })).adminEvent 3).healthEntry (dev / 2) 12 0xFFF line
    | some j =>
      let s := (s.wg b (0x2300 + 8 * j) (BitVec.ofNat 32 (1 + j * 2 + 16))).wg b (0x2304 + 8 * j) (BitVec.ofNat 32 line)
      let s := hit.foldl (fun t i => t.wgB b (logOff i) 18 true) s
      s.storeDue.modHealth (fun x => { x with memRemaps := x.memRemaps ++ [(dev, line, j)] })

/-- MEMORY_REMAP (R217). -/
def execMemoryRemap (dev line : Nat) (s : State) : Out :=
  if s.devices ≤ dev then .next s
  else
    let b := Blk.mif dev
    let hit := (upTo 0 32).filter (fun i => s.rgF b (logOff i + 4) 31 3 == line && s.qualifies b mifLog i)
    .next (if hit = [] then s else s.remapLine dev line hit)

/-! ## Patrol scrubbing (R218, R219) -/

/-- A scrubber's request: its units in the budget window, and its class, 7 over the budget (R240, R241, R257). -/
def State.scrubInject (s : State) (stack key : Nat) : State × Nat :=
  let n := mget 0 s.net.units key
  let budget := s.rgF (.msh stack) 0x330 15 0
  let exceeds := decide (budget ≠ 0xFFFF) && (decide (budget = 0) || decide (budget < n))
  ({ s with net := { s.net with units := mset 0 s.net.units key (n + 1) } }, if exceeds then 7 else s.rgF (.msh 0) 0x004 2 0)

/-- Whether a half scrubs now: not parked or retained, its scrubber enabled. -/
def State.scrubs (s : State) (b : Blk) (h : Nat) : Bool :=
  s.rgB b 0x2380 0 && !s.allParked h && !(s.half h).retained && !(s.half h).lost

/-- The ticks between the accesses of a pass over n words (R218): PASS_MIN minutes, spaced evenly. -/
def State.scrubGap (s : State) (b : Blk) (n : Nat) : Nat := max 1 (max 1 (s.rgF b 0x2380 15 4) * 15000000000 / max 1 n)

/-- The runs of words that a half scrubs, by first word, slice × 2^18 + word index, and length: its valid granules (R207, R218). -/
def State.scrubRuns (s : State) (h : Nat) : List (Nat × Nat) :=
  (s.half h).granules.map (fun g => (g / 8192 * 2 ^ 18 + g % 8192 * 32, 32)) ++
  (s.granules.filter (fun g => decide (winBase ≤ g * 1024) && decide (siteHalf (winSite (g * 1024)) = h))).map (fun g =>
    let sl := siteSlice (winSite (g * 1024))
    (sl * 2 ^ 18 + s.sets h sl * 128 + (g * 1024 - winBase) % 0x400000 / 32, 32))

/-- The runs of beats that an interface scrubs: its initialised regions (R208, R218). -/
def State.scrubBeats (s : State) (dev : Nat) : List (Nat × Nat) := (s.mif dev).inited.map (fun r => (r * 2048, 2048))

/-- The first word of the runs at or after a position. -/
def nextIn (rs : List (Nat × Nat)) (pos : Nat) : Option Nat :=
  leastOf id ((rs.filter (fun r => decide (pos < r.1 + r.2))).map (fun r => max pos r.1))

/-- The word that a scrubber works on next, the position after it, and whether its pass ends there (R218, R219). -/
def scrubNext (rs : List (Nat × Nat)) (pos : Nat) : Option (Nat × Nat × Bool) :=
  let go (p : Nat) : Nat × Nat × Bool := if (nextIn rs (p + 1)).isSome then (p, p + 1, false) else (p, 0, true)
  match nextIn rs pos with
  | some p => some (go p)
  | none => (nextIn rs 0).map go

/-- What a scrub finds in a word of a slice that no line uses at present. -/
def State.voidWord (s : State) (h p : Nat) (err : CacheErr) : State :=
  let b := Blk.sc h
  let loc := BitVec.ofNat 32 (p / 2 ^ 18 + p % 2 ^ 18 * 256)
  let y := match err with | .flips bs => flipSyndrome bs | .moved d => locSyndrome d | _ => 0
  match verdict y with
  | .corrected _ => (s.bump b 0x180 1).elog b scLog (scWord 0 3 y) loc
  | .uncorrectable => ((s.bump b 0x184 1).elog b scLog (scWord 1 3 y) loc).adminEvent 1
  | _ => s

/-- Whether a request of class 0 could be served at a slice now: it goes before a scrub of another class (R148, R240). -/
def State.classZeroAt (s : State) (h sl : Nat) : Bool :=
  s.net.reqs.any (fun r => r.cls == 0 && r.atSlice && s.placeOf r.addr == (h, sl) && s.couldServe r && s.roomFor r)

/-- A scrub of the next word of a half (R218): what it finds is logged with SOURCE 3 and rewritten corrected or as stored poison. -/
def State.scrubCache (s : State) (h : Nat) (err : CacheErr) : State :=
  let x := s.half h
  let rs := s.scrubRuns h
  match scrubNext rs x.scrubPos with
  | none => s
  | some (p, pos, last) =>
    let (t, cls) := s.scrubInject (h / 2) (103000 + h)
    if s.time.now < x.scrubAt + s.scrubGap (.sc h) (32 * rs.length) ∨ (cls ≠ 0 ∧ s.classZeroAt h (p / 2 ^ 18) = true) then s
    else
      let t := t.modHalf h (fun x => { x with scrubPos := pos, scrubAt := s.time.now })
      let t := match t.wordAddr h (p / 2 ^ 18) (p % 2 ^ 18) with
        | some a => (t.sliceErr a err 3).bump (.sc h) 0x188 (t.storedPoison (a / 32 * 32) 32 [(a, err)])
        | none => t.voidWord h p err
      if last then t.bump (.sc h) 0x194 1 else t

/-- A scrub's write of a beat (R218, R219): the word corrected, miscorrected, or as stored poison. What a cache line or a held victim holds
stands, and a region that a PART_CREATE has cleared in between is not written (R208). -/
def State.scrubWrites (s : State) (dev : Nat) (w : Nat × List Nat × Bool) : State :=
  let a := s.addrOf dev (w.1 * 32)
  let (valid, dirty) := s.cached a
  let s := s.setMif dev { s.mif dev with scrubWrite := none }
  if !s.isInit a then s
  else
  let s := ((s.scrubInject (dev / 2) (103500 + dev)).1.bump64 (.mif dev) 0x128 32).bump64 (.cnt 0) 0x100 32
  if dirty.getLsbD (a / 64 % 4) then s
  else if valid.getLsbD (a / 64 % 4) then
    (if w.2.2 then s.setMif dev { s.mif dev with hidden := insNat (s.mif dev).hidden (a / 32) } else s)
  else if w.2.2 then s.poisonAll a 32
  else if w.2.1.isEmpty then s
  else (s.unmark a).invert a w.2.1

/-- What a memory scrub makes of a beat's faults (R206, R214, R219): reported, with the rewrite that follows. -/
def State.scrubBeat (s : State) (dev beat : Nat) (x : BeatErr) : State :=
  let o := beat * 32
  let er := s.erased dev
  let p := s.devicePoison (s.addrOf dev o)
  let v := beatVerdict er x p
  let t := s.beatReport dev o v 1
  let t := if p = false ∧ v = .poison then t.bump (.mif dev) 0x240C 1 else t
  let go (bits : List Nat) (pois : Bool) : State := t.setMif dev { t.mif dev with scrubWrite := some (beat, bits, pois) }
  match v with
  | .die _ _ => go (wrongBits er x v) false
  | .address => go [] true
  | .uncorrectable => go [] true
  | _ => t

/-- A scrub of the next beat of a device: its read, which delivers what waits of the burst's other line (R308), with the write it leads to
still to come (R218, R219); a read of stored poison is counted (R206). -/
def State.scrubMemory (s : State) (dev : Nat) (err : MemErr) : State :=
  let d := s.mif dev
  let rs := s.scrubBeats dev
  match scrubNext rs d.scrubPos with
  | none => s
  | some (beat, pos, last) =>
    if s.time.now < d.scrubAt + s.scrubGap (.mif dev) (2048 * rs.length) then s
    else
      let t := s.setMif dev { d with scrubPos := pos, scrubAt := s.time.now }
      let t := (t.scrubInject (dev / 2) (103500 + dev)).1
      let t := t.bump (.mif dev) 0x240C (if t.devicePoison (t.addrOf dev (beat * 32)) then 1 else 0)
      let other := t.addrOf dev (pairOffset (beat * 32)) / 256
      let t := if d.waitingReads.contains other then t.deliver dev (beat * 32) [other] .clean
        else (t.bump64 (.mif dev) 0x120 512).bump64 (.cnt 0) 0x100 512
      let t := match err with
        | .clean => t
        | .bitmapCorrected => t.bitmapFixed (t.addrOf dev (beat * 32))
        | .bitmapLost => t.bitmapLost (t.addrOf dev (beat * 32))
        | .beats es =>
          if t.lineRemapped dev (beat / 8) then t
          else (es.filter (fun e => e.1 == beat % 16)).foldl (fun u e => u.scrubBeat dev beat e.2) t
      if last then t.bump (.mif dev) 0x2418 1 else t

/-- SCRUB_ACCESS (R218, R219): the next word of a half, or the next beat of a device and at the following event its rewrite; writes of a
memory scrub wait while writes to the device are held (R312). -/
def execScrubAccess (target : ScrubTarget) (s : State) : Out :=
  match target with
  | .cache half err =>
    if s.devices ≤ half then .next s
    else .next (if s.scrubs (.sc half) half then s.scrubCache half err else s)
  | .memory dev err =>
    if s.devices ≤ dev then .next s
    else if !s.scrubs (.mif dev) dev then .next s
    else
      match (s.mif dev).scrubWrite with
      | some w => .next (if s.mifRuns dev true then s.scrubWrites dev w else s)
      | none => .next (if s.mifRuns dev false then s.scrubMemory dev err else s)

/-! ## Vertical ports (R220 to R223) -/

/-- A port is queued for a test, from now (R221). -/
def State.queueTest (s : State) (h sl : Nat) : State :=
  s.modHalf h (fun x => if (mfind x.portDue sl).isSome then x else { x with portDue := mput x.portDue sl s.time.now })

/-- A corrected port error of a lane: the threshold within 1 s queues the port for a test (R221). -/
def State.laneError (s : State) (h sl lane : Nat) : State :=
  let k := sl * 2048 + lane
  let x := s.half h
  let ts := s.recent 250000000 ((mfind x.laneErr k).getD [])
  let s := s.setHalf h { x with laneErr := mput x.laneErr k ts }
  if max 1 (s.rgF (.sc h) 0x2384 15 8) ≤ ts.length then s.queueTest h sl else s

/-- Reads of a word that are performed and not yet answered come back as the port delivered it (R221). -/
def State.redeliver (s found : State) (a : Nat) : State :=
  { s with net := { s.net with reqs := s.net.reqs.map (fun r =>
      let b := r.addr / 128 * 128
      if r.kind = .read ∧ r.state = .performed ∧ r.span.1 < a + 32 ∧ a < r.span.1 + r.span.2 then
        { r with
          result := BitVec.ofNat 128 (found.num r.addr r.size), rpois := found.poisoned r.addr r.size
          line := if r.fillL1 then found.bytes b 128 else r.line
          lpois := if r.fillL1 then (upTo 0 4).map (fun i => found.poisoned (b + 32 * i) 32) else r.lpois }
      else r) } }

/-- The lanes of a slice that have failed in a group: 1 covered by the spare, 2 uncovered. -/
def Half.laneGroup (x : Half) (sl g : Nat) : List Nat :=
  (upTo (sl * 2048 + g * 32) 32).filterMap (fun k => mfind x.laneBad k)

/-- A word sent again over a port arrives with a fault (R203, R221). What a half under test cannot cover stalls the slice until the test ends
(R225; log entry 133). -/
def State.resent (s : State) (h sl lane w a : Nat) (write : Bool) (err : CacheErr) : State :=
  let b := Blk.sc h
  let loc := BitVec.ofNat 32 (sl + w * 256)
  let y := s.syndrome a err
  let deliver (t found : State) : State := if write then { t with mem := found.mem, poison := found.poison } else t.redeliver found a
  match verdict y with
  | .corrected _ => deliver (((s.bump b 0x180 1).elog b scLog (scWord 0 6 y) loc).laneError h sl lane) (s.turned a err)
  | .uncorrectable =>
    let s := (((s.bump b 0x184 1).elog b scLog (scWord 1 6 y) loc).adminEvent 1).queueTest h sl
    let stuck := s.rgB b (0x2800 + 4 * sl) 9 && ((s.half h).laneGroup sl (lane / 32)).contains 1
    let s := if stuck then s.modHalf h (fun x => { x with stalled := insNat x.stalled sl }) else s
    deliver s (s.poisonAll a 32)
  | .poison => if s.poisoned (a / 32 * 32) 32 then s else deliver (s.bump b 0x188 1) (s.poisonAll a 32)
  | .clean => s

/-- PORT_RESEND (R220, R221): groups 0 to 31 carry read data, 32 to 63 write data. -/
def execPortResend (half slice lane word : Nat) (write : Bool) (result : CacheErr) (s : State) : Out :=
  if s.devices ≤ half ∨ 256 ≤ slice ∨ 2048 ≤ lane ∨ decide (1024 ≤ lane) ≠ write then .next s
  else
    match s.wordAddr half slice word with
    | none => .next s
    | some a =>
      let s := s.bump (.sc half) 0x18C 1
      .next (match result with
        | .flips _ => s.resent half slice lane word a write result
        | .moved _ => s.resent half slice lane word a write result
        | _ => s)

/-- The bytes that a port has carried over the preceding 1 ms (R222). -/
def State.portCarried (s : State) (h sl : Nat) : Nat :=
  ((((mfind (s.half h).portUse sl).getD []).filter (fun e => decide (s.time.now < e.1 + 250000))).map (·.2)).sum

/-- The bytes that a port can carry in 1 ms: 128 GB/s each way at full width (R148). -/
def State.portCapacity (s : State) (h sl : Nat) : Nat :=
  if s.rgF (.sc h) (0x2800 + 4 * sl) 1 0 = 0 then 256000000 else 128000000

/-- Ticks of an hour. -/
def hourTicks : Nat := 900000000000

/-- Whether PERIOD_H hours have passed since a port's last test, and whether one more has. -/
def State.periodOver (s : State) (h sl more : Nat) : Bool :=
  let n := s.rgF (.sc h) 0x2384 7 0
  decide (n ≠ 0) && decide (mget 0 (s.half h).portTested sl + (n + more) * hourTicks ≤ s.time.now)

/-- Whether a periodic test of a port is due now (R222): PERIOD_H hours after the last one in an idle window, and an hour later once it carries
no more than it did in the millisecond of lowest use since (DESIGN CHOICE, log entry 134). -/
def State.periodDue (s : State) (h sl : Nat) : Bool :=
  let use := s.portCarried h sl
  let idle := !s.commandOn (sliceSite h sl) && decide (16 * use < s.portCapacity h sl)
  s.periodOver h sl 0 && (idle || (s.periodOver h sl 1 && decide (use ≤ (mfind (s.half h).portLow sl).getD use)))

/-- At the end of a millisecond, the least that each port due for its test has carried in one (R222). -/
def State.portLows (s : State) (h : Nat) : State :=
  if s.time.now % 250000 ≠ 249999 then s
  else
    ((upTo 0 256).filter (fun sl => s.periodOver h sl 0)).foldl (fun t sl =>
      let u := t.portCarried h sl
      t.modHalf h (fun x => { x with portLow := mput x.portLow sl (min u ((mfind x.portLow sl).getD u)) })) s

/-- Whether a port can be tested now: at most four of a half at once, the slice in service (R222). -/
def State.testable (s : State) (h sl : Nat) : Bool :=
  !s.retired h sl && !s.rgB (.sc h) (0x2800 + 4 * sl) 9 &&
    decide ((upTo 0 256).countP (fun i => s.rgB (.sc h) (0x2800 + 4 * i) 9) < 4)

/-- A test of a port begins. -/
def State.startTest (s : State) (h sl : Nat) : State := if s.testable h sl then s.wgB (.sc h) (0x2800 + 4 * sl) 9 true else s

/-- A test of a port that is due begins, once its region is on (R221, R222, R225). -/
def State.dueTest (s : State) (h sl : Nat) : State :=
  if ((mfind (s.half h).portDue sl).isSome || s.periodDue h sl) && s.regionOn (regionOf (sliceSite h sl)) then s.startTest h sl else s

/-- PORT_TEST (R221, R222): a test that is due begins. -/
def execPortTest (half slice : Nat) (s : State) : Out :=
  if s.devices ≤ half ∨ 256 ≤ slice then .next s else .next (s.dueTest half slice)

/-- Whether a lane group belongs to lane half A (R220). -/
def groupA (g : Nat) : Bool := decide (g < 16) || (decide (32 ≤ g) && decide (g < 48))

/-- One failed lane (R223): the group's spare takes it if unused. The list keeps whether uncovered failures fell in lane half A. -/
def State.failLane (h sl : Nat) (acc : State × List Bool) (lane : Nat) : State × List Bool :=
  let (s, unc) := acc
  let x := s.half h
  let k := sl * 2048 + lane
  if (mfind x.laneBad k).isSome then acc
  else if (x.laneGroup sl (lane / 32)).contains 1 then
    ((s.setHalf h { x with laneBad := mput x.laneBad k 2 }).modHealth (fun y => { y with vertLanes := mput y.vertLanes (h * 524288 + k) 2 }),
      unc ++ [groupA (lane / 32)])
  else
    let s := (s.setHalf h { x with laneBad := mput x.laneBad k 1 }).modHealth
      (fun y => { y with vertLanes := mput y.vertLanes (h * 524288 + k) 1 })
    (s.wgF (.sc h) (0x2800 + 4 * sl) 8 2 (s.rgF (.sc h) (0x2800 + 4 * sl) 8 2 + 1), unc)

/-- A port test's result (R223): spares, half width, or a slice due for retirement. -/
def State.portResult (s : State) (h sl : Nat) (failed : List Nat) : State :=
  let o := 0x2800 + 4 * sl
  let s := if failed = [] then s else s.wgB (.sc h) o 10 true
  let (s, unc) := failed.foldl (State.failLane h sl) (s, [])
  let a := unc.contains true
  let b := unc.contains false
  let half (s : State) (m : Nat) : State :=
    (s.wgF (.sc h) o 1 0 m).modHealth (fun x => { x with halfWidth := mput x.halfWidth (h * 256 + sl) m })
  match s.rgF (.sc h) o 1 0 with
  | 0 => if a && b then s.dueRetire h sl else if a then half s 2 else if b then half s 1 else s
  | 1 => if a then s.dueRetire h sl else s
  | 2 => if b then s.dueRetire h sl else s
  | _ => s

/-- The test of a port is over (R222, R223, R225). -/
def State.testDone (s : State) (h sl : Nat) (failed : List Nat) : State :=
  let s := s.wgB (.sc h) (0x2800 + 4 * sl) 9 false
  let s := s.modHalf h (fun x => { x with portDue := merase x.portDue sl, portTested := mput x.portTested sl s.time.now,
                                           portLow := merase x.portLow sl })
  (s.portResult h sl failed).unstallSlice h sl

/-- Whether every port of a half has lost both its lane halves, each to a failed lane that no spare covers (R223, R373). -/
def Half.portsLost (x : Half) : Bool :=
  (upTo 0 256).all (fun sl => [true, false].all (fun a =>
    x.laneBad.any (fun e => decide (e.1 / 2048 = sl) && e.2 == 2 && groupA (e.1 % 2048 / 32) == a)))

/-- PORT_TEST_DONE (R222, R223): a half whose last port has lost both lane halves is lost (R373). -/
def execPortTestDone (half slice : Nat) (failed : List Nat) (s : State) : Out :=
  if s.devices ≤ half ∨ 256 ≤ slice then .next s
  else if s.rgB (.sc half) (0x2800 + 4 * slice) 9 then
    let t := s.testDone half slice failed
    .next (if failed ≠ [] ∧ (t.half half).portsLost = true then t.loseHalf half else t)
  else .next s

/-! ## Retirement of a slice (R145, R166, R224) -/

/-- The core above a slice whose empty window is lost is replaced and becomes a spare (R224, R380, R381). -/
def State.replaceAbove (s : State) (site w p : Nat) : State :=
  if !hasSite s.roster.enabled site then s
  else
    let q := s.corePart site
    match s.pickSpare q site w with
    | none => s
    | some i =>
      let s := ((s.takeBlocks site 5 false).latchEnd site).idleCore site
      let s := s.modRoster (fun r => { r with
        enabled := delSite r.enabled site, spare := addSite (delSite r.spare i) site, lent := merase r.lent site
        waking := mput r.waking i site })
      let s := s.modRoster (fun r => { r with
        lent := match q with | some u => if s.regionPart (regionOf i) = q then r.lent else mput r.lent i u | none => r.lent })
      let s := s.modHealth (fun x => { x with enabled := delSite x.enabled site })
      let s := if s.sliceTakes i w then s.resizeWindow (siteHalf i) (siteSlice i) w p else s
      s.wakeRegion (regionOf i)

/-- What becomes of the window of a slice that retires and of the core above it (R224 step 4). -/
def State.retireWindow (s : State) (h sl : Nat) : State :=
  let w := s.winSize h sl
  let site := sliceSite h sl
  if w = 0 then s
  else if s.windowUsed h sl then s.loseWindow h sl site
  else (s.resizeWindow h sl 0 0).replaceAbove site w (s.winPart h sl)

/-- SLICE_RETIRE (R166, R168, R207, R224): a slice that is due is drained, words that arrive uncorrectable as stored poison; its window is lost;
SC_STATUS counts it out. -/
def execSliceRetire (half slice : Nat) (errs : List (Nat × CacheErr)) (s : State) : Out :=
  if s.devices ≤ half ∨ 256 ≤ slice then .next s
  else if !(s.half half).retireDue.contains slice || s.retired half slice then .next s
  else
    let b := Blk.sc half
    let mine := (s.half half).linesOf slice
    let s := (errs.filter (fun e => mine.any (fun x => x.2.line == e.1 / 256))).foldl (fun t e => t.sliceErr e.1 e.2 2) s
    let s := mine.foldl (fun t e => t.flushLine half e.2.line e.2.dirty) s
    let s := s.modHalf half (fun x => { x with
      lines := x.lines.map (fun e => if inSlice slice e.1 then (e.1, { e.2 with dirty := 0 }) else e), flushing := insNat x.flushing slice })
    let s := (s.retireWindow half slice).modHalf half (fun x => { x with granules := x.granules.filter (fun g => g / 8192 != slice) })
    let s := (s.wgF b (0x2800 + 4 * slice) 1 0 3).flushSync half
    let s := (s.wgF b 0x000 8 0 (s.rgF b 0x000 8 0 - 1)).wgF b 0x000 16 9 (s.rgF b 0x000 16 9 + 1)
    let s := s.modHealth (fun x => { x with retiredSlices := insNat x.retiredSlices (half * 256 + slice) })
    .next ((s.healthEntry (half / 2) 4 (sliceSite half slice) slice).traceCoppice (half / 2) none 5 1 (sliceSite half slice) 0xFFF)

/-- How many map entries each slice of a half homes. -/
def State.homeCount (s : State) (h sl : Nat) : Nat := (upTo 0 4096).countP (fun i => s.homeEntry h i == sl)

/-- The entries of a retired slice go to surviving slices, each to a different one, fewest entries first (R145). The counts of
the candidates are taken once, since each receives at most one entry. -/
def State.rehomeMap (s : State) (h sl : Nat) : State :=
  let es := (upTo 0 4096).filter (fun i => s.homeEntry h i == sl)
  let cs := ((upTo 0 256).filter (fun j => j != sl && !s.retired h j)).map (fun j => (j, s.homeCount h j))
  (es.foldl (fun (acc : State × List (Nat × Nat)) i =>
    let pool := if acc.2 = [] then cs else acc.2
    match leastOf (fun j => ((mfind pool j).getD 0) * 256 + j) (pool.map (·.1)) with
    | none => acc
    | some j =>
      ((acc.1.setHome h i j).modHealth (fun x => { x with homeMaps := mput x.homeMaps (h * 4096 + i) j }), merase pool j))
    (s, cs)).1

/-- A pinned line of a retired slice at its new home (R155, R166): pinned where R156 allows or it is the directory's, else demoted, which
the list keeps. None while no way of its set can be taken. -/
def State.rehomeLine (s : State) (h : Nat) (l : Line) : Option (State × Bool) :=
  let (_, sl, set) := s.home (l.line * 256)
  let mask := s.lineMask h l.part
  let (all, mine) := pinnedIn (s.half h).lines (setKey sl set) mask
  let ok := l.part == 16 || (decide (all + 1 ≤ s.rgF (.sc h) 0x004 3 0) && decide (mine + 3 ≤ wayCount mask))
  (s.takeWay h sl set mask (s.rgB (.mif h) 0x000 7) (if ok then l else { l with pinned := false, demoted := true })).map (fun t => (t, ok))

/-- The pinned lines of a retired slice at their new homes, with those that are demoted. -/
def State.rehomeLines (s : State) (h : Nat) : List Line → Option (State × List Nat)
  | [] => some (s, [])
  | l :: ls =>
    match s.rehomeLine h l with
    | none => none
    | some (t, ok) => (State.rehomeLines t h ls).map (fun r => (r.1, if ok then r.2 else l.line :: r.2))

/-- The entries of demoted lines become demoted, and the thrash event is reported (R166). -/
def State.demotedBy (s : State) (h : Nat) (lines : List Nat) : State :=
  if lines.isEmpty then s
  else
    let t := h / 2
    ((upTo 1 63).foldl (fun s i =>
      let (a, n) := s.pinRange t i
      if s.pinF t i 0 0 = 1 ∧ lines.any (lineIn a n) = true then
        (s.setPinF t i 2 1 2).bump (.sc h) 0x15C (if s.pinF t i 2 1 = 2 then 0 else 1) else s) s).thrashEvent h

/-- The lines of a retired slice leave it, the map changes, and pinned lines take their new homes (R145, R166). None while a pinned line's
new set has no way to take. -/
def State.rehomed (s : State) (half slice : Nat) : Option (State × List Nat) :=
  let mine := ((s.half half).linesOf slice).map (·.2)
  let s := (mine.filter (fun l => !l.pinned)).foldl (fun t l => t.uncover half l) s
  let s := s.modHalf half (fun x => { x with
    lines := x.lines.filter (fun e => !inSlice slice e.1), stalled := delNat x.stalled slice
    retireDue := delNat x.retireDue slice, flushing := delNat x.flushing slice })
  (s.rehomeMap half slice).rehomeLines half (mine.filter (·.pinned))

/-- Once stage 6 has passed and no slice waits to be rehomed, the memory interfaces begin to train (R320, R402, R403). -/
def State.startTraining (s : State) : State :=
  if s.rgF (.pwr 0) 0x040 3 0 = 6 ∧ s.boot.stopped = false ∧ s.halves.all (fun h => h.2.retireDue == [] && h.2.stalled == []) = true then
    (upTo 0 s.devices).foldl (fun u d => u.wgF (.mif d) 0x000 1 0 1) s
  else s

/-- REHOME_DONE (R145, R166, R168): the map changes, pinned lines take their new homes, stalled requests go on. -/
def execRehomeDone (half slice : Nat) (s : State) : Out :=
  if s.devices ≤ half ∨ 256 ≤ slice then .next s
  else if !s.retired half slice || !(s.half half).retireDue.contains slice then .next s
  else
    match s.rehomed half slice with
    | none => .next s
    | some (t, gone) => .next (((t.demotedBy half gone).flushSync half).pinSync (half / 2)).startTraining

end Sys2Proof.Machine
end

