-- ==== Sys2Proof/Machine/Coppice.lean ====
section
/-! DEFINITION. The events of Coppice: core, lane, region, router, processor and half faults, wake checks, window copies (R114, R237,
R328, R329, R334, R373 to R388). -/

namespace Sys2Proof.Machine

/-- A meaning for a site of the part. -/
def onSite (s : State) (site : Nat) (f : State) : Out := if s.sites ≤ site then .next s else .next f

/-- The class of a cause in the order of R390. -/
def causeClass : CoreCause → Nat
  | .region => 4
  | .router => 6
  | _ => 8

/-- A fence order reaches its core (R250, R374). -/
def State.fenceReach (s : State) (site : Nat) : State :=
  match mfind s.net.fences site with
  | none => s
  | some cls => { s with net := { s.net with fences := merase s.net.fences site } }.fenceCore site cls false

/-- CORE_FENCE (R250, R374): Coppice orders the core to stop, from the first processor of the core's stack; the order sets out where no ring
carries it, and has its effect where it has come to its core. A core behind a failed router is cut off without one (DESIGN CHOICE, log entry
159). -/
def execCoreFence (site : Nat) (cause : CoreCause) (s : State) : Out :=
  onSite s site (
    if cause = .router then s.fenceCore site (causeClass cause) true
    else
      match s.order? (.fence site) with
      | some r => if r.state = .arrived then (s.obeyed r).fenceReach site else s
      | none =>
        if !s.removable site then s
        else
          let s := if (mfind s.net.fences site).isSome then s
            else { s with net := { s.net with fences := mput s.net.fences site (causeClass cause) } }
          if s.ringRuns site then s else s.sendOrder (siteStack site * 4) noCid (.fence site))

/-- CONTROL_ACK_TIMEOUT (R373): a core in service that does not acknowledge is a core fault. -/
def execControlAckTimeout (site : Nat) (s : State) : Out :=
  onSite s site (if hasSite s.roster.enabled site then s.fenceCore site 8 false else s)

/-- WAKE_CHECK_DONE (R334, R376, R391): a spare that passes joins; a core that fails is handed to Coppice. -/
def execWakeCheckDone (site : Nat) (pass : Bool) (s : State) : Out :=
  onSite s site (
    match mfind s.roster.waking site with
    | none => s
    | some f =>
      if !s.regionOn (regionOf site) then s
      else if !pass then s.fenceCore site 8 false
      else if f < 4096 then s.joinCore site f
      else s.modRoster (fun r => { r with waking := merase r.waking site }))

/-- WINDOW_COPY (R380): the window beneath a failed site goes to the slice of the spare that replaces it. -/
def execWindowCopy (src dst : Nat) (s : State) : Out :=
  if s.sites ≤ src ∨ s.sites ≤ dst then .next s
  else .next (if mfind s.roster.waking dst = some src ∧ s.sliceTakes dst (s.winSize (siteHalf src) (siteSlice src)) then
    s.copyWindow src dst else s)

/-- A core with one failed lane leaves its partition and becomes a restricted spare (R114, R378). -/
def State.restrict (s : State) (site lane : Nat) : State :=
  let p := s.corePart site
  let served := hasSite s.roster.enabled site
  let s := if served then ((s.takeBlocks site 9 false).latchEnd site).idleCore site else s
  let s := s.modRoster (fun r => { r with
    enabled := delSite r.enabled site, spare := delSite r.spare site, restricted := addSite r.restricted site
    lent := merase r.lent site, badLane := mput r.badLane site lane })
  let s := s.modHealth (fun x => { x with enabled := delSite x.enabled site, badLanes := mput x.badLanes site lane })
  let (s, i) := if served then s.replaceCore p site else (s, 0xFFF)
  s.healthEntry (siteStack site) 3 site i

/-- LANE_FAULT (R114, R373, R378): the first failed lane restricts the core; a second in the working half retires it. -/
def execLaneFault (site lane : Nat) (s : State) : Out :=
  onSite s site (
    if !s.removable site then s
    else
      match mfind s.roster.badLane site with
      | none => s.restrict site lane
      | some l => if l / 16 = lane / 16 then s else s.fenceCore site 9 false)

/-! ## Regions -/

/-- A region goes dark (R329, R349): its cores are fenced, its routers bypassed, its slices due for retirement. -/
def State.darken (s : State) (r : Nat) : State :=
  if s.regF r 1 0 = 3 then s
  else
    let s := ((s.setReg r 1 0 3).meshSync (regionHalf r)).govForget r
    let s := s.modHealth (fun x => { x with darkRegions := insNat x.darkRegions r })
    let s := (regionSites r).foldl (fun t i => t.fenceCore i 4 true) s
    let s := (regionSites r).foldl (fun t i => if t.net.bypassed.contains i then t else t.bypass i) s
    let s := (regionSites r).foldl (fun t i => if t.retired (siteHalf i) (siteSlice i) then t else t.dueRetire (siteHalf i) (siteSlice i)) s
    s.healthEntry (r / 256) 5 0xFFF (r % 256)

/-- REGULATOR_FAIL (R328, R329, R347, R349): the region is capped, from switch-on step 8 while it switches on; with a failed
neighbour both go dark. -/
def execRegulatorFail (stack region : Nat) (s : State) : Out :=
  if s.stacks ≤ stack ∨ 256 ≤ region then .next s
  else
    let r := stack * 256 + region
    if s.regF r 3 3 = 1 ∨ s.regF r 1 0 = 3 then .next s
    else
      let s := (s.setReg r 3 3 1).bump (.pwr stack) 0x80C 1
      let s := (s.modHealth (fun x => { x with regFails := insNat x.regFails r })).healthEntry stack 6 0xFFF region
      let bad := (neighboursOf r).filter (fun x => decide (s.regF x 3 3 = 1))
      .next (if bad = [] then (if s.regF r 1 0 = 1 ∧ s.regF r 23 20 < 8 then s else (s.capRegion r).govSync stack)
        else (r :: bad).foldl State.darken s)

/-! ## Routers, processors, halves -/

/-- ROUTER_CREDIT_TIMEOUT (R237, R373). -/
def execRouterCreditTimeout (site : Nat) (s : State) : Out := onSite s site (s.failRouter site 6)

/-- ROUTER_BYPASS (R237, R247, R373): Coppice acts on a path failure report. -/
def execRouterBypass (site : Nat) (s : State) : Out := onSite s site (s.failRouter site 6)

/-- Whether a command works in pieces of R381 and is not done. -/
def Cmd.pieceRun (c : Cmd) : Bool := c.begun && c.phase == .running && [2, 3, 4, 5].contains c.opcode

/-- The piece of a command on its way to another part is forgotten: it is sent again (R381). -/
def State.resend (s : State) (cid : Nat) : State :=
  { s.modCmd cid (fun d => { d with recovered := true, sentPiece := none }) with
    net := { s.net with reqs := s.net.reqs.filter (fun r => r.cid != cid) } }

/-- COMMAND_PROCESSOR_WATCHDOG (R373, R381, R386): the queues of processor cp move to the next; unfinished pieces are replayed. -/
def execCommandProcessorWatchdog (stack cp : Nat) (s : State) : Out :=
  if s.stacks ≤ stack ∨ 4 ≤ cp then .next s
  else
    let mine := (upTo 0 4).filter (fun i => decide (s.processor stack i = cp))
    let hit := s.cmds.filter (fun c => c.pieceRun && decide ((s.part.grade.hostPort c.port).1 = stack) && mine.contains (c.queue % 4))
    let s := { s with host := { s.host with
      cpMap := mine.foldl (fun m i => mput m (stack * 4 + i) ((cp + 1) % 4)) s.host.cpMap } }
    .next (hit.foldl (fun t c =>
      if c.flag 8 then t.unrecovered c.cid 1 0xFFF
      else (t.resend c.cid).traceCoppice stack (some c.part) 7 3 0xFFF 0xFFF) s)

/-- HALF_LOSS (R373, R388). -/
def execHalfLoss (half : Nat) (s : State) : Out :=
  if s.devices ≤ half then .next s else .next (s.loseHalf half)

end Sys2Proof.Machine
end

