-- ==== Sys2Proof/Machine/Mesh.lean ====
section
/-! DEFINITION. The network: packets from router to router, responses, retries, windows of the budgets, crossings, the
compatibility rings (R230, R233 to R243, R247 to R251, R254, R255). -/

namespace Sys2Proof.Machine

/-! ## Packets from router to router (R230, R233 to R237) -/

/-- Flits of a packet (R230). -/
def State.flits (s : State) (k : Packet) : Nat :=
  match s.req? k.rid with
  | none => 1
  | some r => flitsOf (if k.response then r.brings else r.carries)

/-- Where a packet goes next: router, whether on a detour from there, and the rest of its way round; none where it has arrived. -/
def State.onward (s : State) (k : Packet) : Option (Nat × Bool × List Nat) :=
  if k.at_ = k.dest then none else s.route k.at_ k.dest k.detour k.via

/-- Flits that a virtual channel of a router's input holds (R233). -/
def State.vcFlits (s : State) (i input vc : Nat) : Nat :=
  ((s.net.packets.filter (fun q => q.at_ == i && q.input == input && q.vc == vc)).map s.flits).sum

/-- Whether a packet is the oldest of its virtual channel of its input (R233, R234): of the packets that come from an endpoint of its router,
those that do not fit into the channel's 8 flits wait there behind it. -/
def State.first (s : State) (k : Packet) : Bool :=
  s.net.packets.all (fun q => q.at_ != k.at_ || q.input != k.input || q.vc != k.vc || decide (k.since < q.since) ||
    (k.since == q.since && decide (k.pid ≤ q.pid)))

/-- Whether a packet could go on now: it is the first of its channel, the crossing before it is not held (R239), and the channel behind it has
room (R233). At its destination nothing is in its way but the output to its endpoint. -/
def State.canMove (s : State) (k : Packet) : Bool :=
  s.first k &&
    match s.onward k with
    | none => k.at_ == k.dest
    | some (j, detour, _) =>
      !s.heldCrossing k.at_ j && decide (s.vcFlits j k.at_ { k with detour := detour }.vc + s.flits k ≤ 8)

/-- Whether a packet has waited 4,096 mesh cycles at its output (R234, R238, R255): a tick is half a cycle for each sixteenth of 2.0 GHz. -/
def State.starved (s : State) (k : Packet) : Bool :=
  let lo := if siteEast k.at_ = 0 then 2 else 6
  decide (8192 ≤ (s.time.now - k.since) * (s.rgF (.msh (siteStack k.at_)) 0x000 (lo + 3) lo + 1))

/-- The order of R234 at an output, the lowest first: class 0; of the others those that have waited too long; then responses, the lower class,
the oldest (its steps taken in their order; DEDUCED, log entry 145). -/
def State.arbRank (s : State) (k : Packet) : Nat :=
  let c := if k.cls = 0 then 0 else if s.starved k then 1 else 2
  (((c * 2 + (if k.response then 0 else 1)) * 8 + k.cls) * 2 ^ 64 + k.since) * 2 ^ 64 + k.pid

/-- The output that a packet waits for (R229, R234): the router it goes to next, or at its destination its endpoint. -/
def State.output (s : State) (k : Packet) : Option Nat × Option Endpoint :=
  if k.at_ = k.dest then (none, some k.endpoint) else ((s.onward k).map (·.1), none)

/-- Whether a packet wins its output (R234). -/
def State.wins (s : State) (k : Packet) : Bool :=
  s.net.packets.all (fun q => q.pid == k.pid || q.at_ != k.at_ || s.output q != s.output k || !s.canMove q ||
    decide (s.arbRank k ≤ s.arbRank q))

/-- Replace or drop a packet. -/
def State.setPacket (s : State) (pid : Nat) (f : Packet → Option Packet) : State :=
  { s with net := { s.net with packets := s.net.packets.filterMap (fun k => if k.pid = pid then f k else some k) } }

/-- A check failure on a link (R230): 16 within 1 ms and the link has failed. -/
def State.linkCheck (s : State) (i j : Nat) : State :=
  let e := linkNo i j
  let ts := s.recent 250000 ((mfind s.net.linkErrs e).getD [])
  let s := { s with net := { s.net with linkErrs := mput s.net.linkErrs e ts } }
  if 16 ≤ ts.length then s.failLink i j else s

/-- A request reaches its place. One sent again finds the first still waiting, or performed: what the target's record holds is
answered from it, and a read whose answer is not on its way is performed again (R247, R248). A core that is fenced answers FENCED (R374). -/
def State.arrive (s : State) (k : Packet) : State :=
  let s := s.setPacket k.pid (fun _ => none)
  match s.req? k.rid with
  | none => s
  | some r =>
    match r.state with
    | .sent => if r.isOrder && hasSite s.roster.fenced (s.placeSite r.addr) then s.obeyed r else s.setReq { r with state := .arrived }
    | .performed =>
      if r.kind = .read ∧ s.net.packets.all (fun q => q.rid != r.rid || !q.response) then s.setReq { r with state := .arrived }
      else s.respond r
    | .ready => s.respond r
    | .answered => s.respond r
    | _ => s

/-- ROUTER_PACKET (R230, R233 to R237, R239): the packet, where it wins its output and can move, goes to the next router, or a request at its
destination to its endpoint; one that fails its check on the link is discarded, and one for a failed router is lost. -/
def execRouterPacket (pid : Nat) (checkFail : Bool) (s : State) : Out :=
  match s.net.packets.find? (fun k => k.pid == pid) with
  | none => .next s
  | some k =>
    if s.net.bypassed.contains k.dest then .next (s.setPacket pid (fun _ => none))
    else
      if !s.canMove k || !s.wins k then .next s
      else
      match s.onward k with
      | none => .next (if k.response then s else s.arrive k)
      | some (j, detour, via) =>
          let s := if k.cls = 0 then s.addC0 k.at_ j (s.flits k) else s
          let k' := { k with at_ := j, input := k.at_, since := s.time.now, detour := detour, via := via }
          if checkFail then .next (((s.setPacket pid (fun _ => none)).bump (.router j) 0x100 1).linkCheck k.at_ j)
          else .next (s.setPacket pid (fun _ => some k'))

/-! ## Responses, retries and records (R247 to R249) -/

/-- The answer of a request reaches its core: byte counters, and for a thread registers and the L1 (R130, R131, R210, R253, R419, R451). -/
def State.answer (s : State) (r : Req) : State :=
  if 70 < r.slot then s
  else
    let s := { s with net := { s.net with unitUse := mput s.net.unitUse (r.site * 4 + unitOf r.slot) s.time.now } }
    let beneath := r.remote.isNone && s.placeSite r.addr == r.site
    let s := if r.brings = 0 then s else s.bump64 (.cntCore r.site) (if beneath then 0x028 else 0x040) r.brings
    let s :=
      match r.dest with
      | none => s
      | some d => s.modGroup r.site r.slot (fun g =>
          g.writeData r.lane (regNo r.uni d) (loadWords r.size r.sx r.result.toNat) r.rpois)
    if r.fillL1 && !r.dropFill then s.modCore r.site (fun k => k.l1Fill ⟨r.addr / 128, r.line, r.lpois⟩) else s

/-- Whether what a request brings back is awaited: by a master other than a thread; of a command processor, for a command that is there, or for
a queue that reads its next entry. -/
def State.awaits (s : State) (r : Req) : Bool :=
  decide (64 < r.slot) && (r.kind == .read || r.kind.typ == 4) && (r.slot != 71 || decide (noCid < r.cid) || (s.cmd? r.cid).isSome)

/-- A request is answered: a master other than a thread has yet to use what a read brings it; a read that went out once is over, any other
is kept until its record is released (R248). -/
def State.completed (s : State) (r : Req) : State :=
  let s := s.answer r
  if s.awaits r then s.setReq { r with state := .ready }
  else
    match r.over with
    | none => s.dropReq r.rid
    | some q => s.setReq { q with sentAt := s.time.now }

/-- A refusal reaches the group whose access it was (R184, R285, R388). A core that is fenced has nothing left to do for the sender of a control
message: what it did is replayed elsewhere (R374, R381; DEDUCED, log entry 159). -/
def State.refusedBack (s : State) (r : Req) : State :=
  let a := (s.core r.site).arr
  if r.isOrder then s
  else if r.slot < 64 then s.raiseLate r.site r.slot r.lane r.index r.cid 4
  else if r.slot = 68 then
    (match a.tile? r.lane with | some t => s.tileBad r.site t 1 | none => s)
  else if r.slot = 69 then
    (match (s.core r.site).dma.find? (fun j => j.id == r.lane) with
     | some j => s.raiseLate r.site j.group j.lane j.index j.cid 4
     | none => s)
  else if r.slot = 71 then s.unrecovered r.cid 8 0xFFF
  else s

/-- The answer of a request is taken in. -/
def State.takeAnswer (s : State) (r : Req) : State :=
  let t := s.completed r
  if r.refused && r.kind != .read || r.refused && decide (r.slot < 64) then t.refusedBack r else t

/-- REQUEST_RETRY (R247): the request goes out again on the alternate route. -/
def execRequestRetry (rid : Nat) (s : State) : Out :=
  match s.req? rid with
  | none => .next s
  | some r =>
    if r.state ≠ .queued ∧ r.ended = false ∧ r.slot ≠ 77 ∧ r.remote.isNone ∧ r.attempt < 2 ∧ r.sentAt + 5000 * (r.attempt + 1) ≤ s.time.now then
      let d := s.placeSite r.addr
      let s := (s.setReq { r with attempt := r.attempt + 1 }).bump (.router (s.portal r d)) 0x11C 1
      .next (if d = r.site then s else s.postPacket (s.outward r (r.attempt + 1)))
    else .next s

/-- A request that was dropped is among those of the part again. -/
def State.again (s : State) (r : Req) : State := { s with net := { s.net with reqs := s.net.reqs ++ [r] } }

/-- What follows a request that gave up (R247, R381, R386): a core's block is replayed, or its command not recovered. Any other master sends the
request anew, so that of a command's piece only what was not performed is done again (DESIGN CHOICE, log entry 157); a control message is sent
again by the row that sent it. -/
def State.replayAfter (s : State) (r : Req) : State :=
  if r.isOrder then s
  else if 70 < r.slot then
    let r := { r with attempt := 0, sentAt := s.time.now }
    (s.again r).postPacket (s.outward r 1)
  else
  match s.cmd? r.cid with
  | none => s
  | some c =>
    let bs := (s.core r.site).blockOf r.cid r.lin
    let left := (c.exited.find? (fun e => e.1 == r.site && e.2.lin == r.lin)).map (·.2)
    match (match bs.bind (mfind (s.core r.site).blocks) with | some b => some b | none => left) with
    | some b => if c.phase = .running then s.replayBlock r.site bs b false 6 (s.placeSite r.addr) else s
    | none => s

/-- REQUEST_GIVE_UP (R247, R249): the request ends; its path failure is reported to Coppice, with the master's site and the target's. -/
def execRequestGiveUp (rid : Nat) (s : State) : Out :=
  match s.req? rid with
  | none => .next s
  | some r =>
    if r.ended = false ∧ r.held = false ∧ r.remote.isNone ∧ r.attempt = 2 ∧ r.sentAt + 15000 ≤ s.time.now then
      let d := s.placeSite r.addr
      let i := s.portal r d
      let s := (s.dropReq rid).bump (.msh (siteStack i)) 0x830 1
      let s := { s with net := { s.net with
        packets := s.net.packets.filter (fun k => k.rid != rid), pathFails := s.net.pathFails ++ [(i, d)] } }
      .next (s.replayAfter r)
    else .next s

/-- RECORD_RELEASE (R248, R294): the target forgets the writes of an answered request, or this part those of another part's request. -/
def execRecordRelease (which : Released) (s : State) : Out :=
  match which with
  | .peer src tag =>
    .next { s with fab := { s.fab with records := s.fab.records.filter (fun x => !(x.src == src && x.tag == tag)) } }
  | .own rid =>
  match s.req? rid with
  | some _ => .next (s.releaseRecords (fun r => r.rid == rid))
  | none => .next { s with net := { s.net with records := s.net.records.filter (fun x => x.2 != rid) } }

/-! ## Windows, crossings, rings -/

/-- The class-0 flits of the present window on the link of an output: its own, or those of all the lanes of its stack link, which share it
(R231, R243). -/
def Net.onLink (n : Net) (key : Nat) : Nat :=
  if key < 65536 then mget 0 n.c0 key
  else ((n.c0.filter (fun e => decide (e.1 / 65536 = key / 65536) && decide (e.1 % 65536 / 4096 = key % 65536 / 4096))).map (·.2)).sum

/-- The class-0 flits that a link may carry in one window: 10 % of a vertical mesh link, of a stack link, of a mesh link (R243). -/
def c0Limit (key : Nat) : Nat := if 65536 ≤ key then 2343 else if key % 8 = 4 then 100 else 200

/-- Routers with an output over the limit; for a stack link each router whose lane has carried some of it (R243; DESIGN CHOICE, log entry
144). -/
def Net.overC0 (n : Net) : List Nat :=
  (n.c0.filter (fun e => decide (c0Limit e.1 < n.onLink e.1))).foldl (fun l e => insNat l (e.1 % 65536 / 8)) []

/-- BUDGET_WINDOW_BOUNDARY (R241, R243, R254, R256): windows lie at multiples of 250 ticks. -/
def execBudgetWindowBoundary (s : State) : Out :=
  if s.time.now % 250 ≠ 0 then .next s
  else
    let s := s.net.overC0.foldl (fun t i => t.bump (.router i) 0x104 1) s
    let regs := s.net.pendingRegs.foldl (fun m e => mset (regReset e.1) m e.1 e.2) s.regs
    .next { s with regs := regs, net := { s.net with units := [], c0 := [], pendingRegs := [] } }

/-- CROSSING_MODE_SWITCH (R239, R255): the crossings of a half whose clock changed switch mode. -/
def execCrossingModeSwitch (stack half : Nat) (s : State) : Out :=
  if s.stacks ≤ stack ∨ 2 ≤ half then .next s
  else
    let h := 2 * stack + half
    match mfind s.net.crossing h with
    | none => .next s
    | some _ =>
      let s := { s with net := { s.net with crossing := merase s.net.crossing h } }
      .next (s.wgB (.msh stack) 0x000 10 (decide (s.meshStep (2 * stack) ≠ s.meshStep (2 * stack + 1))))

/-- A counter-latch order of a command reaches a core: the start latch is taken where none is (R250, R420, R422). -/
def State.latchReach (s : State) (cid site : Nat) : State :=
  s.modCmd cid (fun c =>
    if c.begun && c.cores.contains site && (mfind c.startVals site).isNone then
      { c with startVals := mput c.startVals site (s.fieldVals site) }
    else c)

/-- RING_MESSAGE (R250): the message has the effect it has on the mesh; a fence order stops issue on its core (R374). -/
def execRingMessage (msg : CtlMsg) (s : State) : Out :=
  match msg with
  | .launch cid site => onSite s site (if s.ringRuns site then s.launchReach cid site else s)
  | .endOrder cid site => onSite s site (if s.ringRuns site then s.endReach cid site else s)
  | .acknowledge cid site => onSite s site (if s.ringRuns site then s.ackReach cid site else s)
  | .invalidate site => onSite s site (if s.ringRuns site then s.dropL1 site else s)
  | .latch cid site => onSite s site (if s.ringRuns site then s.latchReach cid site else s)
  | .reset site => onSite s site (if s.ringRuns site then s.resetReach site else s)
  | .fence site => onSite s site (if s.ringRuns site then s.fenceReach site else s)

/-- RING_LINK_FAIL (R251, R255): the layer's control messages go over the mesh from now on. -/
def execRingLinkFail (stack layer : Nat) (s : State) : Out :=
  if s.stacks ≤ stack ∨ 2 ≤ layer then .next s
  else if s.rgB (.msh stack) 0x000 0 then
    let s := { s with net := { s.net with ringFailed := insNat s.net.ringFailed (stack * 2 + layer) } }
    .next ((s.wgB (.msh stack) 0x000 1 true).adminEvent 4)
  else .next s

end Sys2Proof.Machine
end

