-- ==== Sys2Proof/Machine/HostQueue.lean ====
section
/-! DEFINITION. Submission queues, doorbells, the fetch of a command and the checks of R277 before it runs (R92, R93, R266 to R273,
R277, R281). -/

namespace Sys2Proof.Machine

/-! ## Queues (R266 to R268) -/

/-- Whether a port reaches a queue's block (R267): the queues of its partitions, or the admin queues on the admin port. -/
def State.queueOf (s : State) (port qi : Nat) : Bool :=
  if qi < 1024 then s.ownerOf (qi / 64) == some port else decide (qi < 1028) && decide (port = s.boot.cfg.adminPort)

/-- Whether a queue takes doorbells: reached, enabled, its partition not under reset (R268, R285). -/
def State.queueLive (s : State) (port qi : Nat) : Bool :=
  s.queueOf port qi && (s.queue port qi).en &&
    !(decide (qi < 1024) && (((mfind s.parts (qi / 64)).map (·.resetting)).getD false))

/-- A doorbell, of the submission tail or the completion head, with its value; an ignored one is counted (R268). -/
def State.ringBell (s : State) (port qi : Nat) (tail : Bool) (v : Nat) : State :=
  if !s.queueLive port qi then (s.hostRx port 4).bump (s.hpBlk port) 0x108 1
  else
    let s := s.hostRx port 4
    let q := s.queue port qi
    if v = (if tail then q.sqTail else q.cqHead) then s
    else if q.size ≤ v then s.stopQueue port qi 1
    else s.setQueue port qi (if tail then { q with sqTail := v } else { q with cqHead := v })

/-- The posted writes of a port that wait (R191). -/
def State.setPosted (s : State) (port : Nat) (l : List (Bool × Nat × List Byte)) : State :=
  if (s.port port).posted = l then s else s.setPort port { s.port port with posted := l }

/-- A doorbell is acted on after every window write that its port has taken before (R191). -/
def doorbell (s : State) (port qi : Nat) (tail : Bool) (value : W32) : Out :=
  if 4 ≤ port then .next s
  else if !s.linkUp port then .next s
  else if (s.port port).posted = [] then .next (s.ringBell port qi tail (getF 15 0 value))
  else .next (s.setPosted port ((s.port port).posted ++ [(false, 2 * qi + (if tail then 0 else 1), toBytes 4 value.toNat)]))

/-- SQ_TAIL_DOORBELL (R191, R268). -/
def execSqTailDoorbell (port queue : Nat) (value : W32) (s : State) : Out := doorbell s port queue true value

/-- CQ_HEAD_DOORBELL (R191, R268). -/
def execCqHeadDoorbell (port queue : Nat) (value : W32) (s : State) : Out := doorbell s port queue false value

/-- Whether a base of a queue is good at enable: a multiple of 4 KiB; in device memory, inside the partition's ranges; the
admin queues lie in host memory only (R266, R267). -/
def State.baseOk (s : State) (qi : Nat) (dev : Bool) (a n : Nat) : Bool :=
  decide (a % 4096 = 0) && (!dev || (decide (qi < 1024) && s.inRanges (qi / 64) a n))

/-- QUEUE_ENABLE (R267): a write of a queue block's first word. While EN is 1 only EN is written. -/
def execQueueEnable (port queue : Nat) (word : W32) (s : State) : Out :=
  if 4 ≤ port then .next s
  else if !s.linkUp port then .next s
  else if !s.queueOf port queue then .next (s.hostRx port 4)
  else
    let s := s.hostRx port 4
    let q := s.queue port queue
    let on := word.getLsbD 0
    if q.en then .next ((if on then s else s.endRead port queue).setQueue port queue { q with en := on })
    else
      let q := { q with
        sqDev := word.getLsbD 1, cqDev := word.getLsbD 2, detailDev := word.getLsbD 3, intEach := word.getLsbD 4
        sizeM1 := getF 23 8 word }
      let s := s.setQueue port queue q
      if !on then .next s
      else if s.baseOk queue q.sqDev q.sqBase (64 * q.size) && s.baseOk queue q.cqDev q.cqBase (16 * q.size) &&
          s.baseOk queue q.detailDev q.detailBase (32 * q.size) then
        .next (s.setQueue port queue { q with en := true })
      else .next (s.stopQueue port queue 4)

/-! ## The checks of R277 -/

/-- Commands that only partition queues carry (R276). -/
def partOnly : List Nat :=
  [0x01, 0x02, 0x03, 0x04, 0x05, 0x08, 0x09, 0x0A, 0x10, 0x11, 0x12, 0x18, 0x19, 0x1A, 0x1B, 0x1C, 0x21, 0x22]

/-- Commands that both kinds of queue carry. -/
def bothQueues : List Nat := [0x00, 0x28, 0x29, 0x30, 0x48]

/-- Commands that only admin queues carry. -/
def adminOnly : List Nat := [0x20, 0x38, 0x39, 0x3A, 0x40, 0x41]

/-- All bits of a dword. -/
def allBits : W32 := 0xFFFFFFFF#32

/-- The bits of dwords 2 on that an opcode gives a meaning (R276); the others are reserved. -/
def packetMask (op : Nat) : List W32 :=
  let a : List W32 := [allBits, 0xFFFF#32]
  let f (n : Nat) : List W32 := List.replicate n allBits
  match op with
  | 0x01 => a ++ f 4 ++ [0x003FF7FF#32, 0xFF#32] ++ a ++ f 1
  | 0x02 => a ++ a ++ f 2 ++ [0x00F1FFFF#32]
  | 0x03 => a ++ f 4
  | 0x04 => a ++ a ++ f 2 ++ [0xF#32] ++ f 2
  | 0x05 => a ++ a ++ f 2 ++ [0xF#32]
  | 0x08 => [0x1FF#32, 0] ++ f 2
  | 0x09 => [0xFF#32, 0] ++ f 2
  | 0x0A => [1]
  | 0x10 => a ++ [0xFFFFFF#32, 3]
  | 0x11 => a
  | 0x12 => [0x1FFFFF#32, 7]
  | 0x18 => [0xFFFFF#32, 0] ++ a ++ f 8
  | 0x19 => [0xFFFFF#32, 0xF#32, 0x1FFFFFFF#32] ++ f 11
  | 0x1A => [0xFFFFF#32] ++ f 1
  | 0x1B => [0xFFFFF#32]
  | 0x1C => [0xFFFFF#32, 1] ++ a
  | 0x20 => f 3 ++ [1]
  | 0x21 => [0x3F#32, 0] ++ f 2
  | 0x22 => [0x3F#32, 0] ++ f 2
  | 0x28 => a ++ [0x1FFF#32]
  | 0x29 => [3, 0] ++ a ++ f 1 ++ [0xFF#32]
  | 0x30 => [0xF#32, 0x10FFF#32]
  | 0x38 => a
  | 0x39 => [0xF#32]
  | 0x3A => [0xF#32]
  | 0x40 => a ++ f 1 ++ [3]
  | 0x48 => a ++ f 1
  | _ => []

/-- Whether reserved bits and flags that do not apply are 0 (R271, R277 check 4): ORDERED applies to LAUNCH and REDUCE. -/
def Cmd.bitsOk (c : Cmd) : Bool :=
  let m := packetMask c.opcode
  (upTo 0 14).all (fun i => decide (c.dw (2 + i) &&& ~~~ (nth 0 m i) = 0)) &&
    decide (c.f 0 15 12 = 0) && (!c.flag 9 || [1, 5].contains c.opcode)

/-- Whether a length is that of a COPY: a multiple of 64 from 64 to 2^40. -/
def copyLen (n : Nat) : Bool := decide (n % 64 = 0) && decide (64 ≤ n) && decide (n ≤ 2 ^ 40)

/-- Whether the quantities of a LAUNCH lie in the ranges of R92 and R276. -/
def Cmd.launchOk (c : Cmd) : Bool :=
  let t := (c.dw 12).toNat
  decide (c.codeBase % 64 = 0) && decide (1 ≤ c.codeLen) && decide (c.codeLen ≤ 2 ^ 20) &&
    decide (1 ≤ c.gridX) && decide (c.gridX < 2 ^ 31) && decide (1 ≤ c.gridY) && decide (1 ≤ c.gridZ) &&
    decide (1 ≤ c.threads) && decide (c.threads ≤ 1024) && decide (8 ≤ c.nregs) && decide (c.nregs ≤ 256) &&
    decide (c.nregs % 8 = 0) && decide (c.lmemUnits ≤ 128) && decide ((c.dw 10).toNat % 64 = 0) &&
    (decide (t = 0) || (decide (1000 ≤ t) && decide (t ≤ 3600000)))

/-- Whether the entries of a ring are 0 or a power of two from 64 to 2^n (R428). -/
def ringSize (x n : Nat) : Bool := decide (x = 0) || (upTo 6 (n - 5)).any (fun k => decide (x = 2 ^ k))

/-- Whether the parameters of a command lie in their ranges (R276, R277 check 4, R154, R337, R428). -/
def Cmd.rangesOk (c : Cmd) : Bool :=
  match c.opcode with
  | 0x01 => c.launchOk
  | 0x02 => copyLen (c.val64 6) && !((c.dw 8).getLsbD 15 && (c.dw 8).getLsbD 16)
  | 0x03 => copyLen (c.val64 4)
  | 0x04 =>
    decide (1 ≤ (c.dw 6).toNat) && decide ((c.dw 6).toNat ≤ 2 ^ 20) && decide (1 ≤ (c.dw 7).toNat) &&
      decide ((c.dw 7).toNat ≤ 2 ^ 20) && [0, 1, 2, 3, 8, 9, 11].contains (c.f 8 3 0)
  | 0x05 => copyLen (c.val64 6) && decide (c.f 8 3 0 ≤ 8)
  | 0x10 => decide (c.addr 2 % 65536 = 0) && decide (1 ≤ c.f 4 23 0)
  | 0x12 =>
    decide (1 ≤ c.f 2 20 12) && decide (c.f 2 7 0 + c.f 2 20 12 ≤ 256) &&
      decide (c.f 3 2 0 ≤ if c.f 2 8 8 = 0 then 3 else 4)
  | 0x19 => decide (c.f 3 3 0 ≤ 11) && (upTo (5 + c.f 3 3 0) (11 - c.f 3 3 0)).all (fun i => decide (c.dw i = 0))
  | 0x20 =>
    let r := (c.dw 3).toNat
    (decide (r = 0) || (decide (10 ≤ r) && decide (r ≤ 20000))) && decide ((c.dw 4).toNat ≤ (c.dw 2).toNat)
  | 0x21 => c.f 2 5 5 = 0 || (decide (c.f 2 4 0 = 0) && decide (c.val64 4 = 0))
  | 0x22 => c.f 2 5 5 = 0 || (decide (c.f 2 4 0 = 0) && decide (c.val64 4 = 0))
  | 0x29 =>
    (match c.f 2 1 0 with
     | 2 => !c.admin && decide (c.addr 4 % 4096 = 0) && ringSize (c.dw 6).toNat 20
     | 3 => decide (c.addr 4 % 4096 = 0) && ringSize (c.dw 6).toNat 24
     | _ => true)
  | 0x30 => decide (1 ≤ c.f 2 3 0) && decide (c.f 2 3 0 ≤ 3)
  | 0x38 => decide (c.addr 2 % 64 = 0)
  | 0x40 => decide (c.f 5 1 0 ≤ 1) && decide ((c.dw 4).toNat ≤ if c.f 5 1 0 = 0 then 0x1000000 else 0x10000)
  | 0x48 => decide (256 ≤ (c.dw 4).toNat)
  | _ => true

/-- The regions that a PARK or UNPARK names (R276, R283). -/
def State.namedRegions (s : State) (c : Cmd) : List Nat :=
  if c.f 2 5 5 = 1 then ((mfind s.parts c.part).map (·.regions)).getD []
  else
    let base := c.f 2 2 0 * 256 + c.f 2 3 3 * 128 + c.f 2 4 4 * 64
    ((upTo 0 64).filter (fun k => (c.val64 4).testBit k)).map (fun k => base + k)

/-- The sites that a command names by SITE and ALL: those that serve the partition, or any of the part for an admin queue. -/
def State.namedSites (s : State) (c : Cmd) (site : Nat) (all : Bool) : List Nat :=
  if all then (if c.admin then upTo 0 s.sites else s.partCores c.part) else [site]

/-- The sites of a LOCALIZE (R276). -/
def Cmd.localSites (c : Cmd) : List Nat := upTo (c.f 2 11 0) (c.f 2 20 12)

/-- Bytes of the full health report (R393). -/
def State.healthLength (s : State) : Nat := 64 + 16 * s.stacks + 16 * s.health.entries.length

/-- Whether the issuing partition holds what a command names (R277 check 5). -/
def State.holds (s : State) (c : Cmd) : Bool :=
  let p := c.part
  match c.opcode with
  | 0x01 => s.inRanges p c.codeBase (8 * c.codeLen)
  | 0x02 =>
    ((c.dw 8).getLsbD 16 || s.inRanges p (c.addr 2) (c.val64 6)) && ((c.dw 8).getLsbD 15 || s.inRanges p (c.addr 4) (c.val64 6))
  | 0x03 => s.inRanges p (c.addr 2) (c.val64 4)
  | 0x04 =>
    (c.xpose.rowsIn ++ c.xpose.rowsOut).all (fun r => s.reach p r.1 r.2)
  | 0x05 => s.inRanges p (c.addr 2) (c.val64 6) && s.inRanges p (c.addr 4) (c.val64 6)
  | 0x10 => s.inRanges p (c.addr 2) (c.f 4 23 0 * 65536)
  | 0x12 => c.localSites.all (fun i => decide (i < s.sites) && decide (s.regionPart (regionOf i) = some p))
  | 0x1C => c.f 3 0 0 = 1 || s.inRanges p (c.addr 4) 64
  | 0x21 => (s.namedRegions c).all (fun r => decide (s.regionPart r = some p))
  | 0x22 => (s.namedRegions c).all (fun r => decide (s.regionPart r = some p))
  | 0x28 =>
    let sites := s.namedSites c (c.f 4 11 0) (decide (c.f 4 12 12 = 1))
    sites.all (fun i => decide (i < s.sites) && (c.admin || decide (s.corePart i = some p))) &&
      (c.admin || s.inRanges p (c.addr 2) (256 * sites.length))
  | 0x29 =>
    (match c.f 2 1 0 with
     | 2 => (c.dw 6).toNat = 0 || s.inRanges p (c.addr 4) (256 * (c.dw 6).toNat)
     | 3 => c.admin || (c.dw 6).toNat = 0 || s.inRanges p (c.addr 4) (32 * (c.dw 6).toNat)
     | _ => true)
  | 0x30 =>
    c.f 3 16 16 = 1 || (decide (c.f 3 11 0 < s.sites) && (c.admin || decide (s.corePart (c.f 3 11 0) = some p)))
  | 0x48 => c.admin || s.inRanges p (c.addr 2) (min (c.dw 4).toNat s.healthLength)
  | _ => true

/-- Whether the part has raised READY (R408, R410). -/
def State.partReady (s : State) : Bool := s.rgB (.pwr 0) 0x040 4

/-- Whether a block of a LAUNCH fits on an empty core at width 32 (R93). -/
def Cmd.fits (c : Cmd) : Bool := decide (cdiv c.threads 32 * (cdiv c.nregs 8 * 256) ≤ 65536)

/-- The status of the first check that a command fails (R277, R93). -/
def State.refusal (s : State) (c : Cmd) : Option Nat :=
  if !(partOnly ++ bothQueues ++ adminOnly).contains c.opcode then some 0x01
  else if (c.admin && partOnly.contains c.opcode) || (!c.admin && adminOnly.contains c.opcode) then some 0x03
  else if c.admin && !s.partReady && !([0x00, 0x30, 0x40, 0x48].contains c.opcode) then some 0x05
  else if !(c.bitsOk && c.rangesOk) then some 0x02
  else if !s.holds c then some 0x04
  else if decide (c.opcode = 1) && !c.fits then some 0x06
  else none

/-! ## Fetch (R268 to R270, R273) -/

/-- Dwords of little-endian bytes. -/
def dwordsOf : Nat → List Byte → List W32
  | 0, _ => []
  | n + 1, bs => BitVec.ofNat 32 (ofBytes (bs.take 4)) :: dwordsOf n (bs.drop 4)

/-- Whether the part may fetch the next entry of a queue (R265, R269, R287). -/
def State.mayFetch (s : State) (port qi : Nat) : Bool :=
  let q := s.queue port qi
  s.queueLive port qi && ((s.queue port qi).sqDev || s.linkUp port) && !(s.port port).d3hot && decide (q.sqHead ≠ q.sqTail) &&
    decide (q.inflight + (q.cqTail + q.size - q.cqHead) % q.size < q.size)

/-- The deadline of a command in device time (R273, R280): none for an admin queue's or a SELFTEST. -/
def State.deadlineOf (s : State) (c : Cmd) : Option Nat :=
  if c.admin || decide (c.opcode = 0x30) then none
  else
    let own := if c.opcode = 1 then (c.dw 12).toNat else 0
    let ms := if own = 0 then ((mfind s.parts c.part).map (·.timeoutMs)).getD 10000 else own
    some (s.time.now + ms * 250000)

/-- A command as its packet arrives: acceptance (R422: its cores are the enabled ones of its partition that are not parked). -/
def State.accept (s : State) (port qi slot : Nat) (pkt : List W32) : Cmd :=
  let c : Cmd :=
    { cid := s.nextCid, port := port, queue := qi, admin := decide (1024 ≤ qi), part := if qi < 1024 then qi / 64 else 0
      pkt := pkt, slot := slot, accepted := s.timeOf (s.part.grade.hostPort port).1, started := s.timeOf (s.part.grade.hostPort port).1, deadline := none, held := 0
      heldRemote := 0, phase := .accepted, status := 0, result := 0, detail := none, nextBlock := 0, blocksDone := 0, exited := []
      cores := [], launched := [], ordered := [], acked := [], startVals := [], endVals := [], cleared := false
      recovered := false, poisoned := false, replay := [], pieces := [], sentPiece := none, engines := [], replyAt := none, retried := [], bounded := 0, recIndex := 0xFFFFFFFF#32
      segs := s.fab.segs, code := [], codePoison := [], begun := false }
  let c := { c with deadline := s.deadlineOf c }
  if c.opcode = 1 ∧ c.admin = false then
    { c with cores := (s.partCores c.part).filter (fun i => !s.coreParked i) }
  else c

/-- A read of the next entry of a queue goes to the host, while fewer than 4,096 of its port are under way (R252, R289). -/
def State.askHost (s : State) (port qi : Nat) : State :=
  let p := s.port port
  if 4096 ≤ p.reads.length then s.stall (.queue port qi) (.hostReads port)
  else (s.unstall (.queue port qi)).setPort port { p with reads := p.reads ++ [qi] }

/-- A packet arrives: the command is accepted (R211, R266, R272). An opcode that no row has is refused here. -/
def State.arrives (s : State) (port queue : Nat) (bs : List PByte) : State :=
  let q := s.queue port queue
  let c := s.accept port queue q.sqHead (dwordsOf 16 (bs.map (·.1)))
  let s := { s with cmds := s.cmds ++ [c], nextCid := s.nextCid + 1 }
  let s := s.setQueue port queue { q with sqHead := (q.sqHead + 1) % q.size, inflight := q.inflight + 1 }
  if bs.any (·.2) then s.consumePort c.cid port
  else if (partOnly ++ bothQueues ++ adminOnly).contains c.opcode then s else s.finish c.cid 0x01 0

/-- COMMAND_FETCH (R211, R252, R266, R269, R272): its first event sends the read of an entry, to the host or to its place in device memory; a
later one, with the entry to hand, is the packet's arrival, which is acceptance. The checks of R277 follow when a command starts. -/
def execCommandFetch (port queue : Nat) (readFails : Bool) (s : State) : Out :=
  if 4 ≤ port then .next s
  else if !s.mayFetch port queue then .next s
  else if 4096 ≤ s.cmds.length then .next (s.stall (.queue port queue) .commands)
  else
    let q := s.queue port queue
    let a := q.sqBase + 64 * q.sqHead
    if q.sqDev then
      let e := s.ringEng port queue
      let s := s.unstall (.queue port queue)
      match s.gatherOne e (.here a 64) with
      | .data bs => .next ((s.used e).arrives port queue bs)
      | _ => .next ((s.queueRead e a 64).sendQueued noSite)
    else if !(s.port port).reads.contains queue then .next (s.askHost port queue)
    else
      let s := (s.unstall (.queue port queue)).endRead port queue
      if readFails then .next (s.stopQueue port queue 2)
      else .next ((s.hostRx port 64).arrives port queue ((s.hostBytes port a 64).map (fun b => (b, false))))

/-! ## The start of a command (R271, R272) -/

/-- Whether an earlier command of a queue lets the next one start (R272, R276): it has started, placed its blocks where it is a
LAUNCH, and is over where it is a WAIT or a FENCE. -/
def Cmd.lets (d : Cmd) : Bool :=
  let going := d.phase == .accepted || d.phase == .running
  if !going then true
  else d.begun && !(d.opcode == 9 || d.opcode == 10) && (d.opcode != 1 || decide (d.blocks ≤ d.nextBlock))

/-- Earlier commands of a command's queue that have not written their reply. -/
def State.earlier (s : State) (c : Cmd) : List Cmd :=
  s.cmds.filter (fun d => d.port == c.port && d.queue == c.queue && decide (d.cid < c.cid) && !s.replyWritten d)

/-- Whether a command may start: BARRIER and SIGNAL wait for every earlier reply (R271, R272, R276). -/
def State.canStart (s : State) (c : Cmd) : Bool :=
  if c.flag 10 || decide (c.opcode = 8) then (s.earlier c).isEmpty else (s.earlier c).all Cmd.lets

/-- A command starts: the index of its record and the trace record of its start are taken (R274, R426). -/
def State.begin (s : State) (cid : Nat) : State :=
  let s := s.modCmd cid (fun c => { s.keepCode c with begun := true, phase := .running, started := s.timeOf (s.cpStack c) })
  let s := s.takeIndex cid
  match s.cmd? cid with
  | some c => s.traceCmd c 0 1 0
  | none => s

/-- A row of an opcode: in its turn the command meets the checks of R277 and ends at once where one fails, else it starts; its
body runs then and at each later event of the row while it is running. -/
def runCmd (s : State) (cid : Nat) (ok : Cmd → Bool) (body : State → Cmd → State) : Out :=
  match s.cmd? cid with
  | none => .next s
  | some c =>
    if !ok c then .next s
    else if c.phase = .accepted then
      if !s.canStart c then .next s
      else
        match s.refusal c with
        | some st => .next (s.finish cid st 0)
        | none =>
          let s := s.begin cid
          .next (match s.cmd? cid with | some c => body s c | none => s)
    else if c.phase = .running then .next (body s c)
    else .next s

/-- An opcode's row. -/
def isOp (n : Nat) (c : Cmd) : Bool := decide (c.opcode = n)

/-- Whether a request of a command is to give up now: its report goes before the timeout (R249, R254). -/
def State.givingUp (s : State) (cid : Nat) : Bool :=
  s.net.reqs.any (fun r => r.cid == cid && r.remote.isNone && !r.ended && !r.held && r.attempt == 2 && decide (r.sentAt + 15000 ≤ s.time.now))

/-- COMMAND_TIMEOUT (R249, R254, R273): held while the command is being recovered. A command that comes to its end with accesses or staged
reductions outstanding may still run out of time before its end boundary. -/
def execCommandTimeout (cid : Nat) (s : State) : Out :=
  match s.cmd? cid with
  | none => .next s
  | some c =>
    match c.deadline with
    | none => .next s
    | some d =>
      let out := Detail.plain s (s.cpStack c) 4 0
      .next (if s.time.now < d ∨ c.replay ≠ [] ∨ s.givingUp cid = true then s
        else if c.phase = .ending ∧ c.begun = true ∧ c.status = 0 ∧ c.detail.isNone = true then
          s.setCmd { c with status := 0x14, detail := some out }
        else if c.phase = .accepted ∨ c.phase = .running ∨ c.phase = .ending then s.endCmd cid 0x14 out
        else s)

end Sys2Proof.Machine
end

