-- ==== Sys2Proof/Machine/CmdRun.lean ====
section
/-! DEFINITION. The commands that compute and copy, and those that order queues: NOP, LAUNCH, COPY, FILL, REDUCE, TRANSPOSE, SIGNAL,
WAIT, FENCE (R92, R160 to R165, R176, R192, R210 to R213, R272, R276, R278, R279, R290, R381, R386, R387). COPY, FILL and
REDUCE work piece by piece, one piece of 64 KiB of destination at each event of their row. -/

namespace Sys2Proof.Machine

/-- NOP (R276). -/
def execNopCommand (cid : Nat) (s : State) : Out := runCmd s cid (isOp 0x00) (fun t _ => t.finish cid 0 0)

/-- LAUNCH (R92, R93, R96, R272): the command starts; its launch messages and blocks follow. -/
def execLaunch (cid : Nat) (s : State) : Out := runCmd s cid (isOp 0x01) (fun t _ => t)

/-! ## Pieces (R279, R381, R387) -/

/-- Bytes of a piece. -/
def pieceBytes : Nat := 65536

/-- Whether a command is still running. -/
def State.stillRuns (s : State) (cid : Nat) : Bool := ((s.cmd? cid).map (fun c => c.phase == .running)).getD false

/-- A piece is done: the next one follows, or the command ends. -/
def State.pieceDone (s : State) (c : Cmd) (total : Nat) : State :=
  if !s.stillRuns c.cid then s
  else
    let s := s.modCmd c.cid (fun d => { d with nextBlock := d.nextBlock + 1, sentPiece := none })
    if total ≤ (c.nextBlock + 1) * pieceBytes then s.finish c.cid 0 0 else s

/-- The next piece of a command: its offset and its length. -/
def Cmd.piece (c : Cmd) (total : Nat) : Nat × Nat := (c.nextBlock * pieceBytes, min pieceBytes (total - c.nextBlock * pieceBytes))

/-- A piece consumes poison (R212, R387): it is replayed once where the command is not NO_REPLAY, else the command ends. -/
def State.pieceEats (s : State) (c : Cmd) (i port : Nat) : State :=
  if !c.flag 8 && !c.retried.contains i then
    (s.modCmd c.cid (fun d => { d with retried := insNat d.retried i, recovered := true, sentPiece := none })).traceCoppice
      (s.cpStack c) (some c.part) 8 3 0xFFF 0xFFF
  else s.consumePort c.cid port

/-- The runs of [a, a + n) under a command's segments (R296). -/
def Cmd.runs (c : Cmd) (a n : Nat) : List Piece := (pagePieces a n).map (fun x => devPiece c.segs c.part x.1 x.2)

/-- PORT of a detail entry for the fabric port that leads to a part (R275). -/
def State.portOf (s : State) (dst : Nat) : Nat := match s.routePort dst with | some j => 16 + j | none => 0xFF

/-- The part that poisoned bytes of runs come from or go to, if they do. -/
def awayPoison : List Piece → List PByte → Option Nat
  | [], _ => none
  | .away dst _ _ n :: ps, bs => if (bs.take n).any (·.2) then some dst else awayPoison ps (bs.drop n)
  | .here _ n :: ps, bs => awayPoison ps (bs.drop n)
  | _ :: ps, bs => awayPoison ps bs

/-- A piece of a command asks for its source, sends its destination's accesses once all of that is to hand, and is done when they have all been
acknowledged (R192, R279, R381). Poison from or for another part is consumed (R211). -/
def State.movePiece (s : State) (c : Cmd) (total : Nat) (src dst : List Piece) (send : State → List PByte → State) : State :=
  let e := s.cmdEng c
  if c.sentPiece = some c.nextBlock then (if s.engBusy e then s else s.pieceDone c total)
  else
    match s.gather e src with
    | .data bs =>
      let s := s.used e
      (match awayPoison src bs, awayPoison dst bs with
       | none, none => (send (s.modCmd c.cid (fun d => { d with sentPiece := some d.nextBlock })) bs).sendQueued noSite
       | some p, _ => s.pieceEats c c.nextBlock (s.portOf p)
       | none, some p => s.pieceEats c c.nextBlock (s.portOf p))
    | .wait => s.ask e src
    | _ => (s.used e).unrecovered c.cid 8 0xFFF

/-! ## COPY (R192, R211, R276, R279) -/

/-- COPY (R192, R203, R210, R211, R276, R279, R381, R386 to R388). -/
def execCopy (cid : Nat) (s : State) : Out :=
  runCmd s cid (isOp 0x02) (fun t c =>
    let n := c.val64 6
    let (o, k) := c.piece n
    let a := c.addr 2
    let b := c.addr 4
    let far (x : Nat) : List Piece := (pagePieces x k).map (fun y => Piece.away (c.f 8 14 0) (c.f 8 23 20) y.1 y.2)
    let src := if (c.dw 8).getLsbD 16 then far (a + o) else c.runs (a + o) k
    let dst := if (c.dw 8).getLsbD 15 && !(c.dw 8).getLsbD 16 then far (b + o) else c.runs (b + o) k
    if !(c.dw 8).getLsbD 16 && !(c.dw 8).getLsbD 15 && meets a n b n then t.finish cid 0x02 0
    else t.movePiece c n src dst (fun u bs => u.scatter (t.cmdEng c) dst bs))

/-! ## FILL, REDUCE -/

/-- A byte list repeated n times. -/
def repeatBytes (bs : List Byte) : Nat → List Byte
  | 0 => []
  | n + 1 => bs ++ repeatBytes bs n

/-- FILL (R276, R381). -/
def execFill (cid : Nat) (s : State) : Out :=
  runCmd s cid (isOp 0x03) (fun t c =>
    let n := c.val64 4
    let (o, k) := c.piece n
    let dst := c.runs (c.addr 2 + o) k
    t.movePiece c n [] dst (fun u _ =>
      u.scatter (t.cmdEng c) dst ((repeatBytes (toBytes 8 (c.val64 6)) (k / 8)).map (fun b => (b, false)))))

/-- The reductions of bytes of operands at a place of this part, cut at line boundaries; those of an ordered command carry the number of their
first element, which is i at the address itself (R160, R162). -/
def State.queueReduce (s : State) (e : Eng) (op : Nat) (ordered : Bool) (i a : Nat) (bs : List PByte) : State :=
  let z := reduceSize op
  (linePieces a bs.length).foldl (fun t x =>
    let d := (bs.drop (x.1 - a)).take x.2
    t.enter { e.req (.reduce op) none x.1 x.2 with
      line := d.map (·.1), lpois := (upTo 0 (x.2 / z)).map (fun j => ((d.drop (z * j)).take z).any (·.2))
      red := if ordered then some (0, 0, i + (x.1 - a) / z) else none }) s

/-- A piece of a REDUCE goes to its destination's runs, the bytes from offset o of the command on. -/
def State.reduceRuns (s : State) (e : Eng) (op : Nat) (ordered : Bool) : Nat → List Piece → List PByte → State
  | _, [], _ => s
  | o, .here a n :: ps, bs =>
    (s.queueReduce e op ordered (o / reduceSize op) a (bs.take n)).reduceRuns e op ordered (o + n) ps (bs.drop n)
  | o, .away dst part a n :: ps, bs =>
    (s.queueAway e (.reduce op) dst part a ((bs.take n).map (·.1))).reduceRuns e op ordered (o + n) ps (bs.drop n)
  | o, _ :: ps, bs => s.reduceRuns e op ordered o ps bs

/-- REDUCE (R160 to R163, R203, R276, R279, R381). -/
def execReduce (cid : Nat) (s : State) : Out :=
  runCmd s cid (isOp 0x05) (fun t c =>
    let n := c.val64 6
    let (o, k) := c.piece n
    let dst := c.runs (c.addr 4 + o) k
    if meets (c.addr 2) n (c.addr 4) n then t.finish cid 0x02 0
    else t.movePiece c n (c.runs (c.addr 2 + o) k) dst (fun u bs => u.reduceRuns (t.cmdEng c) (c.f 8 3 0) (c.flag 9) o dst bs))

/-! ## TRANSPOSE (R164, R165, R176, R210) -/

/-- The code of source element (r, k) with its poison (R49). -/
def State.xposeCode (s : State) (x : Xpose) (r k : Nat) : Nat × Bool :=
  let b := xposeBits x.elem
  let a := x.src + r * x.sstr + k * b / 8
  let n := if b = 4 then 1 else b / 8
  let v := s.num a n
  (if b = 4 then v / 16 ^ (k % 2) % 16 else v, s.poisoned a n)

/-- The exact value of an MX element of the source (R31, R38, R165): element × 2^σ, with its poison. -/
def State.xposeVal (s : State) (x : Xpose) (r k : Nat) : FV × Bool :=
  let (c, p) := s.xposeCode x r k
  let a := x.src + (x.rows + r / 32) * x.sstr + k
  let sc := s.num a 1
  let sg : Int := (sc : Int) - 127
  let v : FV :=
    if sc = 255 then .nan
    else
      match (if x.elem = 8 then FV.fin (decide (sint 8 c < 0)) (sint 8 c).natAbs (-6) else elemVal x.elem c) with
      | .fin n m e => .fin n m (e + sg)
      | v => v
  (v, p || s.poisoned a 1)

/-- The group g of source row r as the destination encodes it (R75, R165): values 32g on, the scale code, the poison. -/
def State.xposeGroup (s : State) (x : Xpose) (r g : Nat) : List FV × Nat × Bool :=
  let vs := (upTo (32 * g) (min 32 (x.cols - 32 * g))).map (s.xposeVal x r)
  (vs.map (·.1), mxScaleFV x.elem (vs.map (·.1)), vs.any (·.2))

/-- Row k of the destination: the column k of the source, or a row of scales. `pad` completes a last half byte. -/
def State.xposeRow (s : State) (x : Xpose) (pad k : Nat) : List PByte :=
  if x.cols ≤ k then
    (upTo 0 x.rows).map (fun r => let (_, sc, p) := s.xposeGroup x r (k - x.cols); (BitVec.ofNat 8 sc, p))
  else
    packCodes (xposeBits x.elem) pad ((upTo 0 x.rows).map (fun r =>
      if xposeMx x.elem then
        let (vs, sc, p) := s.xposeGroup x r (k / 32)
        (if mxAllZero vs then 0 else (mxElemFV x.elem sc (nth .nan vs (k % 32))).1, p)
      else s.xposeCode x r k))

/-- The runs of a piece: destination row, offset in the row, address, length. -/
def Xpose.runs (x : Xpose) (i : Nat) : List (Nat × Nat × Nat × Nat) :=
  ((upTo 0 x.rowsOut.length).zip x.rowsOut).filterMap (fun r =>
    let lo := max r.2.1 (i * 4096)
    let hi := min (r.2.1 + r.2.2) ((i + 1) * 4096)
    if lo < hi then some (r.1, lo - r.2.1, lo, hi - lo) else none)

/-- The source bytes, address and length, that a run of a destination row is made from: of each source row that it covers one element, or for
MX data the 32 elements of a group with their scales (R49, R165). -/
def Xpose.reads (x : Xpose) (k o n : Nat) : List (Nat × Nat) :=
  let bits := if k < x.cols then xposeBits x.elem else 8
  let r0 := o * 8 / bits
  let rs := upTo r0 (min x.rows (cdiv ((o + n) * 8) bits) - r0)
  let c0 := if x.cols ≤ k then 32 * (k - x.cols) else if xposeMx x.elem then k / 32 * 32 else k
  let m := if xposeMx x.elem then min 32 (x.cols - c0) else 1
  rs.flatMap (fun r => (x.src + r * x.sstr + c0 * xposeBits x.elem / 8, cdiv (m * xposeBits x.elem) 8) ::
    (if xposeMx x.elem then [(x.src + (x.rows + r / 32) * x.sstr + c0, m)] else []))

/-- A transpose engine of a half as it reads and writes for a command: its accesses enter where its command processor's do (DESIGN CHOICE, log
entry 158). -/
def State.xposeEng (s : State) (c : Cmd) (h e : Nat) : Eng := { s.cmdEng c with lane := s.homeCp c + 64 * (1 + 2 * h + e) }

/-- The source bytes that a piece reads: address and length. -/
def Xpose.readsOf (x : Xpose) (i : Nat) : List (Nat × Nat) := (x.runs i).flatMap (fun r => x.reads r.1 r.2.1 r.2.2.2)

/-- The part as the engine has read a piece's source, where all of it is to hand. -/
def State.xposeFound (s : State) (c : Cmd) (e : Eng) (rs : List (Nat × Nat)) : Option State :=
  rs.foldl (fun f r =>
    match f, s.gather e (c.runs r.1 r.2) with
    | some t, .data bs => some (t.overlay r.1 bs)
    | _, _ => none) (some s)

/-- A piece of a TRANSPOSE is written; every byte comes from the source as the engine found it. -/
def State.xposeWrite (s : State) (c : Cmd) (e : Eng) (x : Xpose) (i : Nat) (found : State) : State :=
  let pad := (Config.freeWord s.drawn).toNat
  let t : State := { s with drawn := s.drawn + 1 }
  (x.runs i).foldl (fun t r =>
    let (k, o, a, n) := r
    t.scatter e (c.runs a n) (((found.xposeRow x pad k).drop o).take n)) t

/-- TRANSPOSE (R164, R279): the footprints are checked and the pieces handed to the engines. -/
def execTranspose (cid : Nat) (s : State) : Out :=
  runCmd s cid (isOp 0x04) (fun t c =>
    let x := c.xpose
    if meets x.src (matrixSpan x.elem x.rows x.cols x.sstr) x.dst x.span then t.finish cid 0x02 0
    else t.xposeSyncAll c)

/-- A piece is done by an engine of half h; the command ends with its last (R177). -/
def State.xposeDone (s : State) (c : Cmd) (x : Xpose) (h k i : Nat) : State :=
  let s := s.bump64 (.sc h) 0x170 ((x.runs i).map (fun r => r.2.2.2)).sum
  let s := s.modCmd c.cid (fun d => { d with pieces := insNat d.pieces i, engines := d.engines.filter (fun y => y.1 != k) })
  if x.chunks.all (fun j => j == i || c.pieces.contains j) then s.finish c.cid 0 0 else s

/-- An engine works on the piece that it has: it asks for the source, writes the destination, and is done when that has been acknowledged (R164,
R192). -/
def State.xposeWork (s : State) (c : Cmd) (x : Xpose) (h en i : Nat) (written : Bool) : State :=
  let e := s.xposeEng c h en
  let k := 2 * h + en
  if written then (if s.engBusy e then s else s.xposeDone c x h k i)
  else
    match s.xposeFound c e (x.readsOf i) with
    | none => (x.readsOf i).foldl (fun t r => t.ask e (c.runs r.1 r.2)) s
    | some found =>
      ((s.used e).xposeWrite c e x i found).modCmd c.cid (fun d => { d with
        engines := d.engines.map (fun y => if y.1 = k then (k, i, true) else y) })

/-- An engine's parity fails (R176, R373, R386): its share, the piece that it has among it, goes to the other engine of the half. -/
def State.xposeFault (s : State) (c : Cmd) (h e : Nat) : State :=
  let s := (s.wgB (.sc h) (0x2000 + 4 * e) 2 true).used (s.xposeEng c h e)
  if c.flag 8 then s.unrecovered c.cid 1 0xFFF
  else
    let s := s.modHalf h (fun y => { y with xposeBusy := insNat (delNat y.xposeBusy (c.cid * 2 + (1 - e))) (c.cid * 2 + e) })
    (s.modCmd c.cid (fun d => { d with recovered := true, engines := d.engines.filter (fun y => y.1 != 2 * h + e) })).traceCoppice
      (s.cpStack c) (some c.part) 10 3 0xFFF 0xFFF

/-- TRANSPOSE_PIECE (R164, R165, R176, R381): an engine goes on with the piece that it has, or takes the lowest piece homed in its half that
neither is done nor another engine's. -/
def execTransposePiece (cid half engine : Nat) (fault : Bool) (s : State) : Out :=
  if s.devices ≤ half ∨ 2 ≤ engine then .next s
  else
    match s.cmd? cid with
    | none => .next s
    | some c =>
      let x := c.xpose
      let k := 2 * half + engine
      if c.opcode = 4 ∧ c.begun = true ∧ c.phase = .running ∧ (s.half half).xposeBusy.contains (cid * 2 + engine) = false then
        let t :=
          if fault then s.xposeFault c half engine
          else
            match c.engines.find? (fun y => y.1 == k) with
            | some y => s.xposeWork c x half engine y.2.1 y.2.2
            | none =>
              (match x.chunks.find? (fun i => !c.pieces.contains i && s.xposeHalf i == half && c.engines.all (fun y => y.2.1 != i)) with
               | none => s
               | some i =>
                 (s.modCmd cid (fun d => { d with engines := d.engines ++ [(k, i, false)] })).xposeWork c x half engine i false)
        .next (t.xposeSyncAll c)
      else .next s

/-! ## SIGNAL, WAIT, FENCE (R276, R278, R290) -/

/-- A semaphore of a partition. -/
def State.sem (s : State) (p i : Nat) : Nat := ((mfind s.parts p).map (fun q => mget 0 q.sems i)).getD 0

/-- Set a semaphore. -/
def State.setSem (s : State) (p i v : Nat) : State :=
  { s with parts := mmod s.parts p (fun q => { q with sems := mset 0 q.sems i v }) }

/-- Whether a command is a WAIT whose semaphore has reached its value. -/
def State.waitMet (s : State) (c : Cmd) : Bool := isOp 0x09 c && decide (c.val64 4 ≤ s.sem c.part (c.f 2 7 0))

/-- Every WAIT that has started and whose semaphore has reached its value ends (R276, R290). -/
def State.releaseWaits (s : State) : State :=
  (s.cmds.filter (fun c => c.begun && c.phase == .running && s.waitMet c)).foldl (fun t c => t.finish c.cid 0 0) s

/-- SIGNAL (R276, R290): it starts after every earlier reply of its queue. -/
def execSignal (cid : Nat) (s : State) : Out :=
  runCmd s cid (isOp 0x08) (fun t c =>
    let i := c.f 2 7 0
    let v := c.val64 4
    let t := t.setSem c.part i (if (c.dw 2).getLsbD 8 then (t.sem c.part i + v) % 2 ^ 64 else v)
    (t.finish cid 0 0).releaseWaits)

/-- WAIT (R276). -/
def execWait (cid : Nat) (s : State) : Out :=
  runCmd s cid (isOp 0x09) (fun t c => if t.waitMet c then t.finish cid 0 0 else t)

/-- FENCE (R276): every command accepted earlier on its queue, or on every queue of its partition, has replied. -/
def execFenceCommand (cid : Nat) (s : State) : Out :=
  runCmd s cid (isOp 0x0A) (fun t c =>
    let before := t.cmds.filter (fun d => decide (d.cid < cid) && !d.admin && d.part == c.part && !t.replyWritten d &&
      ((c.dw 2).getLsbD 0 || d.queue == c.queue))
    if before.isEmpty then t.finish cid 0 0 else t)

end Sys2Proof.Machine
end

