-- ==== Sys2Proof/Machine/CmdCtx.lean ====
section
/-! DEFINITION. The context commands (R193 to R200, R276, R452). -/

namespace Sys2Proof.Machine

/-- A context descriptor (R194). -/
structure Desc where
  valid : Bool
  part : Nat
  gen : Nat
  length : Nat
  pages : Nat
  list : Nat
  updated : Nat
  user : List Byte
deriving DecidableEq, Repr

/-- The descriptor of context c as the directory holds it. -/
def State.desc (s : State) (c : Nat) : Desc :=
  let d := s.descAddr c
  let w := s.num d 4
  ⟨decide (w % 2 = 1), fld 4 1 w, fld 31 16 w, fld 28 0 (s.num (d + 4) 4), fld 12 0 (s.num (d + 8) 4), fld 47 0 (s.num (d + 16) 8),
    s.num (d + 24) 8, s.bytes (d + 32) 32⟩

/-- The 64 bytes of a descriptor. -/
def Desc.bytes (d : Desc) : List Byte :=
  toBytes 4 ((if d.valid then 1 else 0) + d.part * 2 + d.gen * 65536) ++ toBytes 4 d.length ++ toBytes 4 d.pages ++ toBytes 4 0 ++
    toBytes 8 d.list ++ toBytes 8 d.updated ++ d.user

/-- Firmware writes a descriptor for a command, at the present device time (R193, R194). -/
def State.setDesc (s : State) (c : Cmd) (x : Nat) (d : Desc) : State :=
  s.cpWrite c (s.descAddr x) { d with updated := s.timeOf (s.cpStack c) }.bytes

/-- Valid contexts of a partition and of the part change (R200). -/
def State.ctxCount (s : State) (p : Nat) (up : Bool) : State :=
  let f (n : Nat) : Nat := if up then n + 1 else n - 1
  (s.wgF (.ctx 0) 0x000 20 0 (f (s.rgF (.ctx 0) 0x000 20 0))).wgF (.ctx 0) (0x104 + 8 * p) 20 0
    (f (s.rgF (.ctx 0) (0x104 + 8 * p) 20 0))

/-- The address of the entry of page i in its leaf (R195). -/
def Desc.entryAddr (d : Desc) (i : Nat) : Nat := d.list + 512 * (i / 64 + 1) + 8 * (i % 64)

/-- Write entry i of a context for a page, with the root entry of its leaf (R195). -/
def State.mapPage (s : State) (c : Cmd) (d : Desc) (i page : Nat) : State :=
  (s.cpWrite c (d.list + 8 * (i / 64)) (toBytes 8 (d.list + 512 * (i / 64 + 1) + 1))).cpWrite c (d.entryAddr i)
    (toBytes 8 (page * 65536 + 1))

/-- Clear every leaf entry from page from_ on that holds anything, and the root entries of leaves with no page left (R195, R198). -/
def State.unmapPages (s : State) (c : Cmd) (d : Desc) (from_ : Nat) : State :=
  let s := ((upTo from_ (4096 - from_)).filter (fun i => s.num (d.entryAddr i) 8 != 0 || s.poisoned (d.entryAddr i) 8)).foldl
    (fun t i => t.cpWrite c (d.entryAddr i) (toBytes 8 0)) s
  (upTo (cdiv from_ 64) (64 - cdiv from_ 64)).foldl (fun t j => t.cpWrite c (d.list + 8 * j) (toBytes 8 0)) s

/-- Cores that serve a partition drop their kept translations (R197). -/
def State.dropXlats (s : State) (p : Nat) : State :=
  (s.partCores p).foldl (fun t i => t.modCore i (fun k => { k with trans := [] })) s

/-- Whether every earlier command of a partition has passed its end boundary (R199). -/
def State.earlierBounded (s : State) (c : Cmd) : Bool :=
  s.cmds.all (fun d => !(decide (d.cid < c.cid) && !d.admin && d.part == c.part) || d.phase == .bounded || d.phase == .replied)

/-- Whether an earlier context command of a command's partition has writes still to be performed. -/
def State.ctxWriting (s : State) (c : Cmd) : Bool :=
  s.cmds.any (fun d => decide (d.cid < c.cid) && !d.admin && d.part == c.part && decide (0x18 ≤ d.opcode) && decide (d.opcode ≤ 0x1C) &&
    s.accessing d.cid none)

/-- A context command reads its descriptor, behind the writes of those before it; it consumes a poisoned one (R452), else `body` runs with the
descriptor. -/
def runCtx (s : State) (cid op : Nat) (wait : Bool) (body : State → Cmd → Nat → Desc → State) : Out :=
  runCmd s cid (isOp op) (fun t c =>
    let x := c.f 2 19 0
    let e := t.cmdEng c
    let a := t.descAddr x
    if (wait && !t.earlierBounded c) || t.ctxWriting c then t
    else
      match t.gatherOne e (.here a 64) with
      | .data bs =>
        let t := t.used e
        if bs.any (·.2) then t.consumePort cid c.port else body t c x ((t.overlay a bs).desc x)
      | _ => (t.queueRead e a 64).sendQueued noSite)

/-- Whether a descriptor is a valid context of a command's partition (R198). -/
def Desc.mine (d : Desc) (c : Cmd) : Bool := d.valid && d.part == c.part

/-- CTX_CREATE (R198 to R200). -/
def execCtxCreate (cid : Nat) (s : State) : Out :=
  runCtx s cid 0x18 false (fun t c x d =>
    let list := c.addr 4
    if d.valid then t.finish cid 0x28 0
    else if t.rgF (.ctx 0) (0x100 + 8 * c.part) 20 0 ≤ t.rgF (.ctx 0) (0x104 + 8 * c.part) 20 0 then t.finish cid 0x29 0
    else if list % 512 ≠ 0 ∨ t.inRanges c.part list 33280 = false then t.finish cid 0x2A 0
    else
      let t := t.setDesc c x ⟨true, c.part, (d.gen + 1) % 65536, 0, 0, list, 0, (upTo 6 8).flatMap (fun i => toBytes 4 (c.dw i).toNat)⟩
      ((t.cpWrite c list (List.replicate 512 0)).ctxCount c.part true).finish cid 0 0)

/-- CTX_APPEND (R195, R198, R199). -/
def execCtxAppend (cid : Nat) (s : State) : Out :=
  runCtx s cid 0x19 false (fun t c x d =>
    let k := c.f 3 3 0
    let len := c.f 4 28 0
    let pages := (upTo 0 k).map (fun i => (c.dw (5 + i)).toNat)
    if !d.mine c then t.finish cid 0x2B 0
    else if 4096 < d.pages + k ∨ len < d.length ∨ 65536 * (d.pages + k) < len then t.finish cid 0x2C 0
    else if pages.any (fun p => !t.inRanges c.part (p * 65536) 65536) then t.finish cid 0x2A 0
    else
      let t := ((upTo 0 k).zip pages).foldl (fun t e => t.mapPage c d (d.pages + e.1) e.2) t
      (t.setDesc c x { d with pages := d.pages + k, length := len }).finish cid 0 0)

/-- CTX_TRUNCATE (R197 to R199). -/
def execCtxTruncate (cid : Nat) (s : State) : Out :=
  runCtx s cid 0x1A true (fun t c x d =>
    let len := (c.dw 3).toNat
    if !d.mine c then t.finish cid 0x2B 0
    else if d.length < len then t.finish cid 0x2C 0
    else
      let t := t.unmapPages c d (cdiv len 65536)
      let t := t.setDesc c x { d with pages := cdiv len 65536, length := len }
      (t.dropXlats c.part).finish cid 0 0)

/-- CTX_FREE (R197 to R200). -/
def execCtxFree (cid : Nat) (s : State) : Out :=
  runCtx s cid 0x1B true (fun t c x d =>
    if !d.mine c then t.finish cid 0x2B 0
    else
      let t := (t.unmapPages c d 0).setDesc c x { d with valid := false }
      ((t.ctxCount c.part false).dropXlats c.part).finish cid 0 0)

/-- CTX_QUERY (R198, R265): a write to a host in D3hot waits. -/
def execCtxQuery (cid : Nat) (s : State) : Out :=
  runCtx s cid 0x1C false (fun t c _ d =>
    if !d.mine c then t.finish cid 0x2B 0
    else if c.f 3 0 0 = 0 then (t.cpWrite c (c.addr 4) d.bytes).finish cid 0 0
    else if t.hostWaits c.port then t
    else (t.hostWrite c.port (c.addr 4) d.bytes).finish cid 0 0)

end Sys2Proof.Machine
end

