-- ==== Sys2Proof/Machine/CmdCache.lean ====
section
/-! DEFINITION. The commands of the stacked cache: PIN, UNPIN, LOCALIZE (R153 to R157, R173, R276). -/

namespace Sys2Proof.Machine

/-! ## PIN (R155 to R157) -/

/-- The lines of [a, a + n). -/
def lineList (a n : Nat) : List Nat := upTo (a / 256) (cdiv (a + n) 256 - a / 256)

/-- Whether a line is pinned. -/
def State.isPinned (s : State) (line : Nat) : Bool :=
  let (h, sl, set) := s.home (line * 256)
  match (s.half h).find (setKey sl set) line with | some (_, l) => l.pinned | none => false

/-- The stacks that home a range (R155). -/
def State.homeStacks (s : State) (a n : Nat) : List Nat :=
  (upTo 0 s.stacks).filter (fun t => (upTo (a / 4096) (cdiv (a + n) 4096 - a / 4096)).any (fun p => s.devOf (p * 4096) / 2 == t))

/-- The lowest free pin entry of a stack. -/
def State.freePin (s : State) (t : Nat) : Option Nat := (upTo 1 63).find? (fun i => s.pinF t i 0 0 == 0)

/-- Whether a range meets a valid entry of any stack (R155). -/
def State.pinOverlap (s : State) (a n : Nat) : Bool :=
  (upTo 0 s.stacks).any (fun t => (upTo 1 63).any (fun i =>
    s.pinF t i 0 0 == 1 && decide ((s.pinRange t i).1 < a + n) && decide (a < (s.pinRange t i).1 + (s.pinRange t i).2)))

/-- The lines of entries that are still pinning: they count as pinned for a later check (R156, R166; DEDUCED, log entry 135). -/
def State.pinningLines (s : State) : List (Nat × Nat) :=
  (upTo 0 s.stacks).flatMap (fun t => ((upTo 1 63).filter (fun i => s.pinF t i 0 0 == 1 && s.pinF t i 2 1 == 0)).flatMap (fun i =>
    let (a, n) := s.pinRange t i
    ((lineList a n).filter (fun l => s.devOf (l * 256) / 2 == t)).map (fun l => (l, s.pinF t i 6 3))))

/-- The halves in which pinning lines for a partition would break a limit of R156: more pinned lines in a set than CAP, or fewer than two
unpinned ways there in the mask of the partition. Each half in which a limit breaks counts it (DESIGN CHOICE, log entry 135). -/
def State.pinBreaks (s : State) (p : Nat) (ls : List Nat) : List Nat :=
  let homes := ls.map (fun l => s.home (l * 256))
  let soon := ((s.pinningLines.filter (fun x => !ls.contains x.1 && !s.isPinned x.1)).map (fun x => (s.home (x.1 * 256), x.2)))
  (homes.filter (fun hm =>
    let (h, sl, set) := hm
    let m := s.wayMask h p
    let new := homes.countP (fun y => y == hm)
    let (all, mine) := pinnedIn (s.half h).lines (setKey sl set) m
    let more := soon.countP (fun y => y.1 == hm)
    let meet := soon.countP (fun y => y.1 == hm && decide (s.wayMask h y.2 &&& m ≠ 0))
    decide (s.rgF (.sc h) 0x004 3 0 < all + more + new) || decide (wayCount m < mine + meet + new + 2))).foldl (fun l hm => insNat l hm.1) []

/-- Entry i of a stack takes a range, in the state pinning (R157, R173). -/
def State.openPin (s : State) (t i a n p prio : Nat) : State :=
  [2 * t, 2 * t + 1].foldl (fun s h =>
    (((s.wg (.sc h) (pinOff i) (BitVec.ofNat 32 (a / 65536))).wg (.sc h) (pinOff i + 4) (BitVec.ofNat 32 (n / 65536))).wg (.sc h)
      (pinOff i + 8) (BitVec.ofNat 32 (1 + p * 8 + prio * 128))).wg (.sc h) (pinOff i + 12) 0) s

/-- Sectors of a line of a PIN are fetched, within the limits of misses and of the device (R146, R157, R252). -/
def State.pinFetch (s : State) (p line : Nat) (need : BitVec 4) : State :=
  let h := s.devOf (line * 256)
  let x := s.half h
  let d := s.mif h
  let who := Staller.line h line
  if 8192 ≤ x.misses.length then s.stall who (.misses h)
  else if 1024 ≤ d.waitingReads.length + d.waitingWrites.length then s.stall who (.device h)
  else
    ((s.unstall who).setHalf h { x with misses := x.misses ++ [⟨line, need, 0, false, [], 0, p⟩] }).setMif h
      { d with waitingReads := d.waitingReads ++ [line] }

/-- A line of a range that the cache holds whole is pinned in place, or moved into a way of the mask; the sectors that it lacks are fetched first
(R147, R157), also those of a line that is to be pinned in place (DESIGN CHOICE, log entry 143). It waits while its slice stalls, while it is
being fetched or written back, and while its set has no candidate way. -/
def State.pinLine (s : State) (p line : Nat) : State :=
  let a := line * 256
  let (h, sl, set) := s.home a
  let base := setKey sl set
  let x := s.half h
  let mask := s.wayMask h p
  if x.shut sl || x.misses.any (fun m => m.line == line) || (x.victim line).isSome then s
  else
    match x.find base line with
    | none => s.pinFetch p line 15
    | some (k, l) =>
      if l.valid ≠ 15 then s.pinFetch p line (~~~ l.valid)
      else if mask.getLsbD (k - base) then
        s.setHalf h { x with lines := mput x.lines k { l with pinned := true, demoted := false, part := p } }
      else
        ((s.setHalf h { x with lines := merase x.lines k }).takeWay h sl set mask (s.rgB (.mif h) 0x000 7)
          ⟨line, 15, l.dirty, 2, true, false, p⟩).getD s

/-- PIN at its start: the checks of R155 and R156, then an entry in each stack of the range is pinning. The command keeps
its entries as stack × 64 + entry. -/
def State.pinStart (s : State) (c : Cmd) (a n : Nat) : State :=
  let ts := s.homeStacks a n
  let es := ts.map (fun t => (t, s.freePin t))
  if es.any (fun e => e.2.isNone) then s.finish c.cid 0x21 0
  else if s.pinOverlap a n then s.finish c.cid 0x22 0
  else
    match s.pinBreaks c.part (lineList a n) with
    | [] =>
      let s := es.foldl (fun t e => t.openPin e.1 (e.2.getD 0) a n c.part (c.f 5 1 0)) s
      s.modCmd c.cid (fun d => { d with pieces := es.map (fun e => e.1 * 64 + e.2.getD 0) })
    | hs => (hs.foldl (fun t h => t.bump (.sc h) 0x14C 1) s).finish c.cid 0x20 0

/-- The lowest number of a list of entries. -/
def lowestEntry (es : List Nat) : Nat := (leastOf id (es.map (fun e => e % 64))).getD 0

/-- PIN goes on: its lines are pinned, and with the last the entries are pinned and the command ends. An entry that a slice's retirement has
demoted meanwhile stays demoted, and no more lines are pinned under it (R166; DESIGN CHOICE, log entry 143). -/
def State.pinRun (s : State) (c : Cmd) (a n : Nat) : State :=
  let es := c.pieces.filter (fun e => s.pinF (e / 64) (e % 64) 2 1 == 0)
  let ls := (lineList a n).filter (fun l => es.any (fun e => e / 64 == s.devOf (l * 256) / 2))
  let s := (ls.filter (fun l => !s.isPinned l)).foldl (fun t l => t.pinLine c.part l) s
  let s := (c.pieces.map (fun e => e / 64)).foldl State.pinSync s
  if ls.all s.isPinned then
    (es.foldl (fun t e => t.setPinF (e / 64) (e % 64) 2 1 1) s).finish c.cid 0 (lowestEntry c.pieces)
  else s

/-- The slices that a PIN or a LOCALIZE works on, by half × 256 + slice. -/
def State.slicesOf (s : State) (c : Cmd) : List Nat :=
  if c.opcode = 0x10 then
    (lineList (c.addr 2) (c.f 4 23 0 * 65536)).foldl (fun m l => let (h, sl, _) := s.home (l * 256); insNat m (h * 256 + sl)) []
  else c.localSites.map (fun i => siteHalf i * 256 + siteSlice i)

/-- Whether a PIN or LOCALIZE that has not made its check yet waits for another on one of its slices: those that have made theirs, and those
received before it, come first (R166). -/
def State.inTurn (s : State) (c : Cmd) : Bool :=
  let mine := s.slicesOf c
  s.cmds.all (fun d => d.cid == c.cid || !(d.opcode == 0x10 || d.opcode == 0x12) || !d.begun || d.phase != .running ||
    (d.opcode == c.opcode && c.opcode == 0x10) || !(!d.pieces.isEmpty || d.sentPiece.isSome || decide (d.cid < c.cid)) ||
    (s.slicesOf d).all (fun x => !mine.contains x))

/-- PIN (R155 to R157, R166): its start marks the entries pinning, its next event pins the lines. -/
def execPin (cid : Nat) (s : State) : Out :=
  runCmd s cid (isOp 0x10) (fun t c =>
    let a := c.addr 2
    let n := c.f 4 23 0 * 65536
    if c.pieces ≠ [] then t.pinRun c a n else if t.inTurn c then t.pinStart c a n else t)

/-! ## UNPIN (R157) -/

/-- An entry is unpinned (R157): its dirty lines are written back, its lines unpinned with RRV 3, the entry freed. -/
def State.unpinEntry (s : State) (t i : Nat) : State :=
  let (a, n) := s.pinRange t i
  let un (l : Line) : Line := { l with pinned := false, demoted := false, rrv := 3 }
  let s := (s.modLines (2 * t) a n true un).modLines (2 * t + 1) a n true un
  let s := [2 * t, 2 * t + 1].foldl (fun s h =>
    (upTo 0 4).foldl (fun s k => s.wg (.sc h) (pinOff i + 4 * k) 0) s) s
  s.pinSync t

/-- The pin entries (stack, entry) of a partition that match. -/
def State.pinsOf (s : State) (p : Nat) (ok : Nat → Nat → Bool) : List (Nat × Nat) :=
  (upTo 0 s.stacks).flatMap (fun t => ((upTo 1 63).filter (fun i =>
    s.pinF t i 0 0 == 1 && s.pinF t i 6 3 == p && ok t i)).map (fun i => (t, i)))

/-- UNPIN (R157, R173, R276): it waits while an entry it names is still pinning; its entries are unpinning first, and unpinned at its next
event. The command keeps them as stack × 64 + entry. -/
def execUnpin (cid : Nat) (s : State) : Out :=
  runCmd s cid (isOp 0x11) (fun t c =>
    if c.pieces ≠ [] then (c.pieces.foldl (fun t e => t.unpinEntry (e / 64) (e % 64)) t).finish cid 0 0
    else
      let es := t.pinsOf c.part (fun u i => (t.pinRange u i).1 == c.addr 2)
      if es = [] then t.finish cid 0x23 0
      else if es.any (fun e => t.pinF e.1 e.2 2 1 == 0 || t.pinF e.1 e.2 2 1 == 3) then t
      else
        (es.foldl (fun t e => t.setPinF e.1 e.2 2 1 3) t).modCmd cid (fun d => { d with pieces := es.map (fun e => e.1 * 64 + e.2) }))

/-! ## LOCALIZE (R153, R154) -/

/-- Whether a command of a partition runs on a core. -/
def State.runsOn (s : State) (p i : Nat) : Bool :=
  s.cmds.any (fun c => !c.admin && c.part == p && c.launched.contains i && !c.acked.contains i)

/-- The checks of a LOCALIZE at its start (R154): the status it ends with. -/
def State.localizeRefusal (s : State) (c : Cmd) : Option Nat :=
  if c.localSites.any (fun i => s.retired (siteHalf i) (siteSlice i)) then some 0x04
  else if c.localSites.any (fun i => !s.pinsFit (siteHalf i) (siteSlice i) (c.f 3 2 0)) then some 0x20
  else none

/-- Step 2 of a LOCALIZE at a slice (R154, R168): new requests stall, and its flush begins. -/
def State.localizeStall (s : State) (c : Cmd) (i : Nat) : State :=
  ((s.modHalf (siteHalf i) (fun x => { x with
    stalled := insNat x.stalled (siteSlice i), flushing := insNat x.flushing (siteSlice i) })).flushSync (siteHalf i)).modCmd c.cid (fun d =>
      { d with retried := insNat d.retried i })

/-- Steps 3 and 4 at a slice: it is flushed and its window takes its size; one that has retired meanwhile stays as it is. -/
def State.localizeFlush (s : State) (c : Cmd) (i : Nat) : State :=
  let h := siteHalf i
  let sl := siteSlice i
  let s := if s.retired h sl then s else s.resizeWindow h sl (c.f 3 2 0) c.part
  (s.flushOver i).modCmd c.cid (fun d => { d with pieces := insNat d.pieces i, retried := delNat d.retried i })

/-- LOCALIZE (R153, R154, R166, R168, R276): every slice is checked at the start, in turn with PINs; each stalls once no command of the
partition runs on the core above it, and is flushed and resized at the next event. The command marks its check in sentPiece, stalled slices'
sites in retried and finished ones in pieces. While its partition is being reset it begins no flush (R285 step 2). -/
def execLocalize (cid : Nat) (s : State) : Out :=
  runCmd s cid (isOp 0x12) (fun t c =>
    if c.sentPiece.isNone then
      (if !t.inTurn c then t
       else
        match t.localizeRefusal c with
        | some st => t.finish cid st 0
        | none => t.modCmd cid (fun d => { d with sentPiece := some 0 }))
    else
      let t := c.retried.foldl (fun t i => t.localizeFlush c i) t
      let done := c.retried.foldl insNat c.pieces
      let halt := ((mfind t.parts c.part).map (·.resetting)).getD false
      let t := (c.localSites.filter (fun i => !halt && !done.contains i && !t.runsOn c.part i)).foldl (fun t i => t.localizeStall c i) t
      if halt || c.localSites.all (fun i => done.contains i) then t.finish cid 0 0 else t)

end Sys2Proof.Machine
end

