-- ==== Sys2Proof/Machine/CmdPower.lean ====
section
/-! DEFINITION. The power commands: TRIM_SET, PARK, UNPARK (R276, R332, R334, R337, R377). -/

namespace Sys2Proof.Machine

/-- TRIM_SET (R276, R337): the registers change at once; the loop takes the setting at its next period. -/
def execTrimSet (cid : Nat) (s : State) : Out :=
  runCmd s cid (isOp 0x20) (fun t c =>
    let top := t.part.grade.maxPower
    let sp := min (c.dw 2).toNat top
    let fl := min (c.dw 4).toNat sp
    let r := (c.dw 3).toNat
    let t := ((t.wgF .trim 0x004 15 0 sp).wgF .trim 0x008 15 0 r).wgF .trim 0x00C 15 0 fl
    let t := t.wgB .trim 0x000 2 (decide (sp ≠ (c.dw 2).toNat) || decide (fl ≠ (c.dw 4).toNat))
    let t := { t with power := { t.power with trimPending := some (sp, r, fl, (c.dw 5).getLsbD 0) } }
    t.finish cid 0 0)

/-- A region is parked by command: a region with a lent core stays on (R332, R377). -/
def State.parkByCommand (s : State) (r : Nat) : State :=
  let s := { s with power := { s.power with cmdParked := insNat s.power.cmdParked r } }
  if s.regionLent r then s else s.parkRegion r false

/-- PARK (R276, R332): it waits until no block is resident and no command of the partition runs on the regions' cores. -/
def execPark (cid : Nat) (s : State) : Out :=
  runCmd s cid (isOp 0x21) (fun t c =>
    let rs := t.namedRegions c
    let mine (i : Nat) : Bool := decide (t.corePart i = some c.part)
    if rs.any (fun r => (regionSites r).any (fun i => mine i && (!(t.core i).blocks.isEmpty || t.runsOn c.part i))) then t
    else (rs.foldl State.parkByCommand t).finish cid 0 0)

/-- A parked region switches on, its enabled cores to pass the wake check (R334). -/
def State.unparkRegion (s : State) (r : Nat) : State :=
  if s.regF r 1 0 = 0 then
    ((regionSites r).filter (fun i => hasSite s.roster.enabled i)).foldl
      (fun t i => t.modRoster (fun x => { x with waking := mput x.waking i 4096 })) (s.wakeRegion r)
  else s

/-- Whether regions have come on and passed their wake checks, so far as they will. -/
def State.regionsUp (s : State) (rs : List Nat) : Bool :=
  rs.all (fun r => decide (s.regF r 1 0 ≠ 1) &&
    (regionSites r).all (fun i => !s.regionOn r || decide (mfind s.roster.waking i ≠ some 4096)))

/-- UNPARK (R276, R333, R334): its start begins the switch-on; it ends once every named region is on and checked. -/
def execUnpark (cid : Nat) (s : State) : Out :=
  runCmd s cid (isOp 0x22) (fun t c =>
    let rs := t.namedRegions c
    let t :=
      if c.pieces = [] then
        let t := { t with power := { t.power with cmdParked := t.power.cmdParked.filter (fun r => !rs.contains r) } }
        (rs.foldl State.unparkRegion t).modCmd cid (fun d => { d with pieces := [1] })
      else t
    if t.regionsUp rs then t.finish cid 0 0 else t)

end Sys2Proof.Machine
end

