-- ==== Sys2Proof/Machine/CmdPart.lean ====
section
/-! DEFINITION. Partitions: PART_CREATE, PART_RESET, PART_DESTROY and the reset of a host port (R200, R207, R208, R264, R276, R282 to
R286, R377, R435, R452). -/

namespace Sys2Proof.Machine

/-! ## PART_CREATE (R283, R284) -/

/-- A partition descriptor (R283). -/
structure PartDesc where
  part : Nat
  owner : Nat
  quota : Nat
  timeout : Nat
  classes : Nat
  ways : List Nat
  ranges : List (Nat × Nat)
  regions : List Nat
deriving DecidableEq, Repr

/-- A little-endian field of a byte string. -/
def leField (bs : List Byte) (o n : Nat) : Nat := ofBytes ((bs.drop o).take n)

/-- The descriptor that 512 bytes spell. -/
def partDesc (bs : List Byte) : PartDesc :=
  ⟨fld 3 0 (leField bs 0 4), fld 5 4 (leField bs 0 4), fld 20 0 (leField bs 4 4), leField bs 8 4, fld 20 0 (leField bs 12 4),
    (upTo 0 16).map (fun h => leField bs (0x10 + 2 * h) 2),
    ((upTo 0 8).map (fun r => (leField bs (0x40 + 16 * r) 8, leField bs (0x48 + 16 * r) 8))).filter (fun x => x.2 != 0),
    (upTo 0 2048).filter (fun i => (leField bs (0x100 + i / 8) 1).testBit (i % 8))⟩

/-- Whether reserved bits, and the fields of stacks that the grade lacks, are 0 and TIMEOUT_MS lies in its range (R283). -/
def State.descOk (s : State) (bs : List Byte) (d : PartDesc) : Bool :=
  decide (leField bs 0 4 < 64) && decide (leField bs 4 4 < 2 ^ 21) && decide (leField bs 12 4 < 2 ^ 21) &&
    ((bs.drop 0x30).take 16 ++ (bs.drop 0xC0).take 64).all (fun b => b == 0) &&
    (d.ways.drop s.devices).all (fun w => w == 0) && d.regions.all (fun r => decide (r < s.stacks * 256)) &&
    (decide (d.timeout = 0) || (decide (1000 ≤ d.timeout) && decide (d.timeout ≤ 3600000)))

/-- Whether a range touches the directory (R180). -/
def State.meetsDirectory (s : State) (a n : Nat) : Bool :=
  if s.boot.cfg.spread then decide (s.extEnd - 0x4000000 < a + n)
  else (upTo 0 s.devices).any (fun d =>
    decide (a < (d + 1) * devBytes) && decide ((d + 1) * devBytes - 0x4000000 / s.devices < a + n))

/-- Whether two ranges share a byte. -/
def rangesMeet (x y : Nat × Nat) : Bool := decide (x.1 < y.1 + y.2) && decide (y.1 < x.1 + x.2)

/-- Whether the ranges of a list are disjoint. -/
def disjointRanges : List (Nat × Nat) → Bool
  | [] => true
  | x :: xs => xs.all (fun y => !rangesMeet x y) && disjointRanges xs

/-- Whether a memory range is good (R284). -/
def State.rangeOk (s : State) (x : Nat × Nat) : Bool :=
  decide (x.1 % 65536 = 0) && decide (x.2 % 65536 = 0) && decide (x.1 + x.2 ≤ s.extEnd) && !s.meetsDirectory x.1 x.2 &&
    s.parts.all (fun p => p.2.ranges.all (fun y => !rangesMeet x y))

/-- Whether a region holds an enabled core of its own, not lent (R284, R377). -/
def State.regionServes (s : State) (r : Nat) : Bool :=
  (regionSites r).any (fun i => hasSite s.roster.enabled i && (mfind s.roster.lent i).isNone)

/-- The status of the first reason to refuse a descriptor (R284). -/
def State.partRefusal (s : State) (bs : List Byte) (d : PartDesc) : Option Nat :=
  if !s.descOk bs d then some 0x02
  else if (mfind s.parts d.part).isSome then some 0x30
  else if 2 ^ 20 < (s.parts.map (fun p => p.2.quota)).sum + d.quota then some 0x29
  else if d.regions.any (fun r => (s.regionPart r).isSome) || !d.regions.any s.regionServes ||
      (d.ways.take s.devices).any (fun w => decide (wayCount (BitVec.ofNat 32 w) < 4)) ||
      !d.ranges.all s.rangeOk || !disjointRanges d.ranges then some 0x04
  else none

/-- Whether an address lies in one of a list of ranges. -/
def inAny (rs : List (Nat × Nat)) (a : Nat) : Bool := rs.any (fun r => decide (r.1 ≤ a) && decide (a < r.1 + r.2))

/-- Ranges are cleared (R208): their lines leave the cache without a write-back, write-backs not issued are dropped, and every
byte then reads as zero; the initialised bits of regions that lie whole in them are cleared. -/
def State.clearRanges (s : State) (rs : List (Nat × Nat)) : State :=
  let s := { s with halves := s.halves.map (fun e => (e.1, { e.2 with
    lines := e.2.lines.filter (fun l => !inAny rs (l.2.line * 256))
    wb := e.2.wb.filter (fun v => v.issued || !inAny rs (v.line * 256)) })) }
  let s := rs.foldl (fun t r => t.clear r.1 r.2) s
  (upTo 0 s.devices).foldl (fun t d => t.setMif d { t.mif d with
    inited := (t.mif d).inited.filter (fun g => !(upTo 0 16).all (fun k => inAny rs (t.addrOf d (g * 65536 + k * 4096))))
    hidden := (t.mif d).hidden.filter (fun w => !inAny rs (w * 32)) }) s

/-- Whether a write-back to a range has been issued and not performed: it completes before the range is cleared (R208). -/
def State.writingBack (s : State) (rs : List (Nat × Nat)) : Bool :=
  s.halves.any (fun e => e.2.wb.any (fun v => v.issued && inAny rs (v.line * 256)))

/-- The default class table (R240). -/
def defaultClasses : Nat := 2 + 1 * 8 + 1 * 64 + 3 * 512 + 4 * 4096 + 3 * 32768

/-- The class table and core budgets of a partition take effect in every stack (R240, R256, R257, R284). -/
def State.setClasses (s : State) (p w : Nat) (b0 b1 : W32) : State :=
  (upTo 0 s.stacks).foldl (fun t k =>
    let offs := [(0x100 + 4 * p, BitVec.ofNat 32 w), (0x200 + 8 * p, b0), (0x204 + 8 * p, b1)]
    offs.foldl (fun t x =>
      let t := t.wg (.msh k) x.1 x.2
      { t with net := { t.net with pendingRegs := merase t.net.pendingRegs ((Blk.msh k).base + x.1) } }) t) s

/-- The way masks of a partition (R151, R172). -/
def State.setWays (s : State) (p : Nat) (ws : List Nat) : State :=
  (upTo 0 s.devices).foldl (fun t h => t.wg (.sc h) (0x040 + 4 * p) (BitVec.ofNat 32 (nth 0 ws h))) s

/-- A queue as creation and reset leave it (R284, R285): the doorbell values go with the indices. -/
def Queue.cleared (q : Queue) : Queue :=
  { q with en := false, sqHead := 0, sqTail := 0, cqTail := 0, cqHead := 0, inflight := 0, phase := true }

/-- Queues of a port are cleared. -/
def State.clearQueues (s : State) (port : Nat) (qs : List Nat) : State :=
  qs.foldl (fun t i => (t.endRead port i).setQueue port i (t.queue port i).cleared) s

/-- The queues of a partition. -/
def partQueues (p : Nat) : List Nat := upTo (64 * p) 64

/-- A partition comes into being (R284): its regions begin to switch on. -/
def State.createPart (s : State) (d : PartDesc) : State :=
  let q : Partition := ⟨d.owner, d.quota, if d.timeout = 0 then 10000 else d.timeout, d.ranges, d.regions, [], false⟩
  let s := { s with parts := mput s.parts d.part q }
  let s := s.setClasses d.part (if d.classes = 0 then defaultClasses else d.classes) 0x08000400#32 0x04000800#32
  let s := (s.setWays d.part d.ways).clearRanges d.ranges
  let s := (s.wg (.ctx 0) (0x100 + 8 * d.part) (BitVec.ofNat 32 d.quota)).wg (.ctx 0) (0x104 + 8 * d.part) 0
  let s := s.clearQueues d.owner (partQueues d.part)
  let s := { s with power := { s.power with cmdParked := s.power.cmdParked.filter (fun r => !d.regions.contains r) } }
  d.regions.foldl State.wakeRegion s

/-- PART_CREATE (R208, R265, R276, R282 to R284): the reply follows once its regions are on. -/
def execPartCreate (cid : Nat) (s : State) : Out :=
  runCmd s cid (isOp 0x38) (fun t c =>
    match c.pieces with
    | [] =>
      if t.hostWaits c.port then t
      else
        let bs := t.hostBytes c.port (c.addr 2) 512
        let d := partDesc bs
        if (t.partRefusal bs d).isNone && t.writingBack d.ranges then t
        else
        let t := t.hostRx c.port 512
        (match t.partRefusal bs d with
         | some st => t.finish cid st 0
         | none => (t.createPart d).modCmd cid (fun k => { k with pieces := [d.part] }))
    | p :: _ =>
      if (((mfind t.parts p).map (·.regions)).getD []).any (fun r => decide (t.regF r 1 0 = 1)) then t else t.finish cid 0 0)

/-! ## Reset (R264, R285) -/

/-- Whether a running command of a partition completes before the reset takes it: context commands and PIN, UNPIN, and a LOCALIZE where a
flush has begun (R285 step 2). -/
def Cmd.completes (c : Cmd) : Bool :=
  c.begun && c.phase == .running &&
    ([0x10, 0x11, 0x18, 0x19, 0x1A, 0x1B, 0x1C].contains c.opcode || (decide (c.opcode = 0x12) && !c.retried.isEmpty))

/-- What a command that is discarded kept busy is free: its units, the end orders that cores hold, and the cores that a SELFTEST kept blocks from (R168, R176, R280). -/
def State.discardCmd (s : State) (c : Cmd) : State :=
  let s := s.freeUnits c
  let s := { s with net := { s.net with reqs := s.net.reqs.filter (fun r => !(r.held && r.cid == c.cid)) } }
  if c.opcode = 0x30 ∧ c.f 2 3 0 = 2 ∧ c.begun = true then
    (s.namedSites c (c.f 3 11 0) (decide (c.f 3 16 16 = 1))).foldl (fun t i => t.modCore i (fun k => { k with selfTest := false })) s
  else s

/-- Commands are discarded. -/
def State.discardCmds (s : State) (gone : Cmd → Bool) : State :=
  (s.cmds.filter gone).foldl State.discardCmd { s with cmds := s.cmds.filter (fun c => !gone c) }

/-- The recovery of a partition stops (R391): a spare that is not in service yet is not brought in, and is a spare again (DEDUCED, log entry
155). -/
def State.stopRecovery (s : State) (p : Nat) : State :=
  let mine := (s.roster.waking.filter (fun e => decide (e.2 < 4096) && (match mfind s.roster.lent e.1 with
    | some q => decide (q = p)
    | none => decide (s.regionPart (regionOf e.1) = some p)))).map (·.1)
  s.modRoster (fun r => mine.foldl (fun r i => { r with
    waking := merase r.waking i, lent := merase r.lent i
    spare := if hasSite r.restricted i then r.spare else addSite r.spare i }) r)

/-- Steps 1 and 2 of R285: doorbells and fetches stop, commands not replied go. The count of commands that get no reply. -/
def State.resetBegin (s : State) (p : Nat) : State × Nat :=
  let mine (c : Cmd) : Bool := !c.admin && c.part == p
  let n := s.cmds.countP mine
  let s := { s with parts := mmod s.parts p (fun q => { q with resetting := true }) }
  let cids := (s.cmds.filter mine).map (·.cid)
  let s := s.discardCmds (fun c => mine c && !c.completes)
  let s := { s with host := { s.host with ports := s.host.ports.map (fun (e : Nat × Port) =>
    (e.1, { e.2 with held := e.2.held.filter (fun x => !cids.contains x.1) })) } }
  let s := s.dropStaged (fun x => cids.contains x.cid)
  (s.stopRecovery p, n)

/-- Whether a request is one that the reset of a partition waits for, and then forgets: a core's, or a command processor's. -/
def Req.ofPart (r : Req) (p : Nat) : Bool := r.part == p && decide (r.slot < 72) && !r.isOrder

/-- Step 3 of R285: reset orders go to the cores where blocks of the partition run, from the processor given; where one has come, or is to come
by a ring that carries it, the blocks leave, with requests that the core has not sent yet (R250). -/
def State.resetOrders (s : State) (home p : Nat) : State :=
  let s := (s.partCores p).foldl (fun t i =>
    match t.order? (.reset i) with
    | some r => if r.state = .arrived then (t.resetReach i).obeyed r else t
    | none => if (t.core i).blocks.isEmpty || t.ringRuns i then t else t.sendOrder home noCid (.reset i)) s
  { s with net := { s.net with reqs := s.net.reqs.filter (fun r =>
      !(r.ofPart p && r.state == .queued && (s.core r.site).blocks.isEmpty)) } }

/-- Whether no block is left on the partition's cores, no reset order is on its way to them, every request that its masters have sent has completed or given up, and the commands that
complete have (R285 steps 2 to 4). -/
def State.resetQuiet (s : State) (p : Nat) : Bool :=
  (s.partCores p).all (fun i => (s.core i).blocks.isEmpty && (s.order? (.reset i)).isNone) &&
    s.net.reqs.all (fun r => !r.ofPart p || r.ended) && s.cmds.all (fun c => c.admin || c.part != p || !c.completes)

/-- A core of the partition is reset (R285 step 5, R435): TRIM_HOLD stays; the debug registers of its site return to reset. -/
def State.resetCore (s : State) (i : Nat) : State :=
  let k := s.core i
  let s := s.setCore i { Core.idle with arr := { Array.idle with trimHold := k.arr.trimHold }, selfTest := k.selfTest }
  let s := s.clear (lmemBase + i * 0x80000) 0x80000
  let s := (upTo 0 24).foldl (fun t j => t.wg (.dbg (siteStack i)) (0x4000 + 0x60 * siteN i + 4 * j) 0) s
  (s.arrSync i).espSync i

/-- The slices whose windows a partition owns, as (half, slice). -/
def State.windowsOf (s : State) (p : Nat) : List (Nat × Nat) :=
  (upTo 0 s.devices).flatMap (fun h =>
    ((upTo 0 256).filter (fun sl => s.winSize h sl != 0 && s.winPart h sl == p)).map (fun sl => (h, sl)))

/-- Steps 4 to 6 of R285. -/
def State.resetEnd (s : State) (p : Nat) : State :=
  let s := { s with
    cmds := s.cmds.filter (fun c => c.admin || c.part != p)
    net := { s.net with
      records := s.net.records.filter (fun x => s.net.reqs.all (fun r => !r.ofPart p || r.rid != x.2))
      reqs := s.net.reqs.filter (fun r => !r.ofPart p) } }
  let s := s.dropStaged (fun x => (s.cmd? x.cid).isNone)
  let s := (s.partCores p).foldl State.resetCore s
  let s := (s.windowsOf p).foldl (fun t w => t.dropGranules (winAddr w.1 w.2) 0x400000) s
  let s := { s with parts := mmod s.parts p (fun q => { q with sems := [], resetting := false }) }
  match s.ownerOf p with
  | some o => s.clearQueues o (partQueues p)
  | none => s

/-- The reset of a partition for a command, in two events: it goes on to `done` once it is complete. -/
def State.resetFor (s : State) (c : Cmd) (p : Nat) (done : State → Nat → State) : State :=
  let (s, n) := if c.pieces = [] then
      (let (t, n) := s.resetBegin p
       (t.modCmd c.cid (fun d => { d with pieces := [p], nextBlock := n }), n))
    else (s, c.nextBlock)
  let s := s.resetOrders (s.homeCp c) p
  if s.resetQuiet p then done (s.resetEnd p) n else s

/-- PART_RESET (R276, R285): RESULT is the number of commands discarded. -/
def execPartReset (cid : Nat) (s : State) : Out :=
  runCmd s cid (isOp 0x3A) (fun t c =>
    let p := c.f 2 3 0
    if (mfind t.parts p).isNone then t.finish cid 0x31 0
    else t.resetFor c p (fun t n => t.finish cid 0 n))

/-- The partitions of a port, in increasing number. -/
def State.partsOf (s : State) (port : Nat) : List Nat := (s.parts.filter (fun e => e.2.owner == port)).map (·.1)

/-- The reset of a port goes through its partitions one after another (R264). -/
def State.portSweep (s : State) (port : Nat) : List Nat → State
  | [] => s.setPort port { s.port port with resets := [] }
  | p :: ps =>
    let s := if ((mfind s.parts p).map (·.resetting)).getD true then s else (s.resetBegin p).1
    let s := s.resetOrders ((s.part.grade.hostPort port).1 * 4) p
    if (mfind s.parts p).isNone || s.resetQuiet p then State.portSweep (s.resetEnd p) port ps
    else s.setPort port { s.port port with resets := p :: ps }

/-- The port that a PART_CREATE makes its partition for. -/
def State.createFor (s : State) (c : Cmd) : Option Nat :=
  match c.pieces with
  | p :: _ => s.ownerOf p
  | [] => some (partDesc (s.hostBytes c.port (c.addr 2) 512)).owner

/-- Whether the reset of a port waits for a command: a PART_CREATE for it, or one of its own admin queue (R290), or a reset or removal of a
partition of another port that its admin queue has begun, since other ports' partitions are untouched (R264; DEDUCED, log entry 136). -/
def State.creating (s : State) (port : Nat) : Bool :=
  s.cmds.any (fun c => c.begun && c.phase == .running &&
    ((c.opcode == 0x38 && (c.port == port || s.createFor c == some port)) ||
     (c.admin && c.port == port && [0x39, 0x3A].contains c.opcode && c.pieces.any (fun p => s.ownerOf p != some port))))

/-- The reset of a port (R264, R290): it waits for commands that must complete; where one is under way it goes on; the admin queues
are reset too. -/
def State.portReset (s : State) (port : Nat) : State :=
  if s.creating port then s.setPort port { s.port port with resetDue := true }
  else if (s.port port).resets ≠ [] then s.portSweep port (s.port port).resets
  else
    let s := s.discardCmds (fun c => c.admin && c.port == port)
    let s := s.setPort port { s.port port with
      held := (s.port port).held.filter (fun x => (s.cmd? x.1).isSome)
      resetDue := false, posted := [] }
    (s.clearQueues port (upTo 1024 4)).portSweep port (s.partsOf port)

/-! ## PART_DESTROY (R286) -/

/-- The context of the directory that a device address lies in (R180, R193). -/
def State.ctxAt (s : State) (a : Nat) : Nat :=
  let o := s.offOf a - (devBytes - 0x4000000 / s.devices)
  ((o / 4096 * s.devices + s.devOf a) * 4096 + o % 4096) / 64

/-- The contexts whose descriptors hold a byte other than 0 or a poison mark; every other descriptor is invalid. -/
def State.dirContexts (s : State) : List Nat :=
  ((s.mem.map (fun (e : Host.Cell) => e.1) ++ s.poison.map (· * 32)).filter s.inDirectory).foldl (fun m a => insNat m (s.ctxAt a)) []

/-- The contexts of a partition are freed as CTX_FREE does; descriptors that read poisoned become invalid and clean, and every
remaining partition's count is what the scan finds (R286, R452). -/
def State.freeContexts (s : State) (c : Cmd) (p : Nat) : State :=
  let s := s.dirContexts.foldl (fun t x =>
    let a := t.descAddr x
    let d := t.desc x
    if t.poisoned a 64 then t.cpWrite c a (List.replicate 64 0)
    else if d.valid && d.part == p then (t.unmapPages c d 0).setDesc c x { d with valid := false }
    else t) s
  let live := ((s.dirContexts.filter (fun x => !s.poisoned (s.descAddr x) 64)).map s.desc).filter (fun d => d.valid && d.part != p)
  let s := (s.parts.map (·.1)).foldl (fun t q =>
    t.wgF (.ctx 0) (0x104 + 8 * q) 20 0 (live.countP (fun d => d.part == q))) s
  s.wgF (.ctx 0) 0x000 20 0 live.length

/-- A lent core that served a partition returns to the spares, and its region follows its holder (R377). -/
def State.returnLent (s : State) (p : Nat) : State :=
  let mine := (upTo 0 s.sites).filter (fun i => decide (mfind s.roster.lent i = some p))
  let s := mine.foldl (fun t i =>
    (t.modRoster (fun r => { r with
      enabled := delSite r.enabled i, lent := merase r.lent i
      spare := if hasSite r.restricted i then r.spare else addSite r.spare i })).modHealth (fun x =>
        { x with enabled := delSite x.enabled i })) s
  (mine.map regionOf).foldl (fun t r =>
    if ((t.regionPart r).isNone || t.power.cmdParked.contains r) && !t.regionLent r then t.parkRegion r false else t) s

/-- What a partition held is freed (R286): its trace and record rings, which lie in its ranges, go with them. -/
def State.freePart (s : State) (c : Cmd) (p : Nat) : State :=
  let s := (s.pinsOf p (fun _ _ => true)).foldl (fun t e => t.unpinEntry e.1 e.2) s
  let s := (s.windowsOf p).foldl (fun t w => t.resizeWindow w.1 w.2 0 0) s
  let s := s.freeContexts c p
  let rs := ((mfind s.parts p).map (·.regions)).getD []
  let s := s.returnLent p
  let s := { s with
    parts := merase s.parts p
    power := { s.power with cmdParked := s.power.cmdParked.filter (fun r => !rs.contains r) } }
  let s := rs.foldl (fun t r => if t.regionLent r then t else t.parkRegion r false) s
  let s := (s.setClasses p 0 0 0).setWays p []
  let s := (s.wg (.ctx 0) (0x100 + 8 * p) 0).wg (.ctx 0) (0x104 + 8 * p) 0
  let s := ((s.wg (.cnt 0) (ringOff p + 0x1C) 0).wg (.cnt 0) (ringOff p + 0x18) 0).wg (.cnt 0) (ringOff p + 0x08) 0
  { s with lostRecs := merase s.lostRecs p }

/-- PART_DESTROY (R276, R286). -/
def execPartDestroy (cid : Nat) (s : State) : Out :=
  runCmd s cid (isOp 0x39) (fun t c =>
    let p := c.f 2 3 0
    if (mfind t.parts p).isNone then t.finish cid 0x31 0
    else t.resetFor c p (fun t _ => (t.freePart c p).finish cid 0 0))

end Sys2Proof.Machine
end

