-- ==== Sys2Proof/Machine/FlashOps.lean ====
section
/-! DEFINITION. The flash: stores and their slots, FW_LOAD, QUICKSET_STORE, health records (R315 to R317, R411, R412); the health report
(R393) and the management port (R288). -/

namespace Sys2Proof.Machine

/-! ## Slots (R412) -/

/-- The slot that a store takes and the SEQ it writes: an invalid slot, else the one with the lower SEQ; one above the other. -/
def storeSlot (a b : Option Nat) : Nat × Nat :=
  match a, b with
  | none, _ => (0, b.getD 0 + 1)
  | some x, none => (1, x + 1)
  | some x, some y => if x ≤ y then (0, y + 1) else (1, x + 1)

/-- The newer of two slots. -/
def newest {α : Type} (a b : Option (α × Nat)) : Option α :=
  match a, b with
  | none, none => none
  | some x, none => some x.1
  | none, some y => some y.1
  | some x, some y => if x.2 < y.2 then some y.1 else some x.1

/-- A store begins (R412). -/
def State.beginStore (s : State) (w : FlashWrite) : State := { s with flash := { s.flash with storing := some w } }

/-- The uncorrectable and the remapped entries of an error log (R215). -/
def State.keptEntries (s : State) (b : Blk) (k : LogKind) : List (Nat × List W32) :=
  ((upTo 0 32).filter (fun i => s.rgB b (logOff i) 0 && (s.rgF b (logOff i) 2 1 != 0 || s.rgB b (logOff i) k.remapBit))).map
    (fun i => (b.base, (upTo 0 4).map (fun j => s.rg b (logOff i + 4 * j))))

/-- The health record that is stored: the present one with the log entries that health records keep across starts (R215). -/
def State.healthNow (s : State) : Health :=
  let new := (upTo 0 s.devices).flatMap (fun d => s.keptEntries (.sc d) scLog ++ s.keptEntries (.mif d) mifLog)
  { s.health with logs := new ++ s.health.logs.filter (fun x => new.all (fun y => !(y.1 == x.1 && nth 0 y.2 1 == nth 0 x.2 1))) }

/-- The store of the present health record. -/
def State.healthStore (s : State) : FlashWrite :=
  let (k, q) := storeSlot (s.flash.healthA.map (·.2)) (s.flash.healthB.map (·.2))
  .health k s.healthNow q

/-- What a completed store leaves in the flash. -/
def Flash.put (f : Flash) : FlashWrite → Flash
  | .health k h q => if k = 0 then { f with healthA := some (h, q) } else { f with healthB := some (h, q) }
  | .quickset rs => { f with quick := rs.foldl (fun m r => mput m r.1 r.2) f.quick }
  | .firmware k b => if k = 0 then { f with fwA := some b } else { f with fwB := some b }
  | .config k c q => if k = 0 then { f with cfgA := some (c, q) } else { f with cfgB := some (c, q) }

/-- The 4,096 bytes of a Quickset record but for its last word (R315), little-endian, with zeros where it names no field. -/
def QRec.body (r : QRec) : List Byte :=
  toBytes 2 r.magic ++ toBytes 2 (r.version % 256) ++ toBytes 4 r.seq ++ toBytes 8 r.serial ++ toBytes 8 (r.iface % 16) ++ toBytes 8 r.devSerial ++
    toBytes 4 (r.rate % 4) ++ toBytes 4 (r.temp % 65536).toNat ++ toBytes 4 r.hours ++ List.replicate 20 0 ++
    (upTo 0 0xFB8).map (Config.trained r.settings) ++ [0, 0, 0, 0]

/-- The CRC that a record's own must equal: with the CRC word taken as 0 (R315). -/
def QRec.crcOf (r : QRec) : W32 := crc32 (r.body ++ [0, 0, 0, 0])

/-- Whether MAGIC, VERSION and CRC of a record are correct (R316). -/
def QRec.sound (r : QRec) : Bool := r.magic == 0x5153 && r.version == 1 && r.crc == r.crcOf

/-- A record with its CRC. -/
def QRec.seal (r : QRec) : QRec := { r with crc := r.crcOf }

/-- What a torn store leaves: the slots it was writing fail their check (R317, R412). -/
def Flash.torn (f : Flash) : FlashWrite → Flash
  | .health k _ _ => if k = 0 then { f with healthA := none } else { f with healthB := none }
  | .quickset rs => { f with quick := rs.foldl (fun m r => mput m r.1 { r.2 with crc := ~~~ r.2.crcOf }) f.quick }
  | .firmware k _ => if k = 0 then { f with fwA := none } else { f with fwB := none }
  | .config k _ _ => if k = 0 then { f with cfgA := none } else { f with cfgB := none }

/-- A store in progress is torn. -/
def State.tearStore (s : State) : State :=
  match s.flash.storing with
  | none => s
  | some w => { s with flash := { s.flash.torn w with storing := none } }

/-- Whether a running command waits for a store. -/
def Cmd.awaits (c : Cmd) : FlashWrite → Bool
  | .firmware _ _ => c.opcode == 0x40 && c.phase == .running && c.pieces != []
  | .config _ _ _ => c.opcode == 0x40 && c.phase == .running && c.pieces != []
  | .quickset _ => c.opcode == 0x41 && c.phase == .running && c.pieces != []
  | .health _ _ _ => false

/-- A store ends; where it fails, the previous image and records remain (R281, R412). The command that waits for it ends. -/
def State.storeDone (s : State) (ok : Bool) : State :=
  match s.flash.storing with
  | none => s
  | some w =>
    let who := s.cmds.filter (fun c => c.awaits w)
    let s := { s with flash := { (if ok then s.flash.put w else s.flash) with storing := none } }
    who.foldl (fun t c => t.finish c.cid (if ok then 0 else 0x39) 0) s

/-- HEALTH_RECORD_STORE (R412): where a store of the health record is due, for a fault event or a powered hour, it begins once firmware runs and
no store is in progress. -/
def execHealthRecordStore (s : State) : Out :=
  .next (if s.flash.due && s.flash.storing.isNone && s.boot.bank.isSome then
    { s with flash := { s.flash with due := false, storing := some s.healthStore } }
  else s)

/-- FLASH_STORE_DONE (R281, R412). -/
def execFlashStoreDone (ok : Bool) (s : State) : Out := .next (s.storeDone ok)

/-! ## FW_LOAD (R276, R411, R412) -/

/-- The configuration that an image holds: the spec does not lay the record out (log entry 6). -/
def cfgOf (bs : List Byte) : Cfg :=
  let f (i : Nat) : Nat := Config.imageField i bs
  ⟨decide (f 0 % 2 = 1), f 1 % 4, decide (f 2 % 2 = 1), decide (f 3 % 2 = 1), decide (f 4 % 2 = 1), f 5 % 32768, f 6 % 128,
    (upTo 0 16).map (fun j => (f 7).testBit j), (upTo 0 16).map (fun j => (f 8).testBit j),
    (upTo 0 16).map (fun j => BitVec.ofNat 32 (f (16 + j))),
    (upTo 0 32768).map (fun j => (j, BitVec.ofNat 32 (f (64 + j) % 1024))), f 9, f 10, Config.imageVersion bs⟩

/-- The store of a checked image: the firmware bank that did not boot, or a configuration slot. -/
def State.imageStore (s : State) (area : Nat) (bs : List Byte) : FlashWrite :=
  if area = 0 then
    let k := if s.boot.bank = some 1 then 0 else 1
    let q := ((if k = 0 then s.flash.fwB else s.flash.fwA).map (·.seq)).getD 0
    .firmware k ⟨bs, Config.imageVersion bs, q + 1⟩
  else
    let (k, q) := storeSlot (s.flash.cfgA.map (·.2)) (s.flash.cfgB.map (·.2))
    .config k (cfgOf bs) q

/-- FW_LOAD (R276, R281, R411, R412): its first event reads and checks the image and begins the store, which a later one ends. -/
def execFwLoad (cid : Nat) (flashOk : Bool) (s : State) : Out :=
  runCmd s cid (isOp 0x40) (fun t c =>
    if c.pieces ≠ [] then t.storeDone flashOk
    else if t.flash.storing.isSome || t.hostWaits c.port then t
    else
      let n := (c.dw 4).toNat
      let area := c.f 5 1 0
      let bs := t.hostBytes c.port (c.addr 2) n
      let t := t.hostRx c.port n
      if !Config.signatureVerifies 0 bs [] then t.finish cid 0x38 0
      else if Config.imageType bs ≠ area then t.finish cid 0x02 0
      else (t.beginStore (t.imageStore area bs)).modCmd cid (fun d => { d with pieces := [1] }))

/-! ## Quickset (R315 to R317) -/

/-- The record that a store writes for an interface, with its key interface × 2 + slot. -/
def State.quickRec (s : State) (d : Nat) : Nat × QRec :=
  let seqOf (k : Nat) : Option Nat := (mfind s.flash.quick (2 * d + k)).bind (fun r => if r.sound then some r.seq else none)
  let (k, q) := storeSlot (seqOf 0) (seqOf 1)
  let m := s.mif d
  (2 * d + k, QRec.seal ⟨0x5153, 1, q, s.part.serial, d, m.serial, s.rgF (.mif d) 0x000 3 2, sint 16 (s.rgF (.mif d) 0x008 15 0), m.trainHours,
    m.settings, 0⟩)

/-- The store of every trained interface's settings. -/
def State.quickStore (s : State) : FlashWrite := .quickset (((upTo 0 s.devices).filter s.mifReady).map s.quickRec)

/-- QUICKSET_STORE (R276, R281, R317, R322): it waits for a store in progress and for a run-time retrain. -/
def execQuicksetStore (cid : Nat) (flashOk : Bool) (s : State) : Out :=
  runCmd s cid (isOp 0x41) (fun t c =>
    if c.pieces ≠ [] then t.storeDone flashOk
    else if t.flash.storing.isSome || (upTo 0 t.devices).any (fun d => (t.mif d).retraining) then t
    else (t.beginStore t.quickStore).modCmd cid (fun d => { d with pieces := [1] }))

/-! ## The health report (R393) -/

/-- Sites of a stack in a set. -/
def countIn (m : Sites) (t : Nat) : Nat := (upTo (t * 512) 512).countP (fun i => hasSite m i)

/-- Sites of the part in a set. -/
def State.countAll (s : State) (m : Sites) : Nat := (upTo 0 s.sites).countP (fun i => hasSite m i)

/-- Names stack × 256 + n that lie in a stack. -/
def inStack (l : List Nat) (t : Nat) : Nat := l.countP (fun x => x / 256 == t)

/-- Slices half × 256 + slice that lie in a stack. -/
def slicesIn (l : List Nat) (t : Nat) : Nat := l.countP (fun x => x / 512 == t)

/-- Valid entries of a half's, or a device's, remap table. -/
def State.cacheRemapsUsed (s : State) (h : Nat) : Nat := (upTo 0 16).countP (fun j => s.rgB (.sc h) (0x2300 + 4 * j) 0)

/-- Valid entries of a device's remap table. -/
def State.memRemapsUsed (s : State) (d : Nat) : Nat := (upTo 0 8).countP (fun j => s.rgB (.mif d) (0x2300 + 8 * j) 0)

/-- Restricted spares and restricted cores in service. -/
def State.restrictedSet (s : State) : Sites := s.roster.restricted &&& ~~~ s.roster.fenced

/-- Whether service is degraded: bring-up raised READY so, or fewer cores serve than the grade enables (R379, R409). -/
def State.degraded (s : State) : Bool := s.boot.degraded || (s.partReady && decide (s.countAll s.roster.enabled < s.part.grade.enabled))

/-- The lost halves. -/
def State.lostHalves (s : State) : List Nat := (upTo 0 s.devices).filter (fun h => (s.half h).lost)

/-- The 16 bytes of a stack's entry. -/
def State.healthStack (s : State) (t : Nat) : List Byte :=
  let b (x : Bool) (n : Nat) : Nat := if x then n else 0
  toBytes 4 (countIn s.roster.enabled t + countIn s.roster.spare t * 2 ^ 10 + countIn s.restrictedSet t * 2 ^ 18) ++
  toBytes 4 (slicesIn s.health.retiredSlices t + slicesIn (s.health.halfWidth.map (·.1)) t * 2 ^ 10 +
    inStack s.health.darkRegions t * 2 ^ 20) ++
  toBytes 4 (inStack s.health.regFails t + s.rgF (.pwr t) 0x000 10 5 * 2 ^ 8 + s.rgF (.pwr t) 0x000 14 11 * 2 ^ 14 +
    inStack s.health.failedSensors t * 2 ^ 18 + b (s.half (2 * t)).lost (2 ^ 26) + b (s.half (2 * t + 1)).lost (2 ^ 27)) ++
  toBytes 4 (s.cacheRemapsUsed (2 * t) + s.cacheRemapsUsed (2 * t + 1) * 2 ^ 5 + s.memRemapsUsed (2 * t) * 2 ^ 10 +
    s.memRemapsUsed (2 * t + 1) * 2 ^ 14)

/-- The 16 bytes of a unit entry. -/
def UnitEntry.bytes (e : UnitEntry) : List Byte :=
  toBytes 4 (e.kind % 16 + e.site % 4096 * 65536) ++ toBytes 4 e.detail ++ toBytes 8 e.time

/-- The whole report. -/
def State.healthReport (s : State) : List Byte :=
  let h := s.health
  let b (x : Bool) (n : Nat) : Nat := if x then n else 0
  toBytes 4 (0x4852 + 2 ^ 16 + s.part.stepping % 256 * 2 ^ 24) ++ toBytes 4 s.healthLength ++
  toBytes 4 (s.countAll s.roster.enabled + s.part.grade.enabled * 65536) ++
  toBytes 4 (s.countAll s.roster.spare + s.countAll s.restrictedSet * 65536) ++
  toBytes 4 (s.countAll s.roster.retired + h.retiredSlices.length * 65536) ++
  toBytes 4 (h.darkRegions.length % 256 + s.lostHalves.length % 256 * 256 + s.net.bypassed.length % 256 * 65536 +
    h.erasedDies.length % 256 * 2 ^ 24) ++
  toBytes 4 s.recoveredCnt ++ toBytes 4 s.unrecoveredCnt ++ toBytes 8 s.time.now ++ toBytes 4 h.hours ++
  toBytes 4 (b s.partReady 1 + b s.degraded 2 + b s.boot.cfg.spread 4 + b s.boot.cfg.compat 8 + b h.excursion 16 + b s.boot.shortfall 32) ++
  toBytes 4 h.entries.length ++ toBytes 12 0 ++
  (upTo 0 s.stacks).flatMap s.healthStack ++ h.entries.flatMap UnitEntry.bytes

/-- HEALTH_QUERY (R265, R276, R393): to device memory of the partition, or to the admin host, which waits in D3hot. -/
def execHealthQuery (cid : Nat) (s : State) : Out :=
  runCmd s cid (isOp 0x48) (fun t c =>
    let bs := t.healthReport.take (c.dw 4).toNat
    if !c.admin then (t.cpWrite c (c.addr 2) bs).finish cid 0 bs.length
    else if t.hostWaits c.port then t
    else (t.hostWrite c.port (c.addr 2) bs).finish cid 0 bs.length)

/-! ## The management port (R288) -/

/-- The 16-byte reply to a management packet. -/
def State.mgmtReply (s : State) (pkt : List Byte) (status : Nat) : List Byte :=
  toBytes 4 (leField pkt 2 2 + status * 65536) ++ toBytes 4 0xFFFFFFFF ++ toBytes 8 s.time.now

/-- The reply and the result, at most 239 bytes of it, are ready to be read. -/
def State.mgmtAnswer (s : State) (pkt : List Byte) (status : Nat) (result : List Byte) : State :=
  { s with mgmt := { s.mgmt with packet := none, reply := s.mgmtReply pkt status ++ result.take 239 } }

/-- SMBUS_BLOCK_WRITE (R288): a packet of 64 bytes with a good PEC. THERMAL_READ and POWER_READ follow as rows of their own. Its reserved bits and
unused parameters are not looked at (DESIGN CHOICE, log entry 148). -/
def execSmbusBlockWrite (data : List Byte) (pecOk : Bool) (s : State) : Out :=
  .next (
    if !pecOk || data.length != 64 || !s.pins.vddAon then s
    else
      match leField data 0 1 with
      | 0x00 => s.mgmtAnswer data 0 []
      | 0x48 => s.mgmtAnswer data 0 s.healthReport
      | 0x70 => { s with mgmt := { s.mgmt with packet := some data } }
      | 0x71 => { s with mgmt := { s.mgmt with packet := some data } }
      | _ => s.mgmtAnswer data 0x03 [])

/-- A management command that has arrived. -/
def State.mgmtRun (s : State) (op : Nat) (result : List Byte) : State :=
  match s.mgmt.packet with
  | some pkt => if leField pkt 0 1 = op then s.mgmtAnswer pkt 0 result else s
  | none => s

/-- THERMAL_READ (R288): every sensor, stack by stack. -/
def execThermalRead (s : State) : Out :=
  .next (s.mgmtRun 0x70 ((upTo 0 s.stacks).flatMap (fun t =>
    (upTo 0 208).flatMap (fun i => toBytes 2 (s.rgF (.thm t) (0x100 + 4 * i) 15 0)))))

/-- POWER_READ (R288): the input power and the Trim state, in a layout that the spec does not give (log entry 27). -/
def execPowerRead (s : State) : Out :=
  .next (s.mgmtRun 0x71 (Config.powerReport
    ([s.rgF .trim 0x018 15 0] ++ [0x000, 0x004, 0x008, 0x00C, 0x010, 0x014].map (fun o => (s.rg .trim o).toNat))))

/-- SMBUS_BLOCK_READ (R288): the reply and result are returned. -/
def execSmbusBlockRead (pecOk : Bool) (s : State) : Out :=
  .next (if pecOk && s.pins.vddAon then { s with mgmt := { s.mgmt with out := s.mgmt.reply } } else s)

end Sys2Proof.Machine
end

