-- ==== Sys2Proof/Machine/HostPort.lean ====
section
/-! DEFINITION. Host ports: the device-memory window, AtomicOps, resets of a port, D3hot, the link (R184, R191, R201, R207, R211,
R261 to R265, R287, R289, R290). -/

namespace Sys2Proof.Machine

/-! ## The device-memory window (R263) -/

/-- The device address that an offset of BAR 2 reaches. -/
def State.dmwAddr (s : State) (port off : Nat) : Nat :=
  let b := s.hpBlk port
  let base := (s.rg b 0x008).toNat + 2 ^ 32 * s.rgF b 0x00C 15 0
  let n := (s.port port).dmwGib * 2 ^ 30
  base / n * n + off

/-- Whether a command of a partition runs on a core (R184, R201): its launch message has come and the core has not acknowledged
the end. -/
def State.cmdRunsOn (s : State) (p i : Nat) : Bool :=
  s.cmds.any (fun c => !c.admin && c.part == p && c.launched.contains i && !c.acked.contains i)

/-- The site whose local memory holds [a, a + n). -/
def State.localSite (s : State) (a n : Nat) : Option Nat :=
  let i := (a - lmemBase) / 0x80000
  if lmemBase ≤ a ∧ i < s.sites ∧ (a - lmemBase) % 0x80000 + n ≤ 0x80000 then some i else none

/-- The partition of a port for which a window access of [a, a + n) is made, if it reaches it (R184, R263): ranges of all the
port's partitions together, windows of their slices, local memories of their idle cores. -/
def State.hostReach (s : State) (port a n : Nat) : Option Nat :=
  let ps := s.partsOf port
  let rs := ps.flatMap (fun p => ((mfind s.parts p).map (·.ranges)).getD [])
  if a + n ≤ coverFrom rs 128 a then ps.find? (fun p => s.inRanges p a 1)
  else if s.inWindow a n then ps.find? (fun p => decide (s.winPart (siteHalf (winSite a)) (siteSlice (winSite a)) = p))
  else
    match s.localSite a n with
    | some i => ps.find? (fun p => decide (s.corePart i = some p) && !s.cmdRunsOn p i)
    | none => none

/-- A host port as it accesses its window for a partition (R229, R240, R241). -/
def hostEng (port p serial : Nat) : Eng := ⟨noSite, 72, port, noCid, 0, p, [], 0, 0, 0, serial⟩

/-- A refused window access or an AtomicOp: Unsupported Request, counted (R184, R191, R263). -/
def State.unsupported (s : State) (port : Nat) : State :=
  (s.setPort port { s.port port with lastRead := [], lastOk := false, lastPoisoned := false }).bump (s.hpBlk port) 0x100 1

/-- A window read is complete: a poisoned completion is counted and raised, a refused one is unsupported (R191, R211, R285, R289). -/
def State.hostRead (s : State) (port : Nat) (g : Got) : State :=
  match g with
  | .data bs =>
    let bad := bs.any (·.2)
    let s := s.setPort port { s.port port with lastRead := bs.map (·.1), lastOk := true, lastPoisoned := bad }
    let s := s.hostTx port bs.length
    if bad then (s.bump (s.hpBlk port) 0x104 1).portEvent port 5 else s
  | _ => s.unsupported port

/-- The window reads of a port whose data has come are completed. -/
def State.settleReads (s : State) (port : Nat) : State :=
  (s.port port).windowReads.foldl (fun t x =>
    let e := hostEng port x.2.1 x.1
    match t.gatherOne e (.here x.2.2.1 x.2.2.2) with
    | .wait => t
    | g =>
      let t := (t.used e).hostRead port g
      t.setPort port { t.port port with windowReads := (t.port port).windowReads.filter (fun y => y.1 != x.1) }) s

/-- Whether a write of a port has yet to be performed. -/
def State.hostWriting (s : State) (port : Nat) : Bool :=
  s.net.reqs.any (fun r => r.slot == 72 && r.lane == port && r.kind == .write && r.unperformed)

/-- A posted write of a port goes out to its place, or is discarded and counted; a doorbell waits until the writes before it are performed (R184,
R191, R263). -/
def State.postOne (s : State) (port : Nat) (x : Bool × Nat × List Byte) : Option State :=
  if !x.1 then (if s.hostWriting port then none else some (s.ringBell port (x.2.1 / 2) (decide (x.2.1 % 2 = 0)) (ofBytes x.2.2 % 65536)))
  else
    let n := x.2.2.length
    let a := s.dmwAddr port x.2.1
    match s.hostReach port a (max 1 n) with
    | none => some (s.unsupported port)
    | some p =>
      some ((((s.hostRx port n).queueWrite (hostEng port p s.net.nextSerial) a (x.2.2.map (fun b => (b, false)))).bumpSerial).sendQueued noSite)

/-- The posted writes and doorbells of a port are taken in order, as far as they go (R191). -/
def State.postAll (s : State) (port : Nat) : List (Bool × Nat × List Byte) → State
  | [] => s.setPosted port []
  | x :: xs =>
    match s.postOne port x with
    | some t => State.postAll t port xs
    | none => s.setPosted port (x :: xs)

/-- HOST_WINDOW_READ (R184, R191, R201, R211, R263, R265, R290): behind a doorbell that waits it does not come; it goes to the place of the data,
and is complete when that has answered. -/
def execHostWindowRead (port off len : Nat) (s : State) : Out :=
  if 4 ≤ port then .next s
  else if !s.linkUp port || decide ((s.port port).dmwGib * 2 ^ 30 ≤ off) then .next s
  else if (s.port port).d3hot then .next (s.unsupported port)
  else
    let s := s.postAll port (s.port port).posted
    if (s.port port).posted ≠ [] then .next s
    else
      let a := s.dmwAddr port off
      match s.hostReach port a (max 1 len) with
      | none => .next (s.unsupported port)
      | some p =>
        let k := s.net.nextSerial
        let t := (s.queueRead (hostEng port p k) a len).bumpSerial.sendQueued noSite
        .next ((t.setPort port { t.port port with windowReads := (t.port port).windowReads ++ [(k, p, a, len)] }).settleReads port)

/-- HOST_WINDOW_WRITE (R184, R191, R263, R265, R388): it goes to the place of the data, behind what the port has posted before. -/
def execHostWindowWrite (port off : Nat) (data : List Byte) (s : State) : Out :=
  if 4 ≤ port then .next s
  else if !s.linkUp port || decide ((s.port port).dmwGib * 2 ^ 30 ≤ off) then .next s
  else if (s.port port).d3hot then .next (s.unsupported port)
  else .next (s.postAll port ((s.port port).posted ++ [(true, off, data)]))

/-- ATOMICOP_REQUEST (R191, R289). -/
def execAtomicopRequest (port : Nat) (s : State) : Out :=
  if 4 ≤ port then .next s
  else .next (if s.linkUp port then s.unsupported port else s)

/-! ## Resets (R264) -/

/-- FUNCTION_LEVEL_RESET (R264, R290): a later event of the row goes on with a reset that waits for requests in flight. -/
def execFunctionLevelReset (port : Nat) (s : State) : Out :=
  if 4 ≤ port then .next s
  else .next (if s.linkUp port then s.portReset port else s)

/-- A port's link is down: LINK_UP, RATE and WIDTH read 0 (R289). -/
def State.linkDown (s : State) (port : Nat) : State := s.wgF (s.hpBlk port) 0x000 8 0 0

/-- PERST_N (R264, R413): asserted, it takes the link down, returns the port to D0 and resets its partitions and queues; the link
may train again once it is deasserted. One that is low already stays so. -/
def execPerstN (port : Nat) (level : Bool) (s : State) : Out :=
  if 4 ≤ port then .next s
  else
    let low := !nth true s.pins.perstN port
    let s := { s with pins := { s.pins with perstN := setNth s.pins.perstN port level } }
    .next (if level || low then s
      else
        let s := (s.linkDown port).portReset port
        s.setPort port { s.port port with d3hot := false, heldIrqs := [], irqs := [] })

/-! ## D3hot (R265) -/

/-- D3HOT_ENTRY (R261, R265). -/
def execD3hotEntry (port : Nat) (s : State) : Out :=
  if 4 ≤ port then .next s
  else .next (if s.linkUp port then s.setPort port { s.port port with d3hot := true } else s)

/-- D0_RETURN (R24, R265, R270): the held replies are written in completion order, then the held interrupts go out. -/
def execD0Return (port : Nat) (s : State) : Out :=
  if 4 ≤ port then .next s
  else if !s.linkUp port || !(s.port port).d3hot then .next s
  else
    let held := (s.port port).held
    let s := s.setPort port { s.port port with held := [] }
    let s := held.foldl State.writeHeld s
    let p := s.port port
    .next (s.setPort port { p with d3hot := false, irqs := p.irqs ++ p.heldIrqs, heldIrqs := [] })

/-! ## The link (R261, R287) -/

/-- Whether the part is held in reset or has lost its rails to a trip (R368, R395). -/
def State.held (s : State) : Bool := !s.pins.resetN || !s.pins.pwrgd || !s.pins.vddAon || s.pins.thermtrip

/-- STAGE of PWR_BOOT_STATUS (R410). -/
def State.bootStage (s : State) : Nat := s.rgF (.pwr 0) 0x040 3 0

/-- HOST_LINK_TRAINING (R261, R262, R289, R403): from stage 1 on; rates 1 to 6 and widths 4, 8 and 16 come up, a narrower link stays down. With
the link the host sets the size of BAR 2 in GiB, 1 to 256 in powers of two; any other leaves it (DESIGN CHOICE, log entry 125). -/
def execHostLinkTraining (port rate width bar2 : Nat) (s : State) : Out :=
  if 4 ≤ port then .next s
  else if s.held || decide (s.bootStage = 0) || !nth true s.pins.perstN port || decide (rate = 0) || decide (6 < rate) then .next s
  else if [4, 8, 16].contains width then
    let s := if (upTo 0 9).any (fun k => bar2 == 2 ^ k) then s.setPort port { s.port port with dmwGib := bar2 } else s
    .next (s.wgF (s.hpBlk port) 0x000 8 0 (1 + rate * 2 + width * 16))
  else .next (s.linkDown port)

/-- HOST_LINK_DOWN (R287): partitions run on, Trim holds its setting. -/
def execHostLinkDown (port : Nat) (s : State) : Out :=
  if 4 ≤ port then .next s else .next (s.linkDown port)

end Sys2Proof.Machine
end

