-- ==== Sys2Proof/Machine/Fabric.lean ====
section
/-! DEFINITION. Fabric ports: training and wiring faults, link retry and give-up, remote accesses that arrive, answers, time marks
(R184, R192, R210, R211, R248, R252, R292 to R305, R426, R429). -/

namespace Sys2Proof.Machine

/-! ## Link state (R298 to R301, R304) -/

/-- A fabric port's STATE. -/
def State.fabState (s : State) (j : Nat) : Nat := s.rgF (.fp j) 0x000 1 0

/-- Change a fabric port's record. -/
def State.modFport (s : State) (j : Nat) (f : FabPort → FabPort) : State := s.setFport j (f (s.fport j))

/-- The widest lane group of R291 without a bad lane, no wider than `most`, in the coding of WIDTH. -/
def laneWidth (bad most : Nat) : Option Nat :=
  if most = 0 ∧ bad % 256 = 0 then some 0
  else if most ≤ 1 ∧ (bad % 16 = 0 ∨ bad / 16 % 16 = 0) then some 1
  else if most ≤ 2 ∧ (upTo 0 4).any (fun i => decide (bad / 4 ^ i % 4 = 0)) = true then some 2
  else none

/-- This part's own request that a packet's tag names. -/
def State.tagged (s : State) (tag : Nat) : Option Req :=
  s.net.reqs.find? (fun r => r.remote.isSome && !r.ended && decide (r.rid % 2 ^ 24 = tag))

/-- An own request is reported to the remote-access level as failed on a port (R300, R301). -/
def State.failPkt (s : State) (j typ : Nat) (k : FabPkt) : State :=
  match (if isRequest typ && k.src == s.boot.cfg.deviceId then s.tagged k.tag else none) with
  | some r => { s with fab := { s.fab with failed := mput s.fab.failed r.rid j } }
  | none => s

/-- A frame that a port has sent and that nothing has answered, as the port is given up: an own request has failed; anything else goes out on the
alternate, a forwarded request marked as a repeat (R294, R300, R301; DESIGN CHOICE, log entry 151). -/
def State.lostFrame (s : State) (j : Nat) (p : SentPkt) : State :=
  if isRequest p.typ && p.pkt.src == s.boot.cfg.deviceId then s.failPkt j p.typ p.pkt
  else
    match s.altPort p.pkt.dst j with
    | none => s
    | some i =>
      if p.pkt.src = s.boot.cfg.deviceId then s.emit i p.typ p.pkt else s.transmit i p.typ { p.pkt with rt := p.pkt.rt || isRequest p.typ }

/-- A packet that waits at a port goes to the alternate, or fails as a give-up (R303). -/
def State.moveOne (s : State) (j : Nat) (p : Nat × FabPkt) : State :=
  match s.altPort p.2.dst j with
  | none => s.failPkt j p.1 p.2
  | some i => if p.2.src = s.boot.cfg.deviceId then s.emit i p.1 p.2 else s.transmit i p.1 p.2

/-- A port that was up goes down or trains again: what it has sent is given up, what waits at it moves to the alternate in order (R300, R303). -/
def State.movePackets (s : State) (j : Nat) : State :=
  let x := s.fport j
  let s := s.modFport j (fun x => { x with sentPkts := [], waiting := [], replays := [] })
  x.waiting.foldl (fun t p => t.moveOne j p) (x.sentPkts.foldl (fun t p => t.lostFrame j p) s)

/-- A port goes down: STATE 0, no width, no peer. -/
def State.fabDown (s : State) (j : Nat) : State :=
  let s := (((s.wgF (.fp j) 0x000 1 0 0).wgF (.fp j) 0x000 3 2 3).wgF (.fp j) 0x000 7 5 0).wgB (.fp j) 0x004 31 false
  (s.wgB (.fp j) 0x008 2 false).movePackets j

/-- FP_CTRL.RETRAIN, which reads 1 while a training it asked for is pending (R6, R304). -/
def State.fabAsked (s : State) (j : Nat) : Bool := s.rgB (.fp j) 0x008 2

/-- Training begins (R298). A new one, on RETRAIN or after a reset, tries every lane for full width; a port that a give-up has narrowed trains
no wider until then (R300). -/
def State.fabTrain (s : State) (j : Nat) (anew : Bool) : State :=
  let s := s.wgF (.fp j) 0x000 7 0 (1 + s.rgF (.fp j) 0x000 4 4 * 16)
  let s := if anew || decide ((s.fport j).most = 0) then s.wgF (.fp j) 0x000 15 8 0 else s
  (s.wgB (.fp j) 0x004 31 false).modFport j (fun x => { x with
    trainFrom := s.time.now, full := true, retry := false, most := if anew then 0 else x.most })

/-- FABRIC_PORT_TRAINING (R298): EN is 1 and the port is down. -/
def execFabricPortTraining (port : Nat) (s : State) : Out :=
  if s.fabPorts ≤ port then .next s
  else .next (if !s.held && s.rgB (.fp port) 0x008 0 && decide (s.fabState port = 0) then s.fabTrain port false else s)

/-- FABRIC_TRAINING_RETRY (R298): 1 s after training that heard nothing. -/
def execFabricTrainingRetry (port : Nat) (s : State) : Out :=
  if s.fabPorts ≤ port then .next s
  else
    let x := s.fport port
    .next (if !s.held && x.retry && s.rgB (.fp port) 0x008 0 && decide (s.fabState port = 0) &&
        decide (x.trainFrom + 250000000 ≤ s.time.now) then s.fabTrain port false else s)

/-- Whether a host port's write to a fabric port's control register takes effect (R167, R287). -/
def State.fabWrites (s : State) (host j : Nat) : Bool :=
  s.linkUp host && decide (host = s.boot.cfg.adminPort) && decide (j < s.fabPorts)

/-- A write of 1 to RETRAIN of an enabled port (R6, R8, R298, R303): no effect while one is pending; a retrain that a give-up has
begun goes on, narrowed. -/
def State.fabRetrain (s : State) (port : Nat) : State :=
  if !s.rgB (.fp port) 0x008 0 || s.fabAsked port then s
  else if s.fabState port = 1 ∧ (s.fport port).full = false then s.wgB (.fp port) 0x008 2 true
  else ((s.fabTrain port true).wgB (.fp port) 0x008 2 true).movePackets port

/-- A write of 1 to ACCEPT_HELD (R298): a link held for a crossed cable comes up. -/
def State.fabAccept (s : State) (port : Nat) : State :=
  if s.fabState port = 3 ∧ s.rgF (.fp port) 0x000 7 5 = 2 then
    (s.wgF (.fp port) 0x000 1 0 2).wgF (.fp port) 0x000 7 5 0
  else s

/-- RETRAIN (R298, R303, R304). -/
def execRetrain (hostPort port : Nat) (s : State) : Out :=
  if 4 ≤ hostPort ∨ s.fabPorts ≤ port then .next s
  else
    let s := if s.linkUp hostPort then s.hostRx hostPort 4 else s
    .next (if s.fabWrites hostPort port then s.fabRetrain port else s)

/-- ACCEPT_HELD (R298, R304). -/
def execAcceptHeld (hostPort port : Nat) (s : State) : Out :=
  if 4 ≤ hostPort ∨ s.fabPorts ≤ port then .next s
  else
    let s := if s.linkUp hostPort then s.hostRx hostPort 4 else s
    .next (if s.fabWrites hostPort port then s.fabAccept port else s)

/-- The reason of R298 for which a trained link is held, or 0. -/
def State.heldReason (s : State) (j : Nat) (t : FabTrain) : Nat :=
  if t.peerId = s.boot.cfg.deviceId then (if t.peerSerial = s.part.serial then 1 else 3)
  else
    let e := s.rg (.fp j) 0x00C
    if e.getLsbD 31 && !(decide (getF 14 0 e = t.peerId) && decide (getF 19 16 e = t.peerPort)) then 2 else 0

/-- Training ends with lanes good enough: the peer is known, the link up or held (R298). -/
def State.fabTrained (s : State) (j w bad : Nat) (t : FabTrain) : State :=
  let b := Blk.fp j
  let why := s.heldReason j t
  let s := (((s.wgF b 0x000 3 2 w).wgF b 0x000 15 8 bad).wgF b 0x000 7 5 why).wgB b 0x008 2 false
  let s := s.wgF b 0x000 1 0 (if why = 0 then 2 else 3)
  let s := ((s.wgF b 0x004 14 0 t.peerId).wgF b 0x004 19 16 t.peerPort).wgB b 0x004 31 true
  let s := s.modFport j (fun x => { x with peerSerial := t.peerSerial })
  if why ≠ 0 ∨ t.lanesBad % 256 ≠ 0 ∨ t.corrected = true then s.adminEvent 9 else s

/-- FABRIC_TRAINING_DONE (R298, R300): up, held, or down; after a give-up no wider than it left the port, until a RETRAIN. -/
def execFabricTrainingDone (port : Nat) (result : FabTrain) (s : State) : Out :=
  if s.fabPorts ≤ port then .next s
  else if s.fabState port ≠ 1 then .next s
  else
    let b := Blk.fp port
    let x := s.fport port
    if !result.heard then
      .next (if x.trainFrom + 100000000 ≤ s.time.now then
        ((s.fabDown port).modFport port (fun x => { x with retry := true })).adminEvent 9 else s)
    else
      let old := if x.full then x.most else s.rgF b 0x000 3 2
      let bad := ((BitVec.ofNat 8 result.lanesBad) ||| (BitVec.ofNat 8 (s.rgF b 0x000 15 8))).toNat
      match laneWidth bad old with
      | none => .next (((s.fabDown port).wgF b 0x000 15 8 bad).adminEvent 9)
      | some w =>
        let s := if (x.full && x.most == 0) || decide (w ≤ old) then s else s.bump b 0x508 1
        .next ((s.fabTrained port w bad result).drainPort port)

/-! ## Link retry (R299 to R301, R303) -/

/-- The peer whose replays count together: in direct mode the link, in Ethernet mode the part (R299). -/
def State.peerKey (s : State) (j dev : Nat) : Nat := if s.isEth j then dev else 0

/-- Replays of a peer within the past 100 µs. -/
def State.recentReplays (s : State) (j key : Nat) : List Nat :=
  ((mfind (s.fport j).replays key).getD []).filter (fun t => decide (s.time.now < t + 25000))

/-- The frames of a port to a peer from number n on. -/
def State.framesFrom (s : State) (j key : Nat) (n : W32) : List SentPkt :=
  (s.fport j).sentPkts.filter (fun p => s.peerKey j p.pkt.dst == key && decide (0 ≤ (p.frame - n).toInt))

/-- A replay of a port's frames to a peer from number n on (R299, R305). The remote-access timer of each request among them moves later once, by
100 µs (R301). -/
def State.replay (s : State) (j key : Nat) (n : W32) : State :=
  let again := s.framesFrom j key n
  let tags := (again.filter (fun p => isRequest p.typ && p.pkt.src == s.boot.cfg.deviceId)).map (fun p => p.pkt.tag)
  let rs := s.recentReplays j key
  let s := s.modFport j (fun x => { x with
    replays := mput x.replays key (rs ++ [s.time.now])
    sentPkts := x.sentPkts.map (fun p => if again.contains p then { p with at_ := s.time.now } else p) })
  let s := { s with net := { s.net with reqs := s.net.reqs.map (fun (r : Req) =>
    if r.remote.isSome ∧ tags.contains (r.rid % 2 ^ 24) = true then { r with heldOnce := true } else r) } }
  s.bump (.fp j) 0x500 again.length

/-- A negative acknowledgement goes to a peer: the number of the frame that it asks for (R299). -/
def State.sendNak (s : State) (j key : Nat) (n : W32) : State :=
  { s with fab := { s.fab with naks := s.fab.naks ++ [(j, key, n)] } }

/-- LINK_FRAME_ERROR (R292, R299, R305): a peer's negative acknowledgement starts a replay from the frame it names; a frame that fails here is
answered with one in direct mode, and dropped in Ethernet mode. Errors that lanes cause are uncorrectable codewords. -/
def execLinkFrameError (port : Nat) (nak : Option (Nat × W32)) (badLanes : Nat) (s : State) : Out :=
  if s.fabPorts ≤ port then .next s
  else if s.fabState port < 2 then .next s
  else
    let s := if badLanes % 256 = 0 then s else s.bump (.fp port) 0x50C 1
    .next (match nak with
      | some (dev, n) =>
        let key := s.peerKey port dev
        if 17 ≤ (s.recentReplays port key).length then s else s.replay port key n
      | none => if s.isEth port then s.bump (.fp port) 0x518 1 else s.sendNak port 0 (s.fport port).expFrame)

/-- The peers of a port with a request that has had no answer for RETX_US, whose replays are not spent, with the first frame that each has not
answered (R299, R304). -/
def State.retxDue (s : State) (j : Nat) : List (Nat × W32) :=
  let us := max 1 (s.rgF (.fp j) 0x008 20 13)
  let l := (s.fport j).sentPkts.filter (fun p => isRequest p.typ)
  let due := ((l.filter (fun p => decide (p.at_ + 250 * us ≤ s.time.now))).map (fun p => s.peerKey j p.pkt.dst)).eraseDups
  (due.filter (fun key => decide ((s.recentReplays j key).length < 17))).filterMap (fun key =>
    (l.find? (fun p => s.peerKey j p.pkt.dst == key)).map (fun p => (key, p.frame)))

/-- RETX_TIMER (R299, R304): peer by peer. -/
def execRetxTimer (port : Nat) (s : State) : Out :=
  if s.fabPorts ≤ port then .next s
  else .next (if s.portUp port && s.isEth port then (s.retxDue port).foldl (fun t x => t.replay port x.1 x.2) s else s)

/-- The peers of a port that have had 17 replays within 100 µs. -/
def State.spentPeers (s : State) (j : Nat) : List Nat :=
  ((s.fport j).replays.map (·.1)).filter (fun key => decide (17 ≤ (s.recentReplays j key).length))

/-- LINK_GIVE_UP (R299 to R301): the 17th replay within 100 µs, of the link or of a peer. Every packet that it has not acknowledged has failed; the
port retrains on the widest group without the lanes that caused the replays. -/
def execLinkGiveUp (port badLanes : Nat) (s : State) : Out :=
  if s.fabPorts ≤ port then .next s
  else
    let spent := s.spentPeers port
    if spent = [] ∨ s.fabState port < 2 then .next s
    else
      let b := Blk.fp port
      let s := s.bump b 0x504 1
      let gone (p : SentPkt) : Bool := spent.contains (s.peerKey port p.pkt.dst)
      let ps := (s.fport port).sentPkts.filter gone
      let s := s.modFport port (fun x => { x with
        sentPkts := x.sentPkts.filter (fun p => !gone p), replays := x.replays.filter (fun e => !spent.contains e.1)
        trainFrom := s.time.now, full := false, retry := false })
      let old := s.rgF b 0x000 3 2
      let bad := ((BitVec.ofNat 8 badLanes) ||| (BitVec.ofNat 8 (s.rgF b 0x000 15 8))).toNat
      let s := s.wgF b 0x000 15 8 bad
      match laneWidth bad old with
      | none => .next ((ps.foldl (fun t p => t.lostFrame port p) (s.fabDown port)).adminEvent 9)
      | some w =>
        let s := if w ≤ old then s else s.bump b 0x508 1
        let s := (((s.wgF b 0x000 1 0 1).wgF b 0x000 3 2 w).wgF b 0x000 7 5 0).modFport port (fun x => { x with most := w })
        .next (ps.foldl (fun t p => t.lostFrame port p) s)

/-- FABRIC_LINK_DOWN (R303). -/
def execFabricLinkDown (port : Nat) (s : State) : Out :=
  if s.fabPorts ≤ port then .next s
  else .next (if s.fabState port < 2 then s else s.fabDown port)

/-! ## Requests of this part (R192, R297, R301) -/

/-- Whether a frame carries an own request. -/
def SentPkt.carries (p : SentPkt) (own : Nat) (r : Req) : Bool :=
  isRequest p.typ && p.pkt.src == own && p.pkt.tag == r.rid % 2 ^ 24

/-- The frames of a port that stay for a replay once a request is answered: its own frame and those that went before it to the same peer have
been received (R299; DESIGN CHOICE, log entry 150). -/
def State.unacked (s : State) (j : Nat) (r : Req) : List SentPkt :=
  let l := (s.fport j).sentPkts
  match l.find? (fun p => p.carries s.boot.cfg.deviceId r) with
  | none => l
  | some p => l.filter (fun q => s.peerKey j q.pkt.dst != s.peerKey j p.pkt.dst || decide (0 < (q.frame - p.frame).toInt))

/-- A request waits for nothing any more: its frame and its failure are forgotten, and what waited for room goes out. -/
def State.unsent (s : State) (r : Req) : State :=
  let s := (upTo 0 s.fabPorts).foldl (fun t j => (t.modFport j (fun x => { x with
    sentPkts := t.unacked j r, waiting := x.waiting.filter (fun p => !(isRequest p.1 && p.2.src == t.boot.cfg.deviceId && p.2.tag == r.rid % 2 ^ 24)) })).drainPort j) s
  { s with fab := { s.fab with failed := merase s.fab.failed r.rid } }

/-- The port that carries an unacknowledged request, in the coding of PORT (R275). -/
def State.reqPort (s : State) (r : Req) : Nat :=
  match (upTo 0 s.fabPorts).find? (fun j => (s.fport j).sentPkts.any (fun p => p.carries s.boot.cfg.deviceId r)) with
  | some j => 16 + j
  | none => 0xFF

/-- A remote request fails for good. -/
def State.failReq (s : State) (r : Req) (code port : Nat) : State := ((s.unsent r).dropReq r.rid).remoteFail r.cid code port

/-- REMOTE_ACCESS_TIMEOUT (R297, R301): 10 ms, or 100 µs more after a link replay, with no give-up reported. -/
def execRemoteAccessTimeout (rid : Nat) (s : State) : Out :=
  match s.req? rid with
  | none => .next s
  | some r =>
    .next (if r.remote.isSome && !r.ended && (mfind s.fab.failed rid).isNone &&
        decide (r.sentAt + 2500000 + (if r.heldOnce then 25000 else 0) ≤ s.time.now) then s.failReq r 6 (s.reqPort r)
      else s)

/-- REMOTE_RESEND (R301): a request that a link gave up on goes out once more, with RT = 1, on the alternate port; with none, or the
second time, the command fails with code 5. -/
def execRemoteResend (rid : Nat) (s : State) : Out :=
  match s.req? rid, mfind s.fab.failed rid with
  | some r, some j =>
    (match r.remote with
     | none => .next s
     | some (dst, part, a) =>
       match (if r.attempt = 0 then s.altPort dst j else none) with
       | none => .next (s.failReq r 5 (16 + j))
       | some i =>
         let s := { (s.setReq { r with attempt := 1 }) with fab := { s.fab with failed := merase s.fab.failed rid } }
         .next (s.emit i r.kind.typ (r.packet s.boot.cfg.deviceId dst part a true)))
  | _, _ => .next s

/-- The answer of a read: to a thread's registers, or to the engine that waits; poisoned data that a thread loads is consumed. -/
def State.readBack (s : State) (r : Req) (k : FabPkt) : State :=
  let s := s.unsent r
  if r.slot < 64 then
    if k.poison.any id then (s.dropReq r.rid).eatAt r
    else ((s.answer { r with result := BitVec.ofNat 128 (ofBytes k.data) }).dropReq r.rid).watch r.site r.slot r.space r.ea r.size false
  else if r.slot = 64 then (s.dropReq r.rid).settle r.cid
  else (s.answer r).setReq { r with state := .ready, line := k.data, lpois := k.poison }

/-- The acknowledgement of a write, an atomic or a reduction (R192): it is performed, and nothing of it is under way any more. -/
def State.acked (s : State) (r : Req) (k : FabPkt) : State :=
  let s := s.unsent r
  let fin (t : State) : State := (t.dropReq r.rid).settle r.cid
  let did (t : State) : State := t.modCore r.site (fun c =>
    match c.blockOf r.cid r.lin with
    | some b => { c with blocks := mmod c.blocks b (fun x => { x with didAtomic := true }) }
    | none => c)
  let old := ofBytes k.data
  match r.kind with
  | .atomic op =>
    if k.poison.any id then (s.dropReq r.rid).eatAt r
    else
      let s := did s
      let s := if atomicNew op r.size old r.data.toNat r.cmp.toNat = old then s
        else s.progress r.site r.cid r.lin r.slot r.lane
      fin ((s.answer { r with result := BitVec.ofNat 128 old }).watch r.site r.slot r.space r.ea r.size true)
  | kind =>
    let s := match kind with | .reduce _ => did s | _ => s
    if r.slot < 64 then
      fin ((s.progress r.site r.cid r.lin r.slot r.lane).watch r.site r.slot r.space r.ea r.size true)
    else fin s

/-! ## Packets that arrive (R292 to R297) -/

/-- Whether a packet is a duplicate of one already seen from its source and source port (R303). -/
def State.seen (s : State) (j : Nat) (k : FabPkt) : Bool :=
  match mfind (s.fport j).peerIn (k.src * 16 + k.srcPort) with
  | some q => decide ((k.seq - q).toInt ≤ 0)
  | none => false

/-- Whether a packet comes out of turn in Ethernet mode: its SEQ leaves a gap behind the last of its source and source port (R299). -/
def State.gap (s : State) (j : Nat) (k : FabPkt) : Option W32 :=
  match (if s.isEth j then mfind (s.fport j).peerIn (k.src * 16 + k.srcPort) else none) with
  | some q => if k.seq = q + 1 then none else some (q + 1)
  | none => none

/-- A new packet is counted, stamped where it is marked, and its SEQ kept (R294, R299, R302, R305, R421). -/
def State.took (s : State) (j : Nat) (k : FabPkt) : State :=
  let s := s.modFport j (fun x => { x with
    peerIn := mput x.peerIn (k.src * 16 + k.srcPort) k.seq, expFrame := x.expFrame + 1 })
  ((s.bump64 (.fp j) 0x528 k.data.length).bump64 (.cnt 0) 0x110 k.data.length).stamp j true k

/-- An answer of this part goes out by the route to the source, or back to the part itself (R295); with no usable route it is lost. -/
def State.reply (s : State) (typ : Nat) (k : FabPkt) (tag : Nat) (data : List Byte) (poison : List Bool) : State :=
  let a := { k with mark := false, rt := false, dst := k.src, src := s.boot.cfg.deviceId, tag := tag, data := data, poison := poison }
  if k.src = s.boot.cfg.deviceId then s.loopBack typ a
  else
    match s.routePort k.src with
    | none => s
    | some j => s.emit j typ a

/-- A refusal of a packet of a TYPE with its reason in TAG [7:0] (R294, R305); the bits above it hold the packet's tag, and `op` which TYPE is
refused (DESIGN CHOICE, log entry 152). -/
def State.refuseTyp (s : State) (typ : Nat) (k : FabPkt) (code : Nat) : State :=
  let s := match s.routePort k.src with | some j => s.bump (.fp j) 0x514 1 | none => s
  s.reply 7 { k with op := typ } (k.tag % 65536 * 256 + code) [] []

/-- A packet for another part is forwarded in class 3 under the ingress port's budget, or refused with reason 1 (R295). -/
def State.forward (s : State) (j typ : Nat) (k : FabPkt) : State :=
  match s.routePort k.dst with
  | some i =>
    let t := j / 2
    let (s, _) := s.inject (101000 + j) 3 (s.rgF (.msh t) (0x310 + 4 * (j % 2)) 15 0) (cdiv k.data.length 64)
      (.msh t, 0x810 + 4 * (j % 2))
    s.transmit i typ k
  | none => s.refuseTyp typ k 1

/-- Whether a packet of a TYPE is one of this part's own for itself, on its way back to it (R295). -/
def State.looped (s : State) (typ : Nat) (k : FabPkt) : Bool := s.fab.loop.contains (typ, k)

/-- A row that takes packets of a TYPE: a port that is not up takes none, but one that is held takes time marks (R298); a duplicate is discarded
(R303), one out of turn answered with a negative acknowledgement (R299), one for another part forwarded in direct mode; one for this part is
delivered. -/
def runFab (s : State) (port typ : Nat) (k : FabPkt) (waits : Bool) (deliver : State → State) : Out :=
  if s.fabPorts ≤ port then .next s
  else if s.looped typ k then
    .next (if waits then s else deliver { s with fab := { s.fab with loop := s.fab.loop.erase (typ, k) } })
  else if !s.portUp port && !(decide (typ = 8) && decide (s.fabState port = 3)) then .next s
  else if s.seen port k then .next (s.bump (.fp port) 0x500 1)
  else
    match s.gap port k with
    | some n => .next (s.sendNak port k.src n)
    | none =>
      if k.dst ≠ s.boot.cfg.deviceId then
        .next (if s.isEth port then s.took port k else (s.took port k).forward port typ k)
      else if waits then .next s
      else .next (deliver (s.took port k))

/-- The code with which a remote access of n bytes is refused, if it is (R297). -/
def State.fabCode (s : State) (k : FabPkt) (n : Nat) : Option Nat :=
  match mfind s.parts k.dstPart with
  | none => some 2
  | some q =>
    let w := mget 0 s.fab.accepts k.dstPart
    if !(w.getLsbD 15 && decide (getF 14 0 w ≤ k.src) && decide (k.src ≤ getF 30 16 w)) then some 2
    else if q.resetting then some 4
    else if !s.reach k.dstPart k.addr n then some 3
    else none

/-- A fabric port as it accesses memory for another part (R229, R240, R241, R257, R297). -/
def fabEng (port p serial : Nat) : Eng := ⟨noSite, 73, port, noCid, 0, p, [], 0, 0, 0, serial⟩

/-- What a remote request sends to the places of its data (R210, R294). -/
def State.fabQueue (s : State) (e : Eng) (typ : Nat) (k : FabPkt) : State :=
  let marked : List PByte := ((upTo 0 k.data.length).zip k.data).map (fun x => (x.2, nth false k.poison (x.1 / 32)))
  match typ with
  | 1 => s.queueRead e k.addr k.len
  | 3 => s.queueWrite e k.addr marked
  | 4 => s.enter { e.req (.atomic k.op) none k.addr k.len with
      data := BitVec.ofNat 128 (ofBytes (k.data.take k.len)), cmp := BitVec.ofNat 128 (ofBytes (k.data.drop k.len)) }
  | _ =>
    let z := reduceSize k.op
    (linePieces k.addr k.data.length).foldl (fun t x =>
      let d := (marked.drop (x.1 - k.addr)).take x.2
      t.enter { e.req (.reduce k.op) none x.1 x.2 with
        line := d.map (·.1), lpois := (upTo 0 (x.2 / z)).map (fun j => ((d.drop (z * j)).take z).any (·.2)) }) s

/-- A remote request is served under the next number. -/
def State.fabServe (s : State) (port typ : Nat) (k : FabPkt) : State :=
  let n := s.net.nextSerial
  let s := ((s.fabQueue (fabEng port k.dstPart n) typ k).bumpSerial).sendQueued noSite
  { s with fab := { s.fab with serving := s.fab.serving ++ [(port, typ, k, n, false)] } }

/-- FABRIC_READ_REQUEST (R184, R203, R210, R211, R214, R294, R295, R297, R388). -/
def execFabricReadRequest (port : Nat) (pkt : FabPkt) (s : State) : Out :=
  runFab s port 1 pkt false (fun t =>
    match t.fabCode pkt pkt.len with
    | some c => t.refuseTyp 1 pkt c
    | none => t.fabServe port 1 pkt)

/-- The record of a source's request (R248, R294). -/
def State.fabRecord (s : State) (k : FabPkt) : Option FabRecord := s.fab.records.find? (fun x => x.src == k.src && x.tag == k.tag)

/-- A request that has been performed already: a resend whose record is held. -/
def State.fabKnown (s : State) (k : FabPkt) : Option FabRecord := if k.rt then s.fabRecord k else none

/-- Whether a port has room for one more record (R248, R252; its own 1,024, DESIGN CHOICE, log entry 88). -/
def State.fabRoom (s : State) (port : Nat) (k : FabPkt) : Bool :=
  decide (((s.fab.records.filter (fun x => !(x.src == k.src && x.tag == k.tag))).countP (fun x => x.port == port)) < 1024)

/-- A record takes the place of the one under its source and tag. -/
def State.keepRecord (s : State) (x : FabRecord) : State :=
  { s with fab := { s.fab with records := s.fab.records.filter (fun y => !(y.src == x.src && y.tag == x.tag)) ++ [x] } }

/-- The answer of a request that is served, once its accesses have answered: bytes and marks by 32 bytes of payload, or a refusal (R210, R211,
R294). -/
def State.fabResult (s : State) (e : Eng) (typ : Nat) (k : FabPkt) : Got :=
  match typ with
  | 1 => s.gatherOne e (.here k.addr k.len)
  | 4 =>
    (match s.engReq e (.atomic k.op) none k.addr k.len with
     | some r => if r.state = .ready then .data ((toBytes k.len r.result.toNat).map (fun b => (b, r.rpois))) else .wait
     | none => .wait)
  | _ => .data []

/-- The requests of other parts whose accesses have all answered are answered; what was performed once leaves its record (R248, R294, R297). -/
def State.settleFab (s : State) : State :=
  s.fab.serving.foldl (fun t x =>
    let (port, typ, k, n, bad) := x
    let e := fabEng port k.dstPart n
    if t.engBusy e then t
    else
      let g := t.fabResult e typ k
      let t := t.used e
      let t := { t with fab := { t.fab with serving := t.fab.serving.filter (fun y => y.2.2.2.1 != n) } }
      match (if bad then .exc 3 else g) with
      | .data bs =>
        let (d, p) := (bs.map (·.1), wordMarks 0 bs)
        if typ = 1 then t.reply 2 k k.tag d p
        else (t.keepRecord ⟨port, k.src, k.tag, d, if p.any id then p else []⟩).reply 6 k k.tag d (if p.any id then p else [])
      | _ => t.refuseTyp typ k 3) s

/-- A write, an atomic or a reduction is performed once and answered: a repeat with RT = 1 comes from its record, poison bits and all, or waits
for the answer of the one that is served (R211, R248, R294, R297). A new request under a tag takes the record of the tag. -/
def State.fabOnce (s : State) (port typ : Nat) (k : FabPkt) (n : Nat) : State :=
  match s.fabKnown k with
  | some x => s.reply 6 k k.tag x.data x.poison
  | none =>
    if k.rt && s.fab.serving.any (fun x => x.2.2.1.src == k.src && x.2.2.1.tag == k.tag) then s
    else
      match s.fabCode k n with
      | some c => s.refuseTyp typ k c
      | none => s.fabServe port typ k

/-- A row that brings a write, an atomic or a reduction of n bytes; a repeat never waits. One that finds no record free stalls (R248, R252). -/
def runFabOnce (s : State) (port typ : Nat) (k : FabPkt) (n : Nat) : Out :=
  let full := (s.fabKnown k).isNone && (s.fabCode k n).isNone && !s.fabRoom port k
  let site := s.fabEnter port (s.placeSite k.addr)
  let u := if full then s.stall (.fabric port) (.records site) else s.unstall (.fabric port)
  runFab u port typ k full (fun t => t.fabOnce port typ k n)

/-- FABRIC_WRITE (R184, R192, R210, R294, R295, R297). -/
def execFabricWrite (port : Nat) (pkt : FabPkt) (s : State) : Out := runFabOnce s port 3 pkt pkt.data.length

/-- FABRIC_ATOMIC (R132, R211, R294, R297): a poisoned old value is left and goes back marked. -/
def execFabricAtomic (port : Nat) (pkt : FabPkt) (s : State) : Out := runFabOnce s port 4 pkt pkt.len

/-- FABRIC_REDUCTION (R133, R160, R294, R297). -/
def execFabricReduction (port : Nat) (pkt : FabPkt) (s : State) : Out := runFabOnce s port 5 pkt (max pkt.data.length (reduceSize pkt.op))

/-- FABRIC_READ_RESPONSE (R211, R294). -/
def execFabricReadResponse (port : Nat) (pkt : FabPkt) (s : State) : Out :=
  runFab s port 2 pkt false (fun t =>
    match t.tagged pkt.tag with
    | some r => if r.kind = .read then t.readBack r pkt else t
    | none => t)

/-- FABRIC_ACKNOWLEDGEMENT (R192, R294). -/
def execFabricAcknowledgement (port : Nat) (pkt : FabPkt) (s : State) : Out :=
  runFab s port 6 pkt false (fun t =>
    match t.tagged pkt.tag with
    | some r => if r.kind = .read then t else t.acked r pkt
    | none => t)

/-- FABRIC_REFUSAL (R294, R297, R303). -/
def execFabricRefusal (port : Nat) (pkt : FabPkt) (s : State) : Out :=
  runFab s port 7 pkt false (fun t =>
    match (if [2, 6, 7, 8].contains pkt.op then none
      else t.net.reqs.find? (fun r => r.remote.isSome && !r.ended && decide (r.rid % 65536 = pkt.tag / 256))) with
    | some r => t.failReq r (pkt.tag % 256) (16 + port)
    | none => t)

/-! ## Time marks (R302) -/

/-- TIME_MARK (R298, R302): a time mark of another part arrives at a port that is up or held, and is stamped. The stamps of packets that leave
go with their sending. -/
def execTimeMark (port : Nat) (pkt : FabPkt) (s : State) : Out := runFab s port 8 pkt false id

/-- MARK_SEND (R302): a mark leaves by every port that is up while a running ring takes marks. -/
def execMarkSend (s : State) : Out :=
  .next (if (upTo 0 17).any (fun r => s.ringTakes r (some 2)) then
    ((upTo 0 s.fabPorts).filter s.portUp).foldl (fun t j =>
      t.emit j 8 { cls := 0, mark := true, rt := false, dst := t.rgF (.fp j) 0x004 14 0, src := t.boot.cfg.deviceId, srcPort := j
                   dstPart := 0, tag := 0, seq := 0, addr := 0, op := 0, len := 0, data := [], poison := [] }) s
    else s)

end Sys2Proof.Machine
end

