-- ==== Sys2Proof/Machine/Reset.lean ====
section
/-! DEFINITION. Resets of the whole part, power and clock faults, converter phases, the thermal trip, the root PLLs (R10, R324, R336,
R352, R357, R361, R367 to R370, R392, R394, R395, R409, R441 to R443, R448). -/

namespace Sys2Proof.Machine

/-! ## Whole-part reset (R394, R395) -/

/-- The fields that RESET_N leaves unchanged (R10, R372): TRIP_SEEN, TRIP_SENSOR and TRIP_STACK of every stack. -/
def State.keptRegs (s : State) : Map W32 :=
  (upTo 0 s.stacks).foldl (fun m t => mset 0 m (Blk.thm t).base (s.rg (.thm t) 0x000 &&& 0x7FF8#32)) []

/-- The whole part is reset (R10, R394, R395, R431): kept are the part itself, the flash with a store in progress torn, the pins and the
trip latch with its cool time, the kept fields, the TAP with a new nonce; the host's own memory is not the part's. -/
def State.partReset (s : State) : State :=
  let s := s.tearStore
  { State.reset with
    part := s.part, flash := s.flash
    pins := { s.pins with alert := s.pins.thermtrip }
    regs := s.keptRegs, hmem := s.hmem
    therm := { Therm.reset with tripCool := s.therm.tripCool }
    dbg := { s.dbg with nonceCount := s.dbg.nonceCount + 1 }
    pending := s.pending, nextCid := s.nextCid, drawn := s.drawn }

/-- The inputs that hold the part are released: sensors return to 0 (R361). -/
def State.released (s : State) : State := { s with regs := s.keptRegs }

/-- RESET_N_ASSERT (R394, R395, R442): `level` is the pin's new level. -/
def execResetNAssert (level : Bool) (s : State) : Out :=
  .next (if level = s.pins.resetN then s
    else
      let s := { s with pins := { s.pins with resetN := level } }
      if level then s.released else s.partReset)

/-- PWRGD_DEASSERT (R394, R441, R442): the part holds reset while PWRGD is low; PWRGD rises only with VDD_AON in range. -/
def execPwrgdDeassert (level : Bool) (s : State) : Out :=
  .next (if level = s.pins.pwrgd then s
    else if level then ({ s with pins := { s.pins with pwrgd := true, vddAon := true } }).released
    else ({ s with pins := { s.pins with pwrgd := false } }).partReset)

/-- VDD_AON_LOSS (R10, R440, R447): the kept fields and the trip latch lose their values with everything else; the TAP loses its state. -/
def execVddAonLoss (s : State) : Out :=
  .next ({ s with
    pins := { s.pins with vddAon := false, thermtrip := false }, regs := [], therm := Therm.reset
    dbg := { State.reset.dbg with nonceCount := s.dbg.nonceCount } : State }).partReset

/-! ## The part stops (R336, R392, R394, R409) -/

/-- What a stop leaves of the part's work: nothing runs again, and no reply is written but to HEALTH_QUERY of the admin queues. -/
def State.haltWork (s : State) : State :=
  let cmds := s.cmds.filter (fun c => c.admin && c.opcode == 0x48)
  { s with
    cores := [], parts := [], cmds := cmds
    halves := s.halves.map (fun (e : Nat × Half) => (e.1, { e.2 with misses := [], wb := [], staged := [] }))
    mifs := s.mifs.map (fun (e : Nat × Mif) => (e.1, { e.2 with waitingReads := [], waitingWrites := [] }))
    net := { s.net with reqs := [], packets := [], records := [], units := [], pendingRegs := [], crossing := [], stalls := [], pathFails := [], fences := [] }
    roster := { s.roster with waking := [], lent := [] }
    power := { s.trimOff.power with swWait := [], lowered := [], trimPending := none }, regs := s.trimOff.regs
    host := { s.host with queues := s.host.queues.map (fun (e : Nat × Queue) =>
      (e.1, { e.2 with inflight := cmds.countP (fun c => c.port * 2048 + c.queue == e.1) })) } }

/-- The part is stopped with a reason of R409, which the first stop since reset gives; ALERT_N is asserted. -/
def State.stopPart (s : State) (reason detail : Nat) : State :=
  let s := { s with pins := { s.pins with alert := true } }
  if s.boot.stopped then s
  else
    let b := Blk.pwr 0
    let s := ((s.wgB b 0x040 4 false).wgF b 0x040 11 8 reason).wgF b 0x040 27 12 detail
    let s := (s.wg64 b 0x044 s.time.now).traceAdmin 0 5 6 0xFFF (toBytes 4 (0x100 + reason))
    { s.haltWork with boot := { s.boot with stopped := true } }

/-- The regions of a stack switch off; a dark one stays dark. -/
def State.regionsOff (s : State) (t : Nat) : State :=
  ((stackRegions t).foldl (fun u r => if u.regF r 1 0 = 3 then u
    else (((u.setReg r 1 0 0).setReg r 2 2 0).setReg r 23 20 0).govForget r) s).govSync t

/-- VDD_LOGIC and VDD_ARRAY of a stack are disabled. -/
def State.stackOff (s : State) (t : Nat) : State := (s.regionsOff t).wgF (.pwr t) 0x000 3 0 0

/-- The health record as it stands: before stage 2 has read it, the newer one of the flash. -/
def State.knownHealth (s : State) : Health :=
  if s.boot.bank.isSome then s.health else (newest s.flash.healthA s.flash.healthB).getD s.health

/-- The health record is stored at an event: at once, or after the store in progress (R412). -/
def State.storeHealth (s : State) : State := if s.flash.storing.isSome then s.storeDue else s.beginStore s.healthStore

/-- A power fault (R336): from stage 3 on the rails of a stack are needed. -/
def State.faultPower (s : State) (stack : Nat) : State :=
  if s.held || decide (s.bootStage < 2) then s
  else
    let s := (s.stackOff stack).modHealth (fun h => { h with powerFault := (stack, s.timeOf stack) :: h.powerFault })
    (s.stopPart 8 stack).storeHealth

/-- POWER_FAULT (R336, R392, R394, R409, R413). -/
def execPowerFault (stack : Nat) (s : State) : Out :=
  if s.stacks ≤ stack then .next s else .next (s.faultPower stack)

/-- PHASE_FAIL (R324, R348): the in-package converters of an XN8, while they run. -/
def execPhaseFail (stack : Nat) (array : Bool) (s : State) : Out :=
  if s.stacks ≤ stack then .next s
  else
    let b := Blk.pwr stack
    let n := if array then s.rgF b 0x000 14 11 else s.rgF b 0x000 10 5
    .next (if s.stacks ≠ 8 ∨ n = 0 ∨ s.rgF b 0x000 1 0 = 0 then s
      else
        let s := if array then s.wgF b 0x000 14 11 (n - 1) else (s.wgF b 0x000 10 5 (n - 1)).wgF b 0x004 31 16 (540 * (n - 1) / 40)
        let s := s.modHealth (fun h => { h with phaseFails := h.phaseFails ++ [stack * 2 + (if array then 1 else 0)] })
        let s := ((s.bump b 0x810 1).healthEntry stack 9 0xFFF stack).storeHealth
        if array && decide (n ≤ 6) then s.faultPower stack else s)

/-! ## Clocks (R352, R357, R443, R448) -/

/-- The root PLL of a stack is out of lock: a clock fault, but none while the part is held in reset. -/
def State.faultClock (s : State) (stack : Nat) : State :=
  let s := s.wgB (.clk stack) 0x000 0 false
  let s := { s with time := { s.time with
    locked := delNat s.time.locked stack, running := s.time.running && decide (stack ≠ 0) } }
  if !s.pins.resetN || !s.pins.pwrgd || !s.pins.vddAon then s
  else ((s.stackOff stack).wgB (.clk stack) 0x000 1 true).stopPart 9 stack

/-- CLOCK_FAULT (R352): a root PLL that was locked. -/
def execClockFault (stack : Nat) (s : State) : Out :=
  if s.stacks ≤ stack then .next s
  else .next (if s.time.locked.contains stack then s.faultClock stack else s)

/-- REFCLK_STOP (R443, R448): every root PLL loses lock. -/
def execRefclkStop (s : State) : Out :=
  .next (s.time.locked.foldl State.faultClock { s with pins := { s.pins with refclk := false } })

/-- ROOT_PLL_LOCK (R357, R371): out of reset, with the reference running; device time starts at 0 as the primary's PLL first locks. -/
def execRootPllLock (stack : Nat) (s : State) : Out :=
  if s.stacks ≤ stack then .next s
  else if !s.pins.resetN || !s.pins.pwrgd || !s.pins.vddAon || s.time.locked.contains stack then .next s
  else
    let s := ({ s with pins := { s.pins with refclk := true } }).wgB (.clk stack) 0x000 0 true
    let s := { s with time := { s.time with locked := insNat s.time.locked stack } }
    .next (if stack = 0 ∧ s.time.running = false ∧ s.boot.stopped = false then
      { s with time := { s.time with now := 0, running := true, diff := [], drift := [] }, therm := { s.therm with sampleAt := [] } }
    else s)

/-! ## Thermal trip (R367 to R370) -/

/-- The thermal trip of a sensor (R367, R368, R412): one that is latched already goes on (R370). -/
def State.trip (s : State) (stack sensor : Nat) : State :=
  if s.pins.thermtrip then s
  else
    let s := s.tearStore
    let ts := upTo 0 s.stacks
    let s := ts.foldl (fun u t => ((u.stackOff t).wgF (.thm t) 0x000 14 3 (1 + sensor * 2 + stack * 512)).wgB (.thm t) 0x000 0 false) s
    let s := (upTo 0 4).foldl State.linkDown s
    let s := ((upTo 0 s.fabPorts).foldl State.fabDown s).wgB (.pwr 0) 0x040 4 false
    let now := s.timeOf stack
    let h := s.knownHealth
    let s := s.haltWork
    let s : State := { s with
      mem := [], poison := [], granules := [], cmds := []
      halves := s.halves.map (fun (e : Nat × Half) => (e.1, { Half.empty with lost := e.2.lost }))
      host := ⟨[], [], [], [], [], [], s.host.cpMap⟩
      fab := { s.fab with ports := [], records := [], out := [], failed := [], frames := [], naks := [], loop := [] }
      pins := { s.pins with thermtrip := true, alert := true }
      therm := { s.therm with tripCool := [] }
      boot := { s.boot with stopped := true }
      health := { h with excursion := true, trips := (stack * 256 + sensor, now) :: h.trips } }
    s.storeHealth

/-- THERMAL_TRIP (R367 to R370, R412, R440): a comparator fires, or firmware starts the trip. -/
def execThermalTrip (stack sensor : Nat) (s : State) : Out :=
  if s.stacks ≤ stack ∨ 208 ≤ sensor then .next s
  else .next (if s.pins.vddAon then s.trip stack sensor else s)

/-- TRIP_LATCH_CLEAR (R369): after 10 s with every sensor below 75 °C at each of the samples of the hub, which takes 1,000 a second while the trip
is latched; then a restart, or a wait for
RESET_N. The health store of the trip has long ended. -/
def execTripLatchClear (s : State) : Out :=
  .next (if s.pins.thermtrip && (upTo 0 s.stacks).all (fun t => decide (10000 < mget 0 s.therm.tripCool t)) then
      let s := s.storeDone true
      let s := { s with pins := { s.pins with thermtrip := false }, therm := { s.therm with tripCool := [] } }
      if s.pins.resetN && s.pins.pwrgd && s.rgB (.thm 0) 0x004 0 then s.partReset else s
    else s)

end Sys2Proof.Machine
end

