-- ==== Sys2Proof/Machine/Registers.lean ====
section
/-! DEFINITION. Device registers as a master reads them and as a host port writes them; counters latched and cleared (R6 to R11, R65,
R84, R167, R169 to R171, R183, R215, R255 to R257, R262, R267, R287, R289, R304, R371, R372, R414 to R421, R427 to R429). -/

namespace Sys2Proof.Machine

/-! ## Reading (R6, R10, R11, R415, R417, R421) -/

/-- Whether the part has the unit of a block (R2, R11, R183). -/
def State.hasBlk (s : State) (b : Blk) : Bool :=
  decide (b.stack < s.stacks) && (match b with
    | .hp t k => (upTo 0 4).any (fun p => decide (s.part.grade.hostPort p = (t, k)))
    | _ => true)

/-- The bits of a register whose Reset is "fw" (R10). -/
def fwMask : Blk → Nat → W32
  | .sc _, o =>
    if o = 0x000 then 0x1FFFF#32
    else if o < 0x040 then 0
    else if o < 0x080 ∨ (0x1000 ≤ o ∧ o < 0x2000) ∨ (0x2300 ≤ o ∧ o < 0x2340) then 0xFFFFFFFF#32
    else if 0x2800 ≤ o then 0x1FF#32 else 0
  | .mif _, o =>
    if o = 0x000 then 0xFC00#32 else if o = 0x008 ∨ (0x2300 ≤ o ∧ o < 0x2340) then 0xFFFFFFFF#32 else 0
  | .msh _, o => if o = 0x000 then 1#32 else if (0x100 ≤ o ∧ o < 0x140) ∨ (0x400 ≤ o ∧ o < 0x43C) then 0xFFFFFFFF#32 else 0
  | .hp _ _, o => if o = 0x000 then 0x200#32 else 0
  | .fp _, o =>
    if o = 0x000 then 0x10#32 else if o = 0x008 then 1#32
    else if o = 0x00C ∨ o = 0x014 ∨ (0x020 ≤ o ∧ o < 0x030) then 0xFFFFFFFF#32 else 0
  | .pwr _, o =>
    if o = 0x000 then 0x7FE0#32 else if o = 0x004 then 0xFFFF0000#32 else if 0x100 ≤ o ∧ o < 0x500 then 0x1B#32 else 0
  | .thm _, o => if o = 0x004 then 1#32 else if 0x100 ≤ o ∧ o < 0x440 then 0x20000#32 else 0
  | _, _ => 0

/-- Whether READY has been raised since reset (R10, R408). -/
def State.hasBooted (s : State) : Bool := decide (s.boot.setUp = 3)

/-- Whether any flag of a flag array is set (R417). -/
def State.flagsSet (s : State) (base : Nat) : Bool := (upTo 0 16).any (fun w => decide (mget 0 s.regs (base + 4 * w) ≠ 0))

/-- CNT_SUMMARY of a stack (R418, R421). -/
def State.cntSummary (s : State) (t : Nat) : W32 :=
  (upTo 0 14).foldl (fun m b => if s.flagsSet ((Blk.cnt t).base + 0x1000 + 0x40 * b) then setF b b 1 m else m) 0

/-- Word w of a stack's CORE_SUMMARY (R421). -/
def State.coreSummary (s : State) (t w : Nat) : W32 :=
  (upTo 0 32).foldl (fun m n =>
    if (upTo 0 4).any (fun b => s.flagsSet ((Blk.cntCore (t * 512 + 32 * w + n)).base + 0x300 + 0x40 * b)) then setF n n 1 m else m) 0

/-- A word of the fabric's part-wide tables (R304). -/
def State.fabWord (s : State) (o : Nat) : Option W32 :=
  if o = 0x010 then some (s.rg (.fp 0) 0x010)
  else if o = 0x014 then some (mget 0 s.fab.routes (s.rgF (.fp 0) 0x010 14 0))
  else if 0x040 ≤ o ∧ o < 0x080 then some (mget 0 s.fab.accepts ((o - 0x040) / 4))
  else if 0x100 ≤ o ∧ o < 0x500 then some (mget 0 s.fab.segs (o - 0x100))
  else none

/-- The high word that a master's last read of the low word has latched (R371, R415). -/
def State.latched (s : State) (master off : Nat) : W32 := mget 0 s.latches (latchKey master off)

/-- Whether a word of a block is the high word of a 64-bit count. -/
def isHigh (b : Blk) (o : Nat) : Bool := decide (4 ≤ o) && isWide b (o - 4)

/-- What a register holds as a master reads it, without effect (R10, R11, R183). -/
def State.readReg (s : State) (master a : Nat) : W32 :=
  match locate a with
  | none => 0
  | some (b, o) =>
    if a % 4 ≠ 0 ∨ s.hasBlk b = false ∨ fieldsAt a = [] then 0
    else
      let v : W32 :=
        match b with
        | .cnt t => if o = 0x000 then s.cntSummary t else if 0x040 ≤ o ∧ o < 0x080 then s.coreSummary t ((o - 0x040) / 4)
            else if isHigh b o then s.latched master a else s.rg b o
        | .clk t => if o = 0x010 then BitVec.ofNat 32 (s.timeOf t) else if o = 0x014 then s.latched master a else s.rg b o
        | .fp _ => if isHigh b o then s.latched master a else (s.fabWord o).getD (s.rg b o)
        | _ => if isHigh b o then s.latched master a else s.rg b o
      if s.hasBooted then v else v &&& ~~~ (fwMask b o)

/-- The latch that a read of a low word sets (R371, R415). -/
def State.latchRead (s : State) (master a : Nat) : State :=
  match locate a with
  | none => s
  | some (b, o) =>
    let hi : Option Nat := match b with
      | .clk t => if o = 0x010 then some (s.timeOf t / 2 ^ 32) else none
      | _ => if isWide b o then some (s.rg b (o + 4)).toNat else none
    match hi with
    | some h => { s with latches := mset 0 s.latches (latchKey master (a + 4)) (BitVec.ofNat 32 h) }
    | none => s

/-- COUNTER_LOW_READ (R415): `addr` is the offset from 0xF200_0000_0000 of a 64-bit counter's low word; masters 0 to 3 are the host
ports, 4 is the TAP, whose reads DBG_REG carries. -/
def execCounterLowRead (master addr : Nat) (s : State) : Out :=
  if 5 ≤ master then .next s
  else
    match locate addr with
    | none => .next s
    | some (b, o) =>
      .next (if !s.hasBlk b || !isWide b o || (decide (master < 4) && !s.linkUp master) then s
        else
          let s := s.latchRead master addr
          if master < 4 then
            (s.setPort master { s.port master with
              lastRead := toBytes 4 (s.readReg master addr).toNat, lastOk := true, lastPoisoned := false }).hostTx master 4
          else s)

/-! ## Writing (R6, R167) -/

/-- Whether a host port's write to a register of a block takes effect (R65, R84, R167, R287, R304, R419, R433); HP_ registers take the
writes of their own port (log entry 12). -/
def State.mayWrite (s : State) (port : Nat) (b : Blk) (o : Nat) : Bool :=
  let admin := decide (port = s.boot.cfg.adminPort)
  s.hasBlk b && (match b with
    | .arr i => decide (s.coreOwner i = port)
    | .esp i => decide (s.coreOwner i = port)
    | .cntCore i => decide (s.coreOwner i = port)
    | .router _ => false
    | .hp t k => decide (s.part.grade.hostPort port = (t, k))
    | .fp _ => admin || (decide (0x100 ≤ o) && decide (o < 0x500) && decide (s.ownerOf ((o - 0x100) / 64) = some port))
    | .ctx _ => false
    | .dbg _ => false
    | _ => admin)

/-- Whether an offset is written by a row of its own: ESP_LOAD (R87) and TR_RPTR (R429). -/
def ownRow : Blk → Nat → Bool
  | .esp _, o => decide (o = 0x010)
  | .cnt _, o => inStep o 0x2024 0x2440 0x40
  | _, _ => false

/-- Whether a register of the mesh takes its new value at the next window boundary (R256, R257). -/
def atBoundary (o : Nat) : Bool := decide (0x100 ≤ o) && decide (o < 0x334)

/-- Bounds that a write is held to (R169, R371, R372). -/
def clampWrite : Blk → Nat → W32 → W32
  | .sc _, o, v => if o = 0x004 then setF 3 0 (min 12 (getF 3 0 v)) v else v
  | .clk _, o, v => if o = 0x004 then setF 7 0 (max 10 (min 120 (getF 7 0 v))) v else v
  | .thm _, o, v =>
    if o = 0x004 then setF 7 1 (min 100 (getF 7 1 v)) (setF 14 8 (min 95 (getF 14 8 v)) v) else v
  | _, _, v => v

/-- The registers that one written word sets: SC_PIN_CAP of both halves (R169), SC_CLASS_POLICY of every half (R171),
MSH_SCRUB_CLASS of every stack (R255), else the register itself. -/
def State.writeTargets (s : State) (b : Blk) (o : Nat) : List Blk :=
  match b with
  | .sc h => if o = 0x004 then [.sc (h / 2 * 2), .sc (h / 2 * 2 + 1)] else if o = 0x010 then (upTo 0 s.devices).map .sc else [b]
  | .msh _ => if o = 0x004 then (upTo 0 s.stacks).map .msh else [b]
  | _ => [b]

/-- ALERT_N is released once no stop, trip or THM_EVENT bit asserts it (R372). -/
def State.alertSync (s : State) : State :=
  if s.boot.stopped || s.pins.thermtrip || (upTo 0 s.stacks).any (fun t => decide (s.rg (.thm t) 0x008 ≠ 0)) then s
  else { s with pins := { s.pins with alert := false } }

/-- A write to the fabric's part-wide tables (R304). -/
def State.fabTableWrite (s : State) (o : Nat) (v : W32) : State :=
  let v := writeFields (fpFields o) 0 v
  if o = 0x010 then s.wg (.fp 0) 0x010 v
  else if o = 0x014 then { s with fab := { s.fab with routes := mset 0 s.fab.routes (s.rgF (.fp 0) 0x010 14 0) v } }
  else if o < 0x080 then { s with fab := { s.fab with accepts := mset 0 s.fab.accepts ((o - 0x040) / 4) v } }
  else { s with fab := { s.fab with segs := mset 0 s.fab.segs (o - 0x100) v } }

/-- What a write changes beside the word itself. -/
def State.afterWrite (s : State) (b : Blk) (o : Nat) : State :=
  match b with
  | .sc h => if o = 0x004 then s.pinSync (h / 2) else s
  | .thm _ => if o = 0x008 then s.alertSync else s
  | .fp j => if decide (o = 0x008) && !s.rgB (.fp j) 0x008 0 && decide (s.fabState j ≠ 0) then s.fabDown j else s
  | _ => s

/-- A write of the register at offset o of a block by a master that may write it (R6, R9). -/
def State.applyWrite (s : State) (b : Blk) (o : Nat) (v : W32) : State :=
  let put (u : State) (x : Blk) : State := u.wg x o (clampWrite b o (writeFields (blkFields x o) (u.rg x o) v))
  match b with
  | .fp _ => if (s.fabWord o).isSome then s.fabTableWrite o v else (put s b).afterWrite b o
  | .msh _ =>
    if atBoundary o then
      (if o < 0x200 ∧ (mfind s.parts ((o - 0x100) / 4)).isNone then s
       else { s with net := { s.net with
        pendingRegs := mput s.net.pendingRegs (b.base + o) (writeFields (blkFields b o) (s.rg b o) v) } })
    else (s.writeTargets b o).foldl put s
  | _ => ((s.writeTargets b o).foldl put s).afterWrite b o

/-- A host port's write of a device register (R6, R9, R167). -/
def State.writeReg (s : State) (port a : Nat) (v : W32) : State :=
  match locate a with
  | none => s
  | some (b, o) =>
    if a % 4 ≠ 0 ∨ fieldsAt a = [] ∨ s.mayWrite port b o = false ∨ ownRow b o = true then s else s.applyWrite b o v

/-- A write to a queue block (R267), but for its first word, which QUEUE_ENABLE carries. -/
def Queue.writeWord (q : Queue) (o : Nat) (v : W32) : Queue :=
  let low (x : Nat) : Nat := x / 2 ^ 32 * 2 ^ 32 + v.toNat
  let high (x : Nat) : Nat := x % 2 ^ 32 + getF 15 0 v * 2 ^ 32
  if o = 0x04 then (if v.getLsbD 0 then { q with qerr := false } else q)
  else if q.en then q
  else if o = 0x08 then { q with sqBase := low q.sqBase }
  else if o = 0x0C then { q with sqBase := high q.sqBase }
  else if o = 0x10 then { q with cqBase := low q.cqBase }
  else if o = 0x14 then { q with cqBase := high q.cqBase }
  else if o = 0x18 then { q with detailBase := low q.detailBase }
  else if o = 0x1C then { q with detailBase := high q.detailBase }
  else if o = 0x28 then { q with vector := getF 10 0 v }
  else q

/-- A write to word w of MSI-X table entry k of a port (R262): an interrupt held by the mask goes out once it is cleared. -/
def State.msixWrite (s : State) (port k w : Nat) (v : W32) : State :=
  let i := port * 2048 + k
  let h := s.host
  let old := (mget 0 h.msixAddr i).toNat
  match w with
  | 0 => { s with host := { h with msixAddr := mset 0 h.msixAddr i (BitVec.ofNat 64 (old / 2 ^ 32 * 2 ^ 32 + v.toNat)) } }
  | 1 => { s with host := { h with msixAddr := mset 0 h.msixAddr i (BitVec.ofNat 64 (old % 2 ^ 32 + v.toNat * 2 ^ 32)) } }
  | 2 => { s with host := { h with msixData := mset 0 h.msixData i v } }
  | _ =>
    if v.getLsbD 0 then { s with host := { h with msixUnmasked := delNat h.msixUnmasked i } }
    else
      let t : State := { s with host := { h with msixUnmasked := insNat h.msixUnmasked i, msixPending := delNat h.msixPending i } }
      if h.msixPending.contains i then t.raiseIrq port k else t

/-- REGISTER_WRITE (R6, R8, R9, R11, R167, R183, R262, R267): a write at an offset of a port's register window. Doorbells, the first
word of a queue block and W1S bits are rows of their own. The bytes of the write count after its effect, so that a flag they set
stands (R7). -/
def execRegisterWrite (port off : Nat) (value : W32) (s : State) : Out :=
  if 4 ≤ port then .next s
  else if !s.linkUp port then .next s
  else
    let t :=
      if off < 0x1800000 then s.writeReg port off value
      else if 0x2000000 ≤ off ∧ off < 0x2000000 + 0x40 * 1028 then
        let qi := (off - 0x2000000) / 0x40
        if s.queueOf port qi then s.setQueue port qi ((s.queue port qi).writeWord (off % 0x40) value) else s
      else if 0x3F00000 ≤ off ∧ off < 0x3F00000 + 16 * 2048 ∧ off % 4 = 0 then
        s.msixWrite port ((off - 0x3F00000) / 16) (off % 16 / 4) value
      else s
    .next (t.hostRx port 4)

/-! ## A port's register window (R183, R262, R267)

The table has no row for a plain read: it changes nothing, and a port's read of a counter's low word is COUNTER_LOW_READ. -/

/-- The word of a queue block at an offset (R267). -/
def Queue.word (q : Queue) (o : Nat) : W32 :=
  let bit (b : Bool) (n : Nat) : Nat := if b then 2 ^ n else 0
  let v : Nat :=
    if o = 0x00 then
      bit q.en 0 + bit q.sqDev 1 + bit q.cqDev 2 + bit q.detailDev 3 + bit q.intEach 4 + q.sizeM1 % 65536 * 2 ^ 8
    else if o = 0x04 then
      bit q.qerr 0 + q.qerrCode % 8 * 2 + bit (decide (q.inflight ≠ 0)) 4 + q.sqHead % 65536 * 2 ^ 16
    else if o = 0x08 then q.sqBase
    else if o = 0x0C then q.sqBase / 2 ^ 32
    else if o = 0x10 then q.cqBase
    else if o = 0x14 then q.cqBase / 2 ^ 32
    else if o = 0x18 then q.detailBase
    else if o = 0x1C then q.detailBase / 2 ^ 32
    else if o = 0x20 then q.cqTail % 65536 + bit q.phase 16
    else if o = 0x24 then q.inflight
    else if o = 0x28 then q.vector % 2048
    else 0
  BitVec.ofNat 32 v

/-- The word at offset o of the MSI-X table of a port (R262; log entry 112). -/
def State.msixWord (s : State) (port o : Nat) : W32 :=
  let i := port * 2048 + o / 16
  let a := (mget 0 s.host.msixAddr i).toNat
  match o % 16 / 4 with
  | 0 => BitVec.ofNat 32 a
  | 1 => BitVec.ofNat 32 (a / 2 ^ 32)
  | 2 => mget 0 s.host.msixData i
  | _ => if s.host.msixUnmasked.contains i then 0 else 1

/-- Word k of the pending bits of a port (R262). -/
def State.msixPendingWord (s : State) (port k : Nat) : W32 :=
  (upTo 0 32).foldl (fun m n => if s.host.msixPending.contains (port * 2048 + 32 * k + n) then setF n n 1 m else m) 0

/-- The word at an offset of a port's register window as the port reads it (R11, R183, R262, R267, R268). -/
def State.windowWord (s : State) (port off : Nat) : W32 :=
  if off % 4 ≠ 0 then 0
  else if off < 0x1800000 then s.readReg port off
  else if 0x2000000 ≤ off ∧ off < 0x2000000 + 0x40 * 1028 then
    let qi := (off - 0x2000000) / 0x40
    if s.queueOf port qi then (s.queue port qi).word (off % 0x40) else 0
  else if 0x3F00000 ≤ off ∧ off < 0x3F00000 + 16 * 2048 then s.msixWord port (off - 0x3F00000)
  else if 0x3F80000 ≤ off ∧ off < 0x3F80000 + 256 then s.msixPendingWord port ((off - 0x3F80000) / 4)
  else 0

/-! ## Actions with rows of their own -/

/-- CNT_CORE_CLEAR (R416, R419, R424, R435). -/
def execCntCoreClear (port site : Nat) (s : State) : Out :=
  if 4 ≤ port ∨ s.sites ≤ site then .next s
  else if !s.linkUp port then .next s
  else
    let s := s.hostRx port 4
    .next (if s.coreOwner site = port then s.clearCore site else s)

/-- Block b of a stack's CLEAR and SUMMARY fields (R417). -/
def stackBlk (t b : Nat) : Blk :=
  match b with
  | 0 => .sc (2 * t)
  | 1 => .sc (2 * t + 1)
  | 2 => .mif (2 * t)
  | 3 => .mif (2 * t + 1)
  | 4 => .msh t
  | 5 => .fp (2 * t)
  | 6 => .fp (2 * t + 1)
  | 7 => .hp t 0
  | 8 => .hp t 1
  | 9 => .pwr t
  | 10 => .clk t
  | 11 => .thm t
  | 12 => .trim
  | _ => .cnt t

/-- The stretch counts of a stack are cleared: a command's start latch of field 22 stands at 0 on its cores there (R424). -/
def Cmd.clearStretch (c : Cmd) (t : Nat) : Cmd :=
  if c.startVals.any (fun e => siteStack e.1 == t && (mfind c.endVals e.1).isNone) then
    { c with cleared := true
             startVals := c.startVals.map (fun (e : Nat × List Nat) =>
               if siteStack e.1 = t ∧ (mfind c.endVals e.1).isNone = true then (e.1, setNth e.2 22 0) else e) }
  else c

/-- A write of the CLEAR field of a stack's CNT_ block (R416, R421, R424). -/
def State.clearBlocks (s : State) (stack : Nat) (mask : W32) : State :=
  (upTo 0 14).foldl (fun t b =>
    if !mask.getLsbD b || (decide (b = 12) && decide (stack ≠ 0)) then t
    else
      let t := t.clearCounters (stackBlk stack b)
      if b = 10 then { t with cmds := t.cmds.map (fun (c : Cmd) => c.clearStretch stack) } else t) s

/-- CNT_CLEAR (R416, R421, R424). -/
def execCntClear (port stack : Nat) (mask : W32) (s : State) : Out :=
  if 4 ≤ port ∨ s.stacks ≤ stack then .next s
  else if !s.linkUp port then .next s
  else
    let s := s.hostRx port 4
    .next (if port ≠ s.boot.cfg.adminPort then s else s.clearBlocks stack mask)

/-- A write of 1 to ELOG_CTRL.CLEAR of a half's log, or a device's where `mem` (R215, R226). -/
def State.clearLog (s : State) (mem : Bool) (unit : Nat) : State :=
  let b := if mem then Blk.mif unit else .sc unit
  let k := if mem then mifLog else scLog
  (upTo 0 32).foldl (fun t i => if t.logOld b k i then t.wgB b (logOff i) 0 false else t) s

/-- ELOG_CLEAR (R215, R226): of a half's log, or a device's where `mem`. -/
def execElogClear (port : Nat) (mem : Bool) (unit : Nat) (s : State) : Out :=
  if 4 ≤ port ∨ s.devices ≤ unit then .next s
  else if !s.linkUp port then .next s
  else
    let s := s.hostRx port 4
    .next (if port ≠ s.boot.cfg.adminPort then s else s.clearLog mem unit)

/-- A write of TR_RPTR (R427, R429): a pending record of lost ones is written once there is room. -/
def State.setRptr (s : State) (ring : Nat) (value : W32) : State :=
  let s := s.wg (.cnt 0) (ringOff ring + 0x24) value
  if s.ringTakes ring none then s.ringLost ring else s

/-- TR_RPTR_WRITE (R427, R429, R435). -/
def execTrRptrWrite (port ring : Nat) (value : W32) (s : State) : Out :=
  if 4 ≤ port ∨ 17 ≤ ring then .next s
  else if !s.linkUp port then .next s
  else
    let s := s.hostRx port 4
    let owner := if ring = 16 then some s.boot.cfg.adminPort else s.ownerOf ring
    .next (if owner ≠ some port then s else s.setRptr ring value)

end Sys2Proof.Machine
end

