-- ==== Sys2Proof/Machine/BringUp.lean ====
section
/-! DEFINITION. Bring-up, stage by stage (R155, R180, R208, R231, R232, R236, R258, R313 to R319, R396 to R413, R430). What a test or a
training finds is an operand of its stage (log entry 3). STAGE of PWR_BOOT_STATUS holds the stage that has been completed last. -/

namespace Sys2Proof.Machine

/-- Every stack's controller reports a stage (R410). -/
def State.setStage (s : State) (n : Nat) : State := (upTo 0 s.stacks).foldl (fun u t => u.wgF (.pwr t) 0x040 3 0 n) s

/-- Whether bring-up goes on from a completed stage: out of reset, not stopped. -/
def State.stageNext (s : State) (n : Nat) : Bool := !s.held && !s.boot.stopped && decide (s.bootStage = n)

/-- Change what bring-up carries. -/
def State.modBoot (s : State) (f : Boot → Boot) : State := { s with boot := f s.boot }

/-! ## Stages 1 to 3 (R397, R398) -/

/-- BOOT_ROM (R397, R409): stage 1. -/
def execBootRom (primaryOk : Bool) (badStack : Option Nat) (s : State) : Out :=
  .next (if !s.stageNext 0 then s
    else if !primaryOk then (s.wgF (.pwr 0) 0x040 3 0 1).stopPart 1 0
    else
      let s := s.setStage 1
      match badStack with
      | some t => if 0 < t ∧ t < s.stacks then s.stopPart 2 t else s
      | none => s)

/-- Whether a firmware bank is valid (R398). -/
def State.bankOk (s : State) (b : FwBank) : Bool := Config.signatureVerifies 0 b.image [] && decide (s.part.minVersion ≤ b.version)

/-- The bank that boots: the valid one of higher VERSION, then of higher SEQ (R398). -/
def State.chooseBank (s : State) : Option Nat :=
  match s.flash.fwA.filter s.bankOk, s.flash.fwB.filter s.bankOk with
  | none, none => none
  | some _, none => some 0
  | none, some _ => some 1
  | some a, some b => if a.version < b.version ∨ (a.version = b.version ∧ a.seq < b.seq) then some 1 else some 0

/-- Firmware loads the fields that the flash configuration gives (R10, R250, R287, R292, R295, R298, R369). -/
def State.loadCfg (s : State) (c : Cfg) : State :=
  let s := s.modBoot (fun b => { b with cfg := c })
  let s := (upTo 0 s.stacks).foldl (fun u t => (u.wgB (.thm t) 0x004 0 c.restartEn).wgB (.msh t) 0x000 0 c.compat) s
  let s := s.wgB (s.hpBlk c.adminPort) 0x000 9 true
  let s := (upTo 0 s.fabPorts).foldl (fun u j =>
    let b := Blk.fp j
    let u := ((u.wgB b 0x000 4 (nth false c.fabEthernet j)).wgB b 0x008 0 (nth false c.fabEn j)).wg b 0x00C
      (writeFields (fpFields 0x00C) 0 (nth 0 c.fabExpect j))
    (u.wg64 b 0x020 c.ipv6Prefix).wg64 b 0x028 (c.gwMac % 2 ^ 48)) s
  { s with fab := { s.fab with routes := c.routes } }

/-- A configuration slot, where its VERSION is at least the fused minimum version too (R398). -/
def State.cfgOk (s : State) (slot : Option (Cfg × Nat)) : Option (Cfg × Nat) := slot.filter (fun c => decide (s.part.minVersion ≤ c.1.version))

/-- FIRMWARE_CHECK (R357, R398, R409, R412): stage 2, once the root PLLs have locked; the health record is read. -/
def execFirmwareCheck (s : State) : Out :=
  .next (if !s.stageNext 1 || !((upTo 0 s.stacks).all (fun t => s.time.locked.contains t)) then s
    else
      let s := s.setStage 2
      match s.chooseBank with
      | none => s.stopPart 3 0
      | some k =>
        match newest (s.cfgOk s.flash.cfgA) (s.cfgOk s.flash.cfgB) with
        | none => s.stopPart 4 0
        | some c =>
          let s := s.modBoot (fun b => { b with bank := some k })
          ({ s with health := (newest s.flash.healthA s.flash.healthB).getD Health.blank }).loadCfg c)

/-- Working phases of a stack's converters: those that have failed before stay bad (R324, R400). -/
def State.phasesLeft (s : State) (t : Nat) (array : Bool) : Nat :=
  (if array then 8 else 40) - s.health.phaseFails.countP (fun x => x == t * 2 + (if array then 1 else 0))

/-- The rails of a stack come on (R20, R324, R348). -/
def State.railsOn (s : State) (t : Nat) : State :=
  let b := Blk.pwr t
  let s := s.wgF b 0x000 1 0 3
  if s.stacks = 8 then
    let n := s.phasesLeft t false
    ((s.wgF b 0x000 10 5 n).wgF b 0x000 14 11 (s.phasesLeft t true)).wgF b 0x004 31 16 (540 * n / 40)
  else s.wgF b 0x004 31 16 540

/-- FIRMWARE_BROADCAST (R328, R329, R330, R398, R400): stage 3. Dark regions stay dark, with their routers bypassed again, failed regulators keep
their cap; a core whose
copy of the firmware fails twice fails stage 4. -/
def execFirmwareBroadcast (badCores : List Nat) (s : State) : Out :=
  .next (if !s.stageNext 2 then s
    else
      let s := (upTo 0 s.stacks).foldl State.railsOn (s.setStage 3)
      match (upTo 0 s.stacks).find? (fun t => decide (s.stacks = 8) && decide (s.phasesLeft t true < 6)) with
      | some t => s.faultPower t
      | none =>
        let s := s.health.darkRegions.foldl (fun u r => (regionSites r).foldl State.passBy (u.setReg r 1 0 3)) s
        let s := s.health.regFails.foldl (fun u r => u.setReg r 3 3 1) s
        let s := s.allRegions.foldl State.wakeRegion s
        s.modBoot (fun b => { b with test := { b.test with badCores := badCores } }))

/-! ## Stage 4 (R399) -/

/-- CORNER_SELF_TEST (R399): stage 4, with every region on; the cores that the fuses mark bad are not tested. -/
def execCornerSelfTest (result : SelfTest) (s : State) : Out :=
  .next (if !s.stageNext 3 || s.allRegions.any (fun r => decide (s.regF r 1 0 < 2)) then s
    else
      let tested (i : Nat) : Bool := !hasSite s.part.fuseBad i && decide (i < s.sites)
      (s.setStage 4).modBoot (fun b => { b with test :=
        ⟨(b.test.badCores ++ result.badCores).filter tested, result.badLanes.filter (fun x => tested x.1), result.badSlices,
          result.badRegs.filter (fun r => s.allRegions.contains r), result.badRouters.filter (fun i => decide (i < s.sites))⟩ }))

/-! ## Stage 5 (R400, R401) -/

/-- The failed thread lanes of a core by its test and its health record. -/
def State.lanesOf (s : State) (i : Nat) : List Nat :=
  (((s.boot.test.badLanes.filter (fun x => x.1 == i)).map (·.2)) ++ (mfind s.health.badLanes i).toList).foldl insNat []

/-- Whether stage 4 or the health record says that a core is bad (R114, R373, R399, R400): failed as a whole or behind a router that fails, two
failed lanes in the test, or failed lanes in both halves of the lanes. -/
def State.coreFails (s : State) (i : Nat) : Bool × Bool :=
  let t := ((s.boot.test.badLanes.filter (fun x => x.1 == i)).map (·.2)).foldl insNat []
  let l := s.lanesOf i
  (s.boot.test.badCores.contains i || decide (2 ≤ t.length) || s.boot.test.badRouters.contains i,
    hasSite s.health.retired i || (l.any (fun x => decide (x < 16)) && l.any (fun x => decide (16 ≤ x))))

/-- Sites of a list as a set. -/
def siteSet (l : List Nat) : Sites := l.foldl addSite 0

/-- Whether a site lies in a dark region. -/
def State.isDark (s : State) (i : Nat) : Bool := decide (s.regionState (regionOf i) = 3)

/-- Good cores, restricted cores and bad cores (R400). -/
def State.sortCores (s : State) : Sites × Sites × Sites :=
  let all := upTo 0 s.sites
  let bad := all.filter (fun i => hasSite s.part.fuseBad i || (s.coreFails i).1 || (s.coreFails i).2 || s.isDark i)
  let res := all.filter (fun i => !bad.contains i && s.lanesOf i != [])
  (siteSet (all.filter (fun i => !bad.contains i && !res.contains i)), siteSet res, siteSet bad)

/-- Each vacancy takes the nearest spare (R376, R401). -/
def State.fillVacancies (s : State) (vs : List Nat) (e sp : Sites) : Sites × Sites :=
  vs.foldl (fun x v =>
    match leastOf (s.farness v) (sitesOf x.2 s.sites) with
    | some i => (addSite x.1 i, delSite x.2 i)
    | none => x) (e, sp)

/-- The enabled set and the spares from the cores enabled before (R401). Vacancies that no site names take the lowest spares (log
entry 13). In a shortfall every good and every restricted core is enabled, as R401 has it, though R3 says that cores in service are never
more than the enabled count: no cap is put on them (DESIGN CHOICE, log entry 137). -/
def State.chooseSet (s : State) (prev good res : Sites) : Sites × Sites :=
  if s.countAll good < s.part.grade.enabled then (good ||| res, 0)
  else
    let (e, sp) := s.fillVacancies (sitesOf (prev &&& ~~~ good) s.sites) (prev &&& good) (good &&& ~~~ prev)
    let more := (sitesOf sp s.sites).take (s.part.grade.enabled - s.countAll e)
    (more.foldl addSite e, more.foldl delSite sp)

/-- The cores take their standing. -/
def State.setRoster (s : State) (prev : Sites) : State :=
  let (good, res, bad) := s.sortCores
  let gone := siteSet ((upTo 0 s.sites).filter (fun i => (s.half (siteHalf i)).lost))
  let (e, sp) := s.chooseSet prev (good &&& ~~~ gone) (res &&& ~~~ gone)
  { s with roster :=
    { enabled := e, spare := sp, restricted := res &&& ~~~ gone, fenced := bad ||| gone, retired := s.health.retired
      lent := [], badLane := (sitesOf res s.sites).map (fun i => (i, (s.lanesOf i).headD 0)), waking := [] } }

/-- The sites enabled before this start (R401). -/
def State.prevSet (s : State) : Sites := if s.health.enabledKnown then s.health.enabled else s.part.fuseEnabled

/-- The slices that some source calls bad, as half × 256 + slice. -/
def State.badSlices (s : State) : List Nat :=
  (s.part.fuseSlices ++ s.health.retiredSlices ++ s.boot.test.badSlices.map (fun (x : Nat × Nat) => x.1 * 256 + x.2)).foldl insNat []

/-- SC_HOME_MAPj of a half from the health records, else the interleave of R175. -/
def State.restoreMap (s : State) (h : Nat) : State :=
  let e (i : Nat) : Nat := (mfind s.health.homeMaps (h * 4096 + i)).getD (i % 256)
  (upTo 0 1024).foldl (fun u j =>
    u.wg (.sc h) (0x1000 + 4 * j) (BitVec.ofNat 32 (e (4 * j) + e (4 * j + 1) * 256 + e (4 * j + 2) * 65536 + e (4 * j + 3) * 2 ^ 24))) s

/-- A slice that is bad leaves its home entries to others (R145, R400). -/
def State.bootRetire (s : State) (k : Nat) : State :=
  let h := k / 256
  let sl := k % 256
  let s := s.wgF (.sc h) (0x2800 + 4 * sl) 1 0 3
  let s := if (upTo 0 4096).any (fun i => s.homeEntry h i == sl) then s.rehomeMap h sl else s
  s.modHealth (fun x => { x with retiredSlices := insNat x.retiredSlices k })

/-- The state that firmware restores from the health records (R400). -/
def State.restoreHealth (s : State) : State :=
  let h := s.health
  let s := (upTo 0 s.devices).foldl State.restoreMap s
  let s := h.halfWidth.foldl (fun u e => u.wgF (.sc (e.1 / 256)) (0x2800 + 4 * (e.1 % 256)) 1 0 e.2) s
  let s := h.vertLanes.foldl (fun u e =>
    let d := e.1 / 524288
    let k := e.1 % 524288
    let u := u.modHalf d (fun x => { x with laneBad := mput x.laneBad k e.2 })
    if e.2 = 1 then u.wgF (.sc d) (0x2800 + 4 * (k / 2048)) 8 2 (u.rgF (.sc d) (0x2800 + 4 * (k / 2048)) 8 2 + 1) else u) s
  let s := h.cacheRemaps.foldl (fun u e =>
    match (upTo 0 16).find? (fun j => !u.rgB (.sc e.1) (0x2300 + 4 * j) 0) with
    | some j => u.wg (.sc e.1) (0x2300 + 4 * j) (BitVec.ofNat 32 (1 + e.2.1 * 2 + e.2.2 * 512))
    | none => u) s
  let s := h.memRemaps.foldl (fun u e =>
    (u.wg (.mif e.1) (0x2300 + 8 * e.2.2) (BitVec.ofNat 32 (1 + e.2.2 * 2 + 16))).wg (.mif e.1) (0x2304 + 8 * e.2.2)
      (BitVec.ofNat 32 e.2.1)) s
  let s := h.failedSensors.foldl (fun u k => u.wgB (.thm (k / 256)) (0x100 + 4 * (k % 256)) 17 true) s
  let s := s.badSlices.foldl State.bootRetire s
  s.modHealth (fun x => { x with lostHalves := [] })

/-- The units whose sources disagree (R400), as (kind, unit): 1 core, 2 thread lane, 3 slice, 4 vertical lane, 5 regulator, 6 phase,
7 sensor, 8 memory die, 9 memory line. The fuses mark cores and slices alone: a core they call bad is not tested, a slice is. -/
def State.disagree (s : State) : List (Nat × Nat) :=
  let h := s.health
  let cores := (upTo 0 s.sites).filter (fun i => !hasSite s.part.fuseBad i && ((s.coreFails i).1 || (s.coreFails i).2))
  let lanes := (upTo 0 s.sites).filter (fun i => !cores.contains i && s.lanesOf i != [])
  cores.map (fun i => (1, i)) ++ lanes.flatMap (fun i => (s.lanesOf i).map (fun l => (2, i * 32 + l))) ++
  (s.badSlices.filter (fun k => !(s.part.fuseSlices.contains k && s.boot.test.badSlices.contains (k / 256, k % 256)))).map
    (fun k => (3, k)) ++ h.vertLanes.map (fun e => (4, e.1)) ++
  (s.boot.test.badRegs.foldl insNat h.regFails).map (fun r => (5, r)) ++ h.phaseFails.map (fun p => (6, p)) ++ h.failedSensors.map (fun k => (7, k)) ++
  h.erasedDies.map (fun e => (8, e.1 * 32 + e.2)) ++ h.memRemaps.map (fun e => (9, e.1 * 2 ^ 29 + e.2.1))

/-- Regulators and routers that fail stage 4 (R237, R328, R329, R373, R399): a region is capped, or dark with a failed neighbour; a router is
bypassed, or its half is lost where the rule of R237 does not cover it. -/
def State.testFails (s : State) : State :=
  let s := s.boot.test.badRegs.foldl (fun u r =>
    let u := (u.setReg r 3 3 1).modHealth (fun x => { x with regFails := insNat x.regFails r })
    match (neighboursOf r).filter (fun y => decide (u.regF y 3 3 = 1)) with
    | [] => (u.capRegion r).govSync (r / 256)
    | bad => (r :: bad).foldl (fun v y => if v.regF y 1 0 = 3 then v
        else (regionSites y).foldl State.passBy (((v.setReg y 1 0 3).modHealth (fun x => { x with darkRegions := insNat x.darkRegions y })).govForget y)) u) s
  s.boot.test.badRouters.foldl (fun u i =>
    if u.net.bypassed.contains i then u
    else if u.bypassRule i then u.passBy i
    else u.setHalf (siteHalf i) { Half.empty with lost := true }) s

/-- RECONCILIATION (R400, R401, R409, R412): stage 5. -/
def execReconciliation (s : State) : Out :=
  .next (if !s.stageNext 4 then s
    else
      let s := (s.setStage 5).testFails
      let lost := s.flash.healthA.isNone && s.flash.healthB.isNone
      if lost && !s.boot.cfg.degradedOk then s.stopPart 10 0
      else
        let (good, _, _) := s.sortCores
        let n := s.countAll good
        let short := decide (n < s.part.grade.enabled)
        if short && !s.boot.cfg.degradedOk then s.stopPart 5 n
        else
          let recs := s.disagree
          let failed := siteSet ((upTo 0 s.sites).filter (fun i =>
            !hasSite s.part.fuseBad i && ((s.coreFails i).1 || (s.coreFails i).2)))
          let lanes := (s.boot.test.badLanes.filter (fun x => !hasSite failed x.1)).foldl
            (fun m x => if (mfind m x.1).isSome then m else mput m x.1 x.2) s.health.badLanes
          let s := s.modHealth (fun x => { x with retired := x.retired ||| failed, badLanes := lanes })
          let s := s.restoreHealth.setRoster s.prevSet
          let s := s.modHealth (fun x => { x with enabled := s.roster.enabled, enabledKnown := true })
          s.modBoot (fun b => { b with recEntries := recs, shortfall := short, degraded := lost || short }))

/-! ## Stage 6 (R402) -/

/-- VPORT_STAGE_TEST (R223, R402): stage 6. The failed lanes come by half × 256 + slice; slices that must retire do so before stage 7. -/
def execVportStageTest (failed : List (Nat × List Nat)) (s : State) : Out :=
  .next (if !s.stageNext 5 then s
    else
      ((failed.filter (fun x => decide (x.1 / 256 < s.devices) && !s.retired (x.1 / 256) (x.1 % 256))).foldl
        (fun u x => u.portResult (x.1 / 256) (x.1 % 256) x.2) (s.setStage 6)).startTraining)

/-! ## Stage 7 (R313 to R319, R403, R406) -/

/-- Whether a record fits an interface of the part as it is (R316, R369): serials, age below 720 powered hours, temperature within 15 °C, no
thermal excursion since the last retention test. -/
def State.quickFits (s : State) (d : Nat) (serial : Nat) (temp : Int) (r : QRec) : Bool :=
  decide (r.serial = s.part.serial) && decide (r.iface = d) && decide (r.devSerial = serial) &&
    decide (s.health.hours - r.hours < 720) && decide ((temp - r.temp).natAbs ≤ 240) && !s.health.excursion

/-- A Quickset slot of an interface, if its record is usable (R316). -/
def State.quickUsable (s : State) (d : Nat) (serial : Nat) (temp : Int) (k : Nat) : Option QRec :=
  (mfind s.flash.quick (2 * d + k)).filter (fun r => r.sound && s.quickFits d serial temp r)

/-- The record that Quickset applies: the slot of higher SEQ first (R316). -/
def State.quickFor (s : State) (d : Nat) (serial : Nat) (temp : Int) : Option QRec :=
  match s.quickUsable d serial temp 0, s.quickUsable d serial temp 1 with
  | none, y => y
  | some x, none => some x
  | some x, some y => if x.seq < y.seq then some y else some x

/-- An interface is trained: rate, whether from a record, the temperature and the powered hours of the training (R320). -/
def State.mifTrained (s : State) (d serial rate : Nat) (quick : Bool) (temp : Int) (hours settings : Nat) : State :=
  let b := Blk.mif d
  let s := ((s.wgF b 0x000 1 0 2).wgF b 0x000 3 2 rate).wgB b 0x000 4 quick
  let s := (s.wgF b 0x008 15 0 (temp % 65536).toNat).wgF b 0x008 31 16 (min 65535 (s.health.hours - hours))
  s.setMif d { s.mif d with serial := serial, settings := settings, trainHours := hours }

/-- A record whose verify found a beat in error is discarded: its slot is invalid from now on (R313, R317). -/
def State.discardQuick (s : State) (d : Nat) (r : QRec) : State :=
  { s with flash := { s.flash with quick := s.flash.quick.filter (fun e => !(decide (e.1 / 2 = d) && e.2 == r)) } }

/-- An interface trains fully, with settings of its own (R313). -/
def State.trainFully (s : State) (t : Training) (d : Nat) : State :=
  let s := (s.mifTrained d (nth 0 t.serials d) (nth 0 t.rates d % 3) false (nth 0 t.temps d) s.health.hours s.drawn).modBoot
    (fun b => { b with fullTrained := insNat b.fullTrained d })
  { s with drawn := s.drawn + 1 }

/-- One interface of stage 7 that trains: from Quickset where a record is usable and verifies, else fully (R313, R316). -/
def State.trainMif (s : State) (t : Training) (d : Nat) : State :=
  match s.quickFor d (nth 0 t.serials d) (nth 0 t.temps d) with
  | some r =>
    if t.verifyFailed.contains d then (s.discardQuick d r).trainFully t d
    else s.mifTrained d (nth 0 t.serials d) r.rate true r.temp r.hours r.settings
  | none => s.trainFully t d

/-- The dies of a device after training (R318, R319): a DQ fault within one die erases it, with an event; an erasure of an earlier start is
cleared by a clean training. -/
def State.trainDies (s : State) (t : Training) (d : Nat) : State :=
  match t.erased.find? (fun e => e.1 == d) with
  | some e => s.eraseDie d e.2
  | none => s.modHealth (fun x => { x with erasedDies := merase x.erasedDies d })

/-- A half is lost at bring-up with its memory interface (R388, R406): its cores leave service until a later bring-up passes it. -/
def State.bootLose (s : State) (d : Nat) : State :=
  let s := s.setHalf d { Half.empty with lost := true }
  let s := s.modHealth (fun x => { x with lostHalves := insNat x.lostHalves d })
  let s := (s.setRoster s.prevSet).modBoot (fun b => { b with degraded := true })
  let s := if s.countAll s.roster.enabled < s.part.grade.enabled then s.modBoot (fun b => { b with shortfall := true }) else s
  s.healthEntry (d / 2) 8 0xFFF d

/-- Interfaces fail (R318, R320, R406): bring-up stops, or in local mode under DEGRADED_OK their halves are lost. -/
def State.mifsFail (s : State) (ds : List Nat) : State :=
  let s := ds.foldl (fun u d => u.wgF (.mif d) 0x000 1 0 3) s
  match ds with
  | [] => s
  | d :: _ => if s.boot.cfg.spread || !s.boot.cfg.degradedOk then s.stopPart 6 d else ds.foldl State.bootLose s

/-- TRAINING_STAGE (R313 to R319, R403, R406, R409): stage 7, once retired slices have been rehomed. -/
def execTrainingStage (result : Training) (s : State) : Out :=
  .next (if !s.stageNext 6 || s.halves.any (fun h => h.2.retireDue != [] || h.2.stalled != []) then s
    else
      let s := s.setStage 7
      match result.badStackLink with
      | some x => s.stopPart 7 x
      | none =>
        let ds := upTo 0 s.devices
        let bad := ds.filter (fun d => result.failed.contains d)
        let s := (ds.filter (fun d => !bad.contains d)).foldl (fun u d => (u.trainMif result d).trainDies result d) s
        s.mifsFail bad)

/-! ## Stages 8 and 9 (R404 to R406) -/

/-- Remap entries of lines that post-package repair has replaced are freed (R217, R400). -/
def State.repairLines (s : State) (d : Nat) (ls : List Nat) : State :=
  let b := Blk.mif d
  let s := (upTo 0 8).foldl (fun u j =>
    if u.rgB b (0x2300 + 8 * j) 0 && ls.contains (u.rgF b (0x2304 + 8 * j) 28 0) then
      (u.wg b (0x2300 + 8 * j) 0).wg b (0x2304 + 8 * j) 0
    else u) s
  s.modHealth (fun x => { x with memRemaps := x.memRemaps.filter (fun e => !(e.1 == d && ls.contains e.2.1)) })

/-- Failures of one device (R406): repairs, remapped lines, an erased die. The second part says whether the interface fails. -/
def State.memFails (s : State) (f : MemFail) : State × Bool :=
  let d := f.dev
  let s := s.repairLines d f.repaired
  let used := (upTo 0 8).filter (fun j => s.rgB (.mif d) (0x2300 + 8 * j) 0)
  let new := (f.lines.foldl insNat []).filter (fun l => used.all (fun j => s.rgF (.mif d) (0x2304 + 8 * j) 28 0 != l))
  let dies := (f.dies ++ (if s.rgB (.mif d) 0x000 10 then [s.rgF (.mif d) 0x000 15 11] else [])).foldl insNat []
  if decide (8 < used.length + new.length) || decide (1 < dies.length) then (s, true)
  else
    let s := new.foldl (fun u l => u.remapLine d l []) s
    match dies with
    | [x] => (if s.rgB (.mif d) 0x000 10 then s else s.eraseDie d x, false)
    | _ => (s, false)

/-- The failures of a memory test (R406). -/
def State.memTest (s : State) (fs : List MemFail) : State :=
  let (s, bad) := (fs.filter (fun f => s.mifReady f.dev)).foldl (fun acc f =>
    let (u, b) := acc.1.memFails f
    (u, if b then insNat acc.2 f.dev else acc.2)) (s, [])
  s.mifsFail bad

/-- Whether the start is quick (R405). -/
def State.quickStart (s : State) : Bool :=
  (match s.health.retentionHours with | some h => decide (s.health.hours - h < 720) | none => false) && !s.health.excursion &&
    decide (s.health.retentionSerials = (upTo 0 s.devices).map (fun d => (s.mif d).serial))

/-- The memory tests end: external memory has lost its contents, the initialised-region bitmap is cleared (R208, R404). -/
def State.memoryTested (s : State) : State :=
  { s with
    mem := s.mem.filter (fun c => decide (s.extEnd ≤ c.1)), poison := s.poison.filter (fun w => decide (s.extEnd ≤ w * 32))
    mifs := s.mifs.map (fun (e : Nat × Mif) => (e.1, { e.2 with inited := [] })) }

/-- PATTERN_TEST (R404 to R406): stage 8, the last memory test of a quick start. -/
def execPatternTest (failed : List MemFail) (s : State) : Out :=
  .next (if !s.stageNext 7 then s
    else
      let s := (s.setStage 8).memTest failed
      if s.boot.stopped then s
      else if s.quickStart then (s.wgB (.pwr 0) 0x040 6 true).memoryTested else s)

/-- RETENTION_TEST (R369, R404 to R406): stage 9 of a full start; the pass is recorded. -/
def execRetentionTest (failed : List MemFail) (s : State) : Out :=
  .next (if !s.stageNext 8 || s.rgB (.pwr 0) 0x040 6 then s
    else
      let s := (s.setStage 9).memTest failed
      if s.boot.stopped then s
      else
        s.memoryTested.modHealth (fun x => { x with
          retentionHours := some x.hours, retentionSerials := (upTo 0 s.devices).map (fun d => (s.mif d).serial), excursion := false }))

/-! ## Stage 10 (R407, R408) -/

/-- The stack that a stack's packets for another go to first: columns are crossed first, then rows (R236). -/
def State.firstHop (s : State) (t d : Nat) : Nat :=
  let (x, y) := s.gridPos t
  let (x', y') := s.gridPos d
  let w := if s.stacks = 8 then 4 else 2
  if x < x' then t + 1 else if x' < x then t - 1 else if y < y' then t + w else t - w

/-- MSH_STACK_ROUTE of a stack (R236, R258). -/
def State.stackRoute (s : State) (t : Nat) : W32 :=
  (upTo 0 s.stacks).foldl (fun m d => if d = t then m else setF (4 * d + 3) (4 * d) (8 + s.firstHop t d) m) 0

/-- The edge routers of a layer of a stack on sides that face no other stack (R232). -/
def State.freeEdges (s : State) (t l : Nat) : List Nat :=
  let (x, y) := s.gridPos t
  let w := if s.stacks = 8 then 4 else 2
  (upTo (t * 512 + l * 256) 256).filter (fun i =>
    (decide (siteCol i = 0) && decide (x = 0)) || (decide (siteCol i = 15) && decide (x = w - 1)) ||
    (decide (siteRow i = 0) && decide (y = 0)) || (decide (siteRow i = 15) && decide (s.stacks ≤ t + w)))

/-- n attach routers, in increasing site order, out of those that are left. R232 does not give which routers: a free choice (log entry
9). -/
def pickRouters : Nat → State × List Nat → List Nat → State × List Nat × List Nat
  | 0, (s, cs), got => (s, cs, got)
  | n + 1, (s, cs), got =>
    let i := nth 0 cs ((Config.freeWord s.drawn).toNat % max 1 cs.length)
    pickRouters n ({ s with drawn := s.drawn + 1 }, delNat cs i) (insNat got i)

/-- The attach points of a layer in the order of R258: the controller, the host ports, the fabric ports. -/
def State.attachLayer (s : State) (t l : Nat) : State × List Nat :=
  let ports := (upTo 0 4).countP (fun p => decide ((s.part.grade.hostPort p).1 = t)) + 2
  let (s, cs, c) := pickRouters 1 (s, s.freeEdges t l) []
  let (s, _, out) := (upTo 0 ports).foldl (fun acc _ =>
    let (u, cs, out) := acc
    let (u, cs, got) := pickRouters 2 (u, cs) []
    (u, cs, out ++ got)) (s, cs, c)
  (s, out)

/-- MSH_ATTACH and MSH_ATTACH_COUNT of a stack (R258). -/
def State.setAttach (s : State) (t : Nat) : State :=
  let (s, a) := s.attachLayer t 0
  let (s, b) := s.attachLayer t 1
  let es := a ++ b
  ((upTo 0 10).foldl (fun u w =>
    u.wg (.msh t) (0x410 + 4 * w) (BitVec.ofNat 32 (nth 0 es (2 * w) + nth 0 es (2 * w + 1) * 65536))) s).wgF (.msh t) 0x438 4 0 es.length

/-- A line of the context directory is pinned in its half (R155, R193): it belongs to no partition. -/
def State.pinDirLine (s : State) (a : Nat) : State :=
  let (h, sl, set) := s.home a
  (s.takeWay h sl set 0xFFFF#32 false ⟨a / 256, 15, 0, 2, true, false, 16⟩).getD s

/-- The context directory's part of a device (R180, R208, R408): every descriptor invalid, its lines pinned. -/
def State.setDirectory (s : State) (d : Nat) : State :=
  let n := 0x4000000 / s.devices
  let s := s.setMif d { s.mif d with inited := (upTo ((devBytes - n) / 65536) (n / 65536)).foldl insNat (s.mif d).inited }
  (upTo 0 (n / 256)).foldl (fun u k => u.pinDirLine (u.addrOf d (devBytes - n + 256 * k))) s

/-- Pin window entry 0 of a stack (R155, R173): pinned, of no partition. In local mode the directory's parts of the stack's two devices
are no one range: BASE and LEN are then free values (log entry 9). -/
def State.setPin0 (s : State) (t : Nat) : State :=
  let n := 0x4000000
  let (b, l) := if s.boot.cfg.spread then (BitVec.ofNat 32 ((s.extEnd - n) / 65536), BitVec.ofNat 32 (n / 65536))
    else (Config.freeWord s.drawn, setF 31 24 0 (Config.freeWord (s.drawn + 1)))
  let s := { s with drawn := s.drawn + 2 }
  let s := [2 * t, 2 * t + 1].foldl (fun u h => ((u.wg (.sc h) (pinOff 0) b).wg (.sc h) (pinOff 0 + 4) l).wg (.sc h) (pinOff 0 + 8) 3) s
  s.pinSync t

/-- SLICES_ACTIVE and RETIRED of a half (R168). -/
def State.countSlices (s : State) (h : Nat) : State :=
  let n := (upTo 0 256).countP (fun sl => s.retired h sl)
  (s.wgF (.sc h) 0x000 8 0 (256 - n)).wgF (.sc h) 0x000 16 9 (min 255 n)

/-- The set-up of stage 10 (R155, R236, R258, R400, R407, R408): the reconciliation log takes what stages 5 to 9 have found; fabric ports that are down or held raise their event. -/
def State.bootSetUp (s : State) : State :=
  let ts := upTo 0 s.stacks
  let hs := upTo 0 s.devices
  let s := (hs.filter (fun h => !(s.half h).lost)).foldl State.setDirectory (hs.foldl State.countSlices s)
  let s := ts.foldl State.setPin0 s
  let s := ts.foldl (fun u t => (u.wg (.msh t) 0x400 (u.stackRoute t)).setAttach t) s
  let recs := s.boot.recEntries ++ s.disagree.filter (fun x => !s.boot.recEntries.contains x)
  let s : State := { s with flash := { s.flash with recLog := (recs ++ s.flash.recLog).take 4096 } }
  if (upTo 0 s.fabPorts).any (fun j => s.rgB (.fp j) 0x008 0 && decide (s.fabState j ≠ 2)) then s.adminEvent 9 else s

/-- READY is raised (R282, R408 to R410): regions outside every partition, which is all of them, are parked. -/
def State.raiseReady (s : State) : State :=
  let b := Blk.pwr 0
  let s := ((s.wgB b 0x040 4 true).wgB b 0x040 5 s.boot.degraded).wg64 b 0x044 s.time.now
  (s.allRegions.foldl (fun u r => u.parkRegion r false) s).modBoot (fun x => { x with setUp := 3 })

/-- TOPOLOGY_CHECK (R358, R407 to R410, R412): stage 10, in turn: set-up with the health record's store, the store of Quickset records
where an interface trained fully, READY. Each waits for the store before it, the first for the copies of device time. -/
def execTopologyCheck (badLink : Option Nat) (s : State) : Out :=
  .next (if s.held || s.boot.stopped || s.flash.storing.isSome then s
    else if s.bootStage = 9 ∨ (s.bootStage = 8 ∧ s.rgB (.pwr 0) 0x040 6 = true) then
      if !((upTo 0 s.stacks).all (fun t => s.rgB (.clk t) 0x000 2)) then s
      else
        let s := s.setStage 10
        match badLink with
        | some x => s.stopPart 7 x
        | none => (s.bootSetUp.storeHealth).modBoot (fun b => { b with setUp := 1 })
    else if s.bootStage ≠ 10 then s
    else if s.boot.setUp = 1 ∧ s.boot.fullTrained ≠ [] then (s.beginStore s.quickStore).modBoot (fun b => { b with setUp := 2 })
    else if s.boot.setUp = 1 ∨ s.boot.setUp = 2 then s.raiseReady
    else s)

end Sys2Proof.Machine
end

