-- ==== Sys2Proof/Machine/Lands.lean ====
section
/-! DEFINITION. The lands that the boundary register covers, and what drives them (R10, R397, R430, R438, R440, R442, R447). -/

namespace Sys2Proof.Machine

/-- A covered land of a memory interface, by its group and index: of a differential pair the true leg comes first. -/
inductive MifLand where
  | dq (i : Nat)
  | dmi (i : Nat)
  | wck (i : Nat)
  | rdqs (i : Nat)
  | ca (i : Nat)
  | cs
  | ck (i : Nat)
  | resetN
deriving DecidableEq, Repr

/-- A covered land (R447). -/
inductive Land where
  | resetN
  | pwrgd
  | thermtripN
  | alertN
  | smbScl
  | smbSda
  | spiClk
  | spiCsN
  | spiDq (i : Nat)
  | perstN (k : Nat)
  | vronLogic (t : Nat)
  | vronArray (t : Nat)
  | mif (d : Nat) (l : MifLand)
deriving DecidableEq, Repr

/-- Covered lands of an interface: its 408 but for ZQ (R437, R447). -/
def mifLands : Nat := 407

/-- The n-th covered land of an interface: DQ, DMI, WCK, RDQS, CA, CS, CK, RESET_N (R447). -/
def mifLand (n : Nat) : MifLand :=
  if n < 288 then .dq n
  else if n < 324 then .dmi (n - 288)
  else if n < 360 then .wck (n - 324)
  else if n < 396 then .rdqs (n - 360)
  else if n < 403 then .ca (n - 396)
  else if n = 403 then .cs
  else if n < 406 then .ck (n - 404)
  else .resetN

/-- Rail enables among the lands: two for each stack of an XN2 or XN4 (R438). -/
def State.vrons (s : State) : Nat := if s.stacks = 8 then 0 else 2 * s.stacks

/-- Covered lands of the part. -/
def State.landCount (s : State) : Nat := 16 + s.vrons + mifLands * s.devices

/-- Bits of the boundary register (R447): three for each covered land. -/
def State.boundaryLen (s : State) : Nat := 3 * s.landCount

/-- The n-th covered land from TDI (R447): sideband, host PERST_N, VRON by stack, logic first (DEDUCED, log entry 156), interfaces. -/
def State.landAt (s : State) (n : Nat) : Land :=
  if n < 8 then nth .resetN [.resetN, .pwrgd, .thermtripN, .alertN, .smbScl, .smbSda, .spiClk, .spiCsN] n
  else if n < 12 then .spiDq (n - 8)
  else if n < 16 then .perstN (n - 12)
  else if n < 16 + s.vrons then (if n % 2 = 0 then .vronLogic ((n - 16) / 2) else .vronArray ((n - 17) / 2))
  else .mif ((n - 16 - s.vrons) / mifLands) (mifLand ((n - 16 - s.vrons) % mifLands))

/-- What drives the covered lands: the part, the boundary cells, or nothing. -/
inductive PinMode where
  | system
  | boundary
  | highz
deriving DecidableEq, Repr

/-- What drives the covered lands (R430, R447): EXTEST, CLAMP and HIGHZ act only while RESET_N is low. -/
def State.pinMode (s : State) : PinMode :=
  if s.pins.resetN then .system
  else if s.dbg.ir = 0x00 ∨ s.dbg.ir = 0x03 then .boundary
  else if s.dbg.ir = 0x04 then .highz else .system

/-- The drive of a land: a level, nothing (an input, or a released open-drain land), or what its interface is about. -/
inductive Drive where
  | low
  | high
  | none
  | inUse
deriving DecidableEq, Repr

/-- The drive of an interface's land before training takes it into use and from then on (R438, R442). -/
def mifDrive (used : Bool) (l : MifLand) : Drive :=
  match l, used with
  | .rdqs _, _ => .none
  | .resetN, true => .high
  | _, true => .inUse
  | .dq _, false => .none
  | .dmi _, false => .none
  | _, false => .low

/-- The drive that the part itself gives a land (R438, R440, R442): a rail is enabled with its stack, until the trip latch sets. -/
def State.systemDrive (s : State) (l : Land) : Drive :=
  let rail (t bit : Nat) : Drive := if s.rgB (.pwr t) 0x000 bit && !s.pins.thermtrip then .high else .low
  let flash := !s.held && decide (1 ≤ s.bootStage)
  match l with
  | .resetN => .none
  | .pwrgd => .none
  | .perstN _ => .none
  | .thermtripN => if s.pins.thermtrip then .low else .none
  | .alertN => if s.pins.alert then .low else .none
  | .smbScl => .none
  | .smbSda => .none
  | .spiClk => if flash then .inUse else .low
  | .spiCsN => if flash then .inUse else .high
  | .spiDq _ => if flash then .inUse else .none
  | .vronLogic t => rail t 0
  | .vronArray t => rail t 1
  | .mif d m => mifDrive (decide (s.rgF (.mif d) 0x000 1 0 ≠ 0)) m

/-- The drive of the n-th covered land (R430, R447): under EXTEST and CLAMP its boundary cell gives it, output enable and output data, the
cells in order from TDI, so that bit 0 is the one next to TDO. -/
def State.drive (s : State) (n : Nat) : Drive :=
  match s.pinMode with
  | .system => s.systemDrive (s.landAt n)
  | .highz => .none
  | .boundary =>
    if s.dbg.preload.testBit (s.boundaryLen - 1 - 3 * n) then
      (if s.dbg.preload.testBit (s.boundaryLen - 2 - 3 * n) then .high else .low)
    else .none

end Sys2Proof.Machine
end

