-- ==== Sys2Proof/Machine/Debug.lean ====
section
/-! DEFINITION. The TAP and the debug port (R415, R430 to R435, R447, R448). The TAP lives while VDD_AON is in range. -/

namespace Sys2Proof.Machine

/-! ## The TAP (R430, R447, R448) -/

/-- The part number of IDCODE (R430). -/
def Grade.partNo (g : Grade) : Nat :=
  match g.stacks with
  | 8 => 0x5838
  | 4 => 0x5834
  | _ => 0x5832

/-- IDCODE (R430): stepping [31:28], part number [27:12], manufacturer [11:1]; bit 0 is 1, as IEEE 1149.1 has it (PRESUMED, log entry
11). -/
def State.idcode (s : State) : Nat :=
  s.part.stepping % 16 * 2 ^ 28 + s.part.grade.partNo * 2 ^ 12 + Config.manufacturer % 2048 * 2 + 1

/-- An instruction is selected, and its data register holds n; without VDD_AON there is no TAP. -/
def State.tap (s : State) (ir n : Nat) : State :=
  if s.pins.vddAon then { s with dbg := { s.dbg with ir := ir, dr := n } } else s

/-- EXTEST (R430, R447): the boundary register, but the bypass register while RESET_N is high. -/
def execExtest (s : State) : Out := .next (s.tap 0x00 (if s.pins.resetN then 0 else s.dbg.boundary))

/-- SAMPLE_PRELOAD (R430, R447): `captured` is what the cells take in, `preload` what is shifted into them. -/
def execSamplePreload (captured preload : Nat) (s : State) : Out :=
  let m := 2 ^ s.boundaryLen
  .next (if s.pins.vddAon then
    ({ s with dbg := { s.dbg with boundary := captured % m, preload := preload % m } }).tap 0x01 (captured % m)
  else s)

/-- IDCODE (R430). -/
def execIdcode (s : State) : Out := .next (s.tap 0x02 s.idcode)

/-- CLAMP (R430): the bypass register. -/
def execClamp (s : State) : Out := .next (s.tap 0x03 0)

/-- HIGHZ (R430): the bypass register. -/
def execHighz (s : State) : Out := .next (s.tap 0x04 0)

/-- BYPASS (R430). -/
def execBypass (s : State) : Out := .next (s.tap 0xFF 0)

/-- TAP_RESET (R430): IDCODE is selected. -/
def execTapReset (s : State) : Out := .next (s.tap 0x02 s.dbg.dr)

/-! ## Unlocking (R431) -/

/-- The debug level (R433). -/
def State.dbgLevel (s : State) : Nat := s.rgF (.dbg 0) 0x000 1 0

/-- Whether the token's PARTS names every partition (R432). -/
def State.dbgWhole (s : State) : Bool := decide (s.rgF (.dbg 0) 0x000 31 16 = 0xFFFF)

/-- Whether the token's PARTS names a partition (R432). -/
def State.dbgPart (s : State) (p : Option Nat) : Bool :=
  match p with
  | some q => decide (q < 16) && s.rgB (.dbg 0) 0x000 (16 + q)
  | none => false

/-- The level returns to 0: every halt is released, every breakpoint and watchpoint disabled (R431). -/
def State.dbgLocked (s : State) : State :=
  (upTo 0 s.sites).foldl (fun t i =>
    (upTo 0 4).foldl (fun u j => u.wgB (.dbg (siteStack i)) (dbgOff i + 0x34 + 12 * j) 18 false) (t.dropHalts i))
    (s.wgF (.dbg 0) 0x000 1 0 0)

/-- DBG_CHALLENGE (R430, R431): nonce and serial. -/
def execDbgChallenge (s : State) : Out :=
  .next (s.tap 0x10 ((Config.nonce s.dbg.nonceCount).toNat + s.part.serial % 2 ^ 64 * 2 ^ 128))

/-- Whether a token of 160 bytes unlocks the part now (R431). -/
def State.tokenOk (s : State) (tok : List Byte) : Bool :=
  let body := tok.take 64
  let n (i k : Nat) : Nat := ofBytes ((body.drop i).take k)
  Config.signatureVerifies 1 body (tok.drop 64) && decide (n 0 2 = 0x4454) && (decide (n 2 1 = 1) || decide (n 2 1 = 2)) &&
    decide (n 3 1 = 0) && decide (n 6 2 = 0) && decide (n 8 8 = s.part.serial % 2 ^ 64) &&
    decide (n 16 16 = (Config.nonce s.dbg.nonceCount).toNat) && decide (s.time.now < n 32 8) && decide (n 40 24 = 0)

/-- DBG_TOKEN (R431, R435): no attempt counts while the part is held in reset, none is made under LOCKOUT. -/
def execDbgToken (token : List Byte) (s : State) : Out :=
  let tok := (token ++ List.replicate 160 0).take 160
  let b := Blk.dbg 0
  let t := s.tap 0x11 (ofBytes tok)
  .next (if s.held || s.rgB b 0x000 2 then t
    else
      let t := { t with dbg := { t.dbg with nonceCount := t.dbg.nonceCount + 1 } }
      if s.tokenOk tok then
        let n (i k : Nat) : Nat := ofBytes ((tok.drop i).take k)
        (((t.wgF b 0x000 1 0 (n 2 1)).wgF b 0x000 31 16 (n 4 2)).wg64 b 0x008 (n 32 8))
      else
        let k := s.rgF b 0x000 4 3 + 1
        (t.wgF b 0x000 4 3 k).wgB b 0x000 2 (decide (3 ≤ k)))

/-- DBG_LOCK (R430, R431). -/
def execDbgLock (s : State) : Out := .next (if s.pins.vddAon then (s.tap 0x12 0).dbgLocked else s)

/-- DEBUG_EXPIRY (R431): device time has reached EXPIRY. -/
def execDebugExpiry (s : State) : Out :=
  .next (if s.dbgLevel ≠ 0 ∧ s.rg64 (.dbg 0) 0x008 ≤ s.time.now then s.dbgLocked else s)

/-! ## Halts (R434) -/

/-- Whether the debug port may act on a core (R432). -/
def State.dbgCore (s : State) (site : Nat) : Bool :=
  !s.held && decide (s.dbgLevel = 2) && s.dbgPart (s.corePart site)

/-- The group slots that HALT and RESUME of a site name (R433). -/
def State.dbgTarget (s : State) (site : Nat) : List Nat :=
  let b := Blk.dbg (siteStack site)
  let gs := (s.core site).groups.map (·.1)
  if s.rgB b (dbgOff site) 3 then gs else gs.filter (fun g => decide (g = s.rgF b (dbgOff site) 9 4))

/-- A write of 1 to HALT of a site (R433, R434). -/
def State.dbgHalt (s : State) (site : Nat) : State :=
  (s.dbgTarget site).foldl (fun t g => t.wgB (.dbg (siteStack site)) (dbgOff site + 0x08 + g / 32 * 4) (g % 32) true) s

/-- A write of 1 to RESUME of a site (R433, R434): the instruction that a breakpoint halted a group at may now issue. -/
def State.dbgResume (s : State) (site : Nat) : State :=
  let gs := (s.dbgTarget site).filter (fun g => s.halted site g)
  gs.foldl (fun t g => t.modGroup site g (fun x => { x with bpSkip := true })) (s.unhalt site gs)

/-- A write of 1 to STEP of a site (R8, R433, R434): a step of GROUP is pending until it issues. -/
def State.dbgStep (s : State) (site : Nat) : State :=
  let b := Blk.dbg (siteStack site)
  let g := s.rgF b (dbgOff site) 9 4
  if s.halted site g && (s.core site).groups.any (fun x => decide (x.1 = g)) then s.wgB b (dbgOff site) 2 true else s

/-- HALT (R433, R434): the write of 1 to HALT of a site. -/
def execHalt (site : Nat) (s : State) : Out :=
  if s.sites ≤ site then .next s else .next (if s.dbgCore site then s.dbgHalt site else s)

/-- RESUME (R433, R434). -/
def execResume (site : Nat) (s : State) : Out :=
  if s.sites ≤ site then .next s else .next (if s.dbgCore site then s.dbgResume site else s)

/-- STEP (R8, R433, R434). -/
def execStep (site : Nat) (s : State) : Out :=
  if s.sites ≤ site then .next s else .next (if s.dbgCore site then s.dbgStep site else s)

/-! ## Debug accesses (R430, R432, R433) -/

/-- The partition whose registers a register of a block is among, if it is one partition's (R304, R419, R427, R432, R433). -/
def State.regOwner (s : State) (b : Blk) (o : Nat) : Option Nat :=
  match b with
  | .arr i => s.corePart i
  | .esp i => s.corePart i
  | .cntCore i => s.corePart i
  | .router i => s.corePart i
  | .fp _ => if 0x100 ≤ o ∧ o < 0x500 then some ((o - 0x100) / 64) else none
  | .cnt _ => if 0x2000 ≤ o ∧ o < 0x2400 then some ((o - 0x2000) / 0x40) else none
  | .dbg t => if 0x4000 ≤ o ∧ o < 0x10000 then s.corePart (t * 512 + (o - 0x4000) / 0x60) else none
  | _ => none

/-- Whether a debug write reaches a register (R432): one of the partitions named, or any under PARTS of 0xFFFF. -/
def State.dbgMayWrite (s : State) (b : Blk) (o : Nat) : Bool :=
  decide (s.dbgLevel = 2) && (s.dbgWhole || s.dbgPart (s.regOwner b o))

/-- Whether the core of a site is fenced: it answers a debug request with a FENCED response, which is a refusal (R374). -/
def State.fencedCore (s : State) (site : Nat) : Bool := hasSite s.roster.fenced site

/-- Whether the register at an offset from 0xF200_0000_0000 is one of a fenced core (R374): the registers of its router are not. -/
def State.fencedReg (s : State) (x : Nat) : Bool :=
  match locate x with
  | some (.arr i, _) => s.fencedCore i
  | some (.esp i, _) => s.fencedCore i
  | some (.cntCore i, _) => s.fencedCore i
  | _ => false

/-- The actions that a debug write of 1 to W1S bits starts, after the word's other fields are written (R6, R8, R87, R215, R298, R304,
R419, R421, R427, R433). -/
def State.dbgActs (s : State) (b : Blk) (o : Nat) (v : W32) : State :=
  match b with
  | .esp i => if o = 0x010 then s.espLoadWrite i v else s
  | .cntCore i => if o = 0x100 ∧ v.getLsbD 0 = true then s.clearCore i else s
  | .sc h => if o = 0x238C ∧ v.getLsbD 8 = true then s.clearLog false h else s
  | .mif d => if o = 0x238C ∧ v.getLsbD 8 = true then s.clearLog true d else s
  | .fp j =>
    if o = 0x008 then
      let s := if v.getLsbD 1 then s.fabAccept j else s
      if v.getLsbD 2 then s.fabRetrain j else s
    else s
  | .dbg t =>
    if 0x4000 ≤ o ∧ o % 0x60 = 0x4000 % 0x60 then
      let site := t * 512 + (o - 0x4000) / 0x60
      let s := if v.getLsbD 0 then s.dbgHalt site else s
      let s := if v.getLsbD 1 then s.dbgResume site else s
      if v.getLsbD 2 then s.dbgStep site else s
    else s
  | .cnt t =>
    if o = 0x004 then s.clearBlocks t v else if ownRow (.cnt t) o = true ∧ t = 0 then s.setRptr ((o - 0x2024) / 0x40) v else s
  | _ => s

/-- A debug write of a register at an offset from 0xF200_0000_0000: none where it is refused. -/
def State.dbgWriteReg (s : State) (a : Nat) (v : W32) : Option State :=
  match locate a with
  | none => if s.dbgLevel = 2 then some s else none
  | some (b, o) =>
    if !s.dbgMayWrite b o then none
    else if a % 4 ≠ 0 ∨ s.hasBlk b = false ∨ fieldsAt a = [] then some s
    else some ((if ownRow b o then s else s.applyWrite b o v).dbgActs b o v)

/-- The data register of DBG_REG after an access: done, refused and the data beside the address and the write bit. -/
def regAnswer (dr : BitVec 96) (refused : Bool) (v : W32) : Nat :=
  dr.toNat % 2 ^ 49 + 2 ^ 49 + (if refused then 2 ^ 50 else 0) + v.toNat * 2 ^ 64

/-- DBG_REG (R11, R183, R374, R415, R430, R432): the address is a device address; an address outside the registers (R178), one of a fenced core,
and every access while the part is held in reset, is refused (log entry 80). -/
def execDbgReg (dr : BitVec 96) (s : State) : Out :=
  let a := dr.toNat % 2 ^ 48
  let x := a - regBase
  .next (if s.held || decide (a < regBase) || decide (regEnd ≤ a) || decide (s.dbgLevel = 0) || s.fencedReg x then s.tap 0x13 (regAnswer dr true 0)
    else if dr.getLsbD 48 then
      (match s.dbgWriteReg x (BitVec.ofNat 32 (dr.toNat / 2 ^ 64)) with
       | some t => t.tap 0x13 (regAnswer dr false (BitVec.ofNat 32 (dr.toNat / 2 ^ 64)))
       | none => s.tap 0x13 (regAnswer dr true 0))
    else (s.latchRead 4 x).tap 0x13 (regAnswer dr false (s.readReg 4 x)))

/-- The data register of DBG_MEM after an access. -/
def memAnswer (dr : BitVec 128) (refused pois : Bool) (v : Nat) : Nat :=
  dr.toNat % 2 ^ 52 + 2 ^ 52 + (if refused then 2 ^ 53 else 0) + (if pois then 2 ^ 54 else 0) + v * 2 ^ 64

/-- The stack whose memory or window or local memory [a, a + n) lies in (R13, R178 to R182). -/
def State.memStack (s : State) (a n : Nat) : Option Nat :=
  if a + n ≤ s.extEnd then some (s.devOf a / 2)
  else if winBase ≤ a ∧ a + n ≤ winBase + s.sites * 0x400000 then some (siteStack (winSite a))
  else (s.localSite a n).map siteStack

/-- The partition a debug write to [a, a + n) falls to (R432): ranges, windows of its slices, local memories of its cores. -/
def State.memOwner (s : State) (a n : Nat) : Option Nat :=
  if a < s.extEnd then (s.parts.find? (fun p => s.inRanges p.1 a n)).map (·.1)
  else if a < lmemBase then
    (if s.inWindow a n then some (s.winPart (siteHalf (winSite a)) (siteSlice (winSite a))) else none)
  else (s.localSite a n).bind s.corePart

/-- The debug port as it accesses memory (R240, R432): it enters the network where the first controller does (DEDUCED, log entry 80). -/
def dbgEng (serial : Nat) : Eng := ⟨noSite, 75, 0, noCid, 0, 0, [], 0, 0, 0, serial⟩

/-- A debug access to memory sets out (R185, R203, R211, R214, R240, R432): in class 7, at the place, no allocation. Bytes outside the size of a
window hold nothing: they read as a free value (log entries 9, 80). -/
def State.dbgMemAccess (s : State) (dr : BitVec 128) (a n : Nat) (write : Bool) : State :=
  if winBase ≤ a ∧ a < lmemBase ∧ s.inWindow a n = false then
    ({ s with drawn := s.drawn + 2 }).tap 0x14 (memAnswer dr false false
      (((Config.freeWord s.drawn).toNat + 2 ^ 32 * (Config.freeWord (s.drawn + 1)).toNat) % 2 ^ (8 * n)))
  else
    let k := s.net.nextSerial
    let e := dbgEng k
    let t := if write then s.queueWrite e a ((toBytes n (dr.toNat / 2 ^ 64 % 2 ^ (8 * n))).map (fun b => (b, false))) else s.queueRead e a n
    { (t.bumpSerial.sendQueued noSite) with dbg := { s.dbg with mem := some (dr, k) } }

/-- A debug access to memory whose answers have come shows its answer (R211, R388, R432). -/
def State.settleDbg (s : State) (refused : Bool) : State :=
  match s.dbg.mem with
  | none => s
  | some (dr, k) =>
    let e := dbgEng k
    let n := 2 ^ (dr.toNat / 2 ^ 48 % 8)
    if s.engBusy e then s
    else
      let g := s.gatherOne e (.here (dr.toNat % 2 ^ 48) n)
      let t := { s.used e with dbg := { s.dbg with mem := none } }
      if dr.getLsbD 51 then t.tap 0x14 (if refused then memAnswer dr true false 0 else memAnswer dr false false (dr.toNat / 2 ^ 64 % 2 ^ (8 * n)))
      else
        match g with
        | .data bs => t.tap 0x14 (memAnswer dr false (bs.any (·.2)) (ofBytes (bs.map (·.1))))
        | _ => t.tap 0x14 (memAnswer dr true false 0)

/-- A debug access to registers through DBG_MEM (R184, R374, R415): aligned, of 4 or 8 bytes, none of a fenced core. -/
def State.dbgMemReg (s : State) (dr : BitVec 128) (x n : Nat) (write : Bool) : State :=
  let no := s.tap 0x14 (memAnswer dr true false 0)
  if n < 4 ∨ x % n ≠ 0 ∨ s.fencedReg x = true then no
  else if write then
    let v := dr.toNat / 2 ^ 64
    match s.dbgWriteReg x (BitVec.ofNat 32 v) with
    | none => no
    | some t =>
      if n = 4 then t.tap 0x14 (memAnswer dr false false (v % 2 ^ 32))
      else
        match t.dbgWriteReg (x + 4) (BitVec.ofNat 32 (v / 2 ^ 32)) with
        | none => no
        | some u => u.tap 0x14 (memAnswer dr false false v)
  else
    let t := s.latchRead 4 x
    t.tap 0x14 (memAnswer dr false false
      ((s.readReg 4 x).toNat + (if n = 8 then 2 ^ 32 * (t.readReg 4 (x + 4)).toNat else 0)))

/-- DBG_MEM (R178, R184, R185, R374, R430, R432): refused beyond the level, at an address that names nothing, in the local memory of a fenced
core, with a size above 3, and where the part is held in reset or the rails of the stack are off (log entry 80); none while one is under way. -/
def execDbgMem (dr : BitVec 128) (s : State) : Out :=
  let a := dr.toNat % 2 ^ 48
  let k := dr.toNat / 2 ^ 48 % 8
  let n := 2 ^ k
  let w := dr.getLsbD 51
  let no := s.tap 0x14 (memAnswer dr true false 0)
  .next (if s.held || decide (3 < k) || decide (regEnd < a + n) || decide (s.dbgLevel = 0) || (w && decide (s.dbgLevel ≠ 2)) then no
    else if regBase ≤ a then s.dbgMemReg dr (a - regBase) n w
    else
      match s.memStack a n with
      | none => no
      | some t =>
        if s.rgF (.pwr t) 0x000 1 0 ≠ 3 ∨ (w = true ∧ s.dbgPart (s.memOwner a n) = false) ∨
            ((s.localSite a n).map s.fencedCore).getD false = true then no
        else if s.dbg.mem.isSome then s
        else s.dbgMemAccess dr a n w)

end Sys2Proof.Machine
end

