-- ==== Sys2Proof/Machine/Answers.lean ====
section
/-! DEFINITION. Answers that reach their masters: cores, command processors, ports (R230, R247, R254). -/

namespace Sys2Proof.Machine

/-- A refusal reaches a request of another part that is served (R297). -/
def State.fabRefused (s : State) (serial : Nat) : State :=
  { s with fab := { s.fab with serving := s.fab.serving.map (fun x =>
      if x.2.2.2.1 = serial then (x.1, x.2.1, x.2.2.1, serial, true) else x) } }

/-- What an answer lets its master do: a port completes what has all its answers, a core's acknowledgement
counts for the command (R23); a core or a processor goes on at its own events. -/
def State.delivered (s : State) (r : Req) : State :=
  if r.slot = 72 then (if r.refused && r.kind != .read then s.unsupported r.lane else s).settleReads r.lane
  else if r.slot = 73 then (if r.refused then s.fabRefused r.serial else s).settleFab
  else if r.slot = 75 then s.settleDbg r.refused
  else
    match r.kind with
    | .order (.endOrder cid site) => if r.refused then s else s.ackReach cid site
    | _ => s

/-- The answer of a request is taken in. -/
def State.gotAnswer (s : State) (r : Req) : State := (s.takeAnswer r).delivered r

/-- RESPONSE_ARRIVAL (R247, R254): a response that has come to its master completes the request; one for a request that is answered, or has
given up, is discarded and counted. -/
def execResponseArrival (rid : Nat) (s : State) : Out :=
  let here := s.net.packets.find? (fun k => k.rid == rid && k.response && k.at_ == k.dest && s.canMove k && s.wins k)
  match s.req? rid, here with
  | none, none => .next s
  | none, some k => .next ((s.setPacket k.pid (fun _ => none)).bump (.router k.dest) 0x11C 1)
  | some r, here =>
    if r.remote.isSome then .next s
    else
      match here with
      | some k =>
        let s := s.setPacket k.pid (fun _ => none)
        .next (if r.ended then s.bump (.router k.dest) 0x11C 1 else s.gotAnswer r)
      | none =>
        if s.placeSite r.addr ≠ r.site then .next s
        else
          match r.state with
          | .performed => .next (s.gotAnswer r)
          | .answered =>
            if r.attempt = 0 then .next s
            else .next ((s.setReq { r with attempt := r.attempt - 1 }).bump (.router r.site) 0x11C 1)
          | _ => .next s

end Sys2Proof.Machine
end

