-- ==== Sys2Proof/Machine/CmdTest.lean ====
section
/-! DEFINITION. SELFTEST (R217, R222, R223, R276, R280, R373). What a test finds is an operand of its row (log entry 3). -/

namespace Sys2Proof.Machine

/-- A SELFTEST of a KIND. -/
def isTest (k : Nat) (c : Cmd) : Bool := isOp 0x30 c && decide (c.f 2 3 0 = k)

/-- The sites that a SELFTEST names. -/
def State.testSites (s : State) (c : Cmd) : List Nat := s.namedSites c (c.f 3 11 0) (decide (c.f 3 16 16 = 1))

/-- A SELFTEST ends: SELFTEST_FAIL where a unit failed, with their number. -/
def State.testEnd (s : State) (c : Cmd) (n : Nat) : State := s.finish c.cid (if n = 0 then 0 else 0x3A) n

/-- The results of a SELFTEST's tests that run, by half × 256 + slice: what fails is kept in retried; a test that a park has stopped is
begun again (R223, R225). -/
def State.vportResults (s : State) (cid : Nat) (running : List Nat) (failed : List (Nat × List Nat)) : State :=
  running.foldl (fun t k =>
    if t.rgB (.sc (k / 256)) (0x2800 + 4 * (k % 256)) 9 then
      let bad := (mfind failed k).getD []
      (t.testDone (k / 256) (k % 256) bad).modCmd cid (fun d => { d with
        pieces := insNat (delNat d.pieces (2 * k)) (2 * k + 1), retried := if bad = [] then d.retried else insNat d.retried k })
    else t.modCmd cid (fun d => { d with pieces := delNat d.pieces (2 * k) })) s

/-- A SELFTEST begins the tests of the ports left, at most four of a half at a time (R222, R280). -/
def State.vportStarts (s : State) (cid : Nat) (left : List Nat) : State :=
  left.foldl (fun t k =>
    if t.testable (k / 256) (k % 256) then
      (t.startTest (k / 256) (k % 256)).modCmd cid (fun d => { d with pieces := insNat d.pieces (2 * k) })
    else t) s

/-- SELFTEST_VPORT (R222, R223, R280): each event takes the results of the tests that run, failed lanes by half × 256 + slice, and begins
others. pieces holds 2 × port while its test runs and 2 × port + 1 once it is over. -/
def execSelftestVport (cid : Nat) (failed : List (Nat × List Nat)) (s : State) : Out :=
  runCmd s cid (isTest 1) (fun t c =>
    let named := ((t.testSites c).map (fun i => siteHalf i * 256 + siteSlice i)).filter (fun k => !t.retired (k / 256) (k % 256))
    let t := t.vportResults cid (named.filter (fun k => c.pieces.contains (2 * k))) failed
    let now := ((t.cmd? cid).map (·.pieces)).getD []
    let left := named.filter (fun k => !now.contains (2 * k) && !now.contains (2 * k + 1))
    if named.all (fun k => now.contains (2 * k + 1)) then t.testEnd c (((t.cmd? cid).map (·.retried)).getD []).length
    else t.vportStarts cid left)

/-- SELFTEST_CORE (R96, R280): each named core takes no new block, is tested once none is resident on it, and is placed on again;
a core that fails is fenced (R373). `pieces` holds the cores that have been tested, `retried` those that failed. -/
def execSelftestCore (cid : Nat) (failed : List Nat) (s : State) : Out :=
  runCmd s cid (isTest 2) (fun t c =>
    let left := (t.testSites c).filter (fun i => !c.pieces.contains i)
    let t := left.foldl (fun t i => t.modCore i (fun k => { k with selfTest := true })) t
    let ready := left.filter (fun i => (t.core i).blocks.isEmpty)
    let bad := ready.filter (fun i => failed.contains i)
    let t := ready.foldl (fun t i => t.modCore i (fun k => { k with selfTest := false })) t
    let t := bad.foldl (fun t i => t.fenceCore i 8 false) t
    let t := t.modCmd cid (fun d => { d with pieces := ready.foldl insNat d.pieces, retried := bad.foldl insNat d.retried })
    if left.all (fun i => ready.contains i) then t.testEnd c (bad.foldl insNat c.retried).length else t)

/-- The devices whose bursts a SELFTEST of KIND 3 names (R280). -/
def State.testDevs (s : State) (c : Cmd) : List Nat :=
  if c.f 3 16 16 = 1 then upTo 0 s.devices else [siteHalf (c.f 3 11 0)]

/-- SELFTEST_MEMORY (R217, R280, R307): failed lines, by device and line; from a partition queue those of its ranges. RESULT counts the bursts
that failed. -/
def execSelftestMemory (cid : Nat) (failed : List (Nat × Nat)) (s : State) : Out :=
  runCmd s cid (isTest 3) (fun t c =>
    let bad := failed.filter (fun x => (t.testDevs c).contains x.1 &&
      (c.admin || t.inRanges c.part (t.addrOf x.1 (x.2 * 256)) 256))
    (bad.foldl (fun t x => t.remapLine x.1 x.2 []) t).testEnd c
      ((bad.map (fun x => (x.1, burstOf (x.2 * 256)))).eraseDups).length)

end Sys2Proof.Machine
end

