-- ==== Sys2Proof/Machine/CmdTrace.lean ====
section
/-! DEFINITION. COUNTER_SNAP and TRACE_CTL (R276, R425, R427 to R429). -/

namespace Sys2Proof.Machine

/-- SAT of a snapshot (R425): the fields that are event counters standing at 0xFFFF_FFFF. -/
def satOf (v : List Nat) : Nat := (upTo 10 14).foldl (fun m k => if nth 0 v k = 0xFFFFFFFF then m + 2 ^ k else m) 0

/-- The 256 bytes of a core's snapshot (R425); no latch falls in its cycle (log entry 70). -/
def State.snapEntry (s : State) (c : Cmd) (i : Nat) : List Byte :=
  let v := s.fieldVals i
  toBytes 4 i ++ toBytes 4 c.seqNo ++ toBytes 4 0xFFFFFFFF ++ toBytes 4 0xFFFFFFFF ++ toBytes 8 (s.timeOf (siteStack i)) ++
    toBytes 8 0 ++ toBytes 4 (satOf v) ++ toBytes 28 0 ++ v.flatMap (toBytes 8)

/-- COUNTER_SNAP (R265, R276, R425): to device memory of the partition, or to the memory of the admin host, which waits in D3hot. -/
def execCounterSnap (cid : Nat) (s : State) : Out :=
  runCmd s cid (isOp 0x28) (fun t c =>
    let bs := (t.namedSites c (c.f 4 11 0) (decide (c.f 4 12 12 = 1))).flatMap (t.snapEntry c)
    if !c.admin then (t.cpWrite c (c.addr 2) bs).finish cid 0 0
    else if t.hostWaits c.port then t
    else (t.hostWrite c.port (c.addr 2) bs).finish cid 0 0)

/-- The ring that a TRACE_CTL acts on (R427). -/
def Cmd.ring (c : Cmd) : Nat := if c.admin then 16 else c.part

/-- A TRACE_CTL of an ACTION. -/
def isTrace (a : Nat) (c : Cmd) : Bool := isOp 0x29 c && decide (c.f 2 1 0 = a)

/-- The trace ring stops or starts with the event mask of dword 7 (R428). -/
def State.traceRun (s : State) (c : Cmd) (on : Bool) : State :=
  let o := ringOff c.ring + 0x1C
  (s.wgF (.cnt 0) o 7 0 (c.f 7 7 0)).wgB (.cnt 0) o 8 on

/-- TRACE_STOP (R276, R428). -/
def execTraceStop (cid : Nat) (s : State) : Out :=
  runCmd s cid (isTrace 0) (fun t c => (t.traceRun c false).finish cid 0 0)

/-- TRACE_START (R276, R428): refused while no ring is set. -/
def execTraceStart (cid : Nat) (s : State) : Out :=
  runCmd s cid (isTrace 1) (fun t c =>
    if t.rgF (.cnt 0) (ringOff c.ring + 0x18) 24 0 = 0 then t.finish cid 0x02 0 else (t.traceRun c true).finish cid 0 0)

/-- TRACE_SET_RECORD_RING (R276, R427, R428): REC_NEXT goes on. -/
def execTraceSetRecordRing (cid : Nat) (s : State) : Out :=
  runCmd s cid (isTrace 2) (fun t c =>
    let o := ringOff c.ring
    (((t.wg (.cnt 0) o (c.dw 4)).wgF (.cnt 0) (o + 0x04) 15 0 (c.f 5 15 0)).wgF (.cnt 0) (o + 0x08) 20 0 (c.dw 6).toNat).finish cid 0 0)

/-- TRACE_SET_TRACE_RING (R276, R427, R428): refused while the ring runs. -/
def execTraceSetTraceRing (cid : Nat) (s : State) : Out :=
  runCmd s cid (isTrace 3) (fun t c =>
    let o := ringOff c.ring
    if t.rgB (.cnt 0) (o + 0x1C) 8 then t.finish cid 0x02 0
    else
      let t := ((t.wg (.cnt 0) (o + 0x10) (c.dw 4)).wgF (.cnt 0) (o + 0x14) 15 0 (c.f 5 15 0)).wgF (.cnt 0) (o + 0x18) 24 0 (c.dw 6).toNat
      let t := (t.wg (.cnt 0) (o + 0x20) 0).wg (.cnt 0) (o + 0x24) 0
      { t with lostRecs := merase t.lostRecs c.ring }.finish cid 0 0)

end Sys2Proof.Machine
end

