-- ==== Sys2Proof/Machine/Sensors.lean ====
section
/-! DEFINITION. A sample of the sensors of a stack: the hub's rate (R361), firmware's estimates of the buried layers and what follows from
them (R365 to R367). Temperatures are in 1/16 °C, powers in 1/16 W. -/

namespace Sys2Proof.Machine

/-- The sensors at the position of a buried one in the layer above it and in the layer below it (R12, R360, R365), from the bottom C0, L0, C1, L1:
a sensor of C1 covers the area of two sensors of L0 and of L1, whose mean is taken (DESIGN CHOICE, log entry 140). -/
def sensorAbove (i : Nat) : List Nat :=
  if i < 64 then [160 + i / 32 * 16 + i / 2 % 16 / 2 * 2 + i % 2]
  else (upTo (sensorRow i) 2).map (fun r => 64 + (i - 160) / 16 * 32 + r * 2 + i % 2)

/-- The sensors of the layer below, as those above. -/
def sensorBelow (i : Nat) : List Nat :=
  if i < 64 then [128 + i / 32 * 16 + i / 2 % 16 / 2 * 2 + i % 2]
  else (upTo (sensorRow i) 2).map (fun r => (i - 160) / 16 * 32 + r * 2 + i % 2)

/-- Twice the mean of the readings of one or two sensors. -/
def twiceMean (readings : List Int) (is : List Nat) : Int :=
  (is.foldl (fun n i => n + nth 0 readings i) 0) * (2 / is.length : Nat)

/-- Firmware's estimate of a buried sensor (R365), from the readings, the measured power p of what the sensor covers, averaged over the sample
period, and its thermal resistance in 1/256 °C per W; rounded down to 1/16 °C (DESIGN CHOICE, log entry 140). -/
def State.estimate (s : State) (t i : Nat) (readings : List Int) (p : Int) : Int :=
  (64 * (twiceMean readings (sensorAbove i) + twiceMean readings (sensorBelow i)) + ((mget 0 s.part.theta (t * 256 + i) : Nat) : Int) * p) / 256

/-- Whether the hub of a stack is due to sample: 1 kHz, or 20 kHz while FAST (R361). Before device time runs a sample may come at any step. -/
def State.sampleDue (s : State) (t : Nat) : Bool :=
  !s.time.running ||
    (match mfind s.therm.sampleAt t with
     | none => true
     | some x => decide (x + (if s.rgB (.thm t) 0x000 0 then 12500 else 250000) ≤ s.time.now))

/-- What follows from a sample out of reset with no trip latched (R361 to R366): estimates, suspect marks, bands, throttle, rate. Throttled time
is counted as the length of one sample period. -/
def State.actOn (s : State) (t : Nat) (raws : List (Nat × Int)) (est : Nat → Int) : State :=
  let vs := raws.map (fun x => (x.1, s.governs t x.1 x.2 (est x.1)))
  let deep := raws.filter (fun x => buried x.1)
  let s := s.modTherm (fun th => { th with
    sampled := insNat th.sampled t, estimates := deep.foldl (fun m x => mput m (t * 256 + x.1) (est x.1)) th.estimates })
  let s := deep.foldl (fun u x => u.suspectOne t x.1 x.2 (est x.1)) s
  let s := (vs.filter (fun x => cacheSensor x.1)).foldl (fun u x => u.bandTrack t x.1 x.2) s
  let s := ((s.throttle t 0 vs).throttle t 1 vs).sampleRate t vs
  if s.rgB (.thm t) 0x000 1 || s.rgB (.thm t) 0x000 2 then s.bump (.thm t) 0x800 (if s.rgB (.thm t) 0x000 0 then 50 else 1000) else s

/-- The buried sensor whose estimate reaches 115 °C, if any (R367). -/
def estimatesTrip (est : Nat → Int) : Option Nat := (upTo 0 208).find? (fun i => buried i && decide (1840 ≤ est i))

/-- SENSOR_SAMPLE (R361 to R367, R369): the readings of the 208 sensors, and the measured power of what each buried one covers. The hub only
samples while the part is held in reset or a trip is latched. An estimate of 115 °C starts the trip. -/
def execSensorSample (stack : Nat) (readings powers : List Int) (s : State) : Out :=
  if s.stacks ≤ stack then .next s
  else if !s.pins.vddAon || !s.sampleDue stack then .next s
  else
    let raws := (upTo 0 208).map (fun i => (i, nth 0 readings i))
    let s := (s.takeSample stack raws).modTherm (fun th => { th with sampleAt := mput th.sampleAt stack s.time.now })
    if !s.pins.resetN || !s.pins.pwrgd || s.pins.thermtrip then .next s
    else
      let est (i : Nat) : Int := s.estimate stack i readings (nth 0 powers i)
      let s := s.actOn stack raws est
      .next (match estimatesTrip est with
        | some i => s.trip stack i
        | none => s)

end Sys2Proof.Machine
end

