-- ==== Sys2Proof/Machine/Approx.lean ====
section
/-! DEFINITION. The approximated FP32 operations (R122). The spec gives a bound on the error and no value: the result is the
free value `Config.approx` wherever it keeps the bound, which fixed-point enclosures [lo, hi] · 2^e of the exact result
decide, and the correctly rounded value where it does not. Where the spec states no result (an infinite operand, 1 / 0,
a logarithm or root of what has none) the free value stands alone. Log entry 5. -/

namespace Sys2Proof.Machine

/-- The exponent of one ulp of a magnitude m · 2^e. -/
def ulpExp (m : Nat) (e : Int) : Int := max (floorLog2 m e - 23) (-149)

/-- Whether FP32 r lies within k units 2^u of the enclosure [lo, hi] · 2^e. -/
def nearTo (r : W32) (lo hi e : Int) (k : Nat) (u : Int) : Bool :=
  match dec32 r with
  | .fin n m er =>
    let c := min (min e er) u
    let v := sgn n m * 2 ^ (er - c).toNat
    let d := (k : Int) * 2 ^ (u - c).toNat
    decide (lo * 2 ^ (e - c).toNat - d ≤ v) && decide (v ≤ hi * 2 ^ (e - c).toNat + d)
  | _ => false

/-- The free result where the spec states none; a NaN among them is the canonical one (R123). -/
def freeResult (op : Nat) (a : W32) : W32 := match dec32 (Config.approx op a) with | .nan => nan32 | _ => Config.approx op a

/-- The free result where it lies within k ulp of the exact one; an exact result beyond the largest finite value gives ±Inf
(R123). -/
def heldUlp (op k : Nat) (a : W32) (lo hi e : Int) : W32 :=
  let d := roundInt32 lo e
  match dec32 d with
  | .inf _ => d
  | _ => if nearTo (Config.approx op a) lo hi e k (ulpExp lo.natAbs e) then Config.approx op a else d

/-- The free result where it lies within 2^−22 of the exact one (FSIN, FCOS). -/
def heldAbs (op : Nat) (a : W32) (lo hi e : Int) : W32 :=
  if nearTo (Config.approx op a) lo hi e 1 (-22) then Config.approx op a else roundInt32 lo e

/-- FRCP (R122). -/
def frcpOp (a : W32) : W32 :=
  match dec32 a with
  | .nan => nan32
  | .inf _ => freeResult 0x52 a
  | .fin n m e =>
    if m = 0 then freeResult 0x52 a
    else
      let q : Nat := 2 ^ 160 / m
      if n then heldUlp 0x52 1 a (-((q : Int) + 1)) (-(q : Int)) (-160 - e) else heldUlp 0x52 1 a q (q + 1) (-160 - e)

/-- FRSQ (R122). -/
def frsqOp (a : W32) : W32 :=
  match dec32 a with
  | .nan => nan32
  | .inf _ => freeResult 0x53 a
  | .fin n m e =>
    if m = 0 ∨ n = true then freeResult 0x53 a
    else
      let odd := e % 2 != 0
      let q : Nat := Nat.sqrt (2 ^ 256 / (if odd then 2 * m else m))
      heldUlp 0x53 1 a q (q + 2) (-128 - (if odd then e - 1 else e) / 2)

/-- Σ y^k / k! of a non-negative fixed-point y with p fraction bits, from term t on. -/
def expSeries (p : Nat) (y : Nat) : Nat → Nat → Nat → Nat
  | 0, _, _ => 0
  | f + 1, k, t => t + expSeries p y f (k + 1) (t * y / 2 ^ p / (k + 1))

/-- ln 2 · 2^100, rounded down. -/
def ln2Fixed : Nat := 878668439483319573618263538048

/-- 2π · 2^120, rounded down. -/
def twoPiFixed : Nat := 8351785813007552717653752915327115494

/-- FEXP2 (R122). -/
def fexp2Op (a : W32) : W32 :=
  match dec32 a with
  | .nan => nan32
  | .inf _ => freeResult 0x54 a
  | .fin n m e =>
    let x := sgn n m
    if 10 ≤ floorLog2 m e ∧ m ≠ 0 then (if n then heldUlp 0x54 2 a 0 1 (-200) else inf32 false)
    else
      let s := if 0 ≤ e + 100 then x * 2 ^ (e + 100).toNat else x / 2 ^ (-(e + 100)).toNat
      let i := s / 2 ^ 100
      let fr := (s % 2 ^ 100).toNat
      let y := fr * ln2Fixed / 2 ^ 100
      let v := expSeries 100 y 40 0 (2 ^ 100)
      heldUlp 0x54 2 a v (v + 1024) (i - 100)

/-- Binary digits of log2 t, for t = v / 2^128 in [1, 2), as a fixed-point number of f bits. -/
def log2Digits : Nat → Nat → Nat → Nat
  | 0, _, acc => acc
  | f + 1, v, acc =>
    let w := v * v / 2 ^ 128
    if 2 ^ 129 ≤ w then log2Digits f (w / 2) (2 * acc + 1) else log2Digits f w (2 * acc)

/-- FLOG2 (R122). -/
def flog2Op (a : W32) : W32 :=
  match dec32 a with
  | .nan => nan32
  | .inf _ => freeResult 0x55 a
  | .fin n m e =>
    if m = 0 ∨ n = true then freeResult 0x55 a
    else
      let b := bitLen m - 1
      let i := (b : Int) + e
      if m = 2 ^ b then heldUlp 0x55 2 a i i 0
      else
        let d := log2Digits 80 (m * 2 ^ (128 - b)) 0
        heldUlp 0x55 2 a (i * 2 ^ 80 + d) (i * 2 ^ 80 + d + 4) (-80)

/-- Σ of the alternating series whose next term multiplies by −y² / ((k + 1)(k + 2)), p fraction bits. -/
def trigSeries (p : Nat) (y : Nat) : Nat → Nat → Int → Int
  | 0, _, _ => 0
  | f + 1, k, t => t + trigSeries p y f (k + 2) (-(t * (y * y / 2 ^ p : Nat)) / 2 ^ p / ((k + 1) * (k + 2) : Nat))

/-- |a| modulo 2π with 120 fraction bits, for |a| ≤ 2^16. -/
def modTwoPi (m : Nat) (e : Int) : Nat :=
  let x := if 0 ≤ e + 120 then m * 2 ^ (e + 120).toNat else m / 2 ^ (-(e + 120)).toNat
  x % twoPiFixed

/-- Whether |m · 2^e| ≤ 2^16. -/
def within16 (m : Nat) (e : Int) : Bool :=
  decide (floorLog2 m e < 16) || decide (m = 0) || (decide (floorLog2 m e = 16) && decide (m = 2 ^ (bitLen m - 1)))

/-- FSIN (R122). -/
def fsinOp (a : W32) : W32 :=
  match dec32 a with
  | .fin n m e =>
    if within16 m e then
      let y := modTwoPi m e
      let v := trigSeries 120 y 45 1 y
      let v := if n then -v else v
      heldAbs 0x56 a (v - 2 ^ 40) (v + 2 ^ 40) (-120)
    else nan32
  | _ => nan32

/-- FCOS (R122). -/
def fcosOp (a : W32) : W32 :=
  match dec32 a with
  | .fin _ m e =>
    if within16 m e then
      let v := trigSeries 120 (modTwoPi m e) 45 0 (2 ^ 120)
      heldAbs 0x57 a (v - 2 ^ 40) (v + 2 ^ 40) (-120)
    else nan32
  | _ => nan32

/-- An enclosure of tanh (m · 2^e), m · 2^e positive: lo, hi, exponent. -/
def tanhBounds (m : Nat) (e : Int) : Int × Int × Int :=
  if floorLog2 m e < -40 then ((m : Int) * (2 ^ 90 - 2 ^ 9), (m : Int) * 2 ^ 90, e - 90)
  else if 4 ≤ floorLog2 m e then (2 ^ 50 - 2 ^ 8, 2 ^ 50, -50)
  else
    let y := if 0 ≤ e + 161 then m * 2 ^ (e + 161).toNat else m / 2 ^ (-(e + 161)).toNat
    let x := 2 ^ 320 / expSeries 160 y 200 0 (2 ^ 160)
    let q : Nat := ((2 ^ 160 - x) * 2 ^ 160) / (2 ^ 160 + x)
    ((q : Int) - 2 ^ 10, (q : Int) + 2 ^ 10, -160)

/-- FTANH (R122). -/
def ftanhOp (a : W32) : W32 :=
  match dec32 a with
  | .nan => nan32
  | .inf _ => freeResult 0x58 a
  | .fin n m e =>
    if m = 0 then heldUlp 0x58 2 a 0 0 0
    else
      let (lo, hi, x) := tanhBounds m e
      if n then heldUlp 0x58 2 a (-hi) (-lo) x else heldUlp 0x58 2 a lo hi x

end Sys2Proof.Machine
end

