-- ==== Sys2Proof/Machine/ThreadFp.lean ====
section
/-! DEFINITION. FP32 arithmetic and conversions (R122, R123). -/

namespace Sys2Proof.Machine

/-- FADD (R122, R123). -/
def execFadd (w : At) (f : RForm) (s : State) : Out :=
  runAlu w s f .dab (fun _ _ x => fadd x.a x.b)

/-- FSUB (R122, R123). -/
def execFsub (w : At) (f : RForm) (s : State) : Out :=
  runAlu w s f .dab (fun _ _ x => fsub x.a x.b)

/-- FMUL (R122, R123). -/
def execFmul (w : At) (f : RForm) (s : State) : Out :=
  runAlu w s f .dab (fun _ _ x => fmul x.a x.b)

/-- FFMA (R122, R123): a × b + c, rounded once. -/
def execFfma (w : At) (f : RForm) (s : State) : Out :=
  runAlu w s f .dabc (fun _ _ x => ffma x.a x.b x.c)

/-- FMIN (R71, R122). -/
def execFmin (w : At) (f : RForm) (s : State) : Out :=
  runAlu w s f .dab (fun _ _ x => fmin x.a x.b)

/-- FMAX (R71, R122). -/
def execFmax (w : At) (f : RForm) (s : State) : Out :=
  runAlu w s f .dab (fun _ _ x => fmax x.a x.b)

/-- FABS (R122): bit 31 cleared, a NaN's payload kept. -/
def execFabs (w : At) (f : RForm) (s : State) : Out :=
  runAlu w s f .da (fun _ _ x => x.a &&& 0x7FFFFFFF#32)

/-- FNEG (R122): bit 31 inverted, a NaN's payload kept. -/
def execFneg (w : At) (f : RForm) (s : State) : Out :=
  runAlu w s f .da (fun _ _ x => x.a ^^^ 0x80000000#32)

/-- FDIV (R122): correctly rounded. -/
def execFdiv (w : At) (f : RForm) (s : State) : Out :=
  runAlu w s f .dab (fun _ _ x => fdiv x.a x.b)

/-- FSQRT (R122): correctly rounded; negative non-zero a gives NaN. -/
def execFsqrt (w : At) (f : RForm) (s : State) : Out :=
  runAlu w s f .da (fun _ _ x => fsqrt x.a)

/-- FRCP (R122): 1 / a within 1 ulp. -/
def execFrcp (w : At) (f : RForm) (s : State) : Out :=
  runAlu w s f .da (fun _ _ x => frcpOp x.a)

/-- FRSQ (R122): 1 / √a within 1 ulp. -/
def execFrsq (w : At) (f : RForm) (s : State) : Out :=
  runAlu w s f .da (fun _ _ x => frsqOp x.a)

/-- FEXP2 (R122): 2^a within 2 ulp. -/
def execFexp2 (w : At) (f : RForm) (s : State) : Out :=
  runAlu w s f .da (fun _ _ x => fexp2Op x.a)

/-- FLOG2 (R122): log2 a within 2 ulp. -/
def execFlog2 (w : At) (f : RForm) (s : State) : Out :=
  runAlu w s f .da (fun _ _ x => flog2Op x.a)

/-- FSIN (R122): sine within 2^−22 for |a| ≤ 2^16; canonical NaN beyond. -/
def execFsin (w : At) (f : RForm) (s : State) : Out :=
  runAlu w s f .da (fun _ _ x => fsinOp x.a)

/-- FCOS (R122): cosine within 2^−22 for |a| ≤ 2^16; canonical NaN beyond. -/
def execFcos (w : At) (f : RForm) (s : State) : Out :=
  runAlu w s f .da (fun _ _ x => fcosOp x.a)

/-- FTANH (R122): tanh a within 2 ulp. -/
def execFtanh (w : At) (f : RForm) (s : State) : Out :=
  runAlu w s f .da (fun _ _ x => ftanhOp x.a)

/-- CVTIF (R122, R123): signed a to FP32, rounding MOD[1:0]. -/
def execCvtif (w : At) (f : RForm) (s : State) : Out :=
  runAlu w s f ⟨.reg, .reg, .no, .no, 4, false, false⟩ (fun _ _ x => cvtif (rndOf f.mod.toNat) x.a)

/-- CVTUF (R122, R123): unsigned a to FP32, rounding MOD[1:0]. -/
def execCvtuf (w : At) (f : RForm) (s : State) : Out :=
  runAlu w s f ⟨.reg, .reg, .no, .no, 4, false, false⟩ (fun _ _ x => cvtuf (rndOf f.mod.toNat) x.a)

/-- CVTFI (R122, R123): FP32 a to signed integer, saturated; NaN gives 0. -/
def execCvtfi (w : At) (f : RForm) (s : State) : Out :=
  runAlu w s f ⟨.reg, .reg, .no, .no, 4, false, false⟩ (fun _ _ x => cvtfi (rndOf f.mod.toNat) x.a)

/-- CVTFU (R122, R123): FP32 a to unsigned integer, saturated; NaN gives 0. -/
def execCvtfu (w : At) (f : RForm) (s : State) : Out :=
  runAlu w s f ⟨.reg, .reg, .no, .no, 4, false, false⟩ (fun _ _ x => cvtfu (rndOf f.mod.toNat) x.a)

/-- CVTFB (R42, R122): d := {BF16(b), BF16(a)}. -/
def execCvtfb (w : At) (f : RForm) (s : State) : Out :=
  runAlu w s f .dab (fun _ _ x => BitVec.ofNat 32 (toBf16 (dec32 x.b) * 65536 + toBf16 (dec32 x.a)))

/-- CVTBF (R122): FP32 of the BF16 half MOD[0] of a, exact. -/
def execCvtbf (w : At) (f : RForm) (s : State) : Out :=
  runAlu w s f ⟨.reg, .reg, .no, .no, 2, false, false⟩ (fun _ _ x => encFV (decIEEE bf16 (x.a.toNat / 2 ^ (16 * f.mod.toNat))))

/-- CVTFH (R122): d := {FP16(b), FP16(a)}. -/
def execCvtfh (w : At) (f : RForm) (s : State) : Out :=
  runAlu w s f .dab (fun _ _ x => BitVec.ofNat 32 (toFp16 (dec32 x.b) * 65536 + toFp16 (dec32 x.a)))

/-- CVTHF (R122): FP32 of the FP16 half MOD[0] of a, exact. -/
def execCvthf (w : At) (f : RForm) (s : State) : Out :=
  runAlu w s f ⟨.reg, .reg, .no, .no, 2, false, false⟩ (fun _ _ x => encFV (decIEEE fp16 (x.a.toNat / 2 ^ (16 * f.mod.toNat))))

/-- CVT8F (R122): FP32 of byte MOD[1:0] of a, format MOD[2], exact. -/
def execCvt8f (w : At) (f : RForm) (s : State) : Out :=
  runAlu w s f ⟨.reg, .reg, .no, .no, 8, false, false⟩ (fun _ _ x => encFV (ofFp8 (f.mod.getLsbD 2) (x.a.toNat / 2 ^ (8 * (f.mod.toNat % 4)) % 256)))

/-- CVTF8 (R74, R122): byte MOD[1:0] of d := FP8 of a, E4M3 or E5M2 by MOD[2]; the other bytes of d and its poison stay
part of the result (R139). -/
def execCvtf8 (w : At) (f : RForm) (s : State) : Out :=
  let u : RUse := ⟨.reg, .reg, .no, .no, 8, false, false⟩
  runThread w s (u.need f true) (fun c lanes =>
    let rd := regNo f.ud f.d.toNat
    let i := 8 * (f.mod.toNat % 4)
    s.put c ((c.grp.write rd (lanes.map (fun l =>
      let x := u.read f c.grp l
      (l, setF (i + 7) i (toFp8 (f.mod.getLsbD 2) (dec32 x.a)).1 (c.grp.reg l rd), x.p || c.grp.rpois l rd)))).advance
        c.path c.low c.pc))

end Sys2Proof.Machine
end

