-- ==== Sys2Proof/Machine/ThreadInt.lean ====
section
/-! DEFINITION. Integer, logic, predicate and move instructions (R121, R122). -/

namespace Sys2Proof.Machine

/-- High half of the signed product. -/
def mulHiS (a b : W32) : W32 := BitVec.ofInt 32 (a.toInt * b.toInt / 2 ^ 32)
/-- High half of the unsigned product. -/
def mulHiU (a b : W32) : W32 := BitVec.ofNat 32 (a.toNat * b.toNat / 2 ^ 32)
/-- Signed quotient toward zero (R122). -/
def divS (a b : W32) : W32 := if b = 0 then 0xFFFFFFFF#32 else BitVec.ofInt 32 (a.toInt.tdiv b.toInt)
/-- Unsigned quotient (R122). -/
def divU (a b : W32) : W32 := if b = 0 then 0xFFFFFFFF#32 else BitVec.ofNat 32 (a.toNat / b.toNat)
/-- Remainder with the sign of a (R122). -/
def remS (a b : W32) : W32 := if b = 0 then a else BitVec.ofInt 32 (a.toInt.tmod b.toInt)
/-- Unsigned remainder (R122). -/
def remU (a b : W32) : W32 := if b = 0 then a else BitVec.ofNat 32 (a.toNat % b.toNat)
/-- The shift amount b[7:0] (R122). -/
def shAmt (b : W32) : Nat := getF 7 0 b
/-- SHL (R122). -/
def shlW (a b : W32) : W32 := a <<< shAmt b
/-- SHR (R122). -/
def shrW (a b : W32) : W32 := a >>> shAmt b
/-- SAR (R122). -/
def sarW (a b : W32) : W32 := a.sshiftRight (shAmt b)
/-- Count of ones (R122). -/
def popcount (a : W32) : W32 := BitVec.ofNat 32 ((upTo 0 32).countP (fun i => a.getLsbD i))
/-- Leading zeros, 32 for 0 (R122). -/
def leadZeros (a : W32) : W32 := BitVec.ofNat 32 (32 - bitLen a.toNat)

/-- IADD (R122): a + b mod 2^32. -/
def execIadd (w : At) (f : RForm) (s : State) : Out :=
  runAlu w s f .dab (fun _ _ x => x.a + x.b)

/-- ISUB (R122): a − b mod 2^32. -/
def execIsub (w : At) (f : RForm) (s : State) : Out :=
  runAlu w s f .dab (fun _ _ x => x.a - x.b)

/-- IMUL (R122): low 32 bits of a × b. -/
def execImul (w : At) (f : RForm) (s : State) : Out :=
  runAlu w s f .dab (fun _ _ x => x.a * x.b)

/-- IMULH (R122): high 32 bits of the signed product. -/
def execImulh (w : At) (f : RForm) (s : State) : Out :=
  runAlu w s f .dab (fun _ _ x => mulHiS x.a x.b)

/-- IMULHU (R122): high 32 bits of the unsigned product. -/
def execImulhu (w : At) (f : RForm) (s : State) : Out :=
  runAlu w s f .dab (fun _ _ x => mulHiU x.a x.b)

/-- IMAD (R122): a × b + c mod 2^32. -/
def execImad (w : At) (f : RForm) (s : State) : Out :=
  runAlu w s f .dabc (fun _ _ x => x.a * x.b + x.c)

/-- IMIN (R122): signed minimum. -/
def execImin (w : At) (f : RForm) (s : State) : Out :=
  runAlu w s f .dab (fun _ _ x => if x.a.slt x.b then x.a else x.b)

/-- IMAX (R122): signed maximum. -/
def execImax (w : At) (f : RForm) (s : State) : Out :=
  runAlu w s f .dab (fun _ _ x => if x.a.slt x.b then x.b else x.a)

/-- IMINU (R122): unsigned minimum. -/
def execIminu (w : At) (f : RForm) (s : State) : Out :=
  runAlu w s f .dab (fun _ _ x => if x.a.ult x.b then x.a else x.b)

/-- IMAXU (R122): unsigned maximum. -/
def execImaxu (w : At) (f : RForm) (s : State) : Out :=
  runAlu w s f .dab (fun _ _ x => if x.a.ult x.b then x.b else x.a)

/-- IABS (R122): |a| mod 2^32; −2^31 gives −2^31. -/
def execIabs (w : At) (f : RForm) (s : State) : Out :=
  runAlu w s f .da (fun _ _ x => if x.a.getLsbD 31 then -x.a else x.a)

/-- IDIV (R122): signed quotient toward zero; b = 0 gives all ones; −2^31 ÷ −1 gives −2^31. -/
def execIdiv (w : At) (f : RForm) (s : State) : Out :=
  runAlu w s f .dab (fun _ _ x => divS x.a x.b)

/-- IDIVU (R122): unsigned quotient; b = 0 gives all ones. -/
def execIdivu (w : At) (f : RForm) (s : State) : Out :=
  runAlu w s f .dab (fun _ _ x => divU x.a x.b)

/-- IREM (R122): remainder with the sign of a; b = 0 gives a. -/
def execIrem (w : At) (f : RForm) (s : State) : Out :=
  runAlu w s f .dab (fun _ _ x => remS x.a x.b)

/-- IREMU (R122): unsigned remainder; b = 0 gives a. -/
def execIremu (w : At) (f : RForm) (s : State) : Out :=
  runAlu w s f .dab (fun _ _ x => remU x.a x.b)

/-- AND (R122). -/
def execAnd (w : At) (f : RForm) (s : State) : Out :=
  runAlu w s f .dab (fun _ _ x => x.a &&& x.b)

/-- OR (R122). -/
def execOr (w : At) (f : RForm) (s : State) : Out :=
  runAlu w s f .dab (fun _ _ x => x.a ||| x.b)

/-- XOR (R122). -/
def execXor (w : At) (f : RForm) (s : State) : Out :=
  runAlu w s f .dab (fun _ _ x => x.a ^^^ x.b)

/-- SHL (R122): by b[7:0]; 0 when it is 32 or more. -/
def execShl (w : At) (f : RForm) (s : State) : Out :=
  runAlu w s f .dab (fun _ _ x => shlW x.a x.b)

/-- SHR (R122): logical, by b[7:0]; 0 when it is 32 or more. -/
def execShr (w : At) (f : RForm) (s : State) : Out :=
  runAlu w s f .dab (fun _ _ x => shrW x.a x.b)

/-- SAR (R122): arithmetic, by b[7:0]; sign fill when it is 32 or more. -/
def execSar (w : At) (f : RForm) (s : State) : Out :=
  runAlu w s f .dab (fun _ _ x => sarW x.a x.b)

/-- POPC (R122): count of ones of a. -/
def execPopc (w : At) (f : RForm) (s : State) : Out :=
  runAlu w s f .da (fun _ _ x => popcount x.a)

/-- CLZ (R122): leading zeros of a, 32 for 0. -/
def execClz (w : At) (f : RForm) (s : State) : Out :=
  runAlu w s f .da (fun _ _ x => leadZeros x.a)

/-- BREV (R122): bit reversal of a. -/
def execBrev (w : At) (f : RForm) (s : State) : Out :=
  runAlu w s f .da (fun _ _ x => x.a.reverse)

/-- ISETP (R121, R122): p[PD] := a COND b, signed. -/
def execIsetp (w : At) (f : RForm) (s : State) : Out := runSetp w s f 6 condS

/-- ISETPU (R121, R122): p[PD] := a COND b, unsigned. -/
def execIsetpu (w : At) (f : RForm) (s : State) : Out := runSetp w s f 6 condU

/-- FSETP (R121, R122): p[PD] := a COND b as FP32. -/
def execFsetp (w : At) (f : RForm) (s : State) : Out := runSetp w s f 8 condF

/-- SEL (R122): d := p[C[2:0]] ? a : b; the poison bit is the OR of both sources' (R139). -/
def execSel (w : At) (f : RForm) (s : State) : Out :=
  runAlu w s f ⟨.reg, .reg, .reg, .pred, 1, false, false⟩ (fun c l x => if c.grp.pred l f.c.toNat then x.a else x.b)

/-- MOV (R122): d := a, bit for bit. -/
def execMov (w : At) (f : RForm) (s : State) : Out := runAlu w s f .da (fun _ _ x => x.a)

/-- The operation of PLOP that MOD selects (R122). -/
def plopOp (m : Nat) (a b : Bool) : Bool :=
  match m with
  | 0 => a && b
  | 1 => a || b
  | 2 => a != b
  | _ => a && !b

/-- PLOP (R122): p[D] := p[A] op p[B]. -/
def execPlop (w : At) (f : RForm) (s : State) : Out :=
  let u : RUse := ⟨.pred, .pred, .pred, .no, 4, false, false⟩
  runThread w s (u.need f true) (fun c lanes =>
    s.put c (setpGroup f.d.toNat (fun l =>
      plopOp f.mod.toNat (c.grp.pred l f.a.toNat) (c.grp.pred l f.b.toNat)) c lanes))

/-- P2R (R122): d := p7 to p0 in bits [7:0], p7 as true. -/
def execP2r (w : At) (f : RForm) (s : State) : Out :=
  runAlu w s f ⟨.reg, .no, .no, .no, 1, false, false⟩ (fun c l _ =>
    ((1 : BitVec 1) ++ (c.grp.th l).preds).setWidth 32)

/-- R2P (R122): p0 to p6 := a[6:0]; a poisoned a is consumed (R139). -/
def execRegToPred (w : At) (f : RForm) (s : State) : Out :=
  let u : RUse := ⟨.no, .reg, .no, .no, 1, true, false⟩
  runThread w s (u.need f true) (fun c lanes =>
    s.put c ((lanes.foldl (fun g l =>
      g.modTh l (fun t => { t with preds := (u.read f c.grp l).a.setWidth 7 })) c.grp).advance c.path c.low c.pc))

/-- The source lane of SHFL, if it lies in 0 to 31 (R129): lane − b and lane + b without wrapping, b unsigned. -/
def shflSrc (m lane : Nat) (b : W32) : Option Nat :=
  match m with
  | 0 => some (b.toNat % 32)
  | 1 => if b.toNat ≤ lane then some (lane - b.toNat) else none
  | 2 => if lane + b.toNat < 32 then some (lane + b.toNat) else none
  | _ => some ((BitVec.ofNat 5 lane ^^^ b.setWidth 5).toNat)

/-- SHFL (R129): A of the source lane as it stood before, with its poison; the lane's own A where the source lane lies
outside 0 to 31. A poisoned b is consumed (R139). -/
def execShfl (w : At) (f : RForm) (s : State) : Out :=
  let u : RUse := ⟨.reg, .reg, .reg, .no, 4, false, true⟩
  runThread w s (u.need f true) (fun c lanes =>
    let ra := regNo f.ua f.a.toNat
    s.put c ((c.grp.write (regNo f.ud f.d.toNat) (lanes.map (fun l =>
      let src := (shflSrc f.mod.toNat l (u.read f c.grp l).b).getD l
      (l, c.grp.reg src ra, c.grp.rpois src ra)))).advance c.path c.low c.pc))

/-- VOTE (R122): the mask of the threads whose guard passes and p[C] is true. -/
def execVote (w : At) (f : RForm) (s : State) : Out :=
  let u : RUse := ⟨.reg, .no, .no, .pred, 1, false, false⟩
  runThread w s (u.need f true) (fun c lanes =>
    let m := lanes.foldl (fun v l => if c.grp.pred l f.c.toNat then v ||| ((1 : W32) <<< l) else v) (0 : W32)
    s.put c ((c.grp.write (regNo f.ud f.d.toNat) (lanes.map (fun l => (l, m, false)))).advance c.path c.low c.pc))

/-- MOVI (R122): d := IMM. -/
def execMovi (w : At) (f : IForm) (s : State) : Out := runImm w s f false (fun _ b => b)

/-- IADDI (R122). -/
def execIaddi (w : At) (f : IForm) (s : State) : Out := runImm w s f true (fun a b => a + b)

/-- IMULI (R122). -/
def execImuli (w : At) (f : IForm) (s : State) : Out := runImm w s f true (fun a b => a * b)

/-- ANDI (R122). -/
def execAndi (w : At) (f : IForm) (s : State) : Out := runImm w s f true (fun a b => a &&& b)

/-- ORI (R122). -/
def execOri (w : At) (f : IForm) (s : State) : Out := runImm w s f true (fun a b => a ||| b)

/-- XORI (R122). -/
def execXori (w : At) (f : IForm) (s : State) : Out := runImm w s f true (fun a b => a ^^^ b)

/-- SHLI (R122). -/
def execShli (w : At) (f : IForm) (s : State) : Out := runImm w s f true (fun a b => shlW a b)

/-- SHRI (R122). -/
def execShri (w : At) (f : IForm) (s : State) : Out := runImm w s f true (fun a b => shrW a b)

/-- SARI (R122). -/
def execSari (w : At) (f : IForm) (s : State) : Out := runImm w s f true (fun a b => sarW a b)

/-- FADDI (R122): b is IMM as FP32. -/
def execFaddi (w : At) (f : IForm) (s : State) : Out := runImm w s f true (fun a b => fadd a b)

/-- FMULI (R122): b is IMM as FP32. -/
def execFmuli (w : At) (f : IForm) (s : State) : Out := runImm w s f true (fun a b => fmul a b)

/-- ISETPI (R122): as ISETP with b := IMM. -/
def execIsetpi (w : At) (f : IForm) (s : State) : Out := runSetpI w s f 6 condS

/-- ISETPUI (R122): as ISETPU with b := IMM. -/
def execIsetpui (w : At) (f : IForm) (s : State) : Out := runSetpI w s f 6 condU

/-- FSETPI (R122): as FSETP with b := IMM as FP32. -/
def execFsetpi (w : At) (f : IForm) (s : State) : Out := runSetpI w s f 8 condF

end Sys2Proof.Machine
end

