-- ==== Sys2Proof/Machine/Dispatch.lean ====
section
/-! DEFINITION. One arm per command: the call of its meaning. -/

namespace Sys2Proof.Machine

/-- The effect of a command on everything but the queue. -/
def exec (i : Instr) (s : State) : Host.Outcome State Fault Refusal :=
  match i with
  | .nop w f => Sys2Proof.Machine.execNop w f s
  | .bra w f => Sys2Proof.Machine.execBra w f s
  | .brx w f => Sys2Proof.Machine.execBrx w f s
  | .merge w f => Sys2Proof.Machine.execMerge w f s
  | .exit w f => Sys2Proof.Machine.execExit w f s
  | .spin w f => Sys2Proof.Machine.execSpin w f s
  | .trap w f => Sys2Proof.Machine.execTrap w f s
  | .s2r w f => Sys2Proof.Machine.execS2r w f s
  | .iadd w f => Sys2Proof.Machine.execIadd w f s
  | .isub w f => Sys2Proof.Machine.execIsub w f s
  | .imul w f => Sys2Proof.Machine.execImul w f s
  | .imulh w f => Sys2Proof.Machine.execImulh w f s
  | .imulhu w f => Sys2Proof.Machine.execImulhu w f s
  | .imad w f => Sys2Proof.Machine.execImad w f s
  | .imin w f => Sys2Proof.Machine.execImin w f s
  | .imax w f => Sys2Proof.Machine.execImax w f s
  | .iminu w f => Sys2Proof.Machine.execIminu w f s
  | .imaxu w f => Sys2Proof.Machine.execImaxu w f s
  | .iabs w f => Sys2Proof.Machine.execIabs w f s
  | .idiv w f => Sys2Proof.Machine.execIdiv w f s
  | .idivu w f => Sys2Proof.Machine.execIdivu w f s
  | .irem w f => Sys2Proof.Machine.execIrem w f s
  | .iremu w f => Sys2Proof.Machine.execIremu w f s
  | .and w f => Sys2Proof.Machine.execAnd w f s
  | .or w f => Sys2Proof.Machine.execOr w f s
  | .xor w f => Sys2Proof.Machine.execXor w f s
  | .shl w f => Sys2Proof.Machine.execShl w f s
  | .shr w f => Sys2Proof.Machine.execShr w f s
  | .sar w f => Sys2Proof.Machine.execSar w f s
  | .popc w f => Sys2Proof.Machine.execPopc w f s
  | .clz w f => Sys2Proof.Machine.execClz w f s
  | .brev w f => Sys2Proof.Machine.execBrev w f s
  | .isetp w f => Sys2Proof.Machine.execIsetp w f s
  | .isetpu w f => Sys2Proof.Machine.execIsetpu w f s
  | .fsetp w f => Sys2Proof.Machine.execFsetp w f s
  | .sel w f => Sys2Proof.Machine.execSel w f s
  | .mov w f => Sys2Proof.Machine.execMov w f s
  | .plop w f => Sys2Proof.Machine.execPlop w f s
  | .p2r w f => Sys2Proof.Machine.execP2r w f s
  | .regToPred w f => Sys2Proof.Machine.execRegToPred w f s
  | .fadd w f => Sys2Proof.Machine.execFadd w f s
  | .fsub w f => Sys2Proof.Machine.execFsub w f s
  | .fmul w f => Sys2Proof.Machine.execFmul w f s
  | .ffma w f => Sys2Proof.Machine.execFfma w f s
  | .fmin w f => Sys2Proof.Machine.execFmin w f s
  | .fmax w f => Sys2Proof.Machine.execFmax w f s
  | .fabs w f => Sys2Proof.Machine.execFabs w f s
  | .fneg w f => Sys2Proof.Machine.execFneg w f s
  | .fdiv w f => Sys2Proof.Machine.execFdiv w f s
  | .fsqrt w f => Sys2Proof.Machine.execFsqrt w f s
  | .frcp w f => Sys2Proof.Machine.execFrcp w f s
  | .frsq w f => Sys2Proof.Machine.execFrsq w f s
  | .fexp2 w f => Sys2Proof.Machine.execFexp2 w f s
  | .flog2 w f => Sys2Proof.Machine.execFlog2 w f s
  | .fsin w f => Sys2Proof.Machine.execFsin w f s
  | .fcos w f => Sys2Proof.Machine.execFcos w f s
  | .ftanh w f => Sys2Proof.Machine.execFtanh w f s
  | .cvtif w f => Sys2Proof.Machine.execCvtif w f s
  | .cvtuf w f => Sys2Proof.Machine.execCvtuf w f s
  | .cvtfi w f => Sys2Proof.Machine.execCvtfi w f s
  | .cvtfu w f => Sys2Proof.Machine.execCvtfu w f s
  | .cvtfb w f => Sys2Proof.Machine.execCvtfb w f s
  | .cvtbf w f => Sys2Proof.Machine.execCvtbf w f s
  | .cvtfh w f => Sys2Proof.Machine.execCvtfh w f s
  | .cvthf w f => Sys2Proof.Machine.execCvthf w f s
  | .cvtf8 w f => Sys2Proof.Machine.execCvtf8 w f s
  | .cvt8f w f => Sys2Proof.Machine.execCvt8f w f s
  | .shfl w f => Sys2Proof.Machine.execShfl w f s
  | .vote w f => Sys2Proof.Machine.execVote w f s
  | .ld w f => Sys2Proof.Machine.execLd w f s
  | .st w f => Sys2Proof.Machine.execSt w f s
  | .ldnc w f => Sys2Proof.Machine.execLdnc w f s
  | .aadd w f => Sys2Proof.Machine.execAadd w f s
  | .amin w f => Sys2Proof.Machine.execAmin w f s
  | .amax w f => Sys2Proof.Machine.execAmax w f s
  | .aminu w f => Sys2Proof.Machine.execAminu w f s
  | .amaxu w f => Sys2Proof.Machine.execAmaxu w f s
  | .aand w f => Sys2Proof.Machine.execAand w f s
  | .aor w f => Sys2Proof.Machine.execAor w f s
  | .axor w f => Sys2Proof.Machine.execAxor w f s
  | .axchg w f => Sys2Proof.Machine.execAxchg w f s
  | .acas w f => Sys2Proof.Machine.execAcas w f s
  | .afadd w f => Sys2Proof.Machine.execAfadd w f s
  | .raddI32 w f => Sys2Proof.Machine.execRaddI32 w f s
  | .raddF32 w f => Sys2Proof.Machine.execRaddF32 w f s
  | .raddBf16 w f => Sys2Proof.Machine.execRaddBf16 w f s
  | .rmaxI32 w f => Sys2Proof.Machine.execRmaxI32 w f s
  | .rminI32 w f => Sys2Proof.Machine.execRminI32 w f s
  | .rmaxF32 w f => Sys2Proof.Machine.execRmaxF32 w f s
  | .rminF32 w f => Sys2Proof.Machine.execRminF32 w f s
  | .rmaxBf16 w f => Sys2Proof.Machine.execRmaxBf16 w f s
  | .rminBf16 w f => Sys2Proof.Machine.execRminBf16 w f s
  | .barg w f => Sys2Proof.Machine.execBarg w f s
  | .barb w f => Sys2Proof.Machine.execBarb w f s
  | .fence w f => Sys2Proof.Machine.execFence w f s
  | .tile w f => Sys2Proof.Machine.execTile w f s
  | .twait w f => Sys2Proof.Machine.execTwait w f s
  | .espld w f => Sys2Proof.Machine.execEspld w f s
  | .dma w f => Sys2Proof.Machine.execDma w f s
  | .dwait w f => Sys2Proof.Machine.execDwait w f s
  | .movi w f => Sys2Proof.Machine.execMovi w f s
  | .iaddi w f => Sys2Proof.Machine.execIaddi w f s
  | .imuli w f => Sys2Proof.Machine.execImuli w f s
  | .andi w f => Sys2Proof.Machine.execAndi w f s
  | .ori w f => Sys2Proof.Machine.execOri w f s
  | .xori w f => Sys2Proof.Machine.execXori w f s
  | .shli w f => Sys2Proof.Machine.execShli w f s
  | .shri w f => Sys2Proof.Machine.execShri w f s
  | .sari w f => Sys2Proof.Machine.execSari w f s
  | .isetpi w f => Sys2Proof.Machine.execIsetpi w f s
  | .isetpui w f => Sys2Proof.Machine.execIsetpui w f s
  | .faddi w f => Sys2Proof.Machine.execFaddi w f s
  | .fmuli w f => Sys2Proof.Machine.execFmuli w f s
  | .fsetpi w f => Sys2Proof.Machine.execFsetpi w f s
  | .stageWeights site => Sys2Proof.Machine.execStageWeights site s
  | .passStart site parityFail => Sys2Proof.Machine.execPassStart site parityFail s
  | .passEnd site => Sys2Proof.Machine.execPassEnd site s
  | .drainPartials site residueFail => Sys2Proof.Machine.execDrainPartials site residueFail s
  | .priorValueRead site => Sys2Proof.Machine.execPriorValueRead site s
  | .writeOut site parityFail => Sys2Proof.Machine.execWriteOut site parityFail s
  | .writeOutDone site => Sys2Proof.Machine.execWriteOutDone site s
  | .interlockEnd site => Sys2Proof.Machine.execInterlockEnd site s
  | .fillerRampDown site => Sys2Proof.Machine.execFillerRampDown site s
  | .fillerRampUp site => Sys2Proof.Machine.execFillerRampUp site s
  | .espLoadStart port site word => Sys2Proof.Machine.execEspLoadStart port site word s
  | .espImageLoadDone site => Sys2Proof.Machine.execEspImageLoadDone site s
  | .dmaComplete site job => Sys2Proof.Machine.execDmaComplete site job s
  | .blockPlace cid => Sys2Proof.Machine.execBlockPlace cid s
  | .stallDetectorFire site block => Sys2Proof.Machine.execStallDetectorFire site block s
  | .sliceRead rid errs => Sys2Proof.Machine.execSliceRead rid errs s
  | .sliceWrite rid errs => Sys2Proof.Machine.execSliceWrite rid errs s
  | .sliceAtomic rid errs => Sys2Proof.Machine.execSliceAtomic rid errs s
  | .sliceReduction rid errs => Sys2Proof.Machine.execSliceReduction rid errs s
  | .orderedReductionApply cid half => Sys2Proof.Machine.execOrderedReductionApply cid half s
  | .sectorFill half line errs => Sys2Proof.Machine.execSectorFill half line errs s
  | .writeBackIssue half line errs => Sys2Proof.Machine.execWriteBackIssue half line errs s
  | .writeBackPerformed half line => Sys2Proof.Machine.execWriteBackPerformed half line s
  | .mifAccess dev line write err => Sys2Proof.Machine.execMifAccess dev line write err s
  | .refresh dev bank => Sys2Proof.Machine.execRefresh dev bank s
  | .mifTempRead dev temps => Sys2Proof.Machine.execMifTempRead dev temps s
  | .wck2dqRead dev drift => Sys2Proof.Machine.execWck2dqRead dev drift s
  | .mifRetrainDone dev => Sys2Proof.Machine.execMifRetrainDone dev s
  | .selfRefreshEntry half => Sys2Proof.Machine.execSelfRefreshEntry half s
  | .cacheWake half => Sys2Proof.Machine.execCacheWake half s
  | .cacheWakeDone half => Sys2Proof.Machine.execCacheWakeDone half s
  | .retentionReturn half => Sys2Proof.Machine.execRetentionReturn half s
  | .cacheRemap half slice word => Sys2Proof.Machine.execCacheRemap half slice word s
  | .memoryRemap dev line => Sys2Proof.Machine.execMemoryRemap dev line s
  | .bitmapZeroFill dev region => Sys2Proof.Machine.execBitmapZeroFill dev region s
  | .scrubAccess target => Sys2Proof.Machine.execScrubAccess target s
  | .portResend half slice lane word write result => Sys2Proof.Machine.execPortResend half slice lane word write result s
  | .portTest half slice => Sys2Proof.Machine.execPortTest half slice s
  | .portTestDone half slice failed => Sys2Proof.Machine.execPortTestDone half slice failed s
  | .sliceRetire half slice errs => Sys2Proof.Machine.execSliceRetire half slice errs s
  | .rehomeDone half slice => Sys2Proof.Machine.execRehomeDone half slice s
  | .thrashWindowEnd half => Sys2Proof.Machine.execThrashWindowEnd half s
  | .transposePiece cid half engine fault => Sys2Proof.Machine.execTransposePiece cid half engine fault s
  | .routerPacket pid checkFail => Sys2Proof.Machine.execRouterPacket pid checkFail s
  | .responseArrival rid => Sys2Proof.Machine.execResponseArrival rid s
  | .requestRetry rid => Sys2Proof.Machine.execRequestRetry rid s
  | .requestGiveUp rid => Sys2Proof.Machine.execRequestGiveUp rid s
  | .recordRelease which => Sys2Proof.Machine.execRecordRelease which s
  | .budgetWindowBoundary => Sys2Proof.Machine.execBudgetWindowBoundary s
  | .crossingModeSwitch stack half => Sys2Proof.Machine.execCrossingModeSwitch stack half s
  | .ringMessage msg => Sys2Proof.Machine.execRingMessage msg s
  | .ringLinkFail stack layer => Sys2Proof.Machine.execRingLinkFail stack layer s
  | .launchMessage cid site => Sys2Proof.Machine.execLaunchMessage cid site s
  | .endBoundaryOrder cid site => Sys2Proof.Machine.execEndBoundaryOrder cid site s
  | .coreAcknowledge cid site => Sys2Proof.Machine.execCoreAcknowledge cid site s
  | .commandEndBoundary cid => Sys2Proof.Machine.execCommandEndBoundary cid s
  | .statusReply cid writeFails => Sys2Proof.Machine.execStatusReply cid writeFails s
  | .msiXInterrupt port => Sys2Proof.Machine.execMsiXInterrupt port s
  | .sqTailDoorbell port queue value => Sys2Proof.Machine.execSqTailDoorbell port queue value s
  | .cqHeadDoorbell port queue value => Sys2Proof.Machine.execCqHeadDoorbell port queue value s
  | .commandFetch port queue readFails => Sys2Proof.Machine.execCommandFetch port queue readFails s
  | .queueEnable port queue word => Sys2Proof.Machine.execQueueEnable port queue word s
  | .nopCommand cid => Sys2Proof.Machine.execNopCommand cid s
  | .launch cid => Sys2Proof.Machine.execLaunch cid s
  | .copy cid => Sys2Proof.Machine.execCopy cid s
  | .fill cid => Sys2Proof.Machine.execFill cid s
  | .transpose cid => Sys2Proof.Machine.execTranspose cid s
  | .reduce cid => Sys2Proof.Machine.execReduce cid s
  | .signal cid => Sys2Proof.Machine.execSignal cid s
  | .wait cid => Sys2Proof.Machine.execWait cid s
  | .fenceCommand cid => Sys2Proof.Machine.execFenceCommand cid s
  | .pin cid => Sys2Proof.Machine.execPin cid s
  | .unpin cid => Sys2Proof.Machine.execUnpin cid s
  | .localize cid => Sys2Proof.Machine.execLocalize cid s
  | .ctxCreate cid => Sys2Proof.Machine.execCtxCreate cid s
  | .ctxAppend cid => Sys2Proof.Machine.execCtxAppend cid s
  | .ctxTruncate cid => Sys2Proof.Machine.execCtxTruncate cid s
  | .ctxFree cid => Sys2Proof.Machine.execCtxFree cid s
  | .ctxQuery cid => Sys2Proof.Machine.execCtxQuery cid s
  | .trimSet cid => Sys2Proof.Machine.execTrimSet cid s
  | .park cid => Sys2Proof.Machine.execPark cid s
  | .unpark cid => Sys2Proof.Machine.execUnpark cid s
  | .counterSnap cid => Sys2Proof.Machine.execCounterSnap cid s
  | .traceStop cid => Sys2Proof.Machine.execTraceStop cid s
  | .traceStart cid => Sys2Proof.Machine.execTraceStart cid s
  | .traceSetRecordRing cid => Sys2Proof.Machine.execTraceSetRecordRing cid s
  | .traceSetTraceRing cid => Sys2Proof.Machine.execTraceSetTraceRing cid s
  | .selftestVport cid failed => Sys2Proof.Machine.execSelftestVport cid failed s
  | .selftestCore cid failed => Sys2Proof.Machine.execSelftestCore cid failed s
  | .selftestMemory cid failed => Sys2Proof.Machine.execSelftestMemory cid failed s
  | .partCreate cid => Sys2Proof.Machine.execPartCreate cid s
  | .partDestroy cid => Sys2Proof.Machine.execPartDestroy cid s
  | .partReset cid => Sys2Proof.Machine.execPartReset cid s
  | .fwLoad cid flashOk => Sys2Proof.Machine.execFwLoad cid flashOk s
  | .quicksetStore cid flashOk => Sys2Proof.Machine.execQuicksetStore cid flashOk s
  | .healthQuery cid => Sys2Proof.Machine.execHealthQuery cid s
  | .thermalRead => Sys2Proof.Machine.execThermalRead s
  | .powerRead => Sys2Proof.Machine.execPowerRead s
  | .smbusBlockWrite data pecOk => Sys2Proof.Machine.execSmbusBlockWrite data pecOk s
  | .smbusBlockRead pecOk => Sys2Proof.Machine.execSmbusBlockRead pecOk s
  | .commandTimeout cid => Sys2Proof.Machine.execCommandTimeout cid s
  | .hostWindowRead port off len => Sys2Proof.Machine.execHostWindowRead port off len s
  | .hostWindowWrite port off data => Sys2Proof.Machine.execHostWindowWrite port off data s
  | .atomicopRequest port => Sys2Proof.Machine.execAtomicopRequest port s
  | .functionLevelReset port => Sys2Proof.Machine.execFunctionLevelReset port s
  | .perstN port level => Sys2Proof.Machine.execPerstN port level s
  | .d3hotEntry port => Sys2Proof.Machine.execD3hotEntry port s
  | .d0Return port => Sys2Proof.Machine.execD0Return port s
  | .hostLinkTraining port rate width bar2 => Sys2Proof.Machine.execHostLinkTraining port rate width bar2 s
  | .fabricPortTraining port => Sys2Proof.Machine.execFabricPortTraining port s
  | .retrain hostPort port => Sys2Proof.Machine.execRetrain hostPort port s
  | .acceptHeld hostPort port => Sys2Proof.Machine.execAcceptHeld hostPort port s
  | .linkFrameError port nak badLanes => Sys2Proof.Machine.execLinkFrameError port nak badLanes s
  | .retxTimer port => Sys2Proof.Machine.execRetxTimer port s
  | .linkGiveUp port badLanes => Sys2Proof.Machine.execLinkGiveUp port badLanes s
  | .fabricReadRequest port pkt => Sys2Proof.Machine.execFabricReadRequest port pkt s
  | .fabricReadResponse port pkt => Sys2Proof.Machine.execFabricReadResponse port pkt s
  | .fabricWrite port pkt => Sys2Proof.Machine.execFabricWrite port pkt s
  | .fabricAtomic port pkt => Sys2Proof.Machine.execFabricAtomic port pkt s
  | .fabricReduction port pkt => Sys2Proof.Machine.execFabricReduction port pkt s
  | .fabricAcknowledgement port pkt => Sys2Proof.Machine.execFabricAcknowledgement port pkt s
  | .fabricRefusal port pkt => Sys2Proof.Machine.execFabricRefusal port pkt s
  | .timeMark port pkt => Sys2Proof.Machine.execTimeMark port pkt s
  | .markSend => Sys2Proof.Machine.execMarkSend s
  | .remoteAccessTimeout rid => Sys2Proof.Machine.execRemoteAccessTimeout rid s
  | .remoteResend rid => Sys2Proof.Machine.execRemoteResend rid s
  | .governorMeasure stack power16 => Sys2Proof.Machine.execGovernorMeasure stack power16 s
  | .stepChange stack region => Sys2Proof.Machine.execStepChange stack region s
  | .droopCrossing stack region below => Sys2Proof.Machine.execDroopCrossing stack region below s
  | .switchOnStep stack region halfCurrent peaks => Sys2Proof.Machine.execSwitchOnStep stack region halfCurrent peaks s
  | .switchOnWaitExpiry stack region peaks => Sys2Proof.Machine.execSwitchOnWaitExpiry stack region peaks s
  | .regionOn stack region => Sys2Proof.Machine.execRegionOn stack region s
  | .regulatorFail stack region => Sys2Proof.Machine.execRegulatorFail stack region s
  | .phaseFail stack array => Sys2Proof.Machine.execPhaseFail stack array s
  | .powerFault stack => Sys2Proof.Machine.execPowerFault stack s
  | .trimPeriod meas => Sys2Proof.Machine.execTrimPeriod meas s
  | .trimReport => Sys2Proof.Machine.execTrimReport s
  | .sensorSample stack readings powers => Sys2Proof.Machine.execSensorSample stack readings powers s
  | .sramBandChange stack sensor band => Sys2Proof.Machine.execSramBandChange stack sensor band s
  | .thermalTrip stack sensor => Sys2Proof.Machine.execThermalTrip stack sensor s
  | .tripLatchClear => Sys2Proof.Machine.execTripLatchClear s
  | .clockFault stack => Sys2Proof.Machine.execClockFault stack s
  | .timeAlignCheck stack found => Sys2Proof.Machine.execTimeAlignCheck stack found s
  | .clkTimeRead port stack => Sys2Proof.Machine.execClkTimeRead port stack s
  | .counterLowRead master addr => Sys2Proof.Machine.execCounterLowRead master addr s
  | .cntCoreClear port site => Sys2Proof.Machine.execCntCoreClear port site s
  | .cntClear port stack mask => Sys2Proof.Machine.execCntClear port stack mask s
  | .elogClear port mem unit => Sys2Proof.Machine.execElogClear port mem unit s
  | .trRptrWrite port ring value => Sys2Proof.Machine.execTrRptrWrite port ring value s
  | .registerWrite port off value => Sys2Proof.Machine.execRegisterWrite port off value s
  | .coreFence site cause => Sys2Proof.Machine.execCoreFence site cause s
  | .wakeCheckDone site pass => Sys2Proof.Machine.execWakeCheckDone site pass s
  | .windowCopy src dst => Sys2Proof.Machine.execWindowCopy src dst s
  | .replayPlace cid => Sys2Proof.Machine.execReplayPlace cid s
  | .controlAckTimeout site => Sys2Proof.Machine.execControlAckTimeout site s
  | .routerCreditTimeout site => Sys2Proof.Machine.execRouterCreditTimeout site s
  | .routerBypass site => Sys2Proof.Machine.execRouterBypass site s
  | .commandProcessorWatchdog stack cp => Sys2Proof.Machine.execCommandProcessorWatchdog stack cp s
  | .halfLoss half => Sys2Proof.Machine.execHalfLoss half s
  | .laneFault site lane => Sys2Proof.Machine.execLaneFault site lane s
  | .healthRecordStore => Sys2Proof.Machine.execHealthRecordStore s
  | .flashStoreDone ok => Sys2Proof.Machine.execFlashStoreDone ok s
  | .resetNAssert level => Sys2Proof.Machine.execResetNAssert level s
  | .pwrgdDeassert level => Sys2Proof.Machine.execPwrgdDeassert level s
  | .bootRom primaryOk badStack => Sys2Proof.Machine.execBootRom primaryOk badStack s
  | .firmwareCheck => Sys2Proof.Machine.execFirmwareCheck s
  | .firmwareBroadcast badCores => Sys2Proof.Machine.execFirmwareBroadcast badCores s
  | .cornerSelfTest result => Sys2Proof.Machine.execCornerSelfTest result s
  | .reconciliation => Sys2Proof.Machine.execReconciliation s
  | .vportStageTest failed => Sys2Proof.Machine.execVportStageTest failed s
  | .trainingStage result => Sys2Proof.Machine.execTrainingStage result s
  | .patternTest failed => Sys2Proof.Machine.execPatternTest failed s
  | .retentionTest failed => Sys2Proof.Machine.execRetentionTest failed s
  | .topologyCheck badLink => Sys2Proof.Machine.execTopologyCheck badLink s
  | .refclkStop => Sys2Proof.Machine.execRefclkStop s
  | .extest => Sys2Proof.Machine.execExtest s
  | .samplePreload captured preload => Sys2Proof.Machine.execSamplePreload captured preload s
  | .idcode => Sys2Proof.Machine.execIdcode s
  | .clamp => Sys2Proof.Machine.execClamp s
  | .highz => Sys2Proof.Machine.execHighz s
  | .bypass => Sys2Proof.Machine.execBypass s
  | .dbgChallenge => Sys2Proof.Machine.execDbgChallenge s
  | .dbgToken token => Sys2Proof.Machine.execDbgToken token s
  | .dbgLock => Sys2Proof.Machine.execDbgLock s
  | .dbgReg dr => Sys2Proof.Machine.execDbgReg dr s
  | .dbgMem dr => Sys2Proof.Machine.execDbgMem dr s
  | .debugExpiry => Sys2Proof.Machine.execDebugExpiry s
  | .halt site => Sys2Proof.Machine.execHalt site s
  | .resume site => Sys2Proof.Machine.execResume site s
  | .step site => Sys2Proof.Machine.execStep site s
  | .hostLinkDown port => Sys2Proof.Machine.execHostLinkDown port s
  | .fabricLinkDown port => Sys2Proof.Machine.execFabricLinkDown port s
  | .fabricTrainingDone port result => Sys2Proof.Machine.execFabricTrainingDone port result s
  | .fabricTrainingRetry port => Sys2Proof.Machine.execFabricTrainingRetry port s
  | .vddAonLoss => Sys2Proof.Machine.execVddAonLoss s
  | .rootPllLock stack => Sys2Proof.Machine.execRootPllLock stack s
  | .tapReset => Sys2Proof.Machine.execTapReset s

end Sys2Proof.Machine
end

