-- ==== Sys2Proof/Machine/Tick.lean ====
section
/-! DEFINITION. What happens at a tick of device time while no command waits (log entry 1): device time, cycles of the cores and the
caches (R22, R353), waits and stall timers (R109), stalls at the limits (R252), port tests that are due (R221), releases of records
(R248), holds of timeouts (R249, R273, R301), powered hours, resets of ports that wait, writes that ports have posted (R191). -/

namespace Sys2Proof.Machine

/-- Clock edges of step k in quarter q of a frame of 64 root cycles, four ticks (R353). -/
def edges (k q : Nat) : Nat := cdiv ((q + 1) * k) 4 - cdiv (q * k) 4

/-- What stretching leaves of the n edges of a quarter frame where edges are `late` root cycles late: no period is shorter than 4 root
cycles, so 4 of them cost an edge, and the room between the edges makes up for the rest (R353, R355; log entry 113). -/
def lateEdges (n late : Nat) : Nat × Nat :=
  let lost := min n (late / 4)
  (n - lost, late - 4 * lost - (16 - 4 * n))

/-- Clock edges of a half mesh clock at step k in half q of a frame of 32 root cycles, two ticks (R353). -/
def meshEdges (k q : Nat) : Nat := cdiv ((q + 1) * k) 2 - cdiv (q * k) 2

/-- While a region's supply stands below the level of its droop detector, whether its next edge is stretched already (R355). -/
def State.sagging (s : State) (r : Nat) : Option Bool :=
  match mfind s.power.sag r with
  | some x => if s.droops r x.1 then some x.2 else none
  | none => none

/-- The clock edges of a region in this tick and how late it runs after it: none while it is not on (R330, R353, R355). A supply that stays
below the level makes every edge 2 root cycles late. -/
def State.regionEdges (s : State) (r : Nat) : Nat × Nat :=
  if s.regionState r = 2 then
    let n := edges (s.regF r 9 5) (s.time.now % 4)
    lateEdges n (mget 0 s.power.late r + match s.sagging r with | some done => 2 * (n - if done then 1 else 0) | none => 0)
  else (0, 0)

/-- The core cycles of a site in this tick. -/
def State.coreEdges (s : State) (i : Nat) : Nat := (s.regionEdges (regionOf i)).1

/-- How late stretched regions run after this tick, and the cycles that it has stretched (R355, R356). -/
def State.tickLate (s : State) : State :=
  let rs := (s.power.sag.map (·.1)).foldl insNat (s.power.late.map (·.1))
  let late := rs.foldl (fun m r => mset 0 m r (s.regionEdges r).2) s.power.late
  let s := s.power.sag.foldl (fun t e =>
    match s.sagging e.1 with
    | some done => t.stretch e.1 ((s.regionEdges e.1).1 - if done then 1 else 0)
    | none => t) s
  { s with power := { s.power with
      late := late, sag := s.power.sag.map (fun (e : Nat × Nat × Bool) => (e.1, (e.2.1, false))) } }

/-- Groups of a core with a thread that waits in a way. -/
def Core.waiting (k : Core) (f : Thread → Bool) : Nat := k.groups.countP (fun g => g.2.threads.any f)

/-- The cycles of a core's array (R60 to R62, R67): planes or a gap, and what the gap's cycles count as. -/
def State.tickArr (s : State) (i n : Nat) : State :=
  let a := (s.core i).arr
  if a.fault || (a.tiles.isEmpty && decide (a.eighths = 0) && a.gap.isSome && !a.trimHold) then s
  else
    let b := Blk.arr i
    let (a', pl, fill) := a.cycles n (s.rgF b 0x004 7 0)
    let s := ((s.modArr i (fun _ => a')).bump b 0x044 pl).bump b 0x058 fill
    match a.state with
    | 3 => s.bump b (if a.starved then 0x048 else 0x04C) n
    | 4 => s.bump b 0x050 n
    | 5 => s.bump b 0x054 n
    | 6 => s.bump b 0x05C n
    | _ => s

/-- What no row of an instruction can carry out: a group whose next index lies outside the code, whose next word is poisoned, or whose next
opcode is not listed issues it in this tick and meets R141's causes (R122, R124, R211; log entry 17). -/
def State.tickFetch (s : State) (site slot : Nat) : State :=
  let w : At := ⟨site, slot⟩
  match s.issueCtx w with
  | none => s
  | some c =>
    let word := c.cmd.codeWord c.pc
    if c.pc < c.cmd.codeLen && !s.codePoisoned c && (decodeThread w word).isSome then s
    else
      match runThread w s ⟨BitVec.ofNat 3 (fld 55 53 word), fld 52 52 word = 1, false, [], []⟩ (fun _ _ => s) with
      | .next t => t
      | _ => s

/-- Whether a group is ready (R99): its next instruction would issue now. The latencies of R101 are not in the model (log entry 106). -/
def State.surelyReady (s : State) (site slot : Nat) : Bool :=
  match s.issueCtx ⟨site, slot⟩ with
  | none => false
  | some c =>
    match decodeThread ⟨site, slot⟩ (c.cmd.codeWord c.pc) with
    | none => false
    | some i =>
      match exec i s with
      | .next t => t.rg64 (.cntCore site) 0x008 != s.rg64 (.cntCore site) 0x008
      | _ => false

/-- A core's cycles in which nothing issues (R100, R109, R419): they are idle issue cycles where no group is ready. -/
def State.tickCore (s : State) (i : Nat) : State :=
  let n := s.coreEdges i
  if n = 0 || !hasSite s.roster.enabled i then s
  else
    let s := ((s.core i).groups.map (·.1)).foldl (fun t g => t.tickFetch i g) s
    let k := s.core i
    let halted (g : Nat) : Bool := s.halted i g
    let b := Blk.cntCore i
    let idle := k.groups.all (fun g => !s.surelyReady i g.1)
    let s := if k.blocks.isEmpty then s else s.setCore i (k.stalled halted n)
    let s := (s.bump64 b 0x000 n).bump64 b 0x010 (if idle then n else 0)
    let s := s.bump b 0x080 (n * k.waiting (fun t => match t.wait with | .barG => true | .barB _ => true | _ => false))
    let s := s.bump b 0x084 (n * k.waiting (fun t => t.wait == .merge))
    let s := s.bump b 0x088 (n * k.waiting (fun t => t.lock))
    (s.bump b 0x09C (if k.groups.any (fun g => halted g.1) then n else 0)).tickArr i n

/-! ## Stalls at the limits (R252) -/

/-- Whether a requester still waits: what has gone in the meantime stalls no more. -/
def State.stalling (s : State) : Staller → Bool
  | .group i g => (s.core i).groups.any (fun x => x.1 == g)
  | .request rid =>
    (match s.req? rid with
     | some r => r.unperformed
     | none => false)
  | .line h l => ((s.half h).victim l).isSome || (s.half h).misses.any (fun m => m.line == l)
  | .queue p q => (s.queue p q).en
  | .fabric j => s.portUp j

/-- Where the cycles of a stall count, and how many a tick has on the holder's clock: the core's for tags, the cache clock of the half for its
misses, its device and the records of its slices; ports and controllers, to which the spec gives no clock, count ticks (DESIGN CHOICE, log
entry 124). -/
def State.stallCount (s : State) : StallOn → Blk × Nat × Nat
  | .tags i => (.router i, 0x118, s.coreEdges i)
  | .records i => (.router i, 0x120, meshEdges (s.meshStep (siteHalf i)) (s.time.now % 2))
  | .misses h => (.sc h, 0x154, edges (s.meshStep h) (s.time.now % 4))
  | .device d => (.mif d, 0x100, edges (s.meshStep d) (s.time.now % 4))
  | .reads j => (.fp j, 0x510, 1)
  | .hostReads p => (s.hpBlk p, 0x10C, 1)
  | .commands => (.msh 0, 0x834, 1)

/-- The stall cycles of a tick, one per cycle and limit (R252, R260). -/
def State.tickStalls (s : State) : State :=
  let live := s.net.stalls.filter (fun x => s.stalling x.1)
  ((live.map (·.2)).eraseDups).foldl (fun t x => let (b, o, n) := t.stallCount x; t.bump b o n)
    { s with net := { s.net with stalls := live } }

/-- The requests that wait for tags leave, where there are tags now (R252). -/
def State.tickTags (s : State) : State :=
  (((s.net.reqs.filter (fun r => r.state == .queued)).map (·.site)).eraseDups).foldl (fun t i => t.sendQueued i) s

/-- The stalls of band changes end (R364), and an interface's cycles with accesses held, in cycles of its half's cache clock (R312, R321, R353), and the tests of the half's ports that are
due (R221). -/
def State.tickMif (s : State) (d : Nat) : State :=
  let n := edges (s.meshStep d) (s.time.now % 4)
  let s := if (s.half d).bandLeft.isEmpty then s
    else s.modHalf d (fun x => { x with bandLeft := (x.bandLeft.map (fun e => (e.1, e.2 - n))).filter (fun e => decide (e.2 ≠ 0)) })
  let s := if s.rgB (.mif d) 0x000 7 then s.bump (.mif d) 0x104 n else s
  let s := if s.rgB (.mif d) 0x000 8 then s.bump (.mif d) 0x108 n else s
  ((s.half d).portDue.map (·.1)).foldl (fun t sl => t.dueTest d sl) (s.portLows d)

/-- A command's timeout is held while the command is being recovered, and while its requests are being retried once, for at most 60 µs on the
mesh and 10 ms between parts (R249, R273, R301). -/
def Cmd.hold (c : Cmd) (reqs : List Req) : Cmd :=
  let again (far : Bool) : Bool := reqs.any (fun r => r.cid == c.cid && decide (0 < r.attempt) && (r.remote.isSome == far) && !r.ended)
  let once (n most : Nat) (going : Bool) : Nat := if 0 < n ∧ going = false then most else n
  let c := { c with held := once c.held 15000 (again false), heldRemote := once c.heldRemote 2500000 (again true) }
  match c.deadline with
  | none => c
  | some d =>
    if c.replay ≠ [] then { c with deadline := some (d + 1) }
    else if c.held < 15000 ∧ again false = true then { c with deadline := some (d + 1), held := c.held + 1 }
    else if c.heldRemote < 2500000 ∧ again true = true then { c with deadline := some (d + 1), heldRemote := c.heldRemote + 1 }
    else c

/-- Powered hours, in whole hours since reset, and the age of every interface's training (R320, R393). -/
def State.tickHours (s : State) : State :=
  if s.boot.sinceReset + 1 < 900000000000 then { s with boot := { s.boot with sinceReset := s.boot.sinceReset + 1 } }
  else
    (upTo 0 s.devices).foldl (fun t d => t.wgF (.mif d) 0x008 31 16 (min 0xFFFF (t.rgF (.mif d) 0x008 31 16 + 1)))
      { s.storeDue with boot := { s.boot with sinceReset := 0 }, health := { s.health with hours := s.health.hours + 1 } }

/-- One tick of 4 ns (R22, R357); before device time runs, nothing happens. -/
def State.tick (s : State) : State :=
  if !s.time.running then s
  else
    let s := ((upTo 0 s.sites).foldl State.tickCore s).tickLate
    let s := (upTo 0 s.devices).foldl State.tickMif s
    let s := s.tickTags.tickStalls.releaseRecords (fun q => decide (q.sentAt + 250 ≤ s.time.now))
    let s := { s with cmds := s.cmds.map (fun (c : Cmd) => c.hold s.net.reqs) }
    let s := s.tickHours
    let s := (upTo 0 4).foldl (fun t p =>
      let t := if (t.port p).posted = [] then t else t.postAll p (t.port p).posted
      if (t.port p).resets ≠ [] then t.portSweep p (t.port p).resets
      else if (t.port p).resetDue then t.portReset p else t) s
    { s with time := { s.time with
        now := (s.time.now + 1) % 2 ^ 64
        diff := ((upTo 0 s.stacks).map (fun t => (t, s.nextDiff t))).filter (fun e => decide (e.2 ≠ 0))
        drift := [] } }

end Sys2Proof.Machine
end

