-- ==== Sys2Proof/Safety.lean ====
section
/-! DEFINITION. What a safe step is, and the words the obligations are stated in: where a thread instruction issues, what
its group holds afterwards, what else may change. -/

namespace Sys2Proof

/-- A step that goes on. -/
def Safe (s : Machine.State) : Prop := ∃ t, Machine.step s = .next t

end Sys2Proof

namespace Sys2Proof.Claims

open Sys2Proof.Machine

/-- The command completes, and P holds of the state it leaves. -/
def Answers (i : Instr) (s : State) (P : State → Prop) : Prop := ∃ t, exec i s = .next t ∧ P t

/-! ## Thread instructions -/

/-- The group that w names may issue in the context c, no breakpoint holds it, and its instruction is fetched: the group may
issue (R99, R102), no breakpoint holds it (R434), the index lies in the code, the instruction word is not poisoned. -/
abbrev Fetches (s : State) (w : At) (c : Ctx) : Prop :=
  w.site < s.sites ∧ w.slot < 64 ∧ s.issueCtx w = some c ∧
  (c.grp.bpSkip = true ∨ s.halted w.site w.slot = true ∨ s.breakpoint c = none) ∧
  c.pc < c.cmd.codeLen ∧ s.codePoisoned c = false

/-- An instruction with needs n issues in the group that w names, in the context c, for the threads ls (rising) whose guard
passes: no reserved field is broken (R120), no register is awaited (R99), no poison is consumed (R139) and every
register lies below REGS (R94). -/
abbrev Issues (s : State) (w : At) (n : Need) (c : Ctx) (ls : List Nat) : Prop :=
  Fetches s w c ∧ c.lanes n.pg n.pn = ls ∧ ls ≠ [] ∧ n.legal = true ∧
  (n.regs.any fun r => (s.awaited w.site w.slot).contains r) = false ∧
  c.eater ls n.eats = none ∧ n.regs.any c.badReg = false

/-- The group of a context, in a later state. -/
def groupAt (t : State) (c : Ctx) : Option Group := mfind (t.core c.site).groups c.slot

/-- The keys of the device registers that an issue itself moves: CNT_CYCLES, CNT_ISSUE and the pending step (R100, R419,
R434). -/
def issueKeys (c : Ctx) : List Nat :=
  [(Blk.cntCore c.site).base, (Blk.cntCore c.site).base + 4, (Blk.cntCore c.site).base + 8,
   (Blk.cntCore c.site).base + 12, (Blk.dbg (siteStack c.site)).base + dbgOff c.site]

/-- The two 64-bit counts of an issue do not wrap now, so no counter-flag record is written (R414, R418). -/
abbrev FarFromWrap (s : State) (site : Nat) : Prop :=
  s.rg64 (.cntCore site) 0x000 + 4 < 2 ^ 64 ∧ s.rg64 (.cntCore site) 0x008 + 4 < 2 ^ 64

/-- Nothing but the group of c, its core's round robin and stall timers (R109) and the registers of `issueKeys` differs: memory, its poison,
every other group, core and register, the commands and the network stay as they were. -/
def OnlyGroup (s t : State) (c : Ctx) : Prop :=
  t = { s with cores := t.cores, regs := t.regs } ∧
  (∀ i, i ≠ c.site → t.core i = s.core i) ∧
  t.core c.site = { s.core c.site with
    groups := (t.core c.site).groups, blocks := (t.core c.site).blocks, rr := (c.slot + 1) % 64 } ∧
  (∀ b, (mfind (t.core c.site).blocks b).map (fun x => { x with stall := 0 }) =
    (mfind (s.core c.site).blocks b).map (fun x => { x with stall := 0 })) ∧
  (∀ j, j ≠ c.slot → mfind (t.core c.site).groups j = mfind (s.core c.site).groups j) ∧
  (∀ k, k ∉ issueKeys c → mfind t.regs k = mfind s.regs k)

/-- The threads of the path stand at the next instruction (R102); beside instruction indices, predicates, registers with their
marks and the choice of the active path, nothing of the group changed, and while fewer than 64 instructions have issued the
path stays active (R102). -/
def MovedOn (c : Ctx) (g : Group) : Prop :=
  g = { c.grp with threads := g.threads, uregs := g.uregs, upois := g.upois, act := g.act, count := g.count, bpSkip := false } ∧
  (∀ l, g.th l = { c.grp.th l with
    pc := if l ∈ c.path then c.pc + 1 else (c.grp.th l).pc
    preds := (g.th l).preds, regs := (g.th l).regs, rpois := (g.th l).rpois }) ∧
  (c.grp.count < 63 → g.act = c.grp.act ∧ g.count = c.grp.count + 1)

/-- Register d under its uniform flag took a result (R116, R117): a thread register in each thread of ls its own, v255
nothing, a uniform register the lowest thread's. Every other register keeps its value and its mark. -/
def Wrote (c : Ctx) (g : Group) (ud : Bool) (d : Nat) (ls : List Nat) (ok : Nat → W32 → Prop) : Prop :=
  (ud = false → d ≠ 255 → ∀ l ∈ ls, ok l (g.reg l d)) ∧
  (ud = true → ∀ l, ok (ls.headD 0) (g.reg l (256 + d))) ∧
  (∀ l r, ¬ (r = regNo ud d ∧ r ≠ 255 ∧ (ud = true ∨ l ∈ ls)) →
    g.reg l r = c.grp.reg l r ∧ g.rpois l r = c.grp.rpois l r)

/-- No register and no mark changed. -/
def KeptRegs (c : Ctx) (g : Group) : Prop := ∀ l r, g.reg l r = c.grp.reg l r ∧ g.rpois l r = c.grp.rpois l r

/-- No predicate changed. -/
def KeptPreds (c : Ctx) (g : Group) : Prop := ∀ l n, g.pred l n = c.grp.pred l n

/-- Predicate pd of each thread of ls took a value, p7 nothing; every other predicate keeps its value (R116, R121). -/
def WrotePred (c : Ctx) (g : Group) (pd : Nat) (ls : List Nat) (ok : Nat → Bool → Prop) : Prop :=
  (pd ≠ 7 → ∀ l ∈ ls, ok l (g.pred l pd)) ∧
  (∀ l n, ¬ (n = pd ∧ n ≠ 7 ∧ l ∈ ls) → g.pred l n = c.grp.pred l n)

/-- What a register instruction with destination d does: the result, the next index, and nothing else. -/
def Result (s t : State) (c : Ctx) (ud : Bool) (d : Nat) (ls : List Nat) (ok : Nat → W32 → Prop) : Prop :=
  (∃ g, groupAt t c = some g ∧ Wrote c g ud d ls ok ∧ KeptPreds c g ∧ MovedOn c g) ∧
  (FarFromWrap s c.site → OnlyGroup s t c)

/-- What an instruction with destination predicate pd does: the predicate, the next index, and nothing else. -/
def PredResult (s t : State) (c : Ctx) (pd : Nat) (ls : List Nat) (ok : Nat → Bool → Prop) : Prop :=
  (∃ g, groupAt t c = some g ∧ WrotePred c g pd ls ok ∧ KeptRegs c g ∧ MovedOn c g) ∧
  (FarFromWrap s c.site → OnlyGroup s t c)

/-- An instruction that only moves its path on. -/
def OnlyMoved (s t : State) (c : Ctx) : Prop :=
  (∃ g, groupAt t c = some g ∧ KeptRegs c g ∧ KeptPreds c g ∧ MovedOn c g) ∧ (FarFromWrap s c.site → OnlyGroup s t c)

/-- The value that a lane reads as A, B, C of an R-format instruction (R117, R120). -/
def ra (c : Ctx) (f : RForm) (l : Nat) : W32 := c.grp.reg l (regNo f.ua f.a.toNat)
/-- B. -/
def rb (c : Ctx) (f : RForm) (l : Nat) : W32 := c.grp.reg l (regNo f.ub f.b.toNat)
/-- C. -/
def rc (c : Ctx) (f : RForm) (l : Nat) : W32 := c.grp.reg l (regNo f.uc f.c.toNat)

/-- The two-source integer and logic instructions and what their result r is, read as numbers (R122). -/
def integerOps : List ((At → RForm → Instr) × (W32 → W32 → W32 → Prop)) :=
  [(.iadd, fun a b r => r.toNat = (a.toNat + b.toNat) % 2 ^ 32),
   (.isub, fun a b r => (r.toInt - (a.toInt - b.toInt)) % 2 ^ 32 = 0),
   (.imul, fun a b r => r.toNat = a.toNat * b.toNat % 2 ^ 32),
   (.imulh, fun a b r => r.toInt = a.toInt * b.toInt / 2 ^ 32),
   (.imulhu, fun a b r => r.toNat = a.toNat * b.toNat / 2 ^ 32),
   (.imin, fun a b r => r.toInt = min a.toInt b.toInt),
   (.imax, fun a b r => r.toInt = max a.toInt b.toInt),
   (.iminu, fun a b r => r.toNat = min a.toNat b.toNat),
   (.imaxu, fun a b r => r.toNat = max a.toNat b.toNat),
   (.idiv, fun a b r => if b.toInt = 0 then r.toNat = 2 ^ 32 - 1
      else if a.toInt = -2 ^ 31 ∧ b.toInt = -1 then r.toInt = -2 ^ 31 else r.toInt = a.toInt.tdiv b.toInt),
   (.idivu, fun a b r => if b.toNat = 0 then r.toNat = 2 ^ 32 - 1 else r.toNat = a.toNat / b.toNat),
   (.irem, fun a b r => if b.toInt = 0 then r = a else r.toInt = a.toInt.tmod b.toInt),
   (.iremu, fun a b r => if b.toNat = 0 then r = a else r.toNat = a.toNat % b.toNat),
   (.and, fun a b r => ∀ i < 32, r.getLsbD i = (a.getLsbD i && b.getLsbD i)),
   (.or, fun a b r => ∀ i < 32, r.getLsbD i = (a.getLsbD i || b.getLsbD i)),
   (.xor, fun a b r => ∀ i < 32, r.getLsbD i = (a.getLsbD i != b.getLsbD i)),
   (.shl, fun a b r => r.toNat = if 32 ≤ b.toNat % 256 then 0 else a.toNat * 2 ^ (b.toNat % 256) % 2 ^ 32),
   (.shr, fun a b r => r.toNat = if 32 ≤ b.toNat % 256 then 0 else a.toNat / 2 ^ (b.toNat % 256)),
   (.sar, fun a b r => r.toInt = a.toInt / 2 ^ (b.toNat % 256))]

/-- The one-source instructions (R122). -/
def unaryOps : List ((At → RForm → Instr) × (W32 → W32 → Prop)) :=
  [(.iabs, fun a r => r.toNat = a.toInt.natAbs),
   (.popc, fun a r => r.toNat = (List.range 32).countP (fun i => a.getLsbD i)),
   (.clz, fun a r => if a = 0 then r = 32 else 2 ^ (31 - r.toNat) ≤ a.toNat ∧ a.toNat < 2 ^ (32 - r.toNat) ∧ r.toNat < 32),
   (.brev, fun a r => ∀ i < 32, r.getLsbD i = a.getLsbD (31 - i)),
   (.mov, fun a r => r = a),
   (.fabs, fun a r => r.toNat = a.toNat % 2 ^ 31),
   (.fneg, fun a r => r.toNat % 2 ^ 31 = a.toNat % 2 ^ 31 ∧ r.getLsbD 31 = !a.getLsbD 31)]

/-- The immediate instructions that write D (R122): their result is that of the register form with b := IMM. -/
def immediateOps : List ((At → IForm → Instr) × (W32 → W32 → W32 → Prop)) :=
  [(.iaddi, fun a b r => r.toNat = (a.toNat + b.toNat) % 2 ^ 32),
   (.imuli, fun a b r => r.toNat = a.toNat * b.toNat % 2 ^ 32),
   (.andi, fun a b r => ∀ i < 32, r.getLsbD i = (a.getLsbD i && b.getLsbD i)),
   (.ori, fun a b r => ∀ i < 32, r.getLsbD i = (a.getLsbD i || b.getLsbD i)),
   (.xori, fun a b r => ∀ i < 32, r.getLsbD i = (a.getLsbD i != b.getLsbD i)),
   (.shli, fun a b r => r.toNat = if 32 ≤ b.toNat % 256 then 0 else a.toNat * 2 ^ (b.toNat % 256) % 2 ^ 32),
   (.shri, fun a b r => r.toNat = if 32 ≤ b.toNat % 256 then 0 else a.toNat / 2 ^ (b.toNat % 256)),
   (.sari, fun a b r => r.toInt = a.toInt / 2 ^ (b.toNat % 256)),
   (.faddi, fun a b r => r = fadd a b),
   (.fmuli, fun a b r => r = fmul a b)]

/-- The order that COND 0 to 5 asks for, on numbers (R121). -/
def Compares (cond : Nat) (a b : Int) : Prop :=
  (cond = 0 → a = b) ∧ (cond = 1 → a ≠ b) ∧ (cond = 2 → a < b) ∧ (cond = 3 → a ≤ b) ∧ (cond = 4 → b < a) ∧ (cond = 5 → b ≤ a)

/-- What a compare of two FP32 values finds (R121): UN where either operand is NaN, OR where neither is; with a NaN only NE
and UN hold; without one, the order of the values, −0 equal to +0. -/
def FpCompares (cond : Nat) (a b : W32) : Prop :=
  if isNanFV (dec32 a) ∨ isNanFV (dec32 b) then cond = 1 ∨ cond = 6
  else cond = 7 ∨ (cond = 0 ∧ feq a b) ∨ (cond = 1 ∧ ¬ feq a b) ∨ (cond = 2 ∧ flt a b) ∨ (cond = 3 ∧ ¬ flt b a) ∨
    (cond = 4 ∧ flt b a) ∨ (cond = 5 ∧ ¬ flt a b)

/-- The integer compares, and how they read their operands. -/
def compareOps : List ((At → RForm → Instr) × (At → IForm → Instr) × (W32 → Int)) :=
  [(.isetp, .isetpi, BitVec.toInt), (.isetpu, .isetpui, fun x => (x.toNat : Int))]

/-- The FP32 instructions of two sources (R122, R123, R71). -/
def fpOps : List ((At → RForm → Instr) × (W32 → W32 → W32)) :=
  [(.fadd, fadd), (.fsub, fsub), (.fmul, fmul), (.fmin, fmin), (.fmax, fmax), (.fdiv, fdiv)]

/-- The FP32 instructions of one source; the approximated ones give the free value of log entry 5 within the bound of R122. -/
def fpUnaryOps : List ((At → RForm → Instr) × (W32 → W32)) :=
  [(.fsqrt, fsqrt), (.frcp, frcpOp), (.frsq, frsqOp), (.fexp2, fexp2Op), (.flog2, flog2Op), (.fsin, fsinOp),
   (.fcos, fcosOp), (.ftanh, ftanhOp)]

/-- The conversions that write all of D, with the MOD values they define (R122, R123). -/
def convertOps : List ((At → RForm → Instr) × Nat × (Nat → W32 → W32)) :=
  [(.cvtif, 4, fun m a => cvtif (rndOf m) a), (.cvtuf, 4, fun m a => cvtuf (rndOf m) a),
   (.cvtfi, 4, fun m a => cvtfi (rndOf m) a), (.cvtfu, 4, fun m a => cvtfu (rndOf m) a),
   (.cvtbf, 2, fun m a => encFV (decIEEE bf16 (if m = 0 then a.toNat % 65536 else a.toNat / 65536))),
   (.cvthf, 2, fun m a => encFV (decIEEE fp16 (if m = 0 then a.toNat % 65536 else a.toNat / 65536))),
   (.cvt8f, 8, fun m a => encFV (if m < 4 then decFin e4m3 true (getF (8 * m + 7) (8 * m) a)
      else decIEEE e5m2 (getF (8 * (m - 4) + 7) (8 * (m - 4)) a)))]

/-- How the fields of an instruction with the source A and some MOD values are used (R120). -/
abbrev useA (mods : Nat) : RUse := ⟨.reg, .reg, .no, .no, mods, false, false⟩

/-- Place, guard predicate, guard sense and reserved bits of a thread instruction (R119, R120); none for any other
command. -/
def guardOf : Instr → Option (At × BitVec 3 × Bool × Nat)
  | .nop w f => some (w, f.pg, f.pn, f.rsv.toNat)
  | .bra w f => some (w, f.pg, f.pn, f.rsv.toNat)
  | .brx w f => some (w, f.pg, f.pn, f.rsv.toNat)
  | .merge w f => some (w, f.pg, f.pn, f.rsv.toNat)
  | .exit w f => some (w, f.pg, f.pn, f.rsv.toNat)
  | .spin w f => some (w, f.pg, f.pn, f.rsv.toNat)
  | .trap w f => some (w, f.pg, f.pn, f.rsv.toNat)
  | .s2r w f => some (w, f.pg, f.pn, f.rsv.toNat)
  | .iadd w f => some (w, f.pg, f.pn, f.rsv.toNat)
  | .isub w f => some (w, f.pg, f.pn, f.rsv.toNat)
  | .imul w f => some (w, f.pg, f.pn, f.rsv.toNat)
  | .imulh w f => some (w, f.pg, f.pn, f.rsv.toNat)
  | .imulhu w f => some (w, f.pg, f.pn, f.rsv.toNat)
  | .imad w f => some (w, f.pg, f.pn, f.rsv.toNat)
  | .imin w f => some (w, f.pg, f.pn, f.rsv.toNat)
  | .imax w f => some (w, f.pg, f.pn, f.rsv.toNat)
  | .iminu w f => some (w, f.pg, f.pn, f.rsv.toNat)
  | .imaxu w f => some (w, f.pg, f.pn, f.rsv.toNat)
  | .iabs w f => some (w, f.pg, f.pn, f.rsv.toNat)
  | .idiv w f => some (w, f.pg, f.pn, f.rsv.toNat)
  | .idivu w f => some (w, f.pg, f.pn, f.rsv.toNat)
  | .irem w f => some (w, f.pg, f.pn, f.rsv.toNat)
  | .iremu w f => some (w, f.pg, f.pn, f.rsv.toNat)
  | .and w f => some (w, f.pg, f.pn, f.rsv.toNat)
  | .or w f => some (w, f.pg, f.pn, f.rsv.toNat)
  | .xor w f => some (w, f.pg, f.pn, f.rsv.toNat)
  | .shl w f => some (w, f.pg, f.pn, f.rsv.toNat)
  | .shr w f => some (w, f.pg, f.pn, f.rsv.toNat)
  | .sar w f => some (w, f.pg, f.pn, f.rsv.toNat)
  | .popc w f => some (w, f.pg, f.pn, f.rsv.toNat)
  | .clz w f => some (w, f.pg, f.pn, f.rsv.toNat)
  | .brev w f => some (w, f.pg, f.pn, f.rsv.toNat)
  | .isetp w f => some (w, f.pg, f.pn, f.rsv.toNat)
  | .isetpu w f => some (w, f.pg, f.pn, f.rsv.toNat)
  | .fsetp w f => some (w, f.pg, f.pn, f.rsv.toNat)
  | .sel w f => some (w, f.pg, f.pn, f.rsv.toNat)
  | .mov w f => some (w, f.pg, f.pn, f.rsv.toNat)
  | .plop w f => some (w, f.pg, f.pn, f.rsv.toNat)
  | .p2r w f => some (w, f.pg, f.pn, f.rsv.toNat)
  | .regToPred w f => some (w, f.pg, f.pn, f.rsv.toNat)
  | .fadd w f => some (w, f.pg, f.pn, f.rsv.toNat)
  | .fsub w f => some (w, f.pg, f.pn, f.rsv.toNat)
  | .fmul w f => some (w, f.pg, f.pn, f.rsv.toNat)
  | .ffma w f => some (w, f.pg, f.pn, f.rsv.toNat)
  | .fmin w f => some (w, f.pg, f.pn, f.rsv.toNat)
  | .fmax w f => some (w, f.pg, f.pn, f.rsv.toNat)
  | .fabs w f => some (w, f.pg, f.pn, f.rsv.toNat)
  | .fneg w f => some (w, f.pg, f.pn, f.rsv.toNat)
  | .fdiv w f => some (w, f.pg, f.pn, f.rsv.toNat)
  | .fsqrt w f => some (w, f.pg, f.pn, f.rsv.toNat)
  | .frcp w f => some (w, f.pg, f.pn, f.rsv.toNat)
  | .frsq w f => some (w, f.pg, f.pn, f.rsv.toNat)
  | .fexp2 w f => some (w, f.pg, f.pn, f.rsv.toNat)
  | .flog2 w f => some (w, f.pg, f.pn, f.rsv.toNat)
  | .fsin w f => some (w, f.pg, f.pn, f.rsv.toNat)
  | .fcos w f => some (w, f.pg, f.pn, f.rsv.toNat)
  | .ftanh w f => some (w, f.pg, f.pn, f.rsv.toNat)
  | .cvtif w f => some (w, f.pg, f.pn, f.rsv.toNat)
  | .cvtuf w f => some (w, f.pg, f.pn, f.rsv.toNat)
  | .cvtfi w f => some (w, f.pg, f.pn, f.rsv.toNat)
  | .cvtfu w f => some (w, f.pg, f.pn, f.rsv.toNat)
  | .cvtfb w f => some (w, f.pg, f.pn, f.rsv.toNat)
  | .cvtbf w f => some (w, f.pg, f.pn, f.rsv.toNat)
  | .cvtfh w f => some (w, f.pg, f.pn, f.rsv.toNat)
  | .cvthf w f => some (w, f.pg, f.pn, f.rsv.toNat)
  | .cvtf8 w f => some (w, f.pg, f.pn, f.rsv.toNat)
  | .cvt8f w f => some (w, f.pg, f.pn, f.rsv.toNat)
  | .shfl w f => some (w, f.pg, f.pn, f.rsv.toNat)
  | .vote w f => some (w, f.pg, f.pn, f.rsv.toNat)
  | .ld w f => some (w, f.pg, f.pn, f.rsv.toNat)
  | .st w f => some (w, f.pg, f.pn, f.rsv.toNat)
  | .ldnc w f => some (w, f.pg, f.pn, f.rsv.toNat)
  | .aadd w f => some (w, f.pg, f.pn, f.rsv.toNat)
  | .amin w f => some (w, f.pg, f.pn, f.rsv.toNat)
  | .amax w f => some (w, f.pg, f.pn, f.rsv.toNat)
  | .aminu w f => some (w, f.pg, f.pn, f.rsv.toNat)
  | .amaxu w f => some (w, f.pg, f.pn, f.rsv.toNat)
  | .aand w f => some (w, f.pg, f.pn, f.rsv.toNat)
  | .aor w f => some (w, f.pg, f.pn, f.rsv.toNat)
  | .axor w f => some (w, f.pg, f.pn, f.rsv.toNat)
  | .axchg w f => some (w, f.pg, f.pn, f.rsv.toNat)
  | .acas w f => some (w, f.pg, f.pn, f.rsv.toNat)
  | .afadd w f => some (w, f.pg, f.pn, f.rsv.toNat)
  | .raddI32 w f => some (w, f.pg, f.pn, f.rsv.toNat)
  | .raddF32 w f => some (w, f.pg, f.pn, f.rsv.toNat)
  | .raddBf16 w f => some (w, f.pg, f.pn, f.rsv.toNat)
  | .rmaxI32 w f => some (w, f.pg, f.pn, f.rsv.toNat)
  | .rminI32 w f => some (w, f.pg, f.pn, f.rsv.toNat)
  | .rmaxF32 w f => some (w, f.pg, f.pn, f.rsv.toNat)
  | .rminF32 w f => some (w, f.pg, f.pn, f.rsv.toNat)
  | .rmaxBf16 w f => some (w, f.pg, f.pn, f.rsv.toNat)
  | .rminBf16 w f => some (w, f.pg, f.pn, f.rsv.toNat)
  | .barg w f => some (w, f.pg, f.pn, f.rsv.toNat)
  | .barb w f => some (w, f.pg, f.pn, f.rsv.toNat)
  | .fence w f => some (w, f.pg, f.pn, f.rsv.toNat)
  | .tile w f => some (w, f.pg, f.pn, f.rsv.toNat)
  | .twait w f => some (w, f.pg, f.pn, f.rsv.toNat)
  | .espld w f => some (w, f.pg, f.pn, f.rsv.toNat)
  | .dma w f => some (w, f.pg, f.pn, f.rsv.toNat)
  | .dwait w f => some (w, f.pg, f.pn, f.rsv.toNat)
  | .movi w f => some (w, f.pg, f.pn, f.rsv.toNat)
  | .iaddi w f => some (w, f.pg, f.pn, f.rsv.toNat)
  | .imuli w f => some (w, f.pg, f.pn, f.rsv.toNat)
  | .andi w f => some (w, f.pg, f.pn, f.rsv.toNat)
  | .ori w f => some (w, f.pg, f.pn, f.rsv.toNat)
  | .xori w f => some (w, f.pg, f.pn, f.rsv.toNat)
  | .shli w f => some (w, f.pg, f.pn, f.rsv.toNat)
  | .shri w f => some (w, f.pg, f.pn, f.rsv.toNat)
  | .sari w f => some (w, f.pg, f.pn, f.rsv.toNat)
  | .isetpi w f => some (w, f.pg, f.pn, f.rsv.toNat)
  | .isetpui w f => some (w, f.pg, f.pn, f.rsv.toNat)
  | .faddi w f => some (w, f.pg, f.pn, f.rsv.toNat)
  | .fmuli w f => some (w, f.pg, f.pn, f.rsv.toNat)
  | .fsetpi w f => some (w, f.pg, f.pn, f.rsv.toNat)
  | _ => none

/-- The reply of a command with an exception names a place (R140), where the command runs or comes to an end in the same device time by
something that goes behind it (R141, R142, R453); else it names what it named. -/
def Named (t : State) (c : Ctx) (d : Detail) : Prop :=
  ∃ k, t.cmd? c.blk.cid = some k ∧ k.phase = .ending ∧
    if c.cmd.phase = .running ∨ ∃ o, c.cmd.detail = some o ∧ endBefore 0x10 d c.cmd.status o = true then
      k.status = 0x10 ∧ k.detail = some d
    else k.status = c.cmd.status ∧ k.detail = c.cmd.detail

/-- The instruction takes the exception of a code in a lane (R140): the group stops at the instruction with its threads as they
were, and the command ends with KERNEL_EXCEPTION and a reply that names the place. -/
def Excepts (s t : State) (c : Ctx) (code lane trap : Nat) : Prop :=
  (∃ g, groupAt t c = some g ∧ g.stopped = true ∧ g.threads = c.grp.threads ∧ g.uregs = c.grp.uregs) ∧
  Named t c ⟨1, code, c.site, c.slot, c.grp.blk, lane, c.pc, 0xFF, trap, s.timeOf (siteStack c.site)⟩ ∧
  (FarFromWrap s c.site → c.cmd.phase = .running → t.mem = s.mem ∧ t.poison = s.poison)

/-- No poisoned contribution of the block waits in the commit buffer, which a commit point could then consume (R211, R383). -/
abbrev CleanCommits (c : Ctx) : Prop := ∀ x ∈ c.core.commit, x.blk = c.grp.blk → x.pois = false

/-- No contribution of these threads that waits in the commit buffer lies over the n bytes that each of them accesses (R186). -/
abbrev NoneBuffered (c : Ctx) (ls : List Nat) (addr : Nat → Nat) (n : Nat) : Prop := ∀ l ∈ ls, c.buffered n (l, addr l, 0) = false

/-- The same requests are under way, but for loads that no longer fill an L1 line (R131, R186). -/
def SameReqs (s t : State) : Prop :=
  t.net.reqs.map (fun r => { r with dropFill := false }) = s.net.reqs.map (fun r => { r with dropFill := false })

/-- Of the network only a requester's stall and the number of the next instruction differ (R131, R252). -/
def SameNet (s t : State) : Prop := t.net = { s.net with stalls := t.net.stalls, nextSerial := t.net.nextSerial }

/-- Every thread of the group keeps everything but its index, which is n l in the threads of the path. -/
def Jumped (c : Ctx) (g : Group) (n : Nat → Nat) : Prop :=
  (∀ l, g.th l = { c.grp.th l with pc := if l ∈ c.path then n l else (c.grp.th l).pc }) ∧ KeptRegs c g

/-! ## Memory instructions -/

/-- The device address that a lane's effective address gives. -/
def addrOf? (e : Ea) : Option Nat := match e with | .ok a _ _ => some a | _ => none

/-- The effective address of a lane of an M-format instruction (R130); off is 0 for atomics and reductions (R132). -/
def laneEa (s : State) (c : Ctx) (f : MForm) (off : Int) (l : Nat) : Ea :=
  s.effAddr c f.sp (regNo f.ua f.a.toNat) off f.bytes l

/-- Every thread's address is good, and is addr l (R130). -/
abbrev Reaches (s : State) (c : Ctx) (f : MForm) (off : Int) (ls : List Nat) (addr : Nat → Nat) : Prop :=
  ∀ l ∈ ls, addrOf? (laneEa s c f off l) = some (addr l)

/-- The counter of local-memory bytes does not wrap in one instruction either. -/
abbrev FarLocal (s : State) (site : Nat) : Prop := FarFromWrap s site ∧ s.rg64 (.cntCore site) 0x018 + 1024 < 2 ^ 64

/-- Nor do the counters of requests that a thread instruction sends. -/
abbrev FarSend (s : State) (site : Nat) : Prop :=
  FarFromWrap s site ∧ s.rg64 (.cntCore site) 0x030 + 2048 < 2 ^ 64 ∧ s.rg64 (.cntCore site) 0x038 + 2048 < 2 ^ 64 ∧
  (s.rg (.router site) 0x108).toNat + 64 < 0xFFFFFFFF

/-- k registers from d on took words, as `Wrote` says of one: ok is asked of thread, word number, value and mark. -/
def WroteWords (c : Ctx) (g : Group) (ud : Bool) (d k : Nat) (ls : List Nat) (ok : Nat → Nat → W32 → Bool → Prop) : Prop :=
  (ud = false → ∀ l ∈ ls, ∀ i < k, d + i ≠ 255 → ok l i (g.reg l (d + i)) (g.rpois l (d + i))) ∧
  (ud = true → ∀ i < k, ∀ l, ok (ls.headD 0) i (g.reg l (256 + d + i)) (g.rpois l (256 + d + i))) ∧
  (∀ l r, ¬ (∃ i < k, r = regNo ud d + i ∧ r ≠ 255 ∧ (ud = true ∨ l ∈ ls)) →
    g.reg l r = c.grp.reg l r ∧ g.rpois l r = c.grp.rpois l r)

/-- How many registers a datum of n bytes takes (R130). -/
def words (n : Nat) : Nat := if n ≤ 4 then 1 else n / 4

/-- Word i of a loaded datum v of n bytes, extended as SX says (R130). -/
def LoadedWord (n : Nat) (sx : Bool) (v i : Nat) (r : W32) : Prop :=
  if n < 4 then (if sx then r.toInt = sint (8 * n) v else r.toNat = v) else r.toNat = v / 2 ^ (32 * i) % 2 ^ 32

/-- The datum of n bytes that a lane holds in registers from r on, lowest register first (R130). -/
def held (c : Ctx) (l r n : Nat) : Nat :=
  (if n ≤ 4 then (c.grp.reg l r).toNat
   else (c.grp.reg l r).toNat + 2 ^ 32 * (c.grp.reg l (r + 1)).toNat +
    (if n = 16 then 2 ^ 64 * (c.grp.reg l (r + 2)).toNat + 2 ^ 96 * (c.grp.reg l (r + 3)).toNat else 0)) % 2 ^ (8 * n)

/-- Bytes that no lane's access covers. -/
def Outside (ls : List Nat) (addr : Nat → Nat) (n a : Nat) : Prop := ∀ l ∈ ls, a < addr l ∨ addr l + n ≤ a

/-- A request of a lane is on its way to its place or stands there. -/
def Sent (t : State) (c : Ctx) (l : Nat) (kind : ReqKind) (a n : Nat) (ok : Req → Prop) : Prop :=
  ∃ r ∈ t.net.reqs, r.site = c.site ∧ r.slot = c.slot ∧ r.lane = l ∧ r.cid = c.blk.cid ∧ r.kind = kind ∧ r.addr = a ∧
    r.size = n ∧ (r.state = .sent ∨ r.state = .arrived) ∧ ok r

/-- The atomics with opcode, whether they compare, whether SIZE 3 is allowed, and the value they write (R132): width in bytes,
old value, b, c. -/
def atomicOps : List ((At → MForm → Instr) × Nat × Bool × Bool × (Nat → Nat → Nat → Nat → Nat)) :=
  [(.aadd, 0x90, false, true, fun n o b _ => (o + b) % 2 ^ (8 * n)),
   (.amin, 0x91, false, true, fun n o b _ => if sint (8 * n) o ≤ sint (8 * n) b then o else b),
   (.amax, 0x92, false, true, fun n o b _ => if sint (8 * n) b ≤ sint (8 * n) o then o else b),
   (.aminu, 0x93, false, true, fun _ o b _ => if o ≤ b then o else b),
   (.amaxu, 0x94, false, true, fun _ o b _ => if b ≤ o then o else b),
   (.aand, 0x95, false, true, fun _ o b _ => o &&& b), (.aor, 0x96, false, true, fun _ o b _ => o ||| b),
   (.axor, 0x97, false, true, fun _ o b _ => o ^^^ b), (.axchg, 0x98, false, true, fun _ _ b _ => b),
   (.acas, 0x99, true, true, fun _ o b v => if o = b then v else o),
   (.afadd, 0x9A, false, false, fun _ o b _ => (fadd (BitVec.ofNat 32 o) (BitVec.ofNat 32 b)).toNat)]

/-- The word at a after the lanes of ls have combined their operands into it in order (R132). -/
def combined (op : Nat → Nat → Nat → Nat) (addr b v : Nat → Nat) (a : Nat) (ls : List Nat) (old : Nat) : Nat :=
  ls.foldl (fun o l => if addr l = a then op o (b l) (v l) else o) old

/-- The reductions with their operation number, and the value they write (R133): old value, b. -/
def reduceOps : List ((At → MForm → Instr) × Nat × (Nat → Nat → Nat)) :=
  [(.raddI32, 0, fun o b => (o + b) % 2 ^ 32),
   (.raddF32, 1, fun o b => (fadd (BitVec.ofNat 32 o) (BitVec.ofNat 32 b)).toNat),
   (.raddBf16, 2, bf16Add),
   (.rmaxI32, 3, fun o b => if sint 32 b ≤ sint 32 o then o else b),
   (.rminI32, 4, fun o b => if sint 32 o ≤ sint 32 b then o else b),
   (.rmaxF32, 5, fun o b => (fmax (BitVec.ofNat 32 o) (BitVec.ofNat 32 b)).toNat),
   (.rminF32, 6, fun o b => (fmin (BitVec.ofNat 32 o) (BitVec.ofNat 32 b)).toNat),
   (.rmaxBf16, 7, bf16Max), (.rminBf16, 8, bf16Min)]

/-- Every M-format instruction with its needs and the displacement it adds to its base (R130, R132, R133). -/
def memoryOps : List ((At → MForm → Instr) × (MForm → Need) × (MForm → Int)) :=
  [(.ld, loadNeed, MForm.offset), (.ldnc, loadNeed, MForm.offset), (.st, storeNeed, MForm.offset)] ++
  atomicOps.map (fun p => (p.1, fun f => atomicNeed f p.2.2.1 p.2.2.2.1, fun _ => 0)) ++
  reduceOps.map (fun p => (p.1, fun f => reduceNeed f p.2.1, fun _ => 0))

/-! ## Events -/

/-- No trace ring runs (R427), so no counter flag writes a record to memory. -/
abbrev TraceOff (s : State) : Prop := ∀ r < 17, s.rgB (.cnt 0) (ringOff r + 0x1C) 8 = false

/-- An event counter took n more, where it does not saturate (R414). -/
def Counted (s t : State) (b : Blk) (o n : Nat) : Prop :=
  (s.rg b o).toNat + n < 0xFFFFFFFF → (t.rg b o).toNat = (s.rg b o).toNat + n

/-- A 64-bit counter took n more, modulo 2^64 (R414). -/
def Counted64 (s t : State) (b : Blk) (o n : Nat) : Prop := t.rg64 b o = (s.rg64 b o + n) % 2 ^ 64

/-- Device memory, its poison and the hosts' memory are as they were. -/
def SameMemory (s t : State) : Prop := t.mem = s.mem ∧ t.poison = s.poison ∧ t.hmem = s.hmem

/-- Every byte of device memory and of the hosts' memory is as it was; a line that left the cache may have uncovered poison (R209). -/
def SameBytes (s t : State) : Prop := t.mem = s.mem ∧ t.hmem = s.hmem ∧ ∀ w ∈ s.poison, w ∈ t.poison

/-- Device memory differs only in [a, a + n). -/
def OnlyBytes (s t : State) (a n : Nat) : Prop := ∀ x, x < a ∨ a + n ≤ x → t.byte x = s.byte x

/-- A request stands at its place, may be served, and hits there or lies in a window or in the local memory of a core that is not being reset
(R146, R185, R285); its half is not lost. -/
abbrev AtPlace (s : State) (r : Req) : Prop :=
  s.req? r.rid = some r ∧ r.remote = none ∧ s.serves r = true ∧
  (r.addr < lmemBase → (s.half (s.placeOf r.addr).1).lost = false) ∧
  (lmemBase ≤ r.addr → s.coreResets (s.placeSite r.addr) = false) ∧
  (s.extEnd ≤ r.addr ∨ s.lookup r.span.1 r.span.2 (r.kind == .write) = .hit)

/-! ## Requests of masters other than threads -/

/-- The numbers of the requests in flight differ and have all been given out. -/
abbrev Numbered (s : State) : Prop := (s.net.reqs.map (·.rid)).Nodup ∧ ∀ r ∈ s.net.reqs, r.rid < s.net.nextRid

/-- No request of a command goes to another part. -/
abbrev StaysHere (s : State) (cid : Nat) : Prop := ∀ r ∈ s.net.reqs, r.cid = cid → r.remote = none

/-- A master's reads of [a, a + n), line by line, are on their way or answered. -/
def Reads (u : State) (e : Eng) (a n : Nat) : Prop :=
  ∀ x ∈ linePieces a n, ∃ r ∈ u.net.reqs, e.owns r = true ∧ r.kind = .read ∧ r.remote = none ∧ r.addr = x.1 ∧ r.size = x.2

/-- A master's writes of bytes at a, line by line, are on their way. -/
def Writes (u : State) (e : Eng) (a : Nat) (bs : List PByte) : Prop :=
  ∀ x ∈ linePieces a bs.length, ∃ r ∈ u.net.reqs, e.owns r = true ∧ r.kind = .write ∧ r.remote = none ∧ r.addr = x.1 ∧ r.size = x.2 ∧
    r.marked.map (·.1) = ((bs.drop (x.1 - a)).take x.2).map (·.1)

/-- A master's reductions of bytes of operands at a are on their way; those of an ordered command carry the number of their first element, which
is i at a (R162). -/
def Reduces (u : State) (e : Eng) (op : Nat) (ordered : Bool) (i a : Nat) (bs : List PByte) : Prop :=
  ∀ x ∈ linePieces a bs.length, ∃ r ∈ u.net.reqs, e.owns r = true ∧ r.kind = .reduce op ∧ r.remote = none ∧ r.addr = x.1 ∧ r.size = x.2 ∧
    r.line = ((bs.drop (x.1 - a)).take x.2).map (·.1) ∧ r.red = if ordered then some (0, 0, i + (x.1 - a) / reduceSize op) else none

/-- The runs in this part that bytes fall to: address, offset of the first byte, bytes. -/
def spread : Nat → List Piece → List PByte → List (Nat × Nat × List PByte)
  | _, [], _ => []
  | o, .here a n :: ps, bs => (a, o, bs.take n) :: spread (o + n) ps (bs.drop n)
  | o, .away _ _ _ n :: ps, bs => spread (o + n) ps (bs.drop n)
  | o, _ :: ps, bs => spread o ps bs

/-- Bytes without a mark. -/
def clean (bs : List Byte) : List PByte := bs.map (fun b => (b, false))

/-- What the load of an espalier image comes to with what the espalier has read. -/
def loadNow (s : State) (site : Nat) (l : EspLoad) : Loaded :=
  s.imgLoad (fun ps => (s.imgEng site l).elim .wait (fun e => s.gather e ps)) (s.imgEng site l) l

/-- A word after contributions to it have been applied in the order given (R160, R162). -/
def applied (a : Nat) (l : List Staged) (old : Nat) : Nat :=
  l.foldl (fun v x => if x.addr = a then reduceNew x.op v x.val.toNat else v) old

/-! ## Commands of the queues -/

/-- A command may act at an event of its row: it runs, or it has been accepted, may start, and passes every check of R277. -/
abbrev Due (s : State) (cid : Nat) (c : Cmd) : Prop :=
  s.cmd? cid = some c ∧ c.part < 16 ∧
  (c.phase = .running ∨ (c.phase = .accepted ∧ s.canStart c = true ∧ s.refusal c = none))

/-- A command has come to its end with a status and a result; its end boundary and reply follow. -/
def Ended (u : State) (cid status result : Nat) : Prop :=
  ∃ k, u.cmd? cid = some k ∧ k.phase = .ending ∧ k.status = status ∧ k.result = result

/-- A command is under way. -/
def Runs (u : State) (cid : Nat) : Prop := ∃ k, u.cmd? cid = some k ∧ k.phase = .running

/-- The rows of the opcodes, and which commands each of them runs. -/
def commandRows : List ((Cmd → Bool) × (Nat → Instr)) :=
  [(isOp 0x00, .nopCommand), (isOp 0x01, .launch), (isOp 0x02, .copy), (isOp 0x03, .fill), (isOp 0x04, .transpose),
   (isOp 0x05, .reduce), (isOp 0x08, .signal), (isOp 0x09, .wait), (isOp 0x0A, .fenceCommand), (isOp 0x10, .pin),
   (isOp 0x11, .unpin), (isOp 0x12, .localize), (isOp 0x18, .ctxCreate), (isOp 0x19, .ctxAppend), (isOp 0x1A, .ctxTruncate),
   (isOp 0x1B, .ctxFree), (isOp 0x1C, .ctxQuery), (isOp 0x20, .trimSet), (isOp 0x21, .park), (isOp 0x22, .unpark),
   (isOp 0x28, .counterSnap), (isTrace 0, .traceStop), (isTrace 1, .traceStart), (isTrace 2, .traceSetRecordRing),
   (isTrace 3, .traceSetTraceRing), (isTest 1, fun i => .selftestVport i []), (isTest 2, fun i => .selftestCore i []),
   (isTest 3, fun i => .selftestMemory i []), (isOp 0x38, .partCreate), (isOp 0x39, .partDestroy), (isOp 0x3A, .partReset),
   (isOp 0x40, fun i => .fwLoad i true), (isOp 0x41, fun i => .quicksetStore i true), (isOp 0x48, .healthQuery)]

/-! ## The fabric -/

/-- A packet that a port takes: the port is up, the packet is new, in turn and for this part, and no packet of the part's own for itself
(R294, R295, R299, R303). -/
abbrev Arrives (s : State) (port : Nat) (k : FabPkt) : Prop :=
  s.portUp port = true ∧ s.seen port k = false ∧ s.gap port k = none ∧ k.dst = s.boot.cfg.deviceId ∧ ∀ x ∈ s.fab.loop, x.2 ≠ k

/-- A packet of a TYPE with n bytes of data leaves a port at once: nothing waits there before it, and the replay buffer has room (R294, R299). -/
abbrev SendsAtOnce (s : State) (j typ n : Nat) : Prop :=
  (s.fport j).waiting = [] ∧
    (roomFor (s.fport j).sentPkts (32 + (if isRequest typ then 8 else 0) + 64 * cdiv n 64)).isSome = true

/-- An answer to a packet leaves at once: its source is another part, by port j. -/
abbrev CanAnswer (s : State) (k : FabPkt) (j typ n : Nat) : Prop :=
  k.src ≠ s.boot.cfg.deviceId ∧ s.routePort k.src = some j ∧ SendsAtOnce s j typ n

/-- The rows that take packets, with the TYPE each takes (R294). -/
def packetRows : List ((Nat → FabPkt → Instr) × Nat) :=
  [(.fabricReadRequest, 1), (.fabricReadResponse, 2), (.fabricWrite, 3), (.fabricAtomic, 4), (.fabricReduction, 5),
   (.fabricAcknowledgement, 6), (.fabricRefusal, 7)]

/-- The payload of a packet with its marks (R294). -/
def payload (k : FabPkt) : List PByte := ((upTo 0 k.data.length).zip k.data).map (fun x => (x.2, nth false k.poison (x.1 / 32)))

/-- The rows of requests, their TYPE, the bytes each touches, and what it sends to the place of its bytes (R294). -/
def requestRows : List ((Nat → FabPkt → Instr) × Nat × (FabPkt → Nat) × (FabPkt → State → Eng → Prop)) :=
  [(.fabricReadRequest, 1, fun k => k.len, fun k u e => Reads u e k.addr k.len),
   (.fabricWrite, 3, fun k => k.data.length, fun k u e => Writes u e k.addr (payload k)),
   (.fabricAtomic, 4, fun k => k.len, fun k u e => ∃ r ∈ u.net.reqs, e.owns r = true ∧ r.kind = .atomic k.op ∧ r.remote = none ∧
      r.addr = k.addr ∧ r.size = k.len ∧ r.data = BitVec.ofNat 128 (ofBytes (k.data.take k.len)) ∧
      r.cmp = BitVec.ofNat 128 (ofBytes (k.data.drop k.len))),
   (.fabricReduction, 5, fun k => max k.data.length (reduceSize k.op), fun k u e => Reduces u e k.op false 0 k.addr (payload k))]

/-- Whether a partition takes remote accesses of a source: EN, FIRST and LAST of its FP_ACCEPT (R297, R304). -/
def Accepts (s : State) (k : FabPkt) : Prop :=
  (mget 0 s.fab.accepts k.dstPart).getLsbD 15 = true ∧ getF 14 0 (mget 0 s.fab.accepts k.dstPart) ≤ k.src ∧
    k.src ≤ getF 30 16 (mget 0 s.fab.accepts k.dstPart)

/-- A remote access of n bytes is carried out (R184, R297). -/
def Allowed (s : State) (k : FabPkt) (n : Nat) : Prop :=
  (∃ q, mfind s.parts k.dstPart = some q ∧ q.resetting = false) ∧ Accepts s k ∧ s.reach k.dstPart k.addr n = true

/-- A remote access of n bytes is refused with a code of R297: 2 no such partition, or it does not accept the source; 4 it is being
reset; 3 the bytes are out of its reach. -/
def RefusedWith (s : State) (k : FabPkt) (n code : Nat) : Prop :=
  (mfind s.parts k.dstPart = none ∧ code = 2) ∨
  ∃ q, mfind s.parts k.dstPart = some q ∧
    ((¬ Accepts s k ∧ code = 2) ∨ (Accepts s k ∧ q.resetting = true ∧ code = 4) ∨
     (Accepts s k ∧ q.resetting = false ∧ s.reach k.dstPart k.addr n = false ∧ code = 3))

/-- An answer of a TYPE to a packet left on the route to its source, and nothing else left. -/
def AnsweredWith (s u : State) (k : FabPkt) (typ tag : Nat) (ok : FabPkt → Prop) : Prop :=
  ∃ r : FabPkt, u.fab.out = s.fab.out ++ [(typ, r)] ∧ r.dst = k.src ∧ r.src = s.boot.cfg.deviceId ∧ r.tag = tag ∧ ok r

/-- A command has failed on a remote access with a code of R297, R301. -/
def RemoteFailed (u : State) (cid code : Nat) : Prop :=
  ∃ k, u.cmd? cid = some k ∧ k.phase = .ending ∧ k.status = 0x16 ∧ k.result = code ∧
    ∃ d, k.detail = some d ∧ d.kind = 7 ∧ d.code = code

/-! ## Bring-up -/

/-- Bring-up stands after a stage: out of reset, not stopped, STAGE n (R396, R410). -/
abbrev AtStage (s : State) (n : Nat) : Prop := s.held = false ∧ s.boot.stopped = false ∧ s.bootStage = n

/-- The part has stopped with a reason and a detail of R409: READY is 0, ALERT_N asserted, nothing runs. -/
def BootStops (u : State) (reason detail : Nat) : Prop :=
  u.boot.stopped = true ∧ u.rgF (.pwr 0) 0x040 11 8 = reason ∧ u.rgF (.pwr 0) 0x040 27 12 = detail ∧
    u.rgB (.pwr 0) 0x040 4 = false ∧ u.pins.alert = true ∧ u.cores = [] ∧ u.parts = []

/-- Bring-up has completed a stage and goes on. -/
def Completes (u : State) (n : Nat) : Prop := u.bootStage = n ∧ u.boot.stopped = false

/-- The whole part is reset (R10, R394, R395): every register but the kept fields of the thermal trip reads its reset value, nothing
is in memory, no command, core or partition is left, device time has not begun. -/
def IsReset (s u : State) : Prop :=
  (∀ b o, (∀ t < s.stacks, b.base + o ≠ (Blk.thm t).base) → u.rg b o = regReset (b.base + o)) ∧
  u.mem = [] ∧ u.poison = [] ∧ u.cmds = [] ∧ u.cores = [] ∧ u.parts = [] ∧ u.time.running = false ∧ u.time.now = 0 ∧
  u.flash.storing = none ∧ u.hmem = s.hmem ∧ u.pending = s.pending ∧ u.part = s.part

/-! ## The debug port -/

/-- The debug port may act on a core: level 2 and a token whose PARTS names its partition (R432). -/
abbrev Reached (s : State) (site : Nat) : Prop :=
  s.held = false ∧ s.dbgLevel = 2 ∧ ∃ p < 16, s.corePart site = some p ∧ s.rgB (.dbg 0) 0x000 (16 + p) = true

/-- The TAP instructions with a code of their own, and what their data register holds beside (R430). -/
def tapRows : List (Instr × Nat × (State → Nat)) :=
  [(.extest, 0x00, fun s => if s.pins.resetN then 0 else s.dbg.boundary), (.idcode, 0x02, State.idcode),
   (.clamp, 0x03, fun _ => 0), (.highz, 0x04, fun _ => 0), (.bypass, 0xFF, fun _ => 0)]

end Sys2Proof.Claims
end

