-- ==== Sys2Proof/Certificates/Slice0/Obligations.lean ====
section
/-! DEFINITION. The statements for the provers. -/

open Sys2Proof Sys2Proof.Machine Sys2Proof.Claims

/-! ## Thread instructions: arithmetic, moves, predicates -/

/-- R116, R117, R122: every two-source integer and logic instruction gives each thread whose guard passes the number that the
table of R122 states; v255 takes nothing, a uniform register the lowest thread's result; nothing else changes. -/
def Obligations.IntegerArithmetic : Prop :=
  ∀ (s : State) (w : At) (f : RForm) (c : Ctx) (ls : List Nat), Issues s w (RUse.dab.need f true) c ls →
    ∀ p ∈ integerOps, Answers (p.1 w f) s (fun t =>
      Result s t c f.ud f.d.toNat ls (fun l r => p.2 (ra c f l) (rb c f l) r))

/-- R116, R117, R122: IABS, POPC, CLZ, BREV, MOV, FABS and FNEG, and the three-source IMAD and FFMA. R122: the immediate
instructions that write D, and MOVI. -/
def Obligations.OtherArithmetic : Prop :=
  ((∀ (s : State) (w : At) (f : RForm) (c : Ctx) (ls : List Nat), Issues s w (RUse.da.need f true) c ls →
    ∀ p ∈ unaryOps, Answers (p.1 w f) s (fun t => Result s t c f.ud f.d.toNat ls (fun l r => p.2 (ra c f l) r))) ∧
  (∀ (s : State) (w : At) (f : RForm) (c : Ctx) (ls : List Nat), Issues s w (RUse.dabc.need f true) c ls →
    Answers (.imad w f) s (fun t => Result s t c f.ud f.d.toNat ls (fun l r =>
      r.toNat = ((ra c f l).toNat * (rb c f l).toNat + (rc c f l).toNat) % 2 ^ 32)) ∧
    Answers (.ffma w f) s (fun t => Result s t c f.ud f.d.toNat ls (fun l r => r = ffma (ra c f l) (rb c f l) (rc c f l))))) ∧
  ((∀ (s : State) (w : At) (f : IForm) (c : Ctx) (ls : List Nat), Issues s w (iNeed f true .reg true false) c ls →
    ∀ p ∈ immediateOps, Answers (p.1 w f) s (fun t => Result s t c f.ud f.d.toNat ls (fun l r =>
      p.2 (c.grp.reg l (regNo f.ua f.a.toNat)) f.imm r))) ∧
  (∀ (s : State) (w : At) (f : IForm) (c : Ctx) (ls : List Nat), Issues s w (iNeed f false .reg true false) c ls →
    Answers (.movi w f) s (fun t => Result s t c f.ud f.d.toNat ls (fun _ r => r = f.imm))))

/-- R121: the set-predicate instructions set p[PD] of each thread whose guard passes to what COND finds, and nothing else;
p7 takes nothing. COND 6 and 7 of an integer compare, a COND that has no meaning, and bit 3 are illegal. -/
def Obligations.SetPredicates : Prop :=
  (∀ (s : State) (w : At) (f : RForm) (c : Ctx) (ls : List Nat),
    Issues s w ((⟨.raw, .reg, .reg, .no, 1, true, true⟩ : RUse).need f (condOk f.d 6)) c ls →
    ∀ p ∈ compareOps, Answers (p.1 w f) s (fun t => PredResult s t c (pdOf f.d) ls (fun l b =>
      b = true ↔ Compares (condOf f.d) (p.2.2 (ra c f l)) (p.2.2 (rb c f l))))) ∧
  (∀ (s : State) (w : At) (f : IForm) (c : Ctx) (ls : List Nat),
    Issues s w (iNeed f true .raw (condOk f.d 6) true) c ls →
    ∀ p ∈ compareOps, Answers (p.2.1 w f) s (fun t => PredResult s t c (pdOf f.d) ls (fun l b =>
      b = true ↔ Compares (condOf f.d) (p.2.2 (c.grp.reg l (regNo f.ua f.a.toNat))) (p.2.2 f.imm)))) ∧
  (∀ (s : State) (w : At) (f : RForm) (c : Ctx) (ls : List Nat),
    Issues s w ((⟨.raw, .reg, .reg, .no, 1, true, true⟩ : RUse).need f (condOk f.d 8)) c ls →
    Answers (.fsetp w f) s (fun t => PredResult s t c (pdOf f.d) ls (fun l b =>
      b = true ↔ FpCompares (condOf f.d) (ra c f l) (rb c f l)))) ∧
  (∀ (s : State) (w : At) (f : IForm) (c : Ctx) (ls : List Nat),
    Issues s w (iNeed f true .raw (condOk f.d 8) true) c ls →
    Answers (.fsetpi w f) s (fun t => PredResult s t c (pdOf f.d) ls (fun l b =>
      b = true ↔ FpCompares (condOf f.d) (c.grp.reg l (regNo f.ua f.a.toNat)) f.imm))) ∧
  (∀ (s : State) (w : At) (f : RForm) (c : Ctx) (l : Nat), Fetches s w c →
    c.path.find? (fun l => c.grp.pred l f.pg.toNat != f.pn) = some l →
    (f.d.getLsbD 3 = true ∨ 6 ≤ condOf f.d → ∀ p ∈ compareOps, Answers (p.1 w f) s (fun t => Excepts s t c 0x01 l 0)) ∧
    (f.d.getLsbD 3 = true ∨ 8 ≤ condOf f.d → Answers (.fsetp w f) s (fun t => Excepts s t c 0x01 l 0))) ∧
  (∀ (s : State) (w : At) (f : IForm) (c : Ctx) (l : Nat), Fetches s w c →
    c.path.find? (fun l => c.grp.pred l f.pg.toNat != f.pn) = some l →
    (f.d.getLsbD 3 = true ∨ 6 ≤ condOf f.d → ∀ p ∈ compareOps, Answers (p.2.1 w f) s (fun t => Excepts s t c 0x01 l 0)) ∧
    (f.d.getLsbD 3 = true ∨ 8 ≤ condOf f.d → Answers (.fsetpi w f) s (fun t => Excepts s t c 0x01 l 0)))

/-- R122: SEL, PLOP, P2R, R2P and VOTE move values between registers and predicates. -/
def Obligations.PredicateMoves : Prop :=
  (∀ (s : State) (w : At) (f : RForm) (c : Ctx) (ls : List Nat),
    Issues s w ((⟨.reg, .reg, .reg, .pred, 1, false, false⟩ : RUse).need f true) c ls →
    Answers (.sel w f) s (fun t => Result s t c f.ud f.d.toNat ls (fun l r =>
      r = if c.grp.pred l f.c.toNat then ra c f l else rb c f l))) ∧
  (∀ (s : State) (w : At) (f : RForm) (c : Ctx) (ls : List Nat),
    Issues s w ((⟨.pred, .pred, .pred, .no, 4, false, false⟩ : RUse).need f true) c ls →
    Answers (.plop w f) s (fun t => PredResult s t c f.d.toNat ls (fun l b =>
      let x := c.grp.pred l f.a.toNat
      let y := c.grp.pred l f.b.toNat
      (f.mod.toNat = 0 → b = (x && y)) ∧ (f.mod.toNat = 1 → b = (x || y)) ∧ (f.mod.toNat = 2 → b = (x != y)) ∧
      (f.mod.toNat = 3 → b = (x && !y))))) ∧
  (∀ (s : State) (w : At) (f : RForm) (c : Ctx) (ls : List Nat),
    Issues s w ((⟨.reg, .no, .no, .no, 1, false, false⟩ : RUse).need f true) c ls →
    Answers (.p2r w f) s (fun t => Result s t c f.ud f.d.toNat ls (fun l r =>
      (∀ i < 8, r.getLsbD i = c.grp.pred l i) ∧ r.toNat < 256))) ∧
  (∀ (s : State) (w : At) (f : RForm) (c : Ctx) (ls : List Nat),
    Issues s w ((⟨.no, .reg, .no, .no, 1, true, false⟩ : RUse).need f true) c ls →
    Answers (.regToPred w f) s (fun t =>
      (∃ g, groupAt t c = some g ∧ KeptRegs c g ∧ MovedOn c g ∧
        (∀ l n, g.pred l n = if l ∈ ls ∧ n < 7 then (ra c f l).getLsbD n else c.grp.pred l n)) ∧
      (FarFromWrap s c.site → OnlyGroup s t c))) ∧
  (∀ (s : State) (w : At) (f : RForm) (c : Ctx) (ls : List Nat),
    Issues s w ((⟨.reg, .no, .no, .pred, 1, false, false⟩ : RUse).need f true) c ls →
    Answers (.vote w f) s (fun t => Result s t c f.ud f.d.toNat ls (fun _ r =>
      ∀ l < 32, r.getLsbD l = true ↔ l ∈ ls ∧ c.grp.pred l f.c.toNat = true)))

/-- R129: SHFL gives each thread whose guard passes register A of its source lane as it stood before, whatever that lane's
thread does, and its own A where the source lane lies outside 0 to 31. -/
def Obligations.LaneExchange : Prop :=
  ∀ (s : State) (w : At) (f : RForm) (c : Ctx) (ls : List Nat),
    Issues s w ((⟨.reg, .reg, .reg, .no, 4, false, true⟩ : RUse).need f true) c ls →
    Answers (.shfl w f) s (fun t => Result s t c f.ud f.d.toNat ls (fun l r =>
      let b := (rb c f l).toNat
      let m := f.mod.toNat
      ∃ k, r = ra c f k ∧ (m = 0 → k = b % 32) ∧
        (m = 1 → if b ≤ l then k + b = l else k = l) ∧
        (m = 2 → if l + b < 32 then k = l + b else k = l) ∧
        (m = 3 → k = l ^^^ (b % 32))))

/-- R128: S2R gives the special value whose number stands in A; numbers 2 and 4 latch the high word for the thread, which
numbers 3 and 5 give. -/
def Obligations.SpecialValues : Prop :=
  ∀ (s : State) (w : At) (f : RForm) (c : Ctx) (ls : List Nat),
    Issues s w ((⟨.reg, .raw, .no, .no, 1, false, false⟩ : RUse).need f (decide (f.a.toNat ≤ 8))) c ls →
    Answers (.s2r w f) s (fun t => ∃ g, groupAt t c = some g ∧ KeptPreds c g ∧
      (∀ l ∈ c.path, (g.th l).pc = c.pc + 1) ∧
      Wrote c g f.ud f.d.toNat ls (fun l r =>
        let n := f.a.toNat
        (n = 0 → r.toNat = l) ∧ (n = 1 → r.toNat = w.site) ∧
        (n = 2 → r.toNat = s.timeOf (siteStack w.site) % 2 ^ 32) ∧ (n = 3 → r = (c.grp.th l).timeHi) ∧
        (n = 4 → r = s.rg (.cntCore w.site) 0x000) ∧ (n = 5 → r = (c.grp.th l).cycHi) ∧
        (n = 6 → ∀ k < 32, r.getLsbD k = true ↔ k ∈ c.path) ∧ (n = 7 → r.toNat = c.cmd.part % 2 ^ 32) ∧
        (n = 8 → r.toNat = (c.pc + 1) % 2 ^ 32)) ∧
      (∀ l, (g.th l).timeHi = if f.a.toNat = 2 ∧ l ∈ ls then BitVec.ofNat 32 (s.timeOf (siteStack w.site) / 2 ^ 32)
        else (c.grp.th l).timeHi) ∧
      (∀ l, (g.th l).cycHi = if f.a.toNat = 4 ∧ l ∈ ls then s.rg (.cntCore w.site) 0x004 else (c.grp.th l).cycHi))

/-- R122, R123: the FP32 instructions give the value of their operation on the operands of each thread. R123, R71: with a
NaN operand every FP32 operation gives the canonical NaN 0x7FC0_0000, FMIN and FMAX as well; so do a square root of a
negative number and a sine or cosine beyond 2^16 (R122). -/
def Obligations.FloatingPoint : Prop :=
  ((∀ (s : State) (w : At) (f : RForm) (c : Ctx) (ls : List Nat), Issues s w (RUse.dab.need f true) c ls →
    ∀ p ∈ fpOps, Answers (p.1 w f) s (fun t => Result s t c f.ud f.d.toNat ls (fun l r => r = p.2 (ra c f l) (rb c f l)))) ∧
  (∀ (s : State) (w : At) (f : RForm) (c : Ctx) (ls : List Nat), Issues s w (RUse.da.need f true) c ls →
    ∀ p ∈ fpUnaryOps, Answers (p.1 w f) s (fun t => Result s t c f.ud f.d.toNat ls (fun l r => r = p.2 (ra c f l))))) ∧
  ((∀ (a b c : W32), (isNanFV (dec32 a) ∨ isNanFV (dec32 b)) →
    (∀ p ∈ fpOps, p.2 a b = 0x7FC00000#32) ∧ ffma a b c = 0x7FC00000#32 ∧ ffma c a b = 0x7FC00000#32) ∧
  (∀ a : W32, isNanFV (dec32 a) → ∀ p ∈ fpUnaryOps, p.2 a = 0x7FC00000#32) ∧
  (∀ (a : W32) (m : Nat) (e : Int), dec32 a = .fin true m e → m ≠ 0 → fsqrt a = 0x7FC00000#32) ∧
  (∀ a : W32, 0x47800000 < a.toNat % 2 ^ 31 → fsinOp a = 0x7FC00000#32 ∧ fcosOp a = 0x7FC00000#32))

/-- R42, R74, R122, R123: the conversions, with the rounding or the half or byte that MOD selects; CVTFB and CVTFH pack two
halves; CVTF8 replaces one byte of D. -/
def Obligations.Conversions : Prop :=
  (∀ p ∈ convertOps, ∀ (s : State) (w : At) (f : RForm) (c : Ctx) (ls : List Nat),
    Issues s w ((useA p.2.1).need f true) c ls →
    Answers (p.1 w f) s (fun t => Result s t c f.ud f.d.toNat ls (fun l r => r = p.2.2 f.mod.toNat (ra c f l)))) ∧
  (∀ (s : State) (w : At) (f : RForm) (c : Ctx) (ls : List Nat), Issues s w (RUse.dab.need f true) c ls →
    Answers (.cvtfb w f) s (fun t => Result s t c f.ud f.d.toNat ls (fun l r =>
      r.toNat / 65536 = toBf16 (dec32 (rb c f l)) ∧ r.toNat % 65536 = toBf16 (dec32 (ra c f l)))) ∧
    Answers (.cvtfh w f) s (fun t => Result s t c f.ud f.d.toNat ls (fun l r =>
      r.toNat / 65536 = toFp16 (dec32 (rb c f l)) ∧ r.toNat % 65536 = toFp16 (dec32 (ra c f l))))) ∧
  (∀ (s : State) (w : At) (f : RForm) (c : Ctx) (ls : List Nat), Issues s w ((useA 8).need f true) c ls →
    Answers (.cvtf8 w f) s (fun t => Result s t c f.ud f.d.toNat ls (fun l r =>
      ∀ i < 4, getF (8 * i + 7) (8 * i) r = if i = f.mod.toNat % 4 then (toFp8 (decide (4 ≤ f.mod.toNat)) (dec32 (ra c f l))).1
        else getF (8 * i + 7) (8 * i) (c.grp.reg l (regNo f.ud f.d.toNat)))))

/-- R139: the result of an instruction that only computes carries poison exactly where one of its sources does. -/
def Obligations.PoisonFollowsArithmetic : Prop :=
  ∀ (s : State) (w : At) (f : RForm) (c : Ctx) (ls : List Nat), Issues s w (RUse.dab.need f true) c ls →
    ∀ i ∈ (integerOps.map (·.1) ++ fpOps.map (·.1) ++ [Instr.cvtfb, Instr.cvtfh]), Answers (i w f) s (fun t =>
      ∃ g, groupAt t c = some g ∧
        (f.ud = false → f.d.toNat ≠ 255 → ∀ l ∈ ls, (g.rpois l f.d.toNat = true ↔
          c.grp.rpois l (regNo f.ua f.a.toNat) = true ∨ c.grp.rpois l (regNo f.ub f.b.toNat) = true)) ∧
        (f.ud = true → ∀ l, (g.rpois l (256 + f.d.toNat) = true ↔
          c.grp.rpois (ls.headD 0) (regNo f.ua f.a.toNat) = true ∨
          c.grp.rpois (ls.headD 0) (regNo f.ub f.b.toNat) = true)))

/-! ## Thread instructions: issue and control -/

/-- R99, R120: where no thread of the active path passes the guard, every thread instruction, legal or not, only moves its path to
the next index, unless a result is awaited that keeps it from issuing: no register, predicate or memory changes and no exception is
taken. -/
def Obligations.FailedGuardHasNoEffect : Prop :=
  ∀ (i : Instr) (w : At) (pg : BitVec 3) (pn : Bool) (rsv : Nat) (s : State) (c : Ctx),
    guardOf i = some (w, pg, pn, rsv) → Fetches s w c → (∀ l ∈ c.path, c.grp.pred l pg.toNat = pn) →
    (s.awaited w.site w.slot = [] → Answers i s (fun t => OnlyMoved s t c)) ∧
    (exec i s = .next s ∨ Answers i s (fun t => OnlyMoved s t c))

/-- R120, R140: with a reserved bit set, every thread instruction takes the illegal-instruction exception in the lowest
thread whose guard passes. R124, R141: an index at or beyond the end of the code takes the address-range exception
before anything else, whatever the instruction and its guard. -/
def Obligations.IssueExceptions : Prop :=
  (∀ (i : Instr) (w : At) (pg : BitVec 3) (pn : Bool) (rsv : Nat) (s : State) (c : Ctx) (l : Nat),
    guardOf i = some (w, pg, pn, rsv) → Fetches s w c → rsv ≠ 0 →
    c.path.find? (fun l => c.grp.pred l pg.toNat != pn) = some l →
    Answers i s (fun t => Excepts s t c 0x01 l 0)) ∧
  (∀ (i : Instr) (w : At) (pg : BitVec 3) (pn : Bool) (rsv : Nat) (s : State) (c : Ctx),
    guardOf i = some (w, pg, pn, rsv) → w.site < s.sites → w.slot < 64 → s.issueCtx w = some c →
    (c.grp.bpSkip = true ∨ s.halted w.site w.slot = true ∨ s.breakpoint c = none) → c.cmd.codeLen ≤ c.pc →
    Answers i s (fun t => Excepts s t c 0x04 c.low 0))

/-- R102, R108, R122, R126, R140: NOP only moves on; SPIN moves on, puts its threads into a lock wait and gives the issue to
another runnable path; TRAP takes the trap exception with its code; MERGE has no effect for threads that have no pending
divergence that merges there. R106, R127: a thread whose guard passes EXIT has exited for good while its group stays;
when every thread of the group has exited and no tile and no copy of the group is unfinished, the group's slot is freed;
when that holds of every group of the block, so is the block's slot (where no poisoned contribution of the block is buffered, which a
commit point could consume, R211). -/
def Obligations.PlainControlAndExit : Prop :=
  ((∀ (s : State) (w : At) (f : SForm) (c : Ctx) (ls : List Nat), Issues s w (plainNeed f) c ls →
    Answers (.nop w f) s (fun t => OnlyMoved s t c) ∧
    Answers (.spin w f) s (fun t => (FarFromWrap s c.site → OnlyGroup s t c) ∧ ∃ g, groupAt t c = some g ∧
      (∀ l, g.th l = { c.grp.th l with
        pc := if l ∈ c.path then c.pc + 1 else (c.grp.th l).pc
        lock := if l ∈ ls then true else (c.grp.th l).lock }) ∧
      KeptRegs c g ∧ g.count = 0 ∧
      ((∃ k < 32, (c.grp.th k).wait = .run ∧ (c.grp.th k).pc ≠ c.pc ∧ (c.grp.th k).pc ≠ c.pc + 1) → g.act ≠ some c.low)) ∧
    ((∀ l ∈ ls, ∀ d v, (c.grp.th l).divs.head? = some d → mfind c.grp.divs d = some v → v.merge ≠ c.pc) →
      Answers (.merge w f) s (fun t => OnlyMoved s t c))) ∧
  (∀ (s : State) (w : At) (f : SForm) (c : Ctx) (ls : List Nat),
    Issues s w (sNeed f false (decide (f.mod = 0)) (decide (f.imm.toNat < 256)) false) c ls →
    Answers (.trap w f) s (fun t => Excepts s t c 0x0D (ls.headD 0) f.imm.toNat))) ∧
  (∀ (s : State) (w : At) (f : SForm) (c : Ctx) (ls : List Nat), Issues s w (plainNeed f) c ls → CleanCommits c →
    ((∃ k, (c.grp.th k).wait ≠ .exited ∧ k ∉ ls) →
      Answers (.exit w f) s (fun t => ∃ g, groupAt t c = some g ∧ KeptRegs c g ∧ ∀ l ∈ ls, (g.th l).wait = .exited)) ∧
    ((∀ k, (c.grp.th k).wait = .exited ∨ k ∈ ls) →
      (∀ x ∈ c.core.arr.tiles, x.group ≠ c.slot) → (∀ j ∈ c.core.dma, j.group ≠ c.slot) →
      Answers (.exit w f) s (fun t => groupAt t c = none ∧
        ((∀ e ∈ c.core.groups, e.2.blk = c.grp.blk → e.1 = c.slot) →
          mfind (t.core c.site).blocks c.grp.blk = none))))

/-- R125: a branch that leaves one path moves every thread whose guard passes to its target and the others to the next
index: BRA to the index plus TARGET, BRX to the index in each thread's own register. R102, R103, R125: a branch that
leaves more than one path diverges at the MERGE instruction that MERGE names: every thread of the path then has that
divergence pending, innermost, and the path that holds the lowest thread goes on; without such a MERGE instruction the
branch takes the divergent-branch exception. R102, R103, R126: threads that reach the merge point of their innermost
divergence wait there; when every thread that diverged has reached it or exited, they rejoin behind it with that
divergence no longer pending, but for threads whose next divergence merges there too. -/
def Obligations.BranchesAndMerges : Prop :=
  ((∀ (s : State) (w : At) (f : BForm) (c : Ctx) (ls : List Nat) (n : Nat),
    Issues s w ⟨f.pg, f.pn, decide (f.rsv = 0), [], []⟩ c ls →
    (∀ l ∈ c.path, ((if l ∈ ls then (c.pc : Int) + f.target.toInt else (c.pc : Int) + 1) = (n : Int))) → n < 2 ^ 64 →
    Answers (.bra w f) s (fun t => (FarFromWrap s c.site → OnlyGroup s t c) ∧
      ∃ g, groupAt t c = some g ∧ Jumped c g (fun _ => n))) ∧
  (∀ (s : State) (w : At) (f : BForm) (c : Ctx) (ls : List Nat) (n : Nat),
    Issues s w ⟨f.pg, f.pn, decide (f.rsv = 0) && decide (f.target.toNat < 256), [f.target.toNat % 256], [f.target.toNat % 256]⟩ c ls →
    (∀ l ∈ c.path, (if l ∈ ls then (c.grp.reg l f.target.toNat).toNat else c.pc + 1) = n) →
    Answers (.brx w f) s (fun t => (FarFromWrap s c.site → OnlyGroup s t c) ∧
      ∃ g, groupAt t c = some g ∧ Jumped c g (fun _ => n)))) ∧
  (∀ (s : State) (w : At) (f : BForm) (c : Ctx) (ls : List Nat) (mi : Nat) (next : Nat → Nat) (i : At → BForm → Instr),
    ((i = .bra ∧ Issues s w ⟨f.pg, f.pn, decide (f.rsv = 0), [], []⟩ c ls ∧
        ∀ l ∈ ls, ((c.pc : Int) + f.target.toInt = (next l : Int))) ∨
     (i = .brx ∧ Issues s w ⟨f.pg, f.pn, decide (f.rsv = 0) && decide (f.target.toNat < 256),
        [f.target.toNat % 256], [f.target.toNat % 256]⟩ c ls ∧
        ∀ l ∈ ls, (c.grp.reg l f.target.toNat).toNat = next l)) →
    (∀ l, next l < 2 ^ 64) → (∀ l ∈ c.path, l ∉ ls → next l = c.pc + 1) →
    (∃ l ∈ c.path, ∃ k ∈ c.path, next l ≠ next k) → ((c.pc : Int) + f.merge.toInt = (mi : Int)) → mi < 2 ^ 64 →
    ((f.merge ≠ 0 ∧ mi < c.cmd.codeLen ∧ c.cmd.opAt mi = 0x03) →
      Answers (i w f) s (fun t => (FarFromWrap s c.site → OnlyGroup s t c) ∧ ∃ g, groupAt t c = some g ∧
        (∀ l, g.th l = { c.grp.th l with
          pc := if l ∈ c.path then next l else (c.grp.th l).pc
          divs := if l ∈ c.path then c.grp.nextDiv :: (c.grp.th l).divs else (c.grp.th l).divs }) ∧
        KeptRegs c g ∧ mfind g.divs c.grp.nextDiv = some ⟨mi, c.path⟩ ∧ g.nextDiv = c.grp.nextDiv + 1 ∧
        g.act = some c.low ∧ g.count = 0)) ∧
    ((f.merge = 0 ∨ c.cmd.codeLen ≤ mi ∨ c.cmd.opAt mi ≠ 0x03) →
      Answers (i w f) s (fun t => Excepts s t c 0x07 (ls.headD 0) 0))) ∧
  (∀ (s : State) (w : At) (f : SForm) (c : Ctx) (ls : List Nat) (d : Nat) (v : Div),
    Issues s w (plainNeed f) c ls →
    mfind c.grp.divs d = some v → v.merge = c.pc →
    (∃ l ∈ ls, (c.grp.th l).divs.head? = some d) →
    ((∃ l ∈ v.members, (c.grp.th l).wait ≠ .exited ∧ ¬ ((c.grp.th l).wait = .merge ∧ (c.grp.th l).divs.head? = some d) ∧
        ¬ (l ∈ ls ∧ (c.grp.th l).divs.head? = some d)) →
      Answers (.merge w f) s (fun t => ∃ g, groupAt t c = some g ∧ KeptRegs c g ∧
        ∀ l ∈ ls, (c.grp.th l).divs.head? = some d → (g.th l).wait = .merge ∧ (g.th l).pc = c.pc)) ∧
    ((∀ l ∈ v.members, (c.grp.th l).wait = .exited ∨
        ((c.grp.th l).wait = .merge ∧ (c.grp.th l).divs.head? = some d) ∨
        (l ∈ ls ∧ (c.grp.th l).divs.head? = some d)) →
      Answers (.merge w f) s (fun t => ∃ g, groupAt t c = some g ∧ KeptRegs c g ∧
        ∀ l ∈ v.members, l < 32 → (c.grp.th l).wait ≠ .exited →
          (∀ d' v', ((c.grp.th l).divs.drop 1).head? = some d' → mfind c.grp.divs d' = some v' → v'.merge ≠ c.pc) →
          (g.th l).wait = .run ∧ (g.th l).pc = c.pc + 1 ∧ (g.th l).divs = (c.grp.th l).divs.drop 1)))

/-- R104, R106, R134: BARG with one mask for all its threads, each inside it: once every thread that the mask names has
arrived or exited, all of them go on behind the barrier; until then the threads wait there. A thread outside its own
mask, or whose mask differs from that of the barrier under way, takes the barrier-mask exception. R105, R106, R134: BARB
waits at block barrier IMM[1:0] until every thread of the block waits there or has exited; then all go on. -/
def Obligations.Barriers : Prop :=
  (∀ (s : State) (w : At) (f : SForm) (c : Ctx) (ls : List Nat) (m : W32) (mask : Nat → W32),
    Issues s w (sNeed f (decide (f.mod = 1)) (decide (f.mod.toNat ≤ 1)) (!decide (f.mod = 1) || decide (f.imm = 0))
      (decide (f.mod = 1))) c ls →
    (∀ l, mask l = if f.mod = 1 then c.grp.reg l (regNo f.ua f.a.toNat) else f.imm) →
    (m = match c.grp.barMask with | some x => x | none => mask (ls.headD 0)) →
    ((∀ l ∈ ls, mask l = m ∧ m.getLsbD l = true) →
      (∃ k < 32, m.getLsbD k = true ∧ k ∉ ls ∧ (c.grp.th k).wait ≠ .exited ∧ (c.grp.th k).wait ≠ .barG) →
      Answers (.barg w f) s (fun t => ∃ g, groupAt t c = some g ∧ KeptRegs c g ∧ g.barMask = some m ∧
        ∀ l ∈ ls, (g.th l).wait = .barG ∧ (g.th l).pc = c.pc + 1)) ∧
    ((∀ l ∈ ls, mask l = m ∧ m.getLsbD l = true) →
      (∀ k < 32, m.getLsbD k = true → k ∈ ls ∨ (c.grp.th k).wait = .exited ∨ (c.grp.th k).wait = .barG) →
      Answers (.barg w f) s (fun t => ∃ g, groupAt t c = some g ∧ KeptRegs c g ∧ g.barMask = none ∧
        ∀ l < 32, l ∈ ls ∨ (c.grp.th l).wait = .barG → (g.th l).wait = .run ∧
          (g.th l).pc = if l ∈ ls then c.pc + 1 else (c.grp.th l).pc)) ∧
    (∀ l, ls.find? (fun l => !(mask l).getLsbD l || mask l != m) = some l →
      Answers (.barg w f) s (fun t => Excepts s t c 0x06 l 0))) ∧
  (∀ (s : State) (w : At) (f : SForm) (c : Ctx) (ls : List Nat),
    Issues s w (sNeed f false (decide (f.mod = 0)) (decide (f.imm.toNat < 4)) false) c ls → CleanCommits c →
    (((∃ k < 32, k ∉ ls ∧ (c.grp.th k).wait ≠ .exited ∧ (c.grp.th k).wait ≠ .barB f.imm.toNat) ∨
      (∃ e ∈ c.core.groups, e.1 ≠ c.slot ∧ e.2.blk = c.grp.blk ∧
        ∃ x ∈ e.2.threads, x.wait ≠ .exited ∧ x.wait ≠ .barB f.imm.toNat)) →
      Answers (.barb w f) s (fun t => ∃ g, groupAt t c = some g ∧ KeptRegs c g ∧
        ∀ l ∈ ls, (g.th l).wait = .barB f.imm.toNat ∧ (g.th l).pc = c.pc + 1)) ∧
    ((∀ k, k ∈ ls ∨ (c.grp.th k).wait = .exited ∨ (c.grp.th k).wait = .barB f.imm.toNat) →
      (∀ e ∈ c.core.groups, e.1 ≠ c.slot → e.2.blk = c.grp.blk →
        ∀ x ∈ e.2.threads, x.wait = .exited ∨ x.wait = .barB f.imm.toNat) →
      Answers (.barb w f) s (fun t => ∃ g, groupAt t c = some g ∧ KeptRegs c g ∧
        (∀ l ∈ ls, (g.th l).wait = .run ∧ (g.th l).pc = c.pc + 1) ∧
        (∀ e ∈ (t.core c.site).groups, e.2.blk = c.grp.blk → ∀ x ∈ e.2.threads, x.wait = .exited ∨ x.wait = .run))))

/-- R131, R135: FENCE of scope 0 only moves on. Of scope 1 or 2, with no reduction of the block buffered and, for the threads
whose guard passes, nothing that the scope names still to be performed, it moves on with the core's L1 empty and loads in
flight not to fill it; with something still to be performed the group does not issue. -/
def Obligations.FenceScopes : Prop :=
  ∀ (s : State) (w : At) (f : SForm) (c : Ctx) (ls : List Nat),
    Issues s w (sNeed f false (decide (f.mod.toNat ≤ 2)) (decide (f.imm = 0)) false) c ls →
    (f.mod = 0 → Answers (.fence w f) s (fun t => OnlyMoved s t c)) ∧
    (f.mod ≠ 0 → (∀ x ∈ c.core.commit, x.blk ≠ c.grp.blk) →
      (s.unperformed c ls = false ∧ (f.mod = 2 → c.working = false) →
        Answers (.fence w f) s (fun t => (t.core c.site).l1 = [] ∧
          (∀ r ∈ t.net.reqs, r.site = c.site → r.fillL1 = true → r.dropFill = true) ∧
          (FarFromWrap s c.site → t.mem = s.mem) ∧
          ∃ g, groupAt t c = some g ∧ KeptRegs c g ∧ KeptPreds c g ∧ MovedOn c g)) ∧
      (s.unperformed c ls = true ∨ (f.mod = 2 ∧ c.working = true) → exec (.fence w f) s = .next s))

/-! ## Thread instructions: memory -/

/-- R130, R139, R141: with no poison consumed, a memory instruction one of whose threads has a misaligned address takes the
misaligned exception in the lowest such thread; else, with an address out of its space, the address-range exception;
else, with a bad context position, the context-range exception. R130: the effective address of each space: what is
misaligned, what lies out of the space, and the device address (R182, R181) that a good one names. -/
def Obligations.AddressesAndTheirExceptions : Prop :=
  (∀ p ∈ memoryOps, ∀ (s : State) (w : At) (f : MForm) (c : Ctx) (ls : List Nat) (l code : Nat),
    Issues s w (p.2.1 f) c ls → (∀ k ∈ ls, laneEa s c f (p.2.2 f) k ≠ .eat) → code ∈ [3, 4, 5] →
    ls.find? (fun k => laneEa s c f (p.2.2 f) k == .exc code) = some l →
    (∀ x, 3 ≤ x → x < code → ∀ k ∈ ls, laneEa s c f (p.2.2 f) k ≠ .exc x) →
    Answers (p.1 w f) s (fun t => Excepts s t c code l 0)) ∧
  (∀ (s : State) (c : Ctx) (f : MForm) (off : Int) (l : Nat),
    let n : Nat := f.bytes
    let lo : Int := (c.grp.reg l (regNo f.ua f.a.toNat)).toNat
    let hi : Int := (c.grp.reg l (regNo f.ua f.a.toNat + 1)).toNat
    let win : Nat := s.winSize (siteHalf c.site) (siteSlice c.site) * 0x100000
    let flat : Int := ((lo + hi % 65536 * 2 ^ 32) + off) % 2 ^ 48
    (f.space = 0 → laneEa s c f off l =
      if (lo + off) % n ≠ 0 then .exc 3
      else if lo + off < 0 ∨ (c.blk.lmemUnits * 4096 : Nat) < lo + off + n then .exc 4
      else .ok (0xF10000000000 + c.site * 0x80000 + c.blk.lmemBase * 4096 + (lo + off).toNat) (lo + off).toNat none) ∧
    (f.space = 1 → laneEa s c f off l =
      if (lo + off) % n ≠ 0 then .exc 3
      else if lo + off < 0 ∨ (win : Int) < lo + off + n ∨ s.winPart (siteHalf c.site) (siteSlice c.site) ≠ c.cmd.part then .exc 4
      else .ok (0xF00000000000 + c.site * 0x400000 + (lo + off).toNat) (lo + off).toNat none) ∧
    (f.space = 2 → laneEa s c f off l =
      if flat % n ≠ 0 then .exc 3
      else if 65536 ≤ hi ∨ s.reach c.cmd.part flat.toNat n = false then .exc 4 else .ok flat.toNat flat.toNat none) ∧
    (f.space = 3 → ((hi + off) % n ≠ 0 → laneEa s c f off l = .exc 3) ∧
      ((hi + off) % n = 0 → hi + off < 0 → laneEa s c f off l = .exc 5)))

/-- R118, R130, R210: a load from local memory gives each thread its datum, extended as SX says, with the poison of the
words it touches, and moves on; memory is unchanged. R130, R131: a load whose lines the core's L1 holds takes its data
from them and sends nothing; any other load of a window or of device memory, and every LDNC, sends one read per thread,
and the group moves on without the data. -/
def Obligations.Loads : Prop :=
  (∀ i ∈ [Instr.ld, Instr.ldnc], ∀ (s : State) (w : At) (f : MForm) (c : Ctx) (ls : List Nat) (addr : Nat → Nat),
    Issues s w (loadNeed f) c ls → f.space = 0 → Reaches s c f f.offset ls addr →
    Answers (i w f) s (fun t =>
      (∃ g, groupAt t c = some g ∧ KeptPreds c g ∧ MovedOn c g ∧
        WroteWords c g f.ud f.d.toNat (words f.bytes) ls (fun l j r p =>
          LoadedWord f.bytes f.sx (s.num (addr l) f.bytes) j r ∧ p = s.poisoned (addr l) f.bytes)) ∧
      (FarLocal s c.site → t = { s with cores := t.cores, regs := t.regs, net := t.net } ∧ SameNet s t ∧
        (∀ j, j ≠ c.site → t.core j = s.core j) ∧
        ∀ j, j ≠ c.slot → mfind (t.core c.site).groups j = mfind (s.core c.site).groups j))) ∧
  ((∀ (s : State) (w : At) (f : MForm) (c : Ctx) (ls : List Nat) (addr : Nat → Nat) (line : Nat → L1Line),
    Issues s w (loadNeed f) c ls → f.space = 2 → Reaches s c f f.offset ls addr →
    (∀ l ∈ ls, addr l < s.extEnd ∧ segmentIn c.cmd.segs c.cmd.part (addr l) = none ∧
      (s.core c.site).l1Line (addr l) = some (line l)) →
    Answers (.ld w f) s (fun t => t.net.reqs = s.net.reqs ∧ ∃ g, groupAt t c = some g ∧ KeptPreds c g ∧ MovedOn c g ∧
      WroteWords c g f.ud f.d.toNat (words f.bytes) ls (fun l j r p =>
        LoadedWord f.bytes f.sx (ofBytes (((line l).bytes.drop (addr l % 128)).take f.bytes)) j r ∧
        p = nth false (line l).pois (addr l % 128 / 32)))) ∧
  (∀ i ∈ [Instr.ld, Instr.ldnc], ∀ (s : State) (w : At) (f : MForm) (c : Ctx) (ls : List Nat) (addr : Nat → Nat),
    Issues s w (loadNeed f) c ls → f.space ≠ 0 → Reaches s c f f.offset ls addr →
    s.tagsFor c ls.length (if i w f = .ld w f ∧ f.space = 2 then 128 else f.bytes) = true →
    (∀ l ∈ ls, segmentIn c.cmd.segs c.cmd.part (addr l) = none) →
    (i w f = .ld w f → f.space = 2 → ∀ l ∈ ls, (s.core c.site).l1Line (addr l) = none) →
    Answers (i w f) s (fun t =>
      (∃ g, groupAt t c = some g ∧ KeptRegs c g ∧ KeptPreds c g ∧ MovedOn c g) ∧
      ∀ l ∈ ls, Sent t c l .read (addr l) f.bytes (fun r =>
        r.dest = (if f.ud = true ∧ l ≠ ls.headD 0 then none else some f.d.toNat) ∧ r.uni = f.ud ∧ r.sx = f.sx ∧
        (r.fillL1 = true ↔ i w f = .ld w f ∧ f.space = 2 ∧ addr l < s.extEnd)))))

/-- R130, R131, R186, R210: a store to local memory is performed as it issues, in lane order: each address then holds the
datum of the highest lane that stores there, every other byte is as it was, and no register changes. R130, R131: a store
to a window or to device memory leaves memory as it is and sends one write per thread with the thread's datum; in the
core's L1 a line that is present takes the datum at once. Over a reduction of its thread that waits in the commit buffer it first brings
its block to a commit point (log entry 142: the model's choice). -/
def Obligations.Stores : Prop :=
  (∀ (s : State) (w : At) (f : MForm) (c : Ctx) (ls : List Nat) (addr : Nat → Nat),
    Issues s w (storeNeed f) c ls → f.space = 0 → Reaches s c f f.offset ls addr → FarLocal s c.site →
    Answers (.st w f) s (fun t =>
      (∃ g, groupAt t c = some g ∧ KeptRegs c g ∧ KeptPreds c g ∧ ∀ l ∈ c.path, (g.th l).pc = c.pc + 1) ∧
      (∀ l ∈ ls, (∀ k ∈ ls, l < k → addr k ≠ addr l) → t.num (addr l) f.bytes = held c l (regNo f.ud f.d.toNat) f.bytes) ∧
      (∀ a, Outside ls addr f.bytes a → t.byte a = s.byte a) ∧ t.hmem = s.hmem ∧ SameNet s t)) ∧
  (∀ (s : State) (w : At) (f : MForm) (c : Ctx) (ls : List Nat) (addr : Nat → Nat),
    Issues s w (storeNeed f) c ls → f.space ≠ 0 → Reaches s c f f.offset ls addr →
    (CleanCommits c → ¬ NoneBuffered c ls addr f.bytes → Answers (.st w f) s (fun t =>
      (∀ x ∈ (t.core c.site).commit, x.blk ≠ c.grp.blk) ∧ groupAt t c = some c.grp)) ∧
    (NoneBuffered c ls addr f.bytes → s.tagsFor c ls.length f.bytes = true →
    (∀ l ∈ ls, segmentIn c.cmd.segs c.cmd.part (addr l) = none) →
    Answers (.st w f) s (fun t =>
      (∃ g, groupAt t c = some g ∧ KeptRegs c g ∧ KeptPreds c g ∧ MovedOn c g) ∧ (FarSend s c.site → t.mem = s.mem) ∧
      (∀ l ∈ ls, Sent t c l .write (addr l) f.bytes (fun r => r.data.toNat = held c l (regNo f.ud f.d.toNat) f.bytes)) ∧
      (f.space = 2 → (∀ x ∈ c.core.l1, x.bytes.length = 128) →
        ∀ l ∈ ls, (∀ k ∈ ls, l < k → addr k ≠ addr l) → ∀ x ∈ (t.core c.site).l1, x.line = addr l / 128 →
          ofBytes ((x.bytes.drop (addr l % 128)).take f.bytes) = held c l (regNo f.ud f.d.toNat) f.bytes))))

/-- R132, R139: an atomic on local memory is performed as it issues, lane by lane in order; with RET each thread receives
the word as it stood when its lane's turn came. Every other byte of memory is as it was. R131, R132: an atomic on a
window or on device memory sends one request per thread with its opcode and operands, changes no register, and takes the
matching line out of the core's L1. -/
def Obligations.Atomics : Prop :=
  (∀ p ∈ atomicOps, ∀ (s : State) (w : At) (f : MForm) (c : Ctx) (ls : List Nat) (addr : Nat → Nat),
    Issues s w (atomicNeed f p.2.2.1 p.2.2.2.1) c ls → f.space = 0 → Reaches s c f 0 ls addr → FarLocal s c.site →
    (∀ l ∈ ls, s.poisoned (addr l) f.bytes = false) →
    Answers (p.1 w f) s (fun t =>
      let b (l : Nat) : Nat := held c l f.b f.bytes
      let v (l : Nat) : Nat := held c l f.c f.bytes
      (∀ l ∈ ls, t.num (addr l) f.bytes =
        combined (p.2.2.2.2 f.bytes) addr b v (addr l) ls (s.num (addr l) f.bytes)) ∧
      (∀ a, Outside ls addr f.bytes a → t.byte a = s.byte a) ∧
      ∃ g, groupAt t c = some g ∧ KeptPreds c g ∧ (∀ l ∈ c.path, (g.th l).pc = c.pc + 1) ∧
        (f.sx = false → KeptRegs c g) ∧
        (f.sx = true → WroteWords c g f.ud f.d.toNat (words f.bytes) ls (fun l j r q =>
          r.toNat = combined (p.2.2.2.2 f.bytes) addr b v (addr l) (ls.takeWhile (fun k => k != l))
            (s.num (addr l) f.bytes) / 2 ^ (32 * j) % 2 ^ 32 ∧ q = false)))) ∧
  (∀ p ∈ atomicOps, ∀ (s : State) (w : At) (f : MForm) (c : Ctx) (ls : List Nat) (addr : Nat → Nat),
    Issues s w (atomicNeed f p.2.2.1 p.2.2.2.1) c ls → f.space ≠ 0 → Reaches s c f 0 ls addr →
    NoneBuffered c ls addr f.bytes → s.tagsFor c ls.length f.bytes = true →
    (∀ l ∈ ls, segmentIn c.cmd.segs c.cmd.part (addr l) = none) →
    Answers (p.1 w f) s (fun t =>
      (∃ g, groupAt t c = some g ∧ KeptRegs c g ∧ KeptPreds c g ∧ MovedOn c g) ∧
      (∀ l ∈ ls, Sent t c l (.atomic p.2.1) (addr l) f.bytes (fun r =>
        r.data.toNat = held c l f.b f.bytes ∧ (p.2.2.1 = true → r.cmp.toNat = held c l f.c f.bytes) ∧
        r.dest = (if f.sx = true ∧ ¬ (f.ud = true ∧ l ≠ ls.headD 0) then some f.d.toNat else none))) ∧
      (f.space = 2 → ∀ l ∈ ls, (t.core c.site).l1Line (addr l) = none)))

/-- R133, R383: a reduction counts for its thread and changes no register. Below the thread's committed count it does nothing
more; else, unless the command is NO_REPLAY or ORDERED, it waits in the core's commit buffer; for such a command it is sent at
once. -/
def Obligations.Reductions : Prop :=
  ∀ p ∈ reduceOps, ∀ (s : State) (w : At) (f : MForm) (c : Ctx) (ls : List Nat) (addr : Nat → Nat),
    Issues s w (reduceNeed f p.2.1) c ls → Reaches s c f 0 ls addr → s.tagsFor c ls.length f.bytes = true →
    (c.cmd.flag 8 = false → c.cmd.flag 9 = false → c.core.commit.length + ls.length ≤ 4096 →
      Answers (p.1 w f) s (fun t =>
        (t.core c.site).commit = c.core.commit ++
          (ls.filter (fun l => decide (mget 0 c.blk.commits (c.grp.idx * 32 + l) ≤ (c.grp.th l).nred))).map (fun l =>
            ⟨c.grp.blk, c.grp.idx * 32 + l, (c.grp.th l).nred, c.pc, p.2.1, addr l, c.grp.reg l f.b, c.grp.rpois l f.b⟩) ∧
        SameReqs s t ∧ (FarFromWrap s c.site → t.mem = s.mem) ∧
        ∃ g, groupAt t c = some g ∧ KeptRegs c g ∧ ∀ l, (g.th l).nred = (c.grp.th l).nred + (if l ∈ ls then 1 else 0) ∧
          (l ∈ c.path → (g.th l).pc = c.pc + 1))) ∧
    ((c.cmd.flag 8 = true ∨ c.cmd.flag 9 = true) →
      (∀ l ∈ ls, segmentIn c.cmd.segs c.cmd.part (addr l) = none ∧
        mget 0 c.blk.commits (c.grp.idx * 32 + l) ≤ (c.grp.th l).nred) →
      Answers (p.1 w f) s (fun t =>
        (∃ g, groupAt t c = some g ∧ KeptRegs c g ∧ ∀ l ∈ c.path, (g.th l).pc = c.pc + 1) ∧
        ∀ l ∈ ls, Sent t c l (.reduce p.2.1) (addr l) f.bytes (fun r =>
          r.data.toNat = (c.grp.reg l f.b).toNat ∧ r.pois = c.grp.rpois l f.b ∧
          r.red = if c.cmd.flag 9 then some (c.blk.lin, c.grp.idx * 32 + l, (c.grp.th l).nred) else none)))

/-! ## Thread instructions: tiles, images, copies -/

/-- R50, R55, R56, R79, R99, R136, R449: with both queue places full nothing issues; with a place in the queue a descriptor that
passes every check becomes the core's last tile,
bound to the active image if it uses one and locked where an input meets the output of an earlier tile; a descriptor that
fails takes the exception of the first failing check, recorded in ARR_FAULT while that holds nothing. -/
def Obligations.TileIsQueuedOrRefused : Prop :=
  ∀ (s : State) (w : At) (f : TForm) (c : Ctx) (ls : List Nat) (d : TileDesc) (img : Option (List Byte)) (e : Eng),
    Issues s w (tNeed f 8 8 (decide (f.mod = 0)) (decide (f.imm = 0))) c ls →
    d = tileDescOf (fun i => mget 0 c.grp.uregs (f.ubase.toNat + i)) → img = c.core.image c.core.esp.active →
    e = engOf c.site 65 0 c.blk c.cmd c.pc →
    (∀ x ∈ [d.act, d.wgt], x.space = 3 → s.poisoned (s.descAddr (x.addr / 2 ^ 28)) 64 = false) →
    (formatFault d img = none → s.addrFault e d img = none → overlapFault d img = none →
      c.core.arr.live.length < 3 → c.skipStrips d = 0 →
      Answers (.tile w f) s (fun t =>
        (∃ g, groupAt t c = some g ∧ KeptRegs c g ∧ KeptPreds c g ∧ ∀ l ∈ c.path, (g.th l).pc = c.pc + 1) ∧
        ∃ x, (t.core c.site).arr.tiles = c.core.arr.tiles ++ [x] ∧ x.desc = d ∧ x.group = c.slot ∧ x.blk = c.grp.blk ∧
          x.cid = c.blk.cid ∧ x.image = (if d.esp then c.core.esp.active else none) ∧ x.started = 0 ∧ x.woDone = 0 ∧
          (x.interlock = false ↔ c.core.locked c.core.arr.tiles c.grp.blk d = true))) ∧
    (3 ≤ c.core.arr.live.length → exec (.tile w f) s = .next s) ∧
    (∀ k code detail, c.core.arr.live.length < 3 →
        (k = 1 ∧ code = 0x08 ∧ formatFault d img = some detail) ∨
        (k = 2 ∧ code = 0x09 ∧ formatFault d img = none ∧ s.addrFault e d img = some detail) ∨
        (k = 3 ∧ code = 0x0A ∧ formatFault d img = none ∧ s.addrFault e d img = none ∧ overlapFault d img = some detail) →
      Answers (.tile w f) s (fun t =>
        Named t c ⟨1, code, c.site, c.slot, c.grp.blk, ls.headD 0, c.pc, 0xFF, 0, s.timeOf (siteStack c.site)⟩ ∧
        (t.core c.site).arr.tiles = c.core.arr.tiles ∧
        (s.rgB (.arr c.site) 0x008 0 = false → FarFromWrap s c.site →
          (s.rg (.arr c.site) 0x064).toNat + 1 < 0xFFFFFFFF →
          t.rgB (.arr c.site) 0x008 0 = true ∧ t.rgF (.arr c.site) 0x008 3 1 = k ∧
          t.rgF (.arr c.site) 0x008 31 16 = detail)))

/-- R136, R138: TWAIT moves on when no more of its group's tiles are unfinished than its immediate allows, DWAIT of its
group's copies; else the group does not issue. R78, R137, R138: ESPLD asks for an image load at the address its uniform
registers give, and its group waits for it; DMA starts the copy that its descriptor describes; a fifth copy of a group
waits. -/
def Obligations.CopiesLoadsAndTheirWaits : Prop :=
  ((∀ (s : State) (w : At) (f : TForm) (c : Ctx) (ls : List Nat),
    Issues s w (tNeed f 0 1 (decide (f.mod = 0)) (decide (f.imm.toNat < 4))) c ls → CleanCommits c →
    ((c.core.arr.tiles.filter (fun t => t.group == c.slot)).length ≤ f.imm.toNat →
      Answers (.twait w f) s (fun t => ∃ g, groupAt t c = some g ∧ KeptRegs c g ∧ KeptPreds c g ∧ MovedOn c g)) ∧
    (f.imm.toNat < (c.core.arr.tiles.filter (fun t => t.group == c.slot)).length → exec (.twait w f) s = .next s)) ∧
  (∀ (s : State) (w : At) (f : TForm) (c : Ctx) (ls : List Nat),
    Issues s w (tNeed f 0 1 (decide (f.mod = 0)) (decide (f.imm.toNat < 8))) c ls → CleanCommits c →
    ((c.core.dma.filter (fun j => j.group == c.slot)).length ≤ f.imm.toNat →
      Answers (.dwait w f) s (fun t => ∃ g, groupAt t c = some g ∧ KeptRegs c g ∧ KeptPreds c g ∧ MovedOn c g)) ∧
    (f.imm.toNat < (c.core.dma.filter (fun j => j.group == c.slot)).length → exec (.dwait w f) s = .next s))) ∧
  ((∀ (s : State) (w : At) (f : TForm) (c : Ctx) (ls : List Nat),
    Issues s w (tNeed f 2 2 (decide (f.mod.toNat ≤ 2)) (decide (f.imm = 0))) c ls →
    Answers (.espld w f) s (fun t =>
      (∃ g, groupAt t c = some g ∧ KeptRegs c g ∧ g.espWait = true ∧ ∀ l ∈ c.path, (g.th l).pc = c.pc + 1) ∧
      ∃ x ∈ (t.core c.site).esp.load.toList ++ (t.core c.site).esp.waiting, x.group = some c.slot ∧
        x.space = f.mod.toNat ∧ x.addr = (mget 0 c.grp.uregs f.ubase.toNat).toNat +
          2 ^ 32 * ((mget 0 c.grp.uregs (f.ubase.toNat + 1)).toNat % 65536))) ∧
  (∀ (s : State) (w : At) (f : TForm) (c : Ctx) (ls : List Nat) (u : Nat → W32),
    Issues s w (tNeed f 8 8 (decide (f.mod = 0)) (decide (f.imm = 0))) c ls →
    (∀ i, u i = mget 0 c.grp.uregs (f.ubase.toNat + i)) →
    dmaBad (locOf (u 0) (u 1)) (locOf (u 2) (u 3)) (u 4).toNat (u 5 ||| u 6 ||| u 7) = false →
    (∀ x ∈ [locOf (u 0) (u 1), locOf (u 2) (u 3)], ∀ q ∈ s.pieces (engOf c.site 69 c.core.nextDma c.blk c.cmd c.pc)
      x.space x.addr (u 4).toNat, q ≠ .eat ∧ ∀ code, q ≠ .bad code) →
    ((c.core.dma.filter (fun j => j.group == c.slot)).length < 4 →
      Answers (.dma w f) s (fun t =>
        (∃ g, groupAt t c = some g ∧ KeptRegs c g ∧ KeptPreds c g ∧ MovedOn c g) ∧ SameNet s t ∧
        (t.core c.site).dma = c.core.dma ++ [⟨c.core.nextDma, c.slot, c.grp.blk, c.blk.cid, ls.headD 0, c.pc,
          locOf (u 0) (u 1), locOf (u 2) (u 3), (u 4).toNat⟩])) ∧
    (4 ≤ (c.core.dma.filter (fun j => j.group == c.slot)).length → exec (.dma w f) s = .next s)))

/-! ## The array -/

/-- R26, R28, R52 to R57, R59 to R63, R67: STAGE_WEIGHTS fills the free stage buffer with the slots of the next pass of the first tile
that has one to stage; PASS_START, with all eighths enabled and a drain bank, moves it into the array with the pass's
activation rows, waits for both, and freezes the array where the rows are not to hand; nothing is staged in a frozen array; PASS_END, of an array that
runs planes, hands the accumulators to the drain and counts the planes not yet counted;
DRAIN_PARTIALS adds the oldest ended pass into its strip's bank; PRIOR_VALUE_READ reads an accumulate strip's prior values. -/
def Obligations.ArrayPasses : Prop :=
  ∀ (s : State) (site : Nat) (a : Machine.Array), site < s.sites → a = (s.core site).arr →
    a.fault = false →
    (a.state = 3 → exec (.stageWeights site) s = .next s) ∧
    (∀ t e r q, a.state ≠ 3 → a.stage = none → a.toStage = some t → s.tileEng site 65 t = some e →
      s.gatherRows e (s.weightRows e t.desc t.staged).1 = .data r →
      s.gatherRows e (s.weightRows e t.desc t.staged).2 = .data q →
      Answers (.stageWeights site) s (fun u =>
        (u.core site).arr.stage = some (t.num, t.staged, .of t.desc (weightBlocks t.desc t.staged r q)) ∧
        ∀ x ∈ (u.core site).arr.tiles, x.num = t.num → x.staged = t.staged + 1)) ∧
    (∀ n p ws t banks e, a.pass = none → a.stage = some (n, p, ws) → a.tile? n = some t →
      (if a.hasBank n (t.desc.stripOf p) then some a.banks
        else takeBank a.banks ⟨n, t.desc.stripOf p, freshVals t.desc (t.desc.stripOf p), false, false⟩) = some banks →
      s.tileEng site 66 t = some e →
      (a.eighths < 8 → a.starved = false → exec (.passStart site false) s = .next s) ∧
      (∀ r q, (8 ≤ a.eighths ∨ a.starved = true) → (a.drainWaits = true ∨ a.eighths < 8) →
        s.gatherRows e (s.actRows e t.desc p).1 = .data r → s.gatherRows e (s.actRows e t.desc p).2 = .data q →
        Answers (.passStart site false) s (fun u => (u.core site).arr.pass = none ∧ (u.core site).arr.stage = a.stage ∧
          (u.core site).arr.banks = a.banks ∧ (u.core site).arr.starved = false)) ∧
      (∀ r q, a.drainWaits = false → 8 ≤ a.eighths → s.gatherRows e (s.actRows e t.desc p).1 = .data r →
        s.gatherRows e (s.actRows e t.desc p).2 = .data q →
        Answers (.passStart site false) s (fun u =>
          (u.core site).arr.pass = some (n, p, ws, actBlocks t.desc p r q) ∧ (u.core site).arr.stage = none ∧
          (u.core site).arr.banks = banks ∧ (u.core site).arr.starved = false)) ∧
      ((8 ≤ a.eighths ∨ a.starved = true) → s.gatherRows e (s.actRows e t.desc p).1 = .wait →
        (∃ r, s.gatherRows e (s.actRows e t.desc p).2 = .data r) →
        Answers (.passStart site false) s (fun u => (u.core site).arr.starved = true ∧ (u.core site).arr.state = 3 ∧
          (u.core site).arr.pass = none ∧ (u.core site).arr.stage = a.stage))) ∧
    (∀ n p ws ab t, a.pass = some (n, p, ws, ab) → a.tile? n = some t →
      (a.state = 2 → Answers (.passEnd site) s (fun u => (u.core site).arr.pass = none ∧
        (u.core site).arr.drain = a.drain ++ [(n, p, passAccs t.desc ws ab)] ∧
        (∀ x ∈ (u.core site).arr.tiles, x.num = n → x.ended = p + 1) ∧
        Counted s u (.arr site) 0x044 (t.desc.planesOf p - a.run))) ∧
      (a.state ≠ 2 → exec (.passEnd site) s = .next s)) ∧
    (∀ n p xs rest t, a.drain = (n, p, xs) :: rest → a.tile? n = some t → a.drainWaits = false →
      Answers (.drainPartials site false) s (fun u => (u.core site).arr.drain = rest ∧
        (u.core site).arr.banks = a.banks.map (Option.map (fun b =>
          if b.tile = n ∧ b.strip = t.desc.stripOf p then
            { b with vals := (b.vals.zip xs).map (fun r => (r.1.zip r.2).map (fun x => DVal.add x.1 x.2)) }
          else b)) ∧ SameMemory s u)) ∧
    (∀ b t e r, some b ∈ a.banks → (∀ x, some x ∈ a.banks → x = b) → a.tile? b.tile = some t → t.desc.acc = true →
      b.priorRead = false → s.tileEng site 67 t = some e →
      s.gatherRows e (s.rowPieces e t.desc.out (t.desc.outParts t.desc.ofmt false) 0 (t.desc.rowOf b.strip)
        (t.desc.rowsOf b.strip) (t.desc.colOf b.strip * elemBits t.desc.ofmt / 8)
        (rowBytes t.desc.ofmt (t.desc.colsOf b.strip))) = .data r →
      Answers (.priorValueRead site) s (fun u => ∀ x, some x ∈ (u.core site).arr.banks → x.priorRead = true ∧
        x.vals.length = r.length))

/-- R26 to R28, R39, R41, R44: the cells hold every weight in its slot bits, and a pair's two columns make up its 16 bits; the planes of an
activation give the exact sum of products; an integer element takes the partials exactly; a NaN block makes the converted partial the
canonical NaN. -/
def Obligations.PartialsAreExact : Prop :=
  (∀ bw ∈ [2, 4, 8, 16], ∀ (ws : List Int) (n : Nat) (w : Int), ws[n]? = some w → -(2 : Int) ^ (bw - 1) ≤ w → w < 2 ^ (bw - 1) →
    highWeight bw (packSlots bw ws) n * 256 + lowWeight bw (packSlots bw ws) n = w) ∧
  (∀ (ba : Nat) (as ws : List Int), 0 < ba → (∀ a ∈ as, -(2 : Int) ^ (ba - 1) ≤ a ∧ a < 2 ^ (ba - 1)) →
    accumulate ba as ws = (List.zipWith (fun a w => a * w) as ws).sum) ∧
  (∀ (x : Int) (q : Option W32) (p : Bool) (cs : List ColAcc),
    DVal.add (.int x q, p) cs = (.int (x + (cs.map ColAcc.total).sum) q, p || cs.any (·.pois))) ∧
  (∀ c : ColAcc, c.total = c.high * 256 + c.low ∧ (c.nan = true → c.fp = 0x7FC00000#32))

/-- R42, R55 to R57, R61, R62, R67, R136, R384: WRITE_OUT starts the next strip's write-out, WRITE_OUT_DONE frees its bank,
commits an accumulate strip that lies outside local memory, and ends the tile after its last strip; INTERLOCK_END lets a
tile stage whose inputs no earlier unfinished output meets; FILLER_RAMP_DOWN takes one eighth away when FILLER_MAX and the
ramp say so and no work has arrived, FILLER_RAMP_UP adds one every 16 cycles after work has arrived, or while Trim holds filler (R340; log entry 141). -/
def Obligations.ArrayOutputAndFiller : Prop :=
  ∀ (s : State) (site : Nat) (a : Machine.Array), site < s.sites → a = (s.core site).arr → a.fault = false →
    (∀ t b e, a.toWrite = some (t, b) → s.tileEng site 68 t = some e → t.desc.esp = false → t.image = none →
      t.desc.out.space = 0 → t.desc.ofmt ∈ [12, 13, 14] → (∀ x ∈ b.vals, x.length = t.desc.colsOf b.strip) →
      b.vals.length = t.desc.rowsOf b.strip → t.desc.out.stride ≥ rowBytes t.desc.ofmt t.desc.cols →
      t.desc.out.addr + t.desc.out.stride * t.desc.m ≤ e.lunits * 4096 → TraceOff s →
      Answers (.writeOut site false) s (fun u =>
        (∀ x ∈ (u.core site).arr.tiles, x.num = t.num → x.woStarted = b.strip + 1) ∧
        (∃ x, some x ∈ (u.core site).arr.banks ∧ x.is t.num b.strip = true ∧ x.writing = true) ∧
        (∀ i j v, i < b.vals.length → (nth [] b.vals i)[j]? = some v →
          u.num (lmemBase + site * 0x80000 + e.lbase * 4096 + t.desc.out.addr +
              (t.desc.rowOf b.strip + i) * t.desc.out.stride +
              (t.desc.colOf b.strip + j) * (elemBits t.desc.ofmt / 8)) (elemBits t.desc.ofmt / 8)
            = (v.1.stored t.desc.ofmt).1) ∧
        OnlyBytes s u (lmemBase + site * 0x80000 + e.lbase * 4096 + t.desc.out.addr) (t.desc.out.stride * t.desc.m))) ∧
    (∀ b t, some b ∈ a.banks → (∀ x, some x ∈ a.banks → x.writing = true → x = b) → b.writing = true →
      a.tile? b.tile = some t → (∀ e, s.tileEng site 68 t = some e → s.engBusy e = false) →
      Answers (.writeOutDone site) s (fun u =>
        (some b ∉ (u.core site).arr.banks) ∧
        (t.woDone + 1 = t.desc.allStrips → ∀ x ∈ (u.core site).arr.tiles, x.num ≠ t.num) ∧
        (t.woDone + 1 ≠ t.desc.allStrips → (∃ x ∈ (u.core site).arr.tiles, x.num = t.num ∧ x.woDone = t.woDone + 1) ∧
          ∀ g k, mfind (s.core site).groups t.group = some g → mfind (s.core site).blocks t.blk = some k →
            t.desc.acc = true → t.desc.out.space ≠ 0 →
            ∃ k', mfind (u.core site).blocks t.blk = some k' ∧ mget 0 k'.strips g.idx = mget 0 k.strips g.idx + 1))) ∧
    (∀ t, a.tiles.find? (fun t => !t.interlock) = some t →
      ((s.core site).locked (a.tiles.takeWhile (fun x => x.num != t.num)) t.blk t.desc = false →
        Answers (.interlockEnd site) s (fun u => ∀ x ∈ (u.core site).arr.tiles, x.num = t.num → x.interlock = true)) ∧
      ((s.core site).locked (a.tiles.takeWhile (fun x => x.num != t.num)) t.blk t.desc = true →
        exec (.interlockEnd site) s = .next s)) ∧
    (∀ g, a.gap = some g → Answers (.fillerRampDown site) s (fun u => (u.core site).arr.eighths =
      if a.trimHold = false ∧ a.arrived = false ∧ 0 < a.eighths ∧ a.fillMax + 16 * (8 - a.eighths) ≤ g then a.eighths - 1
      else a.eighths)) ∧
    Answers (.fillerRampUp site) s (fun u => (u.core site).arr.eighths =
      if (a.arrived = true ∨ a.trimHold = true) ∧ a.eighths < 8 ∧ 16 ≤ a.ramp then a.eighths + 1 else a.eighths)

/-- R77 to R79, R87, R90, R95, R96, R138: ESP_LOAD_START by the owner of the core queues a load, or is refused with CODE 9
while a command runs there; ESP_IMAGE_LOAD_DONE makes the loaded image active, records the refusal, or reads on; DMA_COMPLETE
writes the bytes of a copy to the core's local memory at once, or sends them out, and ends the copy once they have been acknowledged; BLOCK_PLACE puts the next block of a LAUNCH on the core of R96 at its entry, with
local memory cleared; STALL_DETECTOR_FIRE ends the command of a block whose timer has run out. -/
def Obligations.LoadsCopiesAndBlocks : Prop :=
  (∀ (s : State) (port site : Nat) (word : W32), site < s.sites → port < 4 → s.linkUp port = true →
    s.coreOwner site = port → word.getLsbD 0 = true → s.rgB (.esp site) 0x010 0 = false →
    ((s.core site).blocks = [] ∧ s.commandOn site = false →
      Answers (.espLoadStart port site word) s (fun u =>
        ∃ x ∈ (u.core site).esp.load.toList ++ (u.core site).esp.waiting, x.group = none ∧ x.space = getF 2 1 word ∧
          x.addr = (s.rg (.esp site) 0x008).toNat + 2 ^ 32 * s.rgF (.esp site) 0x00C 15 0)) ∧
    ((s.core site).blocks ≠ [] ∨ s.commandOn site = true →
      Answers (.espLoadStart port site word) s (fun u => (u.core site).esp = (s.core site).esp ∧
        u.rgB (.esp site) 0x014 0 = true ∧ u.rgF (.esp site) 0x014 7 4 = 9))) ∧
  (∀ (s : State) (site : Nat) (l : EspLoad), site < s.sites → (s.core site).esp.load = some l → l.group = none →
    (∀ bs, loadNow s site l = .ok bs → l.slot < (s.core site).esp.slots.length →
      Answers (.espImageLoadDone site) s (fun u => (u.core site).esp.active = some l.slot ∧
        ∃ im, nth none (u.core site).esp.slots l.slot = some im ∧ im.bytes = bs ∧ im.space = l.space)) ∧
    (∀ code, loadNow s site l = .refused code → code < 16 →
      Answers (.espImageLoadDone site) s (fun u => (u.core site).esp.active = (s.core site).esp.active ∧
        (u.core site).esp.slots = (s.core site).esp.slots ∧
        u.rgB (.esp site) 0x014 0 = true ∧ u.rgF (.esp site) 0x014 7 4 = code)) ∧
    (loadNow s site l = .wait → Answers (.espImageLoadDone site) s (fun u => (u.core site).esp = (s.core site).esp))) ∧
  (∀ (s : State) (site : Nat) (j : DmaJob) (b : Block) (c : Cmd) (e : Eng) (a : Nat), site < s.sites →
    (s.core site).dma.find? (fun x => x.id == j.id) = some j → mfind (s.core site).blocks j.blk = some b →
    s.cmd? j.cid = some c → e = engOf site 69 j.id b c j.index → TraceOff s →
    (∀ bs, 0 < j.len → s.pieces e j.dst.space j.dst.addr j.len = [.here a j.len] →
      s.gather e (s.pieces e j.src.space j.src.addr j.len) = .data bs → bs.length = j.len →
      (Piece.own e (.here a j.len) = true → s.engBusy e = false → Answers (.dmaComplete site j.id) s (fun u =>
        (∀ x ∈ (u.core site).dma, x.id ≠ j.id) ∧
        u.bytes a j.len = bs.map (·.1) ∧ OnlyBytes s u a j.len ∧ Counted64 s u (.cntCore site) 0x048 j.len)) ∧
      (Piece.own e (.here a j.len) = false → Numbered s → Answers (.dmaComplete site j.id) s (fun u =>
        Writes u e a bs ∧ SameMemory s u ∧ (∃ x ∈ (u.core site).dma, x.id = j.id ∧ x.len = 0)))) ∧
    (j.len = 0 → s.engBusy e = false → Answers (.dmaComplete site j.id) s (fun u => ∀ x ∈ (u.core site).dma, x.id ≠ j.id)) ∧
    (j.len = 0 → s.engBusy e = true → exec (.dmaComplete site j.id) s = .next s)) ∧
  (∀ (s : State) (cid i : Nat) (c : Cmd), s.cmd? cid = some c → c.opcode = 1 → c.phase = .running → c.nextBlock < c.blocks →
    s.choose c = some i → i ∈ c.cores → i ∈ c.launched → 0 < c.threads → c.threads ≤ 1024 →
    Answers (.blockPlace cid) s (fun u => (∃ k, u.cmd? cid = some k ∧ k.nextBlock = c.nextBlock + 1) ∧
      ∃ b k, mfind (s.core i).blocks b = none ∧ mfind (u.core i).blocks b = some k ∧ k.cid = cid ∧ k.lin = c.nextBlock ∧
        (∀ j < c.lmemUnits * 4096, u.byte (lmemAddr i k j) = 0) ∧
        (∀ gi < cdiv c.threads 32, ∃ slot g, mfind (s.core i).groups slot = none ∧
          mfind (u.core i).groups slot = some g ∧ g.blk = b ∧ g.idx = gi ∧
          ∀ l < 32, gi * 32 + l < c.threads → (g.th l).pc = (c.dw 4).toNat ∧ (g.th l).wait = .run ∧
            g.reg l 0 = BitVec.ofNat 32 (gi * 32 + l)))) ∧
  (∀ (s : State) (site blk : Nat) (b : Block) (c : Cmd), site < s.sites → mfind (s.core site).blocks blk = some b →
    s.cmd? b.cid = some c → c.phase = .running → 2 ^ 22 ≤ b.stall → b.stopped = false →
    Answers (.stallDetectorFire site blk) s (fun u => ∃ k, u.cmd? b.cid = some k ∧ k.phase = .ending ∧ k.status = 0x11))

/-! ## Slices, memory interfaces, retention -/

/-- R132, R133, R146, R160, R185, R207, R248: at its place a read takes the addressed bytes with their poison; a write stores its
bytes, an atomic replaces the word and takes the old one, a reduction combines its operand, one of a command all of those that it carries; each
of these leaves a performed-write record and every other byte as it was. -/
def Obligations.AccessesAreServedAtTheirPlace : Prop :=
  ∀ (s : State) (r : Req), AtPlace s r → TraceOff s →
    (r.kind = .read → Answers (.sliceRead r.rid []) s (fun u => ∃ q, u.req? r.rid = some q ∧ q.state = .performed ∧
      q.result.toNat = s.num r.addr r.size % 2 ^ 128 ∧ q.rpois = s.poisoned r.addr r.size ∧ SameMemory s u ∧
      (64 < r.slot → r.fillL1 = false → q.line = s.bytes r.addr r.size))) ∧
    (s.recordFree (s.placeSite r.addr) = true → r.slot ≠ 77 →
      (r.kind = .write → Answers (.sliceWrite r.rid []) s (fun u => (∃ q, u.req? r.rid = some q ∧ q.state = .performed) ∧
        (s.placeSite r.addr, r.rid) ∈ u.net.records ∧
        (r.line = [] → r.data.toNat < 2 ^ (8 * r.size) → u.num r.addr r.size = r.data.toNat ∧ OnlyBytes s u r.addr r.size) ∧
        (r.line ≠ [] → u.bytes r.addr r.line.length = r.line ∧ OnlyBytes s u r.addr r.line.length))) ∧
      (∀ p ∈ atomicOps, r.kind = .atomic p.2.1 → (r.size = 4 ∨ r.size = 8 ∧ p.2.2.2.1 = true) →
        r.data.toNat < 2 ^ (8 * r.size) → r.cmp.toNat < 2 ^ (8 * r.size) → s.poisoned r.addr r.size = false →
        Answers (.sliceAtomic r.rid []) s (fun u =>
          (∃ q, u.req? r.rid = some q ∧ q.state = .performed ∧ q.result.toNat = s.num r.addr r.size) ∧
          (s.placeSite r.addr, r.rid) ∈ u.net.records ∧
          u.num r.addr r.size = p.2.2.2.2 r.size (s.num r.addr r.size) r.data.toNat r.cmp.toNat ∧
          OnlyBytes s u r.addr r.size)) ∧
      (∀ p ∈ reduceOps, r.kind = .reduce p.2.1 → r.red = none →
        Answers (.sliceReduction r.rid []) s (fun u => (∃ q, u.req? r.rid = some q ∧ q.state = .performed) ∧
          (s.placeSite r.addr, r.rid) ∈ u.net.records ∧
          (r.line = [] → r.size = reduceSize p.2.1 → r.data.toNat < 2 ^ (8 * r.size) →
            u.num r.addr r.size = p.2.2 (s.num r.addr r.size) r.data.toNat ∧ OnlyBytes s u r.addr r.size) ∧
          (r.line.length = r.size → 0 < r.size → ∀ n z, z = reduceSize p.2.1 → r.size = n * z → OnlyBytes s u r.addr r.size ∧
            ∀ i < n, u.num (r.addr + z * i) z = p.2.2 (s.num (r.addr + z * i) z) (ofBytes ((r.line.drop (z * i)).take z))))))

/-- R162, R163, R242: the reductions of a request of an ordered command are staged under their keys and change no memory; at the end boundary a
half keeps none of the command's contributions, and sends each to its place in increasing key order; one whose bytes an earlier one has yet
to reach waits for it. -/
def Obligations.OrderedReductions : Prop :=
  (∀ (s : State) (r : Req) (c : Cmd) (op lin th n : Nat), s.req? r.rid = some r → r.remote = none → s.serves r = true →
    (s.half (s.placeOf r.addr).1).lost = false → s.recordFree (s.placeSite r.addr) = true →
    r.kind = .reduce op → r.red = some (lin, th, n) → s.cmd? r.cid = some c → c.status ≠ 0x13 →
    (s.half (s.placeOf r.addr).1).staged.length + (r.terms op).length ≤ 65536 →
    Answers (.sliceReduction r.rid []) s (fun u =>
      (u.half (s.placeOf r.addr).1).staged = (s.half (s.placeOf r.addr).1).staged ++ (r.terms op).map (fun x =>
        ⟨r.cls, r.cid, lin, th, n + x.1, op, x.2.1, BitVec.ofNat 32 x.2.2.1, x.2.2.2⟩) ∧ SameMemory s u)) ∧
  (∀ (s : State) (cid half : Nat) (c : Cmd), half < s.devices → s.cmd? cid = some c → c.isEnding = true →
    s.accessing cid none = false →
    Answers (.orderedReductionApply cid half) s (fun u => SameMemory s u ∧
      (u.half half).staged = (s.half half).staged.filter (fun x => x.cid != cid) ∧
      ∃ (l : List Staged) (q : List Req), l.Perm ((s.half half).staged.filter (fun x => x.cid == cid)) ∧ l.Pairwise (fun x y => x.before y = true) ∧
        u.net.reqs = s.net.reqs ++ q ∧ q.map (·.rid) = (List.range l.length).map (· + s.net.nextRid) ∧
        ∀ (i : Nat) (x : Staged) (r : Req), l[i]? = some x → q[i]? = some r → r.slot = 77 ∧ r.lane = half ∧ r.cid = cid ∧ r.kind = .reduce x.op ∧ r.addr = x.addr ∧
          r.size = reduceSize x.op ∧ r.data = x.val.setWidth 128 ∧ r.pois = x.pois ∧ r.cls = x.cls ∧ r.state = .arrived)) ∧
  (∀ (s : State) (r q : Req), s.req? r.rid = some r → q ∈ s.net.reqs → q.rid < r.rid → r.slot = 77 → q.slot = 77 → q.lane = r.lane →
    q.cid = r.cid → q.site = r.site → q.remote = none → q.state = .arrived → q.addr < r.addr + r.size → r.addr < q.addr + q.size →
    ∀ errs, exec (.sliceReduction r.rid errs) s = .next s)

/-- R146, R161, R208, R308, R309, R312: the interface serves the read burst of both lines of a pair that wait, and writes
when no read waits or the writes drain; a fill ends its miss and performs the requests that waited; a held victim is issued,
and leaves the buffer once written; a first write to a region waits for its zero fill. -/
def Obligations.FillsAndWriteBacks : Prop :=
  (∀ (s : State) (dev line : Nat), dev < s.devices → s.mifRuns dev false = true → line ∈ (s.mif dev).waitingReads →
    (s.mif dev).draining = false →
    Answers (.mifAccess dev line false .clean) s (fun u => line ∉ (u.mif dev).waitingReads ∧
      (∀ l, l ∉ [line, s.addrOf dev (s.offOf (line * 256) / 512 * 512 + (s.offOf (line * 256) + 256) % 512) / 256] →
        (l ∈ (u.mif dev).waitingReads ↔ l ∈ (s.mif dev).waitingReads)) ∧
      (∀ m ∈ (u.half dev).misses, m.line = line → m.fetched = true))) ∧
  (∀ (s : State) (dev line : Nat) (v : Victim), dev < s.devices → s.mifRuns dev true = true →
    line ∈ (s.mif dev).waitingWrites → ((s.mif dev).draining = true ∨ (s.mif dev).waitingReads = []) →
    s.isInit (line * 256) = true → (s.half dev).victim line = some v →
    Answers (.mifAccess dev line true .clean) s (fun u => line ∉ (u.mif dev).waitingWrites ∧
      (u.mif dev).draining = ((s.mif dev).draining && decide (256 < ((s.mif dev).waitingWrites.filter (fun x => x != line)).length)) ∧
      Counted64 s u (.mif dev) 0x128 (64 * sectorCount v.dirty))) ∧
  (∀ (s : State) (dev region : Nat), dev < s.devices → s.mifRuns dev true = true → region ∉ (s.mif dev).inited →
    (∃ l ∈ (s.mif dev).waitingWrites, s.offOf (l * 256) / 65536 = region) →
    Answers (.bitmapZeroFill dev region) s (fun u => region ∈ (u.mif dev).inited ∧
      Counted64 s u (.mif dev) 0x128 65280)) ∧
  (∀ (s : State) (half line : Nat) (m : Miss), half < s.devices →
    (s.half half).misses.find? (fun m => m.line == line && m.fetched) = some m →
    ((s.modHalf half (fun x => { x with misses := x.misses.filter (fun y => y.line != line) })).fillLine (line * 256) m.part
      (fillRrv m.policy) m.sectors 0).isSome = true →
    (∀ rid ∈ m.waiting, ∀ r, s.req? rid = some r → r.isOrder = false ∧ r.slot ≠ 77 ∧ ∀ op, r.kind ≠ .atomic op) →
    Answers (.sectorFill half line []) s (fun u => (∀ y ∈ (u.half half).misses, y.line ≠ line) ∧
      ∀ rid ∈ m.waiting, ∀ r, s.req? rid = some r → ∃ q, u.req? rid = some q ∧ q.state = .performed)) ∧
  (∀ (s : State) (half line : Nat) (v : Victim) (errs : List (Nat × CacheErr)), half < s.devices →
    (s.half half).victim line = some v →
    (v.issued = false → s.rgB (.mif half) 0x000 7 = false → s.rgB (.mif half) 0x000 8 = false →
      (s.mif half).waitingReads.length + (s.mif half).waitingWrites.length < 1024 →
      Answers (.writeBackIssue half line errs) s (fun u => (u.half half).victim line = some { v with issued := true } ∧
        line ∈ (u.mif half).waitingWrites)) ∧
    (v.issued = true → line ∉ (s.mif half).waitingWrites →
      Answers (.writeBackPerformed half line) s (fun u => (u.half half).victim line = none ∧
        Counted64 s u (.sc half) 0x168 (64 * sectorCount v.dirty))))

/-- R311, R312, R314, R333, R334: refreshes count; a die above 95 °C takes its interface to the highest refresh band, one above
105 °C holds its writes, one above 115 °C all its accesses; a drift starts a retrain, whose end lets accesses go on; a half
whose regions are all parked enters retention, wakes for a request that waits, and returns after 10 ms without one. -/
def Obligations.InterfaceAndRetention : Prop :=
  (∀ (s : State) (dev bank : Nat), dev < s.devices → bank < 16 → s.mifReady dev = true → s.rgB (.mif dev) 0x000 9 = false →
    Answers (.refresh dev bank) s (fun u => mget 0 (u.mif dev).refreshes bank = mget 0 (s.mif dev).refreshes bank + 1 ∧
      (∀ j, j ≠ bank → mget 0 (u.mif dev).refreshes j = mget 0 (s.mif dev).refreshes j) ∧ SameMemory s u)) ∧
  (∀ (s : State) (dev : Nat) (temps : List Int) (t : Int) (die : Nat), dev < s.devices → s.mifReady dev = true →
    temps.length ≤ 18 → temps[die]? = some t → (∀ x ∈ temps, x ≤ t) → (∀ i < die, temps[i]? ≠ some t) →
    Answers (.mifTempRead dev temps) s (fun u =>
      u.rgF (.mif dev) 0x004 15 0 = (t * 16 % 65536).toNat ∧ u.rgF (.mif dev) 0x004 20 16 = die ∧
      (s.rgF (.mif dev) 0x000 6 5 ≤ 2 → 95 < t → u.rgF (.mif dev) 0x000 6 5 = 2) ∧ (105 < t → u.rgB (.mif dev) 0x000 7 = true) ∧
      (115 < t → u.rgB (.mif dev) 0x000 8 = true) ∧
      (t + 2 ≤ 105 → s.rgB (.mif dev) 0x000 7 = true → 9 ≤ (s.mif dev).coolWr → u.rgB (.mif dev) 0x000 7 = false) ∧
      (t + 2 ≤ 115 → s.rgB (.mif dev) 0x000 8 = true → 9 ≤ (s.mif dev).coolAll → u.rgB (.mif dev) 0x000 8 = false))) ∧
  (∀ (s : State) (dev : Nat), dev < s.devices → s.mifReady dev = true → (s.mif dev).retraining = false →
    Answers (.wck2dqRead dev true) s (fun u => (u.mif dev).retraining = true ∧ Counted s u (.mif dev) 0x10C 1)) ∧
  (∀ (s : State) (dev : Nat), dev < s.devices → Answers (.mifRetrainDone dev) s (fun u => (u.mif dev).retraining = false)) ∧
  (∀ (s : State) (half : Nat), half < s.devices →
    (s.allParked half = true → s.rgB (.pwr (half / 2)) 0x000 1 = true → (s.half half).retained = false →
      (s.half half).woken = false → (s.half half).lost = false →
      Answers (.selfRefreshEntry half) s (fun u => (u.half half).retained = true ∧
        u.rgB (.pwr (half / 2)) 0x000 (2 + half % 2) = true ∧ SameMemory s u)) ∧
    ((s.half half).retained = true → (s.half half).waking = none → s.requestAt half = true →
      Answers (.cacheWake half) s (fun u => (u.half half).waking = some s.time.now)) ∧
    ((s.half half).retained = true → (s.half half).waking.isSome = true →
      Answers (.cacheWakeDone half) s (fun u => (u.half half).retained = false ∧ (u.half half).waking = none ∧
        (u.mif half).retraining = true ∧ u.rgB (.pwr (half / 2)) 0x000 (2 + half % 2) = false)) ∧
    ((s.half half).woken = true → s.allParked half = true → s.requestAt half = false →
      (s.half half).lastUse + 2500000 ≤ s.time.now →
      Answers (.retentionReturn half) s (fun u => (u.half half).retained = true ∧ (u.half half).woken = false)))

/-! ## The network -/

/-- R230, R233 to R235, R239, R247, R248, R254, R374: a packet that wins its output and can move goes to the next router where it passes its
check, else it is discarded and counted; a request's packet that does so at its destination lets its request arrive at its place, or be
answered anew where it was performed before; a control message for a core that is fenced is refused there; one stays while class 0 wants the
same output or its crossing is held. A response that wins the output to its core gives a load its registers; one for a request that is gone is
counted; a request without one goes out again on the detour route after its time, twice, then gives up, and one of a processor or a port begins
anew (log entry 157); an answered request's records are released. -/
def Obligations.PacketsAndResponses : Prop :=
  (∀ (s : State) (k : Packet) (j : Nat) (detour : Bool) (via : List Nat),
    s.net.packets.find? (fun x => x.pid == k.pid) = some k → k.dest ∉ s.net.bypassed →
    (s.canMove k = true → s.wins k = true →
      (s.onward k = some (j, detour, via) →
        Answers (.routerPacket k.pid false) s (fun u =>
          u.net.packets.find? (fun x => x.pid == k.pid) =
            some { k with at_ := j, input := k.at_, since := s.time.now, detour := detour, via := via } ∧ u.net.reqs = s.net.reqs) ∧
        Answers (.routerPacket k.pid true) s (fun u => (∀ x ∈ u.net.packets, x.pid ≠ k.pid) ∧ Counted s u (.router j) 0x100 1)) ∧
      (k.at_ = k.dest → k.response = false → ∀ fail r, s.req? k.rid = some r →
        (r.state = .sent → (r.isOrder = false ∨ hasSite s.roster.fenced (s.placeSite r.addr) = false) →
          Answers (.routerPacket k.pid fail) s (fun u => (∀ x ∈ u.net.packets, x.pid ≠ k.pid) ∧
            ∃ q, u.req? k.rid = some q ∧ q.state = .arrived)) ∧
        (r.state = .sent → r.isOrder = true → hasSite s.roster.fenced (s.placeSite r.addr) = true →
          Answers (.routerPacket k.pid fail) s (fun u => ∃ q, u.req? k.rid = some q ∧ q.state = .performed ∧ q.refused = true)) ∧
        (r.state = .performed → r.kind ≠ .read → s.placeSite r.addr ≠ r.site → Answers (.routerPacket k.pid fail) s (fun u =>
          SameMemory s u ∧ u.net.reqs = s.net.reqs ∧
          ∃ x ∈ u.net.packets, x.rid = r.rid ∧ x.response = true ∧ x.at_ = s.placeSite r.addr ∧
            x.dest = s.portal r (s.placeSite r.addr))))) ∧
    (∀ q ∈ s.net.packets, q.pid ≠ k.pid → q.at_ = k.at_ → s.output q = s.output k → s.canMove q = true →
      q.cls = 0 → k.cls ≠ 0 → q.since < 2 ^ 64 → q.pid < 2 ^ 64 → ∀ fail, exec (.routerPacket k.pid fail) s = .next s) ∧
    (s.onward k = some (j, detour, via) → s.heldCrossing k.at_ j = true → ∀ fail, exec (.routerPacket k.pid fail) s = .next s)) ∧
  (∀ (s : State) (rid : Nat) (k : Packet), s.req? rid = none →
    s.net.packets.find? (fun k => k.rid == rid && k.response && k.at_ == k.dest && s.canMove k && s.wins k) = some k →
    Answers (.responseArrival rid) s (fun u => (∀ x ∈ u.net.packets, x.pid ≠ k.pid) ∧ Counted s u (.router k.dest) 0x11C 1)) ∧
  (∀ (s : State) (r : Req) (d : Nat) (g : Group), s.req? r.rid = some r → r.remote = none → r.state = .performed →
    (s.placeSite r.addr = r.site ∨ ∃ k ∈ s.net.packets, k.rid = r.rid ∧ k.response = true ∧ k.at_ = k.dest ∧ s.canMove k = true ∧ s.wins k = true) →
    r.kind = .read → r.slot ≤ 64 → r.refused = false → r.attempt = 0 → r.size ≤ 16 → r.result.toNat < 2 ^ (8 * r.size) → 0 < r.size →
    r.dest = some d → d + words r.size ≤ 256 → r.uni = false → mfind (s.core r.site).groups r.slot = some g → r.lane < g.threads.length →
    Answers (.responseArrival r.rid) s (fun u => u.req? r.rid = none ∧
      (∃ h, mfind (u.core r.site).groups r.slot = some h ∧
        (∀ i < words r.size, d + i < 255 → LoadedWord r.size r.sx r.result.toNat i (h.reg r.lane (d + i)) ∧
          h.rpois r.lane (d + i) = r.rpois) ∧
        (∀ l x, (l ≠ r.lane ∨ x < d ∨ d + words r.size ≤ x) → h.reg l x = g.reg l x)) ∧
      (r.fillL1 = true → r.dropFill = false →
        (u.core r.site).l1Line r.addr = some ⟨r.addr / 128, r.line, r.lpois⟩))) ∧
  (∀ (s : State) (r : Req), s.req? r.rid = some r → r.ended = false → r.remote = none →
    let d := s.placeSite r.addr
    let i := s.portal r d
    let again (u : State) : Prop := ∃ k ∈ u.net.packets, k.rid = r.rid ∧ k.response = false ∧ k.at_ = i ∧ k.dest = d ∧ k.detour = true
    (r.state ≠ .queued → r.slot ≠ 77 → r.attempt < 2 → r.sentAt + 5000 * (r.attempt + 1) ≤ s.time.now →
      Answers (.requestRetry r.rid) s (fun u => (∃ q, u.req? r.rid = some q ∧ q.attempt = r.attempt + 1) ∧
        Counted s u (.router i) 0x11C 1 ∧ (d ≠ r.site → again u))) ∧
    (r.held = false → r.attempt = 2 → r.sentAt + 15000 ≤ s.time.now → Numbered s →
      ((r.slot ≤ 70 ∨ r.isOrder = true) → Answers (.requestGiveUp r.rid) s (fun u => u.req? r.rid = none ∧
        (∀ k ∈ u.net.packets, k.rid ≠ r.rid) ∧ Counted s u (.msh (siteStack i)) 0x830 1)) ∧
      (70 < r.slot → r.isOrder = false → Answers (.requestGiveUp r.rid) s (fun u =>
        u.req? r.rid = some { r with attempt := 0, sentAt := s.time.now } ∧ again u ∧ Counted s u (.msh (siteStack i)) 0x830 1)))) ∧
  (∀ (s : State) (rid : Nat), (∀ r, s.req? rid = some r → r.state = .answered ∧ r.remote = none) →
    Answers (.recordRelease (.own rid)) s (fun u => u.req? rid = none ∧ (∀ x ∈ u.net.records, x.2 ≠ rid) ∧
      ∀ x ∈ s.net.records, x.2 ≠ rid → x ∈ u.net.records))

/-- R239, R241, R243, R250, R251, R255, R256: at a window boundary the counts start anew and the class tables and budgets that
wait take effect; the crossings of a half switch; a layer's control messages go by its compatibility ring and do there what they do on the
mesh; when a ring fails its layer's messages go over the mesh. -/
def Obligations.WindowsAndRings : Prop :=
  (∀ s : State, s.time.now % 250 = 0 →
    (∀ x ∈ s.net.pendingRegs, ∀ y ∈ s.net.pendingRegs, x.1 = y.1 → x = y) →
    Answers .budgetWindowBoundary s (fun u => u.net.units = [] ∧ u.net.c0 = [] ∧ u.net.pendingRegs = [] ∧
      ∀ x ∈ s.net.pendingRegs, mget (regReset x.1) u.regs x.1 = x.2)) ∧
  (∀ (s : State) (t h x : Nat), t < s.stacks → h < 2 → mfind s.net.crossing (2 * t + h) = some x →
    Answers (.crossingModeSwitch t h) s (fun u => mfind u.net.crossing (2 * t + h) = none ∧
      (u.rgB (.msh t) 0x000 10 = true ↔ s.meshStep (2 * t) ≠ s.meshStep (2 * t + 1)))) ∧
  (∀ (s : State) (cid site : Nat) (c : Cmd), site < s.sites → s.ringRuns site = true → s.cmd? cid = some c →
    (s.order? (.launch cid site) = none → exec (.launchMessage cid site) s = .next s) ∧
    (s.order? (.endOrder cid site) = none → exec (.endBoundaryOrder cid site) s = .next s) ∧
    exec (.coreAcknowledge cid site) s = .next s ∧
    (c.phase = .running → c.begun = true → site ∈ c.cores → site ∉ c.launched →
      Answers (.ringMessage (.launch cid site)) s (fun u => ∃ k, u.cmd? cid = some k ∧ site ∈ k.launched ∧ k.started = s.timeOf (siteStack site))) ∧
    (c.isEnding = true → site ∈ c.launched → site ∉ c.ordered →
      Answers (.ringMessage (.endOrder cid site)) s (fun u => (∃ k, u.cmd? cid = some k ∧ site ∈ k.ordered) ∧ (u.core site).l1 = [])) ∧
    (site ∈ c.ordered → site ∉ c.acked → s.accessing cid (some site) = false →
      Answers (.ringMessage (.acknowledge cid site)) s (fun u => ∃ k, u.cmd? cid = some k ∧ site ∈ k.acked)) ∧
    (c.begun = true → site ∈ c.cores → mfind c.startVals site = none →
      Answers (.ringMessage (.latch cid site)) s (fun u => ∃ k, u.cmd? cid = some k ∧
        mfind k.startVals site = some (s.fieldVals site))) ∧
    Answers (.ringMessage (.invalidate site)) s (fun u => (u.core site).l1 = [] ∧ SameMemory s u) ∧
    ((mfind s.net.fences site).isSome = true → s.removable site = true →
      Answers (.ringMessage (.fence site)) s (fun u => hasSite u.roster.fenced site = true ∧ hasSite u.roster.enabled site = false)) ∧
    (s.coreResets site = true → Answers (.ringMessage (.reset site)) s (fun u => (u.core site).blocks = []))) ∧
  (∀ (s : State) (t layer : Nat), t < s.stacks → layer < 2 → s.rgB (.msh t) 0x000 0 = true →
    Answers (.ringLinkFail t layer) s (fun u => u.rgB (.msh t) 0x000 1 = true ∧
      ∀ site, siteStack site = t → siteLayer site = layer → u.ringRuns site = false))

/-! ## Slices that are checked, mended and taken out -/

/-- R203, R205, R214, R216 to R223: a scrub of a clean word or beat moves on to the next and changes nothing in memory; an uncorrectable
word is poisoned and counted, and a beat's rewrite follows its read; a location that qualifies is remapped while its table has a free entry,
and a full table makes the slice due for retirement; a port that sends again is counted; a test that is due marks its port, and its
result uses the spare of a lane group, then half the width. -/
def Obligations.ScrubsRemapsAndPorts : Prop :=
  (∀ (s : State) (half p pos : Nat) (last : Bool), half < s.devices → s.scrubs (.sc half) half = true → TraceOff s →
    scrubNext (s.scrubRuns half) (s.half half).scrubPos = some (p, pos, last) →
    (s.half half).scrubAt + s.scrubGap (.sc half) (32 * (s.scrubRuns half).length) ≤ s.time.now →
    s.classZeroAt half (p / 2 ^ 18) = false →
    let moved (u : State) : Prop := (u.half half).scrubPos = pos ∧ (u.half half).scrubAt = s.time.now ∧
      (last = true → Counted s u (.sc half) 0x194 1)
    Answers (.scrubAccess (.cache half .clean)) s (fun u => moved u ∧ SameMemory s u) ∧
    (∀ a bits, s.wordAddr half (p / 2 ^ 18) (p % 2 ^ 18) = some a → s.inSlices (a / 32 * 32) = true →
      verdict (s.syndrome a (.flips bits)) = .uncorrectable →
      Answers (.scrubAccess (.cache half (.flips bits))) s (fun u => moved u ∧ u.poisoned a 1 = true ∧ u.mem = s.mem ∧
        Counted s u (.sc (s.wordAt a).1) 0x184 1))) ∧
  (∀ (s : State) (dev : Nat), dev < s.devices → s.scrubs (.mif dev) dev = true → TraceOff s →
    (∀ beat pos last, (s.mif dev).scrubWrite = none → s.mifRuns dev false = true →
      scrubNext (s.scrubBeats dev) (s.mif dev).scrubPos = some (beat, pos, last) →
      (s.mif dev).scrubAt + s.scrubGap (.mif dev) (2048 * (s.scrubBeats dev).length) ≤ s.time.now →
      Answers (.scrubAccess (.memory dev .clean)) s (fun u => (u.mif dev).scrubPos = pos ∧ (u.mif dev).scrubAt = s.time.now ∧
        SameMemory s u ∧ (s.addrOf dev (pairOffset (beat * 32)) / 256 ∉ (s.mif dev).waitingReads → Counted64 s u (.mif dev) 0x120 512) ∧
        (last = true → Counted s u (.mif dev) 0x2418 1))) ∧
    (∀ beat bits pois err, (s.mif dev).scrubWrite = some (beat, bits, pois) → s.mifRuns dev true = true →
      Answers (.scrubAccess (.memory dev err)) s (fun u => (u.mif dev).scrubWrite = none ∧
        (s.isInit (s.addrOf dev (beat * 32)) = true → Counted64 s u (.mif dev) 0x128 32) ∧
        (s.isInit (s.addrOf dev (beat * 32)) = true → s.cached (s.addrOf dev (beat * 32)) = (0, 0) → pois = true →
          u.poisoned (s.addrOf dev (beat * 32)) 32 = true ∧ u.mem = s.mem)))) ∧
  (∀ (s : State) (half slice word i : Nat), half < s.devices → slice < 256 → i < 32 →
    s.rg (.sc half) (logOff i + 4) = BitVec.ofNat 32 (slice + word * 256) → s.qualifies (.sc half) scLog i = true →
    (∀ k < 32, k ≠ i → s.rg (.sc half) (logOff k + 4) ≠ BitVec.ofNat 32 (slice + word * 256)) →
    (∀ j < 16, s.rg (.sc half) (0x2300 + 4 * j) ≠ BitVec.ofNat 32 (1 + slice * 2 + word * 512)) →
    ((∃ j < 16, s.rgB (.sc half) (0x2300 + 4 * j) 0 = false) →
      Answers (.cacheRemap half slice word) s (fun u => u.mem = s.mem ∧ u.hmem = s.hmem ∧
        (half, slice, word) ∈ u.health.cacheRemaps ∧ u.rgB (.sc half) (logOff i) 28 = true ∧
        (s.rgF (.sc half) (logOff i) 2 1 ≠ 1 → u.poison = s.poison) ∧
        (s.rgF (.sc half) (logOff i) 2 1 = 1 → ∀ a, s.wordAddr half slice word = some a → u.poisoned a 32 = true) ∧
        ∃ j < 16, s.rgB (.sc half) (0x2300 + 4 * j) 0 = false ∧
          u.rg (.sc half) (0x2300 + 4 * j) = BitVec.ofNat 32 (1 + slice * 2 + word * 512))) ∧
    ((∀ j < 16, s.rgB (.sc half) (0x2300 + 4 * j) 0 = true) →
      Answers (.cacheRemap half slice word) s (fun u => slice ∈ (u.half half).retireDue ∧ slice ∈ (u.half half).stalled ∧
        u.regs = s.regs ∧ SameMemory s u))) ∧
  (∀ (s : State) (dev line i : Nat), dev < s.devices → i < 32 → s.rgF (.mif dev) (logOff i + 4) 31 3 = line →
    s.qualifies (.mif dev) mifLog i = true →
    (∀ j < 8, s.rgB (.mif dev) (0x2300 + 8 * j) 0 = true → s.rgF (.mif dev) (0x2304 + 8 * j) 28 0 ≠ line) →
    (∃ j < 8, s.rgB (.mif dev) (0x2300 + 8 * j) 0 = false) →
    Answers (.memoryRemap dev line) s (fun u => u.rgB (.mif dev) (logOff i) 18 = true ∧ SameMemory s u ∧
      ∃ j < 8, s.rgB (.mif dev) (0x2300 + 8 * j) 0 = false ∧ u.rgB (.mif dev) (0x2300 + 8 * j) 0 = true ∧
        u.rgF (.mif dev) (0x2304 + 8 * j) 28 0 = line ∧ (dev, line, j) ∈ u.health.memRemaps)) ∧
  (∀ (s : State) (half slice lane word a : Nat) (write : Bool), half < s.devices → slice < 256 → lane < 2048 →
    (1024 ≤ lane ↔ write = true) → s.wordAddr half slice word = some a → TraceOff s →
    (∀ err, Answers (.portResend half slice lane word write err) s (fun u => Counted s u (.sc half) 0x18C 1)) ∧
    (∀ bits, verdict (s.syndrome a (.flips bits)) = .uncorrectable →
      Answers (.portResend half slice lane word write (.flips bits)) s (fun u =>
        (mfind (u.half half).portDue slice).isSome = true ∧ Counted s u (.sc half) 0x184 1 ∧
        (write = true → u.poisoned a 32 = true)))) ∧
  (∀ (s : State) (half slice : Nat), half < s.devices → slice < 256 → s.retired half slice = false →
    (mfind (s.half half).portDue slice = none → s.periodDue half slice = false → exec (.portTest half slice) s = .next s) ∧
    ((mfind (s.half half).portDue slice).isSome = true → s.rgB (.sc half) (0x2800 + 4 * slice) 9 = false →
      (upTo 0 256).countP (fun i => s.rgB (.sc half) (0x2800 + 4 * i) 9) < 4 →
      s.regionOn (regionOf (sliceSite half slice)) = true →
      Answers (.portTest half slice) s (fun u => u.rgB (.sc half) (0x2800 + 4 * slice) 9 = true ∧ SameMemory s u)) ∧
    (s.rgB (.sc half) (0x2800 + 4 * slice) 9 = true →
      Answers (.portTestDone half slice []) s (fun u => u.rgB (.sc half) (0x2800 + 4 * slice) 9 = false ∧
        u.rgF (.sc half) (0x2800 + 4 * slice) 1 0 = s.rgF (.sc half) (0x2800 + 4 * slice) 1 0 ∧
        mfind (u.half half).portDue slice = none ∧ SameMemory s u) ∧
      ∀ lane < 2048, mfind (s.half half).laneBad (slice * 2048 + lane) = none →
        Answers (.portTestDone half slice [lane]) s (fun u =>
          u.rgB (.sc half) (0x2800 + 4 * slice) 10 = true ∧ u.rgB (.sc half) (0x2800 + 4 * slice) 9 = false ∧
          (1 ∉ (s.half half).laneGroup slice (lane / 32) →
            mfind (u.half half).laneBad (slice * 2048 + lane) = some 1 ∧
            u.rgF (.sc half) (0x2800 + 4 * slice) 1 0 = s.rgF (.sc half) (0x2800 + 4 * slice) 1 0 ∧
            u.rgF (.sc half) (0x2800 + 4 * slice) 8 2 = (s.rgF (.sc half) (0x2800 + 4 * slice) 8 2 + 1) % 128) ∧
          (1 ∈ (s.half half).laneGroup slice (lane / 32) → s.rgF (.sc half) (0x2800 + 4 * slice) 1 0 = 0 →
            mfind (u.half half).laneBad (slice * 2048 + lane) = some 2 ∧
            u.rgF (.sc half) (0x2800 + 4 * slice) 1 0 =
              if lane / 32 < 16 ∨ (32 ≤ lane / 32 ∧ lane / 32 < 48) then 2 else 1))))

/-- R145, R158, R166, R176, R224: a slice that is due retires, its status counted out, its home entries go to other slices
and its requests go on; a window in use that is lost ends the commands of its partition with UNRECOVERED; at the end of
a thrash window the counts start anew and the miss rate is shown; a transpose engine takes a piece and reads it, writes it once it has all of it, and is done with it once that has
been acknowledged; one that fails shows its fault. -/
def Obligations.SlicesRetireAndTranspose : Prop :=
  (∀ (s : State) (half slice : Nat), half < s.devices → slice < 256 → slice ∈ (s.half half).retireDue →
    (s.retired half slice = false → ∀ errs,
      (s.winSize half slice = 0 → Answers (.sliceRetire half slice errs) s (fun u => u.retired half slice = true ∧
        u.rgF (.sc half) 0x000 8 0 = s.rgF (.sc half) 0x000 8 0 - 1 ∧ half * 256 + slice ∈ u.health.retiredSlices ∧
        (∀ e ∈ (u.half half).lines, e.1 / 32768 = slice → e.2.dirty = 0) ∧ (TraceOff s → errs = [] → SameMemory s u))) ∧
      (s.winSize half slice ≠ 0 → s.windowUsed half slice = true →
        Answers (.sliceRetire half slice errs) s (fun u => ∀ cid c, s.cmd? cid = some c → c.admin = false →
          c.part = s.winPart half slice → c.begun = true → c.phase = .running →
          ∃ k, u.cmd? cid = some k ∧ k.phase = .ending ∧ k.status = 0x15))) ∧
    (s.retired half slice = true →
      (s.rehomed half slice = none → exec (.rehomeDone half slice) s = .next s) ∧
      ((s.rehomed half slice).isSome = true → Answers (.rehomeDone half slice) s (fun u =>
        slice ∉ (u.half half).retireDue ∧ slice ∉ (u.half half).stalled ∧
        ((∃ j < 256, j ≠ slice ∧ s.retired half j = false) → ∀ i < 4096, u.homeEntry half i ≠ slice))))) ∧
  (∀ (s : State) (half : Nat), half < s.devices →
    (s.time.now < (s.half half).thrashFrom + 25000 → exec (.thrashWindowEnd half) s = .next s) ∧
    ((s.half half).thrashFrom + 25000 ≤ s.time.now → Answers (.thrashWindowEnd half) s (fun u =>
      (u.half half).reqs = 0 ∧ (u.half half).missed = 0 ∧ (u.half half).thrashFrom = s.time.now ∧
      u.rgF (.sc half) 0x00C 8 1 =
        (if (s.half half).reqs = 0 then 0 else min 255 (256 * (s.half half).missed / (s.half half).reqs))))) ∧
  (∀ (s : State) (cid half engine i : Nat) (c : Cmd), half < s.devices → engine < 2 → s.cmd? cid = some c → c.opcode = 4 →
    c.begun = true → c.phase = .running → (s.half half).xposeBusy.contains (cid * 2 + engine) = false →
    let e := s.xposeEng c half engine
    (c.engines.find? (fun y => y.1 == 2 * half + engine) = none →
      c.xpose.chunks.find? (fun i => !c.pieces.contains i && s.xposeHalf i == half && c.engines.all (fun y => y.2.1 != i)) = some i →
      s.xposeFound c e (c.xpose.readsOf i) = none → TraceOff s →
      Answers (.transposePiece cid half engine false) s (fun u => SameMemory s u ∧
        ∃ k, u.cmd? cid = some k ∧ (2 * half + engine, i, false) ∈ k.engines)) ∧
    (c.engines.find? (fun y => y.1 == 2 * half + engine) = some (2 * half + engine, i, false) →
      ∀ found, s.xposeFound c e (c.xpose.readsOf i) = some found → TraceOff s →
      Answers (.transposePiece cid half engine false) s (fun u => SameMemory s u ∧
        ∃ k, u.cmd? cid = some k ∧ (2 * half + engine, i, true) ∈ k.engines)) ∧
    (c.engines.find? (fun y => y.1 == 2 * half + engine) = some (2 * half + engine, i, true) → s.engBusy e = false →
      Answers (.transposePiece cid half engine false) s (fun u => ∃ k, u.cmd? cid = some k ∧ i ∈ k.pieces)) ∧
    Answers (.transposePiece cid half engine true) s (fun u => u.rgB (.sc half) (0x2000 + 4 * engine) 2 = true))

/-! ## Coppice -/

/-- R114, R250, R334, R373, R374, R376, R378, R380, R381, R386: a fence order goes to a failed core and fences it for good where it has come, one
behind a failed router is cut off at once (log entry 159), and its running block is kept for
replay or its command ends with UNRECOVERED; the first failed lane makes a core a restricted spare, a second one in the other half
fences it; a spare that passes its wake check joins service; the window beneath a failed core moves with its bytes; a block that
waits is placed again with its commit marks and the command is RECOVERED. -/
def Obligations.CoresAreReplaced : Prop :=
  (∀ (s : State) (site : Nat) (cause : CoreCause), site < s.sites →
    let fenced (u : State) : Prop := hasSite u.roster.fenced site = true ∧ hasSite u.roster.retired site = true ∧
      hasSite u.roster.enabled site = false ∧ hasSite u.roster.spare site = false
    let kept (u : State) : Prop := ∀ bs b c, (s.core site).blocks = [(bs, b)] → s.cmd? b.cid = some c → c.phase = .running →
      ∃ k, u.cmd? b.cid = some k ∧ ((k.phase = .ending ∧ k.status = 0x15) ∨
        (s.noReplay site bs b (decide (cause = .router)) = none ∧
          ∃ x ∈ k.replay, x.1 = b.lin ∧ x.2.commits = b.commits ∧ x.2.strips = b.strips))
    (s.removable site = false → (cause = .router ∨ s.order? (.fence site) = none) → exec (.coreFence site cause) s = .next s) ∧
    (s.removable site = true →
      (cause = .router → Answers (.coreFence site cause) s (fun u => fenced u ∧ kept u)) ∧
      (cause ≠ .router → s.order? (.fence site) = none → s.ringRuns site = false → Numbered s →
        Answers (.coreFence site cause) s (fun u => (mfind u.net.fences site).isSome = true ∧ (u.order? (.fence site)).isSome = true ∧
          (TraceOff s → SameMemory s u))) ∧
      (cause ≠ .router → ∀ r, s.order? (.fence site) = some r → (mfind s.net.fences site).isSome = true →
        (r.state = .arrived → Answers (.coreFence site cause) s (fun u => fenced u ∧ kept u)) ∧
        (r.state ≠ .arrived → exec (.coreFence site cause) s = .next s))) ∧
    (hasSite s.roster.enabled site = true → hasSite s.roster.fenced site = false →
      Answers (.controlAckTimeout site) s fenced) ∧
    (∀ f, mfind s.roster.waking site = some f → s.regionOn (regionOf site) = true →
      (hasSite s.roster.fenced site = false → Answers (.wakeCheckDone site false) s fenced) ∧
      (f < 4096 → Answers (.wakeCheckDone site true) s (fun u => hasSite u.roster.enabled site = true ∧
        mfind u.roster.waking site = none))) ∧
    (∀ lane < 32, s.removable site = true →
      (mfind s.roster.badLane site = none → Answers (.laneFault site lane) s (fun u =>
        hasSite u.roster.restricted site = true ∧ hasSite u.roster.enabled site = false ∧
        mfind u.roster.badLane site = some lane)) ∧
      (∀ l, mfind s.roster.badLane site = some l → l / 16 ≠ lane / 16 → Answers (.laneFault site lane) s fenced))) ∧
  (∀ (s : State) (src dst w : Nat), src < s.sites → dst < s.sites → mfind s.roster.waking dst = some src →
    w = s.winSize (siteHalf src) (siteSlice src) → w ≠ 0 → s.retired (siteHalf src) (siteSlice src) = false →
    s.sliceTakes dst w = true → mkeysUp s.mem = true → TraceOff s →
    Answers (.windowCopy src dst) s (fun u => u.winSize (siteHalf dst) (siteSlice dst) = w ∧
      u.winSize (siteHalf src) (siteSlice src) = 0 ∧
      u.winPart (siteHalf dst) (siteSlice dst) = s.winPart (siteHalf src) (siteSlice src) ∧
      (∀ x < w * 0x100000, u.byte (winBase + dst * 0x400000 + x) = s.byte (winBase + src * 0x400000 + x)) ∧
      (∀ a, (a < winBase + dst * 0x400000 ∨ winBase + (dst + 1) * 0x400000 ≤ a) →
        (a < winBase + src * 0x400000 ∨ winBase + (src + 1) * 0x400000 ≤ a) → u.byte a = s.byte a))) ∧
  (∀ (s : State) (cid lin i : Nat) (c : Cmd) (x : Nat × Block), s.cmd? cid = some c → c.phase = .running →
    c.replay.find? (fun y => y.1 == lin) = some x → (∀ y ∈ c.replay, lin ≤ y.1) → s.choose c = some i → i ∈ c.cores → i ∈ c.launched →
    (x.2.images = [] ∨ ∃ im bs, x.2.images = [im] ∧ s.reloadImage (c.reloadEng i lin) im = .ok bs) →
    Answers (.replayPlace cid) s (fun u => (∃ k, u.cmd? cid = some k ∧ k.recovered = true ∧ ∀ y ∈ k.replay, y.1 ≠ lin) ∧
      ∃ bs b, mfind (s.core i).blocks bs = none ∧ mfind (u.core i).blocks bs = some b ∧ b.cid = cid ∧ b.lin = lin ∧
        b.commits = x.2.commits ∧ b.strips = x.2.strips))

/-- R237, R328, R329, R373, R388, R412: a failed regulator caps its region, and with a failed neighbour both go dark; a failed
router is bypassed where the rule of R237 covers it; the queues of a failed command processor go to the next; a half can be lost; a
health record that is due is stored in its slot, or the old one stays. -/
def Obligations.UnitsFail : Prop :=
  (∀ (s : State) (stack region : Nat), stack < s.stacks → region < 256 → s.regF (stack * 256 + region) 3 3 = 0 →
    s.regF (stack * 256 + region) 1 0 ≠ 3 →
    ((∀ x ∈ neighboursOf (stack * 256 + region), s.regF x 3 3 ≠ 1) →
      Answers (.regulatorFail stack region) s (fun u => u.regF (stack * 256 + region) 3 3 = 1 ∧
        u.regF (stack * 256 + region) 1 0 = s.regF (stack * 256 + region) 1 0 ∧ Counted s u (.pwr stack) 0x80C 1 ∧
        (s.regF (stack * 256 + region) 1 0 ≠ 1 ∨ 8 ≤ s.regF (stack * 256 + region) 23 20 → u.regF (stack * 256 + region) 4 4 = 1))) ∧
    (∀ x ∈ neighboursOf (stack * 256 + region), s.regF x 3 3 = 1 →
      Answers (.regulatorFail stack region) s (fun u => u.regF (stack * 256 + region) 1 0 = 3 ∧ u.regF x 1 0 = 3))) ∧
  (∀ (s : State) (site : Nat), site < s.sites → site ∉ s.net.bypassed →
    ∀ i ∈ [Instr.routerCreditTimeout site, .routerBypass site],
      (s.bypassRule site = true → Answers i s (fun u => site ∈ u.net.bypassed ∧
        ∀ k ∈ u.net.packets, k.at_ ≠ site)) ∧
      (s.bypassRule site = false → Answers i s (fun u => (u.half (siteHalf site)).lost = true))) ∧
  (∀ (s : State) (stack cp : Nat), stack < s.stacks → cp < 4 →
    Answers (.commandProcessorWatchdog stack cp) s (fun u => ∀ i < 4,
      u.processor stack i = if s.processor stack i = cp then (cp + 1) % 4 else s.processor stack i)) ∧
  (∀ (s : State) (half : Nat), half < s.devices → Answers (.halfLoss half) s (fun u => (u.half half).lost = true ∧
    ∀ h, h ≠ half → (u.half h).lost = (s.half h).lost)) ∧
  (∀ s : State, (s.flash.due = false ∨ s.flash.storing.isSome = true) → exec .healthRecordStore s = .next s) ∧
  (∀ s : State, s.flash.due = true → s.flash.storing = none → s.boot.bank.isSome = true →
    Answers .healthRecordStore s (fun u => u = { s with flash := { s.flash with due := false, storing := u.flash.storing } } ∧
      ∃ k h q, u.flash.storing = some (.health k h q) ∧ h.entries = s.health.entries ∧ h.retired = s.health.retired)) ∧
  (∀ (s : State) (k : Nat) (h : Health) (q : Nat), s.flash.storing = some (.health k h q) →
    Answers (.flashStoreDone true) s (fun u => u.flash.storing = none ∧
      (if k = 0 then u.flash.healthA = some (h, q) ∧ u.flash.healthB = s.flash.healthB
       else u.flash.healthB = some (h, q) ∧ u.flash.healthA = s.flash.healthA)) ∧
    Answers (.flashStoreDone false) s (fun u => u.flash.storing = none ∧ u.flash.healthA = s.flash.healthA ∧
      u.flash.healthB = s.flash.healthB))

/-! ## Queues and commands -/

/-- R211, R262, R266 to R270, R277: a queue is enabled with good bases, else stops with error 4; a doorbell sets its index, an index beyond
the queue stops it, a dead queue ignores and counts it, and behind window writes that wait it waits too; a fetch sends a read first, to the
host or to its place in device memory; with its answer it accepts the next packet, an unknown opcode refused, a poisoned packet consumed; an
interrupt is sent, or pends while its vector is masked. -/
def Obligations.QueuesAndDoorbells : Prop :=
  (∀ (s : State) (port queue : Nat) (word : W32) (q : Queue), port < 4 → s.linkUp port = true → s.queueOf port queue = true →
    (s.queue port queue).en = false → word.getLsbD 0 = true →
    q = { s.queue port queue with
      sqDev := word.getLsbD 1, cqDev := word.getLsbD 2, detailDev := word.getLsbD 3, intEach := word.getLsbD 4
      sizeM1 := getF 23 8 word } →
    let good : Bool := s.baseOk queue q.sqDev q.sqBase (64 * q.size) && s.baseOk queue q.cqDev q.cqBase (16 * q.size) &&
      s.baseOk queue q.detailDev q.detailBase (32 * q.size)
    (good = true → Answers (.queueEnable port queue word) s (fun u => u.queue port queue = { q with en := true })) ∧
    (good = false → Answers (.queueEnable port queue word) s (fun u => (u.queue port queue).en = false ∧
      (u.queue port queue).qerr = true ∧ (u.queue port queue).qerrCode = 4))) ∧
  (∀ (s : State) (port queue : Nat) (value : W32), port < 4 → s.linkUp port = true → (s.port port).posted ≠ [] →
    ∀ p ∈ [(Instr.sqTailDoorbell port queue value, 0), (.cqHeadDoorbell port queue value, 1)],
      Answers p.1 s (fun u => u.host.queues = s.host.queues ∧
        (u.port port).posted = (s.port port).posted ++ [(false, 2 * queue + p.2, toBytes 4 value.toNat)])) ∧
  (∀ (s : State) (port queue v : Nat) (value : W32), port < 4 → s.linkUp port = true → (s.port port).posted = [] →
    v = getF 15 0 value →
    (s.queueLive port queue = true → v < (s.queue port queue).size →
      Answers (.sqTailDoorbell port queue value) s (fun u => u.queue port queue = { s.queue port queue with sqTail := v }) ∧
      Answers (.cqHeadDoorbell port queue value) s (fun u => u.queue port queue = { s.queue port queue with cqHead := v })) ∧
    (s.queueLive port queue = true → (s.queue port queue).size ≤ v →
      (v ≠ (s.queue port queue).sqTail → Answers (.sqTailDoorbell port queue value) s (fun u =>
        (u.queue port queue).en = false ∧ (u.queue port queue).qerrCode = 1)) ∧
      (v ≠ (s.queue port queue).cqHead → Answers (.cqHeadDoorbell port queue value) s (fun u =>
        (u.queue port queue).en = false ∧ (u.queue port queue).qerrCode = 1))) ∧
    (s.queueLive port queue = false → ∀ i ∈ [Instr.sqTailDoorbell port queue value, .cqHeadDoorbell port queue value],
      Answers i s (fun u => u.host.queues = s.host.queues ∧ Counted s u (s.hpBlk port) 0x108 1))) ∧
  (∀ (s : State) (port queue a : Nat) (q : Queue) (pkt : List W32) (bs : List PByte), port < 4 → s.mayFetch port queue = true →
    s.cmds.length < 4096 → (∀ c ∈ s.cmds, c.cid ≠ s.nextCid) → q = s.queue port queue → a = q.sqBase + 64 * q.sqHead →
    (q.sqDev = false → queue ∉ (s.port port).reads → (s.port port).reads.length < 4096 → ∀ fails,
      Answers (.commandFetch port queue fails) s (fun u =>
        (u.port port).reads = (s.port port).reads ++ [queue] ∧ u.cmds = s.cmds ∧ u.host.queues = s.host.queues)) ∧
    (q.sqDev = true → s.gatherOne (s.ringEng port queue) (.here a 64) = .wait → Numbered s → ∀ fails,
      Answers (.commandFetch port queue fails) s (fun u =>
        Reads u (s.ringEng port queue) a 64 ∧ u.nextCid = s.nextCid ∧ u.host.queues = s.host.queues)) ∧
    ((q.sqDev = false ∧ queue ∈ (s.port port).reads ∧ bs = clean (s.hostBytes port a 64) ∨
        q.sqDev = true ∧ s.gatherOne (s.ringEng port queue) (.here a 64) = .data bs) →
      pkt = dwordsOf 16 (bs.map (·.1)) →
      Answers (.commandFetch port queue false) s (fun u =>
        u.queue port queue = { q with sqHead := (q.sqHead + 1) % q.size, inflight := q.inflight + 1 } ∧
        u.nextCid = s.nextCid + 1 ∧
        ∃ k, u.cmd? s.nextCid = some k ∧ k.pkt = pkt ∧ k.port = port ∧ k.queue = queue ∧ k.accepted = s.timeOf (s.part.grade.hostPort port).1 ∧
          if bs.any (·.2) = true then k.phase = .ending ∧ k.status = 0x12
          else if (partOnly ++ bothQueues ++ adminOnly).contains (getF 7 0 (nth 0 pkt 0)) = true then k.phase = .accepted
          else k.phase = .ending ∧ k.status = 0x01))) ∧
  (∀ (s : State) (port v : Nat) (vs : List Nat), port < 4 → (s.port port).irqs = v :: vs → s.linkUp port = true →
    ((s.port port).d3hot = true → exec (.msiXInterrupt port) s = .next s) ∧
    ((s.port port).d3hot = false → Answers (.msiXInterrupt port) s (fun u => (u.port port).irqs = vs ∧
      if port * 2048 + v ∉ s.host.msixUnmasked then port * 2048 + v ∈ u.host.msixPending ∧ (u.port port).sent = (s.port port).sent
      else (u.port port).sent = (s.port port).sent ++ [v] ∧ u.host.msixPending = s.host.msixPending)))

/-- R271, R272, R277: a command that may not start yet stays as it is; one that fails a check ends at once with the status of the
first check it fails, and nothing else changes. -/
def Obligations.CommandsStartOrAreRefused : Prop :=
  ∀ p ∈ commandRows, ∀ (s : State) (cid : Nat) (c : Cmd), s.cmd? cid = some c → p.1 c = true → c.phase = .accepted →
    (s.canStart c = false → exec (p.2 cid) s = .next s) ∧
    (∀ st, s.canStart c = true → s.refusal c = some st →
      Answers (p.2 cid) s (fun u => (∃ k, u.cmd? cid = some k ∧ k.phase = .ending ∧ k.status = st) ∧
        u = { s with cmds := u.cmds } ∧ ∀ d ∈ s.cmds, d.cid ≠ cid → d ∈ u.cmds))

/-- R23, R24, R111, R131, R232, R246, R265, R270, R273, R274, R422, R423: launch and end orders go to the cores of a command; where one has come
the core passes the boundary with its L1 empty, and acknowledges the end once its accesses have been performed; when every core's answer has
come the completion time is taken and the counter record written; the reply goes to the completion ring, what lies in device memory first, and
the command is forgotten; a command past its deadline ends with TIMEOUT. -/
def Obligations.CommandBoundaries : Prop :=
  (∀ (s : State) (cid site : Nat) (c : Cmd), site < s.sites → s.cmd? cid = some c →
    let sent (i : Instr) (msg : CtlMsg) : Prop := s.order? msg = none → s.ringRuns site = false → Numbered s →
      Answers i s (fun u => (u.order? msg).isSome = true ∧ (TraceOff s → SameMemory s u))
    let came (msg : CtlMsg) (r : Req) : Prop := s.order? msg = some r ∧ r.state = .arrived
    let inState (u : State) (r : Req) (x : ReqState) : Prop := ∃ q, u.req? r.rid = some q ∧ q.state = x
    (c.begun = true → site ∈ c.cores → site ∉ c.launched → (c.phase = .running ∨ c.phase = .ending) →
      sent (.launchMessage cid site) (.launch cid site) ∧
      ∀ r, came (.launch cid site) r → Answers (.launchMessage cid site) s (fun u =>
        (∃ k, u.cmd? cid = some k ∧ site ∈ k.launched) ∧ (u.core site).l1 = [] ∧ inState u r .performed)) ∧
    (c.phase = .ending → c.replay = [] → site ∈ c.launched → site ∉ c.ordered →
      sent (.endBoundaryOrder cid site) (.endOrder cid site) ∧
      ∀ r, came (.endOrder cid site) r → Answers (.endBoundaryOrder cid site) s (fun u =>
        (∃ k, u.cmd? cid = some k ∧ site ∈ k.ordered) ∧ (u.core site).l1 = [] ∧ inState u r .missing ∧
        ∀ e ∈ (u.core site).blocks, e.2.cid ≠ cid)) ∧
    (site ∈ c.ordered → site ∉ c.acked →
      (s.accessing cid (some site) = true → exec (.coreAcknowledge cid site) s = .next s) ∧
      (s.accessing cid (some site) = false →
        (s.ringRuns site = false → ∀ r, s.order? (.endOrder cid site) = some r → r.state = .missing →
          Answers (.coreAcknowledge cid site) s (fun u => inState u r .performed ∧ SameMemory s u)) ∧
        ∀ r k, s.req? r.rid = some r → r.kind = .order (.endOrder cid site) → r.slot = 71 → r.remote = none → r.ended = false →
          r.refused = false →
          s.net.packets.find? (fun k => k.rid == r.rid && k.response && k.at_ == k.dest && s.canMove k && s.wins k) = some k →
          Answers (.responseArrival r.rid) s (fun u => (∃ d, u.cmd? cid = some d ∧ site ∈ d.acked) ∧ SameMemory s u)))) ∧
  (∀ (s : State) (cid : Nat) (c : Cmd), s.cmd? cid = some c → c.phase = .ending → c.replay = [] →
    (c.begun = true → ∀ i ∈ c.cores, i ∈ c.acked) → s.accessing cid none = false →
    (∀ h ∈ s.halves, ∀ x ∈ h.2.staged, x.cid ≠ cid) →
    Answers (.commandEndBoundary cid) s (fun u => (∃ k, u.cmd? cid = some k ∧ k.phase = .bounded ∧ k.bounded = s.timeOf (s.cpStack c)) ∧
      (Numbered s → c.admin = false → (s.recRing c.part).2 ≠ 0 → c.recIndex ≠ 0xFFFFFFFF#32 →
        Writes u (s.cmdEng c) ((s.recRing c.part).1 + 256 * (c.recIndex.toNat % (s.recRing c.part).2))
          (clean (c.record c.recIndex (s.timeOf (s.cpStack c))))))) ∧
  (∀ (s : State) (cid : Nat) (c : Cmd) (q : Queue), s.cmd? cid = some c → c.phase = .bounded → q = s.queue c.port c.queue →
    s.engBusy (s.cmdEng c) = false → (c.admin = false → ((mfind s.parts c.part).map (·.resetting)).getD false = false) →
    (∀ d ∈ s.cmds, d.cid ≠ cid → d.port = c.port → d.queue = c.queue → d.replyAt = none) →
    let d3 : Prop := (s.port c.port).d3hot = true
    let toHost : Prop := q.cqDev = false ∨ (q.detailDev = false ∧ (c.replyDetail s).isSome = true)
    let movedOn (u : State) : Prop := u.queue c.port c.queue = { q with
      cqTail := (q.cqTail + 1) % q.size, phase := if q.cqTail + 1 = q.size then !q.phase else q.phase, inflight := q.inflight - 1 }
    let done (u : State) : Prop := u.cmd? cid = none ∧ movedOn u ∧
      ((q.intEach = true ∨ c.flag 11 = true) → ¬ d3 → q.vector ∈ (u.port c.port).irqs) ∧
      (q.cqDev = false → u.hostBytes c.port (q.cqBase + 16 * q.cqTail) 16 = c.reply q.phase)
    let kept (u : State) : Prop := ∃ k, u.cmd? cid = some k ∧ k.phase = .replied
    (d3 ∨ s.linkUp c.port = true ∨ ¬ toHost →
      (c.replyAt = none → Numbered s → q.cqTail < q.size →
        (q.cqDev = true → Answers (.statusReply cid false) s (fun u => u.queue c.port c.queue = q ∧
          Writes u (s.cmdEng c) (q.cqBase + 16 * q.cqTail) (clean (c.reply q.phase)) ∧
          ∃ k, u.cmd? cid = some k ∧ k.phase = .bounded ∧ k.replyAt = some q.cqTail)) ∧
        (∀ d, q.cqDev = false → q.detailDev = true → c.replyDetail s = some d → (s.port c.port).held = [] →
          Answers (.statusReply cid false) s (fun u => u.queue c.port c.queue = q ∧
            Writes u (s.cmdEng c) (q.detailBase + 32 * q.cqTail) (clean (d.bytes c.result)) ∧
            ∃ k, u.cmd? cid = some k ∧ k.phase = .bounded ∧ k.replyAt = some q.cqTail))) ∧
      ((c.replyAt.isSome = true ∨ (q.cqDev = false ∧ (q.detailDev = false ∨ c.replyDetail s = none))) →
        (¬ d3 ∨ ¬ toHost → Answers (.statusReply cid false) s done) ∧
        (d3 → q.cqDev = false → Answers (.statusReply cid false) s (fun u => kept u ∧ (cid, none) ∈ (u.port c.port).held ∧ SameMemory s u)) ∧
        (d3 → q.cqDev = true → toHost → ∀ j, c.replyAt = some j → Answers (.statusReply cid false) s (fun u => kept u ∧ movedOn u ∧
          (cid, some j) ∈ (u.port c.port).held ∧ u.hmem = s.hmem)))) ∧
    (¬ d3 → Answers (.statusReply cid true) s (fun u => u.cmd? cid = none ∧ (u.queue c.port c.queue).en = false ∧
      (u.queue c.port c.queue).qerr = true ∧ (u.queue c.port c.queue).qerrCode = 3))) ∧
  (∀ (s : State) (cid d : Nat) (c : Cmd), s.cmd? cid = some c → c.deadline = some d →
    (d ≤ s.time.now → c.replay = [] → s.givingUp cid = false →
      (c.phase = .accepted ∨ c.phase = .running ∨
        (c.phase = .ending ∧ c.begun = true ∧ c.status = 0 ∧ c.detail = none)) →
      Answers (.commandTimeout cid) s (fun u => (∃ k, u.cmd? cid = some k ∧ k.phase = .ending ∧ k.status = 0x14) ∧
        SameMemory s u)) ∧
    (s.time.now < d ∨ c.replay ≠ [] ∨ s.givingUp cid = true → exec (.commandTimeout cid) s = .next s))

/-- R133, R162, R165, R192, R208, R210, R272, R276, R278, R279, R290: NOP ends; LAUNCH starts; COPY, FILL and REDUCE read their next piece, send
what it writes to its places once the source is to hand, go on once all of that is acknowledged, and end with the last; overlapping footprints
end a command with BAD_PARAM; SIGNAL sets or adds to its semaphore, WAIT ends once it is high enough, FENCE once the earlier commands have
replied. -/
def Obligations.ComputeAndCopyCommands : Prop :=
  (∀ (s : State) (cid : Nat) (c : Cmd), Due s cid c →
    (c.opcode = 0 → Answers (.nopCommand cid) s (fun u => Ended u cid 0 0 ∧ (TraceOff s → SameMemory s u))) ∧
    (c.opcode = 1 → Answers (.launch cid) s (fun u => Runs u cid ∧ (TraceOff s → SameMemory s u))) ∧
    (c.opcode = 8 → (mfind s.parts c.part).isSome = true → Answers (.signal cid) s (fun u => Ended u cid 0 0 ∧
      u.sem c.part (c.f 2 7 0) = (if (c.dw 2).getLsbD 8 then (s.sem c.part (c.f 2 7 0) + c.val64 4) % 2 ^ 64 else c.val64 4) ∧
      ∀ j, j ≠ c.f 2 7 0 → u.sem c.part j = s.sem c.part j)) ∧
    (c.opcode = 9 → Answers (.wait cid) s (fun u =>
      if c.val64 4 ≤ s.sem c.part (c.f 2 7 0) then Ended u cid 0 0 else Runs u cid)) ∧
    (c.opcode = 10 → Answers (.fenceCommand cid) s (fun u =>
      ((∃ d ∈ s.cmds, d.cid < cid ∧ d.admin = false ∧ d.part = c.part ∧ s.replyWritten d = false ∧
        ((c.dw 2).getLsbD 0 = true ∨ d.queue = c.queue)) → Runs u cid) ∧
      ((∀ d ∈ s.cmds, d.cid < cid → d.admin = false → d.part = c.part → (c.dw 2).getLsbD 0 = false ∧ d.queue ≠ c.queue) →
        Ended u cid 0 0)))) ∧
  (∀ (s : State) (cid : Nat) (c : Cmd), Due s cid c → TraceOff s →
    let e := s.cmdEng c
    let sentNext (u : State) : Prop := SameMemory s u ∧ ∃ k, u.cmd? cid = some k ∧ k.sentPiece = some c.nextBlock
    let asks (i : Instr) (src : List Piece) : Prop := c.sentPiece ≠ some c.nextBlock → s.gather e src = .wait → Numbered s →
      Answers i s (fun u => SameMemory s u ∧ (∀ a n, Piece.here a n ∈ src → Reads u e a n) ∧
        (StaysHere s cid → (∀ p ∈ src, ∃ a n, p = .here a n) → Runs u cid))
    let goesOn (i : Instr) (n : Nat) : Prop := c.sentPiece = some c.nextBlock → Answers i s (fun u => SameMemory s u ∧
      if s.engBusy e = true then Runs u cid
      else if n ≤ (c.nextBlock + 1) * 65536 then Ended u cid 0 0
      else ∃ k, u.cmd? cid = some k ∧ k.phase = .running ∧ k.nextBlock = c.nextBlock + 1 ∧ k.sentPiece = none)
    (∀ o k, c.opcode = 2 → (c.dw 8).getLsbD 15 = false → (c.dw 8).getLsbD 16 = false → (o, k) = c.piece (c.val64 6) →
      let src := c.runs (c.addr 2 + o) k
      let dst := c.runs (c.addr 4 + o) k
      (meets (c.addr 2) (c.val64 6) (c.addr 4) (c.val64 6) = true →
        Answers (.copy cid) s (fun u => Ended u cid 0x02 0 ∧ SameMemory s u)) ∧
      (meets (c.addr 2) (c.val64 6) (c.addr 4) (c.val64 6) = false →
        asks (.copy cid) src ∧ goesOn (.copy cid) (c.val64 6) ∧
        ∀ bs, c.sentPiece ≠ some c.nextBlock → s.gather e src = .data bs → awayPoison src bs = none → awayPoison dst bs = none →
          Numbered s → Answers (.copy cid) s (fun u => sentNext u ∧ ∀ x ∈ spread 0 dst bs, Writes u e x.1 x.2.2))) ∧
    (∀ o k, c.opcode = 3 → (o, k) = c.piece (c.val64 4) →
      goesOn (.fill cid) (c.val64 4) ∧
      (c.sentPiece ≠ some c.nextBlock → Numbered s → Answers (.fill cid) s (fun u => sentNext u ∧
        ∀ x ∈ spread 0 (c.runs (c.addr 2 + o) k) (clean (repeatBytes (toBytes 8 (c.val64 6)) (k / 8))), Writes u e x.1 x.2.2))) ∧
    (∀ o k, c.opcode = 5 → (o, k) = c.piece (c.val64 6) →
      let src := c.runs (c.addr 2 + o) k
      let dst := c.runs (c.addr 4 + o) k
      (meets (c.addr 2) (c.val64 6) (c.addr 4) (c.val64 6) = true →
        Answers (.reduce cid) s (fun u => Ended u cid 0x02 0 ∧ SameMemory s u)) ∧
      (meets (c.addr 2) (c.val64 6) (c.addr 4) (c.val64 6) = false →
        asks (.reduce cid) src ∧ goesOn (.reduce cid) (c.val64 6) ∧
        ∀ bs, c.sentPiece ≠ some c.nextBlock → s.gather e src = .data bs → awayPoison src bs = none → awayPoison dst bs = none →
          Numbered s → Answers (.reduce cid) s (fun u => sentNext u ∧
            ∀ x ∈ spread o dst bs, Reduces u e (c.f 8 3 0) (c.flag 9) (x.2.1 / reduceSize (c.f 8 3 0)) x.1 x.2.2)))) ∧
  (∀ (s : State) (cid : Nat) (c : Cmd), Due s cid c → c.opcode = 4 → TraceOff s →
    Answers (.transpose cid) s (fun u => SameMemory s u ∧
      (if meets c.xpose.src (matrixSpan c.xpose.elem c.xpose.rows c.xpose.cols c.xpose.sstr) c.xpose.dst c.xpose.span
       then Ended u cid 0x02 0 else Runs u cid)))

/-- R153 to R157, R173, R276: PIN is refused without a free entry, on overlap or beyond a cap, else takes entries and ends with its
lowest entry once its lines are pinned; UNPIN frees its entries and unpins their lines; LOCALIZE checks the slices it names in its turn
with the PINs, stalls each that no command of the partition uses, and gives it its window, cleared where it shrinks. -/
def Obligations.PinAndLocalizeCommands : Prop :=
  (∀ (s : State) (cid a n : Nat) (c : Cmd), Due s cid c → c.opcode = 0x10 → a = c.addr 2 → n = c.f 4 23 0 * 65536 →
    (c.pieces = [] → s.inTurn c = false → Answers (.pin cid) s (fun u => Runs u cid)) ∧
    (c.pieces = [] → s.inTurn c = true →
      ((∃ t ∈ s.homeStacks a n, s.freePin t = none) → Answers (.pin cid) s (fun u => Ended u cid 0x21 0)) ∧
      ((∀ t ∈ s.homeStacks a n, s.freePin t ≠ none) →
        (s.pinOverlap a n = true → Answers (.pin cid) s (fun u => Ended u cid 0x22 0)) ∧
        (s.pinOverlap a n = false →
          (s.pinBreaks c.part (lineList a n) ≠ [] → Answers (.pin cid) s (fun u => Ended u cid 0x20 0)) ∧
          (s.pinBreaks c.part (lineList a n) = [] → Answers (.pin cid) s (fun u => Runs u cid ∧
            ∀ t ∈ s.homeStacks a n, ∀ i, s.freePin t = some i → u.pinF t i 0 0 = 1 ∧ u.pinF t i 2 1 = 0 ∧
              u.pinF t i 6 3 = c.part ∧ (u.rg (.sc (2 * t)) (pinOff i)).toNat = a / 65536 % 2 ^ 32))))) ∧
    (c.pieces ≠ [] → (∀ l ∈ lineList a n, s.isPinned l = true) →
      Answers (.pin cid) s (fun u => Ended u cid 0 (lowestEntry c.pieces) ∧
        ((∀ e ∈ c.pieces, e / 64 < s.stacks) → ∀ e ∈ c.pieces, u.pinF (e / 64) (e % 64) 2 1 =
          if s.pinF (e / 64) (e % 64) 2 1 = 0 then 1 else s.pinF (e / 64) (e % 64) 2 1)))) ∧
  (∀ (s : State) (cid : Nat) (c : Cmd) (es : List (Nat × Nat)), Due s cid c → c.opcode = 0x11 →
    es = s.pinsOf c.part (fun t i => (s.pinRange t i).1 == c.addr 2) →
    (c.pieces = [] →
      (es = [] → Answers (.unpin cid) s (fun u => Ended u cid 0x23 0)) ∧
      (es ≠ [] → (∃ e ∈ es, s.pinF e.1 e.2 2 1 = 0 ∨ s.pinF e.1 e.2 2 1 = 3) → Answers (.unpin cid) s (fun u => Runs u cid)) ∧
      (es ≠ [] → (∀ e ∈ es, s.pinF e.1 e.2 2 1 ≠ 0 ∧ s.pinF e.1 e.2 2 1 ≠ 3) → Answers (.unpin cid) s (fun u => Runs u cid ∧
        ∀ e ∈ es, u.pinF e.1 e.2 2 1 = 3))) ∧
    (c.pieces ≠ [] → (∀ e ∈ c.pieces, e / 64 < s.stacks) → Answers (.unpin cid) s (fun u => Ended u cid 0 0 ∧
      ∀ e ∈ c.pieces, u.pinF (e / 64) (e % 64) 0 0 = 0 ∧ ∀ h ∈ [2 * (e / 64), 2 * (e / 64) + 1], ∀ x ∈ (u.half h).lines,
        lineIn (s.pinRange (e / 64) (e % 64)).1 (s.pinRange (e / 64) (e % 64)).2 x.2.line = true → x.2.pinned = false))) ∧
  (∀ (s : State) (cid : Nat) (c : Cmd), Due s cid c → c.opcode = 0x12 → TraceOff s →
    (c.sentPiece = none →
      (s.inTurn c = false → Answers (.localize cid) s (fun u => Runs u cid ∧ SameMemory s u)) ∧
      (s.inTurn c = true →
        ((∃ i ∈ c.localSites, s.retired (siteHalf i) (siteSlice i) = true) →
          Answers (.localize cid) s (fun u => Ended u cid 0x04 0)) ∧
        ((∀ i ∈ c.localSites, s.retired (siteHalf i) (siteSlice i) = false) →
          ((∃ i ∈ c.localSites, s.pinsFit (siteHalf i) (siteSlice i) (c.f 3 2 0) = false) →
            Answers (.localize cid) s (fun u => Ended u cid 0x20 0)) ∧
          ((∀ i ∈ c.localSites, s.pinsFit (siteHalf i) (siteSlice i) (c.f 3 2 0) = true) →
            Answers (.localize cid) s (fun u => SameMemory s u ∧
              ∃ k, u.cmd? cid = some k ∧ k.phase = .running ∧ k.sentPiece = some 0))))) ∧
    (c.sentPiece ≠ none → ((mfind s.parts c.part).map (·.resetting)).getD false = false →
      (∀ i ∈ c.localSites ++ c.retried, i < s.sites) → (∀ i ∈ c.retried, s.retired (siteHalf i) (siteSlice i) = false) →
      Answers (.localize cid) s (fun u =>
        (∀ i ∈ c.retried, u.winSize (siteHalf i) (siteSlice i) = c.f 3 2 0 ∧
          (c.f 3 2 0 ≠ 0 → u.winPart (siteHalf i) (siteSlice i) = c.part) ∧
          ∀ x, min (c.f 3 2 0) (s.winSize (siteHalf i) (siteSlice i)) * 0x100000 ≤ x → x < 0x400000 →
            u.byte (winBase + i * 0x400000 + x) = 0) ∧
        (∀ x, (∀ i ∈ c.retried, x < winBase + i * 0x400000 ∨ winBase + (i + 1) * 0x400000 ≤ x) → u.byte x = s.byte x) ∧
        (∀ i ∈ c.localSites, i ∉ c.pieces → i ∉ c.retried → s.runsOn c.part i = false →
          siteSlice i ∈ (u.half (siteHalf i)).stalled ∧ ∃ k, u.cmd? cid = some k ∧ i ∈ k.retried) ∧
        if ∀ i ∈ c.localSites, i ∈ c.pieces ∨ i ∈ c.retried then Ended u cid 0 0 else Runs u cid)))

/-- R194, R195, R197 to R200, R276, R452: a context command waits for the writes of those before it and reads its descriptor; one that reads a
poisoned descriptor consumes it; CTX_CREATE makes an empty context with the next generation where none is, CTX_APPEND maps its pages,
CTX_TRUNCATE shortens, CTX_FREE frees, both drop the translations that cores keep; CTX_QUERY writes out the descriptor. Each is refused with the
status of its first failed check. -/
def Obligations.ContextCommands : Prop :=
  ∀ (s : State) (cid x a : Nat) (c : Cmd), Due s cid c → x = c.f 2 19 0 → a = s.descAddr x → TraceOff s → StaysHere s cid → Numbered s →
    let e := s.cmdEng c
    let now := s.timeOf (s.cpStack c)
    let may (op : Nat) : Prop := s.ctxWriting c = false ∧ (op ∈ [0x1A, 0x1B] → s.earlierBounded c = true)
    let ends (st : Nat) (u : State) : Prop := Ended u cid st 0 ∧ SameMemory s u
    let writes (u : State) (at_ : Nat) (bs : List Byte) : Prop := Writes u e at_ (clean bs)
    let cleared (u : State) (d : Desc) (n : Nat) : Prop :=
      (∀ i, n ≤ i → i < 4096 → s.num (d.entryAddr i) 8 ≠ 0 → writes u (d.entryAddr i) (toBytes 8 0)) ∧
      ∀ j, cdiv n 64 ≤ j → j < 64 → writes u (d.list + 8 * j) (toBytes 8 0)
    (∀ p ∈ [(0x18, Instr.ctxCreate cid), (0x19, .ctxAppend cid), (0x1A, .ctxTruncate cid), (0x1B, .ctxFree cid), (0x1C, .ctxQuery cid)],
      c.opcode = p.1 →
      (¬ may p.1 → Answers p.2 s (fun u => Runs u cid ∧ SameMemory s u)) ∧
      (may p.1 → s.gatherOne e (.here a 64) = .wait → Answers p.2 s (fun u => Runs u cid ∧ SameMemory s u ∧ Reads u e a 64)) ∧
      (may p.1 → ∀ bs, s.gatherOne e (.here a 64) = .data bs → bs.any (·.2) = true →
        Answers p.2 s (fun u => ∃ k, u.cmd? cid = some k ∧ k.phase = .ending ∧ k.status = 0x12))) ∧
    (∀ bs d, s.gatherOne e (.here a 64) = .data bs → bs.any (·.2) = false → d = (s.overlay a bs).desc x → may c.opcode →
      (c.opcode = 0x18 →
        (d.valid = true → Answers (.ctxCreate cid) s (ends 0x28)) ∧
        (d.valid = false → s.rgF (.ctx 0) (0x100 + 8 * c.part) 20 0 ≤ s.rgF (.ctx 0) (0x104 + 8 * c.part) 20 0 →
          Answers (.ctxCreate cid) s (ends 0x29)) ∧
        (d.valid = false → s.rgF (.ctx 0) (0x104 + 8 * c.part) 20 0 < s.rgF (.ctx 0) (0x100 + 8 * c.part) 20 0 →
          ((c.addr 4 % 512 ≠ 0 ∨ s.inRanges c.part (c.addr 4) 33280 = false) → Answers (.ctxCreate cid) s (ends 0x2A)) ∧
          (c.addr 4 % 512 = 0 → s.inRanges c.part (c.addr 4) 33280 = true → Answers (.ctxCreate cid) s (fun u => ends 0 u ∧
            writes u a (Desc.bytes ⟨true, c.part, (d.gen + 1) % 65536, 0, 0, c.addr 4, now, (upTo 6 8).flatMap (fun i => toBytes 4 (c.dw i).toNat)⟩) ∧
            writes u (c.addr 4) (List.replicate 512 0) ∧
            u.rgF (.ctx 0) (0x104 + 8 * c.part) 20 0 = s.rgF (.ctx 0) (0x104 + 8 * c.part) 20 0 + 1)))) ∧
      (c.opcode = 0x19 →
        (d.mine c = false → Answers (.ctxAppend cid) s (ends 0x2B)) ∧
        (d.mine c = true →
          ((4096 < d.pages + c.f 3 3 0 ∨ c.f 4 28 0 < d.length ∨ 65536 * (d.pages + c.f 3 3 0) < c.f 4 28 0) →
            Answers (.ctxAppend cid) s (ends 0x2C)) ∧
          (d.pages + c.f 3 3 0 ≤ 4096 → d.length ≤ c.f 4 28 0 → c.f 4 28 0 ≤ 65536 * (d.pages + c.f 3 3 0) →
            ((∃ i < c.f 3 3 0, s.inRanges c.part ((c.dw (5 + i)).toNat * 65536) 65536 = false) →
              Answers (.ctxAppend cid) s (ends 0x2A)) ∧
            ((∀ i < c.f 3 3 0, s.inRanges c.part ((c.dw (5 + i)).toNat * 65536) 65536 = true) →
              Answers (.ctxAppend cid) s (fun u => ends 0 u ∧
                writes u a (Desc.bytes { d with pages := d.pages + c.f 3 3 0, length := c.f 4 28 0, updated := now }) ∧
                ∀ i < c.f 3 3 0, writes u (d.entryAddr (d.pages + i)) (toBytes 8 ((c.dw (5 + i)).toNat * 65536 + 1)) ∧
                  writes u (d.list + 8 * ((d.pages + i) / 64)) (toBytes 8 (d.list + 512 * ((d.pages + i) / 64 + 1) + 1))))))) ∧
      (c.opcode = 0x1A →
        (d.mine c = false → Answers (.ctxTruncate cid) s (ends 0x2B)) ∧
        (d.mine c = true → d.length < (c.dw 3).toNat → Answers (.ctxTruncate cid) s (ends 0x2C)) ∧
        (d.mine c = true → (c.dw 3).toNat ≤ d.length → Answers (.ctxTruncate cid) s (fun u => ends 0 u ∧
          cleared u d (cdiv (c.dw 3).toNat 65536) ∧ (∀ i ∈ s.partCores c.part, (u.core i).trans = []) ∧
          writes u a (Desc.bytes { d with pages := cdiv (c.dw 3).toNat 65536, length := (c.dw 3).toNat, updated := now })))) ∧
      (c.opcode = 0x1B →
        (d.mine c = false → Answers (.ctxFree cid) s (ends 0x2B)) ∧
        (d.mine c = true → Answers (.ctxFree cid) s (fun u => ends 0 u ∧ writes u a (Desc.bytes { d with valid := false, updated := now }) ∧
          cleared u d 0 ∧ (∀ i ∈ s.partCores c.part, (u.core i).trans = []) ∧
          u.rgF (.ctx 0) (0x104 + 8 * c.part) 20 0 = s.rgF (.ctx 0) (0x104 + 8 * c.part) 20 0 - 1))) ∧
      (c.opcode = 0x1C →
        (d.mine c = false → Answers (.ctxQuery cid) s (ends 0x2B)) ∧
        (d.mine c = true → c.f 3 0 0 = 0 → Answers (.ctxQuery cid) s (fun u => ends 0 u ∧ writes u (c.addr 4) d.bytes)) ∧
        (d.mine c = true → c.f 3 0 0 = 1 → s.hostWaits c.port = false → Answers (.ctxQuery cid) s (fun u => Ended u cid 0 0 ∧
          u.hostBytes c.port (c.addr 4) 64 = d.bytes ∧ u.mem = s.mem))))

/-- R276, R280, R332, R334, R337, R425, R427, R428: TRIM_SET sets the clamped setting; PARK switches off the named regions once they
are idle, UNPARK starts them and ends once they are up; COUNTER_SNAP writes a snapshot of each core; TRACE_CTL stops, starts and
sets its rings; a SELFTEST ends with the number of units that failed. -/
def Obligations.PowerTraceAndTestCommands : Prop :=
  (∀ (s : State) (cid : Nat) (c : Cmd), Due s cid c → c.opcode = 0x20 → Answers (.trimSet cid) s (fun u => Ended u cid 0 0 ∧
    u.rgF .trim 0x004 15 0 = min (c.dw 2).toNat s.part.grade.maxPower ∧
    u.rgF .trim 0x00C 15 0 = min (c.dw 4).toNat (min (c.dw 2).toNat s.part.grade.maxPower) ∧
    u.rgF .trim 0x008 15 0 = (c.dw 3).toNat % 65536 ∧ u.power.trimPending.isSome = true)) ∧
  (∀ (s : State) (cid : Nat) (c : Cmd), Due s cid c → c.opcode = 0x21 →
    ((∃ r ∈ s.namedRegions c, ∃ i ∈ regionSites r, s.corePart i = some c.part ∧
        ((s.core i).blocks ≠ [] ∨ s.runsOn c.part i = true)) → Answers (.park cid) s (fun u => Runs u cid)) ∧
    ((∀ r ∈ s.namedRegions c, ∀ i ∈ regionSites r, s.corePart i = some c.part →
        (s.core i).blocks = [] ∧ s.runsOn c.part i = false) →
      Answers (.park cid) s (fun u => Ended u cid 0 0 ∧ ∀ r ∈ s.namedRegions c, r ∈ u.power.cmdParked ∧
        (s.regF r 1 0 ≠ 3 → s.regionLent r = false → u.regF r 1 0 = 0)))) ∧
  (∀ (s : State) (cid : Nat) (c : Cmd), Due s cid c → c.opcode = 0x22 →
    (c.pieces = [] → (∃ r ∈ s.namedRegions c, s.regF r 1 0 = 0) → Answers (.unpark cid) s (fun u => Runs u cid ∧
      ∀ r ∈ s.namedRegions c, s.regF r 1 0 = 0 → u.regF r 1 0 = 1)) ∧
    (c.pieces ≠ [] → s.regionsUp (s.namedRegions c) = true → Answers (.unpark cid) s (fun u => Ended u cid 0 0))) ∧
  (∀ (s : State) (cid : Nat) (c : Cmd) (bs : List Byte), Due s cid c → c.opcode = 0x28 → TraceOff s →
    bs = (s.namedSites c (c.f 4 11 0) (decide (c.f 4 12 12 = 1))).flatMap (s.snapEntry c) →
    (c.admin = false → Numbered s → StaysHere s cid → Answers (.counterSnap cid) s (fun u => Ended u cid 0 0 ∧
      Writes u (s.cmdEng c) (c.addr 2) (clean bs) ∧ SameMemory s u)) ∧
    (c.admin = true → s.hostWaits c.port = false → Answers (.counterSnap cid) s (fun u => Ended u cid 0 0 ∧
      u.hostBytes c.port (c.addr 2) bs.length = bs ∧ u.mem = s.mem))) ∧
  (∀ (s : State) (cid o : Nat) (c : Cmd), Due s cid c → c.opcode = 0x29 → o = ringOff c.ring →
    (c.f 2 1 0 = 0 → Answers (.traceStop cid) s (fun u => Ended u cid 0 0 ∧ u.rgB (.cnt 0) (o + 0x1C) 8 = false ∧
      u.rgF (.cnt 0) (o + 0x1C) 7 0 = c.f 7 7 0)) ∧
    (c.f 2 1 0 = 1 → s.rgF (.cnt 0) (o + 0x18) 24 0 = 0 → Answers (.traceStart cid) s (fun u => Ended u cid 0x02 0)) ∧
    (c.f 2 1 0 = 1 → s.rgF (.cnt 0) (o + 0x18) 24 0 ≠ 0 → Answers (.traceStart cid) s (fun u => Ended u cid 0 0 ∧
      u.rgB (.cnt 0) (o + 0x1C) 8 = true ∧ u.rgF (.cnt 0) (o + 0x1C) 7 0 = c.f 7 7 0)) ∧
    (c.f 2 1 0 = 2 → Answers (.traceSetRecordRing cid) s (fun u => Ended u cid 0 0 ∧ u.rg (.cnt 0) o = c.dw 4 ∧
      u.rgF (.cnt 0) (o + 4) 15 0 = c.f 5 15 0 ∧ u.rgF (.cnt 0) (o + 8) 20 0 = (c.dw 6).toNat % 2 ^ 21)) ∧
    (c.f 2 1 0 = 3 → s.rgB (.cnt 0) (o + 0x1C) 8 = true → Answers (.traceSetTraceRing cid) s (fun u => Ended u cid 0x02 0)) ∧
    (c.f 2 1 0 = 3 → s.rgB (.cnt 0) (o + 0x1C) 8 = false → Answers (.traceSetTraceRing cid) s (fun u => Ended u cid 0 0 ∧
      u.rg (.cnt 0) (o + 0x10) = c.dw 4 ∧ u.rgF (.cnt 0) (o + 0x14) 15 0 = c.f 5 15 0 ∧
      u.rgF (.cnt 0) (o + 0x18) 24 0 = (c.dw 6).toNat % 2 ^ 25 ∧ u.rg (.cnt 0) (o + 0x20) = 0 ∧ u.rg (.cnt 0) (o + 0x24) = 0))) ∧
  (∀ (s : State) (cid : Nat) (c : Cmd), Due s cid c → c.opcode = 0x30 →
    (∀ (failed : List (Nat × List Nat)) (named : List Nat), c.f 2 3 0 = 1 → c.retried = [] →
      named = ((s.testSites c).map (fun i => siteHalf i * 256 + siteSlice i)).filter (fun k => !s.retired (k / 256) (k % 256)) →
      (c.pieces = [] → named = [] → Answers (.selftestVport cid failed) s (fun u => Ended u cid 0 0)) ∧
      (∀ k ks, c.pieces = [] → named = k :: ks → s.testable (k / 256) (k % 256) = true →
        Answers (.selftestVport cid failed) s (fun u => Runs u cid ∧ u.rgB (.sc (k / 256)) (0x2800 + 4 * (k % 256)) 9 = true ∧
          ∃ d, u.cmd? cid = some d ∧ 2 * k ∈ d.pieces)) ∧
      (∀ n, named.Nodup → (∀ k ∈ named, 2 * k ∈ c.pieces ∧ s.rgB (.sc (k / 256)) (0x2800 + 4 * (k % 256)) 9 = true) →
        n = (named.filter (fun k => (mfind failed k).getD [] != [])).length →
        Answers (.selftestVport cid failed) s (fun u => Ended u cid (if n = 0 then 0 else 0x3A) n))) ∧
    (c.f 2 3 0 = 2 → c.pieces = [] → c.retried = [] →
      ((∀ i ∈ s.testSites c, (s.core i).blocks = []) → Answers (.selftestCore cid []) s (fun u => Ended u cid 0 0 ∧
        ∀ i ∈ s.testSites c, (u.core i).selfTest = false)) ∧
      (∀ i ∈ s.testSites c, (s.core i).blocks ≠ [] → Answers (.selftestCore cid []) s (fun u => Runs u cid ∧
        (u.core i).selfTest = true))) ∧
    (∀ (failed : List (Nat × Nat)) (n : Nat), c.f 2 3 0 = 3 →
      n = (((failed.filter (fun x => (s.testDevs c).contains x.1 &&
        (c.admin || s.inRanges c.part (s.addrOf x.1 (x.2 * 256)) 256))).map (fun x => (x.1, burstOf (x.2 * 256)))).eraseDups).length →
      Answers (.selftestMemory cid failed) s (fun u => Ended u cid (if n = 0 then 0 else 0x3A) n)))

/-- R250, R264, R276, R281 to R286, R288, R317, R393, R412: PART_CREATE is refused or makes the partition with its ranges cleared, and ends
once no region of it is switching on; PART_RESET and PART_DESTROY of an absent partition end with PART_ABSENT, else send reset orders to the
cores that have blocks, and with no block left empty the partition's cores or remove it; FW_LOAD and QUICKSET_STORE begin a store of the flash and end with it; HEALTH_QUERY writes the
report; the management port answers a good packet. -/
def Obligations.PartitionAndManagement : Prop :=
  (∀ (s : State) (cid : Nat) (c : Cmd) (bs : List Byte) (d : PartDesc), Due s cid c → c.opcode = 0x38 →
    bs = s.hostBytes c.port (c.addr 2) 512 → d = partDesc bs →
    (c.pieces = [] → s.hostWaits c.port = false →
      (∀ st, s.partRefusal bs d = some st → Answers (.partCreate cid) s (fun u => Ended u cid st 0 ∧ u.parts = s.parts)) ∧
      (s.partRefusal bs d = none → s.writingBack d.ranges = true → Answers (.partCreate cid) s (fun u => Runs u cid ∧
        u.parts = s.parts)) ∧
      (s.partRefusal bs d = none → s.writingBack d.ranges = false → TraceOff s → Answers (.partCreate cid) s (fun u => Runs u cid ∧
        mfind u.parts d.part = some ⟨d.owner, d.quota, if d.timeout = 0 then 10000 else d.timeout, d.ranges, d.regions, [], false⟩ ∧
        (∀ r ∈ d.ranges, ∀ a, r.1 ≤ a → a < r.1 + r.2 → u.byte a = 0) ∧
        (∀ a, (∀ r ∈ d.ranges, a < r.1 ∨ r.1 + r.2 ≤ a) → u.byte a = s.byte a)))) ∧
    (∀ p ps q, c.pieces = p :: ps → mfind s.parts p = some q → (∀ r ∈ q.regions, s.regF r 1 0 ≠ 1) →
      Answers (.partCreate cid) s (fun u => Ended u cid 0 0))) ∧
  (∀ (s : State) (cid p : Nat) (c : Cmd), Due s cid c → p = c.f 2 3 0 → c.admin = true →
    (mfind s.parts p = none →
      (c.opcode = 0x3A → Answers (.partReset cid) s (fun u => Ended u cid 0x31 0)) ∧
      (c.opcode = 0x39 → Answers (.partDestroy cid) s (fun u => Ended u cid 0x31 0))) ∧
    (∀ q i, mfind s.parts p = some q → c.pieces = [] → i ∈ s.partCores p → (s.core i).blocks ≠ [] → s.order? (.reset i) = none →
      s.ringRuns i = false → Numbered s → StaysHere s cid →
      ∀ row ∈ [(0x3A, Instr.partReset cid), (0x39, .partDestroy cid)], c.opcode = row.1 → Answers row.2 s (fun u => Runs u cid ∧
        (u.order? (.reset i)).isSome = true ∧ ∃ q', mfind u.parts p = some q' ∧ q'.resetting = true)) ∧
    (∀ q, mfind s.parts p = some q → mkeysUp s.parts = true → c.pieces = [] → StaysHere s cid →
      (∀ r ∈ s.net.reqs, r.ofPart p = true → r.ended = true) →
      (∀ i ∈ s.partCores p, (s.core i).blocks = [] ∧ s.order? (.reset i) = none) →
      (∀ d ∈ s.cmds, d.admin = false → d.part = p → d.completes = false) →
      (c.opcode = 0x3A → TraceOff s → Answers (.partReset cid) s (fun u =>
        Ended u cid 0 (s.cmds.countP (fun d => !d.admin && d.part == p)) ∧
        (∃ q', mfind u.parts p = some q' ∧ q'.sems = [] ∧ q'.resetting = false ∧ q'.ranges = q.ranges) ∧
        (∀ d ∈ u.cmds, d.admin = true ∨ d.part ≠ p) ∧
        ∀ i ∈ s.partCores p, (u.core i).blocks = [] ∧ (u.core i).groups = [] ∧
          ∀ a < 0x80000, u.byte (lmemBase + i * 0x80000 + a) = 0)) ∧
      (c.opcode = 0x39 → Answers (.partDestroy cid) s (fun u => Ended u cid 0 0 ∧ mfind u.parts p = none)))) ∧
  (∀ (s : State) (cid : Nat) (c : Cmd) (bs : List Byte), Due s cid c → c.opcode = 0x40 →
    bs = s.hostBytes c.port (c.addr 2) (c.dw 4).toNat →
    (c.pieces = [] → s.flash.storing = none → s.hostWaits c.port = false → ∀ ok,
      (Config.signatureVerifies 0 bs [] = false → Answers (.fwLoad cid ok) s (fun u => Ended u cid 0x38 0 ∧ u.flash = s.flash)) ∧
      (Config.signatureVerifies 0 bs [] = true →
        (Config.imageType bs ≠ c.f 5 1 0 → Answers (.fwLoad cid ok) s (fun u => Ended u cid 0x02 0 ∧ u.flash = s.flash)) ∧
        (Config.imageType bs = c.f 5 1 0 → Answers (.fwLoad cid ok) s (fun u => Runs u cid ∧
          u.flash.storing = some (s.imageStore (c.f 5 1 0) bs))))) ∧
    (∀ k b, c.pieces ≠ [] → s.flash.storing = some (.firmware k b) →
      Answers (.fwLoad cid true) s (fun u => Ended u cid 0 0 ∧ u.flash.storing = none ∧
        (if k = 0 then u.flash.fwA else u.flash.fwB) = some b) ∧
      Answers (.fwLoad cid false) s (fun u => Ended u cid 0x39 0 ∧ u.flash = { s.flash with storing := none }))) ∧
  (∀ (s : State) (cid : Nat) (c : Cmd), Due s cid c → c.opcode = 0x41 →
    (c.pieces = [] → s.flash.storing = none → (∀ d < s.devices, (s.mif d).retraining = false) → ∀ ok,
      Answers (.quicksetStore cid ok) s (fun u => Runs u cid ∧ u.flash.storing = some s.quickStore)) ∧
    (∀ rs, c.pieces ≠ [] → s.flash.storing = some (.quickset rs) →
      Answers (.quicksetStore cid true) s (fun u => Ended u cid 0 0 ∧ u.flash.storing = none) ∧
      Answers (.quicksetStore cid false) s (fun u => Ended u cid 0x39 0 ∧ u.flash = { s.flash with storing := none }))) ∧
  (∀ (s : State) (cid : Nat) (c : Cmd) (bs : List Byte), Due s cid c → c.opcode = 0x48 → TraceOff s →
    bs = s.healthReport.take (c.dw 4).toNat →
    (c.admin = false → Numbered s → StaysHere s cid → Answers (.healthQuery cid) s (fun u => Ended u cid 0 bs.length ∧
      Writes u (s.cmdEng c) (c.addr 2) (clean bs) ∧ SameMemory s u)) ∧
    (c.admin = true → s.hostWaits c.port = false → Answers (.healthQuery cid) s (fun u => Ended u cid 0 bs.length ∧
      u.hostBytes c.port (c.addr 2) bs.length = bs ∧ u.mem = s.mem))) ∧
  (∀ (s : State) (data : List Byte), s.pins.vddAon = true → data.length = 64 →
    exec (.smbusBlockWrite data false) s = .next s ∧
    (leField data 0 1 = 0x00 → Answers (.smbusBlockWrite data true) s (fun u => u.mgmt.reply = s.mgmtReply data 0)) ∧
    (leField data 0 1 = 0x48 → Answers (.smbusBlockWrite data true) s (fun u =>
      u.mgmt.reply = s.mgmtReply data 0 ++ s.healthReport.take 239)) ∧
    (leField data 0 1 ∉ [0x00, 0x48, 0x70, 0x71] → Answers (.smbusBlockWrite data true) s (fun u =>
      u.mgmt.reply = s.mgmtReply data 3)) ∧
    (leField data 0 1 ∈ [0x70, 0x71] → Answers (.smbusBlockWrite data true) s (fun u =>
      u = { s with mgmt := u.mgmt } ∧ u.mgmt.packet = some data ∧ u.mgmt.out = s.mgmt.out)) ∧
    (s.mgmt.packet = some data → leField data 0 1 = 0x70 → Answers .thermalRead s (fun u => u.mgmt.packet = none ∧
      (∀ i < 16, u.mgmt.reply[i]? = (s.mgmtReply data 0)[i]?) ∧
      ∀ i < 119, leField u.mgmt.reply (16 + 2 * i) 2 = s.rgF (.thm 0) (0x100 + 4 * i) 15 0)) ∧
    (s.mgmt.packet = some data → leField data 0 1 = 0x71 → Answers .powerRead s (fun u => u.mgmt.packet = none ∧
      ∀ i < 16, u.mgmt.reply[i]? = (s.mgmtReply data 0)[i]?)) ∧
    Answers (.smbusBlockRead true) s (fun u => u.mgmt.out = s.mgmt.reply) ∧ exec (.smbusBlockRead false) s = .next s)

/-! ## Host ports -/

/-- R184, R191, R207, R211, R261 to R265, R287 to R290: a link that trains at a rate of 1 to 6 and a width of 4, 8 or 16 is up
and reads so, a narrower one stays down; with it the host sets the window's size (log entry 125); a link that goes down, and PERST_N as
it falls, take LINK_UP away; PERST_N also drops the port's interrupts and returns it to D0; a return to D0 writes the held replies and lets
the held interrupts go; a reset of a port with nothing outstanding leaves no command of its partitions or admin queues and no semaphore,
and one that comes while a PART_CREATE for the port runs is due and changes nothing else; a window access with no doorbell that waits before it
goes to the place of its bytes, or is refused and counted, as an AtomicOp always is; the answer completes a read with the bytes and the poison
that it brings, or as unsupported where the place refused it. -/
def Obligations.HostPorts : Prop :=
  (∀ (s : State) (port rate width bar2 : Nat), port < 4 → s.held = false → s.bootStage ≠ 0 → nth true s.pins.perstN port = true →
    1 ≤ rate → rate ≤ 6 →
    (width ∈ [4, 8, 16] → Answers (.hostLinkTraining port rate width bar2) s (fun u => u.linkUp port = true ∧
      u.rgF (s.hpBlk port) 0x000 3 1 = rate ∧ u.rgF (s.hpBlk port) 0x000 8 4 = width ∧
      u = { s with regs := u.regs, host := u.host } ∧ (∀ q, q ≠ port → u.port q = s.port q) ∧
      ((∃ k < 9, bar2 = 2 ^ k) → u.port port = { s.port port with dmwGib := bar2 }) ∧
      ((∀ k < 9, bar2 ≠ 2 ^ k) → u.port port = s.port port))) ∧
    (width ∉ [4, 8, 16] → Answers (.hostLinkTraining port rate width bar2) s (fun u => u.linkUp port = false))) ∧
  (∀ (s : State) (port : Nat), port < 4 →
    Answers (.hostLinkDown port) s (fun u => u.linkUp port = false ∧ u.rgF (s.hpBlk port) 0x000 8 0 = 0 ∧
      u = { s with regs := u.regs }) ∧
    (port < s.pins.perstN.length → nth true s.pins.perstN port = true →
      Answers (.perstN port false) s (fun u => nth true u.pins.perstN port = false ∧
        u.linkUp port = false ∧ (u.port port).d3hot = false ∧ (u.port port).irqs = [] ∧ (u.port port).heldIrqs = [])) ∧
    (s.linkUp port = true → Answers (.d3hotEntry port) s (fun u => (u.port port).d3hot = true ∧
      (∀ q, q ≠ port → u.port q = s.port q) ∧ u = { s with host := u.host })) ∧
    (s.linkUp port = true → (s.port port).d3hot = true → Answers (.d0Return port) s (fun u => (u.port port).d3hot = false ∧
      (u.port port).held = [] ∧ (u.port port).heldIrqs = [] ∧ (∀ x ∈ (s.port port).held, u.cmd? x.1 = none) ∧
      ∃ l, (u.port port).irqs = (s.port port).irqs ++ (s.port port).heldIrqs ++ l)) ∧
    (s.linkUp port = true → Answers (.atomicopRequest port) s (fun u => (u.port port).lastOk = false ∧
      Counted s u (s.hpBlk port) 0x100 1 ∧ (TraceOff s → SameMemory s u)))) ∧
  (∀ (s : State) (port : Nat), port < 4 → s.linkUp port = true → mkeysUp s.parts = true → (s.port port).resets = [] →
    (∀ r ∈ s.net.reqs, r.slot < 72 → r.isOrder = false → r.ended = true) → (∀ c ∈ s.cmds, c.completes = false) →
    (∀ p ∈ s.partsOf port, ∀ i ∈ s.partCores p, (s.core i).blocks = [] ∧ s.order? (.reset i) = none) →
    s.creating port = false →
    Answers (.functionLevelReset port) s (fun u => (u.port port).resets = [] ∧
      (∀ c ∈ u.cmds, (c.admin = true → c.port ≠ port) ∧
        (c.admin = false → ∀ q, mfind s.parts c.part = some q → q.owner ≠ port)) ∧
      (∀ p q, mfind u.parts p = some q → q.owner = port → q.sems = [] ∧ q.resetting = false ∧
        ∀ i < 64, (u.queue port (64 * p + i)).en = false ∧ (u.queue port (64 * p + i)).sqHead = 0) ∧
      (∀ i < 4, (u.queue port (1024 + i)).en = false ∧ (u.queue port (1024 + i)).sqHead = 0))) ∧
  (∀ (s : State) (port : Nat), port < 4 → s.linkUp port = true → s.creating port = true →
    Answers (.functionLevelReset port) s (fun u => (u.port port).resetDue = true ∧ u.parts = s.parts ∧ u.cmds = s.cmds ∧
      u.host.queues = s.host.queues ∧ u = { s with host := u.host })) ∧
  (∀ (s : State) (port off len a : Nat) (data : List Byte), port < 4 → s.linkUp port = true →
    off < (s.port port).dmwGib * 2 ^ 30 → a = s.dmwAddr port off → (s.port port).posted = [] → TraceOff s →
    ((s.port port).d3hot = false → Numbered s →
      (∀ p, s.hostReach port a (max 1 len) = some p → 0 < len → (∀ x ∈ (s.port port).windowReads, x.1 < s.net.nextSerial) →
        (∀ r ∈ s.net.reqs, r.slot = 72 → r.serial < s.net.nextSerial) →
        Answers (.hostWindowRead port off len) s (fun u => Reads u (hostEng port p s.net.nextSerial) a len ∧
          (s.net.nextSerial, p, a, len) ∈ (u.port port).windowReads)) ∧
      (∀ p, s.hostReach port a (max 1 data.length) = some p →
        Answers (.hostWindowWrite port off data) s (fun u => Writes u (hostEng port p s.net.nextSerial) a (clean data) ∧
          (u.port port).posted = [] ∧ SameMemory s u ∧ Counted64 s u (s.hpBlk port) 0x110 data.length))) ∧
    (((s.port port).d3hot = true ∨ s.hostReach port a (max 1 len) = none) →
      Answers (.hostWindowRead port off len) s (fun u => (u.port port).lastOk = false ∧ (u.port port).lastRead = [] ∧
        Counted s u (s.hpBlk port) 0x100 1)) ∧
    (((s.port port).d3hot = true ∨ s.hostReach port a (max 1 data.length) = none) →
      Answers (.hostWindowWrite port off data) s (fun u => Counted s u (s.hpBlk port) 0x100 1 ∧ SameMemory s u))) ∧
  (∀ (s : State) (port p k a n : Nat) (r : Req) (x : Packet), port < 4 → Numbered s → TraceOff s → s.req? r.rid = some r → r.state = .performed →
    s.net.packets.find? (fun k => k.rid == r.rid && k.response && k.at_ == k.dest && s.canMove k && s.wins k) = some x →
    (linePieces a n = [(a, n)] → s.engReq (hostEng port p k) .read none a n = some r → (s.port port).windowReads = [(k, p, a, n)] →
      (r.refused = false → Answers (.responseArrival r.rid) s (fun u => (u.port port).lastOk = true ∧ (u.port port).lastRead = r.line ∧
        (u.port port).lastPoisoned = r.marked.any (·.2) ∧ (u.port port).windowReads = [] ∧ SameMemory s u ∧
        Counted64 s u (s.hpBlk port) 0x118 r.line.length)) ∧
      (r.refused = true → Answers (.responseArrival r.rid) s (fun u => (u.port port).lastOk = false ∧ (u.port port).lastRead = [] ∧
        (u.port port).windowReads = [] ∧ Counted s u (s.hpBlk port) 0x100 1))) ∧
    (r.slot = 72 → r.lane = port → r.kind = .write → r.remote = none → r.refused = true → (s.port port).windowReads = [] →
      Answers (.responseArrival r.rid) s (fun u => Counted s u (s.hpBlk port) 0x100 1)))

/-! ## The fabric -/

/-- R298 to R301, R303 to R305: a port that is enabled and down trains; training ends in STATE 2, in STATE 3 with the reason why the
link is held, or in STATE 0; RETRAIN trains again and reads 1 until then, and has no effect while it does; ACCEPT_HELD releases a link held for a crossed cable;
a negative acknowledgement replays the frames from the one that it names and counts them; a frame that fails is answered with one, or in
Ethernet mode is counted; RETX_US replays there, peer by peer; at the 17th replay the link gives up, every
unacknowledged request of that peer has failed and the link trains narrower or goes down. -/
def Obligations.FabricLinks : Prop :=
  (∀ (s : State) (port : Nat), port < s.fabPorts → s.held = false → s.rgB (.fp port) 0x008 0 = true → s.fabState port = 0 →
    Answers (.fabricPortTraining port) s (fun u => u.fabState port = 1 ∧ (u.fport port).full = true ∧
      (u.fport port).most = (s.fport port).most ∧ (u.fport port).trainFrom = s.time.now ∧ SameMemory s u) ∧
    ((s.fport port).retry = true → (s.fport port).trainFrom + 250000000 ≤ s.time.now →
      Answers (.fabricTrainingRetry port) s (fun u => u.fabState port = 1 ∧ (u.fport port).full = true ∧ SameMemory s u))) ∧
  (∀ (s : State) (host port : Nat), host < 4 → host = s.boot.cfg.adminPort → s.linkUp host = true → port < s.fabPorts →
    (s.rgB (.fp port) 0x008 0 = true → s.rgB (.fp port) 0x008 2 = false → (s.fabState port = 1 → (s.fport port).full = true) →
      Answers (.retrain host port) s (fun u => u.fabState port = 1 ∧ (u.fport port).full = true ∧ (u.fport port).most = 0 ∧
        (u.fport port).sentPkts = [] ∧ (u.fport port).waiting = [] ∧ u.rgB (.fp port) 0x008 2 = true)) ∧
    (s.rgB (.fp port) 0x008 2 = true → Answers (.retrain host port) s (fun u => u.fab = s.fab ∧ u.fabState port = s.fabState port)) ∧
    (s.fabState port = 3 → s.rgF (.fp port) 0x000 7 5 = 2 →
      Answers (.acceptHeld host port) s (fun u => u.fabState port = 2 ∧ u.rgF (.fp port) 0x000 7 5 = 0))) ∧
  (∀ (s : State) (port : Nat) (t : FabTrain), port < s.fabPorts → s.fabState port = 1 → (s.fport port).full = true →
    (t.heard = true → t.lanesBad % 256 = 0 → s.rgF (.fp port) 0x000 15 8 = 0 → (s.fport port).most = 0 →
      Answers (.fabricTrainingDone port t) s (fun u => u.rgF (.fp port) 0x000 3 2 = 0 ∧
        u.rgF (.fp port) 0x004 14 0 = t.peerId % 2 ^ 15 ∧ u.rgF (.fp port) 0x004 19 16 = t.peerPort % 16 ∧
        (t.peerId ≠ s.boot.cfg.deviceId →
          (s.rgB (.fp port) 0x00C 31 = false → u.fabState port = 2 ∧ u.rgF (.fp port) 0x000 7 5 = 0) ∧
          (s.rgB (.fp port) 0x00C 31 = true → s.rgF (.fp port) 0x00C 14 0 ≠ t.peerId →
            u.fabState port = 3 ∧ u.rgF (.fp port) 0x000 7 5 = 2)) ∧
        (t.peerId = s.boot.cfg.deviceId → u.fabState port = 3 ∧
          u.rgF (.fp port) 0x000 7 5 = if t.peerSerial = s.part.serial then 1 else 3))) ∧
    (t.heard = true → (∀ i < 4, t.lanesBad / 4 ^ i % 4 ≠ 0) →
      Answers (.fabricTrainingDone port t) s (fun u => u.fabState port = 0)) ∧
    (t.heard = false → (s.fport port).trainFrom + 100000000 ≤ s.time.now →
      Answers (.fabricTrainingDone port t) s (fun u => u.fabState port = 0 ∧ (u.fport port).retry = true))) ∧
  (∀ (s : State) (port bad : Nat), port < s.fabPorts → 2 ≤ s.fabState port →
    (∀ (dev key : Nat) (n : W32), key = s.peerKey port dev → (s.recentReplays port key).length < 17 →
      Answers (.linkFrameError port (some (dev, n)) bad) s (fun u =>
        Counted s u (.fp port) 0x500 (s.framesFrom port key n).length ∧
        mfind (u.fport port).replays key = some (s.recentReplays port key ++ [s.time.now]) ∧
        (u.fport port).sentPkts = (s.fport port).sentPkts.map (fun p =>
          if p ∈ s.framesFrom port key n then { p with at_ := s.time.now } else p))) ∧
    (s.rgB (.fp port) 0x000 4 = true → Answers (.linkFrameError port none bad) s (fun u =>
      Counted s u (.fp port) 0x518 1 ∧ u.fab = s.fab)) ∧
    (s.rgB (.fp port) 0x000 4 = false → Answers (.linkFrameError port none bad) s (fun u =>
      u.fab = { s.fab with naks := s.fab.naks ++ [(port, 0, (s.fport port).expFrame)] })) ∧
    (∀ key, s.portUp port = true → s.rgB (.fp port) 0x000 4 = true → (s.recentReplays port key).length < 17 →
      (∃ p ∈ (s.fport port).sentPkts, isRequest p.typ = true ∧ s.peerKey port p.pkt.dst = key ∧
        p.at_ + 250 * max 1 (s.rgF (.fp port) 0x008 20 13) ≤ s.time.now) →
      Answers (.retxTimer port) s (fun u => mfind (u.fport port).replays key = some (s.recentReplays port key ++ [s.time.now]))) ∧
    (s.spentPeers port ≠ [] →
      Answers (.linkGiveUp port bad) s (fun u => Counted s u (.fp port) 0x504 1 ∧
        (∀ p ∈ (u.fport port).sentPkts, s.peerKey port p.pkt.dst ∉ s.spentPeers port) ∧
        (∀ p ∈ (s.fport port).sentPkts, s.peerKey port p.pkt.dst ∈ s.spentPeers port → isRequest p.typ = true →
          p.pkt.src = s.boot.cfg.deviceId → ∀ r, s.tagged p.pkt.tag = some r → mfind u.fab.failed r.rid = some port) ∧
        (bad % 256 = 0 → s.rgF (.fp port) 0x000 15 8 = 0 → s.rgF (.fp port) 0x000 3 2 = 0 →
          u.fabState port = 1 ∧ (u.fport port).full = false) ∧
        ((∀ i < 4, bad / 4 ^ i % 4 ≠ 0) → u.fabState port = 0))) ∧
    Answers (.fabricLinkDown port) s (fun u => u.fabState port = 0 ∧ u.rgB (.fp port) 0x004 31 = false ∧
      (u.fport port).sentPkts = [] ∧ (u.fport port).waiting = [] ∧ (TraceOff s → SameMemory s u)))

/-- R132, R133, R184, R192, R210, R248, R252, R294 to R297, R299, R303: a packet seen before is discarded and counted; one out of turn is answered
with a negative acknowledgement; one for another part goes on by its route in direct mode; a remote request is refused with its code, or goes to
the place of its bytes, whose answer it is answered with: a read with the bytes and their poison, an atomic with the old value, a write and a
reduction once they are performed; a repeat that has a record changes nothing; one that finds no record free waits; what the part sends itself
comes back to it. -/
def Obligations.FabricRequests : Prop :=
  (∀ p ∈ packetRows, ∀ (s : State) (port : Nat) (k : FabPkt), s.portUp port = true → s.looped p.2 k = false →
    (s.seen port k = true → Answers (p.1 port k) s (fun u => u.fab = s.fab ∧ SameNet s u ∧ Counted s u (.fp port) 0x500 1 ∧
      (TraceOff s → SameMemory s u))) ∧
    (∀ n, s.seen port k = false → s.gap port k = some n → Answers (p.1 port k) s (fun u =>
      u.fab = { s.fab with naks := s.fab.naks ++ [(port, k.src, n)] } ∧ SameNet s u ∧ SameMemory s u)) ∧
    (s.seen port k = false → s.gap port k = none → k.dst ≠ s.boot.cfg.deviceId →
      (s.rgB (.fp port) 0x000 4 = true → Answers (p.1 port k) s (fun u => u.fab.out = s.fab.out ∧ (TraceOff s → SameMemory s u))) ∧
      (s.rgB (.fp port) 0x000 4 = false → ∀ i, s.routePort k.dst = some i → SendsAtOnce s i p.2 k.data.length →
        Answers (p.1 port k) s (fun u => u.fab.out = s.fab.out ++ [(p.2, k)] ∧ (TraceOff s → SameMemory s u))))) ∧
  (∀ p ∈ requestRows, ∀ (s : State) (port j code : Nat) (k : FabPkt), Arrives s port k →
    (k.rt = false → RefusedWith s k (p.2.2.1 k) code → CanAnswer s k j 7 0 →
      Answers (p.1 port k) s (fun u => AnsweredWith s u k 7 (k.tag % 65536 * 256 + code) (fun r => r.data = []) ∧
        Counted s u (.fp j) 0x514 1 ∧ (TraceOff s → SameMemory s u))) ∧
    (k.rt = false → p.2.1 ≠ 1 → s.fabCode k (p.2.2.1 k) = none → s.fabRoom port k = false →
      Answers (p.1 port k) s (fun u => SameNet s u ∧ u = { s with net := u.net })) ∧
    ((k.rt = false ∨ p.2.1 = 1) → Allowed s k (p.2.2.1 k) → (p.2.1 ≠ 1 → s.fabRoom port k = true) → Numbered s →
      Answers (p.1 port k) s (fun u => p.2.2.2 k u (fabEng port k.dstPart s.net.nextSerial) ∧
        (port, p.2.1, k, s.net.nextSerial, false) ∈ u.fab.serving ∧ (TraceOff s → SameMemory s u))) ∧
    (∀ x, k.rt = true → p.2.1 ≠ 1 → s.fabRecord k = some x → CanAnswer s k j 6 x.data.length →
      Answers (p.1 port k) s (fun u => (TraceOff s → SameMemory s u) ∧
        AnsweredWith s u k 6 k.tag (fun r => r.data = x.data ∧ r.poison = x.poison)))) ∧
  (∀ (s : State) (port typ j n : Nat) (k : FabPkt) (r : Req) (x : Packet), s.fab.serving = [(port, typ, k, n, false)] → Numbered s →
    s.req? r.rid = some r → r.state = .performed → r.remote = none → (fabEng port k.dstPart n).owns r = true →
    (∀ q ∈ s.net.reqs, (fabEng port k.dstPart n).owns q = true → q.rid = r.rid ∨ q.ended = true) →
    s.net.packets.find? (fun k => k.rid == r.rid && k.response && k.at_ == k.dest && s.canMove k && s.wins k) = some x →
    let answers (ok : State → Prop) : Prop := Answers (.responseArrival r.rid) s (fun u => u.fab.serving = [] ∧ ok u)
    (r.refused = true → CanAnswer s k j 7 0 → answers (fun u => AnsweredWith s u k 7 (k.tag % 65536 * 256 + 3) (fun a => a.data = []))) ∧
    (r.refused = false →
      (typ = 1 → linePieces k.addr k.len = [(k.addr, k.len)] → s.engReq (fabEng port k.dstPart n) .read none k.addr k.len = some r →
        (CanAnswer s k j 2 r.line.length → answers (fun u =>
          AnsweredWith s u k 2 k.tag (fun a => a.data = r.line ∧ a.poison = wordMarks 0 r.marked))) ∧
        (k.src = s.boot.cfg.deviceId → answers (fun u => u.fab.out = s.fab.out ∧
          ∃ a : FabPkt, u.fab.loop = s.fab.loop ++ [(2, a)] ∧ a.tag = k.tag ∧ a.data = r.line))) ∧
      ((typ = 3 ∧ r.kind = .write ∨ typ = 5 ∧ r.kind = .reduce k.op) → CanAnswer s k j 6 0 → answers (fun u =>
        AnsweredWith s u k 6 k.tag (fun a => a.data = []) ∧ u.fabRecord k = some ⟨port, k.src, k.tag, [], []⟩)) ∧
      (typ = 4 → (k.len = 4 ∨ k.len = 8) → s.engReq (fabEng port k.dstPart n) (.atomic k.op) none k.addr k.len = some r →
        CanAnswer s k j 6 k.len → answers (fun u => AnsweredWith s u k 6 k.tag (fun a =>
          a.data = toBytes k.len r.result.toNat ∧ a.poison = if r.rpois = true then [true] else []))))) ∧
  (∀ (s : State) (port : Nat) (k : FabPkt), port < s.fabPorts → s.looped 1 k = true → Allowed s k k.len → Numbered s →
    Answers (.fabricReadRequest port k) s (fun u => Reads u (fabEng port k.dstPart s.net.nextSerial) k.addr k.len ∧
      (port, 1, k, s.net.nextSerial, false) ∈ u.fab.serving ∧ ∃ l, u.fab.loop = s.fab.loop.erase (1, k) ++ l))

/-- R192, R211, R294, R296, R297, R301, R302, R426: an answer fills the registers of its thread or completes its engine's request;
a refusal, a timeout of 10 ms and a second give-up end the command with REMOTE_FAIL and their code; after a first give-up the
request goes out once more, with RT; a time mark that arrives writes its record; a mark leaves by every port that is up. -/
def Obligations.FabricAnswersAndMarks : Prop :=
  (∀ (s : State) (port : Nat) (k : FabPkt) (r : Req), Arrives s port k → s.tagged k.tag = some r → s.req? r.rid = some r →
    (r.kind = .read → 64 < r.slot → Answers (.fabricReadResponse port k) s (fun u =>
      u.req? r.rid = some { r with state := .ready, line := k.data, lpois := k.poison } ∧ (TraceOff s → SameMemory s u))) ∧
    (∀ d g, r.kind = .read → r.slot < 64 → r.fillL1 = false → k.poison.any id = false → k.data.length = r.size → 0 < r.size → r.size ≤ 16 →
      r.dest = some d → d + words r.size ≤ 256 → r.uni = false → mfind (s.core r.site).groups r.slot = some g →
      r.lane < g.threads.length →
      Answers (.fabricReadResponse port k) s (fun u => u.req? r.rid = none ∧
        ∃ h, mfind (u.core r.site).groups r.slot = some h ∧
          (∀ i < words r.size, d + i < 255 → LoadedWord r.size r.sx (ofBytes k.data) i (h.reg r.lane (d + i))) ∧
          (∀ l x, (l ≠ r.lane ∨ x < d ∨ d + words r.size ≤ x) → h.reg l x = g.reg l x))) ∧
    (r.kind = .write ∨ (∃ o, r.kind = .reduce o) → Answers (.fabricAcknowledgement port k) s (fun u =>
      u.req? r.rid = none ∧ (TraceOff s → SameMemory s u)))) ∧
  (∀ (s : State) (port : Nat) (k : FabPkt) (r : Req) (c : Cmd), Arrives s port k → s.cmd? r.cid = some c → c.phase = .running →
    k.op ∉ [2, 6, 7, 8] →
    s.net.reqs.find? (fun r => r.remote.isSome && !r.ended && decide (r.rid % 65536 = k.tag / 256)) = some r →
    Answers (.fabricRefusal port k) s (fun u => RemoteFailed u r.cid (k.tag % 256) ∧ u.req? r.rid = none)) ∧
  (∀ (s : State) (rid : Nat) (r : Req) (c : Cmd), s.req? rid = some r → s.cmd? r.cid = some c → c.phase = .running →
    (r.remote ≠ none → r.ended = false → mfind s.fab.failed rid = none →
      (r.sentAt + 2500000 + (if r.heldOnce then 25000 else 0) ≤ s.time.now →
        Answers (.remoteAccessTimeout rid) s (fun u => RemoteFailed u r.cid 6 ∧ u.req? rid = none)) ∧
      (s.time.now < r.sentAt + 2500000 → exec (.remoteAccessTimeout rid) s = .next s)) ∧
    (∀ j dst part a, mfind s.fab.failed rid = some j → r.remote = some (dst, part, a) →
      (∀ i, r.attempt = 0 → s.altPort dst j = some i →
        SendsAtOnce s i r.kind.typ (r.packet s.boot.cfg.deviceId dst part a true).data.length →
        Answers (.remoteResend rid) s (fun u =>
        u.req? rid = some { r with attempt := 1 } ∧ mfind u.fab.failed rid = none ∧
        ∃ k, u.fab.out = s.fab.out ++ [(r.kind.typ, k)] ∧ k.rt = true ∧ k.dst = dst ∧ k.dstPart = part ∧ k.addr = a ∧
          k.srcPort = i ∧ k.tag = rid % 2 ^ 24)) ∧
      (r.attempt ≠ 0 ∨ s.altPort dst j = none →
        Answers (.remoteResend rid) s (fun u => RemoteFailed u r.cid 5 ∧ u.req? rid = none)))) ∧
  (∀ (s : State) (port r a : Nat) (k : FabPkt), port < s.fabPorts → 2 ≤ s.fabState port → k.mark = true → k.data = [] →
    s.looped 8 k = false → s.seen port k = false → s.gap port k = none → k.dst = s.boot.cfg.deviceId →
    r < 16 → s.ringTakes r (some 2) = true → (∀ q < 17, q ≠ r → s.ringTakes q (some 2) = false) → s.ringRoom r = true →
    mget 0 s.lostRecs r = 0 →
    a = (s.rg (.cnt 0) (ringOff r + 0x10)).toNat + 2 ^ 32 * s.rgF (.cnt 0) (ringOff r + 0x14) 15 0 +
      32 * ((s.rg (.cnt 0) (ringOff r + 0x20)).toNat % s.rgF (.cnt 0) (ringOff r + 0x18) 24 0) →
    Answers (.timeMark port k) s (fun u => OnlyBytes s u a 32 ∧
      u.num a 8 = s.timeOf (Blk.fp port).stack % 2 ^ 64 ∧
      u.num (a + 8) 4 = s.boot.cfg.deviceId % 2 ^ 15 + port % 16 * 2 ^ 16 + 2 ^ 20 ∧
      u.num (a + 12) 4 = (s.otherEnd port k.src k.srcPort).1 % 2 ^ 15 + (s.otherEnd port k.src k.srcPort).2 % 16 * 2 ^ 16 ∧
      u.num (a + 16) 4 = k.seq.toNat ∧ u.num (a + 20) 12 = 0 ∧
      u.rg (.cnt 0) (ringOff r + 0x20) = s.rg (.cnt 0) (ringOff r + 0x20) + 1)) ∧
  (∀ s : State, (∃ r < 17, s.ringTakes r (some 2) = true) → (∀ j < s.fabPorts, s.portUp j = true → SendsAtOnce s j 8 0) →
    Answers .markSend s (fun u => ∃ l, u.fab.out = s.fab.out ++ l ∧ (∀ x ∈ l, x.1 = 8 ∧ x.2.mark = true) ∧
      l.map (fun x => x.2.srcPort) = (upTo 0 s.fabPorts).filter s.portUp))

/-! ## Power, clocks, temperature -/

/-- R21, R324, R330, R331, R335, R336, R339, R344, R345, R348 to R350, R354 to R356, R409: the governor lowers every running region
above the cap and raises those it holds below 95 % of it; a step takes effect as the lowest request; a droop is counted; a
switch-on step closes with headroom, waits without it, and after 50 µs starts with the neighbours at peak lowered; a region
whose eighth step has closed runs; Trim's target of a period, its flag and its report; a failed phase takes its share of the cap;
a power fault stops the part and its work. -/
def Obligations.PowerControl : Prop :=
  (∀ (s : State) (stack power16 cap : Nat), stack < s.stacks →
    cap = (if s.stacks = 8 then 216 * s.rgF (.pwr stack) 0x000 10 5 else 8640) →
    (∀ x, mfind s.power.govAt stack = some x → x + 250 ≤ s.time.now) →
    (cap < power16 → (∀ x, mfind s.power.govLast stack = some x → x + 500 ≤ s.time.now) →
      Answers (.governorMeasure stack power16) s (fun u => u.rgF (.pwr stack) 0x004 15 0 = min power16 65535 ∧
        (∀ r, r / 256 = stack → s.regionOn r = true →
          u.regF r 14 10 = min (s.power.govStep r) (max 4 (min (s.regF r 14 10) (s.regF r 9 5) - 1))) ∧
        (∀ r, r / 256 = stack → s.regionOn r = false → u.regF r 14 10 = s.regF r 14 10) ∧ (TraceOff s → SameMemory s u) ∧
        (u.rgB (.pwr stack) 0x000 4 = true → Counted s u (.pwr stack) 0x800 1))) ∧
    (power16 * 100 < cap * 95 → (∃ x, mfind s.power.govBelow stack = some x ∧ x + 12500 ≤ s.time.now) →
      (∀ x, mfind s.power.govLast stack = some x → x + 5000 ≤ s.time.now) →
      Answers (.governorMeasure stack power16) s (fun u => ∀ r, r / 256 = stack → s.regionOn r = true → mget 16 s.power.govHold r < 16 →
        mget 16 u.power.govHold r = mget 16 s.power.govHold r + 1 ∧ u.regF r 14 10 = u.power.govStep r % 32))) ∧
  (∀ (s : State) (stack power16 x : Nat), mfind s.power.govAt stack = some x → s.time.now < x + 250 →
    exec (.governorMeasure stack power16) s = .next s) ∧
  (∀ (s : State) (stack region r : Nat), stack < s.stacks → region < 256 → r = stack * 256 + region →
    (s.regionOn r = true → s.time.now % 4 = 0 → (∀ x, mfind s.power.stepAt r = some x → x < s.time.now) →
      Answers (.stepChange stack region) s (fun u =>
      u.regF r 9 5 = min (min (s.regF r 14 10) (s.regF r 19 15)) (s.thermStep (regionHalf r)) ∧
      u.rgF (.msh stack) 0x000 (5 + 4 * (regionHalf r % 2)) (2 + 4 * (regionHalf r % 2)) = (u.meshStep (regionHalf r) - 1) % 16)) ∧
    (s.time.now % 4 ≠ 0 → exec (.stepChange stack region) s = .next s) ∧
    (∀ below, s.regionOn r = true →
      (s.rgF (.clk stack) 0x004 7 0 < below → mfind s.power.sag r = none → Answers (.droopCrossing stack region below) s (fun u =>
        r ∈ u.power.droop ∧ mget 0 u.power.late r = mget 0 s.power.late r + 2 ∧
        Counted s u (.clk stack) (0x400 + 4 * region) 1)) ∧
      (below ≤ s.rgF (.clk stack) 0x004 7 0 → Answers (.droopCrossing stack region below) s (fun u =>
        mfind u.power.sag r = none ∧ u = { s with power := u.power } ∧ u.power.late = s.power.late))) ∧
    (∀ cur peaks, s.switchTurn r = true →
      (cur < 324 → (∀ p ∈ peaks, neighbours region p = false) →
        Answers (.switchOnStep stack region cur peaks) s (fun u => u.regF r 23 20 = s.regF r 23 20 + 1 ∧
          mfind u.power.swWait r = none ∧
          ∀ t, mfind s.power.swWait r = some t → Counted s u (.pwr stack) 0x804 ((s.time.now - t) / 250))) ∧
      ((324 ≤ cur ∨ ∃ p ∈ peaks, neighbours region p = true) →
        Answers (.switchOnStep stack region cur peaks) s (fun u => u.regs = s.regs ∧
          mfind u.power.swWait r = some ((mfind s.power.swWait r).getD s.time.now)))) ∧
    (∀ t peaks, s.switchTurn r = true → mfind s.power.swWait r = some t → t + 12500 ≤ s.time.now → s.regF r 23 20 < 7 →
      Answers (.switchOnWaitExpiry stack region peaks) s (fun u => u.regF r 23 20 = s.regF r 23 20 + 1 ∧
        Counted s u (.pwr stack) 0x804 ((s.time.now - t) / 250) ∧
        (∀ x ∈ neighboursOf r, x % 256 ∈ peaks → s.regionOn x = true →
          u.regF x 14 10 = u.power.govStep x ∧ u.regF x 14 10 ≤ max 4 (min (s.regF x 14 10) (s.regF x 9 5) - 1)) ∧
        ((∀ x ∈ neighboursOf r, x % 256 ∈ peaks → s.regionOn x = false) → ∀ x ∈ halfRegions (regionHalf r), s.regionOn x = true →
          u.regF x 14 10 = u.power.govStep x ∧ u.regF x 14 10 ≤ max 4 (min (s.regF x 14 10) (s.regF x 9 5) - 1)))) ∧
    (s.regF r 1 0 = 1 → s.regF r 23 20 = 8 → Answers (.regionOn stack region) s (fun u => u.regionOn r = true ∧
      (s.power.trimEnabled = false → u.regF r 19 15 = 16 ∧
        u.regF r 9 5 = min (min (s.regF r 14 10) 16) (s.thermStep (regionHalf r))) ∧
      (s.power.trimEnabled = true → 4 ≤ u.regF r 19 15 ∧ u.regF r 19 15 ≤ 16 ∧
        ∀ p hi load, s.power.trimSeen = some (p, hi, load) → s.regionBusy r = false → ∃ n, u.regF r 19 15 = standingStep p hi n load)))) ∧
  (∀ (s : State) (m : TrimMeas) (setp flr : Nat), setp = s.rgF .trim 0x004 15 0 → flr = s.rgF .trim 0x00C 15 0 →
    ((s.time.running = false ∨ s.time.now % 25000 ≠ 0) → exec (.trimPeriod m) s = .next s) ∧
    (s.trimDue = true →
      (s.power.trimEnabled = false → s.power.trimPending = none → Answers (.trimPeriod m) s (fun u => u.regs = s.regs ∧
        (s.time.now % 250000 ≠ 25000 →
          u.power.trimSum = s.power.trimSum + m.power ∧ u.power.trimN = s.power.trimN + 1) ∧
        (s.time.now % 250000 = 25000 → u.power.trimSum = m.power ∧ u.power.trimN = 1) ∧
        (s.power.sag = [] → u.power.droop = []))) ∧
      (s.power.trimEnabled = true → s.power.trimPending = none → s.rgB .trim 0x000 1 = false → s.rgF .trim 0x008 15 0 = 0 →
        Answers (.trimPeriod m) s (fun u =>
          u.rgF .trim 0x014 15 0 = min (max m.power (8 * min flr setp)) (8 * setp) % 2 ^ 16 ∧
          ((∀ r < s.stacks * 256, s.regionOn r = false) → 8 * setp < m.power → u.rgB .trim 0x000 4 = true)))) ∧
    (s.time.now % 250000 = 0 → s.power.trimN = 10 → Answers .trimReport s (fun u =>
      u.rgF .trim 0x018 15 0 = s.power.trimSum / 10 % 2 ^ 16 ∧
      u.rgF .trim 0x018 31 16 = (s.rgF .trim 0x018 31 16 + 1) % 2 ^ 16 ∧ u.rg64 .trim 0x020 = s.time.now % 2 ^ 64 ∧
      u.power.trimSum = 0 ∧ u.power.trimN = 0 ∧
      (s.rgB .trim 0x000 3 = true ∨ s.rgB .trim 0x000 4 = true → Counted s u .trim 0x100 1) ∧ (s.rgB .trim 0x000 5 = true → Counted s u .trim 0x104 1)))) ∧
  (∀ (s : State) (stack : Nat), stack < s.stacks →
    (s.stacks = 8 → s.rgF (.pwr stack) 0x000 10 5 ≠ 0 → s.rgF (.pwr stack) 0x000 1 0 ≠ 0 →
      Answers (.phaseFail stack false) s (fun u => u.rgF (.pwr stack) 0x000 10 5 = s.rgF (.pwr stack) 0x000 10 5 - 1 ∧
        u.rgF (.pwr stack) 0x004 31 16 = 540 * (s.rgF (.pwr stack) 0x000 10 5 - 1) / 40 ∧
        Counted s u (.pwr stack) 0x810 1 ∧
        u.health.entries = ⟨9, 0xFFF, stack, s.timeOf stack⟩ :: s.health.entries ∧ u.boot.stopped = s.boot.stopped)) ∧
    (s.held = false → 2 ≤ s.bootStage → s.boot.stopped = false →
      Answers (.powerFault stack) s (fun u => u.boot.stopped = true ∧ u.pins.alert = true ∧
        u.rgB (.pwr 0) 0x040 4 = false ∧ u.rgF (.pwr 0) 0x040 11 8 = 8 ∧ u.rgF (.pwr 0) 0x040 27 12 = stack ∧
        u.rgF (.pwr stack) 0x000 3 0 = 0 ∧ u.rg64 (.pwr 0) 0x044 = s.time.now % 2 ^ 64 ∧
        (∀ r, r / 256 = stack → s.regF r 1 0 ≠ 3 → u.regF r 1 0 = 0) ∧
        (stack, s.timeOf stack) ∈ u.health.powerFault ∧ u.cores = [] ∧ u.parts = [] ∧
        ∀ c ∈ u.cmds, c.admin = true ∧ c.opcode = 0x48)))

/-- R360 to R365, R367 to R370, R372: a sample holds the readings; a half with a sensor at its limit steps down, one that has been
2 °C cooler for 10 ms steps up, else it keeps its step; an SRAM band rises at once; a trip latches, switches every rail, link and
memory off and records its sensor; the latch clears after 10 s of cool samples, with a restart where RESTART_EN is 1. -/
def Obligations.TemperatureControl : Prop :=
  (∀ (s : State) (stack : Nat) (readings powers : List Int), stack < s.stacks → s.pins.vddAon = true →
    (s.time.running = true → (∃ x, mfind s.therm.sampleAt stack = some x ∧
        s.time.now < x + if s.rgB (.thm stack) 0x000 0 then 12500 else 250000) →
      exec (.sensorSample stack readings powers) s = .next s) ∧
    ((s.time.running = true → ∀ x, mfind s.therm.sampleAt stack = some x →
        x + (if s.rgB (.thm stack) 0x000 0 then 12500 else 250000) ≤ s.time.now) →
    Answers (.sensorSample stack readings powers) s (fun u =>
      (∀ i < 208, u.rgF (.thm stack) (0x100 + 4 * i) 15 0 = (nth 0 readings i % 65536).toNat) ∧
      (s.pins.resetN = true → s.pins.pwrgd = true → s.pins.thermtrip = false →
        (∃ i < 208, buried i = true ∧ 1840 ≤ s.estimate stack i readings (nth 0 powers i)) → u.pins.thermtrip = true) ∧
      (s.pins.resetN = true → s.pins.pwrgd = true → s.pins.thermtrip = false →
        (∀ i < 208, buried i = true → s.estimate stack i readings (nth 0 powers i) < 1840) →
        (∀ i < 208, s.sensorB stack i 16 = false ∧ s.sensorB stack i 17 = false) →
        (∀ hf < 2, ∀ h, h = 2 * stack + hf →
          ((∃ i < 208, hf ∈ sensorHalves i ∧ s.sensorLimit stack i ≤ nth 0 readings i) →
            mget 16 u.power.thrReq h = max 4 (mget 16 s.power.thrReq h - 1) ∧ u.rgB (.thm stack) 0x000 (1 + hf) = true) ∧
          ((∀ i < 208, hf ∈ sensorHalves i → nth 0 readings i < s.sensorLimit stack i) →
            u.rgB (.thm stack) 0x000 (1 + hf) = false ∧
            (mfind s.therm.coolSince h = none → mget 16 u.power.thrReq h = mget 16 s.power.thrReq h)) ∧
          ((∀ i < 208, hf ∈ sensorHalves i → nth 0 readings i ≤ s.sensorLimit stack i - 32) →
            (∃ t, mfind s.therm.coolSince h = some t ∧ t + 2500000 ≤ s.time.now) → mget 16 s.power.thrReq h < 16 →
            mfind s.therm.below h = none → mget 16 u.power.thrReq h = mget 16 s.power.thrReq h + 1)) ∧
        (u.rgB (.thm stack) 0x000 1 = true →
          Counted s u (.thm stack) 0x800 (if u.rgB (.thm stack) 0x000 0 then 50 else 1000)))))) ∧
  (∀ (s : State) (stack i cur : Nat) (v : Int), stack < s.stacks → cacheSensor i = true → stack ∈ s.therm.sampled →
    s.sensorB stack i 16 = false → s.sensorB stack i 17 = false → cur = s.rgF (.thm stack) (0x100 + 4 * i) 19 18 →
    v = sint 16 (s.rgF (.thm stack) (0x100 + 4 * i) 15 0) →
    (1520 < v → cur < 3 → Answers (.sramBandChange stack i 3) s (fun u =>
      u.rgF (.thm stack) (0x100 + 4 * i) 19 18 = 3 ∧ Counted s u (.thm stack) 0x808 1)) ∧
    (1120 < v → v ≤ 1520 → cur < 2 → Answers (.sramBandChange stack i 2) s (fun u =>
      u.rgF (.thm stack) (0x100 + 4 * i) 19 18 = 2 ∧ Counted s u (.thm stack) 0x808 1)) ∧
    (v < 160 → cur = 1 → Answers (.sramBandChange stack i 0) s (fun u =>
      u.rgF (.thm stack) (0x100 + 4 * i) 19 18 = 0 ∧ Counted s u (.thm stack) 0x808 1))) ∧
  (∀ (s : State) (stack sensor : Nat), stack < s.stacks → sensor < 208 → s.pins.vddAon = true → s.pins.thermtrip = false →
    Answers (.thermalTrip stack sensor) s (fun u => u.pins.thermtrip = true ∧ u.pins.alert = true ∧ u.mem = [] ∧ u.poison = [] ∧
      u.cmds = [] ∧ u.boot.stopped = true ∧ u.rgB (.pwr 0) 0x040 4 = false ∧ (∀ p < 4, u.linkUp p = false) ∧
      (∀ j < s.fabPorts, u.fabState j = 0) ∧ u.health.excursion = true ∧ (stack * 256 + sensor, s.timeOf stack) ∈ u.health.trips ∧
      ∀ t < s.stacks, u.rgF (.pwr t) 0x000 3 0 = 0 ∧ u.rgB (.thm t) 0x000 3 = true ∧
        u.rgF (.thm t) 0x000 11 4 = sensor ∧ u.rgF (.thm t) 0x000 14 12 = stack)) ∧
  (∀ s : State, s.pins.thermtrip = true →
    ((∀ t < s.stacks, 10000 < mget 0 s.therm.tripCool t) → Answers .tripLatchClear s (fun u => u.pins.thermtrip = false ∧
      (s.pins.resetN = true → s.pins.pwrgd = true → s.rgB (.thm 0) 0x004 0 = true →
        u.bootStage = 0 ∧ u.boot.stopped = false ∧ u.pins.alert = false ∧ u.pending = s.pending))) ∧
    (∀ t < s.stacks, mget 0 s.therm.tripCool t ≤ 10000 → exec .tripLatchClear s = .next s))

/-- R352, R357 to R359, R371, R415, R443, R448: a root PLL that loses lock is out of lock, and stops the part unless it is held in
reset; the primary's first lock starts device time at 0; a copy of device time found out by more than one tick is counted and not
aligned; a read of a low word gives it and latches the high word for its reader. -/
def Obligations.ClocksAndTime : Prop :=
  (∀ (s : State) (stack : Nat), stack < s.stacks →
    (stack ∈ s.time.locked → Answers (.clockFault stack) s (fun u => stack ∉ u.time.locked ∧
      u.rgB (.clk stack) 0x000 0 = false ∧ (stack = 0 → u.time.running = false) ∧
      (s.pins.resetN = true → s.pins.pwrgd = true → s.pins.vddAon = true → s.boot.stopped = false →
        u.rgB (.clk stack) 0x000 1 = true ∧ u.boot.stopped = true ∧ u.rgF (.pwr 0) 0x040 11 8 = 9 ∧
        u.rgF (.pwr 0) 0x040 27 12 = stack ∧ u.rgF (.pwr stack) 0x000 3 0 = 0))) ∧
    (stack ∉ s.time.locked → exec (.clockFault stack) s = .next s) ∧
    (stack ∉ s.time.locked → s.pins.resetN = true → s.pins.pwrgd = true → s.pins.vddAon = true →
      Answers (.rootPllLock stack) s (fun u => stack ∈ u.time.locked ∧ u.rgB (.clk stack) 0x000 0 = true ∧
        (stack = 0 → s.time.running = false → s.boot.stopped = false → u.time.running = true ∧ u.time.now = 0)))) ∧
  (∀ s : State, Answers .refclkStop s (fun u => u.time.locked = [] ∧ u.pins.refclk = false ∧
    (0 ∈ s.time.locked → u.time.running = false))) ∧
  (∀ (s : State) (stack : Nat) (found : Int), 0 < stack → stack < s.stacks → s.time.running = true →
    (1 < found.natAbs → s.rgB (.clk stack) 0x000 2 = false → Answers (.timeAlignCheck stack found) s (fun u =>
      Counted s u (.clk stack) 0x020 1 ∧ u.rgB (.clk stack) 0x000 2 = false ∧
      u.timeOf stack = ((s.time.now : Int) + found).toNat)) ∧
    (found.natAbs ≤ 1 → s.rgB (.clk stack) 0x000 2 = false → Answers (.timeAlignCheck stack found) s (fun u =>
      u.rgB (.clk stack) 0x000 2 = true ∧ u.timeOf stack = ((s.time.now : Int) + found).toNat)) ∧
    (s.rgB (.clk stack) 0x000 2 = true → Answers (.timeAlignCheck stack found) s (fun u =>
      u = { s with time := { s.time with drift := u.time.drift } } ∧ (s.drifts stack found = true → u.nextDiff stack = found)))) ∧
  (∀ s t : State, s.time.running = true → s.pending = [] → step s = .next t →
    ∀ stack < s.stacks, mget 0 t.time.diff stack = s.nextDiff stack) ∧
  (∀ (s : State) (port stack : Nat), port < 4 → stack < s.stacks → s.linkUp port = true →
    Answers (.clkTimeRead port stack) s (fun u => ofBytes (u.port port).lastRead = s.timeOf stack % 2 ^ 32 ∧
      (u.port port).lastOk = true ∧
      u.latched port ((Blk.clk stack).base + 0x014) = BitVec.ofNat 32 (s.timeOf stack / 2 ^ 32))) ∧
  (∀ (s : State) (port addr o : Nat) (b : Blk), port < 4 → s.linkUp port = true → locate addr = some (b, o) → s.hasBlk b = true →
    isWide b o = true → Answers (.counterLowRead port addr) s (fun u => ofBytes (u.port port).lastRead = (s.rg b o).toNat ∧
      (u.port port).lastOk = true ∧ u.latched port (addr + 4) = s.rg b (o + 4)))

/-! ## Registers and counters -/

/-- R6, R9, R11, R65, R167, R169, R241, R256, R257, R262, R267, R371, R372, R414 to R419, R427, R429: a write by a port that may write
takes effect in the fields that can be written, within the bounds of the register, and another port's write changes no register; a
class table or a budget waits for the window boundary; a queue block takes writes while EN is 0; a mask that is cleared lets a held
interrupt go; a clear takes a block's event counters to 0; TR_RPTR moves. -/
def Obligations.RegistersAndCounters : Prop :=
  (∀ (s : State) (port off o : Nat) (b : Blk) (v : W32), port < 4 → s.linkUp port = true → off < 0x1800000 → off % 4 = 0 →
    locate off = some (b, o) →
    (∀ site, b = .arr site → o = 0x004 → site < s.sites →
      (s.coreOwner site = port → Answers (.registerWrite port off v) s (fun u =>
        u.rg (.arr site) 0x004 = v &&& 0xFF#32 ||| (s.rg (.arr site) 0x004 &&& 0xFFFFFF00#32))) ∧
      (s.coreOwner site ≠ port → Answers (.registerWrite port off v) s (fun u => u.rg (.arr site) 0x004 = s.rg (.arr site) 0x004))) ∧
    (∀ h, b = .sc h → o = 0x00C → h < s.devices → port = s.boot.cfg.adminPort → Answers (.registerWrite port off v) s (fun u =>
      u.rg (.sc h) 0x00C = s.rg (.sc h) 0x00C &&& ~~~ (v &&& 0x08000001#32))) ∧
    (∀ h, b = .sc h → o = 0x004 → h < s.devices → port = s.boot.cfg.adminPort → Answers (.registerWrite port off v) s (fun u =>
      ∀ e < 2, u.rgF (.sc (h / 2 * 2 + e)) 0x004 3 0 = min 12 (v.toNat % 16))) ∧
    (∀ t, b = .clk t → o = 0x004 → t < s.stacks → port = s.boot.cfg.adminPort → Answers (.registerWrite port off v) s (fun u =>
      u.rgF (.clk t) 0x004 7 0 = max 10 (min 120 (v.toNat % 256)))) ∧
    (∀ t, b = .thm t → o = 0x004 → t < s.stacks → port = s.boot.cfg.adminPort → Answers (.registerWrite port off v) s (fun u =>
      u.rgF (.thm t) 0x004 7 1 = min 100 (v.toNat / 2 % 128) ∧ u.rgF (.thm t) 0x004 14 8 = min 95 (v.toNat / 256 % 128))) ∧
    (∀ t p, b = .msh t → p < 16 → o = 0x100 + 4 * p → t < s.stacks → port = s.boot.cfg.adminPort → (mfind s.parts p).isSome = true →
      Answers (.registerWrite port off v) s (fun u => u.rg (.msh t) o = s.rg (.msh t) o ∧
        ∃ w, mfind u.net.pendingRegs ((Blk.msh t).base + o) = some w ∧ getF 20 0 w = v.toNat % 2 ^ 21)) ∧
    (port ≠ s.boot.cfg.adminPort → (∃ h, b = .sc h) ∨ (∃ d, b = .mif d) ∨ (∃ t, b = .clk t) ∨ (∃ t, b = .thm t) ∨
      (∃ t, b = .pwr t) ∨ b = .trim → Answers (.registerWrite port off v) s (fun u => u.rg b o = s.rg b o))) ∧
  (∀ (s : State) (port qi : Nat) (v : W32), port < 4 → s.linkUp port = true → qi < 1028 → s.queueOf port qi = true →
    ((s.queue port qi).en = false →
      Answers (.registerWrite port (0x2000000 + 0x40 * qi + 0x08) v) s (fun u =>
        (u.queue port qi).sqBase % 2 ^ 32 = v.toNat ∧ (u.queue port qi).sqBase / 2 ^ 32 = (s.queue port qi).sqBase / 2 ^ 32) ∧
      Answers (.registerWrite port (0x2000000 + 0x40 * qi + 0x28) v) s (fun u => (u.queue port qi).vector = v.toNat % 2048)) ∧
    ((s.queue port qi).en = true → Answers (.registerWrite port (0x2000000 + 0x40 * qi + 0x08) v) s (fun u =>
      u.queue port qi = s.queue port qi)) ∧
    (v.getLsbD 0 = true → Answers (.registerWrite port (0x2000000 + 0x40 * qi + 0x04) v) s (fun u =>
      (u.queue port qi).qerr = false))) ∧
  (∀ (s : State) (port k : Nat), port < 4 → s.linkUp port = true → k < 2048 → (s.port port).d3hot = false →
    Answers (.registerWrite port (0x3F00000 + 16 * k + 12) 1#32) s (fun u => port * 2048 + k ∉ u.host.msixUnmasked) ∧
    (port * 2048 + k ∈ s.host.msixPending → Answers (.registerWrite port (0x3F00000 + 16 * k + 12) 0#32) s (fun u =>
      port * 2048 + k ∈ u.host.msixUnmasked ∧ port * 2048 + k ∉ u.host.msixPending ∧ k ∈ (u.port port).irqs))) ∧
  (∀ (s : State) (port site : Nat), port < 4 → site < s.sites → s.linkUp port = true →
    (s.coreOwner site = port → Answers (.cntCoreClear port site) s (fun u =>
      (∀ k < 8, u.rg (.cntCore site) (0x080 + 4 * k) = 0) ∧ (∀ k < 10, u.rg (.arr site) (0x040 + 4 * k) = 0) ∧
      (∀ k < 10, u.rg64 (.cntCore site) (8 * k) = s.rg64 (.cntCore site) (8 * k)) ∧ (TraceOff s → SameMemory s u))) ∧
    (s.coreOwner site ≠ port → Answers (.cntCoreClear port site) s (fun u => ∀ k < 8,
      u.rg (.cntCore site) (0x080 + 4 * k) = s.rg (.cntCore site) (0x080 + 4 * k)))) ∧
  (∀ (s : State) (port stack : Nat) (mask : W32), port < 4 → stack < s.stacks → s.linkUp port = true →
    port = s.boot.cfg.adminPort → Answers (.cntClear port stack mask) s (fun u =>
      (mask.getLsbD 9 = true → ∀ k < 6, u.rg (.pwr stack) (0x800 + 4 * k) = 0) ∧
      (mask.getLsbD 9 = false → ∀ k < 6, u.rg (.pwr stack) (0x800 + 4 * k) = s.rg (.pwr stack) (0x800 + 4 * k)))) ∧
  (∀ (s : State) (port unit i : Nat) (mem : Bool), port < 4 → unit < s.devices → s.linkUp port = true →
    port = s.boot.cfg.adminPort → i < 32 → ∀ b k, b = (if mem then Blk.mif unit else .sc unit) → k = (if mem then mifLog else scLog) →
    Answers (.elogClear port mem unit) s (fun u => (s.logOld b k i = true → u.rgB b (logOff i) 0 = false) ∧
      (s.logOld b k i = false → u.rg b (logOff i) = s.rg b (logOff i)))) ∧
  (∀ (s : State) (port ring : Nat) (v : W32), port < 4 → ring < 16 → s.linkUp port = true →
    (s.ownerOf ring = some port → Answers (.trRptrWrite port ring v) s (fun u => u.rg (.cnt 0) (ringOff ring + 0x24) = v)) ∧
    (s.ownerOf ring ≠ some port → Answers (.trRptrWrite port ring v) s (fun u =>
      u.rg (.cnt 0) (ringOff ring + 0x24) = s.rg (.cnt 0) (ringOff ring + 0x24))))

/-! ## Resets and bring-up -/

/-- R10, R372, R394, R395, R438, R440, R442: RESET_N and PWRGD, as they fall, and the loss of VDD_AON reset the whole part; the first two
keep TRIP_SEEN, TRIP_SENSOR and TRIP_STACK, the loss keeps nothing; as RESET_N falls the rail enables and the memories' resets are driven low. -/
def Obligations.PartResets : Prop :=
  (∀ s : State, s.pins.resetN = true → Answers (.resetNAssert false) s (fun u => IsReset s u ∧ u.pins.resetN = false ∧
    u.pins.thermtrip = s.pins.thermtrip ∧ ∀ t < s.stacks, u.rgF (.thm t) 0x000 14 3 = s.rgF (.thm t) 0x000 14 3)) ∧
  (∀ s : State, s.pins.pwrgd = true → Answers (.pwrgdDeassert false) s (fun u => IsReset s u ∧ u.pins.pwrgd = false ∧
    u.pins.thermtrip = s.pins.thermtrip ∧ ∀ t < s.stacks, u.rgF (.thm t) 0x000 14 3 = s.rgF (.thm t) 0x000 14 3)) ∧
  (∀ s : State, Answers .vddAonLoss s (fun u => IsReset s u ∧ u.pins.vddAon = false ∧ u.pins.thermtrip = false ∧ u.dbg.ir = 2 ∧
    ∀ t < s.stacks, u.rg (.thm t) 0x000 = regReset (Blk.thm t).base)) ∧
  (∀ s : State, s.pins.resetN = false → Answers (.resetNAssert true) s (fun u => u.pins.resetN = true ∧ u.mem = s.mem ∧
    u.flash = s.flash ∧ ∀ t < s.stacks, u.rgF (.thm t) 0x000 14 3 = s.rgF (.thm t) 0x000 14 3)) ∧
  (∀ s : State, s.pins.resetN = true → Answers (.resetNAssert false) s (fun u =>
    (∀ t < s.stacks, u.systemDrive (.vronLogic t) = .low ∧ u.systemDrive (.vronArray t) = .low) ∧
    (∀ d < s.devices, u.systemDrive (.mif d .resetN) = .low) ∧
    u.systemDrive .thermtripN = (if s.pins.thermtrip then .low else .none))) ∧
  (∀ s : State, exec (.resetNAssert s.pins.resetN) s = .next s ∧ exec (.pwrgdDeassert s.pins.pwrgd) s = .next s)

/-- R313, R316, R348, R357, R369, R396 to R412: each stage of bring-up follows the one before, completes or stops the part with its
reason; the valid bank of higher version boots; the rails come on and every region switches on; no bad core is enabled;
interfaces train; a memory test leaves external memory at 0; stage 10 stores the health record and raises READY. -/
def Obligations.BringUpStages : Prop :=
  (∀ s : State, AtStage s 0 →
    Answers (.bootRom true none) s (fun u => Completes u 1 ∧ SameMemory s u) ∧
    (∀ bad, Answers (.bootRom false bad) s (fun u => BootStops u 1 0)) ∧
    (∀ t, 0 < t → t < s.stacks → Answers (.bootRom true (some t)) s (fun u => BootStops u 2 t))) ∧
  (∀ (s : State) (a b : FwBank), AtStage s 1 → (∀ t < s.stacks, t ∈ s.time.locked) → s.flash.fwA = some a → s.flash.fwB = some b →
    (∀ c q, s.bankOk a = true → s.bankOk b = true → s.flash.cfgA = some (c, q) → s.flash.cfgB = none →
      Answers .firmwareCheck s (fun u => Completes u 2 ∧ u.boot.cfg = c ∧ u.fab.routes = c.routes ∧
        (a.version < b.version → u.boot.bank = some 1) ∧ (b.version < a.version → u.boot.bank = some 0) ∧
        (a.version = b.version → u.boot.bank = some (if a.seq < b.seq then 1 else 0)) ∧
        ∀ h n, s.flash.healthA = some (h, n) → s.flash.healthB = none → u.health = h)) ∧
    (s.bankOk a = false → s.bankOk b = false → Answers .firmwareCheck s (fun u => BootStops u 3 0)) ∧
    (s.bankOk a = true → s.flash.cfgA = none → s.flash.cfgB = none → Answers .firmwareCheck s (fun u => BootStops u 4 0))) ∧
  (∀ (s : State) (bad : List Nat), AtStage s 2 → s.health.phaseFails = [] → s.health.darkRegions = [] → s.health.regFails = [] →
    Answers (.firmwareBroadcast bad) s (fun u => Completes u 3 ∧ u.boot.test.badCores = bad ∧
      (∀ t < s.stacks, u.rgF (.pwr t) 0x000 1 0 = 3 ∧ u.rgF (.pwr t) 0x004 31 16 = 540) ∧
      ∀ r < s.stacks * 256, s.regF r 1 0 = 0 → u.regF r 1 0 = 1)) ∧
  (∀ (s : State) (x : SelfTest), AtStage s 3 →
    ((∀ r < s.stacks * 256, 2 ≤ s.regF r 1 0) → Answers (.cornerSelfTest x) s (fun u => Completes u 4 ∧
      u.boot.test.badSlices = x.badSlices ∧
      ∀ i, i ∈ u.boot.test.badCores ↔
        (i ∈ s.boot.test.badCores ∨ i ∈ x.badCores) ∧ hasSite s.part.fuseBad i = false ∧ i < s.sites)) ∧
    ((∃ r < s.stacks * 256, s.regF r 1 0 < 2) → exec (.cornerSelfTest x) s = .next s)) ∧
  (∀ s : State, AtStage s 4 →
    (s.flash.healthA ≠ none → s.part.grade.enabled ≤ s.countAll s.sortCores.1 → (∀ e ∈ s.health.memRemaps, e.2.2 < 8) →
      Answers .reconciliation s (fun u => Completes u 5 ∧
      ∀ i, hasSite u.roster.enabled i = true → i < s.sites ∧ hasSite s.part.fuseBad i = false ∧
        hasSite s.health.retired i = false ∧ i ∉ s.boot.test.badCores)) ∧
    (s.flash.healthA = none → s.flash.healthB = none → s.boot.cfg.degradedOk = false →
      Answers .reconciliation s (fun u => BootStops u 10 0)) ∧
    (s.flash.healthA ≠ none → s.countAll s.sortCores.1 < s.part.grade.enabled → s.boot.cfg.degradedOk = false →
      Answers .reconciliation s (fun u => BootStops u 5 (s.countAll s.sortCores.1)))) ∧
  (∀ s : State, AtStage s 5 → Answers (.vportStageTest []) s (fun u => Completes u 6 ∧ SameMemory s u)) ∧
  (∀ (s : State) (x : Training), AtStage s 6 → (∀ h ∈ s.halves, h.2.retireDue = [] ∧ h.2.stalled = []) → x.erased = [] →
    (x.badStackLink = none → (∀ d < s.devices, d ∉ x.failed) → Answers (.trainingStage x) s (fun u => Completes u 7 ∧
      ∀ d < s.devices, u.mifReady d = true ∧ (d ∈ x.verifyFailed → d ∈ u.boot.fullTrained ∧ u.rgB (.mif d) 0x000 4 = false ∧
        u.rgF (.mif d) 0x000 3 2 = nth 0 x.rates d % 3 ∧
        ∀ r, s.quickFor d (nth 0 x.serials d) (nth 0 x.temps d) = some r → ∀ k < 2, mfind u.flash.quick (2 * d + k) ≠ some r))) ∧
    (∀ l, x.badStackLink = some l → Answers (.trainingStage x) s (fun u => BootStops u 7 (l % 2 ^ 16))) ∧
    (∀ d, x.badStackLink = none → d < s.devices → d ∈ x.failed → (∀ e < d, e ∉ x.failed) →
      (s.boot.cfg.spread = true ∨ s.boot.cfg.degradedOk = false) → Answers (.trainingStage x) s (fun u => BootStops u 6 d ∧
        u.rgF (.mif d) 0x000 1 0 = 3))) ∧
  (∀ s : State, AtStage s 7 →
    (s.quickStart = true → Answers (.patternTest []) s (fun u => Completes u 8 ∧ u.rgB (.pwr 0) 0x040 6 = true ∧
      ∀ a < s.extEnd, u.byte a = 0)) ∧
    (s.quickStart = false → Answers (.patternTest []) s (fun u => Completes u 8 ∧ SameMemory s u)) ∧
    (∀ f : MemFail, f.dev < s.devices → s.mifReady f.dev = true → f.repaired = [] → f.lines = [] →
      (∃ x ∈ f.dies, ∃ y ∈ f.dies, x ≠ y) → (s.boot.cfg.spread = true ∨ s.boot.cfg.degradedOk = false) →
      Answers (.patternTest [f]) s (fun u => BootStops u 6 f.dev))) ∧
  (∀ s : State, AtStage s 8 → s.rgB (.pwr 0) 0x040 6 = false → Answers (.retentionTest []) s (fun u => Completes u 9 ∧
    (∀ a < s.extEnd, u.byte a = 0) ∧ u.health.retentionHours = some s.health.hours ∧ u.health.excursion = false)) ∧
  (∀ s : State, AtStage s 9 → s.flash.storing = none → (∀ t < s.stacks, s.rgB (.clk t) 0x000 2 = true) →
    Answers (.topologyCheck none) s (fun u => Completes u 10 ∧ u.boot.setUp = 1 ∧ u.flash.storing ≠ none) ∧
    (∀ x, Answers (.topologyCheck (some x)) s (fun u => BootStops u 7 (x % 2 ^ 16)))) ∧
  (∀ (s : State) (x : Option Nat), AtStage s 10 → s.flash.storing = none → s.boot.setUp = 1 →
    (s.boot.fullTrained = [] → Answers (.topologyCheck x) s (fun u => u.rgB (.pwr 0) 0x040 4 = true ∧
      u.rgB (.pwr 0) 0x040 5 = s.boot.degraded ∧ u.rg64 (.pwr 0) 0x044 = s.time.now % 2 ^ 64 ∧
      ∀ r < s.stacks * 256, s.regF r 1 0 ≠ 3 → u.regF r 1 0 = 0)) ∧
    (s.boot.fullTrained ≠ [] → Answers (.topologyCheck x) s (fun u => u.boot.setUp = 2 ∧ u.flash.storing ≠ none ∧
      u.regs = s.regs)))

/-! ## The TAP and the debug port -/

/-- R374, R415, R430 to R434, R447: a TAP instruction selects its data register and changes nothing else; a good token sets level, PARTS and
EXPIRY, a bad one counts toward LOCKOUT; at DBG_LOCK and EXPIRY the level returns to 0 and halts and breakpoints go; an access
within the level reads or writes exactly its register, or goes to the place of its bytes and shows the answer, one beyond it or of a fenced core
is refused without effect; HALT, RESUME and STEP
act on the groups that the site registers name. -/
def Obligations.DebugPort : Prop :=
  (∀ p ∈ tapRows, ∀ s : State, s.pins.vddAon = true → Answers p.1 s (fun u => u.dbg.ir = p.2.1 ∧ u.dbg.dr = p.2.2 s ∧
    u = { s with dbg := u.dbg } ∧ (s.pins.resetN = true → u.pinMode = .system) ∧
    (s.pins.resetN = false → u.pinMode = if p.2.1 = 0x00 ∨ p.2.1 = 0x03 then .boundary else if p.2.1 = 0x04 then .highz else .system))) ∧
  (∀ (s : State) (c v : Nat), s.pins.vddAon = true →
    Answers (.samplePreload c v) s (fun u => u.dbg.ir = 0x01 ∧ u.dbg.dr = c % 2 ^ s.boundaryLen ∧
      u.dbg.preload = v % 2 ^ s.boundaryLen ∧ u = { s with dbg := u.dbg }) ∧
    Answers .tapReset s (fun u => u.dbg.ir = 0x02 ∧ u = { s with dbg := u.dbg }) ∧
    Answers .dbgChallenge s (fun u => u.dbg.ir = 0x10 ∧ u.dbg.dr % 2 ^ 128 = (Config.nonce s.dbg.nonceCount).toNat ∧
      u.dbg.dr / 2 ^ 128 = s.part.serial % 2 ^ 64 ∧ u = { s with dbg := u.dbg })) ∧
  (∀ s : State, fld 31 28 s.idcode = s.part.stepping % 16 ∧
    fld 27 12 s.idcode = (match s.stacks with | 8 => 0x5838 | 4 => 0x5834 | _ => 0x5832)) ∧
  (∀ (s : State) (tok : List Byte), tok.length = 160 → s.held = false → s.rgB (.dbg 0) 0x000 2 = false →
    (s.tokenOk tok = true → Answers (.dbgToken tok) s (fun u => u.dbgLevel = ofBytes ((tok.drop 2).take 1) ∧
      u.rgF (.dbg 0) 0x000 31 16 = ofBytes ((tok.drop 4).take 2) ∧ u.rg64 (.dbg 0) 0x008 = ofBytes ((tok.drop 32).take 8) ∧
      u.dbg.nonceCount = s.dbg.nonceCount + 1)) ∧
    ((Config.signatureVerifies 1 (tok.take 64) (tok.drop 64) = false ∨ ofBytes ((tok.drop 8).take 8) ≠ s.part.serial % 2 ^ 64 ∨
        ofBytes ((tok.drop 16).take 16) ≠ (Config.nonce s.dbg.nonceCount).toNat ∨ ofBytes ((tok.drop 32).take 8) ≤ s.time.now) →
      s.rgF (.dbg 0) 0x000 4 3 < 3 → Answers (.dbgToken tok) s (fun u => u.dbgLevel = s.dbgLevel ∧
        u.rgF (.dbg 0) 0x000 4 3 = s.rgF (.dbg 0) 0x000 4 3 + 1 ∧
        (u.rgB (.dbg 0) 0x000 2 = true ↔ s.rgF (.dbg 0) 0x000 4 3 = 2) ∧ u.dbg.nonceCount = s.dbg.nonceCount + 1))) ∧
  (∀ (s : State) (tok : List Byte), s.rgB (.dbg 0) 0x000 2 = true → Answers (.dbgToken tok) s (fun u => u.regs = s.regs)) ∧
  (∀ s : State, s.pins.vddAon = true ∧ s.dbgLevel ≠ 0 → ∀ i ∈ [Instr.dbgLock, .debugExpiry],
    (i = .debugExpiry → s.rg64 (.dbg 0) 0x008 ≤ s.time.now) → Answers i s (fun u => u.dbgLevel = 0 ∧
      ∀ site < s.sites, (∀ g < 64, u.halted site g = false) ∧
        ∀ k < 8, u.rgB (.dbg (siteStack site)) (dbgOff site + 0x10 + 4 * k) 20 = false)) ∧
  (∀ (s : State) (dr : BitVec 96) (a : Nat), a = dr.toNat % 2 ^ 48 → s.pins.vddAon = true →
    (s.dbgLevel = 0 → Answers (.dbgReg dr) s (fun u => u.dbg.dr.testBit 49 = true ∧ u.dbg.dr.testBit 50 = true ∧
      u = { s with dbg := u.dbg })) ∧
    (s.held = false → s.dbgLevel ≠ 0 → (a < regBase ∨ regEnd ≤ a) → Answers (.dbgReg dr) s (fun u => u.dbg.dr.testBit 50 = true ∧
      u = { s with dbg := u.dbg })) ∧
    (s.held = false → regBase ≤ a → s.fencedReg (a - regBase) = true → Answers (.dbgReg dr) s (fun u =>
      u.dbg.dr.testBit 49 = true ∧ u.dbg.dr.testBit 50 = true ∧ u = { s with dbg := u.dbg })) ∧
    (s.held = false → s.dbgLevel ≠ 0 → regBase ≤ a → a < regEnd → s.fencedReg (a - regBase) = false → dr.getLsbD 48 = false →
      Answers (.dbgReg dr) s (fun u => u.dbg.dr.testBit 49 = true ∧ u.dbg.dr.testBit 50 = false ∧
        u.dbg.dr / 2 ^ 64 = (s.readReg 4 (a - regBase)).toNat ∧ u.regs = s.regs ∧ SameMemory s u)) ∧
    (∀ site < s.sites, s.held = false → s.dbgLevel = 2 → s.fencedCore site = false → dr.getLsbD 48 = true → a = regBase + site * 0x1000 + 4 →
      ((∃ p < 16, s.corePart site = some p ∧ s.rgB (.dbg 0) 0x000 (16 + p) = true) → Answers (.dbgReg dr) s (fun u =>
        u.rg (.arr site) 0x004 = (BitVec.ofNat 32 (dr.toNat / 2 ^ 64) &&& 0xFF#32) ||| (s.rg (.arr site) 0x004 &&& 0xFFFFFF00#32) ∧
        u.dbg.dr.testBit 50 = false)) ∧
      ((∀ p, s.corePart site = some p → s.rgB (.dbg 0) 0x000 (16 + p) = false) → s.rgF (.dbg 0) 0x000 31 16 ≠ 0xFFFF →
        Answers (.dbgReg dr) s (fun u => u.dbg.dr.testBit 50 = true ∧ u = { s with dbg := u.dbg })))) ∧
  (∀ (s : State) (dr : BitVec 128) (a n : Nat), a = dr.toNat % 2 ^ 48 →
    n = 2 ^ (dr.toNat / 2 ^ 48 % 8) → s.pins.vddAon = true →
    ((s.dbgLevel = 0 ∨ (s.dbgLevel = 1 ∧ dr.getLsbD 51 = true)) → Answers (.dbgMem dr) s (fun u =>
      u.dbg.dr.testBit 52 = true ∧ u.dbg.dr.testBit 53 = true ∧ u = { s with dbg := u.dbg })) ∧
    (s.held = false → n ≤ 8 → a + n ≤ s.extEnd → s.extEnd ≤ winBase → s.rgF (.pwr (s.devOf a / 2)) 0x000 1 0 = 3 → s.dbg.mem = none →
      Numbered s →
      (dr.getLsbD 51 = false → s.dbgLevel ≠ 0 → Answers (.dbgMem dr) s (fun u => Reads u (dbgEng s.net.nextSerial) a n ∧
        u.dbg.mem = some (dr, s.net.nextSerial) ∧ (TraceOff s → SameMemory s u))) ∧
      (dr.getLsbD 51 = true → s.dbgLevel = 2 → s.dbgPart (s.memOwner a n) = true → Answers (.dbgMem dr) s (fun u =>
        Writes u (dbgEng s.net.nextSerial) a (clean (toBytes n (dr.toNat / 2 ^ 64 % 2 ^ (8 * n)))) ∧
        u.dbg.mem = some (dr, s.net.nextSerial) ∧ (TraceOff s → SameMemory s u)))) ∧
    (∀ k r x, s.dbg.mem = some (dr, k) → Numbered s → s.req? r.rid = some r → r.state = .performed → r.remote = none →
      (dbgEng k).owns r = true → (∀ q ∈ s.net.reqs, (dbgEng k).owns q = true → q.rid = r.rid ∨ q.ended = true) →
      s.net.packets.find? (fun k => k.rid == r.rid && k.response && k.at_ == k.dest && s.canMove k && s.wins k) = some x →
      (dr.getLsbD 51 = false → linePieces a n = [(a, n)] → s.engReq (dbgEng k) .read none a n = some r → r.refused = false →
        r.line.length = n → n ≤ 8 → Answers (.responseArrival r.rid) s (fun u => u.dbg.mem = none ∧ u.dbg.dr.testBit 53 = false ∧
          u.dbg.dr.testBit 54 = r.marked.any (·.2) ∧ u.dbg.dr / 2 ^ 64 = ofBytes r.line ∧ SameMemory s u)) ∧
      (dr.getLsbD 51 = true → r.kind = .write → n ≤ 8 → Answers (.responseArrival r.rid) s (fun u => u.dbg.mem = none ∧
        u.dbg.dr.testBit 53 = r.refused ∧ SameMemory s u)))) ∧
  (∀ (s : State) (site g : Nat) (x : Group), site < s.sites → Reached s site → g < 64 → mfind (s.core site).groups g = some x →
    ((s.rgB (.dbg (siteStack site)) (dbgOff site) 3 = true ∨ s.rgF (.dbg (siteStack site)) (dbgOff site) 9 4 = g) →
      Answers (.halt site) s (fun u => u.halted site g = true ∧ u = { s with regs := u.regs }) ∧
      (s.halted site g = true → Answers (.resume site) s (fun u => u.halted site g = false ∧
        mfind (u.core site).groups g = some { x with bpSkip := true }))) ∧
    (s.halted site g = true → s.rgF (.dbg (siteStack site)) (dbgOff site) 9 4 = g →
      Answers (.step site) s (fun u => u.stepPending site g = true ∧ u = { s with regs := u.regs })))

/-! ## The machine as a whole -/

/-- A step runs the command at the front of the queue with the queue's rest; with none waiting it is one tick of device time, before
which nothing happens until time runs (log entry 1: the model's choice). R357: a tick advances the count by 1 modulo 2^64. -/
def Obligations.StepRunsTheFrontCommand : Prop :=
  (∀ (s : State) (c : Instr) (rest : List Instr), s.pending = c :: rest → step s = exec c { s with pending := rest }) ∧
  (∀ (s : State) (c : Instr), step { s with pending := c :: s.pending } = exec c s) ∧
  (∀ s : State, s.pending = [] → s.time.running = false → step s = .next s) ∧
  (∀ s : State, s.pending = [] → s.time.running = true → ∃ t, step s = .next t ∧ t.pending = [] ∧
    t.time.now = (s.time.now + 1) % 2 ^ 64 ∧ t.part = s.part)

/-- R10, R65, R169, R170, R195, R200, R215, R218, R255, R257, R268, R357, R371, R372, R395, R410: after reset the registers read the
values of the Reset column, no stage of bring-up has been completed, no command, core, partition or link is there, device time does
not run, memory lists nothing. The grade of the part
(two stacks, so that the statement's bounds are its own) and memory that reads as 0 are the model's choices (log entries 2, 14). -/
def Obligations.ResetState : Prop :=
  State.reset.pending = [] ∧ State.reset.cmds = [] ∧ State.reset.parts = [] ∧ State.reset.cores = [] ∧ State.reset.mem = [] ∧
  State.reset.time.running = false ∧ State.reset.bootStage = 0 ∧ State.reset.partReady = false ∧ State.reset.held = false ∧
  (∀ p < 4, State.reset.linkUp p = false) ∧ (∀ a, State.reset.byte a = 0) ∧
  (∀ b o, State.reset.rg b o = regReset (b.base + o)) ∧
  (∀ site < 1024, State.reset.rg (.arr site) 0x004 = 0x30#32) ∧
  (∀ h < 4, State.reset.rg (.sc h) 0x004 = 8#32 ∧ State.reset.rg (.sc h) 0x008 = 0x146080#32 ∧
    State.reset.rg (.sc h) 0x2380 = 0x3C1#32 ∧ State.reset.rg (.sc h) 0x238C = 4#32 ∧
    State.reset.rg (.mif h) 0x00C = 0x40#32 ∧ State.reset.rg (.mif h) 0x2380 = 0x5A01#32) ∧
  (∀ t < 2, State.reset.rg (.msh t) 0x004 = 6#32 ∧ State.reset.rg (.msh t) 0x300 = 0x0800#32 ∧
    State.reset.rg (.msh t) 0x310 = 0x0C80#32 ∧ State.reset.rg (.msh t) 0x320 = 0x0010#32 ∧
    State.reset.rg (.msh t) 0x330 = 0x0004#32 ∧ State.reset.rg (.clk t) 0x004 = 0x2D#32 ∧
    State.reset.rg (.thm t) 0x004 = 0x5FC8#32 ∧ State.reset.rg (.fp (2 * t)) 0x030 = 0xB80E#32) ∧
  Memory.wf State.reset.mem = true ∧ Memory.wf State.reset.hmem = true

/-- R119, R120: the word of every thread instruction decodes to that instruction, with every field at every value. -/
def Obligations.ThreadWordsDecode : Prop :=
  ∀ (i : Instr) (n : Nat), encodeThread i = some n → n < 2 ^ 64 ∧ ∃ w p, guardOf i = some (w, p) ∧ decodeThread w n = some i

/-- A step that goes on with a command takes it from the front and leaves the others in their order, and leaves the part as it was
made: its grade, serial and fuses (R2, R400, R401, R430). -/
def Obligations.CommandsAreTakenInOrder : Prop :=
  ∀ (s t : State) (c : Instr) (rest : List Instr), s.pending = c :: rest → step s = .next t → t.pending = rest ∧ t.part = s.part

/-- Every step keeps device memory and the hosts' memory in canonical form, and the poison marks in rising order without repeats. -/
def Obligations.MemoryStaysCanonical : Prop :=
  ∀ s t : State, Memory.wf s.mem = true → Memory.wf s.hmem = true → s.poison.Pairwise (· < ·) → step s = .next t →
    Memory.wf t.mem = true ∧ Memory.wf t.hmem = true ∧ t.poison.Pairwise (· < ·)
end

