-- ==== Sys2Proof/Laws/Codes.lean ====
section
/-! SUPPORT. What the word code of a slice says whatever its free columns are (R202 to R204). -/

namespace Sys2Proof.Machine

theorem nth_mem_or {α : Type} (d : α) (l : List α) (n : Nat) : nth d l n = d ∨ nth d l n ∈ l := by
  induction l generalizing n with
  | nil => exact .inl rfl
  | cons x xs ih =>
    cases n with
    | zero => exact .inr (List.mem_cons_self ..)
    | succ n => exact (ih n).imp id (List.mem_cons_of_mem _)

theorem pickColumns_pool {f : Nat → Nat} {n x : Nat} {pool : List Nat} (h : x ∈ pickColumns f n pool) : x = 0 ∨ x ∈ pool := by
  induction n generalizing pool with
  | zero => cases h
  | succ n ih =>
    obtain rfl | h := List.mem_cons.1 h
    · exact nth_mem_or ..
    · exact (ih h).imp id List.mem_of_mem_erase

/-- Every bit of the codeword has a column of odd weight (R202), or none where the pool is used up. -/
theorem codeColumn_odd (i : Nat) (hi : i < 270) : codeColumn i = 0 ∨ weight (codeColumn i) % 2 = 1 := by
  unfold codeColumn
  split
  · obtain h | h := nth_mem_or 0 dataColumns i
    · exact .inl h
    · refine (pickColumns_pool h).imp id fun h => ?_
      simp only [dataPool, List.mem_filter, Bool.or_eq_true, beq_iff_eq] at h
      omega
  · have : ∀ k < 14, weight (2 ^ k) % 2 = 1 := by decide
    exact .inr (this _ (by omega))

/-- A syndrome of even weight is never corrected (R203). -/
theorem verdict_even {y : Nat} (h : weight y % 2 = 0) (h0 : y ≠ 0) (hp : y ≠ poisonSyndrome) : verdict y = .uncorrectable := by
  have : (upTo 0 270).find? (fun i => codeColumn i == y) = none := by
    rw [List.find?_eq_none]
    intro i hi hc
    have hi : i < 270 := by
      have : (upTo 0 270).all (fun i => decide (i < 270)) = true := by decide +kernel
      exact of_decide_eq_true (List.all_eq_true.1 this i hi)
    have hc := eq_of_beq hc
    obtain h' | h' := codeColumn_odd i hi <;> rw [hc] at h' <;> omega
  simp [verdict, h0, hp, this]

end Sys2Proof.Machine
end

