-- ==== Sys2Proof/Laws/Maps.lean ====
section
/-! SUPPORT. Lemmas about sparse maps, rising lists and positions in lists: a read after a write, and the forms that the
operations keep. -/

namespace Sys2Proof.Machine

variable {α : Type}

/-! ## Reads after writes -/

theorem mfind_merase (m : Map α) (i j : Nat) : mfind (merase m i) j = if j = i then none else mfind m j := by
  induction m with
  | nil => simp [mfind, merase]
  | cons e m ih =>
    obtain ⟨k, v⟩ := e
    by_cases hk : k = i <;> by_cases hj : k = j <;> simp_all [mfind, merase]

theorem mfind_minsert (m : Map α) (i j : Nat) (x : α) (h : mfind m i = none) :
    mfind (minsert m i x) j = if j = i then some x else mfind m j := by
  induction m with
  | nil => simp [mfind, minsert]; grind
  | cons e m ih =>
    obtain ⟨k, v⟩ := e
    have hk : k ≠ i := by rintro rfl; simp [mfind] at h
    have hm : mfind m i = none := by simpa [mfind, hk] using h
    simp only [minsert]
    split <;> simp only [mfind, ih hm] <;> grind

@[simp] theorem mfind_mput (m : Map α) (i j : Nat) (x : α) :
    mfind (mput m i x) j = if j = i then some x else mfind m j := by
  rw [mput, mfind_minsert _ _ _ _ (by simp [mfind_merase]), mfind_merase]
  split <;> simp_all

@[simp] theorem mget_mput (d : α) (m : Map α) (i j : Nat) (x : α) :
    mget d (mput m i x) j = if j = i then x else mget d m j := by
  simp only [mget, mfind_mput]; split <;> rfl

@[simp] theorem mget_mset [DecidableEq α] (d : α) (m : Map α) (i j : Nat) (x : α) :
    mget d (mset d m i x) j = if j = i then x else mget d m j := by
  unfold mset
  split
  · simp only [mget, mfind_merase]; split <;> simp_all
  · simp

@[simp] theorem mget_mset_self [DecidableEq α] (d : α) (m : Map α) (i : Nat) (x : α) : mget d (mset d m i x) i = x := by
  simp

@[simp] theorem mfind_mmod (m : Map α) (i j : Nat) (f : α → α) :
    mfind (mmod m i f) j = if j = i then (mfind m i).map f else mfind m j := by
  unfold mmod; split <;> rename_i h <;> simp_all

theorem mfind_isSome_of_mem {m : Map α} {e : Nat × α} (h : e ∈ m) : (mfind m e.1).isSome := by
  induction m with
  | nil => simp at h
  | cons a m ih =>
    obtain ⟨k, v⟩ := a
    by_cases hk : k = e.1
    · simp [mfind, hk]
    · rcases List.mem_cons.mp h with rfl | h
      · exact absurd rfl hk
      · simpa [mfind, hk] using ih h

theorem mem_of_mfind {m : Map α} {i : Nat} {x : α} (h : mfind m i = some x) : (i, x) ∈ m := by
  induction m with
  | nil => simp [mfind] at h
  | cons a m ih =>
    obtain ⟨k, v⟩ := a
    by_cases hk : k = i
    · subst hk; simp [mfind] at h; simp [h]
    · simp only [mfind, hk, if_false] at h; exact List.mem_cons_of_mem _ (ih h)

/-! ## The canonical form -/

theorem mkeysUp_iff (m : Map α) : mkeysUp m = true ↔ (m.map (·.1)).Pairwise (· < ·) := by
  induction m with
  | nil => simp [mkeysUp]
  | cons a m ih =>
    obtain ⟨k, v⟩ := a
    cases m with
    | nil => simp [mkeysUp]
    | cons b m =>
      obtain ⟨l, w⟩ := b
      simp only [mkeysUp, Bool.and_eq_true, decide_eq_true_eq, ih, List.map_cons, List.pairwise_cons, List.mem_cons,
        List.mem_map]
      constructor
      · rintro ⟨h, h1, h2⟩
        refine ⟨?_, h1, h2⟩
        rintro a (rfl | ⟨e, he, rfl⟩)
        · exact h
        · exact h.trans (h1 _ ⟨e, he, rfl⟩)
      · rintro ⟨h, h1, h2⟩
        exact ⟨h _ (.inl rfl), h1, h2⟩

theorem merase_sublist (m : Map α) (i : Nat) : (merase m i).Sublist m := by
  induction m with
  | nil => exact .slnil
  | cons e m ih =>
    obtain ⟨k, v⟩ := e
    simp only [merase]; split
    · exact ih.cons _
    · exact ih.cons_cons _

theorem mkeysUp_sublist {m m' : Map α} (h : mkeysUp m = true) (hs : m'.Sublist m) : mkeysUp m' = true := by
  rw [mkeysUp_iff] at *; exact h.sublist (hs.map _)

theorem mem_minsert {m : Map α} {i : Nat} {x : α} {e : Nat × α} (h : e ∈ minsert m i x) : e = (i, x) ∨ e ∈ m := by
  induction m with
  | nil => simpa [minsert] using h
  | cons a m ih =>
    obtain ⟨k, v⟩ := a
    simp only [minsert] at h
    split at h <;> simp only [List.mem_cons] at h ⊢
    · tauto
    · rcases h with rfl | h
      · tauto
      · rcases ih h with h | h <;> tauto

theorem mkeysUp_minsert {m : Map α} {i : Nat} {x : α} (h : mkeysUp m = true) (hi : ∀ e ∈ m, e.1 ≠ i) :
    mkeysUp (minsert m i x) = true := by
  induction m with
  | nil => rfl
  | cons a m ih =>
    obtain ⟨k, v⟩ := a
    rw [mkeysUp_iff] at h
    simp only [List.map_cons, List.pairwise_cons, List.mem_map] at h
    simp only [minsert]
    split
    · rename_i hik
      rw [mkeysUp_iff]
      simp only [List.map_cons, List.pairwise_cons, List.mem_cons, List.mem_map]
      refine ⟨?_, h⟩
      rintro b (rfl | ⟨e, he, rfl⟩)
      · exact hik
      · exact hik.trans (h.1 _ ⟨e, he, rfl⟩)
    · rename_i hik
      have hk : k < i := lt_of_le_of_ne (not_lt.mp hik) (hi _ (List.mem_cons_self))
      have := ih (by rw [mkeysUp_iff]; exact h.2) (fun e he => hi e (List.mem_cons_of_mem _ he))
      rw [mkeysUp_iff] at this ⊢
      simp only [List.map_cons, List.pairwise_cons, List.mem_map]
      refine ⟨?_, this⟩
      rintro b ⟨e, he, rfl⟩
      rcases mem_minsert he with rfl | he
      · exact hk
      · exact h.1 _ ⟨e, he, rfl⟩

theorem mem_merase {m : Map α} {i : Nat} {e : Nat × α} (h : e ∈ merase m i) : e ∈ m ∧ e.1 ≠ i := by
  refine ⟨(merase_sublist m i).subset h, fun he => ?_⟩
  have := mfind_isSome_of_mem h
  simp [mfind_merase, he] at this

theorem mkeysUp_merase {m : Map α} (i : Nat) (h : mkeysUp m = true) : mkeysUp (merase m i) = true :=
  mkeysUp_sublist h (merase_sublist m i)

theorem mkeysUp_mput {m : Map α} (i : Nat) (x : α) (h : mkeysUp m = true) : mkeysUp (mput m i x) = true :=
  mkeysUp_minsert (mkeysUp_merase i h) (fun _ he => (mem_merase he).2)

theorem mkeysUp_mset [DecidableEq α] (d : α) {m : Map α} (i : Nat) (x : α) (h : mkeysUp m = true) :
    mkeysUp (mset d m i x) = true := by
  unfold mset; split
  · exact mkeysUp_merase i h
  · exact mkeysUp_mput i x h

theorem mem_mput {m : Map α} {i : Nat} {x : α} {e : Nat × α} (h : e ∈ mput m i x) : e = (i, x) ∨ (e ∈ m ∧ e.1 ≠ i) :=
  (mem_minsert h).imp_right mem_merase

theorem mem_mset [DecidableEq α] {d : α} {m : Map α} {i : Nat} {x : α} {e : Nat × α} (h : e ∈ mset d m i x) :
    (e = (i, x) ∧ x ≠ d) ∨ (e ∈ m ∧ e.1 ≠ i) := by
  unfold mset at h; split at h
  · exact .inr (mem_merase h)
  · exact (mem_mput h).imp_left (fun h => ⟨h, ‹_›⟩)

/-! ## Strictly rising lists of numbers -/

@[simp] theorem mem_insNat (m : List Nat) (i j : Nat) : j ∈ insNat m i ↔ j = i ∨ j ∈ m := by
  induction m with
  | nil => simp [insNat]
  | cons k m ih =>
    simp only [insNat]
    split_ifs
    · simp
    · simp_all
    · simp only [List.mem_cons, ih]; tauto

theorem insNat_rising {m : List Nat} (i : Nat) (h : m.Pairwise (· < ·)) : (insNat m i).Pairwise (· < ·) := by
  induction m with
  | nil => simp [insNat]
  | cons k m ih =>
    rw [List.pairwise_cons] at h
    simp only [insNat]; split_ifs with h1 h2
    · rw [List.pairwise_cons, List.pairwise_cons]
      refine ⟨?_, h⟩
      intro a ha
      rcases List.mem_cons.mp ha with rfl | ha
      · exact h1
      · exact h1.trans (h.1 a ha)
    · rw [List.pairwise_cons]; exact h
    · rw [List.pairwise_cons]
      refine ⟨fun a ha => ?_, ih h.2⟩
      rcases (mem_insNat _ _ _).mp ha with rfl | ha
      · omega
      · exact h.1 a ha

theorem foldl_insNat_rising (l : List Nat) {m : List Nat} (h : m.Pairwise (· < ·)) :
    (l.foldl insNat m).Pairwise (· < ·) := by
  induction l generalizing m with
  | nil => exact h
  | cons i l ih => exact ih (insNat_rising i h)

@[simp] theorem mem_foldl_insNat (l m : List Nat) (j : Nat) : j ∈ l.foldl insNat m ↔ j ∈ m ∨ j ∈ l := by
  induction l generalizing m with
  | nil => simp
  | cons i l ih => simp [ih]; tauto

@[simp] theorem mem_delNat (m : List Nat) (i j : Nat) : j ∈ delNat m i ↔ j ∈ m ∧ j ≠ i := by
  simp [delNat]

theorem delNat_rising {m : List Nat} (i : Nat) (h : m.Pairwise (· < ·)) : (delNat m i).Pairwise (· < ·) :=
  h.sublist List.filter_sublist

@[simp] theorem mem_upTo (a n j : Nat) : j ∈ upTo a n ↔ a ≤ j ∧ j < a + n := by
  induction n generalizing a with
  | zero => simp [upTo]
  | succ n ih => simp [upTo, ih]; omega

/-! ## Positions -/

@[simp] theorem length_setNth (l : List α) (n : Nat) (y : α) : (setNth l n y).length = l.length := by
  induction l generalizing n with
  | nil => rfl
  | cons x l ih => cases n <;> simp [setNth, ih]

theorem nth_setNth (d : α) (l : List α) (n k : Nat) (y : α) (h : n < l.length) :
    nth d (setNth l n y) k = if k = n then y else nth d l k := by
  induction l generalizing n k with
  | nil => simp at h
  | cons x l ih =>
    cases n with
    | zero => cases k <;> simp [setNth, nth]
    | succ n =>
      cases k with
      | zero => simp [setNth, nth]
      | succ k => simp only [setNth, nth, ih n k (by simpa using h)]; simp

theorem nth_of_length_le (d : α) (l : List α) (n : Nat) (h : l.length ≤ n) : nth d l n = d := by
  induction l generalizing n with
  | nil => rfl
  | cons x l ih =>
    cases n with
    | zero => simp at h
    | succ n => simpa [nth] using ih n (by simpa using h)

end Sys2Proof.Machine
end

