-- ==== Sys2Proof/Laws/Memory.lean ====
section
/-! SUPPORT. Memory: a read after a write, and the canonical form that every memory operation keeps. -/

namespace Sys2Proof.Machine

/-! ## Bytes and numbers -/

@[simp] theorem length_toBytes (n x : Nat) : (toBytes n x).length = n := by
  induction n generalizing x with
  | zero => rfl
  | succ n ih => simp [toBytes, ih]

theorem ofBytes_toBytes (n x : Nat) : ofBytes (toBytes n x) = x % 2 ^ (8 * n) := by
  induction n generalizing x with
  | zero => simp [toBytes, ofBytes, Nat.mod_one]
  | succ n ih =>
    simp only [toBytes, ofBytes, ih, BitVec.toNat_ofNat]
    rw [show 8 * (n + 1) = 8 + 8 * n by ring, pow_add, Nat.mod_mul]
    norm_num

theorem ofBytes_lt (bs : List Byte) : ofBytes bs < 2 ^ (8 * bs.length) := by
  induction bs with
  | nil => simp [ofBytes]
  | cons b bs ih =>
    have := b.isLt
    simp only [ofBytes, List.length_cons]
    rw [show 8 * (bs.length + 1) = 8 + 8 * bs.length by ring, pow_add]
    omega

@[simp] theorem State.length_bytes (s : State) (a n : Nat) : (s.bytes a n).length = n := by
  induction n generalizing a with
  | zero => rfl
  | succ n ih => simp [State.bytes, ih]

theorem State.bytes_congr {s t : State} {a n : Nat} (h : ∀ x, a ≤ x → x < a + n → t.byte x = s.byte x) :
    t.bytes a n = s.bytes a n := by
  induction n generalizing a with
  | zero => rfl
  | succ n ih =>
    simp only [State.bytes]
    rw [h a le_rfl (by omega), ih (fun x h1 h2 => h x (by omega) (by omega))]

theorem State.num_congr {s t : State} {a n : Nat} (h : ∀ x, a ≤ x → x < a + n → t.byte x = s.byte x) :
    t.num a n = s.num a n := by
  rw [State.num, State.num, State.bytes_congr h]

/-! ## A read after a write -/

theorem mget_putCells (m : List Host.Cell) (a : Nat) (bs : List Byte) (x : Nat) :
    mget 0 (putCells m a bs) x = if a ≤ x ∧ x < a + bs.length then nth 0 bs (x - a) else mget 0 m x := by
  induction bs generalizing m a with
  | nil => simp [putCells]
  | cons b bs ih =>
    rw [putCells, ih, mget_mset]
    simp only [List.length_cons]
    by_cases h1 : x = a
    · subst h1; simp [nth]
    · by_cases h2 : a + 1 ≤ x ∧ x < a + 1 + bs.length
      · rw [if_pos h2, if_pos (by omega), show x - a = (x - (a + 1)) + 1 by omega]; rfl
      · rw [if_neg h2, if_neg h1, if_neg (by omega)]

/-- A store: the stored bytes read back, every other byte as before. -/
theorem State.byte_store (s : State) (a : Nat) (bs : List Byte) (p : Bool) (x : Nat) :
    (s.store a bs p).byte x = if a ≤ x ∧ x < a + bs.length then nth 0 bs (x - a) else s.byte x :=
  mget_putCells s.mem a bs x

theorem State.byte_store_outside (s : State) (a : Nat) (bs : List Byte) (p : Bool) (x : Nat)
    (h : x < a ∨ a + bs.length ≤ x) : (s.store a bs p).byte x = s.byte x := by
  rw [State.byte_store, if_neg (by omega)]

theorem State.bytes_store (s : State) (a : Nat) (bs : List Byte) (p : Bool) : (s.store a bs p).bytes a bs.length = bs := by
  have key : ∀ (l : List Byte) (k : Nat), k + l.length ≤ bs.length → (∀ i, i < l.length → nth 0 l i = nth 0 bs (k + i)) →
      (s.store a bs p).bytes (a + k) l.length = l := by
    intro l
    induction l with
    | nil => intro k _ _; rfl
    | cons b l ih =>
      intro k hk hn
      simp only [List.length_cons] at hk
      simp only [List.length_cons, State.bytes]
      have h0 := hn 0 (by simp)
      simp only [nth, Nat.add_zero] at h0
      rw [State.byte_store, if_pos (by omega), show a + k - a = k by omega, ← h0,
        show a + k + 1 = a + (k + 1) by omega,
        ih (k + 1) (by omega) (fun i hi => by
          have := hn (i + 1) (by simpa using hi)
          simp only [nth] at this
          rw [this]; congr 1; omega)]
  have := key bs 0 (by omega) (fun i _ => by rw [Nat.zero_add])
  simpa using this

theorem State.num_storeN (s : State) (a n v : Nat) : (s.storeN a n v).num a n = v % 2 ^ (8 * n) := by
  have h := State.bytes_store s a (toBytes n v) false
  rw [length_toBytes] at h
  rw [State.num, State.storeN, h, ofBytes_toBytes]

theorem mget_filter (m : List Host.Cell) (f : Nat → Bool) (x : Nat) :
    mget 0 (m.filter (fun c => f c.1)) x = if f x then mget 0 m x else (0 : Byte) := by
  induction m with
  | nil => simp [mget, mfind]
  | cons c m ih =>
    obtain ⟨k, v⟩ := c
    simp only [mget] at ih ⊢
    by_cases hk : k = x
    · subst hk
      by_cases hf : f k
      · simp [hf, mfind]
      · simp [hf] at ih ⊢; exact ih
    · by_cases hf : f k <;> simp only [List.filter_cons, hf, mfind, hk, if_true, if_false, Bool.false_eq_true] <;> exact ih

/-- A cleared range reads as 0, every other byte as before. -/
theorem State.byte_clear (s : State) (a n x : Nat) :
    (s.clear a n).byte x = if a ≤ x ∧ x < a + n then 0 else s.byte x := by
  have := mget_filter s.mem (fun k => !(decide (a ≤ k) && decide (k < a + n))) x
  simp only [State.byte, State.clear]
  rw [this]
  by_cases h : a ≤ x ∧ x < a + n
  · simp [h]
  · simp only [h, if_false]; rw [if_pos]; simp; omega

/-! ## Poison marks -/

theorem storeMarks_rising {p : List Nat} (a n : Nat) (b : Bool) (h : p.Pairwise (· < ·)) :
    (storeMarks p a n b).Pairwise (· < ·) := by
  unfold storeMarks; split
  · exact foldl_insNat_rising _ h
  · exact h.sublist List.filter_sublist

/-! ## The canonical form (Memory.wf) -/

theorem Memory.wf_nil : Memory.wf [] = true := rfl

theorem Memory.wf_mset {m : List Host.Cell} (a : Nat) (b : Byte) (h : Memory.wf m = true) :
    Memory.wf (mset (0 : Byte) m a b) = true := by
  simp only [Memory.wf, Bool.and_eq_true, List.all_eq_true] at *
  refine ⟨mkeysUp_mset _ _ _ h.1, fun e he => ?_⟩
  rcases mem_mset he with ⟨rfl, hx⟩ | ⟨he, _⟩
  · simpa using hx
  · exact h.2 e he

theorem Memory.wf_putCells {m : List Host.Cell} (a : Nat) (bs : List Byte) (h : Memory.wf m = true) :
    Memory.wf (putCells m a bs) = true := by
  induction bs generalizing m a with
  | nil => exact h
  | cons b bs ih => exact ih _ (Memory.wf_mset a b h)

theorem Memory.wf_filter {m : List Host.Cell} (f : Host.Cell → Bool) (h : Memory.wf m = true) :
    Memory.wf (m.filter f) = true := by
  simp only [Memory.wf, Bool.and_eq_true, List.all_eq_true] at *
  exact ⟨mkeysUp_sublist h.1 List.filter_sublist, fun e he => h.2 e (List.mem_filter.mp he).1⟩

theorem Memory.wf_foldl_mset {m l : List Host.Cell} (h : Memory.wf m = true) :
    Memory.wf (l.foldl (fun m c => mset (0 : Byte) m c.1 c.2) m) = true := by
  induction l generalizing m with
  | nil => exact h
  | cons c l ih => exact ih (Memory.wf_mset _ _ h)

/-- Device memory and the hosts' memory are canonical, the poison marks rise without repeats. -/
def State.MemOk (s : State) : Prop :=
  Memory.wf s.mem = true ∧ Memory.wf s.hmem = true ∧ s.poison.Pairwise (· < ·)

theorem State.memOk_reset : State.reset.MemOk := ⟨rfl, rfl, List.Pairwise.nil⟩

theorem State.MemOk.of_eq {s t : State} (h : s.MemOk) (h1 : t.mem = s.mem) (h2 : t.hmem = s.hmem) (h3 : t.poison = s.poison) :
    t.MemOk := by
  unfold State.MemOk at *; rw [h1, h2, h3]; exact h

theorem State.MemOk.store {s : State} (h : s.MemOk) (a : Nat) (bs : List Byte) (p : Bool) : (s.store a bs p).MemOk :=
  ⟨Memory.wf_putCells a bs h.1, h.2.1, storeMarks_rising a _ p h.2.2⟩

theorem State.MemOk.storeN {s : State} (h : s.MemOk) (a n v : Nat) : (s.storeN a n v).MemOk := h.store _ _ _

theorem State.MemOk.clear {s : State} (h : s.MemOk) (a n : Nat) : (s.clear a n).MemOk :=
  ⟨Memory.wf_filter _ h.1, h.2.1, h.2.2.sublist List.filter_sublist⟩

theorem State.MemOk.poisonAll {s : State} (h : s.MemOk) (a n : Nat) : (s.poisonAll a n).MemOk :=
  ⟨h.1, h.2.1, foldl_insNat_rising _ h.2.2⟩

theorem State.MemOk.foldl {α : Type} {f : State → α → State} (hf : ∀ s x, s.MemOk → (f s x).MemOk) {s : State} (l : List α)
    (h : s.MemOk) : (l.foldl f s).MemOk := by
  induction l generalizing s with
  | nil => exact h
  | cons x l ih => exact ih (hf s x h)

theorem State.MemOk.copyRange {s : State} (h : s.MemOk) (a b n : Nat) : (s.copyRange a b n).MemOk := by
  unfold State.copyRange
  refine State.MemOk.foldl (fun t w ht => ht.poisonAll _ _) _ ?_
  exact ⟨Memory.wf_foldl_mset (Memory.wf_filter _ h.1), h.2.1, storeMarks_rising b n false h.2.2⟩

theorem State.MemOk.hostStore {s : State} (h : s.MemOk) (port a : Nat) (bs : List Byte) : (s.hostStore port a bs).MemOk :=
  ⟨h.1, Memory.wf_putCells _ bs h.2.1, h.2.2⟩

end Sys2Proof.Machine
end

