-- ==== Sys2Proof/Laws/State.lean ====
section
/-! SUPPORT. Each update of the state beside each field that it leaves alone. -/

namespace Sys2Proof.Machine

variable (s : State)

/-! ### wg -/

@[simp] theorem State.wg_part (b : Blk) (o : Nat) (v : W32) : (s.wg b o v).part = s.part := rfl
@[simp] theorem State.wg_flash (b : Blk) (o : Nat) (v : W32) : (s.wg b o v).flash = s.flash := rfl
@[simp] theorem State.wg_health (b : Blk) (o : Nat) (v : W32) : (s.wg b o v).health = s.health := rfl
@[simp] theorem State.wg_pins (b : Blk) (o : Nat) (v : W32) : (s.wg b o v).pins = s.pins := rfl
@[simp] theorem State.wg_boot (b : Blk) (o : Nat) (v : W32) : (s.wg b o v).boot = s.boot := rfl
@[simp] theorem State.wg_latches (b : Blk) (o : Nat) (v : W32) : (s.wg b o v).latches = s.latches := rfl
@[simp] theorem State.wg_mem (b : Blk) (o : Nat) (v : W32) : (s.wg b o v).mem = s.mem := rfl
@[simp] theorem State.wg_poison (b : Blk) (o : Nat) (v : W32) : (s.wg b o v).poison = s.poison := rfl
@[simp] theorem State.wg_granules (b : Blk) (o : Nat) (v : W32) : (s.wg b o v).granules = s.granules := rfl
@[simp] theorem State.wg_hmem (b : Blk) (o : Nat) (v : W32) : (s.wg b o v).hmem = s.hmem := rfl
@[simp] theorem State.wg_cores (b : Blk) (o : Nat) (v : W32) : (s.wg b o v).cores = s.cores := rfl
@[simp] theorem State.wg_roster (b : Blk) (o : Nat) (v : W32) : (s.wg b o v).roster = s.roster := rfl
@[simp] theorem State.wg_halves (b : Blk) (o : Nat) (v : W32) : (s.wg b o v).halves = s.halves := rfl
@[simp] theorem State.wg_mifs (b : Blk) (o : Nat) (v : W32) : (s.wg b o v).mifs = s.mifs := rfl
@[simp] theorem State.wg_net (b : Blk) (o : Nat) (v : W32) : (s.wg b o v).net = s.net := rfl
@[simp] theorem State.wg_host (b : Blk) (o : Nat) (v : W32) : (s.wg b o v).host = s.host := rfl
@[simp] theorem State.wg_cmds (b : Blk) (o : Nat) (v : W32) : (s.wg b o v).cmds = s.cmds := rfl
@[simp] theorem State.wg_nextCid (b : Blk) (o : Nat) (v : W32) : (s.wg b o v).nextCid = s.nextCid := rfl
@[simp] theorem State.wg_parts (b : Blk) (o : Nat) (v : W32) : (s.wg b o v).parts = s.parts := rfl
@[simp] theorem State.wg_fab (b : Blk) (o : Nat) (v : W32) : (s.wg b o v).fab = s.fab := rfl
@[simp] theorem State.wg_power (b : Blk) (o : Nat) (v : W32) : (s.wg b o v).power = s.power := rfl
@[simp] theorem State.wg_therm (b : Blk) (o : Nat) (v : W32) : (s.wg b o v).therm = s.therm := rfl
@[simp] theorem State.wg_time (b : Blk) (o : Nat) (v : W32) : (s.wg b o v).time = s.time := rfl
@[simp] theorem State.wg_lostRecs (b : Blk) (o : Nat) (v : W32) : (s.wg b o v).lostRecs = s.lostRecs := rfl
@[simp] theorem State.wg_dbg (b : Blk) (o : Nat) (v : W32) : (s.wg b o v).dbg = s.dbg := rfl
@[simp] theorem State.wg_mgmt (b : Blk) (o : Nat) (v : W32) : (s.wg b o v).mgmt = s.mgmt := rfl
@[simp] theorem State.wg_recoveredCnt (b : Blk) (o : Nat) (v : W32) : (s.wg b o v).recoveredCnt = s.recoveredCnt := rfl
@[simp] theorem State.wg_unrecoveredCnt (b : Blk) (o : Nat) (v : W32) : (s.wg b o v).unrecoveredCnt = s.unrecoveredCnt := rfl
@[simp] theorem State.wg_pending (b : Blk) (o : Nat) (v : W32) : (s.wg b o v).pending = s.pending := rfl
@[simp] theorem State.wg_drawn (b : Blk) (o : Nat) (v : W32) : (s.wg b o v).drawn = s.drawn := rfl

/-! ### wgF -/

@[simp] theorem State.wgF_part (b : Blk) (o hi lo v : Nat) : (s.wgF b o hi lo v).part = s.part := rfl
@[simp] theorem State.wgF_flash (b : Blk) (o hi lo v : Nat) : (s.wgF b o hi lo v).flash = s.flash := rfl
@[simp] theorem State.wgF_health (b : Blk) (o hi lo v : Nat) : (s.wgF b o hi lo v).health = s.health := rfl
@[simp] theorem State.wgF_pins (b : Blk) (o hi lo v : Nat) : (s.wgF b o hi lo v).pins = s.pins := rfl
@[simp] theorem State.wgF_boot (b : Blk) (o hi lo v : Nat) : (s.wgF b o hi lo v).boot = s.boot := rfl
@[simp] theorem State.wgF_latches (b : Blk) (o hi lo v : Nat) : (s.wgF b o hi lo v).latches = s.latches := rfl
@[simp] theorem State.wgF_mem (b : Blk) (o hi lo v : Nat) : (s.wgF b o hi lo v).mem = s.mem := rfl
@[simp] theorem State.wgF_poison (b : Blk) (o hi lo v : Nat) : (s.wgF b o hi lo v).poison = s.poison := rfl
@[simp] theorem State.wgF_granules (b : Blk) (o hi lo v : Nat) : (s.wgF b o hi lo v).granules = s.granules := rfl
@[simp] theorem State.wgF_hmem (b : Blk) (o hi lo v : Nat) : (s.wgF b o hi lo v).hmem = s.hmem := rfl
@[simp] theorem State.wgF_cores (b : Blk) (o hi lo v : Nat) : (s.wgF b o hi lo v).cores = s.cores := rfl
@[simp] theorem State.wgF_roster (b : Blk) (o hi lo v : Nat) : (s.wgF b o hi lo v).roster = s.roster := rfl
@[simp] theorem State.wgF_halves (b : Blk) (o hi lo v : Nat) : (s.wgF b o hi lo v).halves = s.halves := rfl
@[simp] theorem State.wgF_mifs (b : Blk) (o hi lo v : Nat) : (s.wgF b o hi lo v).mifs = s.mifs := rfl
@[simp] theorem State.wgF_net (b : Blk) (o hi lo v : Nat) : (s.wgF b o hi lo v).net = s.net := rfl
@[simp] theorem State.wgF_host (b : Blk) (o hi lo v : Nat) : (s.wgF b o hi lo v).host = s.host := rfl
@[simp] theorem State.wgF_cmds (b : Blk) (o hi lo v : Nat) : (s.wgF b o hi lo v).cmds = s.cmds := rfl
@[simp] theorem State.wgF_nextCid (b : Blk) (o hi lo v : Nat) : (s.wgF b o hi lo v).nextCid = s.nextCid := rfl
@[simp] theorem State.wgF_parts (b : Blk) (o hi lo v : Nat) : (s.wgF b o hi lo v).parts = s.parts := rfl
@[simp] theorem State.wgF_fab (b : Blk) (o hi lo v : Nat) : (s.wgF b o hi lo v).fab = s.fab := rfl
@[simp] theorem State.wgF_power (b : Blk) (o hi lo v : Nat) : (s.wgF b o hi lo v).power = s.power := rfl
@[simp] theorem State.wgF_therm (b : Blk) (o hi lo v : Nat) : (s.wgF b o hi lo v).therm = s.therm := rfl
@[simp] theorem State.wgF_time (b : Blk) (o hi lo v : Nat) : (s.wgF b o hi lo v).time = s.time := rfl
@[simp] theorem State.wgF_lostRecs (b : Blk) (o hi lo v : Nat) : (s.wgF b o hi lo v).lostRecs = s.lostRecs := rfl
@[simp] theorem State.wgF_dbg (b : Blk) (o hi lo v : Nat) : (s.wgF b o hi lo v).dbg = s.dbg := rfl
@[simp] theorem State.wgF_mgmt (b : Blk) (o hi lo v : Nat) : (s.wgF b o hi lo v).mgmt = s.mgmt := rfl
@[simp] theorem State.wgF_recoveredCnt (b : Blk) (o hi lo v : Nat) : (s.wgF b o hi lo v).recoveredCnt = s.recoveredCnt := rfl
@[simp] theorem State.wgF_unrecoveredCnt (b : Blk) (o hi lo v : Nat) : (s.wgF b o hi lo v).unrecoveredCnt = s.unrecoveredCnt := rfl
@[simp] theorem State.wgF_pending (b : Blk) (o hi lo v : Nat) : (s.wgF b o hi lo v).pending = s.pending := rfl
@[simp] theorem State.wgF_drawn (b : Blk) (o hi lo v : Nat) : (s.wgF b o hi lo v).drawn = s.drawn := rfl

/-! ### wgB -/

@[simp] theorem State.wgB_part (b : Blk) (o i : Nat) (v : Bool) : (s.wgB b o i v).part = s.part := rfl
@[simp] theorem State.wgB_flash (b : Blk) (o i : Nat) (v : Bool) : (s.wgB b o i v).flash = s.flash := rfl
@[simp] theorem State.wgB_health (b : Blk) (o i : Nat) (v : Bool) : (s.wgB b o i v).health = s.health := rfl
@[simp] theorem State.wgB_pins (b : Blk) (o i : Nat) (v : Bool) : (s.wgB b o i v).pins = s.pins := rfl
@[simp] theorem State.wgB_boot (b : Blk) (o i : Nat) (v : Bool) : (s.wgB b o i v).boot = s.boot := rfl
@[simp] theorem State.wgB_latches (b : Blk) (o i : Nat) (v : Bool) : (s.wgB b o i v).latches = s.latches := rfl
@[simp] theorem State.wgB_mem (b : Blk) (o i : Nat) (v : Bool) : (s.wgB b o i v).mem = s.mem := rfl
@[simp] theorem State.wgB_poison (b : Blk) (o i : Nat) (v : Bool) : (s.wgB b o i v).poison = s.poison := rfl
@[simp] theorem State.wgB_granules (b : Blk) (o i : Nat) (v : Bool) : (s.wgB b o i v).granules = s.granules := rfl
@[simp] theorem State.wgB_hmem (b : Blk) (o i : Nat) (v : Bool) : (s.wgB b o i v).hmem = s.hmem := rfl
@[simp] theorem State.wgB_cores (b : Blk) (o i : Nat) (v : Bool) : (s.wgB b o i v).cores = s.cores := rfl
@[simp] theorem State.wgB_roster (b : Blk) (o i : Nat) (v : Bool) : (s.wgB b o i v).roster = s.roster := rfl
@[simp] theorem State.wgB_halves (b : Blk) (o i : Nat) (v : Bool) : (s.wgB b o i v).halves = s.halves := rfl
@[simp] theorem State.wgB_mifs (b : Blk) (o i : Nat) (v : Bool) : (s.wgB b o i v).mifs = s.mifs := rfl
@[simp] theorem State.wgB_net (b : Blk) (o i : Nat) (v : Bool) : (s.wgB b o i v).net = s.net := rfl
@[simp] theorem State.wgB_host (b : Blk) (o i : Nat) (v : Bool) : (s.wgB b o i v).host = s.host := rfl
@[simp] theorem State.wgB_cmds (b : Blk) (o i : Nat) (v : Bool) : (s.wgB b o i v).cmds = s.cmds := rfl
@[simp] theorem State.wgB_nextCid (b : Blk) (o i : Nat) (v : Bool) : (s.wgB b o i v).nextCid = s.nextCid := rfl
@[simp] theorem State.wgB_parts (b : Blk) (o i : Nat) (v : Bool) : (s.wgB b o i v).parts = s.parts := rfl
@[simp] theorem State.wgB_fab (b : Blk) (o i : Nat) (v : Bool) : (s.wgB b o i v).fab = s.fab := rfl
@[simp] theorem State.wgB_power (b : Blk) (o i : Nat) (v : Bool) : (s.wgB b o i v).power = s.power := rfl
@[simp] theorem State.wgB_therm (b : Blk) (o i : Nat) (v : Bool) : (s.wgB b o i v).therm = s.therm := rfl
@[simp] theorem State.wgB_time (b : Blk) (o i : Nat) (v : Bool) : (s.wgB b o i v).time = s.time := rfl
@[simp] theorem State.wgB_lostRecs (b : Blk) (o i : Nat) (v : Bool) : (s.wgB b o i v).lostRecs = s.lostRecs := rfl
@[simp] theorem State.wgB_dbg (b : Blk) (o i : Nat) (v : Bool) : (s.wgB b o i v).dbg = s.dbg := rfl
@[simp] theorem State.wgB_mgmt (b : Blk) (o i : Nat) (v : Bool) : (s.wgB b o i v).mgmt = s.mgmt := rfl
@[simp] theorem State.wgB_recoveredCnt (b : Blk) (o i : Nat) (v : Bool) : (s.wgB b o i v).recoveredCnt = s.recoveredCnt := rfl
@[simp] theorem State.wgB_unrecoveredCnt (b : Blk) (o i : Nat) (v : Bool) : (s.wgB b o i v).unrecoveredCnt = s.unrecoveredCnt := rfl
@[simp] theorem State.wgB_pending (b : Blk) (o i : Nat) (v : Bool) : (s.wgB b o i v).pending = s.pending := rfl
@[simp] theorem State.wgB_drawn (b : Blk) (o i : Nat) (v : Bool) : (s.wgB b o i v).drawn = s.drawn := rfl

/-! ### wg64 -/

@[simp] theorem State.wg64_part (b : Blk) (o v : Nat) : (s.wg64 b o v).part = s.part := rfl
@[simp] theorem State.wg64_flash (b : Blk) (o v : Nat) : (s.wg64 b o v).flash = s.flash := rfl
@[simp] theorem State.wg64_health (b : Blk) (o v : Nat) : (s.wg64 b o v).health = s.health := rfl
@[simp] theorem State.wg64_pins (b : Blk) (o v : Nat) : (s.wg64 b o v).pins = s.pins := rfl
@[simp] theorem State.wg64_boot (b : Blk) (o v : Nat) : (s.wg64 b o v).boot = s.boot := rfl
@[simp] theorem State.wg64_latches (b : Blk) (o v : Nat) : (s.wg64 b o v).latches = s.latches := rfl
@[simp] theorem State.wg64_mem (b : Blk) (o v : Nat) : (s.wg64 b o v).mem = s.mem := rfl
@[simp] theorem State.wg64_poison (b : Blk) (o v : Nat) : (s.wg64 b o v).poison = s.poison := rfl
@[simp] theorem State.wg64_granules (b : Blk) (o v : Nat) : (s.wg64 b o v).granules = s.granules := rfl
@[simp] theorem State.wg64_hmem (b : Blk) (o v : Nat) : (s.wg64 b o v).hmem = s.hmem := rfl
@[simp] theorem State.wg64_cores (b : Blk) (o v : Nat) : (s.wg64 b o v).cores = s.cores := rfl
@[simp] theorem State.wg64_roster (b : Blk) (o v : Nat) : (s.wg64 b o v).roster = s.roster := rfl
@[simp] theorem State.wg64_halves (b : Blk) (o v : Nat) : (s.wg64 b o v).halves = s.halves := rfl
@[simp] theorem State.wg64_mifs (b : Blk) (o v : Nat) : (s.wg64 b o v).mifs = s.mifs := rfl
@[simp] theorem State.wg64_net (b : Blk) (o v : Nat) : (s.wg64 b o v).net = s.net := rfl
@[simp] theorem State.wg64_host (b : Blk) (o v : Nat) : (s.wg64 b o v).host = s.host := rfl
@[simp] theorem State.wg64_cmds (b : Blk) (o v : Nat) : (s.wg64 b o v).cmds = s.cmds := rfl
@[simp] theorem State.wg64_nextCid (b : Blk) (o v : Nat) : (s.wg64 b o v).nextCid = s.nextCid := rfl
@[simp] theorem State.wg64_parts (b : Blk) (o v : Nat) : (s.wg64 b o v).parts = s.parts := rfl
@[simp] theorem State.wg64_fab (b : Blk) (o v : Nat) : (s.wg64 b o v).fab = s.fab := rfl
@[simp] theorem State.wg64_power (b : Blk) (o v : Nat) : (s.wg64 b o v).power = s.power := rfl
@[simp] theorem State.wg64_therm (b : Blk) (o v : Nat) : (s.wg64 b o v).therm = s.therm := rfl
@[simp] theorem State.wg64_time (b : Blk) (o v : Nat) : (s.wg64 b o v).time = s.time := rfl
@[simp] theorem State.wg64_lostRecs (b : Blk) (o v : Nat) : (s.wg64 b o v).lostRecs = s.lostRecs := rfl
@[simp] theorem State.wg64_dbg (b : Blk) (o v : Nat) : (s.wg64 b o v).dbg = s.dbg := rfl
@[simp] theorem State.wg64_mgmt (b : Blk) (o v : Nat) : (s.wg64 b o v).mgmt = s.mgmt := rfl
@[simp] theorem State.wg64_recoveredCnt (b : Blk) (o v : Nat) : (s.wg64 b o v).recoveredCnt = s.recoveredCnt := rfl
@[simp] theorem State.wg64_unrecoveredCnt (b : Blk) (o v : Nat) : (s.wg64 b o v).unrecoveredCnt = s.unrecoveredCnt := rfl
@[simp] theorem State.wg64_pending (b : Blk) (o v : Nat) : (s.wg64 b o v).pending = s.pending := rfl
@[simp] theorem State.wg64_drawn (b : Blk) (o v : Nat) : (s.wg64 b o v).drawn = s.drawn := rfl

/-! ### setReg -/

@[simp] theorem State.setReg_part (r hi lo v : Nat) : (s.setReg r hi lo v).part = s.part := State.wgF_part s _ _ _ _ _
@[simp] theorem State.setReg_flash (r hi lo v : Nat) : (s.setReg r hi lo v).flash = s.flash := State.wgF_flash s _ _ _ _ _
@[simp] theorem State.setReg_health (r hi lo v : Nat) : (s.setReg r hi lo v).health = s.health := State.wgF_health s _ _ _ _ _
@[simp] theorem State.setReg_pins (r hi lo v : Nat) : (s.setReg r hi lo v).pins = s.pins := State.wgF_pins s _ _ _ _ _
@[simp] theorem State.setReg_boot (r hi lo v : Nat) : (s.setReg r hi lo v).boot = s.boot := State.wgF_boot s _ _ _ _ _
@[simp] theorem State.setReg_latches (r hi lo v : Nat) : (s.setReg r hi lo v).latches = s.latches := State.wgF_latches s _ _ _ _ _
@[simp] theorem State.setReg_mem (r hi lo v : Nat) : (s.setReg r hi lo v).mem = s.mem := State.wgF_mem s _ _ _ _ _
@[simp] theorem State.setReg_poison (r hi lo v : Nat) : (s.setReg r hi lo v).poison = s.poison := State.wgF_poison s _ _ _ _ _
@[simp] theorem State.setReg_granules (r hi lo v : Nat) : (s.setReg r hi lo v).granules = s.granules := State.wgF_granules s _ _ _ _ _
@[simp] theorem State.setReg_hmem (r hi lo v : Nat) : (s.setReg r hi lo v).hmem = s.hmem := State.wgF_hmem s _ _ _ _ _
@[simp] theorem State.setReg_cores (r hi lo v : Nat) : (s.setReg r hi lo v).cores = s.cores := State.wgF_cores s _ _ _ _ _
@[simp] theorem State.setReg_roster (r hi lo v : Nat) : (s.setReg r hi lo v).roster = s.roster := State.wgF_roster s _ _ _ _ _
@[simp] theorem State.setReg_halves (r hi lo v : Nat) : (s.setReg r hi lo v).halves = s.halves := State.wgF_halves s _ _ _ _ _
@[simp] theorem State.setReg_mifs (r hi lo v : Nat) : (s.setReg r hi lo v).mifs = s.mifs := State.wgF_mifs s _ _ _ _ _
@[simp] theorem State.setReg_net (r hi lo v : Nat) : (s.setReg r hi lo v).net = s.net := State.wgF_net s _ _ _ _ _
@[simp] theorem State.setReg_host (r hi lo v : Nat) : (s.setReg r hi lo v).host = s.host := State.wgF_host s _ _ _ _ _
@[simp] theorem State.setReg_cmds (r hi lo v : Nat) : (s.setReg r hi lo v).cmds = s.cmds := State.wgF_cmds s _ _ _ _ _
@[simp] theorem State.setReg_nextCid (r hi lo v : Nat) : (s.setReg r hi lo v).nextCid = s.nextCid := State.wgF_nextCid s _ _ _ _ _
@[simp] theorem State.setReg_parts (r hi lo v : Nat) : (s.setReg r hi lo v).parts = s.parts := State.wgF_parts s _ _ _ _ _
@[simp] theorem State.setReg_fab (r hi lo v : Nat) : (s.setReg r hi lo v).fab = s.fab := State.wgF_fab s _ _ _ _ _
@[simp] theorem State.setReg_power (r hi lo v : Nat) : (s.setReg r hi lo v).power = s.power := State.wgF_power s _ _ _ _ _
@[simp] theorem State.setReg_therm (r hi lo v : Nat) : (s.setReg r hi lo v).therm = s.therm := State.wgF_therm s _ _ _ _ _
@[simp] theorem State.setReg_time (r hi lo v : Nat) : (s.setReg r hi lo v).time = s.time := State.wgF_time s _ _ _ _ _
@[simp] theorem State.setReg_lostRecs (r hi lo v : Nat) : (s.setReg r hi lo v).lostRecs = s.lostRecs := State.wgF_lostRecs s _ _ _ _ _
@[simp] theorem State.setReg_dbg (r hi lo v : Nat) : (s.setReg r hi lo v).dbg = s.dbg := State.wgF_dbg s _ _ _ _ _
@[simp] theorem State.setReg_mgmt (r hi lo v : Nat) : (s.setReg r hi lo v).mgmt = s.mgmt := State.wgF_mgmt s _ _ _ _ _
@[simp] theorem State.setReg_recoveredCnt (r hi lo v : Nat) : (s.setReg r hi lo v).recoveredCnt = s.recoveredCnt := State.wgF_recoveredCnt s _ _ _ _ _
@[simp] theorem State.setReg_unrecoveredCnt (r hi lo v : Nat) : (s.setReg r hi lo v).unrecoveredCnt = s.unrecoveredCnt := State.wgF_unrecoveredCnt s _ _ _ _ _
@[simp] theorem State.setReg_pending (r hi lo v : Nat) : (s.setReg r hi lo v).pending = s.pending := State.wgF_pending s _ _ _ _ _
@[simp] theorem State.setReg_drawn (r hi lo v : Nat) : (s.setReg r hi lo v).drawn = s.drawn := State.wgF_drawn s _ _ _ _ _

/-! ### setHome -/

@[simp] theorem State.setHome_part (h i v : Nat) : (s.setHome h i v).part = s.part := State.wgF_part s _ _ _ _ _
@[simp] theorem State.setHome_flash (h i v : Nat) : (s.setHome h i v).flash = s.flash := State.wgF_flash s _ _ _ _ _
@[simp] theorem State.setHome_health (h i v : Nat) : (s.setHome h i v).health = s.health := State.wgF_health s _ _ _ _ _
@[simp] theorem State.setHome_pins (h i v : Nat) : (s.setHome h i v).pins = s.pins := State.wgF_pins s _ _ _ _ _
@[simp] theorem State.setHome_boot (h i v : Nat) : (s.setHome h i v).boot = s.boot := State.wgF_boot s _ _ _ _ _
@[simp] theorem State.setHome_latches (h i v : Nat) : (s.setHome h i v).latches = s.latches := State.wgF_latches s _ _ _ _ _
@[simp] theorem State.setHome_mem (h i v : Nat) : (s.setHome h i v).mem = s.mem := State.wgF_mem s _ _ _ _ _
@[simp] theorem State.setHome_poison (h i v : Nat) : (s.setHome h i v).poison = s.poison := State.wgF_poison s _ _ _ _ _
@[simp] theorem State.setHome_granules (h i v : Nat) : (s.setHome h i v).granules = s.granules := State.wgF_granules s _ _ _ _ _
@[simp] theorem State.setHome_hmem (h i v : Nat) : (s.setHome h i v).hmem = s.hmem := State.wgF_hmem s _ _ _ _ _
@[simp] theorem State.setHome_cores (h i v : Nat) : (s.setHome h i v).cores = s.cores := State.wgF_cores s _ _ _ _ _
@[simp] theorem State.setHome_roster (h i v : Nat) : (s.setHome h i v).roster = s.roster := State.wgF_roster s _ _ _ _ _
@[simp] theorem State.setHome_halves (h i v : Nat) : (s.setHome h i v).halves = s.halves := State.wgF_halves s _ _ _ _ _
@[simp] theorem State.setHome_mifs (h i v : Nat) : (s.setHome h i v).mifs = s.mifs := State.wgF_mifs s _ _ _ _ _
@[simp] theorem State.setHome_net (h i v : Nat) : (s.setHome h i v).net = s.net := State.wgF_net s _ _ _ _ _
@[simp] theorem State.setHome_host (h i v : Nat) : (s.setHome h i v).host = s.host := State.wgF_host s _ _ _ _ _
@[simp] theorem State.setHome_cmds (h i v : Nat) : (s.setHome h i v).cmds = s.cmds := State.wgF_cmds s _ _ _ _ _
@[simp] theorem State.setHome_nextCid (h i v : Nat) : (s.setHome h i v).nextCid = s.nextCid := State.wgF_nextCid s _ _ _ _ _
@[simp] theorem State.setHome_parts (h i v : Nat) : (s.setHome h i v).parts = s.parts := State.wgF_parts s _ _ _ _ _
@[simp] theorem State.setHome_fab (h i v : Nat) : (s.setHome h i v).fab = s.fab := State.wgF_fab s _ _ _ _ _
@[simp] theorem State.setHome_power (h i v : Nat) : (s.setHome h i v).power = s.power := State.wgF_power s _ _ _ _ _
@[simp] theorem State.setHome_therm (h i v : Nat) : (s.setHome h i v).therm = s.therm := State.wgF_therm s _ _ _ _ _
@[simp] theorem State.setHome_time (h i v : Nat) : (s.setHome h i v).time = s.time := State.wgF_time s _ _ _ _ _
@[simp] theorem State.setHome_lostRecs (h i v : Nat) : (s.setHome h i v).lostRecs = s.lostRecs := State.wgF_lostRecs s _ _ _ _ _
@[simp] theorem State.setHome_dbg (h i v : Nat) : (s.setHome h i v).dbg = s.dbg := State.wgF_dbg s _ _ _ _ _
@[simp] theorem State.setHome_mgmt (h i v : Nat) : (s.setHome h i v).mgmt = s.mgmt := State.wgF_mgmt s _ _ _ _ _
@[simp] theorem State.setHome_recoveredCnt (h i v : Nat) : (s.setHome h i v).recoveredCnt = s.recoveredCnt := State.wgF_recoveredCnt s _ _ _ _ _
@[simp] theorem State.setHome_unrecoveredCnt (h i v : Nat) : (s.setHome h i v).unrecoveredCnt = s.unrecoveredCnt := State.wgF_unrecoveredCnt s _ _ _ _ _
@[simp] theorem State.setHome_pending (h i v : Nat) : (s.setHome h i v).pending = s.pending := State.wgF_pending s _ _ _ _ _
@[simp] theorem State.setHome_drawn (h i v : Nat) : (s.setHome h i v).drawn = s.drawn := State.wgF_drawn s _ _ _ _ _

/-! ### setFlag -/

@[simp] theorem State.setFlag_part (b : Blk) (o : Nat) : (s.setFlag b o).part = s.part := rfl
@[simp] theorem State.setFlag_flash (b : Blk) (o : Nat) : (s.setFlag b o).flash = s.flash := rfl
@[simp] theorem State.setFlag_health (b : Blk) (o : Nat) : (s.setFlag b o).health = s.health := rfl
@[simp] theorem State.setFlag_pins (b : Blk) (o : Nat) : (s.setFlag b o).pins = s.pins := rfl
@[simp] theorem State.setFlag_boot (b : Blk) (o : Nat) : (s.setFlag b o).boot = s.boot := rfl
@[simp] theorem State.setFlag_latches (b : Blk) (o : Nat) : (s.setFlag b o).latches = s.latches := rfl
@[simp] theorem State.setFlag_mem (b : Blk) (o : Nat) : (s.setFlag b o).mem = s.mem := rfl
@[simp] theorem State.setFlag_poison (b : Blk) (o : Nat) : (s.setFlag b o).poison = s.poison := rfl
@[simp] theorem State.setFlag_granules (b : Blk) (o : Nat) : (s.setFlag b o).granules = s.granules := rfl
@[simp] theorem State.setFlag_hmem (b : Blk) (o : Nat) : (s.setFlag b o).hmem = s.hmem := rfl
@[simp] theorem State.setFlag_cores (b : Blk) (o : Nat) : (s.setFlag b o).cores = s.cores := rfl
@[simp] theorem State.setFlag_roster (b : Blk) (o : Nat) : (s.setFlag b o).roster = s.roster := rfl
@[simp] theorem State.setFlag_halves (b : Blk) (o : Nat) : (s.setFlag b o).halves = s.halves := rfl
@[simp] theorem State.setFlag_mifs (b : Blk) (o : Nat) : (s.setFlag b o).mifs = s.mifs := rfl
@[simp] theorem State.setFlag_net (b : Blk) (o : Nat) : (s.setFlag b o).net = s.net := rfl
@[simp] theorem State.setFlag_host (b : Blk) (o : Nat) : (s.setFlag b o).host = s.host := rfl
@[simp] theorem State.setFlag_cmds (b : Blk) (o : Nat) : (s.setFlag b o).cmds = s.cmds := rfl
@[simp] theorem State.setFlag_nextCid (b : Blk) (o : Nat) : (s.setFlag b o).nextCid = s.nextCid := rfl
@[simp] theorem State.setFlag_parts (b : Blk) (o : Nat) : (s.setFlag b o).parts = s.parts := rfl
@[simp] theorem State.setFlag_fab (b : Blk) (o : Nat) : (s.setFlag b o).fab = s.fab := rfl
@[simp] theorem State.setFlag_power (b : Blk) (o : Nat) : (s.setFlag b o).power = s.power := rfl
@[simp] theorem State.setFlag_therm (b : Blk) (o : Nat) : (s.setFlag b o).therm = s.therm := rfl
@[simp] theorem State.setFlag_time (b : Blk) (o : Nat) : (s.setFlag b o).time = s.time := rfl
@[simp] theorem State.setFlag_lostRecs (b : Blk) (o : Nat) : (s.setFlag b o).lostRecs = s.lostRecs := rfl
@[simp] theorem State.setFlag_dbg (b : Blk) (o : Nat) : (s.setFlag b o).dbg = s.dbg := rfl
@[simp] theorem State.setFlag_mgmt (b : Blk) (o : Nat) : (s.setFlag b o).mgmt = s.mgmt := rfl
@[simp] theorem State.setFlag_recoveredCnt (b : Blk) (o : Nat) : (s.setFlag b o).recoveredCnt = s.recoveredCnt := rfl
@[simp] theorem State.setFlag_unrecoveredCnt (b : Blk) (o : Nat) : (s.setFlag b o).unrecoveredCnt = s.unrecoveredCnt := rfl
@[simp] theorem State.setFlag_pending (b : Blk) (o : Nat) : (s.setFlag b o).pending = s.pending := rfl
@[simp] theorem State.setFlag_drawn (b : Blk) (o : Nat) : (s.setFlag b o).drawn = s.drawn := rfl

/-! ### store -/

@[simp] theorem State.store_part (a : Nat) (bs : List Byte) (p : Bool) : (s.store a bs p).part = s.part := rfl
@[simp] theorem State.store_flash (a : Nat) (bs : List Byte) (p : Bool) : (s.store a bs p).flash = s.flash := rfl
@[simp] theorem State.store_health (a : Nat) (bs : List Byte) (p : Bool) : (s.store a bs p).health = s.health := rfl
@[simp] theorem State.store_pins (a : Nat) (bs : List Byte) (p : Bool) : (s.store a bs p).pins = s.pins := rfl
@[simp] theorem State.store_boot (a : Nat) (bs : List Byte) (p : Bool) : (s.store a bs p).boot = s.boot := rfl
@[simp] theorem State.store_regs (a : Nat) (bs : List Byte) (p : Bool) : (s.store a bs p).regs = s.regs := rfl
@[simp] theorem State.store_latches (a : Nat) (bs : List Byte) (p : Bool) : (s.store a bs p).latches = s.latches := rfl
@[simp] theorem State.store_granules (a : Nat) (bs : List Byte) (p : Bool) : (s.store a bs p).granules = s.granules := rfl
@[simp] theorem State.store_hmem (a : Nat) (bs : List Byte) (p : Bool) : (s.store a bs p).hmem = s.hmem := rfl
@[simp] theorem State.store_cores (a : Nat) (bs : List Byte) (p : Bool) : (s.store a bs p).cores = s.cores := rfl
@[simp] theorem State.store_roster (a : Nat) (bs : List Byte) (p : Bool) : (s.store a bs p).roster = s.roster := rfl
@[simp] theorem State.store_halves (a : Nat) (bs : List Byte) (p : Bool) : (s.store a bs p).halves = s.halves := rfl
@[simp] theorem State.store_mifs (a : Nat) (bs : List Byte) (p : Bool) : (s.store a bs p).mifs = s.mifs := rfl
@[simp] theorem State.store_net (a : Nat) (bs : List Byte) (p : Bool) : (s.store a bs p).net = s.net := rfl
@[simp] theorem State.store_host (a : Nat) (bs : List Byte) (p : Bool) : (s.store a bs p).host = s.host := rfl
@[simp] theorem State.store_cmds (a : Nat) (bs : List Byte) (p : Bool) : (s.store a bs p).cmds = s.cmds := rfl
@[simp] theorem State.store_nextCid (a : Nat) (bs : List Byte) (p : Bool) : (s.store a bs p).nextCid = s.nextCid := rfl
@[simp] theorem State.store_parts (a : Nat) (bs : List Byte) (p : Bool) : (s.store a bs p).parts = s.parts := rfl
@[simp] theorem State.store_fab (a : Nat) (bs : List Byte) (p : Bool) : (s.store a bs p).fab = s.fab := rfl
@[simp] theorem State.store_power (a : Nat) (bs : List Byte) (p : Bool) : (s.store a bs p).power = s.power := rfl
@[simp] theorem State.store_therm (a : Nat) (bs : List Byte) (p : Bool) : (s.store a bs p).therm = s.therm := rfl
@[simp] theorem State.store_time (a : Nat) (bs : List Byte) (p : Bool) : (s.store a bs p).time = s.time := rfl
@[simp] theorem State.store_lostRecs (a : Nat) (bs : List Byte) (p : Bool) : (s.store a bs p).lostRecs = s.lostRecs := rfl
@[simp] theorem State.store_dbg (a : Nat) (bs : List Byte) (p : Bool) : (s.store a bs p).dbg = s.dbg := rfl
@[simp] theorem State.store_mgmt (a : Nat) (bs : List Byte) (p : Bool) : (s.store a bs p).mgmt = s.mgmt := rfl
@[simp] theorem State.store_recoveredCnt (a : Nat) (bs : List Byte) (p : Bool) : (s.store a bs p).recoveredCnt = s.recoveredCnt := rfl
@[simp] theorem State.store_unrecoveredCnt (a : Nat) (bs : List Byte) (p : Bool) : (s.store a bs p).unrecoveredCnt = s.unrecoveredCnt := rfl
@[simp] theorem State.store_pending (a : Nat) (bs : List Byte) (p : Bool) : (s.store a bs p).pending = s.pending := rfl
@[simp] theorem State.store_drawn (a : Nat) (bs : List Byte) (p : Bool) : (s.store a bs p).drawn = s.drawn := rfl

/-! ### storeN -/

@[simp] theorem State.storeN_part (a n v : Nat) : (s.storeN a n v).part = s.part := rfl
@[simp] theorem State.storeN_flash (a n v : Nat) : (s.storeN a n v).flash = s.flash := rfl
@[simp] theorem State.storeN_health (a n v : Nat) : (s.storeN a n v).health = s.health := rfl
@[simp] theorem State.storeN_pins (a n v : Nat) : (s.storeN a n v).pins = s.pins := rfl
@[simp] theorem State.storeN_boot (a n v : Nat) : (s.storeN a n v).boot = s.boot := rfl
@[simp] theorem State.storeN_regs (a n v : Nat) : (s.storeN a n v).regs = s.regs := rfl
@[simp] theorem State.storeN_latches (a n v : Nat) : (s.storeN a n v).latches = s.latches := rfl
@[simp] theorem State.storeN_granules (a n v : Nat) : (s.storeN a n v).granules = s.granules := rfl
@[simp] theorem State.storeN_hmem (a n v : Nat) : (s.storeN a n v).hmem = s.hmem := rfl
@[simp] theorem State.storeN_cores (a n v : Nat) : (s.storeN a n v).cores = s.cores := rfl
@[simp] theorem State.storeN_roster (a n v : Nat) : (s.storeN a n v).roster = s.roster := rfl
@[simp] theorem State.storeN_halves (a n v : Nat) : (s.storeN a n v).halves = s.halves := rfl
@[simp] theorem State.storeN_mifs (a n v : Nat) : (s.storeN a n v).mifs = s.mifs := rfl
@[simp] theorem State.storeN_net (a n v : Nat) : (s.storeN a n v).net = s.net := rfl
@[simp] theorem State.storeN_host (a n v : Nat) : (s.storeN a n v).host = s.host := rfl
@[simp] theorem State.storeN_cmds (a n v : Nat) : (s.storeN a n v).cmds = s.cmds := rfl
@[simp] theorem State.storeN_nextCid (a n v : Nat) : (s.storeN a n v).nextCid = s.nextCid := rfl
@[simp] theorem State.storeN_parts (a n v : Nat) : (s.storeN a n v).parts = s.parts := rfl
@[simp] theorem State.storeN_fab (a n v : Nat) : (s.storeN a n v).fab = s.fab := rfl
@[simp] theorem State.storeN_power (a n v : Nat) : (s.storeN a n v).power = s.power := rfl
@[simp] theorem State.storeN_therm (a n v : Nat) : (s.storeN a n v).therm = s.therm := rfl
@[simp] theorem State.storeN_time (a n v : Nat) : (s.storeN a n v).time = s.time := rfl
@[simp] theorem State.storeN_lostRecs (a n v : Nat) : (s.storeN a n v).lostRecs = s.lostRecs := rfl
@[simp] theorem State.storeN_dbg (a n v : Nat) : (s.storeN a n v).dbg = s.dbg := rfl
@[simp] theorem State.storeN_mgmt (a n v : Nat) : (s.storeN a n v).mgmt = s.mgmt := rfl
@[simp] theorem State.storeN_recoveredCnt (a n v : Nat) : (s.storeN a n v).recoveredCnt = s.recoveredCnt := rfl
@[simp] theorem State.storeN_unrecoveredCnt (a n v : Nat) : (s.storeN a n v).unrecoveredCnt = s.unrecoveredCnt := rfl
@[simp] theorem State.storeN_pending (a n v : Nat) : (s.storeN a n v).pending = s.pending := rfl
@[simp] theorem State.storeN_drawn (a n v : Nat) : (s.storeN a n v).drawn = s.drawn := rfl

/-! ### clear -/

@[simp] theorem State.clear_part (a n : Nat) : (s.clear a n).part = s.part := rfl
@[simp] theorem State.clear_flash (a n : Nat) : (s.clear a n).flash = s.flash := rfl
@[simp] theorem State.clear_health (a n : Nat) : (s.clear a n).health = s.health := rfl
@[simp] theorem State.clear_pins (a n : Nat) : (s.clear a n).pins = s.pins := rfl
@[simp] theorem State.clear_boot (a n : Nat) : (s.clear a n).boot = s.boot := rfl
@[simp] theorem State.clear_regs (a n : Nat) : (s.clear a n).regs = s.regs := rfl
@[simp] theorem State.clear_latches (a n : Nat) : (s.clear a n).latches = s.latches := rfl
@[simp] theorem State.clear_granules (a n : Nat) : (s.clear a n).granules = s.granules := rfl
@[simp] theorem State.clear_hmem (a n : Nat) : (s.clear a n).hmem = s.hmem := rfl
@[simp] theorem State.clear_cores (a n : Nat) : (s.clear a n).cores = s.cores := rfl
@[simp] theorem State.clear_roster (a n : Nat) : (s.clear a n).roster = s.roster := rfl
@[simp] theorem State.clear_halves (a n : Nat) : (s.clear a n).halves = s.halves := rfl
@[simp] theorem State.clear_mifs (a n : Nat) : (s.clear a n).mifs = s.mifs := rfl
@[simp] theorem State.clear_net (a n : Nat) : (s.clear a n).net = s.net := rfl
@[simp] theorem State.clear_host (a n : Nat) : (s.clear a n).host = s.host := rfl
@[simp] theorem State.clear_cmds (a n : Nat) : (s.clear a n).cmds = s.cmds := rfl
@[simp] theorem State.clear_nextCid (a n : Nat) : (s.clear a n).nextCid = s.nextCid := rfl
@[simp] theorem State.clear_parts (a n : Nat) : (s.clear a n).parts = s.parts := rfl
@[simp] theorem State.clear_fab (a n : Nat) : (s.clear a n).fab = s.fab := rfl
@[simp] theorem State.clear_power (a n : Nat) : (s.clear a n).power = s.power := rfl
@[simp] theorem State.clear_therm (a n : Nat) : (s.clear a n).therm = s.therm := rfl
@[simp] theorem State.clear_time (a n : Nat) : (s.clear a n).time = s.time := rfl
@[simp] theorem State.clear_lostRecs (a n : Nat) : (s.clear a n).lostRecs = s.lostRecs := rfl
@[simp] theorem State.clear_dbg (a n : Nat) : (s.clear a n).dbg = s.dbg := rfl
@[simp] theorem State.clear_mgmt (a n : Nat) : (s.clear a n).mgmt = s.mgmt := rfl
@[simp] theorem State.clear_recoveredCnt (a n : Nat) : (s.clear a n).recoveredCnt = s.recoveredCnt := rfl
@[simp] theorem State.clear_unrecoveredCnt (a n : Nat) : (s.clear a n).unrecoveredCnt = s.unrecoveredCnt := rfl
@[simp] theorem State.clear_pending (a n : Nat) : (s.clear a n).pending = s.pending := rfl
@[simp] theorem State.clear_drawn (a n : Nat) : (s.clear a n).drawn = s.drawn := rfl

/-! ### poisonAll -/

@[simp] theorem State.poisonAll_part (a n : Nat) : (s.poisonAll a n).part = s.part := rfl
@[simp] theorem State.poisonAll_flash (a n : Nat) : (s.poisonAll a n).flash = s.flash := rfl
@[simp] theorem State.poisonAll_health (a n : Nat) : (s.poisonAll a n).health = s.health := rfl
@[simp] theorem State.poisonAll_pins (a n : Nat) : (s.poisonAll a n).pins = s.pins := rfl
@[simp] theorem State.poisonAll_boot (a n : Nat) : (s.poisonAll a n).boot = s.boot := rfl
@[simp] theorem State.poisonAll_regs (a n : Nat) : (s.poisonAll a n).regs = s.regs := rfl
@[simp] theorem State.poisonAll_latches (a n : Nat) : (s.poisonAll a n).latches = s.latches := rfl
@[simp] theorem State.poisonAll_mem (a n : Nat) : (s.poisonAll a n).mem = s.mem := rfl
@[simp] theorem State.poisonAll_granules (a n : Nat) : (s.poisonAll a n).granules = s.granules := rfl
@[simp] theorem State.poisonAll_hmem (a n : Nat) : (s.poisonAll a n).hmem = s.hmem := rfl
@[simp] theorem State.poisonAll_cores (a n : Nat) : (s.poisonAll a n).cores = s.cores := rfl
@[simp] theorem State.poisonAll_roster (a n : Nat) : (s.poisonAll a n).roster = s.roster := rfl
@[simp] theorem State.poisonAll_halves (a n : Nat) : (s.poisonAll a n).halves = s.halves := rfl
@[simp] theorem State.poisonAll_mifs (a n : Nat) : (s.poisonAll a n).mifs = s.mifs := rfl
@[simp] theorem State.poisonAll_net (a n : Nat) : (s.poisonAll a n).net = s.net := rfl
@[simp] theorem State.poisonAll_host (a n : Nat) : (s.poisonAll a n).host = s.host := rfl
@[simp] theorem State.poisonAll_cmds (a n : Nat) : (s.poisonAll a n).cmds = s.cmds := rfl
@[simp] theorem State.poisonAll_nextCid (a n : Nat) : (s.poisonAll a n).nextCid = s.nextCid := rfl
@[simp] theorem State.poisonAll_parts (a n : Nat) : (s.poisonAll a n).parts = s.parts := rfl
@[simp] theorem State.poisonAll_fab (a n : Nat) : (s.poisonAll a n).fab = s.fab := rfl
@[simp] theorem State.poisonAll_power (a n : Nat) : (s.poisonAll a n).power = s.power := rfl
@[simp] theorem State.poisonAll_therm (a n : Nat) : (s.poisonAll a n).therm = s.therm := rfl
@[simp] theorem State.poisonAll_time (a n : Nat) : (s.poisonAll a n).time = s.time := rfl
@[simp] theorem State.poisonAll_lostRecs (a n : Nat) : (s.poisonAll a n).lostRecs = s.lostRecs := rfl
@[simp] theorem State.poisonAll_dbg (a n : Nat) : (s.poisonAll a n).dbg = s.dbg := rfl
@[simp] theorem State.poisonAll_mgmt (a n : Nat) : (s.poisonAll a n).mgmt = s.mgmt := rfl
@[simp] theorem State.poisonAll_recoveredCnt (a n : Nat) : (s.poisonAll a n).recoveredCnt = s.recoveredCnt := rfl
@[simp] theorem State.poisonAll_unrecoveredCnt (a n : Nat) : (s.poisonAll a n).unrecoveredCnt = s.unrecoveredCnt := rfl
@[simp] theorem State.poisonAll_pending (a n : Nat) : (s.poisonAll a n).pending = s.pending := rfl
@[simp] theorem State.poisonAll_drawn (a n : Nat) : (s.poisonAll a n).drawn = s.drawn := rfl

/-! ### hostStore -/

@[simp] theorem State.hostStore_part (port a : Nat) (bs : List Byte) : (s.hostStore port a bs).part = s.part := rfl
@[simp] theorem State.hostStore_flash (port a : Nat) (bs : List Byte) : (s.hostStore port a bs).flash = s.flash := rfl
@[simp] theorem State.hostStore_health (port a : Nat) (bs : List Byte) : (s.hostStore port a bs).health = s.health := rfl
@[simp] theorem State.hostStore_pins (port a : Nat) (bs : List Byte) : (s.hostStore port a bs).pins = s.pins := rfl
@[simp] theorem State.hostStore_boot (port a : Nat) (bs : List Byte) : (s.hostStore port a bs).boot = s.boot := rfl
@[simp] theorem State.hostStore_regs (port a : Nat) (bs : List Byte) : (s.hostStore port a bs).regs = s.regs := rfl
@[simp] theorem State.hostStore_latches (port a : Nat) (bs : List Byte) : (s.hostStore port a bs).latches = s.latches := rfl
@[simp] theorem State.hostStore_mem (port a : Nat) (bs : List Byte) : (s.hostStore port a bs).mem = s.mem := rfl
@[simp] theorem State.hostStore_poison (port a : Nat) (bs : List Byte) : (s.hostStore port a bs).poison = s.poison := rfl
@[simp] theorem State.hostStore_granules (port a : Nat) (bs : List Byte) : (s.hostStore port a bs).granules = s.granules := rfl
@[simp] theorem State.hostStore_cores (port a : Nat) (bs : List Byte) : (s.hostStore port a bs).cores = s.cores := rfl
@[simp] theorem State.hostStore_roster (port a : Nat) (bs : List Byte) : (s.hostStore port a bs).roster = s.roster := rfl
@[simp] theorem State.hostStore_halves (port a : Nat) (bs : List Byte) : (s.hostStore port a bs).halves = s.halves := rfl
@[simp] theorem State.hostStore_mifs (port a : Nat) (bs : List Byte) : (s.hostStore port a bs).mifs = s.mifs := rfl
@[simp] theorem State.hostStore_net (port a : Nat) (bs : List Byte) : (s.hostStore port a bs).net = s.net := rfl
@[simp] theorem State.hostStore_host (port a : Nat) (bs : List Byte) : (s.hostStore port a bs).host = s.host := rfl
@[simp] theorem State.hostStore_cmds (port a : Nat) (bs : List Byte) : (s.hostStore port a bs).cmds = s.cmds := rfl
@[simp] theorem State.hostStore_nextCid (port a : Nat) (bs : List Byte) : (s.hostStore port a bs).nextCid = s.nextCid := rfl
@[simp] theorem State.hostStore_parts (port a : Nat) (bs : List Byte) : (s.hostStore port a bs).parts = s.parts := rfl
@[simp] theorem State.hostStore_fab (port a : Nat) (bs : List Byte) : (s.hostStore port a bs).fab = s.fab := rfl
@[simp] theorem State.hostStore_power (port a : Nat) (bs : List Byte) : (s.hostStore port a bs).power = s.power := rfl
@[simp] theorem State.hostStore_therm (port a : Nat) (bs : List Byte) : (s.hostStore port a bs).therm = s.therm := rfl
@[simp] theorem State.hostStore_time (port a : Nat) (bs : List Byte) : (s.hostStore port a bs).time = s.time := rfl
@[simp] theorem State.hostStore_lostRecs (port a : Nat) (bs : List Byte) : (s.hostStore port a bs).lostRecs = s.lostRecs := rfl
@[simp] theorem State.hostStore_dbg (port a : Nat) (bs : List Byte) : (s.hostStore port a bs).dbg = s.dbg := rfl
@[simp] theorem State.hostStore_mgmt (port a : Nat) (bs : List Byte) : (s.hostStore port a bs).mgmt = s.mgmt := rfl
@[simp] theorem State.hostStore_recoveredCnt (port a : Nat) (bs : List Byte) : (s.hostStore port a bs).recoveredCnt = s.recoveredCnt := rfl
@[simp] theorem State.hostStore_unrecoveredCnt (port a : Nat) (bs : List Byte) : (s.hostStore port a bs).unrecoveredCnt = s.unrecoveredCnt := rfl
@[simp] theorem State.hostStore_pending (port a : Nat) (bs : List Byte) : (s.hostStore port a bs).pending = s.pending := rfl
@[simp] theorem State.hostStore_drawn (port a : Nat) (bs : List Byte) : (s.hostStore port a bs).drawn = s.drawn := rfl

/-! ### setPort -/

@[simp] theorem State.setPort_part (p : Nat) (x : Port) : (s.setPort p x).part = s.part := rfl
@[simp] theorem State.setPort_flash (p : Nat) (x : Port) : (s.setPort p x).flash = s.flash := rfl
@[simp] theorem State.setPort_health (p : Nat) (x : Port) : (s.setPort p x).health = s.health := rfl
@[simp] theorem State.setPort_pins (p : Nat) (x : Port) : (s.setPort p x).pins = s.pins := rfl
@[simp] theorem State.setPort_boot (p : Nat) (x : Port) : (s.setPort p x).boot = s.boot := rfl
@[simp] theorem State.setPort_regs (p : Nat) (x : Port) : (s.setPort p x).regs = s.regs := rfl
@[simp] theorem State.setPort_latches (p : Nat) (x : Port) : (s.setPort p x).latches = s.latches := rfl
@[simp] theorem State.setPort_mem (p : Nat) (x : Port) : (s.setPort p x).mem = s.mem := rfl
@[simp] theorem State.setPort_poison (p : Nat) (x : Port) : (s.setPort p x).poison = s.poison := rfl
@[simp] theorem State.setPort_granules (p : Nat) (x : Port) : (s.setPort p x).granules = s.granules := rfl
@[simp] theorem State.setPort_hmem (p : Nat) (x : Port) : (s.setPort p x).hmem = s.hmem := rfl
@[simp] theorem State.setPort_cores (p : Nat) (x : Port) : (s.setPort p x).cores = s.cores := rfl
@[simp] theorem State.setPort_roster (p : Nat) (x : Port) : (s.setPort p x).roster = s.roster := rfl
@[simp] theorem State.setPort_halves (p : Nat) (x : Port) : (s.setPort p x).halves = s.halves := rfl
@[simp] theorem State.setPort_mifs (p : Nat) (x : Port) : (s.setPort p x).mifs = s.mifs := rfl
@[simp] theorem State.setPort_net (p : Nat) (x : Port) : (s.setPort p x).net = s.net := rfl
@[simp] theorem State.setPort_cmds (p : Nat) (x : Port) : (s.setPort p x).cmds = s.cmds := rfl
@[simp] theorem State.setPort_nextCid (p : Nat) (x : Port) : (s.setPort p x).nextCid = s.nextCid := rfl
@[simp] theorem State.setPort_parts (p : Nat) (x : Port) : (s.setPort p x).parts = s.parts := rfl
@[simp] theorem State.setPort_fab (p : Nat) (x : Port) : (s.setPort p x).fab = s.fab := rfl
@[simp] theorem State.setPort_power (p : Nat) (x : Port) : (s.setPort p x).power = s.power := rfl
@[simp] theorem State.setPort_therm (p : Nat) (x : Port) : (s.setPort p x).therm = s.therm := rfl
@[simp] theorem State.setPort_time (p : Nat) (x : Port) : (s.setPort p x).time = s.time := rfl
@[simp] theorem State.setPort_lostRecs (p : Nat) (x : Port) : (s.setPort p x).lostRecs = s.lostRecs := rfl
@[simp] theorem State.setPort_dbg (p : Nat) (x : Port) : (s.setPort p x).dbg = s.dbg := rfl
@[simp] theorem State.setPort_mgmt (p : Nat) (x : Port) : (s.setPort p x).mgmt = s.mgmt := rfl
@[simp] theorem State.setPort_recoveredCnt (p : Nat) (x : Port) : (s.setPort p x).recoveredCnt = s.recoveredCnt := rfl
@[simp] theorem State.setPort_unrecoveredCnt (p : Nat) (x : Port) : (s.setPort p x).unrecoveredCnt = s.unrecoveredCnt := rfl
@[simp] theorem State.setPort_pending (p : Nat) (x : Port) : (s.setPort p x).pending = s.pending := rfl
@[simp] theorem State.setPort_drawn (p : Nat) (x : Port) : (s.setPort p x).drawn = s.drawn := rfl

/-! ### setQueue -/

@[simp] theorem State.setQueue_part (p q : Nat) (x : Queue) : (s.setQueue p q x).part = s.part := rfl
@[simp] theorem State.setQueue_flash (p q : Nat) (x : Queue) : (s.setQueue p q x).flash = s.flash := rfl
@[simp] theorem State.setQueue_health (p q : Nat) (x : Queue) : (s.setQueue p q x).health = s.health := rfl
@[simp] theorem State.setQueue_pins (p q : Nat) (x : Queue) : (s.setQueue p q x).pins = s.pins := rfl
@[simp] theorem State.setQueue_boot (p q : Nat) (x : Queue) : (s.setQueue p q x).boot = s.boot := rfl
@[simp] theorem State.setQueue_regs (p q : Nat) (x : Queue) : (s.setQueue p q x).regs = s.regs := rfl
@[simp] theorem State.setQueue_latches (p q : Nat) (x : Queue) : (s.setQueue p q x).latches = s.latches := rfl
@[simp] theorem State.setQueue_mem (p q : Nat) (x : Queue) : (s.setQueue p q x).mem = s.mem := rfl
@[simp] theorem State.setQueue_poison (p q : Nat) (x : Queue) : (s.setQueue p q x).poison = s.poison := rfl
@[simp] theorem State.setQueue_granules (p q : Nat) (x : Queue) : (s.setQueue p q x).granules = s.granules := rfl
@[simp] theorem State.setQueue_hmem (p q : Nat) (x : Queue) : (s.setQueue p q x).hmem = s.hmem := rfl
@[simp] theorem State.setQueue_cores (p q : Nat) (x : Queue) : (s.setQueue p q x).cores = s.cores := rfl
@[simp] theorem State.setQueue_roster (p q : Nat) (x : Queue) : (s.setQueue p q x).roster = s.roster := rfl
@[simp] theorem State.setQueue_halves (p q : Nat) (x : Queue) : (s.setQueue p q x).halves = s.halves := rfl
@[simp] theorem State.setQueue_mifs (p q : Nat) (x : Queue) : (s.setQueue p q x).mifs = s.mifs := rfl
@[simp] theorem State.setQueue_net (p q : Nat) (x : Queue) : (s.setQueue p q x).net = s.net := rfl
@[simp] theorem State.setQueue_cmds (p q : Nat) (x : Queue) : (s.setQueue p q x).cmds = s.cmds := rfl
@[simp] theorem State.setQueue_nextCid (p q : Nat) (x : Queue) : (s.setQueue p q x).nextCid = s.nextCid := rfl
@[simp] theorem State.setQueue_parts (p q : Nat) (x : Queue) : (s.setQueue p q x).parts = s.parts := rfl
@[simp] theorem State.setQueue_fab (p q : Nat) (x : Queue) : (s.setQueue p q x).fab = s.fab := rfl
@[simp] theorem State.setQueue_power (p q : Nat) (x : Queue) : (s.setQueue p q x).power = s.power := rfl
@[simp] theorem State.setQueue_therm (p q : Nat) (x : Queue) : (s.setQueue p q x).therm = s.therm := rfl
@[simp] theorem State.setQueue_time (p q : Nat) (x : Queue) : (s.setQueue p q x).time = s.time := rfl
@[simp] theorem State.setQueue_lostRecs (p q : Nat) (x : Queue) : (s.setQueue p q x).lostRecs = s.lostRecs := rfl
@[simp] theorem State.setQueue_dbg (p q : Nat) (x : Queue) : (s.setQueue p q x).dbg = s.dbg := rfl
@[simp] theorem State.setQueue_mgmt (p q : Nat) (x : Queue) : (s.setQueue p q x).mgmt = s.mgmt := rfl
@[simp] theorem State.setQueue_recoveredCnt (p q : Nat) (x : Queue) : (s.setQueue p q x).recoveredCnt = s.recoveredCnt := rfl
@[simp] theorem State.setQueue_unrecoveredCnt (p q : Nat) (x : Queue) : (s.setQueue p q x).unrecoveredCnt = s.unrecoveredCnt := rfl
@[simp] theorem State.setQueue_pending (p q : Nat) (x : Queue) : (s.setQueue p q x).pending = s.pending := rfl
@[simp] theorem State.setQueue_drawn (p q : Nat) (x : Queue) : (s.setQueue p q x).drawn = s.drawn := rfl

/-! ### setCmd -/

@[simp] theorem State.setCmd_part (c : Cmd) : (s.setCmd c).part = s.part := rfl
@[simp] theorem State.setCmd_flash (c : Cmd) : (s.setCmd c).flash = s.flash := rfl
@[simp] theorem State.setCmd_health (c : Cmd) : (s.setCmd c).health = s.health := rfl
@[simp] theorem State.setCmd_pins (c : Cmd) : (s.setCmd c).pins = s.pins := rfl
@[simp] theorem State.setCmd_boot (c : Cmd) : (s.setCmd c).boot = s.boot := rfl
@[simp] theorem State.setCmd_regs (c : Cmd) : (s.setCmd c).regs = s.regs := rfl
@[simp] theorem State.setCmd_latches (c : Cmd) : (s.setCmd c).latches = s.latches := rfl
@[simp] theorem State.setCmd_mem (c : Cmd) : (s.setCmd c).mem = s.mem := rfl
@[simp] theorem State.setCmd_poison (c : Cmd) : (s.setCmd c).poison = s.poison := rfl
@[simp] theorem State.setCmd_granules (c : Cmd) : (s.setCmd c).granules = s.granules := rfl
@[simp] theorem State.setCmd_hmem (c : Cmd) : (s.setCmd c).hmem = s.hmem := rfl
@[simp] theorem State.setCmd_cores (c : Cmd) : (s.setCmd c).cores = s.cores := rfl
@[simp] theorem State.setCmd_roster (c : Cmd) : (s.setCmd c).roster = s.roster := rfl
@[simp] theorem State.setCmd_halves (c : Cmd) : (s.setCmd c).halves = s.halves := rfl
@[simp] theorem State.setCmd_mifs (c : Cmd) : (s.setCmd c).mifs = s.mifs := rfl
@[simp] theorem State.setCmd_net (c : Cmd) : (s.setCmd c).net = s.net := rfl
@[simp] theorem State.setCmd_host (c : Cmd) : (s.setCmd c).host = s.host := rfl
@[simp] theorem State.setCmd_nextCid (c : Cmd) : (s.setCmd c).nextCid = s.nextCid := rfl
@[simp] theorem State.setCmd_parts (c : Cmd) : (s.setCmd c).parts = s.parts := rfl
@[simp] theorem State.setCmd_fab (c : Cmd) : (s.setCmd c).fab = s.fab := rfl
@[simp] theorem State.setCmd_power (c : Cmd) : (s.setCmd c).power = s.power := rfl
@[simp] theorem State.setCmd_therm (c : Cmd) : (s.setCmd c).therm = s.therm := rfl
@[simp] theorem State.setCmd_time (c : Cmd) : (s.setCmd c).time = s.time := rfl
@[simp] theorem State.setCmd_lostRecs (c : Cmd) : (s.setCmd c).lostRecs = s.lostRecs := rfl
@[simp] theorem State.setCmd_dbg (c : Cmd) : (s.setCmd c).dbg = s.dbg := rfl
@[simp] theorem State.setCmd_mgmt (c : Cmd) : (s.setCmd c).mgmt = s.mgmt := rfl
@[simp] theorem State.setCmd_recoveredCnt (c : Cmd) : (s.setCmd c).recoveredCnt = s.recoveredCnt := rfl
@[simp] theorem State.setCmd_unrecoveredCnt (c : Cmd) : (s.setCmd c).unrecoveredCnt = s.unrecoveredCnt := rfl
@[simp] theorem State.setCmd_pending (c : Cmd) : (s.setCmd c).pending = s.pending := rfl
@[simp] theorem State.setCmd_drawn (c : Cmd) : (s.setCmd c).drawn = s.drawn := rfl

/-! ### modCmd -/

@[simp] theorem State.modCmd_part (cid : Nat) (f : Cmd → Cmd) : (s.modCmd cid f).part = s.part := rfl
@[simp] theorem State.modCmd_flash (cid : Nat) (f : Cmd → Cmd) : (s.modCmd cid f).flash = s.flash := rfl
@[simp] theorem State.modCmd_health (cid : Nat) (f : Cmd → Cmd) : (s.modCmd cid f).health = s.health := rfl
@[simp] theorem State.modCmd_pins (cid : Nat) (f : Cmd → Cmd) : (s.modCmd cid f).pins = s.pins := rfl
@[simp] theorem State.modCmd_boot (cid : Nat) (f : Cmd → Cmd) : (s.modCmd cid f).boot = s.boot := rfl
@[simp] theorem State.modCmd_regs (cid : Nat) (f : Cmd → Cmd) : (s.modCmd cid f).regs = s.regs := rfl
@[simp] theorem State.modCmd_latches (cid : Nat) (f : Cmd → Cmd) : (s.modCmd cid f).latches = s.latches := rfl
@[simp] theorem State.modCmd_mem (cid : Nat) (f : Cmd → Cmd) : (s.modCmd cid f).mem = s.mem := rfl
@[simp] theorem State.modCmd_poison (cid : Nat) (f : Cmd → Cmd) : (s.modCmd cid f).poison = s.poison := rfl
@[simp] theorem State.modCmd_granules (cid : Nat) (f : Cmd → Cmd) : (s.modCmd cid f).granules = s.granules := rfl
@[simp] theorem State.modCmd_hmem (cid : Nat) (f : Cmd → Cmd) : (s.modCmd cid f).hmem = s.hmem := rfl
@[simp] theorem State.modCmd_cores (cid : Nat) (f : Cmd → Cmd) : (s.modCmd cid f).cores = s.cores := rfl
@[simp] theorem State.modCmd_roster (cid : Nat) (f : Cmd → Cmd) : (s.modCmd cid f).roster = s.roster := rfl
@[simp] theorem State.modCmd_halves (cid : Nat) (f : Cmd → Cmd) : (s.modCmd cid f).halves = s.halves := rfl
@[simp] theorem State.modCmd_mifs (cid : Nat) (f : Cmd → Cmd) : (s.modCmd cid f).mifs = s.mifs := rfl
@[simp] theorem State.modCmd_net (cid : Nat) (f : Cmd → Cmd) : (s.modCmd cid f).net = s.net := rfl
@[simp] theorem State.modCmd_host (cid : Nat) (f : Cmd → Cmd) : (s.modCmd cid f).host = s.host := rfl
@[simp] theorem State.modCmd_nextCid (cid : Nat) (f : Cmd → Cmd) : (s.modCmd cid f).nextCid = s.nextCid := rfl
@[simp] theorem State.modCmd_parts (cid : Nat) (f : Cmd → Cmd) : (s.modCmd cid f).parts = s.parts := rfl
@[simp] theorem State.modCmd_fab (cid : Nat) (f : Cmd → Cmd) : (s.modCmd cid f).fab = s.fab := rfl
@[simp] theorem State.modCmd_power (cid : Nat) (f : Cmd → Cmd) : (s.modCmd cid f).power = s.power := rfl
@[simp] theorem State.modCmd_therm (cid : Nat) (f : Cmd → Cmd) : (s.modCmd cid f).therm = s.therm := rfl
@[simp] theorem State.modCmd_time (cid : Nat) (f : Cmd → Cmd) : (s.modCmd cid f).time = s.time := rfl
@[simp] theorem State.modCmd_lostRecs (cid : Nat) (f : Cmd → Cmd) : (s.modCmd cid f).lostRecs = s.lostRecs := rfl
@[simp] theorem State.modCmd_dbg (cid : Nat) (f : Cmd → Cmd) : (s.modCmd cid f).dbg = s.dbg := rfl
@[simp] theorem State.modCmd_mgmt (cid : Nat) (f : Cmd → Cmd) : (s.modCmd cid f).mgmt = s.mgmt := rfl
@[simp] theorem State.modCmd_recoveredCnt (cid : Nat) (f : Cmd → Cmd) : (s.modCmd cid f).recoveredCnt = s.recoveredCnt := rfl
@[simp] theorem State.modCmd_unrecoveredCnt (cid : Nat) (f : Cmd → Cmd) : (s.modCmd cid f).unrecoveredCnt = s.unrecoveredCnt := rfl
@[simp] theorem State.modCmd_pending (cid : Nat) (f : Cmd → Cmd) : (s.modCmd cid f).pending = s.pending := rfl
@[simp] theorem State.modCmd_drawn (cid : Nat) (f : Cmd → Cmd) : (s.modCmd cid f).drawn = s.drawn := rfl

/-! ### setCore -/

@[simp] theorem State.setCore_part (i : Nat) (c : Core) : (s.setCore i c).part = s.part := rfl
@[simp] theorem State.setCore_flash (i : Nat) (c : Core) : (s.setCore i c).flash = s.flash := rfl
@[simp] theorem State.setCore_health (i : Nat) (c : Core) : (s.setCore i c).health = s.health := rfl
@[simp] theorem State.setCore_pins (i : Nat) (c : Core) : (s.setCore i c).pins = s.pins := rfl
@[simp] theorem State.setCore_boot (i : Nat) (c : Core) : (s.setCore i c).boot = s.boot := rfl
@[simp] theorem State.setCore_regs (i : Nat) (c : Core) : (s.setCore i c).regs = s.regs := rfl
@[simp] theorem State.setCore_latches (i : Nat) (c : Core) : (s.setCore i c).latches = s.latches := rfl
@[simp] theorem State.setCore_mem (i : Nat) (c : Core) : (s.setCore i c).mem = s.mem := rfl
@[simp] theorem State.setCore_poison (i : Nat) (c : Core) : (s.setCore i c).poison = s.poison := rfl
@[simp] theorem State.setCore_granules (i : Nat) (c : Core) : (s.setCore i c).granules = s.granules := rfl
@[simp] theorem State.setCore_hmem (i : Nat) (c : Core) : (s.setCore i c).hmem = s.hmem := rfl
@[simp] theorem State.setCore_roster (i : Nat) (c : Core) : (s.setCore i c).roster = s.roster := rfl
@[simp] theorem State.setCore_halves (i : Nat) (c : Core) : (s.setCore i c).halves = s.halves := rfl
@[simp] theorem State.setCore_mifs (i : Nat) (c : Core) : (s.setCore i c).mifs = s.mifs := rfl
@[simp] theorem State.setCore_net (i : Nat) (c : Core) : (s.setCore i c).net = s.net := rfl
@[simp] theorem State.setCore_host (i : Nat) (c : Core) : (s.setCore i c).host = s.host := rfl
@[simp] theorem State.setCore_cmds (i : Nat) (c : Core) : (s.setCore i c).cmds = s.cmds := rfl
@[simp] theorem State.setCore_nextCid (i : Nat) (c : Core) : (s.setCore i c).nextCid = s.nextCid := rfl
@[simp] theorem State.setCore_parts (i : Nat) (c : Core) : (s.setCore i c).parts = s.parts := rfl
@[simp] theorem State.setCore_fab (i : Nat) (c : Core) : (s.setCore i c).fab = s.fab := rfl
@[simp] theorem State.setCore_power (i : Nat) (c : Core) : (s.setCore i c).power = s.power := rfl
@[simp] theorem State.setCore_therm (i : Nat) (c : Core) : (s.setCore i c).therm = s.therm := rfl
@[simp] theorem State.setCore_time (i : Nat) (c : Core) : (s.setCore i c).time = s.time := rfl
@[simp] theorem State.setCore_lostRecs (i : Nat) (c : Core) : (s.setCore i c).lostRecs = s.lostRecs := rfl
@[simp] theorem State.setCore_dbg (i : Nat) (c : Core) : (s.setCore i c).dbg = s.dbg := rfl
@[simp] theorem State.setCore_mgmt (i : Nat) (c : Core) : (s.setCore i c).mgmt = s.mgmt := rfl
@[simp] theorem State.setCore_recoveredCnt (i : Nat) (c : Core) : (s.setCore i c).recoveredCnt = s.recoveredCnt := rfl
@[simp] theorem State.setCore_unrecoveredCnt (i : Nat) (c : Core) : (s.setCore i c).unrecoveredCnt = s.unrecoveredCnt := rfl
@[simp] theorem State.setCore_pending (i : Nat) (c : Core) : (s.setCore i c).pending = s.pending := rfl
@[simp] theorem State.setCore_drawn (i : Nat) (c : Core) : (s.setCore i c).drawn = s.drawn := rfl

/-! ### modCore -/

@[simp] theorem State.modCore_part (i : Nat) (f : Core → Core) : (s.modCore i f).part = s.part := rfl
@[simp] theorem State.modCore_flash (i : Nat) (f : Core → Core) : (s.modCore i f).flash = s.flash := rfl
@[simp] theorem State.modCore_health (i : Nat) (f : Core → Core) : (s.modCore i f).health = s.health := rfl
@[simp] theorem State.modCore_pins (i : Nat) (f : Core → Core) : (s.modCore i f).pins = s.pins := rfl
@[simp] theorem State.modCore_boot (i : Nat) (f : Core → Core) : (s.modCore i f).boot = s.boot := rfl
@[simp] theorem State.modCore_regs (i : Nat) (f : Core → Core) : (s.modCore i f).regs = s.regs := rfl
@[simp] theorem State.modCore_latches (i : Nat) (f : Core → Core) : (s.modCore i f).latches = s.latches := rfl
@[simp] theorem State.modCore_mem (i : Nat) (f : Core → Core) : (s.modCore i f).mem = s.mem := rfl
@[simp] theorem State.modCore_poison (i : Nat) (f : Core → Core) : (s.modCore i f).poison = s.poison := rfl
@[simp] theorem State.modCore_granules (i : Nat) (f : Core → Core) : (s.modCore i f).granules = s.granules := rfl
@[simp] theorem State.modCore_hmem (i : Nat) (f : Core → Core) : (s.modCore i f).hmem = s.hmem := rfl
@[simp] theorem State.modCore_roster (i : Nat) (f : Core → Core) : (s.modCore i f).roster = s.roster := rfl
@[simp] theorem State.modCore_halves (i : Nat) (f : Core → Core) : (s.modCore i f).halves = s.halves := rfl
@[simp] theorem State.modCore_mifs (i : Nat) (f : Core → Core) : (s.modCore i f).mifs = s.mifs := rfl
@[simp] theorem State.modCore_net (i : Nat) (f : Core → Core) : (s.modCore i f).net = s.net := rfl
@[simp] theorem State.modCore_host (i : Nat) (f : Core → Core) : (s.modCore i f).host = s.host := rfl
@[simp] theorem State.modCore_cmds (i : Nat) (f : Core → Core) : (s.modCore i f).cmds = s.cmds := rfl
@[simp] theorem State.modCore_nextCid (i : Nat) (f : Core → Core) : (s.modCore i f).nextCid = s.nextCid := rfl
@[simp] theorem State.modCore_parts (i : Nat) (f : Core → Core) : (s.modCore i f).parts = s.parts := rfl
@[simp] theorem State.modCore_fab (i : Nat) (f : Core → Core) : (s.modCore i f).fab = s.fab := rfl
@[simp] theorem State.modCore_power (i : Nat) (f : Core → Core) : (s.modCore i f).power = s.power := rfl
@[simp] theorem State.modCore_therm (i : Nat) (f : Core → Core) : (s.modCore i f).therm = s.therm := rfl
@[simp] theorem State.modCore_time (i : Nat) (f : Core → Core) : (s.modCore i f).time = s.time := rfl
@[simp] theorem State.modCore_lostRecs (i : Nat) (f : Core → Core) : (s.modCore i f).lostRecs = s.lostRecs := rfl
@[simp] theorem State.modCore_dbg (i : Nat) (f : Core → Core) : (s.modCore i f).dbg = s.dbg := rfl
@[simp] theorem State.modCore_mgmt (i : Nat) (f : Core → Core) : (s.modCore i f).mgmt = s.mgmt := rfl
@[simp] theorem State.modCore_recoveredCnt (i : Nat) (f : Core → Core) : (s.modCore i f).recoveredCnt = s.recoveredCnt := rfl
@[simp] theorem State.modCore_unrecoveredCnt (i : Nat) (f : Core → Core) : (s.modCore i f).unrecoveredCnt = s.unrecoveredCnt := rfl
@[simp] theorem State.modCore_pending (i : Nat) (f : Core → Core) : (s.modCore i f).pending = s.pending := rfl
@[simp] theorem State.modCore_drawn (i : Nat) (f : Core → Core) : (s.modCore i f).drawn = s.drawn := rfl

/-! ### modGroup -/

@[simp] theorem State.modGroup_part (site slot : Nat) (f : Group → Group) : (s.modGroup site slot f).part = s.part := rfl
@[simp] theorem State.modGroup_flash (site slot : Nat) (f : Group → Group) : (s.modGroup site slot f).flash = s.flash := rfl
@[simp] theorem State.modGroup_health (site slot : Nat) (f : Group → Group) : (s.modGroup site slot f).health = s.health := rfl
@[simp] theorem State.modGroup_pins (site slot : Nat) (f : Group → Group) : (s.modGroup site slot f).pins = s.pins := rfl
@[simp] theorem State.modGroup_boot (site slot : Nat) (f : Group → Group) : (s.modGroup site slot f).boot = s.boot := rfl
@[simp] theorem State.modGroup_regs (site slot : Nat) (f : Group → Group) : (s.modGroup site slot f).regs = s.regs := rfl
@[simp] theorem State.modGroup_latches (site slot : Nat) (f : Group → Group) : (s.modGroup site slot f).latches = s.latches := rfl
@[simp] theorem State.modGroup_mem (site slot : Nat) (f : Group → Group) : (s.modGroup site slot f).mem = s.mem := rfl
@[simp] theorem State.modGroup_poison (site slot : Nat) (f : Group → Group) : (s.modGroup site slot f).poison = s.poison := rfl
@[simp] theorem State.modGroup_granules (site slot : Nat) (f : Group → Group) : (s.modGroup site slot f).granules = s.granules := rfl
@[simp] theorem State.modGroup_hmem (site slot : Nat) (f : Group → Group) : (s.modGroup site slot f).hmem = s.hmem := rfl
@[simp] theorem State.modGroup_roster (site slot : Nat) (f : Group → Group) : (s.modGroup site slot f).roster = s.roster := rfl
@[simp] theorem State.modGroup_halves (site slot : Nat) (f : Group → Group) : (s.modGroup site slot f).halves = s.halves := rfl
@[simp] theorem State.modGroup_mifs (site slot : Nat) (f : Group → Group) : (s.modGroup site slot f).mifs = s.mifs := rfl
@[simp] theorem State.modGroup_net (site slot : Nat) (f : Group → Group) : (s.modGroup site slot f).net = s.net := rfl
@[simp] theorem State.modGroup_host (site slot : Nat) (f : Group → Group) : (s.modGroup site slot f).host = s.host := rfl
@[simp] theorem State.modGroup_cmds (site slot : Nat) (f : Group → Group) : (s.modGroup site slot f).cmds = s.cmds := rfl
@[simp] theorem State.modGroup_nextCid (site slot : Nat) (f : Group → Group) : (s.modGroup site slot f).nextCid = s.nextCid := rfl
@[simp] theorem State.modGroup_parts (site slot : Nat) (f : Group → Group) : (s.modGroup site slot f).parts = s.parts := rfl
@[simp] theorem State.modGroup_fab (site slot : Nat) (f : Group → Group) : (s.modGroup site slot f).fab = s.fab := rfl
@[simp] theorem State.modGroup_power (site slot : Nat) (f : Group → Group) : (s.modGroup site slot f).power = s.power := rfl
@[simp] theorem State.modGroup_therm (site slot : Nat) (f : Group → Group) : (s.modGroup site slot f).therm = s.therm := rfl
@[simp] theorem State.modGroup_time (site slot : Nat) (f : Group → Group) : (s.modGroup site slot f).time = s.time := rfl
@[simp] theorem State.modGroup_lostRecs (site slot : Nat) (f : Group → Group) : (s.modGroup site slot f).lostRecs = s.lostRecs := rfl
@[simp] theorem State.modGroup_dbg (site slot : Nat) (f : Group → Group) : (s.modGroup site slot f).dbg = s.dbg := rfl
@[simp] theorem State.modGroup_mgmt (site slot : Nat) (f : Group → Group) : (s.modGroup site slot f).mgmt = s.mgmt := rfl
@[simp] theorem State.modGroup_recoveredCnt (site slot : Nat) (f : Group → Group) : (s.modGroup site slot f).recoveredCnt = s.recoveredCnt := rfl
@[simp] theorem State.modGroup_unrecoveredCnt (site slot : Nat) (f : Group → Group) : (s.modGroup site slot f).unrecoveredCnt = s.unrecoveredCnt := rfl
@[simp] theorem State.modGroup_pending (site slot : Nat) (f : Group → Group) : (s.modGroup site slot f).pending = s.pending := rfl
@[simp] theorem State.modGroup_drawn (site slot : Nat) (f : Group → Group) : (s.modGroup site slot f).drawn = s.drawn := rfl

/-! ### modBlock -/

@[simp] theorem State.modBlock_part (site b : Nat) (f : Block → Block) : (s.modBlock site b f).part = s.part := rfl
@[simp] theorem State.modBlock_flash (site b : Nat) (f : Block → Block) : (s.modBlock site b f).flash = s.flash := rfl
@[simp] theorem State.modBlock_health (site b : Nat) (f : Block → Block) : (s.modBlock site b f).health = s.health := rfl
@[simp] theorem State.modBlock_pins (site b : Nat) (f : Block → Block) : (s.modBlock site b f).pins = s.pins := rfl
@[simp] theorem State.modBlock_boot (site b : Nat) (f : Block → Block) : (s.modBlock site b f).boot = s.boot := rfl
@[simp] theorem State.modBlock_regs (site b : Nat) (f : Block → Block) : (s.modBlock site b f).regs = s.regs := rfl
@[simp] theorem State.modBlock_latches (site b : Nat) (f : Block → Block) : (s.modBlock site b f).latches = s.latches := rfl
@[simp] theorem State.modBlock_mem (site b : Nat) (f : Block → Block) : (s.modBlock site b f).mem = s.mem := rfl
@[simp] theorem State.modBlock_poison (site b : Nat) (f : Block → Block) : (s.modBlock site b f).poison = s.poison := rfl
@[simp] theorem State.modBlock_granules (site b : Nat) (f : Block → Block) : (s.modBlock site b f).granules = s.granules := rfl
@[simp] theorem State.modBlock_hmem (site b : Nat) (f : Block → Block) : (s.modBlock site b f).hmem = s.hmem := rfl
@[simp] theorem State.modBlock_roster (site b : Nat) (f : Block → Block) : (s.modBlock site b f).roster = s.roster := rfl
@[simp] theorem State.modBlock_halves (site b : Nat) (f : Block → Block) : (s.modBlock site b f).halves = s.halves := rfl
@[simp] theorem State.modBlock_mifs (site b : Nat) (f : Block → Block) : (s.modBlock site b f).mifs = s.mifs := rfl
@[simp] theorem State.modBlock_net (site b : Nat) (f : Block → Block) : (s.modBlock site b f).net = s.net := rfl
@[simp] theorem State.modBlock_host (site b : Nat) (f : Block → Block) : (s.modBlock site b f).host = s.host := rfl
@[simp] theorem State.modBlock_cmds (site b : Nat) (f : Block → Block) : (s.modBlock site b f).cmds = s.cmds := rfl
@[simp] theorem State.modBlock_nextCid (site b : Nat) (f : Block → Block) : (s.modBlock site b f).nextCid = s.nextCid := rfl
@[simp] theorem State.modBlock_parts (site b : Nat) (f : Block → Block) : (s.modBlock site b f).parts = s.parts := rfl
@[simp] theorem State.modBlock_fab (site b : Nat) (f : Block → Block) : (s.modBlock site b f).fab = s.fab := rfl
@[simp] theorem State.modBlock_power (site b : Nat) (f : Block → Block) : (s.modBlock site b f).power = s.power := rfl
@[simp] theorem State.modBlock_therm (site b : Nat) (f : Block → Block) : (s.modBlock site b f).therm = s.therm := rfl
@[simp] theorem State.modBlock_time (site b : Nat) (f : Block → Block) : (s.modBlock site b f).time = s.time := rfl
@[simp] theorem State.modBlock_lostRecs (site b : Nat) (f : Block → Block) : (s.modBlock site b f).lostRecs = s.lostRecs := rfl
@[simp] theorem State.modBlock_dbg (site b : Nat) (f : Block → Block) : (s.modBlock site b f).dbg = s.dbg := rfl
@[simp] theorem State.modBlock_mgmt (site b : Nat) (f : Block → Block) : (s.modBlock site b f).mgmt = s.mgmt := rfl
@[simp] theorem State.modBlock_recoveredCnt (site b : Nat) (f : Block → Block) : (s.modBlock site b f).recoveredCnt = s.recoveredCnt := rfl
@[simp] theorem State.modBlock_unrecoveredCnt (site b : Nat) (f : Block → Block) : (s.modBlock site b f).unrecoveredCnt = s.unrecoveredCnt := rfl
@[simp] theorem State.modBlock_pending (site b : Nat) (f : Block → Block) : (s.modBlock site b f).pending = s.pending := rfl
@[simp] theorem State.modBlock_drawn (site b : Nat) (f : Block → Block) : (s.modBlock site b f).drawn = s.drawn := rfl

/-! ### setHalf -/

@[simp] theorem State.setHalf_part (h : Nat) (x : Half) : (s.setHalf h x).part = s.part := rfl
@[simp] theorem State.setHalf_flash (h : Nat) (x : Half) : (s.setHalf h x).flash = s.flash := rfl
@[simp] theorem State.setHalf_health (h : Nat) (x : Half) : (s.setHalf h x).health = s.health := rfl
@[simp] theorem State.setHalf_pins (h : Nat) (x : Half) : (s.setHalf h x).pins = s.pins := rfl
@[simp] theorem State.setHalf_boot (h : Nat) (x : Half) : (s.setHalf h x).boot = s.boot := rfl
@[simp] theorem State.setHalf_regs (h : Nat) (x : Half) : (s.setHalf h x).regs = s.regs := rfl
@[simp] theorem State.setHalf_latches (h : Nat) (x : Half) : (s.setHalf h x).latches = s.latches := rfl
@[simp] theorem State.setHalf_mem (h : Nat) (x : Half) : (s.setHalf h x).mem = s.mem := rfl
@[simp] theorem State.setHalf_poison (h : Nat) (x : Half) : (s.setHalf h x).poison = s.poison := rfl
@[simp] theorem State.setHalf_granules (h : Nat) (x : Half) : (s.setHalf h x).granules = s.granules := rfl
@[simp] theorem State.setHalf_hmem (h : Nat) (x : Half) : (s.setHalf h x).hmem = s.hmem := rfl
@[simp] theorem State.setHalf_cores (h : Nat) (x : Half) : (s.setHalf h x).cores = s.cores := rfl
@[simp] theorem State.setHalf_roster (h : Nat) (x : Half) : (s.setHalf h x).roster = s.roster := rfl
@[simp] theorem State.setHalf_mifs (h : Nat) (x : Half) : (s.setHalf h x).mifs = s.mifs := rfl
@[simp] theorem State.setHalf_net (h : Nat) (x : Half) : (s.setHalf h x).net = s.net := rfl
@[simp] theorem State.setHalf_host (h : Nat) (x : Half) : (s.setHalf h x).host = s.host := rfl
@[simp] theorem State.setHalf_cmds (h : Nat) (x : Half) : (s.setHalf h x).cmds = s.cmds := rfl
@[simp] theorem State.setHalf_nextCid (h : Nat) (x : Half) : (s.setHalf h x).nextCid = s.nextCid := rfl
@[simp] theorem State.setHalf_parts (h : Nat) (x : Half) : (s.setHalf h x).parts = s.parts := rfl
@[simp] theorem State.setHalf_fab (h : Nat) (x : Half) : (s.setHalf h x).fab = s.fab := rfl
@[simp] theorem State.setHalf_power (h : Nat) (x : Half) : (s.setHalf h x).power = s.power := rfl
@[simp] theorem State.setHalf_therm (h : Nat) (x : Half) : (s.setHalf h x).therm = s.therm := rfl
@[simp] theorem State.setHalf_time (h : Nat) (x : Half) : (s.setHalf h x).time = s.time := rfl
@[simp] theorem State.setHalf_lostRecs (h : Nat) (x : Half) : (s.setHalf h x).lostRecs = s.lostRecs := rfl
@[simp] theorem State.setHalf_dbg (h : Nat) (x : Half) : (s.setHalf h x).dbg = s.dbg := rfl
@[simp] theorem State.setHalf_mgmt (h : Nat) (x : Half) : (s.setHalf h x).mgmt = s.mgmt := rfl
@[simp] theorem State.setHalf_recoveredCnt (h : Nat) (x : Half) : (s.setHalf h x).recoveredCnt = s.recoveredCnt := rfl
@[simp] theorem State.setHalf_unrecoveredCnt (h : Nat) (x : Half) : (s.setHalf h x).unrecoveredCnt = s.unrecoveredCnt := rfl
@[simp] theorem State.setHalf_pending (h : Nat) (x : Half) : (s.setHalf h x).pending = s.pending := rfl
@[simp] theorem State.setHalf_drawn (h : Nat) (x : Half) : (s.setHalf h x).drawn = s.drawn := rfl

/-! ### modHalf -/

@[simp] theorem State.modHalf_part (h : Nat) (f : Half → Half) : (s.modHalf h f).part = s.part := rfl
@[simp] theorem State.modHalf_flash (h : Nat) (f : Half → Half) : (s.modHalf h f).flash = s.flash := rfl
@[simp] theorem State.modHalf_health (h : Nat) (f : Half → Half) : (s.modHalf h f).health = s.health := rfl
@[simp] theorem State.modHalf_pins (h : Nat) (f : Half → Half) : (s.modHalf h f).pins = s.pins := rfl
@[simp] theorem State.modHalf_boot (h : Nat) (f : Half → Half) : (s.modHalf h f).boot = s.boot := rfl
@[simp] theorem State.modHalf_regs (h : Nat) (f : Half → Half) : (s.modHalf h f).regs = s.regs := rfl
@[simp] theorem State.modHalf_latches (h : Nat) (f : Half → Half) : (s.modHalf h f).latches = s.latches := rfl
@[simp] theorem State.modHalf_mem (h : Nat) (f : Half → Half) : (s.modHalf h f).mem = s.mem := rfl
@[simp] theorem State.modHalf_poison (h : Nat) (f : Half → Half) : (s.modHalf h f).poison = s.poison := rfl
@[simp] theorem State.modHalf_granules (h : Nat) (f : Half → Half) : (s.modHalf h f).granules = s.granules := rfl
@[simp] theorem State.modHalf_hmem (h : Nat) (f : Half → Half) : (s.modHalf h f).hmem = s.hmem := rfl
@[simp] theorem State.modHalf_cores (h : Nat) (f : Half → Half) : (s.modHalf h f).cores = s.cores := rfl
@[simp] theorem State.modHalf_roster (h : Nat) (f : Half → Half) : (s.modHalf h f).roster = s.roster := rfl
@[simp] theorem State.modHalf_mifs (h : Nat) (f : Half → Half) : (s.modHalf h f).mifs = s.mifs := rfl
@[simp] theorem State.modHalf_net (h : Nat) (f : Half → Half) : (s.modHalf h f).net = s.net := rfl
@[simp] theorem State.modHalf_host (h : Nat) (f : Half → Half) : (s.modHalf h f).host = s.host := rfl
@[simp] theorem State.modHalf_cmds (h : Nat) (f : Half → Half) : (s.modHalf h f).cmds = s.cmds := rfl
@[simp] theorem State.modHalf_nextCid (h : Nat) (f : Half → Half) : (s.modHalf h f).nextCid = s.nextCid := rfl
@[simp] theorem State.modHalf_parts (h : Nat) (f : Half → Half) : (s.modHalf h f).parts = s.parts := rfl
@[simp] theorem State.modHalf_fab (h : Nat) (f : Half → Half) : (s.modHalf h f).fab = s.fab := rfl
@[simp] theorem State.modHalf_power (h : Nat) (f : Half → Half) : (s.modHalf h f).power = s.power := rfl
@[simp] theorem State.modHalf_therm (h : Nat) (f : Half → Half) : (s.modHalf h f).therm = s.therm := rfl
@[simp] theorem State.modHalf_time (h : Nat) (f : Half → Half) : (s.modHalf h f).time = s.time := rfl
@[simp] theorem State.modHalf_lostRecs (h : Nat) (f : Half → Half) : (s.modHalf h f).lostRecs = s.lostRecs := rfl
@[simp] theorem State.modHalf_dbg (h : Nat) (f : Half → Half) : (s.modHalf h f).dbg = s.dbg := rfl
@[simp] theorem State.modHalf_mgmt (h : Nat) (f : Half → Half) : (s.modHalf h f).mgmt = s.mgmt := rfl
@[simp] theorem State.modHalf_recoveredCnt (h : Nat) (f : Half → Half) : (s.modHalf h f).recoveredCnt = s.recoveredCnt := rfl
@[simp] theorem State.modHalf_unrecoveredCnt (h : Nat) (f : Half → Half) : (s.modHalf h f).unrecoveredCnt = s.unrecoveredCnt := rfl
@[simp] theorem State.modHalf_pending (h : Nat) (f : Half → Half) : (s.modHalf h f).pending = s.pending := rfl
@[simp] theorem State.modHalf_drawn (h : Nat) (f : Half → Half) : (s.modHalf h f).drawn = s.drawn := rfl

/-! ### setMif -/

@[simp] theorem State.setMif_part (d : Nat) (x : Mif) : (s.setMif d x).part = s.part := rfl
@[simp] theorem State.setMif_flash (d : Nat) (x : Mif) : (s.setMif d x).flash = s.flash := rfl
@[simp] theorem State.setMif_health (d : Nat) (x : Mif) : (s.setMif d x).health = s.health := rfl
@[simp] theorem State.setMif_pins (d : Nat) (x : Mif) : (s.setMif d x).pins = s.pins := rfl
@[simp] theorem State.setMif_boot (d : Nat) (x : Mif) : (s.setMif d x).boot = s.boot := rfl
@[simp] theorem State.setMif_regs (d : Nat) (x : Mif) : (s.setMif d x).regs = s.regs := rfl
@[simp] theorem State.setMif_latches (d : Nat) (x : Mif) : (s.setMif d x).latches = s.latches := rfl
@[simp] theorem State.setMif_mem (d : Nat) (x : Mif) : (s.setMif d x).mem = s.mem := rfl
@[simp] theorem State.setMif_poison (d : Nat) (x : Mif) : (s.setMif d x).poison = s.poison := rfl
@[simp] theorem State.setMif_granules (d : Nat) (x : Mif) : (s.setMif d x).granules = s.granules := rfl
@[simp] theorem State.setMif_hmem (d : Nat) (x : Mif) : (s.setMif d x).hmem = s.hmem := rfl
@[simp] theorem State.setMif_cores (d : Nat) (x : Mif) : (s.setMif d x).cores = s.cores := rfl
@[simp] theorem State.setMif_roster (d : Nat) (x : Mif) : (s.setMif d x).roster = s.roster := rfl
@[simp] theorem State.setMif_halves (d : Nat) (x : Mif) : (s.setMif d x).halves = s.halves := rfl
@[simp] theorem State.setMif_net (d : Nat) (x : Mif) : (s.setMif d x).net = s.net := rfl
@[simp] theorem State.setMif_host (d : Nat) (x : Mif) : (s.setMif d x).host = s.host := rfl
@[simp] theorem State.setMif_cmds (d : Nat) (x : Mif) : (s.setMif d x).cmds = s.cmds := rfl
@[simp] theorem State.setMif_nextCid (d : Nat) (x : Mif) : (s.setMif d x).nextCid = s.nextCid := rfl
@[simp] theorem State.setMif_parts (d : Nat) (x : Mif) : (s.setMif d x).parts = s.parts := rfl
@[simp] theorem State.setMif_fab (d : Nat) (x : Mif) : (s.setMif d x).fab = s.fab := rfl
@[simp] theorem State.setMif_power (d : Nat) (x : Mif) : (s.setMif d x).power = s.power := rfl
@[simp] theorem State.setMif_therm (d : Nat) (x : Mif) : (s.setMif d x).therm = s.therm := rfl
@[simp] theorem State.setMif_time (d : Nat) (x : Mif) : (s.setMif d x).time = s.time := rfl
@[simp] theorem State.setMif_lostRecs (d : Nat) (x : Mif) : (s.setMif d x).lostRecs = s.lostRecs := rfl
@[simp] theorem State.setMif_dbg (d : Nat) (x : Mif) : (s.setMif d x).dbg = s.dbg := rfl
@[simp] theorem State.setMif_mgmt (d : Nat) (x : Mif) : (s.setMif d x).mgmt = s.mgmt := rfl
@[simp] theorem State.setMif_recoveredCnt (d : Nat) (x : Mif) : (s.setMif d x).recoveredCnt = s.recoveredCnt := rfl
@[simp] theorem State.setMif_unrecoveredCnt (d : Nat) (x : Mif) : (s.setMif d x).unrecoveredCnt = s.unrecoveredCnt := rfl
@[simp] theorem State.setMif_pending (d : Nat) (x : Mif) : (s.setMif d x).pending = s.pending := rfl
@[simp] theorem State.setMif_drawn (d : Nat) (x : Mif) : (s.setMif d x).drawn = s.drawn := rfl

/-! ### setReq -/

@[simp] theorem State.setReq_part (r : Req) : (s.setReq r).part = s.part := rfl
@[simp] theorem State.setReq_flash (r : Req) : (s.setReq r).flash = s.flash := rfl
@[simp] theorem State.setReq_health (r : Req) : (s.setReq r).health = s.health := rfl
@[simp] theorem State.setReq_pins (r : Req) : (s.setReq r).pins = s.pins := rfl
@[simp] theorem State.setReq_boot (r : Req) : (s.setReq r).boot = s.boot := rfl
@[simp] theorem State.setReq_regs (r : Req) : (s.setReq r).regs = s.regs := rfl
@[simp] theorem State.setReq_latches (r : Req) : (s.setReq r).latches = s.latches := rfl
@[simp] theorem State.setReq_mem (r : Req) : (s.setReq r).mem = s.mem := rfl
@[simp] theorem State.setReq_poison (r : Req) : (s.setReq r).poison = s.poison := rfl
@[simp] theorem State.setReq_granules (r : Req) : (s.setReq r).granules = s.granules := rfl
@[simp] theorem State.setReq_hmem (r : Req) : (s.setReq r).hmem = s.hmem := rfl
@[simp] theorem State.setReq_cores (r : Req) : (s.setReq r).cores = s.cores := rfl
@[simp] theorem State.setReq_roster (r : Req) : (s.setReq r).roster = s.roster := rfl
@[simp] theorem State.setReq_halves (r : Req) : (s.setReq r).halves = s.halves := rfl
@[simp] theorem State.setReq_mifs (r : Req) : (s.setReq r).mifs = s.mifs := rfl
@[simp] theorem State.setReq_host (r : Req) : (s.setReq r).host = s.host := rfl
@[simp] theorem State.setReq_cmds (r : Req) : (s.setReq r).cmds = s.cmds := rfl
@[simp] theorem State.setReq_nextCid (r : Req) : (s.setReq r).nextCid = s.nextCid := rfl
@[simp] theorem State.setReq_parts (r : Req) : (s.setReq r).parts = s.parts := rfl
@[simp] theorem State.setReq_fab (r : Req) : (s.setReq r).fab = s.fab := rfl
@[simp] theorem State.setReq_power (r : Req) : (s.setReq r).power = s.power := rfl
@[simp] theorem State.setReq_therm (r : Req) : (s.setReq r).therm = s.therm := rfl
@[simp] theorem State.setReq_time (r : Req) : (s.setReq r).time = s.time := rfl
@[simp] theorem State.setReq_lostRecs (r : Req) : (s.setReq r).lostRecs = s.lostRecs := rfl
@[simp] theorem State.setReq_dbg (r : Req) : (s.setReq r).dbg = s.dbg := rfl
@[simp] theorem State.setReq_mgmt (r : Req) : (s.setReq r).mgmt = s.mgmt := rfl
@[simp] theorem State.setReq_recoveredCnt (r : Req) : (s.setReq r).recoveredCnt = s.recoveredCnt := rfl
@[simp] theorem State.setReq_unrecoveredCnt (r : Req) : (s.setReq r).unrecoveredCnt = s.unrecoveredCnt := rfl
@[simp] theorem State.setReq_pending (r : Req) : (s.setReq r).pending = s.pending := rfl
@[simp] theorem State.setReq_drawn (r : Req) : (s.setReq r).drawn = s.drawn := rfl

/-! ### setFport -/

@[simp] theorem State.setFport_part (j : Nat) (x : FabPort) : (s.setFport j x).part = s.part := rfl
@[simp] theorem State.setFport_flash (j : Nat) (x : FabPort) : (s.setFport j x).flash = s.flash := rfl
@[simp] theorem State.setFport_health (j : Nat) (x : FabPort) : (s.setFport j x).health = s.health := rfl
@[simp] theorem State.setFport_pins (j : Nat) (x : FabPort) : (s.setFport j x).pins = s.pins := rfl
@[simp] theorem State.setFport_boot (j : Nat) (x : FabPort) : (s.setFport j x).boot = s.boot := rfl
@[simp] theorem State.setFport_regs (j : Nat) (x : FabPort) : (s.setFport j x).regs = s.regs := rfl
@[simp] theorem State.setFport_latches (j : Nat) (x : FabPort) : (s.setFport j x).latches = s.latches := rfl
@[simp] theorem State.setFport_mem (j : Nat) (x : FabPort) : (s.setFport j x).mem = s.mem := rfl
@[simp] theorem State.setFport_poison (j : Nat) (x : FabPort) : (s.setFport j x).poison = s.poison := rfl
@[simp] theorem State.setFport_granules (j : Nat) (x : FabPort) : (s.setFport j x).granules = s.granules := rfl
@[simp] theorem State.setFport_hmem (j : Nat) (x : FabPort) : (s.setFport j x).hmem = s.hmem := rfl
@[simp] theorem State.setFport_cores (j : Nat) (x : FabPort) : (s.setFport j x).cores = s.cores := rfl
@[simp] theorem State.setFport_roster (j : Nat) (x : FabPort) : (s.setFport j x).roster = s.roster := rfl
@[simp] theorem State.setFport_halves (j : Nat) (x : FabPort) : (s.setFport j x).halves = s.halves := rfl
@[simp] theorem State.setFport_mifs (j : Nat) (x : FabPort) : (s.setFport j x).mifs = s.mifs := rfl
@[simp] theorem State.setFport_net (j : Nat) (x : FabPort) : (s.setFport j x).net = s.net := rfl
@[simp] theorem State.setFport_host (j : Nat) (x : FabPort) : (s.setFport j x).host = s.host := rfl
@[simp] theorem State.setFport_cmds (j : Nat) (x : FabPort) : (s.setFport j x).cmds = s.cmds := rfl
@[simp] theorem State.setFport_nextCid (j : Nat) (x : FabPort) : (s.setFport j x).nextCid = s.nextCid := rfl
@[simp] theorem State.setFport_parts (j : Nat) (x : FabPort) : (s.setFport j x).parts = s.parts := rfl
@[simp] theorem State.setFport_power (j : Nat) (x : FabPort) : (s.setFport j x).power = s.power := rfl
@[simp] theorem State.setFport_therm (j : Nat) (x : FabPort) : (s.setFport j x).therm = s.therm := rfl
@[simp] theorem State.setFport_time (j : Nat) (x : FabPort) : (s.setFport j x).time = s.time := rfl
@[simp] theorem State.setFport_lostRecs (j : Nat) (x : FabPort) : (s.setFport j x).lostRecs = s.lostRecs := rfl
@[simp] theorem State.setFport_dbg (j : Nat) (x : FabPort) : (s.setFport j x).dbg = s.dbg := rfl
@[simp] theorem State.setFport_mgmt (j : Nat) (x : FabPort) : (s.setFport j x).mgmt = s.mgmt := rfl
@[simp] theorem State.setFport_recoveredCnt (j : Nat) (x : FabPort) : (s.setFport j x).recoveredCnt = s.recoveredCnt := rfl
@[simp] theorem State.setFport_unrecoveredCnt (j : Nat) (x : FabPort) : (s.setFport j x).unrecoveredCnt = s.unrecoveredCnt := rfl
@[simp] theorem State.setFport_pending (j : Nat) (x : FabPort) : (s.setFport j x).pending = s.pending := rfl
@[simp] theorem State.setFport_drawn (j : Nat) (x : FabPort) : (s.setFport j x).drawn = s.drawn := rfl

/-! ### modTherm -/

@[simp] theorem State.modTherm_part (f : Therm → Therm) : (s.modTherm f).part = s.part := rfl
@[simp] theorem State.modTherm_flash (f : Therm → Therm) : (s.modTherm f).flash = s.flash := rfl
@[simp] theorem State.modTherm_health (f : Therm → Therm) : (s.modTherm f).health = s.health := rfl
@[simp] theorem State.modTherm_pins (f : Therm → Therm) : (s.modTherm f).pins = s.pins := rfl
@[simp] theorem State.modTherm_boot (f : Therm → Therm) : (s.modTherm f).boot = s.boot := rfl
@[simp] theorem State.modTherm_regs (f : Therm → Therm) : (s.modTherm f).regs = s.regs := rfl
@[simp] theorem State.modTherm_latches (f : Therm → Therm) : (s.modTherm f).latches = s.latches := rfl
@[simp] theorem State.modTherm_mem (f : Therm → Therm) : (s.modTherm f).mem = s.mem := rfl
@[simp] theorem State.modTherm_poison (f : Therm → Therm) : (s.modTherm f).poison = s.poison := rfl
@[simp] theorem State.modTherm_granules (f : Therm → Therm) : (s.modTherm f).granules = s.granules := rfl
@[simp] theorem State.modTherm_hmem (f : Therm → Therm) : (s.modTherm f).hmem = s.hmem := rfl
@[simp] theorem State.modTherm_cores (f : Therm → Therm) : (s.modTherm f).cores = s.cores := rfl
@[simp] theorem State.modTherm_roster (f : Therm → Therm) : (s.modTherm f).roster = s.roster := rfl
@[simp] theorem State.modTherm_halves (f : Therm → Therm) : (s.modTherm f).halves = s.halves := rfl
@[simp] theorem State.modTherm_mifs (f : Therm → Therm) : (s.modTherm f).mifs = s.mifs := rfl
@[simp] theorem State.modTherm_net (f : Therm → Therm) : (s.modTherm f).net = s.net := rfl
@[simp] theorem State.modTherm_host (f : Therm → Therm) : (s.modTherm f).host = s.host := rfl
@[simp] theorem State.modTherm_cmds (f : Therm → Therm) : (s.modTherm f).cmds = s.cmds := rfl
@[simp] theorem State.modTherm_nextCid (f : Therm → Therm) : (s.modTherm f).nextCid = s.nextCid := rfl
@[simp] theorem State.modTherm_parts (f : Therm → Therm) : (s.modTherm f).parts = s.parts := rfl
@[simp] theorem State.modTherm_fab (f : Therm → Therm) : (s.modTherm f).fab = s.fab := rfl
@[simp] theorem State.modTherm_power (f : Therm → Therm) : (s.modTherm f).power = s.power := rfl
@[simp] theorem State.modTherm_time (f : Therm → Therm) : (s.modTherm f).time = s.time := rfl
@[simp] theorem State.modTherm_lostRecs (f : Therm → Therm) : (s.modTherm f).lostRecs = s.lostRecs := rfl
@[simp] theorem State.modTherm_dbg (f : Therm → Therm) : (s.modTherm f).dbg = s.dbg := rfl
@[simp] theorem State.modTherm_mgmt (f : Therm → Therm) : (s.modTherm f).mgmt = s.mgmt := rfl
@[simp] theorem State.modTherm_recoveredCnt (f : Therm → Therm) : (s.modTherm f).recoveredCnt = s.recoveredCnt := rfl
@[simp] theorem State.modTherm_unrecoveredCnt (f : Therm → Therm) : (s.modTherm f).unrecoveredCnt = s.unrecoveredCnt := rfl
@[simp] theorem State.modTherm_pending (f : Therm → Therm) : (s.modTherm f).pending = s.pending := rfl
@[simp] theorem State.modTherm_drawn (f : Therm → Therm) : (s.modTherm f).drawn = s.drawn := rfl

/-! ### modHealth -/

@[simp] theorem State.modHealth_part (f : Health → Health) : (s.modHealth f).part = s.part := rfl
@[simp] theorem State.modHealth_flash (f : Health → Health) : (s.modHealth f).flash = s.flash := rfl
@[simp] theorem State.modHealth_pins (f : Health → Health) : (s.modHealth f).pins = s.pins := rfl
@[simp] theorem State.modHealth_boot (f : Health → Health) : (s.modHealth f).boot = s.boot := rfl
@[simp] theorem State.modHealth_regs (f : Health → Health) : (s.modHealth f).regs = s.regs := rfl
@[simp] theorem State.modHealth_latches (f : Health → Health) : (s.modHealth f).latches = s.latches := rfl
@[simp] theorem State.modHealth_mem (f : Health → Health) : (s.modHealth f).mem = s.mem := rfl
@[simp] theorem State.modHealth_poison (f : Health → Health) : (s.modHealth f).poison = s.poison := rfl
@[simp] theorem State.modHealth_granules (f : Health → Health) : (s.modHealth f).granules = s.granules := rfl
@[simp] theorem State.modHealth_hmem (f : Health → Health) : (s.modHealth f).hmem = s.hmem := rfl
@[simp] theorem State.modHealth_cores (f : Health → Health) : (s.modHealth f).cores = s.cores := rfl
@[simp] theorem State.modHealth_roster (f : Health → Health) : (s.modHealth f).roster = s.roster := rfl
@[simp] theorem State.modHealth_halves (f : Health → Health) : (s.modHealth f).halves = s.halves := rfl
@[simp] theorem State.modHealth_mifs (f : Health → Health) : (s.modHealth f).mifs = s.mifs := rfl
@[simp] theorem State.modHealth_net (f : Health → Health) : (s.modHealth f).net = s.net := rfl
@[simp] theorem State.modHealth_host (f : Health → Health) : (s.modHealth f).host = s.host := rfl
@[simp] theorem State.modHealth_cmds (f : Health → Health) : (s.modHealth f).cmds = s.cmds := rfl
@[simp] theorem State.modHealth_nextCid (f : Health → Health) : (s.modHealth f).nextCid = s.nextCid := rfl
@[simp] theorem State.modHealth_parts (f : Health → Health) : (s.modHealth f).parts = s.parts := rfl
@[simp] theorem State.modHealth_fab (f : Health → Health) : (s.modHealth f).fab = s.fab := rfl
@[simp] theorem State.modHealth_power (f : Health → Health) : (s.modHealth f).power = s.power := rfl
@[simp] theorem State.modHealth_therm (f : Health → Health) : (s.modHealth f).therm = s.therm := rfl
@[simp] theorem State.modHealth_time (f : Health → Health) : (s.modHealth f).time = s.time := rfl
@[simp] theorem State.modHealth_lostRecs (f : Health → Health) : (s.modHealth f).lostRecs = s.lostRecs := rfl
@[simp] theorem State.modHealth_dbg (f : Health → Health) : (s.modHealth f).dbg = s.dbg := rfl
@[simp] theorem State.modHealth_mgmt (f : Health → Health) : (s.modHealth f).mgmt = s.mgmt := rfl
@[simp] theorem State.modHealth_recoveredCnt (f : Health → Health) : (s.modHealth f).recoveredCnt = s.recoveredCnt := rfl
@[simp] theorem State.modHealth_unrecoveredCnt (f : Health → Health) : (s.modHealth f).unrecoveredCnt = s.unrecoveredCnt := rfl
@[simp] theorem State.modHealth_pending (f : Health → Health) : (s.modHealth f).pending = s.pending := rfl
@[simp] theorem State.modHealth_drawn (f : Health → Health) : (s.modHealth f).drawn = s.drawn := rfl

/-! ### modRoster -/

@[simp] theorem State.modRoster_part (f : Roster → Roster) : (s.modRoster f).part = s.part := rfl
@[simp] theorem State.modRoster_flash (f : Roster → Roster) : (s.modRoster f).flash = s.flash := rfl
@[simp] theorem State.modRoster_health (f : Roster → Roster) : (s.modRoster f).health = s.health := rfl
@[simp] theorem State.modRoster_pins (f : Roster → Roster) : (s.modRoster f).pins = s.pins := rfl
@[simp] theorem State.modRoster_boot (f : Roster → Roster) : (s.modRoster f).boot = s.boot := rfl
@[simp] theorem State.modRoster_regs (f : Roster → Roster) : (s.modRoster f).regs = s.regs := rfl
@[simp] theorem State.modRoster_latches (f : Roster → Roster) : (s.modRoster f).latches = s.latches := rfl
@[simp] theorem State.modRoster_mem (f : Roster → Roster) : (s.modRoster f).mem = s.mem := rfl
@[simp] theorem State.modRoster_poison (f : Roster → Roster) : (s.modRoster f).poison = s.poison := rfl
@[simp] theorem State.modRoster_granules (f : Roster → Roster) : (s.modRoster f).granules = s.granules := rfl
@[simp] theorem State.modRoster_hmem (f : Roster → Roster) : (s.modRoster f).hmem = s.hmem := rfl
@[simp] theorem State.modRoster_cores (f : Roster → Roster) : (s.modRoster f).cores = s.cores := rfl
@[simp] theorem State.modRoster_halves (f : Roster → Roster) : (s.modRoster f).halves = s.halves := rfl
@[simp] theorem State.modRoster_mifs (f : Roster → Roster) : (s.modRoster f).mifs = s.mifs := rfl
@[simp] theorem State.modRoster_net (f : Roster → Roster) : (s.modRoster f).net = s.net := rfl
@[simp] theorem State.modRoster_host (f : Roster → Roster) : (s.modRoster f).host = s.host := rfl
@[simp] theorem State.modRoster_cmds (f : Roster → Roster) : (s.modRoster f).cmds = s.cmds := rfl
@[simp] theorem State.modRoster_nextCid (f : Roster → Roster) : (s.modRoster f).nextCid = s.nextCid := rfl
@[simp] theorem State.modRoster_parts (f : Roster → Roster) : (s.modRoster f).parts = s.parts := rfl
@[simp] theorem State.modRoster_fab (f : Roster → Roster) : (s.modRoster f).fab = s.fab := rfl
@[simp] theorem State.modRoster_power (f : Roster → Roster) : (s.modRoster f).power = s.power := rfl
@[simp] theorem State.modRoster_therm (f : Roster → Roster) : (s.modRoster f).therm = s.therm := rfl
@[simp] theorem State.modRoster_time (f : Roster → Roster) : (s.modRoster f).time = s.time := rfl
@[simp] theorem State.modRoster_lostRecs (f : Roster → Roster) : (s.modRoster f).lostRecs = s.lostRecs := rfl
@[simp] theorem State.modRoster_dbg (f : Roster → Roster) : (s.modRoster f).dbg = s.dbg := rfl
@[simp] theorem State.modRoster_mgmt (f : Roster → Roster) : (s.modRoster f).mgmt = s.mgmt := rfl
@[simp] theorem State.modRoster_recoveredCnt (f : Roster → Roster) : (s.modRoster f).recoveredCnt = s.recoveredCnt := rfl
@[simp] theorem State.modRoster_unrecoveredCnt (f : Roster → Roster) : (s.modRoster f).unrecoveredCnt = s.unrecoveredCnt := rfl
@[simp] theorem State.modRoster_pending (f : Roster → Roster) : (s.modRoster f).pending = s.pending := rfl
@[simp] theorem State.modRoster_drawn (f : Roster → Roster) : (s.modRoster f).drawn = s.drawn := rfl

/-! ### modBoot -/

@[simp] theorem State.modBoot_part (f : Boot → Boot) : (s.modBoot f).part = s.part := rfl
@[simp] theorem State.modBoot_flash (f : Boot → Boot) : (s.modBoot f).flash = s.flash := rfl
@[simp] theorem State.modBoot_health (f : Boot → Boot) : (s.modBoot f).health = s.health := rfl
@[simp] theorem State.modBoot_pins (f : Boot → Boot) : (s.modBoot f).pins = s.pins := rfl
@[simp] theorem State.modBoot_regs (f : Boot → Boot) : (s.modBoot f).regs = s.regs := rfl
@[simp] theorem State.modBoot_latches (f : Boot → Boot) : (s.modBoot f).latches = s.latches := rfl
@[simp] theorem State.modBoot_mem (f : Boot → Boot) : (s.modBoot f).mem = s.mem := rfl
@[simp] theorem State.modBoot_poison (f : Boot → Boot) : (s.modBoot f).poison = s.poison := rfl
@[simp] theorem State.modBoot_granules (f : Boot → Boot) : (s.modBoot f).granules = s.granules := rfl
@[simp] theorem State.modBoot_hmem (f : Boot → Boot) : (s.modBoot f).hmem = s.hmem := rfl
@[simp] theorem State.modBoot_cores (f : Boot → Boot) : (s.modBoot f).cores = s.cores := rfl
@[simp] theorem State.modBoot_roster (f : Boot → Boot) : (s.modBoot f).roster = s.roster := rfl
@[simp] theorem State.modBoot_halves (f : Boot → Boot) : (s.modBoot f).halves = s.halves := rfl
@[simp] theorem State.modBoot_mifs (f : Boot → Boot) : (s.modBoot f).mifs = s.mifs := rfl
@[simp] theorem State.modBoot_net (f : Boot → Boot) : (s.modBoot f).net = s.net := rfl
@[simp] theorem State.modBoot_host (f : Boot → Boot) : (s.modBoot f).host = s.host := rfl
@[simp] theorem State.modBoot_cmds (f : Boot → Boot) : (s.modBoot f).cmds = s.cmds := rfl
@[simp] theorem State.modBoot_nextCid (f : Boot → Boot) : (s.modBoot f).nextCid = s.nextCid := rfl
@[simp] theorem State.modBoot_parts (f : Boot → Boot) : (s.modBoot f).parts = s.parts := rfl
@[simp] theorem State.modBoot_fab (f : Boot → Boot) : (s.modBoot f).fab = s.fab := rfl
@[simp] theorem State.modBoot_power (f : Boot → Boot) : (s.modBoot f).power = s.power := rfl
@[simp] theorem State.modBoot_therm (f : Boot → Boot) : (s.modBoot f).therm = s.therm := rfl
@[simp] theorem State.modBoot_time (f : Boot → Boot) : (s.modBoot f).time = s.time := rfl
@[simp] theorem State.modBoot_lostRecs (f : Boot → Boot) : (s.modBoot f).lostRecs = s.lostRecs := rfl
@[simp] theorem State.modBoot_dbg (f : Boot → Boot) : (s.modBoot f).dbg = s.dbg := rfl
@[simp] theorem State.modBoot_mgmt (f : Boot → Boot) : (s.modBoot f).mgmt = s.mgmt := rfl
@[simp] theorem State.modBoot_recoveredCnt (f : Boot → Boot) : (s.modBoot f).recoveredCnt = s.recoveredCnt := rfl
@[simp] theorem State.modBoot_unrecoveredCnt (f : Boot → Boot) : (s.modBoot f).unrecoveredCnt = s.unrecoveredCnt := rfl
@[simp] theorem State.modBoot_pending (f : Boot → Boot) : (s.modBoot f).pending = s.pending := rfl
@[simp] theorem State.modBoot_drawn (f : Boot → Boot) : (s.modBoot f).drawn = s.drawn := rfl

end Sys2Proof.Machine
end

