-- ==== Sys2Proof/Laws/Registers.lean ====
section
/-! SUPPORT. Device registers: bit fields, and a read after a write. -/

namespace Sys2Proof.Machine

/-! ## Bit fields -/

theorem testBit_fld (hi lo x i : Nat) : (fld hi lo x).testBit i = (decide (i < hi + 1 - lo) && x.testBit (lo + i)) := by
  rw [fld, Nat.testBit_mod_two_pow, Nat.testBit_div_two_pow, Nat.add_comm i lo]

theorem fld_lt (hi lo x : Nat) : fld hi lo x < 2 ^ (hi + 1 - lo) := Nat.mod_lt _ (by positivity)

theorem getF_lt (hi lo : Nat) (w : BitVec 32) : getF hi lo w < 2 ^ (hi + 1 - lo) := fld_lt _ _ _

/-- Bit i of a word after a field is set. -/
theorem getLsbD_setF (hi lo v : Nat) (w : BitVec 32) (i : Nat) (hi32 : hi < 32) :
    (setF hi lo v w).getLsbD i = if lo ≤ i ∧ i ≤ hi then v.testBit (i - lo) else w.getLsbD i := by
  by_cases h32 : i < 32
  · simp only [setF, BitVec.getLsbD_or, BitVec.getLsbD_and, BitVec.getLsbD_not, BitVec.getLsbD_shiftLeft, BitVec.getLsbD_ofNat,
      h32, decide_true, Bool.true_and, Nat.testBit_two_pow_sub_one]
    by_cases h1 : lo ≤ i
    · by_cases h2 : i ≤ hi
      · simp [h1, h2, show ¬ i < lo by omega, show i - lo < 32 by omega, show i - lo < hi + 1 - lo by omega]
      · simp [h1, h2, show ¬ i < lo by omega, show i - lo < 32 by omega, show ¬ i - lo < hi + 1 - lo by omega]
    · simp [h1, show i < lo by omega]
  · rw [BitVec.getLsbD_of_ge _ _ (by omega), if_neg (by omega), BitVec.getLsbD_of_ge _ _ (by omega)]

theorem testBit_getF (hi lo : Nat) (w : BitVec 32) (i : Nat) :
    (getF hi lo w).testBit i = (decide (i < hi + 1 - lo) && w.getLsbD (lo + i)) := by
  rw [getF, testBit_fld, BitVec.testBit_toNat]

/-- A field reads as what was set, modulo its width. -/
theorem getF_setF (hi lo v : Nat) (w : BitVec 32) (hi32 : hi < 32) :
    getF hi lo (setF hi lo v w) = v % 2 ^ (hi + 1 - lo) := by
  refine Nat.eq_of_testBit_eq fun i => ?_
  rw [testBit_getF, Nat.testBit_mod_two_pow, getLsbD_setF _ _ _ _ _ hi32]
  by_cases h : i < hi + 1 - lo
  · simp [h, show lo + i ≤ hi by omega]
  · simp [h]

/-- A field that does not meet the one set reads as before. -/
theorem getF_setF_of_disjoint (hi lo v hi' lo' : Nat) (w : BitVec 32) (hi32 : hi < 32) (h : hi' < lo ∨ hi < lo') :
    getF hi' lo' (setF hi lo v w) = getF hi' lo' w := by
  refine Nat.eq_of_testBit_eq fun i => ?_
  rw [testBit_getF, testBit_getF]
  by_cases hb : i < hi' + 1 - lo'
  · rw [getLsbD_setF _ _ _ _ _ hi32, if_neg (by omega)]
  · simp [hb]

/-! ## Registers -/

theorem State.rg_congr {s t : State} (h : t.regs = s.regs) (b : Blk) (o : Nat) : t.rg b o = s.rg b o := by
  rw [State.rg, State.rg, h]

theorem State.rgF_congr {s t : State} (h : t.regs = s.regs) (b : Blk) (o hi lo : Nat) : t.rgF b o hi lo = s.rgF b o hi lo := by
  rw [State.rgF, State.rgF, State.rg_congr h]

theorem State.rgB_congr {s t : State} (h : t.regs = s.regs) (b : Blk) (o i : Nat) : t.rgB b o i = s.rgB b o i := by
  rw [State.rgB, State.rgB, State.rg_congr h]

/-- A register reads as it was written, every other as before. -/
theorem State.rg_wg (s : State) (b b' : Blk) (o o' : Nat) (v : W32) :
    (s.wg b o v).rg b' o' = if b'.base + o' = b.base + o then v else s.rg b' o' := by
  by_cases h : b'.base + o' = b.base + o
  · simp [State.rg, State.wg, h]
  · simp only [State.rg, State.wg, if_neg h, mget, mset]
    split
    · rw [mfind_merase, if_neg h]
    · rw [mfind_mput, if_neg h]

@[simp] theorem State.rg_wg_self (s : State) (b : Blk) (o : Nat) (v : W32) : (s.wg b o v).rg b o = v := by
  rw [State.rg_wg, if_pos rfl]

theorem State.rg_wg_ne (s : State) {b b' : Blk} {o o' : Nat} (v : W32) (h : b'.base + o' ≠ b.base + o) :
    (s.wg b o v).rg b' o' = s.rg b' o' := by
  rw [State.rg_wg, if_neg h]

theorem State.rg_wgF (s : State) (b b' : Blk) (o o' hi lo v : Nat) :
    (s.wgF b o hi lo v).rg b' o' = if b'.base + o' = b.base + o then setF hi lo v (s.rg b o) else s.rg b' o' :=
  State.rg_wg s b b' o o' _

theorem State.rgF_wgF_self (s : State) (b : Blk) (o hi lo v : Nat) (h : hi < 32) :
    (s.wgF b o hi lo v).rgF b o hi lo = v % 2 ^ (hi + 1 - lo) := by
  rw [State.rgF, State.rg_wgF, if_pos rfl, getF_setF _ _ _ _ h]

theorem State.rgF_wgF_of_disjoint (s : State) (b : Blk) (o hi lo v hi' lo' : Nat) (h32 : hi < 32) (h : hi' < lo ∨ hi < lo') :
    (s.wgF b o hi lo v).rgF b o hi' lo' = s.rgF b o hi' lo' := by
  rw [State.rgF, State.rg_wgF, if_pos rfl, getF_setF_of_disjoint _ _ _ _ _ _ h32 h, State.rgF]

theorem State.rgF_wgF_ne (s : State) {b b' : Blk} {o o' : Nat} (hi lo v hi' lo' : Nat) (h : b'.base + o' ≠ b.base + o) :
    (s.wgF b o hi lo v).rgF b' o' hi' lo' = s.rgF b' o' hi' lo' := by
  rw [State.rgF, State.rg_wgF, if_neg h, State.rgF]

theorem State.rgB_wgB_self (s : State) (b : Blk) (o i : Nat) (v : Bool) (h : i < 32) : (s.wgB b o i v).rgB b o i = v := by
  rw [State.rgB, State.wgB, State.rg_wgF, if_pos rfl, getLsbD_setF _ _ _ _ _ h]
  cases v <;> simp

theorem State.rgB_wgB_ne_bit (s : State) (b : Blk) (o i j : Nat) (v : Bool) (h : i < 32) (hj : j ≠ i) :
    (s.wgB b o i v).rgB b o j = s.rgB b o j := by
  rw [State.rgB, State.wgB, State.rg_wgF, if_pos rfl, getLsbD_setF _ _ _ _ _ h, if_neg (by omega), State.rgB]

theorem State.rg64_wg64_self (s : State) (b : Blk) (o v : Nat) : (s.wg64 b o v).rg64 b o = v % 2 ^ 64 := by
  rw [State.rg64, State.wg64, State.rg_wg_ne _ _ (by omega), State.rg_wg_self, State.rg_wg_self]
  simp only [BitVec.toNat_ofNat]
  rw [show (2 : Nat) ^ 64 = 2 ^ 32 * 2 ^ 32 by norm_num, Nat.mod_mul]

/-- A register beside the two words that are written reads as before. -/
theorem State.rg_wg64_ne (s : State) {b b' : Blk} {o o' : Nat} (v : Nat) (h1 : b'.base + o' ≠ b.base + o)
    (h2 : b'.base + o' ≠ b.base + (o + 4)) : (s.wg64 b o v).rg b' o' = s.rg b' o' := by
  rw [State.wg64, State.rg_wg_ne _ _ h2, State.rg_wg_ne _ _ h1]

/-- After reset every register reads as the Reset column has it. -/
theorem State.rg_reset (b : Blk) (o : Nat) : State.reset.rg b o = regReset (b.base + o) := rfl

end Sys2Proof.Machine
end

