-- ==== Sys2Proof/Laws/Counters.lean ====
section
/-! SUPPORT. Counters and trace records: everything that a count, its flag and its records can change. -/

namespace Sys2Proof.Machine

open Sys2Proof.Claims (TraceOff)

/-- Between s and t only registers, memory with its marks, the hosts' memory and the counts of lost records differ. -/
def State.OnlyTraced (s t : State) : Prop :=
  t = { s with regs := t.regs, mem := t.mem, poison := t.poison, hmem := t.hmem, lostRecs := t.lostRecs }

/-- Between s and t only registers differ. -/
def State.OnlyRegs (s t : State) : Prop := t = { s with regs := t.regs }

theorem State.OnlyTraced.refl (s : State) : s.OnlyTraced s := rfl

theorem State.OnlyTraced.trans {s t u : State} (h : s.OnlyTraced t) (k : t.OnlyTraced u) : s.OnlyTraced u := by
  unfold State.OnlyTraced at *; rw [k, h]

theorem State.OnlyRegs.refl (s : State) : s.OnlyRegs s := rfl

theorem State.OnlyRegs.trans {s t u : State} (h : s.OnlyRegs t) (k : t.OnlyRegs u) : s.OnlyRegs u := by
  unfold State.OnlyRegs at *; rw [k, h]

theorem State.OnlyRegs.traced {s t : State} (h : s.OnlyRegs t) : s.OnlyTraced t := by
  unfold State.OnlyRegs at h; unfold State.OnlyTraced; rw [h]

theorem State.OnlyRegs.memOk {s t : State} (h : s.OnlyRegs t) (hs : s.MemOk) : t.MemOk := by
  unfold State.OnlyRegs at h; rw [h]; exact hs

theorem State.onlyRegs_wg (s : State) (b : Blk) (o : Nat) (v : W32) : s.OnlyRegs (s.wg b o v) := rfl

theorem State.onlyRegs_wg64 (s : State) (b : Blk) (o v : Nat) : s.OnlyRegs (s.wg64 b o v) := rfl

theorem State.onlyRegs_setFlag (s : State) (b : Blk) (o : Nat) : s.OnlyRegs (s.setFlag b o) := by
  simp [State.OnlyRegs, State.setFlag]

theorem State.onlyTraced_store (s : State) (a : Nat) (bs : List Byte) (p : Bool) : s.OnlyTraced (s.store a bs p) := rfl

theorem State.onlyTraced_hostStore (s : State) (port a : Nat) (bs : List Byte) : s.OnlyTraced (s.hostStore port a bs) := rfl

/-! ## Counts -/

/-- An event counter and its flag are registers. -/
theorem State.onlyRegs_count (s : State) (b : Blk) (o n : Nat) : s.OnlyRegs (s.count b o n).1 := by
  simp only [State.count]
  split
  · exact .refl s
  · split
    · exact s.onlyRegs_wg b o _
    · exact (s.onlyRegs_wg b o _).trans (State.onlyRegs_setFlag _ b o)

/-- A 64-bit counter and its flag are registers. -/
theorem State.onlyRegs_count64 (s : State) (b : Blk) (o n : Nat) : s.OnlyRegs (s.count64 b o n).1 := by
  simp only [State.count64]
  split
  · exact s.onlyRegs_wg64 b o _
  · exact (s.onlyRegs_wg64 b o _).trans (State.onlyRegs_setFlag _ b o)

/-- A count that does not saturate writes the sum and raises nothing. -/
theorem State.count_of_lt (s : State) (b : Blk) (o n : Nat) (hn : n ≠ 0) (h : (s.rg b o).toNat + n < 0xFFFFFFFF) :
    s.count b o n = (s.wg b o (BitVec.ofNat 32 ((s.rg b o).toNat + n)), false) := by
  simp [State.count, hn, h]

/-- A 64-bit count that does not wrap writes the sum and raises nothing. -/
theorem State.count64_of_lt (s : State) (b : Blk) (o n : Nat) (h : s.rg64 b o + n < 2 ^ 64) :
    s.count64 b o n = (s.wg64 b o (s.rg64 b o + n), false) := by
  simp only [State.count64]; rw [if_pos h]

/-- An event counter takes n more where it does not saturate. -/
theorem State.toNat_rg_count (s : State) (b : Blk) (o n : Nat) (h : (s.rg b o).toNat + n < 0xFFFFFFFF) :
    ((s.count b o n).1.rg b o).toNat = (s.rg b o).toNat + n := by
  by_cases hn : n = 0
  · simp [State.count, hn]
  · rw [State.count_of_lt s b o n hn h, State.rg_wg_self, BitVec.toNat_ofNat, Nat.mod_eq_of_lt (by omega)]

/-! ## Records -/

theorem State.onlyTraced_putRecord (s : State) (r : Nat) (bs : List Byte) : s.OnlyTraced (s.putRecord r bs) := by
  simp only [State.putRecord]
  split
  · exact (s.onlyTraced_hostStore _ _ _).trans (State.onlyRegs_wg _ _ _ _).traced
  · exact (s.onlyTraced_store _ _ _).trans (State.onlyRegs_wg _ _ _ _).traced

theorem State.MemOk.putRecord {s : State} (h : s.MemOk) (r : Nat) (bs : List Byte) : (s.putRecord r bs).MemOk := by
  simp only [State.putRecord]
  split
  · exact (State.onlyRegs_wg _ _ _ _).memOk (h.hostStore _ _ _)
  · exact (State.onlyRegs_wg _ _ _ _).memOk (h.store _ _ _)

theorem State.onlyTraced_ringLost (s : State) (r : Nat) : s.OnlyTraced (s.ringLost r) := by
  simp only [State.ringLost]
  split
  · exact (s.onlyTraced_putRecord r _).trans rfl
  · exact .refl s

theorem State.MemOk.ringLost {s : State} (h : s.MemOk) (r : Nat) : (s.ringLost r).MemOk := by
  simp only [State.ringLost]
  split
  · exact (h.putRecord r _).of_eq rfl rfl rfl
  · exact h

theorem State.onlyTraced_ringOne (s : State) (j : Job) : s.OnlyTraced (s.ringOne j).1 := by
  simp only [State.ringOne]
  split
  · exact .refl s
  · split
    · exact (s.onlyTraced_ringLost _).trans (State.onlyTraced_putRecord _ _ _)
    · exact (((s.onlyTraced_ringLost _).trans (State.onlyRegs_count _ _ _ _).traced).trans
        (State.onlyRegs_count _ _ _ _).traced).trans rfl

theorem State.MemOk.ringOne {s : State} (h : s.MemOk) (j : Job) : (s.ringOne j).1.MemOk := by
  simp only [State.ringOne]
  split
  · exact h
  · split
    · exact (h.ringLost _).putRecord _ _
    · exact ((State.onlyRegs_count _ _ _ _).memOk ((State.onlyRegs_count _ _ _ _).memOk (h.ringLost _))).of_eq rfl rfl rfl

theorem State.onlyTraced_rings (f : Nat) (s : State) (js : List Job) : s.OnlyTraced (State.rings f s js) := by
  induction f generalizing s js with
  | zero => exact .refl s
  | succ f ih =>
    cases js with
    | nil => exact .refl s
    | cons j js => exact (s.onlyTraced_ringOne j).trans (ih _ _)

theorem State.MemOk.rings (f : Nat) {s : State} (h : s.MemOk) (js : List Job) : (State.rings f s js).MemOk := by
  induction f generalizing s js with
  | zero => exact h
  | succ f ih =>
    cases js with
    | nil => exact h
    | cons j js => exact ih (h.ringOne j) _

/-- Records change registers, memory with its marks, the hosts' memory and the counts of lost records only. -/
theorem State.onlyTraced_trace (s : State) (js : List Job) : s.OnlyTraced (s.trace js) := State.onlyTraced_rings 100 s js

theorem State.MemOk.trace {s : State} (h : s.MemOk) (js : List Job) : (s.trace js).MemOk := State.MemOk.rings 100 h js

/-- With no ring running, records change nothing. -/
theorem State.trace_of_off {s : State} (h : TraceOff s) (js : List Job) : s.trace js = s := by
  have one : ∀ j, s.ringOne j = (s, []) := by
    rintro ⟨r, mask, bs⟩
    have : s.ringTakes r mask = false := by
      by_cases hr : r < 17
      · simp [State.ringTakes, h r hr]
      · simp [State.ringTakes, hr]
    simp [State.ringOne, this]
  have all : ∀ f js, State.rings f s js = s := by
    intro f
    induction f with
    | zero => intro js; rfl
    | succ f ih =>
      intro js
      cases js with
      | nil => rfl
      | cons j js => simp [State.rings, one, ih]
  exact all 100 js

/-! ## Counts with their records -/

/-- A count with its flag and records changes registers, memory with its marks, the hosts' memory and the counts of lost records
only. -/
theorem State.onlyTraced_bump (s : State) (b : Blk) (o n : Nat) : s.OnlyTraced (s.bump b o n) := by
  simp only [State.bump]
  split
  · exact (s.onlyRegs_count b o n).traced.trans (State.onlyTraced_trace _ _)
  · exact (s.onlyRegs_count b o n).traced

theorem State.onlyTraced_bump64 (s : State) (b : Blk) (o n : Nat) : s.OnlyTraced (s.bump64 b o n) := by
  simp only [State.bump64]
  split
  · exact (s.onlyRegs_count64 b o n).traced.trans (State.onlyTraced_trace _ _)
  · exact (s.onlyRegs_count64 b o n).traced

theorem State.MemOk.bump {s : State} (h : s.MemOk) (b : Blk) (o n : Nat) : (s.bump b o n).MemOk := by
  simp only [State.bump]
  split
  · exact ((s.onlyRegs_count b o n).memOk h).trace _
  · exact (s.onlyRegs_count b o n).memOk h

theorem State.MemOk.bump64 {s : State} (h : s.MemOk) (b : Blk) (o n : Nat) : (s.bump64 b o n).MemOk := by
  simp only [State.bump64]
  split
  · exact ((s.onlyRegs_count64 b o n).memOk h).trace _
  · exact (s.onlyRegs_count64 b o n).memOk h

/-- With no ring running after the count, only registers change. -/
theorem State.bump_of_off {s : State} {b : Blk} {o n : Nat} (h : TraceOff (s.count b o n).1) :
    s.bump b o n = (s.count b o n).1 := by
  simp only [State.bump]; split
  · exact State.trace_of_off h _
  · rfl

theorem State.bump64_of_off {s : State} {b : Blk} {o n : Nat} (h : TraceOff (s.count64 b o n).1) :
    s.bump64 b o n = (s.count64 b o n).1 := by
  simp only [State.bump64]; split
  · exact State.trace_of_off h _
  · rfl

/-- A count that does not saturate writes one register. -/
theorem State.bump_of_lt (s : State) (b : Blk) (o n : Nat) (hn : n ≠ 0) (h : (s.rg b o).toNat + n < 0xFFFFFFFF) :
    s.bump b o n = s.wg b o (BitVec.ofNat 32 ((s.rg b o).toNat + n)) := by
  simp [State.bump, State.count_of_lt s b o n hn h]

/-- A 64-bit count that does not wrap writes two registers. -/
theorem State.bump64_of_lt (s : State) (b : Blk) (o n : Nat) (h : s.rg64 b o + n < 2 ^ 64) :
    s.bump64 b o n = s.wg64 b o (s.rg64 b o + n) := by
  simp [State.bump64, State.count64_of_lt s b o n h]

theorem State.MemOk.tracePart {s : State} (h : s.MemOk) (stack p mask typ site : Nat) (pay : List Byte) :
    (s.tracePart stack p mask typ site pay).MemOk := h.trace _

theorem State.MemOk.traceAdmin {s : State} (h : s.MemOk) (stack mask typ site : Nat) (pay : List Byte) :
    (s.traceAdmin stack mask typ site pay).MemOk := h.trace _

theorem State.MemOk.traceEvery {s : State} (h : s.MemOk) (mask : Nat) (bs : List Byte) : (s.traceEvery mask bs).MemOk :=
  h.trace _

theorem State.MemOk.hostRx {s : State} (h : s.MemOk) (port n : Nat) : (s.hostRx port n).MemOk := (h.bump64 _ _ _).bump64 _ _ _

theorem State.MemOk.hostTx {s : State} (h : s.MemOk) (port n : Nat) : (s.hostTx port n).MemOk := (h.bump64 _ _ _).bump64 _ _ _

end Sys2Proof.Machine
end

