-- ==== Sys2Proof/Laws/Issue.lean ====
section
/-! SUPPORT. The issue of a thread instruction: everything that the shared operation can do, and what a group holds after it. -/

namespace Sys2Proof.Machine

open Sys2Proof.Claims

/-! ## The causes of R141 -/

/-- Where the group fetches, no breakpoint holds it and the index and the word are good: what is left is the guard and its
consequences. -/
theorem runThread_of_fetches {w : At} {s : State} {c : Ctx} (n : Need) (body : Ctx → List Nat → State) (h : Fetches s w c) :
    runThread w s n body =
      if n.legal && n.regs.any (fun r => (s.awaited w.site w.slot).contains r) then .next s
      else match c.lanes n.pg n.pn with
      | [] => .next (s.put c (c.grp.advance c.path c.low c.pc))
      | l :: ls =>
        if !n.legal then .next (s.raise c 0x01 l 0)
        else match c.eater (l :: ls) n.eats with
          | some e => .next (s.consume c e)
          | none => if n.regs.any c.badReg then .next (s.raise c 0x02 l 0) else .next (body c (l :: ls)) := by
  obtain ⟨h1, h2, h3, h4, h5, h6⟩ := h
  have hbp : (if c.grp.bpSkip || s.halted w.site w.slot then none else s.breakpoint c) = none := by
    rcases h4 with h | h | h
    · simp [h]
    · simp [h]
    · split <;> simp [h]
  simp only [runThread, if_neg (show ¬ (s.sites ≤ w.site ∨ 64 ≤ w.slot) by omega), h3, hbp,
    if_neg (show ¬ c.cmd.codeLen ≤ c.pc by omega), if_neg (show ¬ s.codePoisoned c = true by simp [h6])] <;> rfl

/-- An instruction that issues has its own effect. -/
theorem runThread_of_issues {w : At} {s : State} {n : Need} {c : Ctx} {ls : List Nat} (body : Ctx → List Nat → State)
    (h : Issues s w n c ls) : runThread w s n body = .next (body c ls) := by
  obtain ⟨hf, hl, hne, hleg, haw, heat, hbad⟩ := h
  rw [runThread_of_fetches n body hf, hl]
  cases ls with
  | nil => exact absurd rfl hne
  | cons l ls => simp only [hleg, haw, heat, hbad]; simp

/-- With no thread whose guard passes the path only moves on, once no register that the instruction names is awaited. -/
theorem runThread_of_no_lane {w : At} {s : State} {c : Ctx} (n : Need) (body : Ctx → List Nat → State) (h : Fetches s w c)
    (hw : (n.regs.any fun r => (s.awaited w.site w.slot).contains r) = false) (hl : c.lanes n.pg n.pn = []) :
    runThread w s n body = .next (s.put c (c.grp.advance c.path c.low c.pc)) := by
  rw [runThread_of_fetches n body h, hl, hw]; simp

/-- A reserved field that is broken takes the illegal-instruction exception in the lowest thread whose guard passes. -/
theorem runThread_of_illegal {w : At} {s : State} {c : Ctx} (n : Need) (body : Ctx → List Nat → State) {l : Nat} {ls : List Nat}
    (h : Fetches s w c) (hl : c.lanes n.pg n.pn = l :: ls) (hn : n.legal = false) :
    runThread w s n body = .next (s.raise c 0x01 l 0) := by
  rw [runThread_of_fetches n body h, hl]; simp [hn]

/-- An index beyond the code takes the address-range exception whatever the instruction. -/
theorem runThread_beyond_code {w : At} {s : State} {c : Ctx} (n : Need) (body : Ctx → List Nat → State) (h1 : w.site < s.sites)
    (h2 : w.slot < 64) (h3 : s.issueCtx w = some c)
    (h4 : c.grp.bpSkip = true ∨ s.halted w.site w.slot = true ∨ s.breakpoint c = none) (h5 : c.cmd.codeLen ≤ c.pc) :
    runThread w s n body = .next (s.raise c 0x04 c.low 0) := by
  have hbp : (if c.grp.bpSkip || s.halted w.site w.slot then none else s.breakpoint c) = none := by
    rcases h4 with h | h | h
    · simp [h]
    · simp [h]
    · split <;> simp [h]
  simp only [runThread, if_neg (show ¬ (s.sites ≤ w.site ∨ 64 ≤ w.slot) by omega), h3, hbp, if_pos h5]

/-- The whole of what the shared operation can answer. -/
theorem runThread_cases {w : At} {s : State} {n : Need} {body : Ctx → List Nat → State} {o : Out} (h : runThread w s n body = o) :
    o = .next s ∨
    ∃ c, s.issueCtx w = some c ∧
      ((∃ i, o = .next (s.hitHalt w.site w.slot i false)) ∨ (∃ code l, o = .next (s.raise c code l 0)) ∨
       (∃ l, o = .next (s.consume c l)) ∨ o = .next (s.put c (c.grp.advance c.path c.low c.pc)) ∨
       ∃ ls, ls ≠ [] ∧ c.lanes n.pg n.pn = ls ∧ o = .next (body c ls)) := by
  subst h
  unfold runThread
  split
  · exact .inl rfl
  · split
    · exact .inl rfl
    · rename_i c hc
      split
      · exact .inr ⟨c, hc, .inl ⟨_, rfl⟩⟩
      · split
        · exact .inr ⟨c, hc, .inr (.inl ⟨_, _, rfl⟩)⟩
        · split
          · exact .inr ⟨c, hc, .inr (.inr (.inl ⟨_, rfl⟩))⟩
          · split
            · exact .inl rfl
            · split
              · exact .inr ⟨c, hc, .inr (.inr (.inr (.inl rfl)))⟩
              · rename_i l ls hl
                split
                · exact .inr ⟨c, hc, .inr (.inl ⟨_, _, rfl⟩)⟩
                · split
                  · exact .inr ⟨c, hc, .inr (.inr (.inl ⟨_, rfl⟩))⟩
                  · split
                    · exact .inr ⟨c, hc, .inr (.inl ⟨_, _, rfl⟩)⟩
                    · exact .inr ⟨c, hc, .inr (.inr (.inr (.inr ⟨l :: ls, by simp, hl, rfl⟩)))⟩

/-- What a context holds of the state it was taken from. -/
theorem State.issueCtx_eq {s : State} {w : At} {c : Ctx} (h : s.issueCtx w = some c) :
    c.site = w.site ∧ c.slot = w.slot ∧ c.core = s.core w.site ∧ mfind (s.core w.site).groups w.slot = some c.grp ∧
    mfind (s.core w.site).blocks c.grp.blk = some c.blk ∧ s.cmd? c.blk.cid = some c.cmd ∧ s.mayIssue c.cmd c.blk = true ∧
    c.path = c.grp.pathAt c.pc ∧ c.grp.stopped = false ∧ c.grp.espWait = false := by
  simp only [State.issueCtx] at h
  split at h
  · cases h
  · rename_i g hg
    split at h
    · cases h
    · rename_i b hb
      split at h
      · rename_i k low hk hlow
        split at h
        · rename_i hc
          simp only [Option.some.injEq] at h
          subst h
          simp only [Bool.and_eq_true, Bool.not_eq_true'] at hc
          exact ⟨rfl, rfl, rfl, hg, hb, hk, hc.1.1.1.1, rfl, hc.1.1.1.2, hc.1.1.2⟩
        · cases h
      · cases h

/-! ## Groups -/

theorem Group.th_modTh (g : Group) (l k : Nat) (f : Thread → Thread) (h : l < g.threads.length) :
    (g.modTh l f).th k = if k = l then f (g.th l) else g.th k := nth_setNth _ _ _ _ _ h

@[simp] theorem Group.threads_length_modTh (g : Group) (l : Nat) (f : Thread → Thread) :
    (g.modTh l f).threads.length = g.threads.length := length_setNth _ _ _

/-- A lane that runs lies among the threads. -/
theorem Group.lt_length_of_runs {g : Group} {l : Nat} (h : g.runs l = true) : l < g.threads.length := by
  by_contra hl
  rw [Group.runs, Group.th, nth_of_length_le _ _ _ (not_lt.mp hl)] at h
  exact absurd h (by decide)

theorem Group.mem_pathAt {g : Group} {pc l : Nat} : l ∈ g.pathAt pc ↔ l < 32 ∧ g.runs l = true ∧ (g.th l).pc = pc := by
  simp [Group.pathAt]

/-- A register of a lane after a thread register is written. -/
theorem Group.reg_setV (g : Group) (l n : Nat) (v : W32) (p : Bool) (k r : Nat) (hl : l < g.threads.length) (hn : n < 256) :
    (g.setV l n v p).reg k r = if k = l ∧ r = n ∧ n ≠ 255 then v else g.reg k r := by
  unfold Group.setV
  by_cases h255 : n = 255
  · simp [h255]
  · simp only [if_neg h255, Group.reg]
    by_cases hr : 256 ≤ r
    · rw [if_pos hr, if_pos hr, if_neg (by omega)]; rfl
    · rw [if_neg hr, if_neg hr]
      by_cases hr5 : r = 255
      · rw [if_pos hr5, if_pos hr5, if_neg (by omega)]
      · rw [if_neg hr5, if_neg hr5, Group.th_modTh _ _ _ _ hl]
        by_cases hk : k = l
        · subst hk
          simp only [if_true, mget_mset]
          by_cases hrn : r = n <;> simp [hrn, h255]
        · simp [hk]

/-- A register of a lane after a uniform register is written. -/
theorem Group.reg_setU (g : Group) (n : Nat) (v : W32) (p : Bool) (k r : Nat) :
    (g.setU n v p).reg k r = if r = 256 + n then v else g.reg k r := by
  unfold Group.reg
  by_cases hr : 256 ≤ r
  · simp only [Group.setU, if_pos hr, mget_mset]
    by_cases h : r = 256 + n
    · rw [if_pos (by omega), if_pos h]
    · rw [if_neg (by omega), if_neg h]
  · rw [if_neg hr, if_neg hr, if_neg (show ¬ r = 256 + n by omega)]; rfl

/-- A predicate of a lane after one is written. -/
theorem Group.pred_setPred (g : Group) (l n : Nat) (b : Bool) (k m : Nat) (hl : l < g.threads.length) (hn : n < 8) :
    (g.setPred l n b).pred k m = if k = l ∧ m = n ∧ n ≠ 7 then b else g.pred k m := by
  unfold Group.setPred
  by_cases h7 : n = 7
  · simp [h7]
  · simp only [if_neg h7, Group.pred]
    by_cases hm : m = 7
    · rw [if_pos hm, if_pos hm, if_neg (by omega)]
    · rw [if_neg hm, if_neg hm, Group.th_modTh _ _ _ _ hl]
      by_cases hk : k = l
      · subst hk
        simp only [if_true, setPredBit]
        by_cases hmn : m = n
        · subst hmn
          have : m < 7 := by omega
          cases b <;> simp [h7, this]
        · by_cases hm7 : m < 7
          · cases b <;> simp [hmn, hm7] <;> omega
          · rw [BitVec.getLsbD_of_ge _ _ (by omega), if_neg (by omega), BitVec.getLsbD_of_ge _ _ (by omega)]
      · simp [hk]

/-! ## Cores, commands -/

@[simp] theorem State.core_setCore (s : State) (i j : Nat) (k : Core) : (s.setCore i k).core j = if j = i then k else s.core j := by
  simp [State.core, State.setCore]

theorem State.core_modCore (s : State) (i j : Nat) (f : Core → Core) :
    (s.modCore i f).core j = if j = i then f (s.core i) else s.core j := State.core_setCore _ _ _ _

theorem State.core_congr {s t : State} (h : t.cores = s.cores) (j : Nat) : t.core j = s.core j := by
  rw [State.core, State.core, h]

/-- The stall timers leave the groups. -/
@[simp] theorem Core.stalled_groups (k : Core) (halted : Nat → Bool) (n : Nat) : (k.stalled halted n).groups = k.groups := rfl

/-- What one issue changes beside the group: the round robin of the core, and registers with their records. -/
theorem State.groupAt_put (s : State) (c : Ctx) (g : Group) (h : mfind (s.core c.site).groups c.slot = some c.grp) :
    groupAt (s.put c g) c = some { g with bpSkip := false } := by
  have key : ∀ (t : State) b o n b' o' n', ((t.bump64 b o n).bump64 b' o' n').cores = t.cores := by
    intro t b o n b' o' n'
    have h := (t.onlyTraced_bump64 b o n).trans (State.onlyTraced_bump64 _ b' o' n')
    unfold State.OnlyTraced at h; rw [h]
  have hw : ∀ (t : State) b o i v, (t.wgB b o i v).core c.site = t.core c.site := fun _ _ _ _ _ => State.core_congr rfl _
  unfold groupAt State.put State.issued
  rw [State.core_congr (key _ _ _ _ _ _ _), State.modGroup, State.core_modCore, if_pos rfl]
  split
  · rw [hw]; simp [State.modGroup, State.core_modCore, h]
  · simp [State.modGroup, State.core_modCore, h]

end Sys2Proof.Machine
end

