-- ==== Sys2Proof/Laws/Records.lean ====
section
/-! SUPPORT. Commands, requests, halves, interfaces, queues and ports: a read after a write, and how a command ends. -/

namespace Sys2Proof.Machine

open Sys2Proof.Claims

/-! ## Updates that leave memory alone keep its form -/

theorem State.MemOk.ite {p : Prop} [Decidable p] {s t : State} (hs : s.MemOk) (ht : t.MemOk) : (if p then s else t).MemOk := by
  split <;> assumption

theorem State.MemOk.wg {s : State} (h : s.MemOk) (b : Blk) (o : Nat) (v : W32) : (s.wg b o v).MemOk := h.of_eq rfl rfl rfl
theorem State.MemOk.wgF {s : State} (h : s.MemOk) (b : Blk) (o hi lo v : Nat) : (s.wgF b o hi lo v).MemOk := h.of_eq rfl rfl rfl
theorem State.MemOk.wgB {s : State} (h : s.MemOk) (b : Blk) (o i : Nat) (v : Bool) : (s.wgB b o i v).MemOk := h.of_eq rfl rfl rfl
theorem State.MemOk.wg64 {s : State} (h : s.MemOk) (b : Blk) (o v : Nat) : (s.wg64 b o v).MemOk := h.of_eq rfl rfl rfl
theorem State.MemOk.setReg {s : State} (h : s.MemOk) (r hi lo v : Nat) : (s.setReg r hi lo v).MemOk := h.wgF _ _ _ _ _
theorem State.MemOk.setHome {s : State} (h : s.MemOk) (hf i v : Nat) : (s.setHome hf i v).MemOk := h.wgF _ _ _ _ _
theorem State.MemOk.setPort {s : State} (h : s.MemOk) (p : Nat) (x : Port) : (s.setPort p x).MemOk := h.of_eq rfl rfl rfl
theorem State.MemOk.setQueue {s : State} (h : s.MemOk) (p q : Nat) (x : Queue) : (s.setQueue p q x).MemOk := h.of_eq rfl rfl rfl
theorem State.MemOk.setCmd {s : State} (h : s.MemOk) (c : Cmd) : (s.setCmd c).MemOk := h.of_eq rfl rfl rfl
theorem State.MemOk.modCmd {s : State} (h : s.MemOk) (cid : Nat) (f : Cmd → Cmd) : (s.modCmd cid f).MemOk := h.of_eq rfl rfl rfl
theorem State.MemOk.setCore {s : State} (h : s.MemOk) (i : Nat) (c : Core) : (s.setCore i c).MemOk := h.of_eq rfl rfl rfl
theorem State.MemOk.modCore {s : State} (h : s.MemOk) (i : Nat) (f : Core → Core) : (s.modCore i f).MemOk := h.of_eq rfl rfl rfl
theorem State.MemOk.modGroup {s : State} (h : s.MemOk) (site slot : Nat) (f : Group → Group) : (s.modGroup site slot f).MemOk := h.of_eq rfl rfl rfl
theorem State.MemOk.modBlock {s : State} (h : s.MemOk) (site b : Nat) (f : Block → Block) : (s.modBlock site b f).MemOk := h.of_eq rfl rfl rfl
theorem State.MemOk.setHalf {s : State} (h : s.MemOk) (hf : Nat) (x : Half) : (s.setHalf hf x).MemOk := h.of_eq rfl rfl rfl
theorem State.MemOk.modHalf {s : State} (h : s.MemOk) (hf : Nat) (f : Half → Half) : (s.modHalf hf f).MemOk := h.of_eq rfl rfl rfl
theorem State.MemOk.setMif {s : State} (h : s.MemOk) (d : Nat) (x : Mif) : (s.setMif d x).MemOk := h.of_eq rfl rfl rfl
theorem State.MemOk.setReq {s : State} (h : s.MemOk) (r : Req) : (s.setReq r).MemOk := h.of_eq rfl rfl rfl
theorem State.MemOk.setFport {s : State} (h : s.MemOk) (j : Nat) (x : FabPort) : (s.setFport j x).MemOk := h.of_eq rfl rfl rfl
theorem State.MemOk.modTherm {s : State} (h : s.MemOk) (f : Therm → Therm) : (s.modTherm f).MemOk := h.of_eq rfl rfl rfl
theorem State.MemOk.modHealth {s : State} (h : s.MemOk) (f : Health → Health) : (s.modHealth f).MemOk := h.of_eq rfl rfl rfl
theorem State.MemOk.modRoster {s : State} (h : s.MemOk) (f : Roster → Roster) : (s.modRoster f).MemOk := h.of_eq rfl rfl rfl
theorem State.MemOk.modBoot {s : State} (h : s.MemOk) (f : Boot → Boot) : (s.modBoot f).MemOk := h.of_eq rfl rfl rfl
theorem State.MemOk.setFlag {s : State} (h : s.MemOk) (b : Blk) (o : Nat) : (s.setFlag b o).MemOk :=
  (s.onlyRegs_setFlag b o).memOk h

/-! ## Lists searched by a number -/

theorem find?_map_key {α : Type} (key : α → Nat) (l : List α) (i j : Nat) (f : α → α) (hf : ∀ x, key x = i → key (f x) = i) :
    (l.map (fun x => if key x = i then f x else x)).find? (fun x => key x == j) =
      if j = i then (l.find? (fun x => key x == i)).map f else l.find? (fun x => key x == j) := by
  induction l with
  | nil => simp
  | cons x l ih =>
    simp only [List.map_cons, List.find?_cons, ih]
    by_cases hx : key x = i
    · by_cases hj : j = i
      · subst hj; simp [hx, hf x hx]
      · have : (i == j) = false := by simpa using Ne.symm hj
        simp [hx, hf x hx, hj, this]
    · by_cases hj : j = i
      · have : (key x == j) = false := by simpa [hj] using hx
        subst hj; simp [hx, this]
      · simp [hx, hj]

theorem find?_filter_key {α : Type} (key : α → Nat) (l : List α) (i j : Nat) :
    (l.filter (fun x => key x != i)).find? (fun x => key x == j) =
      if j = i then none else l.find? (fun x => key x == j) := by
  induction l with
  | nil => simp
  | cons x l ih =>
    by_cases hx : key x = i
    · simp only [List.filter_cons, hx, bne_self_eq_false, Bool.false_eq_true, if_false, ih, List.find?_cons]
      by_cases hj : j = i
      · simp [hj]
      · have : (i == j) = false := by simpa using Ne.symm hj
        simp [hj, this]
    · simp only [List.filter_cons, bne_iff_ne, ne_eq, hx, not_false_eq_true, if_true, List.find?_cons, ih]
      by_cases hj : j = i
      · have : (key x == i) = false := by simpa using hx
        simp [hj, this]
      · simp [hj]

/-! ## Commands -/

theorem State.cmd?_cid {s : State} {cid : Nat} {c : Cmd} (h : s.cmd? cid = some c) : c.cid = cid := by
  have := List.find?_some h; simpa using this

theorem State.cmd?_congr {s t : State} (h : t.cmds = s.cmds) (cid : Nat) : t.cmd? cid = s.cmd? cid := by
  rw [State.cmd?, State.cmd?, h]

theorem State.cmd?_modCmd (s : State) (cid i : Nat) (f : Cmd → Cmd) (hf : ∀ c, c.cid = cid → (f c).cid = cid) :
    (s.modCmd cid f).cmd? i = if i = cid then (s.cmd? cid).map f else s.cmd? i :=
  find?_map_key Cmd.cid s.cmds cid i f hf

theorem State.cmd?_setCmd (s : State) (c : Cmd) (i : Nat) :
    (s.setCmd c).cmd? i = if i = c.cid then (s.cmd? c.cid).map (fun _ => c) else s.cmd? i :=
  find?_map_key Cmd.cid s.cmds c.cid i (fun _ => c) (fun _ _ => rfl)

/-- A command that finishes is ending with its status and result; nothing but the commands differs. -/
theorem State.finish_ended {s : State} {cid : Nat} {c : Cmd} (status result : Nat) (h : s.cmd? cid = some c)
    (hp : c.phase = .accepted ∨ c.phase = .running) : Ended (s.finish cid status result) cid status result := by
  refine ⟨{ c with phase := .ending, status := status, result := result }, ?_, rfl, rfl, rfl⟩
  rw [State.finish, State.cmd?_modCmd _ _ _ _ (by intro d hd; split <;> exact hd), if_pos rfl, h]
  rcases hp with hp | hp <;> simp [hp]

theorem State.finish_eq (s : State) (cid status result : Nat) :
    s.finish cid status result = { s with cmds := (s.finish cid status result).cmds } := rfl

theorem State.cmd?_finish_ne (s : State) (cid status result i : Nat) (h : i ≠ cid) :
    (s.finish cid status result).cmd? i = s.cmd? i := by
  rw [State.finish, State.cmd?_modCmd _ _ _ _ (by intro d hd; split <;> exact hd), if_neg h]

theorem State.MemOk.finish {s : State} (h : s.MemOk) (cid status result : Nat) : (s.finish cid status result).MemOk :=
  h.of_eq rfl rfl rfl

theorem State.MemOk.dropStaged {s : State} (h : s.MemOk) (p : Staged → Bool) : (s.dropStaged p).MemOk :=
  State.MemOk.foldl (fun _ _ ht => State.MemOk.wgB (State.MemOk.wgF (ht.modHalf _ _) _ _ _ _ _) _ _ _ _) _ h

theorem State.MemOk.xposeSync {s : State} (h : s.MemOk) (k : Nat) : (s.xposeSync k).MemOk :=
  State.MemOk.foldl (fun _ _ ht => ((ht.wgB _ _ _ _).wgB _ _ _ _).wgB _ _ _ _) _ h

theorem State.MemOk.flushOver {s : State} (h : s.MemOk) (i : Nat) : (s.flushOver i).MemOk :=
  ((h.modHalf _ _).modHalf _ _).wgB _ _ _ _

/-- What a command that is over frees is registers and the stalls of slices. -/
theorem State.MemOk.freeUnits {s : State} (h : s.MemOk) (c : Cmd) : (s.freeUnits c).MemOk := by
  have hx : (s.xposeSyncAll c).MemOk :=
    State.MemOk.ite (State.MemOk.foldl (fun _ k ht => ht.xposeSync k) _ h) h
  exact State.MemOk.ite (State.MemOk.foldl (fun _ i ht => ht.flushOver i) _ hx) hx

theorem State.MemOk.stopBlocks {s : State} (h : s.MemOk) (cid : Nat) : (s.stopBlocks cid).MemOk := h.of_eq rfl rfl rfl

theorem State.MemOk.unreported {s : State} (h : s.MemOk) (status : Nat) (d : Detail) : (s.unreported status d).MemOk := by
  unfold State.unreported; split
  · exact h.bump _ _ _
  · exact h

/-- A command set to end changes commands, blocks, staged contributions, and the counter of what no reply names. -/
theorem State.MemOk.endCmd {s : State} (h : s.MemOk) (cid status : Nat) (d : Detail) : (s.endCmd cid status d).MemOk := by
  unfold State.endCmd
  split
  · exact h
  · extract_lets go
    have hgo : ∀ t : State, t.MemOk → (go t).MemOk := by
      intro t ht
      simp only [go]
      refine State.MemOk.freeUnits (State.MemOk.setCmd (State.MemOk.ite ?_ (ht.stopBlocks cid)) _) _
      exact (ht.stopBlocks cid).dropStaged _
    split
    · exact hgo s h
    · exact hgo s h
    · split
      · exact h
      · split
        · exact hgo _ (h.unreported _ _)
        · exact h.unreported _ _
    · exact h

theorem State.MemOk.issued {s : State} (h : s.MemOk) (c : Ctx) : (s.issued c).MemOk := by
  unfold State.issued
  refine State.MemOk.bump64 (State.MemOk.bump64 (State.MemOk.modGroup ?_ _ _ _) _ _ _) _ _ _
  exact State.MemOk.ite ((h.modCore _ _).wgB _ _ _ _) (h.modCore _ _)

theorem State.MemOk.put {s : State} (h : s.MemOk) (c : Ctx) (g : Group) : (s.put c g).MemOk :=
  (h.modGroup c.site c.slot _).issued c

theorem State.MemOk.raise {s : State} (h : s.MemOk) (c : Ctx) (code lane trap : Nat) : (s.raise c code lane trap).MemOk :=
  ((h.modGroup c.site c.slot _).issued c).endCmd _ _ _

theorem State.MemOk.hitHalt {s : State} (h : s.MemOk) (site slot which : Nat) (wp : Bool) :
    (s.hitHalt site slot which wp).MemOk := ((((h.wgB _ _ _ _).wgB _ _ _ _).wgB _ _ _ _).wgF _ _ _ _ _).wgF _ _ _ _ _

/-! ## Interrupts and events -/

theorem State.MemOk.raiseIrq {s : State} (h : s.MemOk) (p v : Nat) : (s.raiseIrq p v).MemOk := h.setPort _ _

theorem State.MemOk.portEvent {s : State} (h : s.MemOk) (p i : Nat) : (s.portEvent p i).MemOk := by
  unfold State.portEvent
  exact State.MemOk.ite ((h.wgB _ _ _ _).raiseIrq _ _) (h.wgB _ _ _ _)

theorem State.MemOk.adminEvent {s : State} (h : s.MemOk) (i : Nat) : (s.adminEvent i).MemOk := h.portEvent _ _

theorem State.MemOk.healthEntry {s : State} (h : s.MemOk) (stack kind site detail : Nat) : (s.healthEntry stack kind site detail).MemOk :=
  State.MemOk.adminEvent (s := { s.storeDue with
    health := { s.health with entries := ⟨kind, site, detail, s.timeOf stack⟩ :: s.health.entries } }) (h.of_eq rfl rfl rfl) 6

theorem State.MemOk.traceCoppice {s : State} (h : s.MemOk) (stack : Nat) (p : Option Nat) (cls act site other : Nat) :
    (s.traceCoppice stack p cls act site other).MemOk := by
  unfold State.traceCoppice; split
  · exact h.tracePart _ _ _ _ _ _
  · exact h.traceAdmin _ _ _ _ _

theorem State.MemOk.unrecoveredBy {s : State} (h : s.MemOk) (cid code site other : Nat) :
    (s.unrecoveredBy cid code site other).MemOk := by
  unfold State.unrecoveredBy; split
  · exact h
  · extract_lets d
    split
    · split
      · exact h.setCmd _
      · exact h
    · exact h
    · exact h
    · exact (((h.stopBlocks cid).setCmd _).freeUnits _).traceCoppice _ _ _ _ _ _

theorem State.MemOk.unrecovered {s : State} (h : s.MemOk) (cid code site : Nat) : (s.unrecovered cid code site).MemOk :=
  h.unrecoveredBy cid code site 0xFFF

/-! ## Requests -/

theorem State.req?_rid {s : State} {rid : Nat} {r : Req} (h : s.req? rid = some r) : r.rid = rid := by
  have := List.find?_some h; simpa using this

theorem State.req?_setReq (s : State) (r : Req) (i : Nat) :
    (s.setReq r).req? i = if i = r.rid then (s.req? r.rid).map (fun _ => r) else s.req? i :=
  find?_map_key Req.rid s.net.reqs r.rid i (fun _ => r) (fun _ _ => rfl)

theorem State.req?_dropReq (s : State) (rid i : Nat) : (s.dropReq rid).req? i = if i = rid then none else s.req? i :=
  find?_filter_key Req.rid s.net.reqs rid i

/-! ## Records by number -/

@[simp] theorem State.half_setHalf (s : State) (h j : Nat) (x : Half) : (s.setHalf h x).half j = if j = h then x else s.half j := by
  simp [State.half, State.setHalf]

theorem State.half_modHalf (s : State) (h j : Nat) (f : Half → Half) :
    (s.modHalf h f).half j = if j = h then f (s.half h) else s.half j := State.half_setHalf _ _ _ _

@[simp] theorem State.mif_setMif (s : State) (d j : Nat) (x : Mif) : (s.setMif d x).mif j = if j = d then x else s.mif j := by
  simp [State.mif, State.setMif]

@[simp] theorem State.port_setPort (s : State) (p j : Nat) (x : Port) : (s.setPort p x).port j = if j = p then x else s.port j := by
  simp [State.port, State.setPort]

theorem State.queue_setQueue (s : State) (p q p' q' : Nat) (x : Queue) :
    (s.setQueue p q x).queue p' q' = if p' * 2048 + q' = p * 2048 + q then x else s.queue p' q' := by
  simp [State.queue, State.setQueue]

@[simp] theorem State.fport_setFport (s : State) (j i : Nat) (x : FabPort) :
    (s.setFport j x).fport i = if i = j then x else s.fport i := by
  simp [State.fport, State.setFport]

end Sys2Proof.Machine
end

