-- ==== Sys2Proof/Tests/Slice0.lean ====
section
/-! SUPPORT. The model's own tests: ill-formed commands are refused, words decode as the spec encodes them, worked examples of
the spec come out as it prints them, and for every obligation that has hypotheses a concrete state meets them. -/

open Sys2Proof Sys2Proof.Machine Sys2Proof.Claims

set_option Elab.async false

namespace Sys2Proof.Tests

/-! ## Small states -/

/-- What a meaning leaves, asked a question; false where it does not go on. -/
def after (o : Out) (p : State → Bool) : Bool :=
  match o with
  | .next t => p t
  | _ => false

/-- The packet of R281's worked example: a LAUNCH with INTR, code at 0x100_0000, 3,136 instructions, T 256, REGS 40, LMEM 96 KiB. -/
def launchPkt : List W32 :=
  [0x01070801, 0x00050012, 0x01000000, 0, 0, 0xC40, 0x1000, 0x00010008, 0x00028100, 0x18, 0x02000040, 0, 0, 0, 0, 0]

/-- A command of partition 0 with a packet, in a phase. -/
def cmdOf (cid : Nat) (ph : Phase) (pkt : List W32) : Cmd :=
  { cid := cid, port := 0, queue := 0, admin := false, part := 0, pkt := pkt, slot := 0, accepted := 0, started := 0,
    deadline := none, held := 0, heldRemote := 0, phase := ph, status := 0, result := 0, detail := none, nextBlock := 0,
    blocksDone := 0, exited := [], cores := [0], launched := [0], ordered := [], acked := [], startVals := [], endVals := [], cleared := false,
    recovered := false, poisoned := false, replay := [], pieces := [], sentPiece := none, engines := [], replyAt := none, retried := [], bounded := 0,
    recIndex := 0xFFFFFFFF, segs := [], code := [], codePoison := [], begun := true }

/-- The LAUNCH as a running command. -/
def kernel : Cmd := cmdOf 1 .running launchPkt

/-- A block of the kernel with 96 KiB of local memory at 0. -/
def blk0 : Block :=
  { cid := 1, lin := 0, t := 256, groups := 8, regs := 40, lmemBase := 0, lmemUnits := 24, width := 16, stall := 0,
    stopped := false, commits := [], strips := [], replays := 0, poisonReplayed := false, didAtomic := false, images := [], ate := none }

/-- A thread at an instruction with some registers. -/
def thr (pc : Nat) (regs : Map W32) : Thread := { Thread.start pc with regs := regs }

/-- A group of the block with these threads. -/
def grp (ts : List Thread) : Group :=
  { blk := 0, idx := 0, threads := ts, uregs := [], upois := [], act := some 0, count := 0, divs := [], nextDiv := 0,
    barMask := none, stopped := false, espWait := false, accIssued := 0, bpSkip := false }

/-- Three threads at instruction 5; v0 holds the thread's number, v1 is 7, v2 and v3 name device address 0x40. -/
def g3 : Group := grp ((upTo 0 3).map (fun l => thr 5 [(0, BitVec.ofNat 32 l), (1, 7), (2, 0x40)]))

/-- A core on which a group runs in slot 0. -/
def coreOf (g : Group) : Core := { Core.idle with groups := [(0, g)], blocks := [(0, blk0)] }

/-- Partition 0: host port 0, the first region, 1 MiB of external memory. -/
def part0 : Partition := ⟨0, 0, 10000, [(0, 0x100000)], [0], [], false⟩

/-- Reset, with partition 0, command 1, and core 0 as given. -/
def withCore (c : Cmd) (k : Core) : State :=
  { State.reset with
    parts := [(0, part0)], cmds := [c], cores := [(0, k)]
    roster := { State.reset.roster with enabled := 0xFFFF } }

/-- A state in which the group may issue. -/
def stOf (g : Group) : State := withCore kernel (coreOf g)

/-- The place of that group. -/
def w0 : At := ⟨0, 0⟩

/-- Its context, on the path of its threads ls at instruction 5. -/
def ctxOf (g : Group) (ls : List Nat) : Ctx := ⟨0, 0, coreOf g, g, blk0, kernel, 0, 5, ls⟩

/-- Format R with the guard p7. -/
def rf (mod : BitVec 4) (d a b c : BitVec 8) : RForm := ⟨7, false, mod, false, false, false, false, 0, c, b, a, d⟩
/-- Format I with the guard p7. -/
def imf (d a : BitVec 8) (imm : W32) : IForm := ⟨7, false, false, false, 0, d, a, imm⟩
/-- Format M with the guard p7. -/
def mf (space : BitVec 2) (size : BitVec 3) (sx : Bool) (d a : BitVec 8) (off : BitVec 24) : MForm :=
  ⟨7, false, space, size, false, sx, false, 0, d, a, off⟩
/-- Format S with the guard p7. -/
def sf (mod : BitVec 4) (imm : W32) : SForm := ⟨7, false, mod, 0, false, 0, imm⟩
/-- Format B with the guard p7. -/
def bf (merge target : BitVec 24) : BForm := ⟨7, false, 0, merge, target⟩
/-- Format T with the guard p7. -/
def tf (mod : BitVec 4) (u : BitVec 6) (imm : W32) : TForm := ⟨7, false, mod, 0, u, imm⟩

/-- An instruction with these needs issues for the three threads. -/
abbrev issuesR (n : Need) : Prop := Issues (stOf g3) w0 n (ctxOf g3 [0, 1, 2]) [0, 1, 2]

/-- Register r of a lane of the group after a step. -/
def regAfter (o : Out) (lane r : Nat) : Option W32 :=
  match o with
  | .next t => (mfind (t.core 0).groups 0).map (fun g => g.reg lane r)
  | _ => none

/-- Predicate n of a lane after a step. -/
def predAfter (o : Out) (lane n : Nat) : Option Bool :=
  match o with
  | .next t => (mfind (t.core 0).groups 0).map (fun g => g.pred lane n)
  | _ => none

/-- Host port 0 up (HP_LINK.LINK_UP). -/
def up0 (s : State) : State := s.wgB (s.hpBlk 0) 0x000 0 true
/-- A request of command 1 from core 0 that stands at its place. -/
def req0 (kind : ReqKind) (addr : Nat) : Req :=
  { rid := 7, cid := 1, lin := 0, site := 0, slot := 0, lane := 1, serial := 0, index := 5, kind := kind, space := 2, ea := addr
    addr := addr, size := 4, data := 9, cmp := 3, pois := false, dest := some 4, uni := false, sx := false, fillL1 := false, cls := 0
    part := 0, sentAt := 0, attempt := 0, state := .arrived, result := 0, rpois := false, remote := none, heldOnce := false
    dropFill := false, red := none, line := [], lpois := [], refused := false, tag := 0 }
/-- A state with requests. -/
def withReqs (s : State) (rs : List Req) : State := { s with net := { s.net with reqs := rs, nextRid := 8 } }
/-- A read of n bytes at a by a master that is not a thread, answered with zeros. -/
def answered (e : Eng) (a n : Nat) : Req := { e.req .read none a n with rid := 7, state := .ready, line := List.replicate n 0 }
/-- A control message of command 1, in a state of its way. -/
def ordReq (msg : CtlMsg) (st : ReqState) : Req := { orderReq 0 1 msg with rid := 7, state := st }
/-- Whether gathering gives n bytes. -/
def gives (g : Got) (n : Nat) : Bool := match g with | .data bs => bs.length == n | _ => false

/-! ## Well-formedness: an ill-formed term for each check -/

theorem test_wf_site : (Instr.stageWeights 4095).wf = true ∧ (Instr.stageWeights 4096).wf = false := by decide
theorem test_wf_slot : (Instr.nop ⟨0, 63⟩ (sf 0 0)).wf = true ∧ (Instr.nop ⟨0, 64⟩ (sf 0 0)).wf = false := by decide
theorem test_wf_host_port : (Instr.d3hotEntry 3).wf = true ∧ (Instr.d3hotEntry 4).wf = false := by decide
theorem test_wf_fabric_port : (Instr.retxTimer 15).wf = true ∧ (Instr.retxTimer 16).wf = false := by decide
theorem test_wf_stack : (Instr.powerFault 7).wf = true ∧ (Instr.powerFault 8).wf = false := by decide
theorem test_wf_half : (Instr.halfLoss 15).wf = true ∧ (Instr.halfLoss 16).wf = false := by decide
theorem test_wf_slice : (Instr.portTest 0 255).wf = true ∧ (Instr.portTest 0 256).wf = false := by decide

/-! ## Decoding: the words of the worked example under R142, and one more word of each format from the figure of R119 -/

theorem test_word_ffma : decodeThread w0 0x4350000007060504 =
    some (.ffma w0 ⟨2, true, 0, false, false, false, false, 0, 7, 6, 5, 4⟩) := by decide
theorem test_word_ld : decodeThread w0 0x80E9000802000040 = some (.ld w0 (mf 2 2 false 8 2 0x40)) := by decide
theorem test_word_acas : decodeThread w0 0x99E9200A02FF0C00 = some (.acas w0 (mf 2 2 true 10 2 0xFF0C00)) := by decide
theorem test_word_radd : decodeThread w0 0xA2E8800002040000 = some (.raddBf16 w0 (mf 2 1 false 0 2 0x040000)) := by decide
theorem test_word_s2r : decodeThread w0 0x07E0000000000209 = some (.s2r w0 (rf 0 9 2 0 0)) := by decide
theorem test_word_iaddi : decodeThread w0 0xD1E0010200000100 = some (.iaddi w0 (imf 1 2 0x100)) := by decide
theorem test_word_bra : decodeThread w0 0x01E0000003FFFFFE = some (.bra w0 (bf 3 0xFFFFFE)) := by decide
theorem test_word_barg : decodeThread w0 0xB0E0000000000007 = some (.barg w0 (sf 0 7)) := by decide
theorem test_word_tile : decodeThread w0 0xC0E0000800000000 = some (.tile w0 (tf 0 8 0)) := by decide
theorem test_word_reserved : decodeThread w0 0x08E0000000000000 = none := by decide

/-! ## Worked examples -/

/-- The block-aligned FP8 dot product of 02: four pairs, at a guard. -/
def ex8 (g : Nat) : W32 :=
  let w := alignBlock 4 (weightGuard 4) (([0x2C, 0x3A, 0xB0, 0x22] ++ List.replicate 28 0).map (fun x => (x, false))) none
  let a := alignBlock 4 g (([0x46, 0xB5, 0x1A, 0xC1] ++ List.replicate 28 0).map (fun x => (x, false))) none
  (⟨accumulate (planes 4 g) a.q w.q, 0, w.e + a.e, w.nan || a.nan, false⟩ : ColAcc).fp

theorem test_fp8_guard3 : ex8 3 = 0xBDB00000#32 := by decide
theorem test_fp8_guard4 : ex8 4 = 0xBDC00000#32 := by decide


/-! ## Thread instructions: a group that issues, results, and the hypotheses of the statements about them -/

theorem witness_IntegerArithmetic : issuesR (RUse.dab.need (rf 0 4 0 1 0) true) := by decide +kernel
theorem witness_IntegerArithmetic_v255 : issuesR (RUse.dab.need (rf 0 255 39 255 0) true) := by
  decide +kernel
/-- A uniform destination at its highest number. -/
def fU : RForm := { rf 0 63 0 1 0 with ud := true }
theorem witness_IntegerArithmetic_uniform : issuesR (RUse.dab.need fU true) := by decide +kernel
theorem witness_OtherArithmetic : issuesR (RUse.da.need (rf 0 4 0 0 0) true) ∧
    issuesR (RUse.dabc.need (rf 0 4 0 1 2) true) ∧
    issuesR (iNeed (imf 4 0 9) true .reg true false) ∧
    issuesR (iNeed (imf 4 0 9) false .reg true false) := by decide +kernel

theorem test_iadd : (upTo 0 3).map (fun l => regAfter (exec (.iadd w0 (rf 0 4 0 1 0)) (stOf g3)) l 4) =
    [some 7, some 8, some 9] := by decide +kernel
theorem test_isub_wraps : regAfter (exec (.isub w0 (rf 0 4 0 1 0)) (stOf g3)) 0 4 = some 0xFFFFFFF9 := by decide +kernel
theorem test_uniform_takes_lowest : regAfter (exec (.isub w0 { rf 0 63 0 1 0 with ud := true }) (stOf g3)) 2 319 =
    some 0xFFFFFFF9 := by decide +kernel

/-- COND in bits [7:4] of D and the predicate below (R121). -/
def cmp (cond pd : Nat) : RForm := rf 0 (BitVec.ofNat 8 (cond * 16 + pd)) 0 1 0
theorem witness_SetPredicates :
    issuesR ((⟨.raw, .reg, .reg, .no, 1, true, true⟩ : RUse).need (cmp 5 6) (condOk (cmp 5 6).d 6)) ∧
    issuesR ((⟨.raw, .reg, .reg, .no, 1, true, true⟩ : RUse).need (cmp 0 7) (condOk (cmp 0 7).d 6)) ∧
    issuesR ((⟨.raw, .reg, .reg, .no, 1, true, true⟩ : RUse).need (cmp 7 0) (condOk (cmp 7 0).d 8)) := by decide +kernel
theorem witness_SetPredicates_immediate : issuesR (iNeed (imf 0x56 0 3) true .raw (condOk 0x56 6) true) ∧
    issuesR (iNeed (imf 0x70 0 3) true .raw (condOk 0x70 8) true) := by decide +kernel
theorem witness_SetPredicates_illegal : Fetches (stOf g3) w0 (ctxOf g3 [0, 1, 2]) ∧
    (ctxOf g3 [0, 1, 2]).path.find? (fun l => g3.pred l 7 != false) = some 0 ∧
    condOf (cmp 6 0).d = 6 ∧ condOf (cmp 8 0).d = 8 ∧ (cmp 0 8).d.getLsbD 3 = true := by decide +kernel

theorem test_isetp_lt : (upTo 0 3).map (fun l => predAfter (exec (.isetpi w0 (imf 0x26 0 2)) (stOf g3)) l 6) =
    [some true, some true, some false] := by decide +kernel

/-- How SEL, PLOP, P2R, R2P, VOTE, SHFL and S2R use their fields (R122, R128, R129). -/
abbrev useSel : RUse := ⟨.reg, .reg, .reg, .pred, 1, false, false⟩
abbrev usePlop : RUse := ⟨.pred, .pred, .pred, .no, 4, false, false⟩
abbrev useP2r : RUse := ⟨.reg, .no, .no, .no, 1, false, false⟩
abbrev useR2p : RUse := ⟨.no, .reg, .no, .no, 1, true, false⟩
abbrev useVote : RUse := ⟨.reg, .no, .no, .pred, 1, false, false⟩
abbrev useShfl : RUse := ⟨.reg, .reg, .reg, .no, 4, false, true⟩
abbrev useS2r : RUse := ⟨.reg, .raw, .no, .no, 1, false, false⟩

theorem witness_PredicateMoves : issuesR (useSel.need (rf 0 4 0 1 7) true) ∧
    issuesR (usePlop.need (rf 3 6 7 0 0) true) ∧ issuesR (useP2r.need (rf 0 4 0 0 0) true) := by decide +kernel
theorem witness_PredicateMoves_r2p : issuesR (useR2p.need (rf 0 0 1 0 0) true) ∧ issuesR (useVote.need (rf 0 4 0 0 7) true) := by
  decide +kernel
theorem witness_LaneExchange : issuesR (useShfl.need (rf 0 4 0 1 0) true) ∧
    issuesR (useShfl.need (rf 3 4 0 1 0) true) := by decide +kernel
theorem test_shfl : regAfter (exec (.shfl w0 (rf 1 4 1 0 0)) (stOf g3)) 2 4 = some 7 ∧
    regAfter (exec (.shfl w0 (rf 2 4 0 1 0)) (stOf g3)) 2 4 = some 0 ∧
    regAfter (exec (.shfl w0 (rf 1 4 0 1 0)) (stOf g3)) 2 4 = some 2 := by decide +kernel
theorem test_vote : regAfter (exec (.vote w0 (rf 0 4 0 0 7)) (stOf g3)) 1 4 = some 7 := by decide +kernel
theorem witness_SpecialValues : issuesR (useS2r.need (rf 0 4 0 0 0) (decide ((0 : BitVec 8).toNat ≤ 8))) ∧
    issuesR (useS2r.need (rf 0 4 8 0 0) (decide ((8 : BitVec 8).toNat ≤ 8))) := by decide +kernel
theorem test_s2r_lane_next : regAfter (exec (.s2r w0 (rf 0 4 0 0 0)) (stOf g3)) 2 4 = some 2 ∧
    regAfter (exec (.s2r w0 (rf 0 4 8 0 0)) (stOf g3)) 2 4 = some 6 := by decide +kernel
theorem witness_FloatingPoint : issuesR (RUse.dab.need (rf 0 4 0 1 0) true) ∧
    issuesR (RUse.da.need (rf 0 4 0 0 0) true) ∧ isNanFV (dec32 0x7F800001#32) = true ∧
    dec32 0x80000001#32 = .fin true 1 (-149) ∧ 0x47800000 < (0x47800001#32 : W32).toNat % 2 ^ 31 := by decide +kernel
theorem test_fadd : fadd 0x3F800000#32 0x40000000#32 = 0x40400000#32 ∧ fmul 0x00000001#32 0x3F000000#32 = 0#32 ∧
    ffma 0x7F7FFFFF#32 0x40000000#32 0#32 = 0x7F800000#32 ∧ fsqrt 0x40800000#32 = 0x40000000#32 := by decide +kernel
theorem witness_Conversions : (∀ p ∈ convertOps, issuesR ((useA p.2.1).need (rf 0 4 0 0 0) true)) ∧
    issuesR ((useA 2).need (rf 1 4 0 0 0) true) ∧ issuesR ((useA 4).need (rf 3 4 0 0 0) true) ∧
    issuesR ((useA 8).need (rf 7 4 0 0 0) true) := by
  refine ⟨fun p hp => ?_, ?_, ?_, ?_⟩
  · simp only [convertOps, List.mem_cons, List.not_mem_nil, or_false] at hp
    rcases hp with rfl | rfl | rfl | rfl | rfl | rfl | rfl <;> decide +kernel
  all_goals decide +kernel
theorem test_cvtfi : cvtfi .rtz 0xC0200000#32 = 0xFFFFFFFE#32 ∧ cvtfu .rne 0xBF800000#32 = 0#32 ∧
    cvtfi .rne 0x4F000000#32 = 0x7FFFFFFF#32 := by decide +kernel

/-- A thread whose v0 is poisoned. -/
def gPois : Group := grp [{ thr 5 [(0, 1)] with rpois := [0] }]
theorem witness_PoisonFollowsArithmetic :
    Issues (stOf gPois) w0 (RUse.dab.need (rf 0 4 0 1 0) true) (ctxOf gPois [0]) [0] := by decide +kernel

/-- Every thread has p0 clear, which the guard p0 asks for. -/
def fP0 : RForm := { rf 0 4 0 1 0 with pg := 0 }
theorem witness_FailedGuardHasNoEffect : guardOf (.iadd w0 fP0) = some (w0, 0, false, 0) ∧
    Fetches (stOf g3) w0 (ctxOf g3 [0, 1, 2]) ∧ ∀ l ∈ (ctxOf g3 [0, 1, 2]).path, (ctxOf g3 [0, 1, 2]).grp.pred l 0 = false := by
  decide +kernel
theorem witness_IssueExceptions : guardOf (.iadd w0 { rf 0 4 0 1 0 with rsv := 1 }) = some (w0, 7, false, 1) ∧
    Fetches (stOf g3) w0 (ctxOf g3 [0, 1, 2]) ∧
    (ctxOf g3 [0, 1, 2]).path.find? (fun l => (ctxOf g3 [0, 1, 2]).grp.pred l 7 != false) = some 0 := by decide +kernel
/-- A thread at the index behind the last instruction. -/
def gEnd : Group := grp [thr 3136 []]
/-- Its context. -/
def cEnd : Ctx := ⟨0, 0, coreOf gEnd, gEnd, blk0, kernel, 0, 3136, [0]⟩
theorem witness_IssueExceptions_end : w0.site < (stOf gEnd).sites ∧ (stOf gEnd).issueCtx w0 = some cEnd ∧
    (stOf gEnd).breakpoint cEnd = none ∧ cEnd.cmd.codeLen ≤ cEnd.pc := by decide +kernel

/-! ## Control -/

theorem witness_PlainControlAndExit : issuesR (plainNeed (sf 0 0)) ∧
    (∀ l ∈ [0, 1, 2], (g3.th l).divs.head? = none) ∧
    issuesR (sNeed (sf 0 255) false (decide ((0 : BitVec 4) = 0)) (decide ((255 : W32).toNat < 256)) false) ∧
    (∀ x ∈ (coreOf g3).arr.tiles, x.group ≠ 0) ∧ (∀ j ∈ (coreOf g3).dma, j.group ≠ 0) ∧
    (∀ e ∈ (coreOf g3).groups, e.2.blk = g3.blk → e.1 = 0) := by decide +kernel
theorem witness_PlainControlAndExit_all : ∀ k, (g3.th k).wait = .exited ∨ k ∈ [0, 1, 2] := by
  intro k
  by_cases h : k < 3
  · right; simp; omega
  · left
    rw [Group.th, nth_of_length_le _ _ _ (by show 3 ≤ k; omega)]; rfl

/-- The group with one thread on another path. -/
def gTwo : Group := grp [thr 5 [(0, 0)], thr 9 [(0, 1)]]
theorem witness_PlainControlAndExit_some : Issues (stOf gTwo) w0 (plainNeed (sf 0 0)) (ctxOf gTwo [0]) [0] ∧
    (gTwo.th 1).wait ≠ .exited ∧ 1 ∉ [0] ∧ (gTwo.th 1).wait = .run ∧ (gTwo.th 1).pc ≠ 5 ∧ (gTwo.th 1).pc ≠ 5 + 1 := by
  decide +kernel

theorem witness_BranchesAndMerges_uniform :
    Issues (stOf g3) w0 ⟨7, false, true, [], []⟩ (ctxOf g3 [0, 1, 2]) [0, 1, 2] ∧
    (∀ l ∈ (ctxOf g3 [0, 1, 2]).path,
      (if l ∈ [0, 1, 2] then (5 : Int) + (bf 0 0xFFFFFB).target.toInt else 5 + 1) = ((0 : Nat) : Int)) ∧
    Issues (stOf g3) w0 ⟨7, false, true, [1], [1]⟩ (ctxOf g3 [0, 1, 2]) [0, 1, 2] ∧
    (∀ l ∈ (ctxOf g3 [0, 1, 2]).path, (if l ∈ [0, 1, 2] then (g3.reg l 1).toNat else 5 + 1) = 7) := by decide +kernel

/-- Threads 0 and 1 have p0 set; the word at index 8 is a MERGE. -/
def gDiv : Group := grp [{ thr 5 [] with preds := 1 }, { thr 5 [] with preds := 1 }, thr 5 []]
/-- The code holds a MERGE at index 8. -/
def stDiv : State := { stOf gDiv with mem := [(0x1000047, 3)] }
theorem witness_BranchesAndMerges_diverge :
    Issues stDiv w0 ⟨0, false, true, [], []⟩ (ctxOf gDiv [0, 1, 2]) [0, 1] ∧
    (∀ l ∈ [0, 1], ((5 : Int) + ({ bf 3 15 with pg := 0 } : BForm).target.toInt = ((20 : Nat) : Int))) ∧
    (5 : Int) + ({ bf 3 15 with pg := 0 } : BForm).merge.toInt = ((8 : Nat) : Int) ∧ 8 < kernel.codeLen ∧
    stDiv.num ((ctxOf gDiv [0, 1, 2]).codeAddr 8 + 7) 1 = 0x03 ∧
    stDiv.num ((ctxOf gDiv [0, 1, 2]).codeAddr 9 + 7) 1 ≠ 0x03 := by decide +kernel

/-- Threads 0 and 1 diverged at merge point 5; thread 1 waits there already, or has yet to come. -/
def gMerge (waits : Bool) : Group :=
  { grp [{ thr 5 [] with divs := [0] }, { thr (if waits then 5 else 3) [] with divs := [0], wait := if waits then .merge else .run }]
    with divs := [(0, ⟨5, [0, 1]⟩)], nextDiv := 1 }
theorem witness_BranchesAndMerges_merge : ∀ b : Bool,
    Issues (stOf (gMerge b)) w0 (plainNeed (sf 0 0)) (ctxOf (gMerge b) [0]) [0] ∧
    mfind (gMerge b).divs 0 = some ⟨5, [0, 1]⟩ ∧ ((gMerge b).th 0).divs.head? = some 0 ∧
    (b = true → ((gMerge b).th 1).wait = .merge ∧ ((gMerge b).th 1).divs.head? = some 0) ∧
    (b = false → ((gMerge b).th 1).wait ≠ .exited ∧ ((gMerge b).th 1).wait ≠ .merge) := by decide +kernel

theorem witness_Barriers :
    issuesR (sNeed (sf 0 7) (decide ((sf 0 7).mod = 1)) (decide ((sf 0 7).mod.toNat ≤ 1))
      (!decide ((sf 0 7).mod = 1) || decide ((sf 0 7).imm = 0)) (decide ((sf 0 7).mod = 1))) ∧
    (∀ l ∈ [0, 1, 2], (7#32).getLsbD l = true) ∧ (∀ k < 32, (7#32).getLsbD k = true → k ∈ [0, 1, 2]) ∧
    [0, 1, 2].find? (fun l => !(3#32).getLsbD l) = some 2 ∧
    issuesR (sNeed (sf 0 3) false (decide ((sf 0 3).mod = 0)) (decide ((sf 0 3).imm.toNat < 4)) false) ∧
    (∀ e ∈ (coreOf g3).groups, e.1 ≠ 0 → e.2.blk ≠ g3.blk) := by decide +kernel
theorem witness_Barriers_waits : Issues (stOf gTwo) w0 (plainNeed (sf 0 0)) (ctxOf gTwo [0]) [0] ∧
    (3#32).getLsbD 1 = true ∧ 1 ∉ [0] ∧ (gTwo.th 1).wait ≠ .exited ∧ (gTwo.th 1).wait ≠ .barG ∧
    (gTwo.th 1).wait ≠ .barB 0 := by decide +kernel

theorem witness_FenceScopes : ∀ m : BitVec 4, m.toNat ≤ 2 →
    Issues (stOf g3) w0 (sNeed (sf m 0) false (decide (m.toNat ≤ 2)) (decide ((sf m 0).imm = 0)) false) (ctxOf g3 [0, 1, 2]) [0, 1, 2] ∧
    (stOf g3).unperformed (ctxOf g3 [0, 1, 2]) [0, 1, 2] = false ∧ (ctxOf g3 [0, 1, 2]).working = false ∧
    (∀ x ∈ (coreOf g3).commit, x.blk ≠ g3.blk) := by decide +kernel

/-! ## Memory -/

/-- The core's L1 holds line 0 with 128 bytes of 5. -/
def kL1 : Core := { coreOf g3 with l1 := [⟨0, List.replicate 128 5, [false, false, false, true]⟩] }
/-- A command that may not be replayed, so its reductions go out at once. -/
def kerNR : Cmd := { kernel with pkt := launchPkt.set 0 0x01070101 }
/-- The context of a core and a command. -/
def ctxK (c : Cmd) (k : Core) (g : Group) (ls : List Nat) : Ctx := ⟨0, 0, k, g, blk0, c, 0, 5, ls⟩

/-- Threads whose base register is 0x41 (misaligned for four bytes), 0x200000 (beyond partition 0's range) and, as page
position, 0xFFFFFFFF. -/
def gBad : Group := grp [thr 5 [(2, 0x40)], thr 5 [(2, 0x41)], thr 5 [(2, 0x200000), (3, 0xFFFFFFFF)]]
theorem witness_AddressesAndTheirExceptions : Issues (stOf gBad) w0 (loadNeed (mf 2 2 false 4 2 0)) (ctxOf gBad [0, 1, 2]) [0, 1, 2] ∧
    (∀ k ∈ [0, 1, 2], laneEa (stOf gBad) (ctxOf gBad [0, 1, 2]) (mf 2 2 false 4 2 0) 0 k ≠ .eat) ∧
    [0, 1, 2].find? (fun k => laneEa (stOf gBad) (ctxOf gBad [0, 1, 2]) (mf 2 2 false 4 2 0) 0 k == .exc 3) = some 1 := by
  decide +kernel
theorem witness_AddressesAndTheirExceptions_range :
    [0, 1, 2].find? (fun k => laneEa (stOf gBad) (ctxOf gBad [0, 1, 2]) (mf 2 0 false 4 2 0) 0 k == .exc 4) = some 2 ∧
    (∀ k ∈ [0, 1, 2], laneEa (stOf gBad) (ctxOf gBad [0, 1, 2]) (mf 2 0 false 4 2 0) 0 k ≠ .exc 3) ∧
    laneEa (stOf gBad) (ctxOf gBad [0, 1, 2]) (mf 3 0 false 4 2 0xFFFFFF) (-1) 0 = .exc 5 ∧
    laneEa (stOf gBad) (ctxOf gBad [0, 1, 2]) (mf 0 2 false 4 2 0) 0 2 = .exc 4 ∧
    laneEa (stOf gBad) (ctxOf gBad [0, 1, 2]) (mf 1 2 false 4 2 0) 0 0 = .exc 4 := by decide +kernel
/-- R182: the last four bytes of the 96 KiB of local memory are in reach, the next four are not. -/
theorem test_local_end : laneEa (stOf g3) (ctxOf g3 [0, 1, 2]) (mf 0 2 false 4 2 0) 0x17FBC 0 = .ok 0xF10000017FFC 0x17FFC none ∧
    laneEa (stOf g3) (ctxOf g3 [0, 1, 2]) (mf 0 2 false 4 2 0) 0x17FC0 0 = .exc 4 := by decide +kernel

theorem witness_Loads : issuesR (loadNeed (mf 0 1 true 4 2 0)) ∧ issuesR (loadNeed (mf 0 4 false 4 2 0)) ∧
    Reaches (stOf g3) (ctxOf g3 [0, 1, 2]) (mf 0 1 true 4 2 0) 0 [0, 1, 2] (fun _ => 0xF10000000040) ∧
    FarLocal (stOf g3) 0 := by decide +kernel
theorem witness_Loads_hit : Issues (withCore kernel kL1) w0 (loadNeed (mf 2 3 false 4 2 0)) (ctxK kernel kL1 g3 [0, 1, 2]) [0, 1, 2] ∧
    Reaches (withCore kernel kL1) (ctxK kernel kL1 g3 [0, 1, 2]) (mf 2 3 false 4 2 0) 0 [0, 1, 2] (fun _ => 0x40) ∧
    (withCore kernel kL1).tagsFor (ctxK kernel kL1 g3 [0, 1, 2]) 3 4 = true ∧ NoneBuffered (ctxK kernel kL1 g3 [0, 1, 2]) [0, 1, 2] (fun _ => 0x40) 4 ∧
    0x40 < (withCore kernel kL1).extEnd ∧ segmentIn kernel.segs kernel.part 0x40 = none ∧
    ((withCore kernel kL1).core 0).l1Line 0x40 = some ⟨0, List.replicate 128 5, [false, false, false, true]⟩ := by decide +kernel
theorem witness_Loads_miss : issuesR (loadNeed (mf 2 3 false 4 2 0)) ∧
    Reaches (stOf g3) (ctxOf g3 [0, 1, 2]) (mf 2 3 false 4 2 0) 0 [0, 1, 2] (fun _ => 0x40) ∧
    (stOf g3).tagsFor (ctxOf g3 [0, 1, 2]) 3 128 = true ∧ NoneBuffered (ctxOf g3 [0, 1, 2]) [0, 1, 2] (fun _ => 0x40) 4 ∧ ((stOf g3).core 0).l1Line 0x40 = none := by decide +kernel
theorem witness_Stores : issuesR (storeNeed (mf 0 2 false 0 2 0)) ∧ issuesR (storeNeed (mf 2 2 false 0 2 0)) ∧
    FarLocal (stOf g3) 0 ∧ FarSend (stOf g3) 0 := by decide +kernel
/-- R186: three lanes store to one word of local memory; the highest lane's datum stays. -/
theorem test_store_highest_lane : after (exec (.st w0 (mf 0 2 false 0 2 0)) (stOf g3)) (fun t => t.num 0xF10000000040 4 == 2) = true := by
  decide +kernel
theorem test_load_extends : regAfter (exec (.ld w0 (mf 0 0 true 4 2 0)) { stOf g3 with mem := [(0xF10000000040, 0x80)] }) 0 4 =
    some 0xFFFFFF80 := by decide +kernel

/-- An atomic with RET on register 4, operands in registers 1 and 0. -/
def fAt (space : BitVec 2) : MForm := mf space 2 true 4 2 0x010000
theorem witness_Atomics : (∀ p ∈ atomicOps, issuesR (atomicNeed (fAt 0) p.2.2.1 p.2.2.2.1)) ∧
    Reaches (stOf g3) (ctxOf g3 [0, 1, 2]) (fAt 0) 0 [0, 1, 2] (fun _ => 0xF10000000040) ∧
    (stOf g3).poisoned 0xF10000000040 4 = false := by
  refine ⟨fun p hp => ?_, by decide +kernel, by decide +kernel⟩
  simp only [atomicOps, List.mem_cons, List.not_mem_nil, or_false] at hp
  rcases hp with rfl | rfl | rfl | rfl | rfl | rfl | rfl | rfl | rfl | rfl | rfl <;> decide +kernel
theorem witness_Atomics_sent : issuesR (atomicNeed (fAt 2) true true) ∧
    Reaches (stOf g3) (ctxOf g3 [0, 1, 2]) (fAt 2) 0 [0, 1, 2] (fun _ => 0x40) := by decide +kernel
/-- R132: three lanes add 7 in order; each receives the word as its turn found it. -/
theorem test_aadd_lanes : (upTo 0 3).map (fun l => regAfter (exec (.aadd w0 (fAt 0)) (stOf g3)) l 4) =
    [some 0, some 7, some 14] := by decide +kernel

/-- A reduction of register 1 into the address in registers 2 and 3. -/
def fRd (op : Nat) : MForm := mf 2 (if reduceSize op = 2 then 1 else 2) false 0 2 0x010000
theorem witness_Reductions : (∀ p ∈ reduceOps, issuesR (reduceNeed (fRd p.2.1) p.2.1)) ∧
    Reaches (stOf g3) (ctxOf g3 [0, 1, 2]) (fRd 0) 0 [0, 1, 2] (fun _ => 0x40) ∧ kernel.flag 8 = false ∧ kernel.flag 9 = false ∧
    (coreOf g3).commit.length + 3 ≤ 4096 := by
  refine ⟨fun p hp => ?_, by decide +kernel, by decide +kernel, by decide +kernel, by decide +kernel⟩
  simp only [reduceOps, List.mem_cons, List.not_mem_nil, or_false] at hp
  rcases hp with rfl | rfl | rfl | rfl | rfl | rfl | rfl | rfl | rfl <;> decide +kernel
theorem witness_Reductions_sent : Issues (withCore kerNR (coreOf g3)) w0 (reduceNeed (fRd 0) 0)
      (ctxK kerNR (coreOf g3) g3 [0, 1, 2]) [0, 1, 2] ∧ kerNR.flag 8 = true ∧
    segmentIn kerNR.segs kerNR.part 0x40 = none ∧ (∀ l ∈ [0, 1, 2], mget 0 blk0.commits l ≤ (g3.th l).nred) := by decide +kernel

/-! ## Tiles, images, copies -/

/-- The words of a 4 × 32 by 32 × 8 product of FP8 (E4M3) into FP32: output at local 0x4000, activations at 0, weights at
0x2000, or what is given in their place. -/
def tileU (w1 out act : W32) : Map W32 :=
  [(0, 0x001F0003), (1, w1), (2, out), (3, 0x00020000), (4, act), (5, 0x00020000), (6, 0x2000), (7, 0x00010000)]
/-- A group with those uniform registers. -/
def gU (us : Map W32) : Group := { grp [thr 5 []] with uregs := us }
/-- The tile queue holds n tiles of group 0, none of them done. -/
def tileN (n : Nat) : Tile :=
  { num := n, desc := tileDescOf (fun i => mget 0 (tileU 0x00D44007 0x4000 0) i), group := 0, lane := 0, index := 4, blk := 0, cid := 1,
    image := none, staged := 0, started := 0, ended := 0, drained := 0, woStarted := 0, woDone := 0, interlock := true,
    alone := false }

/-- A tile that passes, and three that fail each one check. -/
abbrev tileOk (us : Map W32) (fmt addr olap : Option Nat) : Prop :=
  Issues (stOf (gU us)) w0 (tNeed (tf 0 0 0) 8 8 true true) (ctxOf (gU us) [0]) [0] ∧
  formatFault (tileDescOf (fun i => mget 0 us i)) none = fmt ∧
  (stOf (gU us)).addrFault (engOf 0 65 0 blk0 kernel 5) (tileDescOf (fun i => mget 0 us i)) none = addr ∧
  overlapFault (tileDescOf (fun i => mget 0 us i)) none = olap
theorem witness_TileIsQueuedOrRefused : tileOk (tileU 0x00D44007 0x4000 0) none none none ∧
    (ctxOf (gU (tileU 0x00D44007 0x4000 0)) [0]).skipStrips (tileDescOf (fun i => mget 0 (tileU 0x00D44007 0x4000 0) i)) = 0 := by
  decide +kernel
theorem witness_TileIsQueuedOrRefused_format : tileOk (tileU 0x00D43007 0x4000 0) (some 1) none none := by decide +kernel
theorem witness_TileIsQueuedOrRefused_address : tileOk (tileU 0x00D44007 0x18000 0) none (some 1) none := by decide +kernel
theorem witness_TileIsQueuedOrRefused_overlap : tileOk (tileU 0x00D44007 0x4000 0x3FC0) none none (some 2) := by decide +kernel

/-- A core with k tiles of group 0 unfinished and k copies outstanding. -/
def kBusy (g : Group) (k : Nat) : Core :=
  { coreOf g with
    arr := { Array.idle with tiles := (upTo 0 k).map tileN, nextTile := k }
    dma := (upTo 0 k).map (fun i => ⟨i, 0, 0, 1, 0, 4, ⟨2, 0, 0⟩, ⟨0, 0, 0⟩, 64⟩), nextDma := k }
theorem witness_TileIsQueuedOrRefused_full : ((kBusy g3 3).arr.live).length = 3 := by decide +kernel
theorem witness_CopiesLoadsAndTheirWaits : ∀ k ∈ [0, 3, 4],
    Issues (withCore kernel (kBusy (gU []) k)) w0 (tNeed (tf 0 0 3) 0 1 true true) (ctxK kernel (kBusy (gU []) k) (gU []) [0]) [0] ∧
    ((kBusy (gU []) k).arr.tiles.filter (fun t => t.group == 0)).length = k ∧
    ((kBusy (gU []) k).dma.filter (fun t => t.group == 0)).length = k := by decide +kernel
/-- A copy of 64 bytes from device address 0x1000 to local memory. -/
def dmaU : Map W32 := [(0, 0x1000), (1, 0x80000000), (2, 0x40), (4, 64)]
theorem witness_CopiesLoadsAndTheirWaits_dma :
    Issues (stOf (gU dmaU)) w0 (tNeed (tf 0 0 0) 8 8 true true) (ctxOf (gU dmaU) [0]) [0] ∧
    Issues (stOf (gU dmaU)) w0 (tNeed (tf 2 62 0) 2 2 true true) (ctxOf (gU dmaU) [0]) [0] ∧
    dmaBad (locOf 0x1000 0x80000000) (locOf 0x40 0) 64 0 = false ∧
    (∀ q ∈ (stOf (gU dmaU)).pieces (engOf 0 69 0 blk0 kernel 5) 2 0x1000 64, q ≠ .eat ∧ q ≠ .bad 4 ∧ q ≠ .bad 5) := by decide +kernel

/-! ## The array -/

/-- Whether gathering gave data. -/
def isData (r : Rows) : Bool := match r with | .data _ => true | _ => false
/-- An element 1.0 of an aligned block, and a block of them. -/
def ablk : ABlock := ⟨List.replicate 32 8, -3, false, false⟩
/-- A drain bank of the tile: 4 rows of 8 entries. -/
def bank0 (writing : Bool) : Bank := ⟨0, 0, List.replicate 4 (List.replicate 8 (DVal.fp 0x3F800000#32, false)), false, writing⟩
/-- The core whose array is a. -/
def kArr (a : Machine.Array) : Core := { coreOf (gU []) with arr := a }
/-- The part with that array at core 0, 8 eighths enabled. -/
def stA (a : Machine.Array) : State := withCore kernel (kArr a)
/-- One tile in the queue with no pass begun; staged; in the array; in the drain; written. -/
def arr0 : Machine.Array := { Array.idle with tiles := [tileN 0], nextTile := 1, eighths := 8 }
def ws0 : WSet := .of (tileN 0).desc (List.replicate 8 [ablk])
def arr1 : Machine.Array := { arr0 with tiles := [{ tileN 0 with staged := 1 }], stage := some (0, 0, ws0) }
def arr2 : Machine.Array := { arr0 with
  tiles := [{ tileN 0 with staged := 1, started := 1 }]
  pass := some (0, 0, ws0, List.replicate 4 [ablk]), banks := [some (bank0 false), none] }
def arr3 : Machine.Array := { arr0 with
  tiles := [{ tileN 0 with staged := 1, started := 1, ended := 1 }]
  drain := [(0, 0, passAccs (tileN 0).desc ws0 (List.replicate 4 [ablk]))], banks := [some (bank0 false), none] }
def arr4 : Machine.Array := { arr0 with
  tiles := [{ tileN 0 with staged := 1, started := 1, ended := 1, drained := 1 }], banks := [some (bank0 false), none] }
def arr5 : Machine.Array := { arr0 with
  tiles := [{ tileN 0 with staged := 1, started := 1, ended := 1, drained := 1, woStarted := 1 }], banks := [some (bank0 true), none] }
/-- The same tile in accumulate mode. -/
def tileAcc : Tile := { tileN 0 with desc := { (tileN 0).desc with acc := true } }
def arr6 : Machine.Array := { arr0 with tiles := [{ tileAcc with staged := 1, started := 1 }], banks := [some (bank0 false), none] }
/-- The engine of the tile in an engine slot. -/
def engT (slot : Nat) : Eng := engOf 0 slot 0 blk0 kernel 4

theorem witness_ArrayPasses_stage : arr0.stage = none ∧ arr0.toStage = some (tileN 0) ∧ (stA arr0).tileEng 0 65 (tileN 0) = some (engT 65) ∧
    isData ((stA arr0).gatherRows (engT 65) ((stA arr0).weightRows (engT 65) (tileN 0).desc 0).1) = true ∧
    isData ((stA arr0).gatherRows (engT 65) ((stA arr0).weightRows (engT 65) (tileN 0).desc 0).2) = true := by decide +kernel
theorem witness_ArrayPasses_start : arr1.pass = none ∧ arr1.tile? 0 = some { tileN 0 with staged := 1 } ∧
    takeBank arr1.banks ⟨0, 0, freshVals (tileN 0).desc 0, false, false⟩ ≠ none ∧ 8 ≤ arr1.eighths ∧ arr1.drainWaits = false ∧
    isData ((stA arr1).gatherRows (engT 66) ((stA arr1).actRows (engT 66) (tileN 0).desc 0).1) = true ∧
    isData ((stA arr1).gatherRows (engT 66) ((stA arr1).actRows (engT 66) (tileN 0).desc 0).2) = true := by decide +kernel
theorem witness_ArrayPasses_rest : arr2.pass.isSome = true ∧ arr2.state = 2 ∧ arr3.drainWaits = false ∧ (arr2.tile? 0).isSome = true ∧ arr3.drain.length = 1 ∧
    (arr3.tile? 0).isSome = true ∧ (∀ x, some x ∈ arr6.banks → x = bank0 false) ∧ arr6.tile? 0 = some { tileAcc with staged := 1, started := 1 } := by
  refine ⟨by decide, by decide +kernel, by decide +kernel, by decide +kernel, by decide +kernel, by decide +kernel, ?_, by decide +kernel⟩
  intro x hx; simpa [arr6] using hx
theorem witness_ArrayPasses_prior : isData ((stA arr6).gatherRows (engT 67) ((stA arr6).rowPieces (engT 67) tileAcc.desc.out
      (tileAcc.desc.outParts tileAcc.desc.ofmt false) 0 (tileAcc.desc.rowOf 0) (tileAcc.desc.rowsOf 0)
      (tileAcc.desc.colOf 0 * elemBits tileAcc.desc.ofmt / 8) (rowBytes tileAcc.desc.ofmt (tileAcc.desc.colsOf 0)))) = true := by
  decide +kernel
/-- R28, R40: 32 products of ones, each 8 at exponent −3, give 2,048 in eight planes, which is 32.0 in FP32. -/
theorem test_partial : accumulate (planes 4 3) ablk.q ablk.q = 2048 ∧ (⟨2048, 0, -6, false, false⟩ : ColAcc).fp = 0x42000000#32 := by
  decide +kernel
/-- R27: a 16-bit weight of −129 stands as 0x7F in its low column and −1 in its high one. -/
theorem test_pair : lowWeight 16 (packSlots 16 [-129]) 0 = 0x7F ∧ highWeight 16 (packSlots 16 [-129]) 0 = -1 := by decide
theorem witness_PartialsAreExact : ([7, -32768] : List Int)[1]? = some (-32768) ∧ -(2 : Int) ^ (16 - 1) ≤ -32768 ∧
    (-32768 : Int) < 2 ^ (16 - 1) ∧ (∀ a ∈ ([-8, 7] : List Int), -(2 : Int) ^ (4 - 1) ≤ a ∧ a < 2 ^ (4 - 1)) ∧
    (⟨1, 0, 0, true, false⟩ : ColAcc).nan = true := by decide

theorem witness_ArrayOutputAndFiller_write :
    arr4.toWrite = some ({ tileN 0 with staged := 1, started := 1, ended := 1, drained := 1 }, bank0 false) ∧
    (stA arr4).tileEng 0 68 (tileN 0) = some (engT 68) ∧ (tileN 0).desc.esp = false ∧ (tileN 0).desc.out.space = 0 ∧
    (tileN 0).desc.ofmt ∈ [12, 13, 14] ∧ (∀ x ∈ (bank0 false).vals, x.length = (tileN 0).desc.colsOf 0) ∧
    (bank0 false).vals.length = (tileN 0).desc.rowsOf 0 ∧
    (tileN 0).desc.out.stride ≥ rowBytes (tileN 0).desc.ofmt (tileN 0).desc.cols ∧
    (tileN 0).desc.out.addr + (tileN 0).desc.out.stride * (tileN 0).desc.m ≤ (engT 68).lunits * 4096 ∧ TraceOff (stA arr4) := by
  decide +kernel
theorem witness_ArrayOutputAndFiller_done : (∃ b, some b ∈ arr5.banks ∧ b.writing = true ∧ (arr5.tile? b.tile).isSome = true) ∧
    (∀ e, (stA arr5).tileEng 0 68 (tileN 0) = some e → (stA arr5).engBusy e = false) := by
  refine ⟨⟨bank0 true, by decide +kernel⟩, fun e h => ?_⟩
  have : (stA arr5).tileEng 0 68 (tileN 0) = some (engT 68) := by decide +kernel
  rw [this] at h; cases h; decide +kernel
/-- Tile 1, whose activations are tile 0's output. -/
def tile1 : Tile := { tileN 1 with desc := { (tileN 1).desc with act := ⟨0, 32, 0x4000⟩ }, interlock := false }
theorem witness_ArrayOutputAndFiller_interlock : ({ arr0 with tiles := [tile1] } : Machine.Array).tiles.find? (fun t => !t.interlock) = some tile1 ∧
    (coreOf g3).locked [] tile1.blk tile1.desc = false ∧ (coreOf g3).locked [tileN 0] tile1.blk tile1.desc = true := by decide +kernel
theorem test_ramp :
    after (exec (.fillerRampDown 0) (stA { arr0 with gap := some 47 })) (fun t => (t.core 0).arr.eighths == 8) = true ∧
    after (exec (.fillerRampDown 0) (stA { arr0 with gap := some 48 })) (fun t => (t.core 0).arr.eighths == 7) = true := by
  decide +kernel

/-! ## Loads of images, copies, blocks -/

/-- Core 0 without blocks. -/
def idle0 : State := { up0 State.reset with parts := [(0, part0)] }
theorem witness_LoadsCopiesAndBlocks_esp : idle0.linkUp 0 = true ∧ idle0.coreOwner 0 = 0 ∧ idle0.rgB (.esp 0) 0x010 0 = false ∧
    (idle0.core 0).blocks = [] ∧ idle0.commandOn 0 = false ∧ (up0 (stOf g3)).commandOn 0 = true := by decide +kernel
/-- An image load of a host from device address 64. -/
def espl (addr : Nat) : EspLoad := ⟨none, none, 2, addr, 0, 0, 0⟩
theorem witness_LoadsCopiesAndBlocks_refused : loadNow idle0 0 (espl 65) = .refused 10 ∧ loadNow ({ withCore kernel Core.idle with cmds := [] } : State) 0 (espl 64) = .wait := by decide +kernel
/-- An image of one ADD stage (R76): 192 bytes, its CRC 0x1CFA_9306. -/
def imgBytes : List Byte := [0x53, 0x45, 1, 0, 0xC0, 0, 0, 0, 1, 0xCC] ++ List.replicate 50 0 ++ [0x06, 0x93, 0xFA, 0x1C] ++ List.replicate 128 0
/-- A host's load of it from local memory. -/
def imgLd : EspLoad := ⟨none, none, 0, 0, 0, 0, 0⟩
def stImg : State := { idle0 with
  mem := ((upTo lmemBase 192).zip imgBytes).filter (fun x => x.2 != 0)
  cores := [(0, { Core.idle with esp := { Core.idle.esp with load := some imgLd } })] }
theorem test_image_crc : imgCrcBad imgBytes = false := by
  have e : imgBytes.take 0x3C ++ [0, 0, 0, 0] ++ imgBytes.drop 0x40 =
      imgBytes.take 48 ++ (List.replicate 48 0 ++ (List.replicate 48 0 ++ List.replicate 48 0)) := by decide +kernel
  have z (v w : W32) (h : (List.replicate 48 (0 : Byte)).foldl (fun c b => crcBit 8 (c ^^^ b.setWidth 32)) v = w) := h
  simp only [imgCrcBad, crc32, e, List.foldl_append]
  rw [show (imgBytes.take 48).foldl (fun c b => crcBit 8 (c ^^^ b.setWidth 32)) 0xFFFFFFFF#32 = 0x3D2DCCA1#32 by decide +kernel,
    z 0x3D2DCCA1#32 0x162DAC6F#32 (by decide +kernel), z 0x162DAC6F#32 0x8E983C0D#32 (by decide +kernel),
    z 0x8E983C0D#32 0xE3056CF9#32 (by decide +kernel)]
  decide +kernel
/-- What the espalier's engine reads at a place, clean. -/
abbrev ReadsClean (s : State) (e : Eng) (l : EspLoad) (a n : Nat) (bs : List Byte) : Prop :=
  s.imgPieces (some e) l n = [.here a n] ∧ s.gather e [.here a n] = .data (clean bs) ∧ (clean bs).any (·.2) = false ∧
    (clean bs).map (·.1) = bs
theorem loadNow_ok {s : State} {site : Nat} {l : EspLoad} {e : Eng} {a : Nat} {hd bs : List Byte} (he : s.imgEng site l = some e)
    (ha : l.addr % 64 = 0) (h : ReadsClean s e l a 64 hd) (hh : imgHeadCheck hd = none) (g : ReadsClean s e l a (imgNum hd 4 4) bs)
    (hb : imgBodyCheck bs = none) : loadNow s site l = .ok bs := by
  obtain ⟨p, q, c, d⟩ := h
  obtain ⟨p', q', c', d'⟩ := g
  simp [loadNow, State.imgLoad, he, ha, p, q, -List.any_eq_true, -List.any_eq_false, c, d, hh, p', q', c', d', hb]
/-- The espalier's engine for a host. -/
def espEng : Eng := ⟨0, 70, 0, noCid, 0, 0, [], 0, 128, 0, 0⟩
theorem test_image_read : ReadsClean stImg espEng imgLd lmemBase 64 (imgBytes.take 64) ∧ ReadsClean stImg espEng imgLd lmemBase 192 imgBytes := by
  decide +kernel
theorem test_image_checks : imgHeadCheck (imgBytes.take 64) = none ∧ imgNum (imgBytes.take 64) 4 4 = 192 ∧ imgStageBad imgBytes = false ∧
    imgOpBad imgBytes = false ∧ imgStatBad imgBytes = false := by decide +kernel
theorem witness_LoadsCopiesAndBlocks_loaded : loadNow stImg 0 imgLd = .ok imgBytes ∧ (stImg.core 0).esp.load = some imgLd ∧
    imgLd.slot < (stImg.core 0).esp.slots.length := by
  obtain ⟨k, n, x, y, z⟩ := test_image_checks
  exact ⟨loadNow_ok (by decide +kernel) rfl test_image_read.1 k (n ▸ test_image_read.2) (by simp [imgBodyCheck, test_image_crc, x, y, z]),
    by decide +kernel, by decide +kernel⟩
/-- A copy of 64 bytes from device address 0x1000 into local memory. -/
def job0 : DmaJob := ⟨0, 0, 0, 1, 0, 4, ⟨2, 0, 0x1000⟩, ⟨0, 0, 0x40⟩, 64⟩
def stDma : State := withReqs ((withCore kernel { coreOf g3 with dma := [job0], nextDma := 1 }).wg (.sc 0) 0x040 0xFFFF#32)
  [answered (engT 69) 0x1000 64]
/-- The same copy to device address 0x2000. -/
def job1 : DmaJob := { job0 with dst := ⟨2, 0, 0x2000⟩ }
/-- A copy whose bytes are all on their way. -/
def job2 : DmaJob := { job0 with len := 0 }
theorem witness_LoadsCopiesAndBlocks_dma : (stDma.core 0).dma.find? (fun x => x.id == 0) = some job0 ∧ stDma.engBusy (engT 69) = false ∧
    stDma.pieces (engT 69) 0 0x40 64 = [.here 0xF10000000040 64] ∧ Piece.own (engT 69) (.here 0xF10000000040 64) = true ∧
    gives (stDma.gather (engT 69) (stDma.pieces (engT 69) 2 0x1000 64)) 64 = true ∧ TraceOff stDma := by decide +kernel
theorem witness_LoadsCopiesAndBlocks_out : stDma.pieces (engT 69) job1.dst.space job1.dst.addr 64 = [.here 0x2000 64] ∧
    Piece.own (engT 69) (.here 0x2000 64) = false ∧ Numbered stDma ∧ job2.len = 0 ∧
    (withReqs stDma [{ answered (engT 69) 0x1000 64 with state := .sent }]).engBusy (engT 69) = true := by decide +kernel
/-- The kernel with no block placed, core 0 free and launched. -/
def stPlace : State := ({ withCore kernel Core.idle with cores := [] } : State).setReg 0 1 0 2
theorem witness_LoadsCopiesAndBlocks_place : stPlace.cmd? 1 = some kernel ∧ kernel.opcode = 1 ∧ kernel.nextBlock < kernel.blocks ∧
    stPlace.choose kernel = some 0 ∧ 0 ∈ kernel.launched ∧ 0 < kernel.threads ∧ kernel.threads ≤ 1024 := by decide +kernel
theorem witness_LoadsCopiesAndBlocks_stall : 2 ^ 22 ≤ ({ blk0 with stall := 4194304 } : Block).stall ∧ blk0.stopped = false := by decide +kernel

/-! ## Slices and interfaces -/

/-- The request alone, for a word of window 0. -/
def stReq (kind : ReqKind) : State := withReqs (stOf g3) [req0 kind 0xF00000000000]
/-- A write, and a reduction, of an array's drain that carry 64 bytes. -/
def reqBulk (kind : ReqKind) : Req := { req0 kind 0xF00000000000 with slot := 68, size := 64, line := List.replicate 64 1 }
theorem witness_AccessesAreServedAtTheirPlace : (∀ k ∈ [ReqKind.read, .write, .atomic 0x99, .reduce 0], AtPlace (stReq k) (req0 k 0xF00000000000)) ∧
    (stReq .write).recordFree ((stReq .write).placeSite 0xF00000000000) = true ∧ TraceOff (stReq .write) ∧
    (stReq (.atomic 0x99)).poisoned 0xF00000000000 4 = false := by decide +kernel
theorem witness_AccessesAreServedAtTheirPlace_bulk : ∀ k ∈ [ReqKind.read, .write, .reduce 0],
    AtPlace (withReqs (stOf g3) [reqBulk k]) (reqBulk k) ∧ (reqBulk k).size = 16 * reduceSize 0 ∧ (reqBulk k).fillL1 = false := by
  decide +kernel
/-- The state in which line 0 of external memory is in its home set with every sector valid. -/
def stHit : State := (((withReqs (stOf g3) [req0 .write 0x40]).wg (.sc 0) 0x040 0xFFFF).fillLine 0 0 2 0xF 0).getD State.reset
theorem witness_AccessesAreServedAtTheirPlace_hit : AtPlace stHit (req0 .write 0x40) := by decide +kernel
theorem test_slice_atomic : after (exec (.sliceAtomic 7 []) { stReq (.atomic 0x90) with mem := [(0xF00000000000, 5)] })
    (fun t => t.num 0xF00000000000 4 == 14 && (t.req? 7).any (fun q => q.result == 5)) = true := by decide +kernel

/-- An ORDERED command, and its contributions to one word of window 0 out of order. -/
def kerOrd : Cmd := { kernel with pkt := launchPkt.set 0 0x01070201 }
def stg (th : Nat) : Staged := ⟨0, 1, 0, th, 0, 0, 0xF00000000000, 1, false⟩
def reqOrd : Req := { req0 (.reduce 0) 0xF00000000000 with red := some (0, 33, 0) }
theorem witness_OrderedReductions :
    AtPlace (withReqs (withCore kerOrd Core.idle) [reqOrd]) reqOrd ∧ kerOrd.flag 9 = true ∧ kerOrd.status ≠ 0x13 ∧
    (withReqs (withCore kerOrd Core.idle) [reqOrd]).recordFree 0 = true ∧
    ((withReqs (withCore kerOrd Core.idle) [reqOrd]).half 0).staged.length + (reqOrd.terms 0).length ≤ 65536 := by decide +kernel
def stOrd : State := { withCore { kerOrd with phase := .ending } Core.idle with halves := [(0, { Half.empty with staged := [stg 5, stg 2] })] }
theorem witness_OrderedReductions_apply : ({ kerOrd with phase := .ending } : Cmd).isEnding = true ∧ stOrd.accessing 1 none = false := by
  decide +kernel
/-- Two reductions of half 0 to one word. -/
def reqStaged (rid : Nat) : Req := { req0 (.reduce 0) 0xF00000000000 with rid := rid, slot := 77, lane := 0 }
theorem witness_OrderedReductions_turn : (withReqs stOrd [reqStaged 6, reqStaged 7]).req? 7 = some (reqStaged 7) ∧
    (reqStaged 6).state = .arrived ∧ (reqStaged 6).addr < (reqStaged 7).addr + (reqStaged 7).size := by decide +kernel

/-- Interface 0 ready, with accesses that wait. -/
def stMif (m : Mif) (h : Half) : State := { State.reset.wgF (.mif 0) 0x000 1 0 2 with mifs := [(0, m)], halves := [(0, h)] }
def miss0 (fetched : Bool) : Miss := ⟨0, 0xF, 0, fetched, [7], 0, 0⟩
theorem witness_FillsAndWriteBacks_read : (stMif { Mif.idle with waitingReads := [0, 1] } Half.empty).mifRuns 0 false = true := by
  decide +kernel
theorem witness_FillsAndWriteBacks_write :
    (stMif { Mif.idle with waitingWrites := [0], inited := [0] } { Half.empty with wb := [⟨0, 3, true⟩] }).mifRuns 0 true = true ∧
    (stMif { Mif.idle with waitingWrites := [0], inited := [0] } Half.empty).isInit 0 = true ∧
    (stMif { Mif.idle with waitingWrites := [0] } Half.empty).offOf 0 / 65536 = 0 := by decide +kernel
/-- Line 0 fetched for partition 0, which may fill every way. -/
def stFill : State := (stMif Mif.idle { Half.empty with misses := [miss0 true] }).wg (.sc 0) 0x040 0xFFFF
theorem witness_FillsAndWriteBacks_fill : (stFill.half 0).misses.find? (fun m => m.line == 0 && m.fetched) = some (miss0 true) ∧
    ((stFill.modHalf 0 (fun x => { x with misses := x.misses.filter (fun y => y.line != 0) })).fillLine 0 0
      (fillRrv (stFill.policy 0 0)) 0xF 0).isSome = true := by decide +kernel
theorem witness_FillsAndWriteBacks_victim : ((stMif Mif.idle { Half.empty with wb := [⟨5, 3, false⟩] }).half 0).victim 5 = some ⟨5, 3, false⟩ ∧
    (stMif Mif.idle Half.empty).rgB (.mif 0) 0x000 7 = false ∧ (stMif Mif.idle Half.empty).rgB (.mif 0) 0x000 8 = false := by
  decide +kernel
theorem witness_FillsAndWriteBacks_waiting : let t := withReqs stFill [req0 .write 0x40]
    t.req? 7 = some (req0 .write 0x40) ∧ (req0 .write 0x40).isOrder = false ∧ (req0 .write 0x40).slot ≠ 77 ∧ (t.half 0).misses = [miss0 true] := by
  decide +kernel

/-- The temperatures of 18 dies, die 3 the warmest. -/
def dies (t : Int) : List Int := (List.replicate 18 40).set 3 t
theorem witness_InterfaceAndRetention_temp : ∀ t ∈ [(96 : Int), 106, 116], (stMif Mif.idle Half.empty).mifReady 0 = true ∧
    (dies t)[3]? = some t ∧ (∀ x ∈ dies t, x ≤ t) ∧ (∀ i < 3, (dies t)[i]? ≠ some t) ∧ (dies t).length ≤ 18 := by decide +kernel
/-- Device writes held, nine cool readings so far. -/
def stHeld : State := (stMif { Mif.idle with coolWr := 9, coolAll := 9 } Half.empty).wgF (.mif 0) 0x000 8 7 3
theorem witness_InterfaceAndRetention_release : stHeld.rgB (.mif 0) 0x000 7 = true ∧ stHeld.rgB (.mif 0) 0x000 8 = true ∧
    9 ≤ (stHeld.mif 0).coolWr ∧ 9 ≤ (stHeld.mif 0).coolAll ∧ (stHeld.mif 0).retraining = false := by decide +kernel
/-- Half 0 with every region parked and the rails on; retained; waking; woken 10 ms ago. -/
def stPark (h : Half) (now : Nat) : State :=
  let s := State.reset.wgF (.pwr 0) 0x000 1 0 3
  { s with halves := [(0, h)], time := { s.time with now := now } }
theorem witness_InterfaceAndRetention_entry : (stPark Half.empty 0).allParked 0 = true ∧ (stPark Half.empty 0).rgB (.pwr 0) 0x000 1 = true := by
  decide +kernel
theorem witness_InterfaceAndRetention_wake :
    (withReqs (stPark { Half.empty with retained := true } 0) [req0 .read 0xF00000000000]).requestAt 0 = true := by decide +kernel
theorem witness_InterfaceAndRetention_back : (stPark { Half.empty with woken := true } 2500000).requestAt 0 = false ∧
    ((stPark { Half.empty with woken := true } 2500000).half 0).lastUse + 2500000 ≤ (stPark { Half.empty with woken := true } 2500000).time.now := by
  decide +kernel

/-! ## The network -/

/-- A packet at router 0 for router 1 or 2. -/
def pkt0 (dest : Nat) : Packet := ⟨3, 7, false, 0, 0, Endpoint.core.input 0, 0, dest, .slice, 0, false, false, 0, []⟩
def stPkt (dest : Nat) (st : ReqState) (kind : ReqKind) (more : List Packet) : State :=
  let s := withReqs (stOf g3) [{ req0 kind (0xF00000000000 + dest * 0x400000) with state := st }]
  { s with net := { s.net with packets := pkt0 dest :: more, nextPid := 9 } }
/-- A state in which a master's request has been performed and its answer is at the router where the master waits. -/
def backOf (s : State) (r : Req) : State :=
  let p := s.portal r (s.placeSite r.addr)
  let t := withReqs s [{ r with rid := 7, state := .performed }]
  { t with net := { t.net with packets := [{ pkt0 p with response := true, at_ := p, endpoint := r.door }] } }
/-- The answer arrives next. -/
abbrev Back (s : State) (r : Req) : Prop :=
  Numbered (backOf s r) ∧ (backOf s r).req? 7 = some { r with rid := 7, state := .performed } ∧ r.remote = none ∧
  ((backOf s r).net.packets.find? (fun k => k.rid == 7 && k.response && k.at_ == k.dest && (backOf s r).canMove k && (backOf s r).wins k)).isSome = true
theorem witness_PacketsAndResponses_hop : ∀ d ∈ [1, 2], ∀ x ∈ [(ReqState.sent, ReqKind.read), (.performed, .write)],
    let s := stPkt d x.1 x.2 []
    s.net.packets.find? (fun k => k.pid == 3) = some (pkt0 d) ∧ d ∉ s.net.bypassed ∧ s.onward (pkt0 d) = some (1, false, []) ∧
    s.canMove (pkt0 d) = true ∧ s.wins (pkt0 d) = true ∧ (s.req? 7).any (fun r => r.state == x.1 && r.kind == x.2) = true ∧
    s.placeSite (0xF00000000000 + d * 0x400000) = d := by decide +kernel
/-- A packet at its destination: with a request, a write performed before, an end order for a core in service or fenced. -/
def stThere (r : Req) (dest : Nat) : State :=
  let s := withReqs (stOf g3) [r]
  { s with net := { s.net with packets := [{ pkt0 dest with at_ := dest, input := Endpoint.core.input dest }] } }
theorem witness_PacketsAndResponses_there :
    (∀ x ∈ [(req0 .read 0xF00000400000, ReqState.sent), (req0 .write 0xF00000400000, .performed), (orderReq 0 1 (.endOrder 1 1), .sent)],
      let r := { x.1 with rid := 7, state := x.2 }
      let k : Packet := { pkt0 1 with at_ := 1, input := Endpoint.core.input 1 }
      let s := stThere r 1
      s.net.packets.find? (fun p => p.pid == 3) = some k ∧ s.canMove k = true ∧ s.wins k = true ∧ s.req? 7 = some r ∧
      s.placeSite r.addr = 1 ∧ s.placeSite r.addr ≠ r.site ∧ hasSite s.roster.fenced 1 = false) ∧
    (ordReq (.endOrder 1 1) .sent).isOrder = true ∧
    (let s := stThere (ordReq (.endOrder 1 1) .sent) 1
     hasSite ({ s with roster := { s.roster with fenced := 2 } } : State).roster.fenced 1 = true) := by decide +kernel
/-- A packet of class 3, and a packet of class 0 that waits for the same output. -/
theorem witness_PacketsAndResponses_stays :
    let k : Packet := { pkt0 2 with cls := 3 }
    let q : Packet := { pkt0 1 with pid := 4 }
    let s := { stPkt 2 .sent .read [] with net := { (stPkt 2 .sent .read []).net with packets := [k, q] } }
    s.output q = s.output k ∧ s.canMove q = true ∧ q.cls = 0 ∧ k.cls ≠ 0 ∧ q.at_ = k.at_ ∧ q.pid ≠ k.pid := by
  decide +kernel
theorem witness_PacketsAndResponses_crossing : ∃ i j, siteStack i = 0 ∧
    ({ State.reset with net := { State.reset.net with crossing := [(0, 9)] } } : State).heldCrossing i j = true :=
  ⟨7, 8, by decide +kernel⟩
def reqDone : Req := { req0 .read 0x40 with state := .performed, result := 0x1234, fillL1 := true }
theorem witness_PacketsAndResponses_load : (withReqs (stOf g3) [reqDone]).req? 7 = some reqDone ∧
    reqDone.slot ≤ 64 ∧ reqDone.refused = false ∧ reqDone.result.toNat < 2 ^ (8 * reqDone.size) ∧ 4 + words reqDone.size ≤ 256 ∧ (reqDone.attempt = 0 ∧ reqDone.remote = none) ∧
    mfind ((withReqs (stOf g3) [reqDone]).core 0).groups 0 = some g3 ∧ reqDone.lane < g3.threads.length ∧
    (let p : Packet := { pkt0 0 with response := true }
     let s := withReqs (stOf g3) [reqDone]
     let t : State := { s with net := { s.net with packets := [p] } }
     ∃ k ∈ t.net.packets, k.rid = 7 ∧ k.response = true ∧ k.at_ = k.dest ∧ t.canMove k = true ∧ t.wins k = true) := by
  decide +kernel
/-- A response that nothing waits for any more. -/
theorem witness_PacketsAndResponses_gone :
    let p : Packet := { pkt0 0 with response := true, rid := 8 }
    let s := { stOf g3 with net := { (stOf g3).net with packets := [p] } }
    s.req? 8 = none ∧ s.net.packets.find? (fun k => k.rid == 8 && k.response && k.at_ == k.dest && s.canMove k && s.wins k) = some p := by decide +kernel
def stLate (attempt now : Nat) : State :=
  let s := withReqs (stOf g3) [{ req0 .read 0xF00000400000 with state := .sent, attempt := attempt }]
  { s with time := { s.time with now := now } }
theorem witness_PacketsAndResponses_retry : (∀ x ∈ [(0, 5000), (1, 10000), (2, 15000)],
      ((stLate x.1 x.2).req? 7).any (fun r => !r.ended && !r.held && decide (r.slot ≤ 70 ∧ r.sentAt = 0)) = true) ∧
    0 + 5000 * (1 + 1) ≤ (stLate 1 10000).time.now ∧ (stLate 2 15000).placeSite 0xF00000400000 = 1 ∧
    0 + 15000 ≤ (stLate 2 15000).time.now ∧ Numbered (stLate 2 15000) := by decide +kernel
/-- The last attempt of a host port, of a command's processor, and of an end order. -/
theorem witness_PacketsAndResponses_late : ∀ x ∈ [(72, ReqKind.read, 70), (71, .write, 70), (71, .order (.endOrder 1 1), 71)],
    let r := { req0 x.2.1 0xF00000400000 with slot := x.1, state := .sent, attempt := 2 }
    let s := { withReqs (stOf g3) [r] with time := (stLate 2 15000).time }
    s.req? 7 = some r ∧ r.ended = false ∧ r.held = false ∧ Numbered s ∧ r.sentAt + 15000 ≤ s.time.now ∧ x.2.2 ≤ r.slot ∧
    (x.2.2 = 71 ↔ r.isOrder = true) := by decide +kernel
theorem witness_PacketsAndResponses_release : ∀ r, (stOf g3).req? 7 = some r → r.state = .answered ∧ r.remote = none := by
  intro r h; cases h
/-- A window boundary at which one budget waits; and stack 0 in compatibility mode. -/
def stWin : State := { State.reset with
  net := { State.reset.net with pendingRegs := [((Blk.msh 0).base + 0x100, 5)] }, time := ⟨250, [], [], true, []⟩ }
def stComp (c : Cmd) : State := (withCore c Core.idle).wgB (.msh 0) 0x000 0 true
theorem witness_WindowsAndRings : stWin.time.now % 250 = 0 ∧ (∀ x ∈ stWin.net.pendingRegs, ∀ y ∈ stWin.net.pendingRegs, x.1 = y.1 → x = y) ∧
    mfind ({ State.reset.net with crossing := [(0, 9)] } : Net).crossing (2 * 0 + 0) = some 9 := by decide +kernel
theorem witness_WindowsAndRings_ring : ∀ c ∈ [{ kernel with launched := [] }, { kernel with phase := .ending }, { kernel with ordered := [0] }],
    (stComp c).ringRuns 0 = true ∧ (stComp c).cmd? 1 = some c ∧ (stComp c).accessing 1 (some 0) = false ∧ 0 ∈ c.cores ∧
    (stComp c).rgB (.msh 0) 0x000 0 = true ∧
    (c.phase = .ending → c.isEnding = true ∧ 0 ∈ c.launched ∧ 0 ∉ c.ordered) ∧
    (c.ordered = [0] → 0 ∉ c.acked) ∧ (c.launched = [] → c.phase = .running ∧ c.begun = true ∧ mfind c.startVals 0 = none) ∧
    (stComp c).order? (.launch 1 0) = none ∧ (stComp c).order? (.endOrder 1 0) = none := by decide +kernel
/-- A core that a ring's fence order waits for, and one whose partition is being reset. -/
theorem witness_WindowsAndRings_orders : (let s := stComp kernel
     let t : State := { s with net := { s.net with fences := [(0, 4)] } }
     (mfind t.net.fences 0).isSome = true ∧ t.removable 0 = true ∧ t.ringRuns 0 = true) ∧
    (let t : State := { stComp kernel with parts := [(0, { part0 with resetting := true })] }
     t.coreResets 0 = true ∧ t.ringRuns 0 = true) := by decide +kernel

/-! ## Slices that are checked, mended and taken out -/

/-- Half 0 with its scrubber on and one region up; line 0 lies in its cache, region 0 of its device is initialised; the first pass over
its only granule may go on. -/
def stScrub : State :=
  let s := ((State.reset.setReg 0 1 0 2).wgF (.mif 0) 0x000 1 0 2).wg (.sc 0) 0x040 0xFFFF
  { s with
    halves := [(0, { Half.empty with granules := [0], lines := [(0, ⟨0, 0xF, 0, 2, false, false, 0⟩)], scrubAt := 0 })]
    mifs := [(0, { Mif.idle with inited := [0] })], time := { s.time with now := 10 ^ 12 } }
theorem witness_ScrubsRemapsAndPorts_scrub : stScrub.scrubs (.sc 0) 0 = true ∧ TraceOff stScrub ∧
    scrubNext (stScrub.scrubRuns 0) (stScrub.half 0).scrubPos = some (0, 1, false) ∧
    (stScrub.half 0).scrubAt + stScrub.scrubGap (.sc 0) (32 * (stScrub.scrubRuns 0).length) ≤ stScrub.time.now ∧
    stScrub.classZeroAt 0 0 = false ∧
    stScrub.scrubs (.mif 0) 0 = true ∧ stScrub.mifRuns 0 false = true ∧ (stScrub.mif 0).scrubWrite = none ∧
    scrubNext (stScrub.scrubBeats 0) (stScrub.mif 0).scrubPos = some (0, 1, false) ∧
    (stScrub.mif 0).scrubAt + stScrub.scrubGap (.mif 0) (2048 * (stScrub.scrubBeats 0).length) ≤ stScrub.time.now ∧
    stScrub.mifRuns 0 true = true := by
  decide +kernel
/-- Two check bits of a word flipped are an uncorrectable error, whichever columns the data bits have. -/
theorem witness_ScrubsRemapsAndPorts_lost :
    (∀ w ∈ [0x0, 0xF00000000000], verdict (stScrub.syndrome w (.flips [256, 257])) = .uncorrectable) := by
  have h : ∀ w ∈ [0x0, 0xF00000000000], stScrub.syndrome w (.flips [256, 257]) = 3 := by decide +kernel
  intro w hw
  rw [h w hw]
  exact verdict_even (by decide) (by decide) (by decide)
theorem witness_ScrubsRemapsAndPorts_word : stScrub.wordAddr 0 0 0 = some 0 ∧ stScrub.inSlices 0 = true := by decide +kernel
/-- Entry 31 of half 0's log holds an uncorrectable word 3 of slice 255; and entry 0 of device 0's, line 9. -/
def stLog : State := (State.reset.wg (.sc 0) (logOff 31) 3).wg (.sc 0) (logOff 31 + 4) (BitVec.ofNat 32 (255 + 3 * 256))
theorem witness_ScrubsRemapsAndPorts_remap : stLog.rg (.sc 0) (logOff 31 + 4) = BitVec.ofNat 32 (255 + 3 * 256) ∧
    stLog.qualifies (.sc 0) scLog 31 = true ∧ (∃ j < 16, stLog.rgB (.sc 0) (0x2300 + 4 * j) 0 = false) ∧
    (∀ k < 32, k ≠ 31 → stLog.rg (.sc 0) (logOff k + 4) ≠ BitVec.ofNat 32 (255 + 3 * 256)) ∧
    (∀ j < 16, stLog.rg (.sc 0) (0x2300 + 4 * j) ≠ BitVec.ofNat 32 (1 + 255 * 2 + 3 * 512)) := by
  refine ⟨by decide +kernel, by decide +kernel, ⟨0, by decide, by decide +kernel⟩, by decide +kernel, by decide +kernel⟩
/-- The sixteen entries of the remap table taken. -/
def stFull : State := (upTo 0 16).foldl (fun s j => s.wg (.sc 0) (0x2300 + 4 * j) 1) stLog
theorem witness_ScrubsRemapsAndPorts_full : ∀ j < 16, stFull.rgB (.sc 0) (0x2300 + 4 * j) 0 = true ∧
    stFull.rg (.sc 0) (0x2300 + 4 * j) ≠ BitVec.ofNat 32 (1 + 255 * 2 + 3 * 512) := by decide +kernel
def stMemLog : State := (State.reset.wg (.mif 0) (logOff 0) 3).wg (.mif 0) (logOff 0 + 4) (BitVec.ofNat 32 (9 * 8))
theorem witness_ScrubsRemapsAndPorts_memory : stMemLog.rgF (.mif 0) (logOff 0 + 4) 31 3 = 9 ∧ stMemLog.qualifies (.mif 0) mifLog 0 = true ∧
    (∀ j < 8, stMemLog.rgB (.mif 0) (0x2300 + 8 * j) 0 = false) := by decide +kernel
/-- The port of slice 0 is due for a test. -/
def stDue : State := stScrub.modHalf 0 (fun x => { x with portDue := [(0, 0)] })
theorem witness_ScrubsRemapsAndPorts_port : stDue.retired 0 0 = false ∧ stDue.rgB (.sc 0) 0x2800 9 = false ∧
    (upTo 0 256).countP (fun i => stDue.rgB (.sc 0) (0x2800 + 4 * i) 9) < 4 ∧ (mfind (stDue.half 0).portDue 0).isSome = true ∧
    stDue.regionOn (regionOf (sliceSite 0 0)) = true ∧ (stDue.wgB (.sc 0) 0x2800 9 true).rgB (.sc 0) 0x2800 9 = true ∧
    (stScrub.half 0).portDue = [] ∧ stScrub.periodDue 0 1 = false := by
  decide +kernel
theorem witness_ScrubsRemapsAndPorts_lanes : mfind Half.empty.laneBad (255 * 2048 + 2047) = none ∧
    1 ∉ Half.empty.laneGroup 255 63 ∧ 1 ∈ ({ Half.empty with laneBad := [(255 * 2048 + 2046, 1)] } : Half).laneGroup 255 63 := by
  decide +kernel

/-- Slice 0 due for retirement; with a window that partition 0 uses; retired. -/
def stRet : State := { stOf g3 with halves := [(0, { Half.empty with retireDue := [0] })] }
def stRetW : State := { stRet.wgF (.sc 0) 0x800 2 0 1 with granules := [0xF00000000000 / 1024] }
theorem witness_SlicesRetireAndTranspose : stRet.retired 0 0 = false ∧ stRet.winSize 0 0 = 0 ∧ stRetW.winSize 0 0 ≠ 0 ∧
    stRetW.windowUsed 0 0 = true ∧ stRetW.cmd? 1 = some kernel ∧ kernel.admin = false ∧ kernel.begun = true ∧
    stRetW.winPart 0 0 = kernel.part ∧ (stRet.wgF (.sc 0) 0x2800 1 0 3).retired 0 0 = true ∧
    ((stRet.wgF (.sc 0) 0x2800 1 0 3).rehomed 0 0).isSome = true ∧ (∃ j < 256, j ≠ 0 ∧ stRet.retired 0 j = false) := by decide +kernel
/-- A TRANSPOSE of 64 × 64 halfwords, under way. -/
def kerX : Cmd := cmdOf 1 .running [0x01070004, 0x00050012, 0x10000, 0, 0x80000, 0, 64, 64, 2, 128, 128, 0, 0, 0, 0, 0]
def stX : State := (withCore kerX Core.idle).wg (.sc 0) 0x040 0xFFFF
theorem witness_SlicesRetireAndTranspose_piece : kerX.opcode = 4 ∧ kerX.begun = true ∧ (stX.half 0).xposeBusy = [] ∧ kerX.engines = [] ∧
    kerX.xpose.chunks.find? (fun i => !kerX.pieces.contains i && stX.xposeHalf i == 0 && kerX.engines.all (fun y => y.2.1 != i)) = some 0x80 ∧
    (stX.xposeFound kerX (stX.xposeEng kerX 0 1) (kerX.xpose.readsOf 0x80)).isNone = true ∧ TraceOff stX := by
  decide +kernel
/-- A piece of a TRANSPOSE of one row of four halfwords at an engine, read; and written. -/
def kerXe (b : Bool) : Cmd := { cmdOf 1 .running [0x01070004, 0x00050012, 0x10000, 0, 0x80000, 0, 1, 4, 2, 128, 128, 0, 0, 0, 0, 0] with
  engines := [(1, 0x80, b)] }
theorem witness_SlicesRetireAndTranspose_engine :
    (let e := stX.xposeEng (kerXe false) 0 1
     let rs := (((kerXe false).xpose.readsOf 0x80).flatMap (fun r => linePieces r.1 r.2)).map (fun x => answered e x.1 x.2)
     ((withReqs stX rs).xposeFound (kerXe false) e ((kerXe false).xpose.readsOf 0x80)).isSome = true) ∧
    (kerXe true).engines.find? (fun y => y.1 == 2 * 0 + 1) = some (2 * 0 + 1, 0x80, true) ∧
    (withReqs stX []).engBusy (stX.xposeEng (kerXe true) 0 1) = false := by decide +kernel

/-! ## Coppice -/

/-- Site 5 enabled, with the kernel's block on it; site 9 waking in its place; a bad lane at site 6. -/
def stCop : State :=
  let s := State.reset.setReg 0 1 0 2
  { s with
    parts := [(0, part0)], cmds := [kernel], cores := [(5, coreOf g3)]
    roster := { s.roster with enabled := 0x60, waking := [(9, 5)], badLane := [(6, 3)] } }
theorem witness_CoresAreReplaced : stCop.removable 5 = true ∧ stCop.removable 7 = false ∧ (stCop.core 5).blocks = [(0, blk0)] ∧
    stCop.cmd? 1 = some kernel ∧ stCop.noReplay 5 (some 0) blk0 false = none ∧ stCop.order? (.fence 5) = none ∧ stCop.order? (.fence 7) = none ∧
    stCop.ringRuns 5 = false ∧ Numbered stCop := by decide +kernel
/-- The fence order on its way to site 5, and there. -/
theorem witness_CoresAreReplaced_order : ∀ st ∈ [ReqState.sent, .arrived],
    let s := withReqs stCop [ordReq (.fence 5) st]
    let t : State := { s with net := { s.net with fences := [(5, 4)] } }
    t.order? (.fence 5) = some (ordReq (.fence 5) st) ∧ (mfind t.net.fences 5).isSome = true ∧ t.removable 5 = true := by decide +kernel
theorem witness_CoresAreReplaced_wake : mfind stCop.roster.waking 9 = some 5 ∧ (stCop.setReg (regionOf 9) 1 0 2).regionOn (regionOf 9) = true ∧
    hasSite stCop.roster.fenced 9 = false ∧ mfind stCop.roster.badLane 5 = none ∧ mfind stCop.roster.badLane 6 = some 3 ∧ 3 / 16 ≠ 16 / 16 := by
  decide +kernel
/-- The window of 1 MiB beneath site 5. -/
def stWcp : State := stCop.wgF (.sc (siteHalf 5)) (0x800 + 4 * siteSlice 5) 2 0 1
theorem witness_CoresAreReplaced_window : stWcp.winSize (siteHalf 5) (siteSlice 5) = 1 ∧
    stWcp.retired (siteHalf 5) (siteSlice 5) = false ∧ stWcp.sliceTakes 9 1 = true ∧ mkeysUp stWcp.mem = true ∧ TraceOff stWcp := by
  decide +kernel
/-- The kernel with a block that waits for its replay. -/
def kerRep : Cmd := { kernel with replay := [(4, blk0)] }
def stRep : State := { ({ withCore kerRep Core.idle with cores := [] } : State).setReg 0 1 0 2 with cmds := [kerRep] }
theorem witness_CoresAreReplaced_replay : stRep.cmd? 1 = some kerRep ∧ kerRep.replay.find? (fun y => y.1 == 4) = some (4, blk0) ∧
    stRep.choose kerRep = some 0 ∧ 0 ∈ kerRep.cores ∧ 0 ∈ kerRep.launched ∧ blk0.images = [] := by decide +kernel

theorem witness_UnitsFail_regulator : stCop.regF 255 3 3 = 0 ∧ stCop.regF 255 1 0 ≠ 3 ∧ (∀ x ∈ neighboursOf 255, stCop.regF x 3 3 ≠ 1) ∧
    ((∀ x ∈ neighboursOf 0, ((stCop.setReg 1 3 3 1).setReg 4 3 3 1).regF x 3 3 = 1)) := by decide +kernel
/-- Four bypassed routers in stack 0's lower layer. -/
def stByp (l : List Nat) : State := { State.reset with net := { State.reset.net with bypassed := l } }
theorem witness_UnitsFail_router : (stByp []).bypassRule 255 = true ∧ 255 ∉ (stByp []).net.bypassed ∧
    (stByp [254]).bypassRule 255 = false := by decide +kernel
theorem witness_UnitsFail_flash : State.reset.flash.storing = none ∧
    State.reset.flash.due = false ∧ ({ State.reset.flash with due := true } : Flash).due = true ∧
    ({ State.reset with boot := { State.reset.boot with bank := some 0 } } : State).boot.bank.isSome = true ∧
    ({ State.reset.flash with storing := some (.health 1 Health.blank 3) } : Flash).storing = some (.health 1 Health.blank 3) := by
  decide +kernel

/-! ## Queues -/

/-- Queue 0 of partition 0 on host port 0: two entries, rings in the partition's memory, one packet waiting. -/
def q0 : Queue :=
  { Queue.reset with en := true, sqDev := true, cqDev := true, detailDev := true, sizeM1 := 1, sqTail := 1, sqBase := 0x1000, cqBase := 0x2000
                     detailBase := 0x3000 }
/-- Host port 0 up with queue q0, and commands. -/
def stQ (q : Queue) (cs : List Cmd) : State :=
  let s := (up0 State.reset).wg (.sc 0) 0x040 0xFFFF
  { s with
    parts := [(0, part0)], cmds := cs, host := { s.host with queues := [(0, q)] }
    roster := { s.roster with enabled := 0xFFFF } }
theorem witness_QueuesAndDoorbells_enable : (stQ { q0 with en := false } []).linkUp 0 = true ∧ (stQ { q0 with en := false } []).queueOf 0 0 = true ∧
    ((stQ { q0 with en := false } []).queue 0 0).en = false ∧ (0x0000010F : W32).getLsbD 0 = true ∧
    (stQ { q0 with en := false } []).baseOk 0 true 0x1000 128 = true ∧ (stQ { q0 with en := false } []).baseOk 0 true 0x1001 128 = false := by
  decide +kernel
/-- A write of the window that waits on host port 0. -/
def stPosted : State :=
  let s := stQ q0 []
  { s with host := { s.host with ports := [(0, { Port.reset with posted := [(true, 0x40, [1, 2, 3, 4])] })] } }
theorem witness_QueuesAndDoorbells_posted : stPosted.linkUp 0 = true ∧ (stPosted.port 0).posted ≠ [] ∧ ((stQ q0 []).port 0).posted = [] ∧
    (stQ q0 []).linkUp 0 = true := by decide +kernel
theorem witness_QueuesAndDoorbells_doorbell : (stQ q0 []).queueLive 0 0 = true ∧ (1 : Nat) < q0.size ∧ q0.size ≤ 2 ∧ (2 : Nat) ≠ q0.sqTail ∧
    (stQ { q0 with en := false } []).queueLive 0 0 = false := by decide +kernel
theorem witness_QueuesAndDoorbells_fetch : (stQ q0 []).mayFetch 0 0 = true ∧ (stQ q0 []).cmds = [] ∧ Numbered (stQ q0 []) ∧
    (stQ q0 []).gatherOne ((stQ q0 []).ringEng 0 0) (.here 0x1000 64) = .wait ∧ q0.sqBase + 64 * q0.sqHead = 0x1000 ∧
    gives ((withReqs (stQ q0 []) [answered ((stQ q0 []).ringEng 0 0) 0x1000 64]).gatherOne ((stQ q0 []).ringEng 0 0) (.here 0x1000 64)) 64 = true ∧
    (withReqs (stQ q0 []) [answered ((stQ q0 []).ringEng 0 0) 0x1000 64]).mayFetch 0 0 = true := by decide +kernel
/-- A queue whose ring lies in the host's memory, with the read of its entry out or not. -/
def stQh (out : List Nat) : State :=
  let s := stQ { q0 with sqDev := false } []
  { s with host := { s.host with ports := [(0, { Port.reset with reads := out })] } }
theorem witness_QueuesAndDoorbells_host : (stQh []).mayFetch 0 0 = true ∧ ((stQh []).port 0).reads = [] ∧ (stQh [0]).mayFetch 0 0 = true ∧
    0 ∈ ((stQh [0]).port 0).reads ∧ ((stQh []).queue 0 0).sqDev = false := by decide +kernel
/-- Vector 5 to send, masked or not. -/
def stIrq (m : List Nat) : State :=
  let s := up0 State.reset
  { s with host := { s.host with ports := [(0, { Port.reset with irqs := [5] })], msixUnmasked := m } }
theorem witness_QueuesAndDoorbells_irq : ((stIrq [5]).port 0).irqs = [5] ∧ (stIrq []).linkUp 0 = true ∧ 0 * 2048 + 5 ∈ (stIrq [5]).host.msixUnmasked ∧ 0 * 2048 + 5 ∉ (stIrq []).host.msixUnmasked ∧
    ((stIrq []).port 0).d3hot = false := by
  decide +kernel

/-- A command of partition 0 that has been accepted. -/
abbrev dueCmd (pkt : List W32) : Cmd := { cmdOf 1 .accepted pkt with begun := false, cores := [], launched := [] }
/-- The state in which it may act. -/
def due (pkt : List W32) : State := stQ q0 [dueCmd pkt]
/-- A packet with an opcode and a few words. -/
def pk (op : Nat) (ws : List W32) : List W32 :=
  (BitVec.ofNat 32 (0x01070000 + op) : W32) :: 0 :: ws ++ List.replicate (14 - ws.length) 0
theorem witness_CommandsStartOrAreRefused : ∀ p ∈ [(0x77, [], 1), (0x38, [], 3), (0x08, [(0xFFF : W32)], 2), (0x02, [0, 0, 0x200000, 0, 64, 0], 4)],
    (due (pk p.1 p.2.1)).cmd? 1 = some (dueCmd (pk p.1 p.2.1)) ∧ (due (pk p.1 p.2.1)).canStart (dueCmd (pk p.1 p.2.1)) = true ∧
    (due (pk p.1 p.2.1)).refusal (dueCmd (pk p.1 p.2.1)) = some p.2.2 := by decide +kernel
/-- A SIGNAL behind an unfinished command may not start. -/
theorem witness_CommandsStartOrAreRefused_waits :
    (stQ q0 [kernel, { cmdOf 2 .accepted (pk 8 []) with begun := false }]).canStart { cmdOf 2 .accepted (pk 8 []) with begun := false } = false := by
  decide +kernel

/-! ## Boundaries -/

/-- The kernel accepted at core 0 but not launched there; ending there; acknowledged; bounded. -/
def kNew : Cmd := { kernel with launched := [] }
def kEnd : Cmd := { kernel with phase := .ending, replay := [] }
def kAck : Cmd := { kEnd with ordered := [0] }
def kAll : Cmd := { kAck with acked := [0], recIndex := 4 }
def kBnd : Cmd := { kAll with phase := .bounded, bounded := 9 }
theorem witness_CommandBoundaries : (withCore kNew Core.idle).cmd? 1 = some kNew ∧ kNew.begun = true ∧ 0 ∈ kNew.cores ∧ 0 ∉ kNew.launched ∧
    kEnd.phase = .ending ∧ 0 ∈ kEnd.launched ∧ 0 ∉ kEnd.ordered ∧ 0 ∈ kAck.ordered ∧ 0 ∉ kAck.acked ∧
    (withCore kAck Core.idle).accessing 1 (some 0) = false ∧
    (withReqs (withCore kAck Core.idle) [req0 .write 0x40]).accessing 1 (some 0) = true := by decide +kernel
theorem witness_CommandBoundaries_sent : ∀ x ∈ [(kNew, CtlMsg.launch 1 0), (kEnd, .endOrder 1 0)],
    (withCore x.1 Core.idle).order? x.2 = none ∧ (withCore x.1 Core.idle).ringRuns 0 = false ∧ Numbered (withCore x.1 Core.idle) := by decide +kernel
theorem witness_CommandBoundaries_came : ∀ x ∈ [(kNew, CtlMsg.launch 1 0, ReqState.arrived), (kEnd, .endOrder 1 0, .arrived), (kAck, .endOrder 1 0, .missing)],
    (withReqs (withCore x.1 Core.idle) [ordReq x.2.1 x.2.2]).order? x.2.1 = some (ordReq x.2.1 x.2.2) ∧
    (withReqs (withCore x.1 Core.idle) [ordReq x.2.1 x.2.2]).accessing 1 (some 0) = false := by decide +kernel
/-- The answer of an end order at the router of its command's processor. -/
theorem witness_CommandBoundaries_answer :
    let r := ordReq (.endOrder 1 0) .performed
    let s := withReqs (withCore kAck Core.idle) [r]
    let k : Packet := { pkt0 (s.portal r 0) with response := true, at_ := s.portal r 0, endpoint := .outer }
    let t : State := { s with net := { s.net with packets := [k] } }
    t.req? 7 = some r ∧ r.slot = 71 ∧ r.remote = none ∧ r.ended = false ∧ r.refused = false ∧
    t.net.packets.find? (fun k => k.rid == r.rid && k.response && k.at_ == k.dest && t.canMove k && t.wins k) = some k := by decide +kernel
/-- Partition 0's record ring has eight slots at 0x10000. -/
def stRec : State := ((withCore kAll Core.idle).wg (.cnt 0) (ringOff 0) 0x10000).wgF (.cnt 0) (ringOff 0 + 8) 20 0 8
theorem witness_CommandBoundaries_end : (∀ i ∈ kAll.cores, i ∈ kAll.acked) ∧ stRec.accessing 1 none = false ∧ TraceOff stRec ∧
    (stRec.recRing 0).2 ≠ 0 ∧ kAll.recIndex ≠ 0xFFFFFFFF#32 ∧ Numbered stRec := by decide +kernel
/-- The bounded command with a detail entry; with its slot taken. -/
def kDet : Cmd := { kBnd with status := 0x14, detail := some ⟨6, 0, 0, 0, 0, 0, 0, 0, 0, 9⟩ }
def kSlot (c : Cmd) : Cmd := { c with replyAt := some 0 }
/-- The port in D3hot or not. -/
def stQd (d3 : Bool) (q : Queue) (c : Cmd) : State :=
  let s := stQ q [c]
  { s with host := { s.host with ports := [(0, { Port.reset with d3hot := d3 })] } }
theorem witness_CommandBoundaries_reply : ∀ d3 ∈ [false, true], ∀ q ∈ [q0, { q0 with cqDev := false }, { q0 with cqDev := false, detailDev := false }],
    ∀ c ∈ [kBnd, kDet, kSlot kBnd], (stQd d3 q c).cmd? 1 = some c ∧ c.phase = .bounded ∧ ((stQd d3 q c).port 0).d3hot = d3 ∧
    (stQd d3 q c).linkUp 0 = true ∧ (stQd d3 q c).queue 0 0 = q ∧ (stQd d3 q c).engBusy ((stQd d3 q c).cmdEng c) = false ∧
    ((mfind (stQd d3 q c).parts 0).map (·.resetting)).getD false = false ∧ (∀ d ∈ (stQd d3 q c).cmds, d.cid = 1) ∧ Numbered (stQd d3 q c) ∧
    q.cqTail < q.size ∧ ((stQd d3 q c).port 0).held = [] := by decide +kernel
theorem witness_CommandBoundaries_detail : (kDet.replyDetail (stQd false q0 kDet)).isSome = true ∧ kBnd.replyDetail (stQd false q0 kBnd) = none := by
  decide +kernel
theorem witness_CommandBoundaries_timeout : (∀ ph ∈ [Phase.accepted, .running, .ending],
    (cmdOf 1 ph launchPkt).replay = [] ∧ (cmdOf 1 ph launchPkt).begun = true ∧ (cmdOf 1 ph launchPkt).status = 0 ∧
    (cmdOf 1 ph launchPkt).detail = none) ∧ (withCore { kernel with deadline := some 0 } Core.idle).givingUp 1 = false ∧
    (0 : Nat) ≤ (withCore { kernel with deadline := some 0 } Core.idle).time.now ∧ State.reset.time.now < 5 := by decide +kernel

/-! ## Commands -/

/-- A packet's command is due. -/
abbrev isDue (op : Nat) (ws : List W32) : Prop := Due (due (pk op ws)) 1 (dueCmd (pk op ws))
theorem witness_ComputeAndCopyCommands : isDue 0 [] ∧ isDue 8 [0x1FF, 0, 5, 0] ∧ isDue 9 [0xFF, 0, 5, 0] ∧ isDue 10 [1] := by decide +kernel
theorem witness_ComputeAndCopyCommands_launch : Due (stQ q0 [{ kernel with phase := .accepted, begun := false, pkt := launchPkt.set 2 0x40000 }]) 1
    { kernel with phase := .accepted, begun := false, pkt := launchPkt.set 2 0x40000 } := by decide +kernel
theorem witness_ComputeAndCopyCommands_copy : isDue 2 [0, 0, 0x40000, 0, 0x10040, 0] ∧ isDue 2 [0, 0, 0, 0, 64, 0] ∧
    (dueCmd (pk 2 [0, 0, 0x40000, 0, 0x10040, 0])).piece 0x10040 = (0, 65536) ∧ meets 0 0x10040 0x40000 0x10040 = false ∧ meets 0 64 0 64 = true ∧
    isDue 3 [0, 0, 64, 0, 0x55, 0] ∧ TraceOff (due []) := by decide +kernel
/-- A COPY of 64 bytes, and a REDUCE of as many, with the source read or not; and their piece sent. -/
def copyPk (op : Nat) (ws : List W32) : List W32 := pk op ([0, 0, 0x4000, 0, 64, 0] ++ ws)
def dueAns (pkt : List W32) : State := withReqs (due pkt) [answered ((due pkt).cmdEng (dueCmd pkt)) 0 64]
theorem witness_ComputeAndCopyCommands_source : ∀ p ∈ (2, []) :: (upTo 0 9).map (fun op => (5, [BitVec.ofNat 32 op])),
    let c := dueCmd (copyPk p.1 p.2)
    Due (due c.pkt) 1 c ∧ Due (dueAns c.pkt) 1 c ∧ c.sentPiece = none ∧ c.runs 0 64 = [.here 0 64] ∧ meets 0 64 0x4000 64 = false ∧
    (due c.pkt).gather ((due c.pkt).cmdEng c) (c.runs 0 64) = .wait ∧ gives ((dueAns c.pkt).gather ((due c.pkt).cmdEng c) (c.runs 0 64)) 64 = true ∧
    Numbered (due c.pkt) ∧ Numbered (dueAns c.pkt) ∧ StaysHere (due c.pkt) 1 := by decide +kernel
theorem witness_ComputeAndCopyCommands_clean : ∀ bs, awayPoison [.here 0 64] bs = none := fun _ => rfl
theorem witness_ComputeAndCopyCommands_sent : ∀ b ∈ [false, true],
    let c : Cmd := { dueCmd (copyPk 2 []) with phase := .running, sentPiece := some 0 }
    let s := withReqs (stQ q0 [c]) (if b then [{ req0 .write 0x4000 with site := noSite, slot := 71, lane := 0, cid := 1, serial := 0 }] else [])
    Due s 1 c ∧ c.sentPiece = some c.nextBlock ∧ s.engBusy (s.cmdEng c) = b := by decide +kernel
theorem witness_ComputeAndCopyCommands_reduce : ∀ op ∈ upTo 0 9, (dueCmd (copyPk 5 [BitVec.ofNat 32 op])).f 8 3 0 = op := by decide +kernel
theorem witness_ComputeAndCopyCommands_transpose : isDue 4 [0, 0, 0x4000, 0, 64, 64, 2, 128, 128] := by decide +kernel

theorem witness_PinAndLocalizeCommands : isDue 0x10 [0x10000, 0, 1] ∧ (due []).homeStacks 0x10000 65536 = [0] ∧
    (due []).freePin 0 = some 1 ∧ (due []).pinOverlap 0x10000 65536 = false ∧ isDue 0x11 [0x10000, 0] ∧
    (due (pk 0x10 [0x10000, 0, 1])).inTurn (dueCmd (pk 0x10 [0x10000, 0, 1])) = true := by decide +kernel
/-- The lines of 64 KiB at 0x10000 fit while a set may hold two pinned ways, and do not where it may hold none. -/
theorem witness_PinAndLocalizeCommands_caps : ((due []).wgF (.sc 0) 0x004 3 0 2).pinBreaks 0 [256] = [] ∧
    ((due []).wgF (.sc 0) 0x004 3 0 0).pinBreaks 0 [256] ≠ [] ∧ lineList 0x10000 256 = [256] := by decide +kernel
/-- Line 256 pinned in its home set. -/
def stLine : State :=
  let s := due (pk 0x10 [0x10000, 0, 1])
  let (h, sl, set) := s.home 0x10000
  s.setHalf h { Half.empty with lines := [(setKey sl set, ⟨256, 0xF, 0, 2, true, false, 0⟩)] }
theorem witness_PinAndLocalizeCommands_pinned : (∀ l ∈ lineList 0x10000 256, stLine.isPinned l = true) := by decide +kernel
/-- Another PIN, begun before, that still pins lines of the same slices goes first; a LOCALIZE of slice 0 after it waits. -/
theorem witness_PinAndLocalizeCommands_turn :
    (let d : Cmd := { cmdOf 0 .running (pk 0x10 [0x10000, 0, 1]) with pieces := [1] }
     let c : Cmd := { cmdOf 1 .running (pk 0x12 [0x1000, 3]) with cores := [] }
     let s := { due [] with cmds := [d, c] }
     (s.slicesOf d).any (fun x => (s.slicesOf c).contains x) = true ∧ s.inTurn c = false) := by decide +kernel
/-- Entry 1 pins 64 KiB at 0x10000 for partition 0, complete or not. -/
def stPin (st : Nat) (op : Nat) : State :=
  ((due (pk op [0x10000, 0, 1])).wg (.sc 0) (pinOff 1) 1).wg (.sc 0) (pinOff 1 + 4) 1 |>.wgF (.sc 0) (pinOff 1 + 8) 2 0 (1 + 2 * st)
theorem witness_PinAndLocalizeCommands_entry : (stPin 1 0x10).pinOverlap 0x10000 65536 = true ∧
    (stPin 1 0x11).pinsOf 0 (fun t i => ((stPin 1 0x11).pinRange t i).1 == 0x10000) = [(0, 1)] ∧ (stPin 1 0x11).pinF 0 1 2 1 ≠ 0 ∧
    (stPin 0 0x11).pinF 0 1 2 1 = 0 := by decide +kernel
/-- Every entry of stack 0 taken. -/
def stPins : State := (upTo 1 63).foldl (fun s i => s.wg (.sc 0) (pinOff i + 8) 3) (due (pk 0x10 [0x10000, 0, 1]))
theorem witness_PinAndLocalizeCommands_full : stPins.freePin 0 = none := by decide +kernel
theorem witness_PinAndLocalizeCommands_localize : isDue 0x12 [0x1000, 3] ∧ (dueCmd (pk 0x12 [0x1000, 3])).localSites = [0] ∧
    (due []).retired (siteHalf 0) (siteSlice 0) = false ∧ (due []).pinsFit (siteHalf 0) (siteSlice 0) 3 = true ∧
    (due (pk 0x12 [0x1000, 3])).runsOn 0 0 = false ∧ (due (pk 0x12 [0x1000, 3])).inTurn (dueCmd (pk 0x12 [0x1000, 3])) = true ∧
    ((mfind (due []).parts 0).map (·.resetting)).getD false = false ∧ 0 < (due []).sites := by decide +kernel

/-- The answer to the read of a descriptor. -/
def descAns (pkt : List W32) (bs : List Byte) : Req := { answered ((due pkt).cmdEng (dueCmd pkt)) ((due pkt).descAddr 1) 64 with line := bs }
theorem witness_ContextCommands : ∀ p ∈ [(0x18, [(1 : W32), 0, 0x8000, 0]), (0x19, [1, 1, 9, 0]), (0x1A, [1, 0]), (0x1B, [1]), (0x1C, [1, 0, 0x4000])],
    let s := due (pk p.1 p.2)
    let e := s.cmdEng (dueCmd (pk p.1 p.2))
    let t := withReqs s [descAns (pk p.1 p.2) (List.replicate 64 0)]
    let v := withReqs s [{ descAns (pk p.1 p.2) (List.replicate 64 0) with lpois := [true] }]
    isDue p.1 p.2 ∧ s.gatherOne e (.here (s.descAddr 1) 64) = .wait ∧ t.gatherOne e (.here (s.descAddr 1) 64) = .data (clean (List.replicate 64 0)) ∧
    (match v.gatherOne e (.here (s.descAddr 1) 64) with | .data bs => bs.any (·.2) | _ => false) = true ∧
    (t.overlay (s.descAddr 1) (clean (List.replicate 64 0))).desc 1 = s.desc 1 ∧ (s.desc 1).valid = false ∧ s.ctxWriting (dueCmd (pk p.1 p.2)) = false ∧
    s.earlierBounded (dueCmd (pk p.1 p.2)) = true ∧ StaysHere t 1 ∧ Numbered t ∧ StaysHere s 1 ∧ Numbered s := by decide +kernel
/-- A context command behind another that has yet to be bounded; behind one whose writes are out. -/
theorem witness_ContextCommands_behind :
    (let c : Cmd := { dueCmd (pk 0x1A [1, 0]) with cid := 2 }
     (stQ q0 [dueCmd (pk 0x18 []), c]).earlierBounded c = false) ∧
    (let d : Cmd := { dueCmd (pk 0x18 []) with phase := .ending }
     let c : Cmd := { dueCmd (pk 0x18 []) with cid := 2 }
     (withReqs (stQ q0 [d, c]) [req0 .write 0x40]).ctxWriting c = true) := by decide +kernel
/-- The descriptor of a context that partition 0 owns: 65,536 tokens on one page; the part as its reader finds it. -/
def descBs : List Byte := (⟨true, 0, 1, 65536, 1, 0x8000, 0, List.replicate 32 0⟩ : Desc).bytes
def stCtx (op : Nat) (ws : List W32) : State :=
  (withReqs (due (pk op ws)) [descAns (pk op ws) descBs]).overlay ((due []).descAddr 1) (clean descBs)
theorem witness_ContextCommands_mine : ((stCtx 0x1A [1, 0]).desc 1).mine (dueCmd (pk 0x1A [1, 0])) = true ∧
    ((stCtx 0x1A [1, 0]).desc 1).pages = 1 ∧ ((stCtx 0x1A [1, 0]).desc 1).length = 65536 ∧
    (clean descBs).any (·.2) = false ∧ (∀ p ∈ [(0x19, [(1 : W32), 1, 9, 0]), (0x1A, [1, 0]), (0x1B, [1]), (0x1C, [1, 0, 0x4000]), (0x1C, [1, 1, 0x4000])],
      isDue p.1 p.2 ∧ (withReqs (due (pk p.1 p.2)) [descAns (pk p.1 p.2) descBs]).gatherOne ((due []).cmdEng (dueCmd (pk p.1 p.2)))
        (.here ((due []).descAddr 1) 64) = .data (clean descBs)) ∧ (due []).hostWaits 0 = false ∧
    (((stCtx 0x1A [1, 0]).descAddr 1 + 64 ≤ 0x8000) ∨ (0x8000 + 33280 ≤ (stCtx 0x1A [1, 0]).descAddr 1)) := by decide +kernel
theorem witness_ContextCommands_pages : (stCtx 0x19 [1, 1, 65536, 0]).inRanges 0 0 65536 = true ∧ (stCtx 0x19 [1, 1, 65536, 16]).inRanges 0 (16 * 65536) 65536 = false ∧
    (stCtx 0x18 []).inRanges 0 0x8000 33280 = true ∧ 0x8000 % 512 = 0 := by decide +kernel

theorem witness_PowerTraceAndTestCommands : isDue 0x21 [0, 0, 1, 0] ∧ isDue 0x22 [0, 0, 1, 0] ∧ isDue 0x28 [0x4000, 0, 0] ∧
    (due []).namedRegions (dueCmd (pk 0x21 [0, 0, 1, 0])) = [0] ∧ TraceOff (due []) := by decide +kernel
theorem witness_PowerTraceAndTestCommands_trace : ∀ a ∈ [0, 1, 2, 3], isDue 0x29 [BitVec.ofNat 32 a, 0, if 2 ≤ a then 0x4000 else 0, 0, if 2 ≤ a then 256 else 0, 0] := by decide +kernel
theorem witness_PowerTraceAndTestCommands_test : ∀ a ∈ [1, 2, 3], isDue 0x30 [BitVec.ofNat 32 a, 0] := by decide +kernel
/-- A command of an admin queue, after READY. -/
def dueA (op : Nat) (ws : List W32) : State :=
  let s := (up0 State.reset).wgB (.pwr 0) 0x040 4 true
  { s with parts := [(0, part0)], cmds := [{ dueCmd (pk op ws) with admin := true, part := 0, queue := 1024 }] }
abbrev isDueA (op : Nat) (ws : List W32) : Prop := Due (dueA op ws) 1 { dueCmd (pk op ws) with admin := true, part := 0, queue := 1024 }
theorem witness_PowerTraceAndTestCommands_trim : isDueA 0x20 [450, 0, 450, 1] := by decide +kernel
theorem witness_PartitionAndManagement : isDueA 0x38 [0x1000, 0] ∧ isDueA 0x39 [0] ∧ isDueA 0x3A [0] ∧ isDueA 0x40 [0x1000, 0, 64, 0] ∧
    isDueA 0x41 [] ∧ isDueA 0x48 [0x1000, 0, 256] ∧ isDue 0x48 [0x1000, 0, 256] := by decide +kernel
theorem witness_PartitionAndManagement_absent : isDueA 0x39 [1] ∧ mfind (dueA 0x39 [1]).parts 1 = none ∧ mkeysUp (dueA 0x3A [0]).parts = true ∧
    (dueA 0x38 [0x1000, 0]).hostWaits 0 = false ∧ (dueA 0x38 [0x1000, 0]).partRefusal (List.replicate 512 0) (partDesc (List.replicate 512 0)) ≠ none := by
  decide +kernel

/-- R262, R267: a port reads its own queue block and the mask of a vector, and 0 where the window holds nothing (R11). -/
theorem test_window_word : (stQ q0 []).windowWord 0 (0x2000000 + 0x40 * 1027 + 0x20) = ((stQ q0 []).queue 0 1027).word 0x20 ∧
    Queue.reset.word 0x20 = 0x10000#32 ∧ (stIrq [5]).windowWord 0 (0x3F00000 + 16 * 5 + 12) = 0 ∧
    (stIrq []).windowWord 0 (0x3F00000 + 16 * 5 + 12) = 1 ∧ (stIrq []).windowWord 0 0x1800000 = 0 := by
  decide +kernel

theorem witness_PartitionAndManagement_flash : ({ State.reset.flash with storing := some (.firmware 1 ⟨[], 2, 3⟩) } : Flash).storing =
      some (.firmware 1 ⟨[], 2, 3⟩) ∧ ({ State.reset.flash with storing := some (.quickset []) } : Flash).storing = some (.quickset []) ∧
    ({ dueCmd (pk 0x40 []) with pieces := [0] } : Cmd).pieces ≠ [] ∧ State.reset.flash.storing = none := by decide +kernel
/-- A management packet of an opcode. -/
def mgmtPkt (op : Byte) : List Byte := op :: List.replicate 63 0
theorem witness_PartitionAndManagement_smbus : State.reset.pins.vddAon = true ∧ (mgmtPkt 0x48).length = 64 ∧ leField (mgmtPkt 0x48) 0 1 = 0x48 ∧
    leField (mgmtPkt 0x21) 0 1 ∉ [0x00, 0x48, 0x70, 0x71] ∧ leField (mgmtPkt 0x70) 0 1 = 0x70 ∧ leField (mgmtPkt 0x71) 0 1 ∈ [0x70, 0x71] := by
  decide +kernel

/-! ## Host ports -/

/-- Bring-up past stage 0. -/
def stBoot (n : Nat) : State := State.reset.wgF (.pwr 0) 0x040 3 0 n
theorem witness_HostPorts_link : (stBoot 1).held = false ∧ (stBoot 1).bootStage ≠ 0 ∧ nth true (stBoot 1).pins.perstN 3 = true ∧
    16 ∈ [4, 8, 16] ∧ 2 ∉ [4, 8, 16] ∧ 3 < (stBoot 1).pins.perstN.length := by decide +kernel
/-- Host port 0 in D3hot with the reply of command 1 and an interrupt held. -/
def stD3 : State :=
  let s := stQ q0 [{ kBnd with phase := .replied }]
  { s with host := { s.host with ports := [(0, { Port.reset with d3hot := true, held := [(1, none)], heldIrqs := [4] })] } }
theorem witness_HostPorts_d3 : stD3.linkUp 0 = true ∧ (stD3.port 0).d3hot = true ∧ (stD3.port 0).held = [(1, none)] ∧ (stD3.cmd? 1).isSome = true := by
  decide +kernel
theorem witness_HostPorts_flr : mkeysUp (stQ q0 []).parts = true ∧ ((stQ q0 []).port 0).resets = [] ∧ (stQ q0 []).net.reqs = [] ∧
    (stQ q0 []).cmds = [] ∧ (stQ q0 []).partsOf 0 = [0] ∧ (∀ i ∈ (stQ q0 []).partCores 0, ((stQ q0 []).core i).blocks = []) := by decide +kernel
/-- A PART_CREATE of partition 0 that waits for its regions. -/
abbrev kCre : Cmd := { cmdOf 1 .running [0x38#32] with begun := true, pieces := [0] }
theorem witness_HostPorts_create : (stQ q0 [kCre]).linkUp 0 = true ∧ (stQ q0 [kCre]).creating 0 = true ∧ (stQ q0 []).creating 0 = false := by
  decide +kernel
theorem witness_HostPorts_window : 64 < ((stQ q0 []).port 0).dmwGib * 2 ^ 30 ∧ (stQ q0 []).dmwAddr 0 0xFFFC0 = 0xFFFC0 ∧
    (stQ q0 []).hostReach 0 0xFFFC0 64 = some 0 ∧ (stQ q0 []).hostReach 0 0xFFFC0 65 = none ∧ ((stQ q0 []).port 0).posted = [] ∧
    ((stQ q0 []).port 0).d3hot = false ∧ ((stQ q0 []).port 0).windowReads = [] ∧ Numbered (stQ q0 []) ∧ TraceOff (stQ q0 []) := by decide +kernel
/-- A host's read of eight bytes that waits for its answer, and a write. -/
def stHrd (rs : List (Nat × Nat × Nat × Nat)) : State :=
  let s := stQ q0 []
  { s with host := { s.host with ports := [(0, { Port.reset with windowReads := rs })] } }
def hostReq (refused : Bool) : Req := { (hostEng 0 0 3).req .read none 0x40 8 with line := List.replicate 8 1, refused := refused }
theorem witness_HostPorts_answer : ∀ b ∈ [false, true], Back (stHrd [(3, 0, 0x40, 8)]) (hostReq b) ∧ linePieces 0x40 8 = [(0x40, 8)] ∧
    (backOf (stHrd [(3, 0, 0x40, 8)]) (hostReq b)).engReq (hostEng 0 0 3) .read none 0x40 8 = some { hostReq b with rid := 7, state := .performed } ∧
    TraceOff (backOf (stHrd [(3, 0, 0x40, 8)]) (hostReq b)) := by decide +kernel
theorem witness_HostPorts_refused : Back (stHrd []) { (hostEng 0 0 3).req .write none 0x40 8 with refused := true } := by decide +kernel

/-! ## The fabric -/

/-- Fabric port 1 in a STATE, its route to part 9 known, and part 7 as this part's name. -/
def stFab (st : Nat) : State :=
  let s := (State.reset.wgF (.fp 1) 0x000 1 0 st).wg (.sc 0) 0x040 0xFFFF
  { s with
    boot := { s.boot with cfg := { s.boot.cfg with deviceId := 7 } }
    parts := [(0, part0)]
    fab := { s.fab with routes := [(9, 3)], accepts := [(0, 0x7FFF8000)] } }
/-- A packet of part 9 to part 7's partition 0, or back. -/
def fpk (addr : Nat) (data : List Byte) (len op : Nat) : FabPkt :=
  ⟨0, false, false, 7, 9, 0, 0, 5, 1, addr, op, len, data, []⟩
theorem witness_FabricLinks_training : 1 < (stFab 0).fabPorts ∧ (stFab 0).held = false ∧ ((stFab 0).wgB (.fp 1) 0x008 0 true).rgB (.fp 1) 0x008 0 = true ∧
    ((stFab 0).wgB (.fp 1) 0x008 0 true).fabState 1 = 0 ∧ ({ FabPort.idle with retry := true } : FabPort).retry = true := by decide +kernel
theorem witness_FabricLinks_host : (up0 (stFab 3)).linkUp 0 = true ∧ (up0 (stFab 3)).boot.cfg.adminPort = 0 ∧
    (((up0 (stFab 3)).wgF (.fp 1) 0x000 7 5 2).rgF (.fp 1) 0x000 7 5 = 2) ∧ (up0 (stFab 3)).fabState 1 = 3 := by decide +kernel
/-- The port up with its enable set; and down, when a retry is due. -/
theorem witness_FabricLinks_retrain :
    (let s := (up0 (stFab 2)).wgB (.fp 1) 0x008 0 true
     s.rgB (.fp 1) 0x008 0 = true ∧ s.rgB (.fp 1) 0x008 2 = false ∧ s.fabState 1 ≠ 1 ∧ (s.wgB (.fp 1) 0x008 2 true).rgB (.fp 1) 0x008 2 = true) ∧
    (let s : State := { (stFab 0).setFport 1 { FabPort.idle with retry := true } with time := { (stFab 0).time with now := 250000000 } }
     (s.fport 1).retry = true ∧ (s.fport 1).trainFrom + 250000000 ≤ s.time.now ∧ (s.fport 1).trainFrom + 100000000 ≤ s.time.now) := by
  decide +kernel
/-- A training that heard part n on good or bad lanes. -/
def trn (n lanes : Nat) : FabTrain := ⟨true, false, lanes, n, 1, 0⟩
theorem witness_FabricLinks_done : (stFab 1).fabState 1 = 1 ∧ ({ FabPort.idle with full := true } : FabPort).full = true ∧
    (trn 9 0x300).lanesBad % 256 = 0 ∧ (∀ i < 4, (trn 9 0x55).lanesBad / 4 ^ i % 4 ≠ 0) ∧ (stFab 1).rgB (.fp 1) 0x00C 31 = false ∧
    (trn 7 0).peerId = (stFab 1).boot.cfg.deviceId := by decide +kernel
/-- The port with one request unacknowledged and some replays now. -/
def stRpl (n : Nat) : State := (stFab 2).setFport 1 { FabPort.idle with sentPkts := [⟨0, 3, fpk 0 [] 0 0, 5⟩], replays := [(0, List.replicate n 0)] }
theorem witness_FabricLinks_replay : 2 ≤ (stRpl 0).fabState 1 ∧ (stRpl 0).rgB (.fp 1) 0x000 4 = false ∧ ((stRpl 16).recentReplays 1 0).length < 17 ∧
    (stRpl 17).spentPeers 1 ≠ [] ∧ ((stRpl 0).wgB (.fp 1) 0x000 4 true).portUp 1 = true ∧ isRequest 3 = true ∧
    ((stRpl 0).framesFrom 1 0 5).length = 1 ∧ (stRpl 0).framesFrom 1 0 6 = [] := by decide +kernel
/-- A second frame of Ethernet mode whose SEQ leaves a gap. -/
theorem witness_FabricRequests_gap : (((stFab 2).wgB (.fp 1) 0x000 4 true).setFport 1 { FabPort.idle with peerIn := [(9 * 16, 1)] }).gap 1
    { fpk 0 [] 0 0 with seq := 3 } = some 2 := by decide +kernel
theorem witness_FabricRequests_looped : ({ stFab 2 with fab := { (stFab 2).fab with loop := [(1, fpk 0x40 [] 4 0)] } } : State).looped 1 (fpk 0x40 [] 4 0) = true := by
  decide +kernel
theorem witness_FabricRequests_answer : CanAnswer (stFab 2) (fpk 0x40 [] 4 0) 1 2 4 ∧ (stFab 2).fabRoom 1 (fpk 0x40 [] 4 0) = true ∧
    SendsAtOnce (stFab 2) 1 8 0 := by decide +kernel
theorem witness_FabricRequests : Arrives (stFab 2) 1 (fpk 0x40 (List.replicate 4 1) 4 0) ∧ Numbered (stFab 2) ∧
    (stFab 2).routePort 9 = some 1 ∧ ((stFab 2).setFport 1 { FabPort.idle with peerIn := [(9 * 16, 1)] }).seen 1 (fpk 0 [] 0 0) = true := by decide +kernel
/-- A remote request that is served, with the request that it has sent. -/
def stServe (typ : Nat) (k : FabPkt) : State := { stFab 2 with fab := { (stFab 2).fab with serving := [(1, typ, k, 4, false)] } }
def fabReq (kind : ReqKind) (refused : Bool) : Req := { (fabEng 1 0 4).req kind none 0x40 4 with line := List.replicate 4 1, refused := refused }
theorem witness_FabricRequests_served : ∀ x ∈ [(1, ReqKind.read, 0, false), (3, .write, 0, false), (4, .atomic 0x90, 0x90, false), (5, .reduce 0, 0, false),
      (1, .read, 0, true)],
    let k := fpk 0x40 [] 4 x.2.2.1
    let s := stServe x.1 k
    let r := fabReq x.2.1 x.2.2.2
    Back s r ∧ (fabEng 1 0 4).owns r = true ∧ linePieces k.addr k.len = [(k.addr, k.len)] ∧
    (backOf s r).engReq (fabEng 1 0 4) x.2.1 none 0x40 4 = some { r with rid := 7, state := .performed } ∧
    ∀ t ∈ [(2, 4), (6, 0), (6, 4), (7, 0)], CanAnswer (backOf s r) k 1 t.1 t.2 := by decide +kernel
/-- A port whose records are all in use. -/
theorem witness_FabricRequests_full : (let s : State := { stFab 2 with fab := { (stFab 2).fab with records := List.replicate 1024 ⟨1, 8, 4, [], []⟩ } }
    s.fabRoom 1 (fpk 0x40 [] 4 0) = false ∧ s.fabCode (fpk 0x40 [] 4 0) 4 = none) := by decide +kernel
theorem witness_FabricRequests_allowed : Allowed (stFab 2) (fpk 0x40 (List.replicate 8 1) 4 0x90) 8 := by
  refine ⟨⟨part0, by decide +kernel⟩, ?_, by decide +kernel⟩
  unfold Accepts; decide +kernel
theorem witness_FabricRequests_refused : RefusedWith (stFab 2) (fpk 0x200000 [] 4 0) 4 3 ∧ RefusedWith (stFab 2) { fpk 0 [] 4 0 with dstPart := 5 } 4 2 := by
  refine ⟨.inr ⟨part0, by decide +kernel, .inr (.inr ⟨?_, by decide +kernel⟩)⟩, .inl (by decide +kernel)⟩
  unfold Accepts; decide +kernel
/-- A record of the write with tag 5, and a port that goes on to part 9. -/
theorem witness_FabricRequests_repeat : ({ stFab 2 with fab := { (stFab 2).fab with records := [⟨1, 9, 5, [], []⟩] } } : State).fabRecord (fpk 0 [] 0 0) =
    some ⟨1, 9, 5, [], []⟩ := by decide +kernel
/-- A remote request of the group's lane 1, tag 5. -/
def reqRem (slot : Nat) (kind : ReqKind) : Req := { req0 kind 0x50000 with rid := 5, slot := slot, state := .sent, remote := some (9, 0, 0x50000) }
def stRem (r : Req) : State := { withReqs (stFab 2) [r] with cores := [(0, coreOf g3)], cmds := [kernel] }
theorem witness_FabricAnswersAndMarks : ∀ r ∈ [reqRem 65 .read, reqRem 0 .read, reqRem 0 .write, reqRem 0 (.reduce 3)],
    Arrives (stRem r) 1 (fpk 0 (List.replicate 4 1) 0 0) ∧ (stRem r).tagged 5 = some r ∧ (stRem r).req? r.rid = some r ∧
    (stRem r).cmd? r.cid = some kernel := by decide +kernel
theorem witness_FabricAnswersAndMarks_refusal : (stRem (reqRem 0 .read)).net.reqs.find? (fun r => r.remote.isSome && !r.ended &&
    decide (r.rid % 65536 = (5 * 256 + 3) / 256)) = some (reqRem 0 .read) := by decide +kernel
theorem witness_FabricAnswersAndMarks_timeout : (reqRem 0 .read).sentAt + 2500000 + (if (reqRem 0 .read).heldOnce then 25000 else 0) = 2500000 ∧
    mfind (stRem (reqRem 0 .read)).fab.failed 5 = none := by decide +kernel
/-- The request given up on port 0, port 1 the alternate; or none. -/
def stAlt (e : W32) : State :=
  let s := (stRem (reqRem 0 .read)).wgF (.fp 0) 0x000 1 0 2
  { s with fab := { s.fab with routes := [(9, e)], failed := [(5, 0)] } }
theorem witness_FabricAnswersAndMarks_resend : mfind (stAlt 0x221).fab.failed 5 = some 0 ∧ (stAlt 0x221).altPort 9 0 = some 1 ∧
    (stAlt 1).altPort 9 0 = none := by decide +kernel
/-- Ring 3 of 64 entries at 0x8000 runs and takes time marks; the others do not. -/
def stRing : State :=
  (((stFab 2).wg (.cnt 0) (ringOff 3 + 0x10) 0x8000).wgF (.cnt 0) (ringOff 3 + 0x18) 24 0 64).wg (.cnt 0) (ringOff 3 + 0x1C) 0x104
theorem witness_FabricAnswersAndMarks_mark : stRing.ringTakes 3 (some 2) = true ∧ (∀ q < 17, q ≠ 3 → stRing.ringTakes q (some 2) = false) ∧
    stRing.ringRoom 3 = true ∧ mget 0 stRing.lostRecs 3 = 0 ∧ 2 ≤ stRing.fabState 1 := by decide +kernel

/-! ## Power, temperature, clocks -/

theorem witness_PowerControl_governor : (if State.reset.stacks = 8 then 216 * State.reset.rgF (.pwr 0) 0x000 10 5 else 8640) < 70000 ∧
    mfind State.reset.power.govLast 0 = none ∧ mfind State.reset.power.govAt 0 = none ∧ (100 : Nat) * 100 < 8640 * 95 ∧
    mfind ({ Power.reset with govBelow := [(0, 5)] } : Power).govBelow 0 = some 5 := by decide +kernel
/-- Region 5 switching on with seven steps closed; waiting since 0; all eight closed. -/
def stSw (steps : Nat) : State := (State.reset.setReg 5 1 0 1).setReg 5 23 20 steps
theorem witness_PowerControl_switch : (stSw 7).switchTurn 5 = true ∧ (∃ p ∈ [6], neighbours 5 p = true) ∧ (∀ p ∈ [7], neighbours 5 p = false) ∧
    (stSw 8).regF 5 1 0 = 1 ∧ (stSw 8).regF 5 23 20 = 8 ∧ (State.reset.setReg 5 1 0 2).regionOn 5 = true ∧ (stSw 6).regF 5 23 20 < 7 := by decide +kernel
theorem witness_PowerControl_trim : State.reset.power.trimEnabled = false ∧ State.reset.power.trimPending = none ∧
    State.reset.rgB .trim 0x000 1 = false ∧ State.reset.rgF .trim 0x008 15 0 = 0 ∧ ({ Power.reset with trimN := 10 } : Power).trimN = 10 ∧
    ({ State.reset with time := { State.reset.time with now := 50000, running := true } } : State).trimDue = true ∧
    State.reset.rgF (.clk 0) 0x004 7 0 < 46 ∧ mfind State.reset.power.sag 5 = none ∧ mfind State.reset.power.stepAt 5 = none ∧
    State.reset.time.now % 4 = 0 := by
  decide +kernel
/-- A part of eight stacks with 12 phases on stack 3 and the rails on; bring-up at stage 2. -/
def st8 : State :=
  let s : State := { State.reset with part := { State.reset.part with grade := .xn8_3840 } }
  ((s.wgF (.pwr 3) 0x000 10 5 12).wgF (.pwr 3) 0x000 1 0 3).wgF (.pwr 0) 0x040 3 0 2
theorem witness_PowerControl_fault : st8.stacks = 8 ∧ st8.rgF (.pwr 3) 0x000 10 5 ≠ 0 ∧ st8.rgF (.pwr 3) 0x000 1 0 ≠ 0 ∧ st8.held = false ∧
    2 ≤ st8.bootStage ∧ st8.boot.stopped = false := by decide +kernel
/-- Sensor 0 of stack 0 at its limit of 100 °C; at 96 °C; every sensor at 20 °C. -/
def warm (t : Int) : List Int := t :: List.replicate 207 (20 * 16)
theorem witness_TemperatureControl_throttle : State.reset.sensorLimit 0 0 = 1600 ∧ 0 ∈ sensorHalves 0 ∧ State.reset.sensorLimit 0 0 ≤ nth 0 (warm 1600) 0 ∧
    (∀ i < 208, 1 ∈ sensorHalves i → nth 0 (warm 1600) i ≤ State.reset.sensorLimit 0 i - 32) ∧
    (∀ i < 208, State.reset.sensorB 0 i 16 = false ∧ State.reset.sensorB 0 i 17 = false) ∧
    (∀ i < 208, buried i = true → State.reset.estimate 0 i (warm 1600) (nth 0 [] i) < 1840) ∧
    (∃ i < 208, buried i = true ∧ 1840 ≤ State.reset.estimate 0 i (List.replicate 208 1840) (nth 0 [] i)) := by decide +kernel
theorem witness_TemperatureControl_band : cacheSensor 128 = true ∧ 0 ∈ ({ Therm.reset with sampled := [0] } : Therm).sampled ∧
    (1520 : Int) < sint 16 ((State.reset.wgF (.thm 0) 0x300 15 0 1521).rgF (.thm 0) 0x300 15 0) ∧ State.reset.rgF (.thm 0) 0x300 19 18 < 2 ∧
    sint 16 ((State.reset.wgF (.thm 0) 0x300 19 18 1).rgF (.thm 0) 0x300 15 0) < 160 ∧ (State.reset.wgF (.thm 0) 0x300 19 18 1).rgF (.thm 0) 0x300 19 18 = 1 := by
  decide +kernel
theorem witness_TemperatureControl_soon : (let s : State := { State.reset with
      time := { State.reset.time with running := true, now := 9 }, therm := { Therm.reset with sampleAt := [(0, 5)] } }
    ∃ x, mfind s.therm.sampleAt 0 = some x ∧ s.time.now < x + if s.rgB (.thm 0) 0x000 0 then 12500 else 250000) := ⟨5, by decide +kernel⟩
theorem witness_TemperatureControl_trip : State.reset.pins.thermtrip = false ∧ ({ State.reset.pins with thermtrip := true } : Pins).thermtrip = true ∧
    (∀ t < State.reset.stacks, 10000 < mget 0 ({ Therm.reset with tripCool := [(0, 10001), (1, 10001)] } : Therm).tripCool t) := by decide +kernel
theorem witness_ClocksAndTime_drift : ((State.reset.wgB (.clk 0) 0x000 2 true).wgB (.clk 1) 0x000 2 true).drifts 1 1 = true := by decide +kernel
theorem witness_ClocksAndTime : 0 ∈ ({ State.reset.time with locked := [0, 1] } : Time).locked ∧ 1 ∉ State.reset.time.locked ∧
    (1 : Nat) < (2 : Int).natAbs ∧ State.reset.rgB (.clk 1) 0x000 2 = false ∧ (up0 State.reset).linkUp 0 = true ∧
    locate 0x800 = some (.cntCore 0, 0) ∧ (up0 State.reset).hasBlk (.cntCore 0) = true ∧ isWide (.cntCore 0) 0 = true := by decide +kernel

/-! ## Registers -/

theorem witness_RegistersAndCounters : (stQ q0 []).coreOwner 0 = 0 ∧ locate 0x004 = some (.arr 0, 0x004) ∧ locate ((Blk.sc 3).base + 0x00C) = some (.sc 3, 0x00C) ∧
    locate ((Blk.clk 1).base + 0x004) = some (.clk 1, 0x004) ∧ locate ((Blk.thm 1).base + 0x004) = some (.thm 1, 0x004) ∧
    locate ((Blk.msh 1).base + 0x13C) = some (.msh 1, 0x13C) ∧ (stQ q0 []).boot.cfg.adminPort = 0 ∧ (mfind (stQ q0 []).parts 0).isSome = true := by
  decide +kernel
theorem witness_RegistersAndCounters_queue : (stQ q0 []).queueOf 0 1027 = true ∧ ((stQ q0 []).queue 0 1027).en = false ∧
    ((stQ q0 []).queue 0 0).en = true ∧ ((stIrq [5]).port 0).d3hot = false ∧ (stQ q0 []).ownerOf 0 = some 0 ∧ (stQ q0 []).ownerOf 15 ≠ some 0 ∧
    State.reset.logOld (.sc 0) scLog 31 = true ∧ (State.reset.wg (.sc 0) (logOff 31) 3).logOld (.sc 0) scLog 31 = false := by decide +kernel

/-! ## Resets, bring-up, the debug port -/

theorem witness_PartResets : State.reset.pins.resetN = true ∧ State.reset.pins.pwrgd = true ∧
    ({ State.reset.pins with resetN := false } : Pins).resetN = false := by decide
theorem witness_BringUpStages : (∀ n < 11, AtStage (stBoot n) n) ∧ (∀ t < State.reset.stacks, t ∈ [0, 1]) ∧
    State.reset.health.phaseFails = [] ∧ State.reset.health.darkRegions = [] ∧ State.reset.health.regFails = [] ∧
    State.reset.flash.storing = none ∧ State.reset.boot.fullTrained = [] := by decide +kernel
theorem witness_BringUpStages_self : (∃ r < (stBoot 3).stacks * 256, (stBoot 3).regF r 1 0 < 2) ∧
    (stBoot 4).flash.healthA ≠ none ∧ (stBoot 4).part.grade.enabled ≤ (stBoot 4).countAll (stBoot 4).sortCores.1 ∧
    (∀ e ∈ (stBoot 4).health.memRemaps, e.2.2 < 8) := by
  refine ⟨⟨0, by decide +kernel⟩, by decide +kernel⟩
/-- Both banks hold one image: whether its signature verifies or not, a clause of the statement speaks of it. -/
def fwBank0 : FwBank := ⟨[], 2, 3⟩
def stFw : State :=
  let s := stBoot 1
  { s with time := { s.time with locked := [0, 1] }, flash := { s.flash with fwA := some fwBank0, fwB := some fwBank0, cfgA := some (s.boot.cfg, 1), cfgB := none } }
theorem witness_BringUpStages_firmware : AtStage stFw 1 ∧ (∀ t < stFw.stacks, t ∈ stFw.time.locked) ∧ stFw.flash.fwA = some fwBank0 ∧
    stFw.flash.fwB = some fwBank0 ∧ stFw.flash.cfgA = some (stFw.boot.cfg, 1) ∧ stFw.flash.cfgB = none ∧
    ((stFw.bankOk fwBank0 = true ∧ stFw.bankOk fwBank0 = true) ∨ (stFw.bankOk fwBank0 = false ∧ stFw.bankOk fwBank0 = false)) := by
  refine ⟨by decide +kernel, by decide +kernel, rfl, rfl, rfl, rfl, ?_⟩
  cases stFw.bankOk fwBank0 <;> simp
/-- Training in stage 6 of devices that all train, or of which device 1 fails; the clocks aligned at stage 9; the records stored at stage 10. -/
theorem witness_BringUpStages_later : (∀ h ∈ (stBoot 6).halves, h.2.retireDue = [] ∧ h.2.stalled = []) ∧
    (stBoot 6).boot.cfg.degradedOk = false ∧ 1 < (stBoot 6).devices ∧
    (∀ t < 2, (((stBoot 9).wgB (.clk 0) 0x000 2 true).wgB (.clk 1) 0x000 2 true).rgB (.clk t) 0x000 2 = true) ∧
    (stBoot 9).flash.storing = none ∧ ({ (stBoot 10) with boot := { (stBoot 10).boot with setUp := 1 } } : State).boot.setUp = 1 := by
  decide +kernel
/-- Every region switched on; a start within 720 powered hours of a retention pass. -/
def stOn : State := { State.reset with
  regs := ((Blk.pwr 0).base + 0x040, 3) :: (upTo 0 2).flatMap (fun t => (upTo 0 256).map (fun k => ((Blk.pwr t).base + 0x100 + 4 * k, 2))) }
def stQuick : State := { stBoot 7 with health := { Health.blank with retentionHours := some 0, retentionSerials := [0, 0, 0, 0] } }
theorem witness_BringUpStages_quick : stQuick.quickStart = true ∧ (stBoot 7).quickStart = false ∧
    ((stBoot 7).wgF (.mif 1) 0x000 1 0 2).mifReady 1 = true ∧ (stBoot 8).rgB (.pwr 0) 0x040 6 = false := by decide +kernel
/-- Level 2 with a token for partition 0, core 0 in it, group 0 halted. -/
def stDbg : State := ((((stOf g3).wg (.sc 0) 0x040 0xFFFF).wgF (.dbg 0) 0x000 1 0 2).wgF (.dbg 0) 0x000 31 16 1).wgF (.dbg 0) (dbgOff 0 + 8) 0 0 1
theorem witness_DebugPort : stDbg.held = false ∧ stDbg.dbgLevel = 2 ∧ stDbg.corePart 0 = some 0 ∧ stDbg.rgB (.dbg 0) 0x000 16 = true ∧
    stDbg.halted 0 0 = true ∧ stDbg.rgF (.dbg 0) (dbgOff 0) 9 4 = 0 ∧ mfind (stDbg.core 0).groups 0 = some g3 ∧ stDbg.pins.vddAon = true := by
  decide +kernel
theorem witness_DebugPort_access : (0x40 : Nat) + 8 ≤ stDbg.extEnd ∧ (stDbg.wgF (.pwr 0) 0x000 1 0 3).rgF (.pwr (stDbg.devOf 0x40 / 2)) 0x000 1 0 = 3 ∧
    stDbg.dbg.mem = none ∧ Numbered stDbg ∧ TraceOff stDbg ∧ stDbg.dbgPart (stDbg.memOwner 0x40 8) = true ∧ stDbg.extEnd ≤ winBase ∧
    State.reset.dbgLevel = 0 ∧ ({ stDbg with roster := { stDbg.roster with fenced := 1 } } : State).fencedReg 4 = true := by decide +kernel
/-- An access of eight bytes at 0x40 that waits for its answer. -/
def dbgDr (write : Bool) : BitVec 128 := BitVec.ofNat 128 (0x40 + 3 * 2 ^ 48 + (if write then 2 ^ 51 else 0))
theorem witness_DebugPort_answer : ∀ w ∈ [false, true],
    let s : State := { stDbg with dbg := { stDbg.dbg with mem := some (dbgDr w, 3) } }
    let r := { (dbgEng 3).req (if w then .write else .read) none 0x40 8 with line := List.replicate 8 1 }
    Back s r ∧ (dbgEng 3).owns r = true ∧ (dbgDr w).getLsbD 51 = w ∧ (dbgDr w).toNat % 2 ^ 48 = 0x40 ∧ linePieces 0x40 8 = [(0x40, 8)] ∧
    (w = false → (backOf s r).engReq (dbgEng 3) .read none 0x40 8 = some { r with rid := 7, state := .performed }) := by decide +kernel
theorem witness_DebugPort_token : (List.replicate 160 (0 : Byte)).length = 160 ∧ State.reset.rgB (.dbg 0) 0x000 2 = false ∧
    ofBytes (((List.replicate 160 (0 : Byte)).drop 32).take 8) ≤ State.reset.time.now ∧ State.reset.rgF (.dbg 0) 0x000 4 3 < 3 ∧
    (State.reset.wgB (.dbg 0) 0x000 2 true).rgB (.dbg 0) 0x000 2 = true ∧ stDbg.rg64 (.dbg 0) 0x008 ≤ stDbg.time.now := by decide +kernel

/-! ## The machine as a whole -/

theorem witness_StepRunsTheFrontCommand : ({ State.reset with pending := [.vddAonLoss] } : State).pending = [.vddAonLoss] ∧
    State.reset.time.running = false ∧ ({ State.reset.time with running := true } : Time).running = true := by decide
theorem witness_ThreadWordsDecode : encodeThread (.nop w0 (sf 0 0)) = some 0x00E0000000000000 := by decide
theorem witness_CommandsAreTakenInOrder : ∃ t, step { State.reset with pending := [.tripLatchClear, .vddAonLoss] } = .next t := ⟨_, rfl⟩
theorem witness_MemoryStaysCanonical : Memory.wf State.reset.mem = true ∧ Memory.wf [(3, 1), (7, 255)] = true ∧ Memory.wf [(3, 0)] = false ∧
    Memory.wf [(7, 1), (3, 1)] = false ∧ State.reset.poison.Pairwise (· < ·) ∧ ∃ t, step State.reset = .next t := by
  refine ⟨by decide, by decide, by decide, by decide, by decide, ⟨_, rfl⟩⟩

/-! ## Worked examples of the spec -/

/-- 07, locating one address: slice 0x57 of half 0, set 58, and site 0x0A7. -/
theorem test_home : (State.reset.setHome 0 0x357 0x57).home 0x12345A80 = (0, 0x57, 58) ∧ sliceSite 0 0x57 = 0x0A7 ∧
    ((State.reset.setHome 0 0x357 0x57).wgF (.sc 0) (0x800 + 4 * 0x57) 2 0 2).home 0x12345A80 = (0, 0x57, 570) := by decide +kernel
/-- 07, re-blocking two MXFP4 elements: scale 126 holds 6.0 and 0.5; with 12.0 beside them 0.25 becomes 0. -/
theorem test_reblock : mxScale 11 [0x40400000, 0x3E800000] = 126 ∧ (mxElem 11 126 0x40400000).1 = 7 ∧ (mxElem 11 126 0x3E800000).1 = 1 ∧
    mxScale 11 [0x40400000, 0x3E800000, 0x41400000] = 128 ∧ (mxElem 11 128 0x3E800000).1 = 0 := by decide +kernel

/-- R75: in a group of zeros every element is 0, that of -0.0 too; beside another value -0.0 keeps its sign. -/
theorem test_zero_group : (mxRow 9 [⟨0x80000000, false, false⟩, ⟨0, false, false⟩]).1 = [(0, false), (0, false)] ∧
    (mxRow 9 [⟨0x80000000, false, false⟩, ⟨0x3F800000, false, false⟩]).1.head? = some (0x80, false) := by decide +kernel
/-- 08, one gather on an XN8 in spread mode: the descriptor of context 0x3A41. -/
def st8s (spread : Bool) : State :=
  { State.reset with
    part := { State.reset.part with grade := .xn8_3840 }
    boot := { State.reset.boot with cfg := { State.reset.boot.cfg with spread := spread } } }
theorem test_descriptor : (st8s true).descAddr 0x3A41 = 0x011FFC0E9040 ∧ (st8s true).devOf 0x011FFC0E9040 = 9 ∧
    (st8s true).offOf 0x011FFC0E9040 = 0x11FFC0E040 ∧ (st8s false).descAddr 0x3A41 = 0x00B3FFC0E040 := by decide +kernel
/-- 11, a LAUNCH and its reply. -/
theorem test_reply : ({ kernel with recIndex := 0x1F7, bounded := 0x4A817C200 } : Cmd).reply true =
      toBytes 4 0x80000107 ++ toBytes 4 0x1F7 ++ toBytes 4 0xA817C200 ++ toBytes 4 4 ∧
    (kernel.gridX, kernel.gridY, kernel.gridZ, kernel.threads, kernel.nregs, kernel.lmemUnits) = (4096, 8, 1, 256, 40, 24) ∧
    kernel.flag 11 = true := by decide +kernel
/-- 18, a record field across a wrap and a saturation: fields 7 and 12, and SAT. -/
def latch (mesh lock : Nat) : List Nat := ((List.replicate 24 0).set 7 mesh).set 12 lock
def kerCnt : Cmd := { kernel with
  startVals := [(0x2A5, latch 0xFFFFFFFFFFF00000 0xFFFFF000), (0x2B6, latch 0x10000000 0x100)]
  endVals := [(0x2A5, latch 0x300000 0xFFFFFFFF), (0x2B6, latch 0x10100000 0x164)] }
theorem test_record : nth 0 kerCnt.fields 7 = 5242880 ∧ nth 0 kerCnt.fields 12 = 4195 ∧ kerCnt.sat = 2 ^ 12 := by decide +kernel
/-- 13, choosing a record: the one of slot B fits at 61.0 °C, and not at 64.0 °C. -/
def recB : QRec := ⟨0x5153, 1, 40, 0, 5, 0, 0, 776, 512, 0, 0⟩
theorem test_quickset : ({ st8s false with health := { Health.blank with hours := 906 } } : State).quickFits 5 0 976 recB = true ∧
    ({ st8s false with health := { Health.blank with hours := 906 } } : State).quickFits 5 0 1024 recB = false := by decide +kernel
/-- 04, quantise after accumulate: FMA of stage 1, and the INT8 stored. -/
theorem test_espalier : ffma (cvtif .rne 12345) 0x3C000000 0x40500000 = 0x42C76400 ∧
    espCode 2 ⟨0x42C76400, false, false⟩ = (0x64, false) ∧
    espCode 2 ⟨ffma (cvtif .rne 20000) 0x3C000000 0x40500000, false, false⟩ = (0x7F, true) := by decide +kernel
/-- R10: some reset values of the register tables. -/
theorem test_reset_registers : State.reset.rg (.arr 0) 0x004 = 0x30 ∧ State.reset.rgF (.sc 0) 0x004 3 0 = 8 ∧ State.reset.rgF (.clk 0) 0x004 7 0 = 45 ∧
    State.reset.rgF (.thm 0) 0x004 7 1 = 100 ∧ State.reset.rgF (.thm 0) 0x004 14 8 = 95 := by decide +kernel
theorem witness_BringUpStages_on : AtStage stOn 3 ∧ ∀ r < 512, 2 ≤ stOn.regF r 1 0 := by decide +kernel

end Sys2Proof.Tests
end

section
/-! PROOF. What one issue of a thread instruction leaves of the group, and of the rest of the part (R100, R102, R414, R434). -/

namespace Sys2Proof.Machine

open Sys2Proof.Claims

/-! ## Threads of a group -/

theorem upTo_nodup (a n : Nat) : (upTo a n).Nodup := by
  induction n generalizing a with
  | zero => exact List.nodup_nil
  | succ n ih => exact List.nodup_cons.mpr ⟨by simp, ih _⟩

theorem setNth_of_length_le {α : Type} (l : List α) (n : Nat) (y : α) (h : l.length ≤ n) : setNth l n y = l := by
  induction l generalizing n with
  | nil => rfl
  | cons x l ih =>
    cases n with
    | zero => simp at h
    | succ n => simp only [setNth]; rw [ih n (by simpa using h)]

/-- A lane without a thread takes nothing. -/
theorem Group.modTh_of_length_le (g : Group) (l : Nat) (f : Thread → Thread) (h : g.threads.length ≤ l) : g.modTh l f = g := by
  rw [Group.modTh, setNth_of_length_le _ _ _ h]

/-- A field that the change of a thread keeps reads as before in every lane. -/
theorem Group.field_th_modTh {β : Type} (field : Thread → β) (g : Group) (l k : Nat) {f : Thread → Thread}
    (hf : ∀ t, field (f t) = field t) : field ((g.modTh l f).th k) = field (g.th k) := by
  by_cases hl : l < g.threads.length
  · rw [Group.th_modTh _ _ _ _ hl]
    split
    · rename_i hk; rw [hf, hk]
    · rfl
  · rw [Group.modTh_of_length_le _ _ _ (not_lt.mp hl)]

/-- The lanes that have a thread and lie in the list stand at the index; every other thread is as it was. -/
theorem Group.th_moveTo (g : Group) (ls : List Nat) (pc k : Nat) :
    (g.moveTo ls pc).th k = if k ∈ ls ∧ k < g.threads.length then { g.th k with pc := pc } else g.th k := by
  induction ls generalizing g with
  | nil => simp [Group.moveTo]
  | cons l ls ih =>
    have step : g.moveTo (l :: ls) pc = (g.modTh l (fun t => { t with pc := pc })).moveTo ls pc := rfl
    rw [step, ih]
    by_cases hl : l < g.threads.length
    · rw [Group.threads_length_modTh, Group.th_modTh _ _ _ _ hl]
      by_cases hk : k = l
      · subst hk; simp [hl]
      · simp [hk]
    · rw [Group.modTh_of_length_le _ _ _ (not_lt.mp hl)]
      have hk : k ∈ l :: ls ∧ k < g.threads.length ↔ k ∈ ls ∧ k < g.threads.length := by
        rw [List.mem_cons]; constructor
        · rintro ⟨rfl | h, hlt⟩
          · exact absurd hlt hl
          · exact ⟨h, hlt⟩
        · exact fun h => ⟨.inr h.1, h.2⟩
      simp only [hk]

theorem Group.moveTo_eq (g : Group) (ls : List Nat) (pc : Nat) :
    g.moveTo ls pc = { g with threads := (g.moveTo ls pc).threads } := by
  induction ls generalizing g with
  | nil => rfl
  | cons l ls ih => exact (ih (g.modTh l (fun t => { t with pc := pc }))).trans rfl

/-- Counting an instruction changes the choice of the active path only. -/
theorem Group.counted_eq (g : Group) (low : Nat) :
    g.counted low = { g with act := (g.counted low).act, count := (g.counted low).count } := by
  simp only [Group.counted]; split <;> rfl

/-- While fewer than 64 instructions have issued the path stays active (R102). -/
theorem Group.counted_of_lt (g : Group) (low : Nat) (h : g.count < 63) : g.counted low = { g with count := g.count + 1 } := by
  unfold Group.counted
  rw [if_neg]
  simp; omega

@[simp] theorem Group.th_counted (g : Group) (low k : Nat) : (g.counted low).th k = g.th k := by
  rw [Group.counted_eq]; rfl

@[simp] theorem Group.uregs_advance (g : Group) (path : List Nat) (low pc : Nat) : (g.advance path low pc).uregs = g.uregs := by
  rw [Group.advance, Group.counted_eq, Group.moveTo_eq]

@[simp] theorem Group.upois_advance (g : Group) (path : List Nat) (low pc : Nat) : (g.advance path low pc).upois = g.upois := by
  rw [Group.advance, Group.counted_eq, Group.moveTo_eq]

theorem Group.th_advance (g : Group) (path : List Nat) (low pc k : Nat) :
    (g.advance path low pc).th k =
      if k ∈ path ∧ k < g.threads.length then { g.th k with pc := pc + 1 } else g.th k := by
  rw [Group.advance, Group.th_counted, Group.th_moveTo]

@[simp] theorem Group.regs_th_advance (g : Group) (path : List Nat) (low pc k : Nat) :
    ((g.advance path low pc).th k).regs = (g.th k).regs := by
  rw [Group.th_advance]; split <;> rfl

@[simp] theorem Group.rpois_th_advance (g : Group) (path : List Nat) (low pc k : Nat) :
    ((g.advance path low pc).th k).rpois = (g.th k).rpois := by
  rw [Group.th_advance]; split <;> rfl

@[simp] theorem Group.preds_th_advance (g : Group) (path : List Nat) (low pc k : Nat) :
    ((g.advance path low pc).th k).preds = (g.th k).preds := by
  rw [Group.th_advance]; split <;> rfl

@[simp] theorem Group.reg_advance (g : Group) (path : List Nat) (low pc l r : Nat) :
    (g.advance path low pc).reg l r = g.reg l r := by
  simp [Group.reg]

@[simp] theorem Group.rpois_advance (g : Group) (path : List Nat) (low pc l r : Nat) :
    (g.advance path low pc).rpois l r = g.rpois l r := by
  simp [Group.rpois]

@[simp] theorem Group.pred_advance (g : Group) (path : List Nat) (low pc l n : Nat) :
    (g.advance path low pc).pred l n = g.pred l n := by
  simp [Group.pred]

/-! ## Groups that differ in what their threads compute -/

/-- Between g and h only registers, poison marks and predicates differ. -/
def Group.OnlyValues (g h : Group) : Prop :=
  h = { g with threads := h.threads, uregs := h.uregs, upois := h.upois } ∧ h.threads.length = g.threads.length ∧
  ∀ l, h.th l = { g.th l with preds := (h.th l).preds, regs := (h.th l).regs, rpois := (h.th l).rpois }

theorem Group.OnlyValues.refl (g : Group) : g.OnlyValues g := ⟨rfl, rfl, fun _ => rfl⟩

theorem Group.OnlyValues.threads_length {g h : Group} (hgh : g.OnlyValues h) : h.threads.length = g.threads.length := by
  obtain ⟨-, hlen, -⟩ := hgh; exact hlen

theorem Group.OnlyValues.trans {g h k : Group} (hgh : g.OnlyValues h) (hhk : h.OnlyValues k) : g.OnlyValues k := by
  obtain ⟨e1, l1, t1⟩ := hgh
  obtain ⟨e2, l2, t2⟩ := hhk
  refine ⟨?_, l2.trans l1, fun l => ?_⟩
  · rw [e2, e1]
  · rw [t2 l, t1 l]

/-- A thread that takes new registers, marks and predicates. -/
theorem Group.onlyValues_modTh (g : Group) (l : Nat) (f : Thread → Thread)
    (hf : ∀ t, f t = { t with preds := (f t).preds, regs := (f t).regs, rpois := (f t).rpois }) : g.OnlyValues (g.modTh l f) := by
  by_cases hl : l < g.threads.length
  · refine ⟨rfl, by simp, fun k => ?_⟩
    rw [Group.th_modTh _ _ _ _ hl]
    split
    · rename_i hk; subst hk; exact hf _
    · rfl
  · rw [Group.modTh_of_length_le _ _ _ (not_lt.mp hl)]; exact .refl g

theorem Group.onlyValues_setV (g : Group) (l n : Nat) (v : W32) (p : Bool) : g.OnlyValues (g.setV l n v p) := by
  unfold Group.setV; split
  · exact .refl g
  · exact g.onlyValues_modTh l _ (fun _ => rfl)

theorem Group.onlyValues_setU (g : Group) (n : Nat) (v : W32) (p : Bool) : g.OnlyValues (g.setU n v p) :=
  ⟨rfl, rfl, fun _ => rfl⟩

theorem Group.onlyValues_setPred (g : Group) (l n : Nat) (b : Bool) : g.OnlyValues (g.setPred l n b) := by
  unfold Group.setPred; split
  · exact .refl g
  · exact g.onlyValues_modTh l _ (fun _ => rfl)

theorem Group.onlyValues_foldl {α : Type} {f : Group → α → Group} (hf : ∀ g x, Group.OnlyValues g (f g x)) (xs : List α)
    (g : Group) : g.OnlyValues (xs.foldl f g) := by
  induction xs generalizing g with
  | nil => exact .refl g
  | cons x xs ih => exact (hf g x).trans (ih _)

theorem Group.onlyValues_write (g : Group) (r : Nat) (outs : List Lane) : g.OnlyValues (g.write r outs) := by
  unfold Group.write
  split
  · split
    · exact .refl g
    · exact g.onlyValues_setU _ _ _
  · exact Group.onlyValues_foldl (fun h o => h.onlyValues_setV _ _ _ _) outs g

theorem State.path_eq_pathAt {s : State} {w : At} {c : Ctx} (h : s.issueCtx w = some c) : c.path = c.grp.pathAt c.pc := by
  obtain ⟨-, -, -, -, -, -, -, hpath, -, -⟩ := State.issueCtx_eq h
  exact hpath

/-- The threads of the active path are threads of the group. -/
theorem lt_length_of_mem_path {s : State} {w : At} {c : Ctx} (h : s.issueCtx w = some c) {l : Nat} (hl : l ∈ c.path) :
    l < c.grp.threads.length := by
  rw [State.path_eq_pathAt h, Group.mem_pathAt] at hl
  obtain ⟨-, hruns, -⟩ := hl
  exact Group.lt_length_of_runs hruns

/-- Where only values changed, the advance of the path is all that is left to see of the issue (R102). -/
theorem Group.OnlyValues.movedOn {s : State} {w : At} {c : Ctx} {g : Group} (hg : c.grp.OnlyValues g)
    (h : s.issueCtx w = some c) : MovedOn c { g.advance c.path c.low c.pc with bpSkip := false } := by
  obtain ⟨heq, hlen, hth⟩ := hg
  have hact : g.act = c.grp.act ∧ g.count = c.grp.count := by rw [heq]; exact ⟨rfl, rfl⟩
  refine ⟨?_, fun l => ?_, fun hc => ?_⟩
  · rw [Group.advance, Group.counted_eq, Group.moveTo_eq, heq]
  · let t := (g.advance c.path c.low c.pc).th l
    change t = { c.grp.th l with
      pc := if l ∈ c.path then c.pc + 1 else (c.grp.th l).pc, preds := t.preds, regs := t.regs, rpois := t.rpois }
    simp only [t, Group.regs_th_advance, Group.rpois_th_advance, Group.preds_th_advance]
    rw [Group.th_advance]
    by_cases hl : l ∈ c.path
    · rw [if_pos ⟨hl, hlen ▸ lt_length_of_mem_path h hl⟩, if_pos hl, hth l]
    · rw [if_neg (fun h => hl h.1), if_neg hl, hth l]
  · have hm : (g.moveTo c.path (c.pc + 1)).act = g.act ∧ (g.moveTo c.path (c.pc + 1)).count = g.count := by
      rw [Group.moveTo_eq]; exact ⟨rfl, rfl⟩
    rw [Group.advance, Group.counted_of_lt _ _ (by omega)]
    exact ⟨by simp [hm, hact], by simp [hm, hact]⟩

/-! ## Results in registers and predicates (R116, R117, R121) -/

theorem contains_markNat (m : List Nat) (i j : Nat) (p : Bool) : (markNat m i p).contains j = if j = i then p else m.contains j := by
  rw [Bool.eq_iff_iff]
  cases p <;> by_cases h : j = i <;> simp [markNat, h]

/-- A poison mark of a lane after a thread register is written. -/
theorem Group.rpois_setV (g : Group) (l n : Nat) (v : W32) (p : Bool) (k r : Nat) (hl : l < g.threads.length) (hn : n < 256) :
    (g.setV l n v p).rpois k r = if k = l ∧ r = n ∧ n ≠ 255 then p else g.rpois k r := by
  unfold Group.setV
  by_cases h255 : n = 255
  · simp [h255]
  · simp only [if_neg h255, Group.rpois]
    by_cases hr : 256 ≤ r
    · rw [if_pos hr, if_pos hr, if_neg (by omega)]; rfl
    · rw [if_neg hr, if_neg hr, Group.th_modTh _ _ _ _ hl]
      by_cases hk : k = l
      · subst hk
        simp only [if_true]
        by_cases hrn : r = n
        · subst hrn; rw [contains_markNat]; simp [h255]
        · rw [contains_markNat]; simp [hrn]
      · simp [hk]

/-- A poison mark of a lane after a uniform register is written. -/
theorem Group.rpois_setU (g : Group) (n : Nat) (v : W32) (p : Bool) (k r : Nat) :
    (g.setU n v p).rpois k r = if r = 256 + n then p else g.rpois k r := by
  unfold Group.rpois
  by_cases hr : 256 ≤ r
  · simp only [Group.setU, if_pos hr, contains_markNat]
    by_cases h : r = 256 + n
    · rw [if_pos (by omega), if_pos h]
    · rw [if_neg (by omega), if_neg h]
  · rw [if_neg hr, if_neg hr, if_neg (show ¬ r = 256 + n by omega)]; rfl

@[simp] theorem Group.threads_length_setV (g : Group) (l n : Nat) (v : W32) (p : Bool) :
    (g.setV l n v p).threads.length = g.threads.length := (g.onlyValues_setV l n v p).threads_length

@[simp] theorem Group.threads_length_setPred (g : Group) (l n : Nat) (b : Bool) :
    (g.setPred l n b).threads.length = g.threads.length := (g.onlyValues_setPred l n b).threads_length

/-- Writing a thread register in each lane of a list gives each of them its own value and mark, and changes nothing else. -/
theorem Group.reg_foldl_setV (g : Group) (d : Nat) (ls : List Nat) (v : Nat → W32) (p : Nat → Bool) (hd : d < 256)
    (hls : ls.Nodup) (hlen : ∀ l ∈ ls, l < g.threads.length) (k r : Nat) :
    let h := ls.foldl (fun h l => h.setV l d (v l) (p l)) g
    h.reg k r = (if k ∈ ls ∧ r = d ∧ d ≠ 255 then v k else g.reg k r) ∧
    h.rpois k r = (if k ∈ ls ∧ r = d ∧ d ≠ 255 then p k else g.rpois k r) := by
  induction ls generalizing g with
  | nil => simp
  | cons l ls ih =>
    obtain ⟨hl, hls⟩ := List.nodup_cons.mp hls
    have hl0 := hlen l (List.mem_cons_self ..)
    obtain ⟨hv, hp⟩ := ih (g.setV l d (v l) (p l)) hls fun j hj => by simpa using hlen j (List.mem_cons_of_mem _ hj)
    rw [Group.reg_setV _ _ _ _ _ _ _ hl0 hd] at hv
    rw [Group.rpois_setV _ _ _ _ _ _ _ hl0 hd] at hp
    refine ⟨hv.trans ?_, hp.trans ?_⟩ <;>
    · by_cases hk : k = l
      · subst hk; simp [hl]
      · simp [hk]

/-- A destination register takes the results of the lanes, each thread its own or a uniform register the lowest thread's. -/
theorem wrote_write {c : Ctx} {ls : List Nat} {ok : Nat → W32 → Prop} (ud : Bool) (d : Nat) (v : Nat → W32) (p : Nat → Bool)
    (hd : d < 256) (hne : ls ≠ []) (hls : ls.Nodup) (hlen : ∀ l ∈ ls, l < c.grp.threads.length) (hok : ∀ l ∈ ls, ok l (v l)) :
    Wrote c (c.grp.write (regNo ud d) (ls.map (fun l => (l, v l, p l)))) ud d ls ok := by
  cases ud with
  | true =>
    obtain ⟨l, ls, rfl⟩ := List.exists_cons_of_ne_nil hne
    have hw : c.grp.write (regNo true d) ((l :: ls).map (fun l => (l, v l, p l))) = c.grp.setU d (v l) (p l) := by
      simp [Group.write, regNo]
    rw [hw]
    refine ⟨by simp, fun _ k => ?_, fun k r hr => ?_⟩
    · rw [Group.reg_setU, if_pos rfl]; exact hok l (List.mem_cons_self ..)
    · have hr : r ≠ 256 + d := fun h => hr ⟨by simp [regNo, h], by omega, .inl rfl⟩
      rw [Group.reg_setU, Group.rpois_setU, if_neg hr, if_neg hr]; exact ⟨rfl, rfl⟩
  | false =>
    have hw : c.grp.write (regNo false d) (ls.map (fun l => (l, v l, p l))) =
        ls.foldl (fun h l => h.setV l d (v l) (p l)) c.grp := by
      simp only [Group.write, regNo, Bool.false_eq_true, if_false, if_neg (show ¬ 256 ≤ d by omega), List.foldl_map]
    have key := Group.reg_foldl_setV c.grp d ls v p hd hls hlen
    rw [hw]
    refine ⟨fun _ h255 l hl => ?_, by simp, fun k r hr => ?_⟩
    · rw [(key l d).1, if_pos ⟨hl, rfl, h255⟩]; exact hok l hl
    · have hr : ¬ (k ∈ ls ∧ r = d ∧ d ≠ 255) := fun ⟨h1, h2, h3⟩ => hr ⟨by simp [regNo, h2], h2 ▸ h3, .inr h1⟩
      rw [(key k r).1, (key k r).2, if_neg hr, if_neg hr]; exact ⟨rfl, rfl⟩

/-- Writing registers reads no predicate differently. -/
theorem keptPreds_of_preds {c : Ctx} {g : Group} (h : ∀ l, (g.th l).preds = (c.grp.th l).preds) : KeptPreds c g := by
  intro l n; rw [Group.pred, Group.pred, h]

theorem Group.preds_th_setV (g : Group) (l n : Nat) (v : W32) (p : Bool) (k : Nat) :
    ((g.setV l n v p).th k).preds = (g.th k).preds := by
  unfold Group.setV
  split
  · rfl
  · exact Group.field_th_modTh Thread.preds g l k fun _ => rfl

theorem Group.preds_th_write (g : Group) (r : Nat) (outs : List Lane) (k : Nat) : ((g.write r outs).th k).preds = (g.th k).preds := by
  unfold Group.write
  split
  · split <;> rfl
  · induction outs generalizing g with
    | nil => rfl
    | cons o outs ih => rw [List.foldl_cons, ih, Group.preds_th_setV]

/-- A write of results changes no predicate. -/
theorem keptPreds_write (c : Ctx) (r : Nat) (outs : List Lane) : KeptPreds c (c.grp.write r outs) :=
  keptPreds_of_preds (c.grp.preds_th_write r outs)

/-- Setting a predicate in each lane of a list gives each of them its own, and changes nothing else. -/
theorem Group.pred_foldl_setPred (g : Group) (pd : Nat) (ls : List Nat) (v : Nat → Bool) (hpd : pd < 8) (hls : ls.Nodup)
    (hlen : ∀ l ∈ ls, l < g.threads.length) (k n : Nat) :
    (ls.foldl (fun h l => h.setPred l pd (v l)) g).pred k n = if k ∈ ls ∧ n = pd ∧ pd ≠ 7 then v k else g.pred k n := by
  induction ls generalizing g with
  | nil => simp
  | cons l ls ih =>
    obtain ⟨hl, hls⟩ := List.nodup_cons.mp hls
    rw [List.foldl_cons, ih _ hls fun j hj => by simpa using hlen j (List.mem_cons_of_mem _ hj),
      Group.pred_setPred _ _ _ _ _ _ (hlen l (List.mem_cons_self ..)) hpd]
    by_cases hk : k = l
    · subst hk; simp [hl]
    · simp [hk]

theorem Group.regs_setPred (g : Group) (l n : Nat) (b : Bool) (k : Nat) :
    ((g.setPred l n b).th k).regs = (g.th k).regs ∧ ((g.setPred l n b).th k).rpois = (g.th k).rpois ∧
    (g.setPred l n b).uregs = g.uregs ∧ (g.setPred l n b).upois = g.upois := by
  unfold Group.setPred
  split
  · exact ⟨rfl, rfl, rfl, rfl⟩
  · exact ⟨Group.field_th_modTh Thread.regs g l k fun _ => rfl, Group.field_th_modTh Thread.rpois g l k fun _ => rfl, rfl, rfl⟩

theorem Group.reg_setPred (g : Group) (l n : Nat) (b : Bool) (k r : Nat) :
    (g.setPred l n b).reg k r = g.reg k r ∧ (g.setPred l n b).rpois k r = g.rpois k r := by
  obtain ⟨hregs, hrpois, huregs, hupois⟩ := g.regs_setPred l n b k
  simp only [Group.reg, Group.rpois, hregs, hrpois, huregs, hupois, and_self]

/-- Setting predicates changes no register and no mark. -/
theorem keptRegs_foldl_setPred (c : Ctx) (pd : Nat) (ls : List Nat) (v : Nat → Bool) :
    KeptRegs c (ls.foldl (fun h l => h.setPred l pd (v l)) c.grp) := by
  intro k r
  have key : ∀ g : Group, (ls.foldl (fun h l => h.setPred l pd (v l)) g).reg k r = g.reg k r ∧
      (ls.foldl (fun h l => h.setPred l pd (v l)) g).rpois k r = g.rpois k r := by
    induction ls with
    | nil => exact fun _ => ⟨rfl, rfl⟩
    | cons l ls ih =>
      intro g
      obtain ⟨hr, hp⟩ := g.reg_setPred l pd (v l) k r
      obtain ⟨ihr, ihp⟩ := ih (g.setPred l pd (v l))
      exact ⟨ihr.trans hr, ihp.trans hp⟩
  exact key c.grp

/-- A destination predicate takes the finding of each lane; p7 takes nothing. -/
theorem wrotePred_foldl_setPred {c : Ctx} {ls : List Nat} {ok : Nat → Bool → Prop} (pd : Nat) (v : Nat → Bool) (hpd : pd < 8)
    (hls : ls.Nodup) (hlen : ∀ l ∈ ls, l < c.grp.threads.length) (hok : ∀ l ∈ ls, ok l (v l)) :
    WrotePred c (ls.foldl (fun h l => h.setPred l pd (v l)) c.grp) pd ls ok := by
  have key := Group.pred_foldl_setPred c.grp pd ls v hpd hls hlen
  refine ⟨fun h7 l hl => ?_, fun l n hn => ?_⟩
  · rw [key l pd, if_pos ⟨hl, rfl, h7⟩]; exact hok l hl
  · rw [key l n, if_neg fun ⟨h1, h2, h3⟩ => hn ⟨h2, h2 ▸ h3, h1⟩]

/-! ## Device registers that an issue moves (R100, R414, R434) -/

theorem mfind_mset_ne {α : Type} [DecidableEq α] (d : α) (m : Map α) {i j : Nat} (x : α) (h : j ≠ i) :
    mfind (mset d m i x) j = mfind m j := by
  unfold mset
  split
  · rw [mfind_merase, if_neg h]
  · rw [mfind_mput, if_neg h]

/-- Between s and t only the registers of some keys differ. -/
def State.OnlyKeys (ks : List Nat) (s t : State) : Prop :=
  s.OnlyRegs t ∧ ∀ k, k ∉ ks → mfind t.regs k = mfind s.regs k

theorem State.OnlyKeys.trans {ks : List Nat} {s t u : State} (h : s.OnlyKeys ks t) (k : t.OnlyKeys ks u) : s.OnlyKeys ks u :=
  ⟨h.1.trans k.1, fun i hi => (k.2 i hi).trans (h.2 i hi)⟩

theorem State.OnlyKeys.mono {ks js : List Nat} {s t : State} (h : s.OnlyKeys ks t) (hsub : ks ⊆ js) : s.OnlyKeys js t :=
  ⟨h.1, fun i hi => h.2 i fun hk => hi (hsub hk)⟩

/-- A register of another key reads as before. -/
theorem State.OnlyKeys.rg64 {ks : List Nat} {s t : State} (h : s.OnlyKeys ks t) {b : Blk} {o : Nat} (h0 : b.base + o ∉ ks)
    (h4 : b.base + (o + 4) ∉ ks) : t.rg64 b o = s.rg64 b o := by
  simp only [State.rg64, State.rg, mget, h.2 _ h0, h.2 _ h4]

theorem State.onlyKeys_wg (s : State) (b : Blk) (o : Nat) (v : W32) : s.OnlyKeys [b.base + o] (s.wg b o v) :=
  ⟨s.onlyRegs_wg b o v, fun _ hk => mfind_mset_ne _ _ _ (by simpa using hk)⟩

/-- A 64-bit count that does not wrap writes its two words. -/
theorem State.onlyKeys_bump64 (s : State) (b : Blk) (o n : Nat) (h : s.rg64 b o + n < 2 ^ 64) :
    s.OnlyKeys [b.base + o, b.base + (o + 4)] (s.bump64 b o n) := by
  rw [State.bump64_of_lt s b o n h]
  exact ((s.onlyKeys_wg b o _).mono (by simp)).trans ((State.onlyKeys_wg _ b (o + 4) _).mono (by simp))

theorem State.sites_le (s : State) : s.sites ≤ 4096 := by
  unfold State.sites State.stacks
  cases s.part.grade <;> decide

/-! ## The rest of the part after an issue -/

theorem mfind_map {α : Type} (f : Nat → α → α) (m : Map α) (i : Nat) :
    mfind (m.map (fun e => (e.1, f e.1 e.2))) i = (mfind m i).map (f i) := by
  induction m with
  | nil => rfl
  | cons e m ih =>
    obtain ⟨k, v⟩ := e
    simp only [List.map_cons, mfind, ih]
    split
    · rename_i hk; subst hk; rfl
    · rfl

/-- Before its counts, an issue has moved the round robin, run the stall timers and used up a pending step. -/
def State.beforeCounts (s : State) (c : Ctx) : State :=
  let s := s.modCore c.site (fun k =>
    { k.stalled (fun g => s.halted c.site g) (32 / max 8 c.blk.width) with rr := (c.slot + 1) % 64 })
  let s := if s.stepPending c.site c.slot then s.wgB (.dbg (siteStack c.site)) (dbgOff c.site) 2 false else s
  s.modGroup c.site c.slot (fun g => { g with bpSkip := false })

theorem State.issued_eq (s : State) (c : Ctx) :
    s.issued c = ((s.beforeCounts c).bump64 (.cntCore c.site) 0x000 (32 / max 8 c.blk.width)).bump64 (.cntCore c.site) 0x008
      (32 / max 8 c.blk.width) := rfl

/-- Beside cores, the issue changes no more than a count with its records can. -/
theorem State.issued_onlyTraced (s : State) (c : Ctx) : (s.beforeCounts c).OnlyTraced (s.issued c) := by
  rw [State.issued_eq]
  exact (State.onlyTraced_bump64 _ _ _ _).trans (State.onlyTraced_bump64 _ _ _ _)

/-- Between s and t only cores and registers differ. -/
def State.OnlyCores (s t : State) : Prop := t = { s with cores := t.cores, regs := t.regs }

theorem State.OnlyCores.trans {s t u : State} (h : s.OnlyCores t) (k : t.OnlyCores u) : s.OnlyCores u := by
  unfold State.OnlyCores at *; rw [k, h]

theorem State.OnlyRegs.onlyCores {s t : State} (h : s.OnlyRegs t) : s.OnlyCores t := by
  unfold State.OnlyRegs at h; unfold State.OnlyCores; rw [h]

theorem State.onlyCores_modCore (s : State) (i : Nat) (f : Core → Core) : s.OnlyCores (s.modCore i f) := rfl

theorem State.onlyCores_modGroup (s : State) (site slot : Nat) (f : Group → Group) : s.OnlyCores (s.modGroup site slot f) := rfl

theorem State.beforeCounts_onlyCores (s : State) (c : Ctx) : s.OnlyCores (s.beforeCounts c) := by
  simp only [State.beforeCounts]
  refine State.OnlyCores.trans ?_ (State.onlyCores_modGroup _ _ _ _)
  split
  · exact (s.onlyCores_modCore _ _).trans (State.onlyRegs_wg _ _ _ _).onlyCores
  · exact s.onlyCores_modCore _ _

theorem State.regs_beforeCounts (s : State) (c : Ctx) (k : Nat)
    (hk : k ≠ (Blk.dbg (siteStack c.site)).base + dbgOff c.site) : mfind (s.beforeCounts c).regs k = mfind s.regs k := by
  simp only [State.beforeCounts]
  split
  · exact mfind_mset_ne _ _ _ hk
  · rfl

/-- The record of a core after an issue. -/
theorem State.core_issued (s : State) (c : Ctx) (i : Nat) :
    (s.issued c).core i = if i = c.site then
      { (s.core c.site).stalled (fun g => s.halted c.site g) (32 / max 8 c.blk.width) with
        rr := (c.slot + 1) % 64, groups := mmod (s.core c.site).groups c.slot (fun g => { g with bpSkip := false }) }
      else s.core i := by
  have h : (s.issued c).cores = (s.beforeCounts c).cores := by rw [s.issued_onlyTraced c]
  rw [State.core_congr h]
  have hstep : ∀ (t : State) (p : Bool) b o k v j, (if p then t.wgB b o k v else t).core j = t.core j := by
    intro t p b o k v j
    split
    · exact State.core_congr (State.wgB_cores ..) j
    · rfl
  simp only [State.beforeCounts, State.modGroup, State.core_modCore, hstep, if_true]
  split <;> rfl

/-- Where the two counts do not wrap, an issue changes cores and the registers of `issueKeys` only. -/
theorem State.issued_of_far {s : State} {c : Ctx} (hsite : c.site < 4096) (hfar : FarFromWrap s c.site) :
    s.OnlyCores (s.issued c) ∧ ∀ k, k ∉ issueKeys c → mfind (s.issued c).regs k = mfind s.regs k := by
  have hn : 32 / max 8 c.blk.width ≤ 4 := Nat.div_le_of_le_mul (by omega)
  have hb := s.regs_beforeCounts c
  have hrg : ∀ o < 0x400, (s.beforeCounts c).rg64 (.cntCore c.site) o = s.rg64 (.cntCore c.site) o := by
    intro o ho
    simp only [State.rg64, State.rg, mget]
    rw [hb _ (by simp only [Blk.base]; omega), hb _ (by simp only [Blk.base]; omega)]
  have h0 := State.onlyKeys_bump64 (s.beforeCounts c) (.cntCore c.site) 0x000 (32 / max 8 c.blk.width) (by
    rw [hrg 0 (by omega)]; omega)
  have h8 := State.onlyKeys_bump64 _ (.cntCore c.site) 0x008 (32 / max 8 c.blk.width) (by
    rw [h0.rg64 (by simp) (by simp), hrg 8 (by omega)]; omega)
  have hall : (s.beforeCounts c).OnlyKeys (issueKeys c) (s.issued c) := by
    rw [State.issued_eq]
    exact (h0.mono (by simp [issueKeys])).trans (h8.mono (by simp [issueKeys]))
  refine ⟨(s.beforeCounts_onlyCores c).trans hall.1.onlyCores, fun k hk => (hall.2 k hk).trans (hb k ?_)⟩
  rintro rfl
  simp [issueKeys] at hk

/-- The stall timer of a block apart, `stallAfter` leaves the block. -/
theorem stallAfter_stall (k : Core) (halted : Nat → Bool) (n b : Nat) (x : Block) :
    { stallAfter k halted n b x with stall := 0 } = { x with stall := 0 } := by
  simp only [stallAfter]
  split
  · rfl
  · split <;> rfl

/-- The group of the context takes a new value; beside it only what an issue itself moves differs. -/
theorem State.onlyGroup_put {s : State} {c : Ctx} (g : Group) (hsite : c.site < 4096) (hfar : FarFromWrap s c.site) :
    OnlyGroup s (s.put c g) c := by
  obtain ⟨hst, hregs⟩ := State.issued_of_far (s := s.modGroup c.site c.slot (fun _ => g)) hsite hfar
  have hcore : ∀ i, (s.put c g).core i = _ := fun i => State.core_issued (s.modGroup c.site c.slot (fun _ => g)) c i
  have hmod : ∀ i, (s.modGroup c.site c.slot (fun _ => g)).core i =
      if i = c.site then { s.core c.site with groups := mmod (s.core c.site).groups c.slot (fun _ => g) } else s.core i :=
    fun i => State.core_modCore s c.site i _
  simp only [hmod, if_true] at hcore
  refine ⟨(s.onlyCores_modGroup c.site c.slot _).trans hst, fun i hi => ?_, ?_, fun b => ?_, fun j hj => ?_, fun k hk => ?_⟩
  · rw [hcore, if_neg hi, if_neg hi]
  · rw [hcore, if_pos rfl]; rfl
  · rw [hcore, if_pos rfl]
    simp only [Core.stalled, mfind_map, Option.map_map]
    exact congrArg (Option.map · _) (funext fun x => stallAfter_stall _ _ _ _ x)
  · rw [hcore, if_pos rfl]
    simp only [mfind_mmod, if_neg hj]
  · exact hregs k hk

/-! ## What an instruction of a group leaves -/

section Results

variable {s : State} {w : At} {c : Ctx} {g : Group} {ls : List Nat}

theorem issueCtx_of_fetches (h : Fetches s w c) : s.issueCtx w = some c := by
  obtain ⟨-, -, hctx, -⟩ := h; exact hctx

theorem site_lt_of_fetches (h : Fetches s w c) : c.site < 4096 := by
  obtain ⟨hsite, -, hctx, -⟩ := h
  obtain ⟨hc, -⟩ := State.issueCtx_eq hctx
  exact hc ▸ hsite.trans_le s.sites_le

theorem fetches_of_issues {n : Need} (h : Issues s w n c ls) : Fetches s w c := by
  obtain ⟨hfetch, -⟩ := h; exact hfetch

theorem ne_nil_of_issues {n : Need} (h : Issues s w n c ls) : ls ≠ [] := by
  obtain ⟨-, -, hne, -⟩ := h; exact hne

theorem legal_of_issues {n : Need} (h : Issues s w n c ls) : n.legal = true := by
  obtain ⟨-, -, -, hlegal, -⟩ := h; exact hlegal

theorem groupAt_put_of_fetches (h : Fetches s w c) (g : Group) : groupAt (s.put c g) c = some { g with bpSkip := false } := by
  obtain ⟨hsite, hslot, -, hgrp, -⟩ := State.issueCtx_eq (issueCtx_of_fetches h)
  exact State.groupAt_put s c g (by rw [hsite, hslot]; exact hgrp)

/-- An instruction that writes one destination register and moves on. -/
theorem result_put {ud : Bool} {d : Nat} {ok : Nat → W32 → Prop} (h : Fetches s w c) (hg : c.grp.OnlyValues g)
    (hw : Wrote c g ud d ls ok) (hp : KeptPreds c g) : Result s (s.put c (g.advance c.path c.low c.pc)) c ud d ls ok := by
  refine ⟨⟨_, groupAt_put_of_fetches h _, ?_, ?_, hg.movedOn (issueCtx_of_fetches h)⟩,
    State.onlyGroup_put _ (site_lt_of_fetches h)⟩
  · have hreg : ∀ l r, Group.reg { g.advance c.path c.low c.pc with bpSkip := false } l r = g.reg l r := g.reg_advance _ _ _
    have hpois : ∀ l r, Group.rpois { g.advance c.path c.low c.pc with bpSkip := false } l r = g.rpois l r := g.rpois_advance _ _ _
    simpa only [Wrote, hreg, hpois] using hw
  · exact fun l n => (g.pred_advance _ _ _ l n).trans (hp l n)

/-- An instruction that sets one destination predicate and moves on. -/
theorem predResult_put {pd : Nat} {ok : Nat → Bool → Prop} (h : Fetches s w c) (hg : c.grp.OnlyValues g)
    (hw : WrotePred c g pd ls ok) (hr : KeptRegs c g) : PredResult s (s.put c (g.advance c.path c.low c.pc)) c pd ls ok := by
  refine ⟨⟨_, groupAt_put_of_fetches h _, ?_, ?_, hg.movedOn (issueCtx_of_fetches h)⟩,
    State.onlyGroup_put _ (site_lt_of_fetches h)⟩
  · have hpred : ∀ l n, Group.pred { g.advance c.path c.low c.pc with bpSkip := false } l n = g.pred l n := g.pred_advance _ _ _
    simpa only [WrotePred, hpred] using hw
  · exact fun l r => ⟨(g.reg_advance _ _ _ l r).trans (hr l r).1, (g.rpois_advance _ _ _ l r).trans (hr l r).2⟩

/-- The threads for which an instruction issues differ, belong to the path, and lie in lanes 0 to 31. -/
theorem lanes_of_issues {n : Need} (h : Issues s w n c ls) :
    ls.Nodup ∧ ∀ l ∈ ls, l < 32 ∧ l < c.grp.threads.length := by
  obtain ⟨⟨-, -, hctx, -⟩, rfl, -⟩ := h
  have hpath := State.path_eq_pathAt hctx
  refine ⟨?_, fun l hl => ?_⟩
  · rw [Ctx.lanes, hpath, Group.pathAt]
    exact ((upTo_nodup 0 32).filter _).filter _
  · have hl := (List.mem_filter.mp hl).1
    exact ⟨(Group.mem_pathAt.mp (hpath ▸ hl)).1, lt_length_of_mem_path hctx hl⟩

/-- Everything an instruction does that gives each thread a value and a mark for register D. -/
theorem result_of_issues {n : Need} {ok : Nat → W32 → Prop} (h : Issues s w n c ls) (ud : Bool) (d : BitVec 8) (v : Nat → W32)
    (p : Nat → Bool) (hok : ∀ l ∈ ls, ok l (v l)) :
    Result s (s.put c ((c.grp.write (regNo ud d.toNat) (ls.map (fun l => (l, v l, p l)))).advance c.path c.low c.pc)) c ud d.toNat
      ls ok := by
  obtain ⟨hnd, hlt⟩ := lanes_of_issues h
  exact result_put (fetches_of_issues h) (c.grp.onlyValues_write _ _)
    (wrote_write ud d.toNat v p d.isLt (ne_nil_of_issues h) hnd (fun l hl => (hlt l hl).2) hok) (keptPreds_write c _ _)

/-- Everything an instruction does that gives each thread a value for predicate pd. -/
theorem predResult_of_issues {n : Need} {ok : Nat → Bool → Prop} (h : Issues s w n c ls) {pd : Nat} (hpd : pd < 8) (v : Nat → Bool)
    (hok : ∀ l ∈ ls, ok l (v l)) : PredResult s (s.put c (setpGroup pd v c ls)) c pd ls ok := by
  obtain ⟨hnd, hlt⟩ := lanes_of_issues h
  exact predResult_put (fetches_of_issues h) (Group.onlyValues_foldl (fun g l => g.onlyValues_setPred l pd (v l)) ls c.grp)
    (wrotePred_foldl_setPred pd v hpd hnd (fun l hl => (hlt l hl).2) hok) (keptRegs_foldl_setPred c pd ls v)

end Results

end Sys2Proof.Machine
end

section
/-! PROOF. What a thread instruction that takes an exception leaves (R140, R141, R142, R453). -/

namespace Sys2Proof.Machine

open Sys2Proof.Claims

/-! ## Ending a command -/

/-- Between s and t only device registers and the records of halves differ. -/
def State.OnlyHalves (s t : State) : Prop := t = { s with regs := t.regs, halves := t.halves }

theorem State.OnlyHalves.refl (s : State) : s.OnlyHalves s := rfl

theorem State.OnlyHalves.trans {s t u : State} (h : s.OnlyHalves t) (k : t.OnlyHalves u) : s.OnlyHalves u := by
  unfold State.OnlyHalves at *; rw [k, h]

theorem State.OnlyHalves.cmds {s t : State} (h : s.OnlyHalves t) : t.cmds = s.cmds := by rw [h]

theorem State.OnlyHalves.cores {s t : State} (h : s.OnlyHalves t) : t.cores = s.cores := by rw [h]

theorem State.OnlyHalves.mem {s t : State} (h : s.OnlyHalves t) : t.mem = s.mem := by rw [h]

theorem State.OnlyHalves.poison {s t : State} (h : s.OnlyHalves t) : t.poison = s.poison := by rw [h]

theorem State.onlyHalves_wgB (s : State) (b : Blk) (o i : Nat) (v : Bool) : s.OnlyHalves (s.wgB b o i v) := rfl

theorem State.onlyHalves_modHalf (s : State) (h : Nat) (f : Half → Half) : s.OnlyHalves (s.modHalf h f) := rfl

theorem State.onlyHalves_foldl {α : Type} {f : State → α → State} (hf : ∀ s x, State.OnlyHalves s (f s x)) (xs : List α)
    (s : State) : s.OnlyHalves (xs.foldl f s) := by
  induction xs generalizing s with
  | nil => exact .refl s
  | cons x xs ih => exact (hf s x).trans (ih _)

theorem State.onlyHalves_xposeSync (s : State) (h : Nat) : s.OnlyHalves (s.xposeSync h) :=
  State.onlyHalves_foldl (fun _ _ =>
    ((State.onlyHalves_wgB _ _ _ _ _).trans (State.onlyHalves_wgB _ _ _ _ _)).trans (State.onlyHalves_wgB _ _ _ _ _)) _ s

theorem State.onlyHalves_flushOver (s : State) (i : Nat) : s.OnlyHalves (s.flushOver i) :=
  ((s.onlyHalves_modHalf _ _).trans (State.onlyHalves_modHalf _ _ _)).trans (State.onlyHalves_wgB _ _ _ _ _)

/-- What a command that is over frees is registers and the stalls of slices. -/
theorem State.onlyHalves_freeUnits (s : State) (c : Cmd) : s.OnlyHalves (s.freeUnits c) := by
  have hx : s.OnlyHalves (s.xposeSyncAll c) := by
    unfold State.xposeSyncAll; split
    · exact State.onlyHalves_foldl (fun s h => s.onlyHalves_xposeSync h) _ s
    · exact .refl s
  simp only [State.freeUnits]; split
  · exact hx.trans (State.onlyHalves_foldl (fun s i => s.onlyHalves_flushOver i) _ _)
  · exact hx

/-- A command that an exception has ended, with the detail entry of its reply. -/
def Cmd.excepted (c : Cmd) (d : Detail) : Cmd := { c with phase := .ending, status := 0x10, detail := some d, replay := [] }

/-- The command comes to its end with an exception: its blocks stop and what it kept busy is free. -/
def State.excepted (s : State) (c : Cmd) (d : Detail) : State := ((s.stopBlocks c.cid).setCmd (c.excepted d)).freeUnits c

theorem State.cmds_stopBlocks (s : State) (cid : Nat) : (s.stopBlocks cid).cmds = s.cmds := rfl

theorem State.cmd?_excepted {s : State} {c : Cmd} (d : Detail) (h : s.cmd? c.cid = some c) :
    (s.excepted c d).cmd? c.cid = some (c.excepted d) := by
  have hcid : (c.excepted d).cid = c.cid := rfl
  rw [State.excepted, State.cmd?_congr (State.onlyHalves_freeUnits _ _).cmds, State.cmd?_setCmd, hcid, if_pos rfl,
    State.cmd?_congr (s.cmds_stopBlocks c.cid), h]
  rfl

/-- Stopping the blocks of a command leaves the groups. -/
theorem State.groups_stopBlocks (s : State) (cid i : Nat) : ((s.stopBlocks cid).core i).groups = (s.core i).groups := by
  have h := mfind_map (fun _ (k : Core) => { k with
    blocks := k.blocks.map (fun b => (b.1, if b.2.cid = cid then { b.2 with stopped := true } else b.2)) }) s.cores i
  simp only [State.core, State.stopBlocks, mget, h]
  cases mfind s.cores i <;> rfl

theorem State.groups_excepted (s : State) (c : Cmd) (d : Detail) (i : Nat) :
    ((s.excepted c d).core i).groups = (s.core i).groups := by
  rw [State.excepted, State.core_congr (State.onlyHalves_freeUnits _ _).cores, State.core_congr (State.setCmd_cores _ _),
    State.groups_stopBlocks]

theorem State.mem_excepted (s : State) (c : Cmd) (d : Detail) : (s.excepted c d).mem = s.mem := by
  rw [State.excepted, (State.onlyHalves_freeUnits _ _).mem]; rfl

theorem State.poison_excepted (s : State) (c : Cmd) (d : Detail) : (s.excepted c d).poison = s.poison := by
  rw [State.excepted, (State.onlyHalves_freeUnits _ _).poison]; rfl

theorem State.unreported_onlyTraced (s : State) (status : Nat) (d : Detail) : s.OnlyTraced (s.unreported status d) := by
  unfold State.unreported; split
  · exact s.onlyTraced_bump _ _ _
  · exact .refl s

theorem State.cmds_unreported (s : State) (status : Nat) (d : Detail) : (s.unreported status d).cmds = s.cmds := by
  rw [s.unreported_onlyTraced status d]

theorem State.cores_unreported (s : State) (status : Nat) (d : Detail) : (s.unreported status d).cores = s.cores := by
  rw [s.unreported_onlyTraced status d]

/-- A running command ends with the exception. -/
theorem State.endCmd_of_running {s : State} {c : Cmd} (d : Detail) (h : s.cmd? c.cid = some c) (hp : c.phase = .running) :
    s.endCmd c.cid 0x10 d = s.excepted c d := by
  simp [State.endCmd, h, hp, State.excepted, Cmd.excepted]

/-- A command that is already ending ends with the exception where that goes first, and keeps its ending otherwise (R453). -/
theorem State.endCmd_of_ending {s : State} {c : Cmd} (d : Detail) {old : Detail} (h : s.cmd? c.cid = some c)
    (hp : c.phase = .ending) (hd : c.detail = some old) :
    s.endCmd c.cid 0x10 d = if endBefore 0x10 d c.status old then (s.unreported c.status old).excepted c d
      else s.unreported 0x10 d := by
  simp [State.endCmd, h, hp, hd, State.excepted, Cmd.excepted]

/-! ## The exception of a thread instruction -/

section Raise

variable {s : State} {w : At} {c : Ctx}

/-- A command whose group issues runs, or is ending with a detail entry. -/
theorem State.phase_of_mayIssue {k : Cmd} {b : Block} (h : s.mayIssue k b = true) :
    k.phase = .running ∨ k.phase = .ending ∧ ∃ o, k.detail = some o := by
  simp only [State.mayIssue, Bool.or_eq_true, Bool.and_eq_true, beq_iff_eq] at h
  rcases h with ⟨hp, -⟩ | ⟨⟨hp, -⟩, hd⟩
  · exact .inl hp
  · cases hk : k.detail with
    | none => simp [hk] at hd
    | some o => exact .inr ⟨hp, o, rfl⟩

/-- The state in which an exception finds the command: the group has stopped and the instruction counts as issued. -/
def State.stoppedAt (s : State) (c : Ctx) : State :=
  (s.modGroup c.site c.slot (fun g => { g with stopped := true })).issued c

theorem State.raise_eq (s : State) (c : Ctx) (code lane trap : Nat) :
    s.raise c code lane trap = (s.stoppedAt c).endCmd c.blk.cid 0x10
      ⟨1, code, c.site, c.slot, c.grp.blk, lane, c.pc, 0xFF, trap, s.timeOf (siteStack c.site)⟩ := rfl

theorem State.cmds_stoppedAt (s : State) (c : Ctx) : (s.stoppedAt c).cmds = s.cmds := by
  rw [State.stoppedAt, State.issued_onlyTraced, State.beforeCounts_onlyCores]; rfl

theorem State.groups_stoppedAt (h : mfind (s.core c.site).groups c.slot = some c.grp) :
    mfind ((s.stoppedAt c).core c.site).groups c.slot = some { c.grp with stopped := true, bpSkip := false } := by
  rw [State.stoppedAt, State.core_issued, if_pos rfl, State.modGroup, State.core_modCore, if_pos rfl]
  simp [h]

/-- Where the counts of the issue do not wrap, no record is written. -/
theorem State.mem_stoppedAt (hsite : c.site < 4096) (hfar : FarFromWrap s c.site) :
    (s.stoppedAt c).mem = s.mem ∧ (s.stoppedAt c).poison = s.poison := by
  have h : State.OnlyCores _ (s.stoppedAt c) :=
    (State.issued_of_far (s := s.modGroup c.site c.slot (fun g => { g with stopped := true })) hsite hfar).1
  rw [h]; exact ⟨rfl, rfl⟩

/-- An exception of a thread instruction stops the group with its threads as they were, and the reply names it. -/
theorem excepts_raise (h : Fetches s w c) (code lane trap : Nat) : Excepts s (s.raise c code lane trap) c code lane trap := by
  obtain ⟨hsite, hslot, -, hgrp, -, hcmd, hmay, -⟩ := State.issueCtx_eq (issueCtx_of_fetches h)
  have hgrp := State.groups_stoppedAt (s := s) (c := c) (by rw [hsite, hslot]; exact hgrp)
  have hcid := State.cmd?_cid hcmd
  have hcmd : (s.stoppedAt c).cmd? c.cmd.cid = some c.cmd := by rw [State.cmd?_congr (s.cmds_stoppedAt c), hcid, hcmd]
  have hstop : ∀ u : State, (u.core c.site).groups = ((s.stoppedAt c).core c.site).groups →
      ∃ g, groupAt u c = some g ∧ g.stopped = true ∧ g.threads = c.grp.threads ∧ g.uregs = c.grp.uregs :=
    fun u hu => ⟨_, (congrArg (mfind · c.slot) hu).trans hgrp, rfl, rfl, rfl⟩
  rw [State.raise_eq]
  generalize hd : (⟨1, code, c.site, c.slot, c.grp.blk, lane, c.pc, 0xFF, trap, s.timeOf (siteStack c.site)⟩ : Detail) = d
  rw [Excepts, hd, Named, ← hcid]
  rcases State.phase_of_mayIssue hmay with hrun | ⟨hend, old, hold⟩
  · rw [State.endCmd_of_running d hcmd hrun]
    refine ⟨hstop _ (State.groups_excepted ..), ⟨_, State.cmd?_excepted d hcmd, rfl, ?_⟩, fun hfar _ => ?_⟩
    · rw [if_pos (.inl hrun)]; exact ⟨rfl, rfl⟩
    · rw [State.mem_excepted, State.poison_excepted]
      exact State.mem_stoppedAt (site_lt_of_fetches h) hfar
  · have hnot : c.cmd.phase ≠ .running := by rw [hend]; decide
    rw [State.endCmd_of_ending d hcmd hend hold]
    split
    · rename_i hbefore
      refine ⟨hstop _ ?_, ⟨_, State.cmd?_excepted d ?_, rfl, ?_⟩, fun _ hrun => absurd hrun hnot⟩
      · rw [State.groups_excepted, State.core_congr (State.cores_unreported ..)]
      · rw [State.cmd?_congr (State.cmds_unreported ..), hcmd]
      · rw [if_pos (.inr ⟨old, hold, hbefore⟩)]; exact ⟨rfl, rfl⟩
    · rename_i hbefore
      refine ⟨hstop _ ?_, ⟨c.cmd, ?_, hend, ?_⟩, fun _ hrun => absurd hrun hnot⟩
      · rw [State.core_congr (State.cores_unreported ..)]
      · rw [State.cmd?_congr (State.cmds_unreported ..), hcmd]
      · rw [if_neg]
        · exact ⟨rfl, rfl⟩
        · rintro (hrun | ⟨o, ho, hb⟩)
          · exact hnot hrun
          · rw [hold] at ho; obtain rfl := Option.some.inj ho; exact hbefore hb

end Raise

end Sys2Proof.Machine
end

section
/-! PROOF. The set-predicate instructions (R121) and the exchange between lanes (R129). -/

namespace Sys2Proof.Machine

open Sys2Proof.Claims

/-! ## Conditions -/

theorem condOrd_iff_compares {cond : Nat} (hc : cond < 6) (x y : Int) :
    condOrd cond (decide (x < y)) (decide (x = y)) = true ↔ Compares cond x y := by
  interval_cases cond <;> simp [condOrd, Compares] <;> omega

/-- A signed compare finds the order of the numbers in two's complement. -/
theorem condS_iff {cond : Nat} (hc : cond < 6) (a b : W32) : condS cond a b = true ↔ Compares cond a.toInt b.toInt := by
  rw [← condOrd_iff_compares hc, condS, BitVec.slt, Bool.beq_eq_decide_eq]
  simp only [BitVec.toInt_inj]

theorem condU_iff {cond : Nat} (hc : cond < 6) (a b : W32) : condU cond a b = true ↔ Compares cond (a.toNat : Int) (b.toNat : Int) := by
  rw [← condOrd_iff_compares hc, condU, BitVec.ult, Bool.beq_eq_decide_eq]
  simp only [Nat.cast_lt, Nat.cast_inj, BitVec.toNat_inj]

/-- The order of decoded values is asymmetric. -/
theorem ltFV_asymm {a b : FV} (h : ltFV a b = true) : ltFV b a = false := by
  cases a with
  | nan => simp [ltFV] at h
  | inf n =>
    cases b with
    | nan => simp [ltFV] at h
    | inf k => simp_all [ltFV]
    | fin => simpa [ltFV] using h
  | fin n m e =>
    cases b with
    | nan => simp [ltFV] at h
    | inf k => simpa [ltFV] using h
    | fin n' m' e' =>
      simp only [ltFV, decide_eq_true_eq, decide_eq_false_iff_not, min_comm e' e] at h ⊢
      omega

theorem feq_of_not_nan {a b : W32} (hun : (isNanFV (dec32 a) || isNanFV (dec32 b)) = false) :
    feq a b = (!flt a b && !flt b a) := by
  obtain ⟨ha, hb⟩ := Bool.or_eq_false_iff.mp hun
  simp [feq, ha, hb]

/-- With a NaN only NE and UN hold; without one the compare finds the order of the values. -/
theorem condF_iff {cond : Nat} (hc : cond < 8) (a b : W32) : condF cond a b = true ↔ FpCompares cond a b := by
  cases hun : isNanFV (dec32 a) || isNanFV (dec32 b) with
  | true =>
    rw [FpCompares, if_pos (by simpa using hun)]
    interval_cases cond <;> simp [condF, hun]
  | false =>
    rw [FpCompares, if_neg (by simpa using hun)]
    cases hab : flt a b with
    | true =>
      have hba : flt b a = false := ltFV_asymm hab
      interval_cases cond <;> simp [condF, condOrd, hun, feq_of_not_nan hun, hab, hba]
    | false => interval_cases cond <;> simp [condF, condOrd, hun, feq_of_not_nan hun, hab]

theorem condOk_eq_true {d : BitVec 8} {limit : Nat} : condOk d limit = true ↔ d.getLsbD 3 = false ∧ condOf d < limit := by
  simp [condOk]

/-- A COND without meaning, or bit 3, breaks the field (R121). -/
theorem condOk_eq_false {d : BitVec 8} {limit : Nat} (h : d.getLsbD 3 = true ∨ limit ≤ condOf d) : condOk d limit = false := by
  rcases h with h | h <;> simp [condOk, h]

theorem pdOf_lt (d : BitVec 8) : pdOf d < 8 := Nat.mod_lt _ (by omega)

/-! ## Set-predicate instructions -/

section SetPredicates

variable {s : State} {w : At} {c : Ctx} {ls : List Nat}

/-- An instruction that issues meets what its own fields add to the shared checks (R120). -/
theorem extra_of_issues {u : RUse} {f : RForm} {extra : Bool} (h : Issues s w (u.need f extra) c ls) : extra = true := by
  have hlegal := legal_of_issues h
  simp only [RUse.need, Bool.and_eq_true] at hlegal
  exact hlegal.2

theorem extra_of_issues_imm {f : IForm} {a : Bool} {u : Use} {extra eat : Bool} (h : Issues s w (iNeed f a u extra eat) c ls) :
    extra = true := by
  have hlegal := legal_of_issues h
  simp only [iNeed, Bool.and_eq_true] at hlegal
  exact hlegal.2

/-- How the set-predicate instructions of the R format use their fields (R121). -/
abbrev useSetp : RUse := ⟨.raw, .reg, .reg, .no, 1, true, true⟩

theorem runSetp_eq (w : At) (s : State) (f : RForm) (limit : Nat) (cond : Nat → W32 → W32 → Bool) :
    runSetp w s f limit cond = runThread w s (useSetp.need f (condOk f.d limit)) (fun c lanes =>
      s.put c (setpGroup (pdOf f.d) (fun l => cond (condOf f.d) (ra c f l) (rb c f l)) c lanes)) := rfl

/-- A set-predicate instruction of the R format sets p[PD] to what its compare finds. -/
theorem runSetp_of_issues {f : RForm} {limit : Nat} {cond : Nat → W32 → W32 → Bool} {P : W32 → W32 → Prop}
    (h : Issues s w (useSetp.need f (condOk f.d limit)) c ls)
    (hcond : condOf f.d < limit → ∀ a b, cond (condOf f.d) a b = true ↔ P a b) :
    ∃ t, runSetp w s f limit cond = .next t ∧ PredResult s t c (pdOf f.d) ls (fun l b => b = true ↔ P (ra c f l) (rb c f l)) := by
  rw [runSetp_eq]
  exact ⟨_, runThread_of_issues _ h, predResult_of_issues h (pdOf_lt f.d) _ fun _ _ =>
    hcond (condOk_eq_true.mp (extra_of_issues h)).2 _ _⟩

/-- A set-predicate instruction of the I format does so with b := IMM. -/
theorem runSetpI_of_issues {f : IForm} {limit : Nat} {cond : Nat → W32 → W32 → Bool} {P : W32 → W32 → Prop}
    (h : Issues s w (iNeed f true .raw (condOk f.d limit) true) c ls)
    (hcond : condOf f.d < limit → ∀ a b, cond (condOf f.d) a b = true ↔ P a b) :
    ∃ t, runSetpI w s f limit cond = .next t ∧
      PredResult s t c (pdOf f.d) ls (fun l b => b = true ↔ P (c.grp.reg l (regNo f.ua f.a.toNat)) f.imm) :=
  ⟨_, runThread_of_issues _ h, predResult_of_issues h (pdOf_lt f.d) _ fun _ _ =>
    hcond (condOk_eq_true.mp (extra_of_issues_imm h)).2 _ _⟩

/-- The first thread whose guard passes is the lowest of the threads for which the instruction would issue. -/
theorem lanes_eq_cons {pg : BitVec 3} {pn : Bool} {l : Nat} (hl : c.path.find? (fun l => c.grp.pred l pg.toNat != pn) = some l) :
    ∃ ls, c.lanes pg pn = l :: ls := by
  rw [← List.head?_filter] at hl
  exact List.head?_eq_some_iff.mp hl

/-- A broken field takes the illegal-instruction exception. -/
theorem runThread_excepts {n : Need} {l : Nat} (body : Ctx → List Nat → State) (h : Fetches s w c)
    (hl : c.path.find? (fun l => c.grp.pred l n.pg.toNat != n.pn) = some l) (hn : n.legal = false) :
    ∃ t, runThread w s n body = .next t ∧ Excepts s t c 0x01 l 0 := by
  obtain ⟨ls, hls⟩ := lanes_eq_cons hl
  exact ⟨_, runThread_of_illegal n body h hls hn, excepts_raise h ..⟩

theorem runSetp_excepts {f : RForm} {limit l : Nat} (cond : Nat → W32 → W32 → Bool) (h : Fetches s w c)
    (hl : c.path.find? (fun l => c.grp.pred l f.pg.toNat != f.pn) = some l)
    (hd : f.d.getLsbD 3 = true ∨ limit ≤ condOf f.d) :
    ∃ t, runSetp w s f limit cond = .next t ∧ Excepts s t c 0x01 l 0 := by
  rw [runSetp_eq]
  exact runThread_excepts _ h hl (by simp [RUse.need, condOk_eq_false hd])

theorem runSetpI_excepts {f : IForm} {limit l : Nat} (cond : Nat → W32 → W32 → Bool) (h : Fetches s w c)
    (hl : c.path.find? (fun l => c.grp.pred l f.pg.toNat != f.pn) = some l)
    (hd : f.d.getLsbD 3 = true ∨ limit ≤ condOf f.d) :
    ∃ t, runSetpI w s f limit cond = .next t ∧ Excepts s t c 0x01 l 0 :=
  runThread_excepts _ h hl (by simp [iNeed, condOk_eq_false hd])

end SetPredicates

/-- Every integer compare is one of the two of the model, whose condition finds the order of the numbers it reads. -/
theorem forall_compareOps {P : (At → RForm → Instr) × (At → IForm → Instr) × (W32 → Int) → Prop}
    (hs : P (.isetp, .isetpi, BitVec.toInt)) (hu : P (.isetpu, .isetpui, fun x => (x.toNat : Int))) : ∀ p ∈ compareOps, P p := by
  simp only [compareOps, List.forall_mem_cons]
  exact ⟨hs, hu, by simp⟩

/-- Settles O3: each of the six instructions is the shared operation with its own condition, which finds what R121 says. -/
theorem setPredicates : Obligations.SetPredicates := by
  unfold Obligations.SetPredicates
  refine ⟨fun s w f c ls h => ?_, fun s w f c ls h => ?_, fun s w f c ls h => ?_, fun s w f c ls h => ?_,
    fun s w f c l h hl => ⟨fun hd => ?_, fun hd => ?_⟩, fun s w f c l h hl => ⟨fun hd => ?_, fun hd => ?_⟩⟩
  · exact forall_compareOps (runSetp_of_issues h condS_iff) (runSetp_of_issues h condU_iff)
  · exact forall_compareOps (runSetpI_of_issues h condS_iff) (runSetpI_of_issues h condU_iff)
  · exact runSetp_of_issues h condF_iff
  · exact runSetpI_of_issues h condF_iff
  · exact forall_compareOps (runSetp_excepts condS h hl hd) (runSetp_excepts condU h hl hd)
  · exact runSetp_excepts condF h hl hd
  · exact forall_compareOps (runSetpI_excepts condS h hl hd) (runSetpI_excepts condU h hl hd)
  · exact runSetpI_excepts condF h hl hd

/-! ## Exchange between lanes -/

/-- The lane that SHFL reads from in a thread (R129): its source lane, or its own where that lies outside 0 to 31. -/
theorem shflSrc_getD {l : Nat} (hl : l < 32) (m : Nat) (b : W32) :
    let k := (shflSrc m l b).getD l
    (m = 0 → k = b.toNat % 32) ∧ (m = 1 → if b.toNat ≤ l then k + b.toNat = l else k = l) ∧
    (m = 2 → if l + b.toNat < 32 then k = l + b.toNat else k = l) ∧ (m = 3 → k = l ^^^ (b.toNat % 32)) := by
  refine ⟨?_, ?_, ?_, ?_⟩ <;> rintro rfl
  · rfl
  · simp only [shflSrc]
    split
    · rw [Option.getD_some]; omega
    · rfl
  · simp only [shflSrc]
    split <;> rfl
  · simp only [shflSrc, Option.getD_some, BitVec.toNat_xor, BitVec.toNat_ofNat, BitVec.toNat_setWidth]
    rw [Nat.mod_eq_of_lt (show l < 2 ^ 5 by omega)]

/-- How SHFL uses its fields (R129). -/
abbrev useShfl : RUse := ⟨.reg, .reg, .reg, .no, 4, false, true⟩

/-- The source lane of a thread of SHFL. -/
def shflLane (c : Ctx) (f : RForm) (l : Nat) : Nat := (shflSrc f.mod.toNat l (rb c f l)).getD l

theorem execShfl_eq (w : At) (f : RForm) (s : State) :
    execShfl w f s = runThread w s (useShfl.need f true) (fun c lanes =>
      s.put c ((c.grp.write (regNo f.ud f.d.toNat) (lanes.map (fun l =>
        (l, ra c f (shflLane c f l), c.grp.rpois (shflLane c f l) (regNo f.ua f.a.toNat))))).advance c.path c.low c.pc)) := rfl

/-- Settles O5. Every thread reads its source lane in the group as it stood before the issue; that modes 1 and 2 take all of
b as an unsigned number is the model's choice (log entry 22). -/
theorem laneExchange : Obligations.LaneExchange := by
  unfold Obligations.LaneExchange
  intro s w f c ls h
  refine ⟨_, (execShfl_eq w f s).trans (runThread_of_issues _ h), result_of_issues h f.ud f.d _ _ fun l hl => ?_⟩
  exact ⟨_, rfl, shflSrc_getD ((lanes_of_issues h).2 l hl).1 _ _⟩

end Sys2Proof.Machine
end


section
/-! PROOF. O13 fails: divergences with one merge point complete together. -/

namespace Sys2Proof.Machine

open Sys2Proof.Claims

set_option Elab.async false

namespace NestedMerge

/-- A running command whose code has 8 instructions. -/
def cmd : Cmd :=
  { cid := 1, port := 0, queue := 0, admin := false, part := 0
    pkt := [0x01070801, 0x00050012, 0x01000000, 0, 0, 0xC40, 0x1000, 0x00010008, 0x00028100, 0x18, 0x02000040, 0, 0, 0, 0, 0]
    slot := 0, accepted := 0, started := 0
    deadline := none, held := 0, heldRemote := 0, phase := .running, status := 0, result := 0, detail := none, nextBlock := 0
    blocksDone := 0, exited := [], cores := [0], launched := [0], ordered := [], acked := [], startVals := [], endVals := [], cleared := false
    recovered := false, poisoned := false, replay := [], pieces := [], sentPiece := none, engines := [], replyAt := none, retried := []
    bounded := 0, recIndex := 0xFFFFFFFF, segs := [], code := [], codePoison := [], begun := true }

/-- A block of the command. -/
def blk : Block :=
  { cid := 1, lin := 0, t := 256, groups := 8, regs := 40, lmemBase := 0, lmemUnits := 24, width := 16, stall := 0
    stopped := false, commits := [], strips := [], replays := 0, poisonReplayed := false, didAtomic := false, images := [], ate := none }

/-- Threads 0 and 1 diverged at divergence 0, and thread 1 within it at divergence 1, both of which merge at instruction 5; both threads
stand there. -/
def grp : Group :=
  { blk := 0, idx := 0, threads := [{ Thread.start 5 with divs := [0] }, { Thread.start 5 with divs := [1, 0] }], uregs := [], upois := []
    act := some 0, count := 0, divs := [(0, ⟨5, [0, 1]⟩), (1, ⟨5, [1]⟩)], nextDiv := 2, barMask := none, stopped := false, espWait := false
    accIssued := 0, bpSkip := false }

/-- The core on which the group runs. -/
def core : Core := { Core.idle with groups := [(0, grp)], blocks := [(0, blk)] }

/-- The state in which the group issues the MERGE. -/
def state : State := { State.reset with cmds := [cmd], cores := [(0, core)] }

/-- The MERGE, for every thread. -/
def form : SForm := ⟨7, false, 0, 0, false, 0, 0⟩

/-- The context in which it issues. -/
def ctx : Ctx := ⟨0, 0, core, grp, blk, cmd, 0, 5, [0, 1]⟩

theorem issues : Issues state ⟨0, 0⟩ (plainNeed form) ctx [0, 1] := by decide +kernel

/-- How thread 0 waits once the command has completed. -/
def waitAfter (o : Out) : Option Wait :=
  match o with
  | .next t => (groupAt t ctx).map (fun g => (g.th 0).wait)
  | _ => none

/-- Both divergences complete with the one instruction, and thread 0 goes on. -/
theorem waitAfter_merge : waitAfter (exec (.merge ⟨0, 0⟩ form) state) = some .run := by decide +kernel

end NestedMerge

open NestedMerge in
/-- Refutes O13: a thread that reaches the merge point of divergence 1 has not reached that of divergence 0, innermost. Where both merge at
one MERGE instruction, that instruction completes the inner one and with it the outer one, so that no thread waits there. -/
theorem not_branchesAndMerges : ¬ Obligations.BranchesAndMerges := by
  unfold Obligations.BranchesAndMerges
  rintro ⟨-, -, h⟩
  have hwait := (h state ⟨0, 0⟩ form ctx [0, 1] 0 ⟨5, [0, 1]⟩ issues (by decide) (by decide) (by decide)).1 (by decide)
  obtain ⟨t, ht, g, hg, -, hall⟩ := hwait
  have hrun := waitAfter_merge
  rw [ht] at hrun
  simp only [waitAfter, hg, Option.map_some, Option.some.injEq] at hrun
  have := (hall 0 (by simp) (by decide)).1
  rw [hrun] at this
  cases this

end Sys2Proof.Machine
end


section
/-! PROOF. O17 to O20 fail: a record that is released takes another request of the same number with it. -/

namespace Sys2Proof.Machine

open Sys2Proof.Claims

set_option Elab.async false

namespace StaleNumber

/-- An answered read of the core, whose number is the one that the next request takes. -/
def stale : Req :=
  { rid := 0, cid := 1, lin := 0, site := 0, slot := 0, lane := 5, serial := 0, index := 4, kind := .read, space := 2, ea := 0x1000
    addr := 0x1000, size := 4, data := 0, cmp := 0, pois := false, dest := none, uni := false, sx := false, fillL1 := false, cls := 0
    part := 0, sentAt := 0, attempt := 0, state := .answered, result := 0, rpois := false, remote := none, heldOnce := false
    dropFill := false, red := none, line := [], lpois := [], refused := false, tag := 0 }

/-- Two threads at instruction 5, whose registers v2 and v3 name device addresses 0 and 0x1000. -/
def grp : Group :=
  { NestedMerge.grp with
    threads := [Thread.start 5, { Thread.start 5 with regs := [(2, 0x1000)] }], divs := [], nextDiv := 0 }

/-- The core on which the group runs. -/
def core : Core := { Core.idle with groups := [(0, grp)], blocks := [(0, NestedMerge.blk)] }

/-- The LAUNCH with or without NO_REPLAY. -/
def cmd (noReplay : Bool) : Cmd :=
  { NestedMerge.cmd with pkt := NestedMerge.cmd.pkt.set 0 (if noReplay then 0x01070101 else 0x01070801) }

/-- The group may issue; address 0 has its home at slice 0, beneath the core, and address 0x1000 at slice 1, where the answered read of the
core has its record. -/
def state (noReplay : Bool) : State :=
  { (State.reset.setHome 0 1 1) with
    parts := [(0, ⟨0, 0, 10000, [(0, 0x100000)], [0], [], false⟩)]
    cmds := [cmd noReplay], cores := [(0, core)], net := { State.reset.net with reqs := [stale] } }

/-- The context of an issue. -/
def ctx (noReplay : Bool) : Ctx := ⟨0, 0, core, grp, NestedMerge.blk, cmd noReplay, 0, 5, [0, 1]⟩

/-- Device memory at the pair v2, v3: a word. -/
def form (off : BitVec 24) (d : BitVec 8) : MForm := ⟨7, false, 2, 2, false, false, false, 0, d, 2, off⟩

/-- The addresses of the two threads. -/
def addr (l : Nat) : Nat := 0x1000 * l

/-- Whether a request of thread 0 is left once the command has completed. -/
def anyOfThread0 (o : Out) : Bool :=
  match o with
  | .next t => t.net.reqs.any (fun r => r.lane == 0)
  | _ => false

/-- Where thread 0 has no request left, none that it sent is under way. -/
theorem not_sent {o : Out} (h : anyOfThread0 o = false) {t : State} (ht : o = .next t) {c : Ctx} {kind : ReqKind} {a n : Nat}
    {ok : Req → Prop} : ¬ Sent t c 0 kind a n ok := by
  subst ht
  rintro ⟨r, hr, -, -, hl, -⟩
  have : t.net.reqs.any (fun r => r.lane == 0) = true := List.any_eq_true.mpr ⟨r, hr, by simp [hl]⟩
  rw [anyOfThread0, this] at h
  cases h

theorem reaches (b : Bool) (off : BitVec 24) (d : BitVec 8) : Reaches (state b) (ctx b) (form off d) 0 [0, 1] addr := by
  cases b <;> simp only [Reaches, laneEa, form, MForm.sp, MForm.bytes] <;> decide +kernel

theorem segments (b : Bool) : ∀ l ∈ [0, 1], segmentIn (ctx b).cmd.segs (ctx b).cmd.part (addr l) = none := by
  cases b <;> decide +kernel

theorem tags (b : Bool) (n : Nat) (hn : n = 4 ∨ n = 128) : (state b).tagsFor (ctx b) [0, 1].length n = true := by
  cases b <;> rcases hn with rfl | rfl <;> decide +kernel

theorem noneBuffered (b : Bool) : NoneBuffered (ctx b) [0, 1] addr 4 := by
  cases b <;> decide +kernel

end StaleNumber

open StaleNumber

/-- Refutes O17: the second thread's read releases the record of an answered read at its slice; where that one bore the number that the first
thread's read was given, the first thread's read is dropped with it. -/
theorem not_loads : ¬ Obligations.Loads := by
  unfold Obligations.Loads
  rintro ⟨-, -, h⟩
  obtain ⟨t, ht, -, hsent⟩ := h .ld (by simp) (state false) ⟨0, 0⟩ (form 0 8) (ctx false) [0, 1] addr (by decide +kernel) (by decide)
    (reaches false 0 8) (by rw [if_pos ⟨rfl, rfl⟩]; exact tags false 128 (.inr rfl)) (segments false) (fun _ _ => by decide +kernel)
  exact not_sent (by decide +kernel) ht (hsent 0 (by simp))

/-- Refutes O18: as with O17, the second thread's write drops the first thread's. -/
theorem not_stores : ¬ Obligations.Stores := by
  unfold Obligations.Stores
  rintro ⟨-, h⟩
  obtain ⟨t, ht, -, -, hsent, -⟩ := (h (state false) ⟨0, 0⟩ (form 0 8) (ctx false) [0, 1] addr (by decide +kernel) (by decide)
    (reaches false 0 8)).2 (noneBuffered false) (tags false 4 (.inl rfl)) (segments false)
  exact not_sent (by decide +kernel) ht (hsent 0 (by simp))

/-- Refutes O19: as with O17, the second thread's atomic drops the first thread's. -/
theorem not_atomics : ¬ Obligations.Atomics := by
  unfold Obligations.Atomics
  rintro ⟨-, h⟩
  obtain ⟨t, ht, -, hsent, -⟩ := h (.aadd, 0x90, false, true, fun n o b _ => (o + b) % 2 ^ (8 * n)) (by simp [atomicOps]) (state false)
    ⟨0, 0⟩ (form 0x040000 0) (ctx false) [0, 1] addr (by decide +kernel) (by decide) (reaches false 0x040000 0) (noneBuffered false)
    (tags false 4 (.inl rfl)) (segments false)
  exact not_sent (by decide +kernel) ht (hsent 0 (by simp))

/-- Refutes O20: as with O17, the second thread's reduction under a NO_REPLAY command drops the first thread's. -/
theorem not_reductions : ¬ Obligations.Reductions := by
  unfold Obligations.Reductions
  intro h
  obtain ⟨t, ht, -, hsent⟩ := (h (.raddI32, 0, fun o b => (o + b) % 2 ^ 32) (by simp [reduceOps]) (state true)
    ⟨0, 0⟩ (form 0x040000 0) (ctx true) [0, 1] addr (by decide +kernel) (reaches true 0x040000 0) (tags true 4 (.inl rfl))).2
    (.inl (by decide +kernel)) (by decide +kernel)
  exact not_sent (by decide +kernel) ht (hsent 0 (by simp))

end Sys2Proof.Machine
end


section
/-! PROOF. O27 and O28 fail: a read that a half sends, and a count that the end of a block fills while a ring records it. -/

namespace Sys2Proof.Machine

open Sys2Proof.Claims

set_option Elab.async false

/-- Whether a command completes and leaves a state of which f holds. -/
def Out.leaves (o : Out) (f : State → Bool) : Bool :=
  match o with
  | .next t => f t
  | _ => false

/-- What an obligation says of the state that a command leaves can be looked up in the state that it does leave. -/
theorem leaves_of_answers {i : Instr} {s : State} {P : State → Prop} {f : State → Bool} (h : Answers i s P) (hf : ∀ t, P t → f t = true) :
    Out.leaves (exec i s) f = true := by
  obtain ⟨t, ht, hp⟩ := h
  rw [ht]
  exact hf t hp

/-! ## Counterexamples -/

namespace Counter

/-- A request of no command for four bytes of local memory of the core at site 0, which has arrived there. -/
def req : Req :=
  { StaleNumber.stale with slot := 71, lane := 0, addr := lmemBase, ea := lmemBase, state := .arrived }

/-- The same request, as one by which a half applies a staged contribution, but a read. -/
def read : Req := { req with slot := 77 }

/-- The state in which it stands at its place. -/
def readState : State := { State.reset with net := { State.reset.net with reqs := [read] } }

theorem atPlace : AtPlace readState read := by decide +kernel

/-- A reduction of an ordered command. -/
def reduction : Req := { req with kind := .reduce 0, red := some (0, 0, 0) }

/-- A device register's key and word. -/
def word (b : Blk) (o : Nat) (v : W32) : Nat × W32 := (b.base + o, v)

/-- The admin ring, behind a link that is up, has room for one record and runs, whatever its records are. -/
def ringRuns : List (Nat × W32) :=
  [word (State.reset.hpBlk 0) 0x000 1, word (.cnt 0) (ringOff 16 + 0x18) 1, word (.cnt 0) (ringOff 16 + 0x1C) 0x1FF]

/-- The reduction's command, a block of which has exited. -/
def exited : Cmd := { NestedMerge.cmd with exited := [(0, NestedMerge.blk)] }

/-- The ring runs; the core's count of blocks that have exited has no room for one more. -/
def reductionState : State :=
  { State.reset with
    net := { State.reset.net with reqs := [reduction] }, regs := word (.cntCore 0) 0x098 0xFFFFFFFE :: ringRuns
    cmds := [exited] }

end Counter

open Counter

/-- Refutes O27: a read of the slot by which a half sends what it applies is forgotten once it has been performed. -/
theorem not_accessesAreServedAtTheirPlace : ¬ Obligations.AccessesAreServedAtTheirPlace := by
  unfold Obligations.AccessesAreServedAtTheirPlace
  intro h
  have h := leaves_of_answers ((h readState read atPlace (by decide +kernel)).1 rfl) (f := fun t => (t.req? read.rid).isSome)
    (fun t ⟨q, hq, _⟩ => by rw [hq]; rfl)
  exact absurd h (by decide +kernel)

/-- Refutes O28: the first clause asks that memory stays as it was and not that no ring runs. With the reduction a block that has exited is
complete and is counted; where the counter is full, its flag event goes to the admin ring in the host's memory. -/
theorem not_orderedReductions : ¬ Obligations.OrderedReductions := by
  unfold Obligations.OrderedReductions
  rintro ⟨h, -⟩
  have h := leaves_of_answers (h reductionState reduction exited 0 0 0 0 (by decide +kernel) rfl (by decide +kernel) (by decide +kernel)
    (by decide +kernel) rfl rfl (by decide +kernel) (by decide) (by decide +kernel)) (f := fun t => t.hmem.isEmpty) (fun t ⟨_, _, _, hh⟩ => by rw [hh]; rfl)
  exact absurd h (by decide +kernel)

end Sys2Proof.Machine
end


section
/-! PROOF. O29 and O31 fail: a victim that has been written waits for a place in the queue of its device; the count of a request that goes
out again is kept in a word of the map by which its place is found. -/

namespace Sys2Proof.Machine

open Sys2Proof.Claims

set_option Elab.async false

namespace Counter

/-- A victim that has been issued. -/
def victim : Victim := ⟨0, 0xF, true⟩

/-- Half 0 holds the victim and a miss entry of its line that is yet to be fetched, and the queue of its device is full of reads. -/
def fullQueue : State :=
  { State.reset with
    halves := [(0, { Half.empty with wb := [victim], misses := [⟨0, 0xF, 0, false, [], 0, 0⟩] })]
    mifs := [(0, { Mif.idle with waitingReads := List.replicate 1024 1 })] }

/-- A request of a core at a site that the part does not have: the count 0x11C of its router is the word of half 0's home map that holds
the home of the address. -/
def beyond : Req := { StaleNumber.stale with site := 0x1001, addr := 0xD1C000, ea := 0xD1C000, state := .sent }

/-- It has gone unanswered for long enough to go out again. -/
def beyondState : State :=
  { State.reset with
    net := { State.reset.net with reqs := [beyond] }, time := { State.reset.time with now := 5000 } }

end Counter

open Counter

/-- Refutes O29: the last clause does not say that the device's queue has a place. Where a miss entry of the line waits to be fetched and the
queue is full, the victim stays. -/
theorem not_fillsAndWriteBacks : ¬ Obligations.FillsAndWriteBacks := by
  unfold Obligations.FillsAndWriteBacks
  rintro ⟨-, -, -, -, h⟩
  have h := leaves_of_answers ((h fullQueue 0 0 victim [] (by decide +kernel) (by decide +kernel)).2 rfl (by decide +kernel))
    (f := fun t => ((t.half 0).victim 0).isNone) (fun t ht => by rw [ht.1]; rfl)
  exact absurd h (by decide +kernel)

/-- Refutes O31: once the request has been counted its place is another, and the packet goes there. -/
theorem not_packetsAndResponses : ¬ Obligations.PacketsAndResponses := by
  unfold Obligations.PacketsAndResponses
  rintro ⟨-, -, -, h, -⟩
  have h := leaves_of_answers ((h beyondState beyond (by decide +kernel) (by decide +kernel) rfl).1 (by decide) (by decide) (by decide)
    (by decide +kernel)) (f := fun t => t.net.packets.any (fun k => k.dest == 0)) (fun t ht => by
      obtain ⟨k, hk, -, -, -, hd, -⟩ := ht.2.2 (by decide +kernel)
      exact List.any_eq_true.mpr ⟨k, hk, by rw [hd]; decide +kernel⟩)
  exact absurd h (by decide +kernel)

end Sys2Proof.Machine
end


section
/-! PROOF. O33 fails: the last lane that a test finds can lose the half. -/

namespace Sys2Proof.Machine

open Sys2Proof.Claims

set_option Elab.async false

namespace Counter

/-- Every slice has lost a lane of each of its halves, but slice 0 none of half A: there a spare covers lane 1. -/
def lastLane : List (Nat × Nat) :=
  (1, 1) :: (upTo 0 256).map (fun sl => (sl * 2048 + 512, 2)) ++ (upTo 1 255).map (fun sl => (sl * 2048, 2))

/-- Half 0 with those lanes, and the port of its slice 0 under test. -/
def lastPort : State :=
  { State.reset with halves := [(0, { Half.empty with laneBad := lastLane })], regs := [word (.sc 0) 0x2800 0x200] }

end Counter

open Counter

/-- Refutes O33: lane 0 of slice 0 fails as well. No port of the half is left, the half is lost, and what it holds of its lanes with it. -/
theorem not_scrubsRemapsAndPorts : ¬ Obligations.ScrubsRemapsAndPorts := by
  unfold Obligations.ScrubsRemapsAndPorts
  rintro ⟨-, -, -, -, -, h⟩
  have h := leaves_of_answers ((((h lastPort 0 0 (by decide +kernel) (by decide) (by decide +kernel)).2.2 (by decide +kernel)).2 0
    (by decide) (by decide +kernel))) (f := fun t => mfind (t.half 0).laneBad 0 == some 2) (fun t ht => by
      rw [(ht.2.2.2 (by decide +kernel) (by decide +kernel)).1]; rfl)
  exact absurd h (by decide +kernel)

end Sys2Proof.Machine
end


section
/-! PROOF. O35 fails: the fence order's answer takes another request of the same number with it. -/

namespace Sys2Proof.Machine

open Sys2Proof.Claims

set_option Elab.async false

namespace Counter

/-- A fence order that has come to the core at site 0. -/
def fenceOrder : Req := { orderReq 0 noCid (.fence 0) with rid := 0, state := .arrived }

/-- An atomic of the core's block on its way, under the same number. -/
def atomicSent : Req := { StaleNumber.stale with kind := .atomic 0, state := .sent }

/-- The core is in service and runs the block; the two requests are under way. -/
def fenceState : State :=
  { NestedMerge.state with
    net := { State.reset.net with reqs := [fenceOrder, atomicSent], fences := [(0, 8)] }
    roster := { State.reset.roster with enabled := 1 } }

end Counter

open Counter

/-- Refutes O35: with the order obeyed the atomic is gone, and the block, which it kept from being replayed, is replayed. -/
theorem not_coresAreReplaced : ¬ Obligations.CoresAreReplaced := by
  unfold Obligations.CoresAreReplaced
  rintro ⟨h, -⟩
  have h := leaves_of_answers ((((h fenceState 0 .residue (by decide +kernel)).2.1 (by decide +kernel)).2.2 (by decide) fenceOrder
    (by decide +kernel) (by decide +kernel)).1 rfl) (f := fun t => ((t.cmd? 1).map (·.phase)) == some .ending) (fun t ht => by
      obtain ⟨k, hk, h⟩ := ht.2 0 NestedMerge.blk NestedMerge.cmd (by decide +kernel) (by decide +kernel) rfl
      change t.cmd? 1 = some k at hk
      rw [hk]
      rcases h with h | h
      · simp [h.1]
      · exact absurd h.1 (by decide +kernel))
  exact absurd h (by decide +kernel)

end Sys2Proof.Machine
end


section
/-! PROOF. O36 fails: the core behind a failed router refuses an order that it has, and the refusal stands at that router. -/

namespace Sys2Proof.Machine

open Sys2Proof.Claims

set_option Elab.async false

namespace Counter

/-- The fence order has come to the core at site 0, which is in service. -/
def orderedState : State := { fenceState with net := { State.reset.net with reqs := [fenceOrder] } }

end Counter

open Counter

/-- Refutes O36: the packets at the router are dropped before the core is fenced, and the core's answer to the order is sent after. -/
theorem not_unitsFail : ¬ Obligations.UnitsFail := by
  unfold Obligations.UnitsFail
  rintro ⟨-, h, -⟩
  have h := leaves_of_answers ((h orderedState 0 (by decide +kernel) (by decide) (.routerBypass 0) (by simp)).1 (by decide +kernel))
    (f := fun t => t.net.packets.all (fun k => k.at_ != 0)) (fun t ht => by simpa using ht.2)
  exact absurd h (by decide +kernel)

end Sys2Proof.Machine
end


section
/-! PROOF. O39 fails: a trace record can take the place of a reply. -/

namespace Sys2Proof.Machine

open Sys2Proof.Claims

set_option Elab.async false

namespace Counter

/-- A command that has passed its end boundary. -/
def bounded : Cmd := { NestedMerge.cmd with phase := .bounded }

/-- Its queue and the admin ring, which runs, both lie at address 0 of the host's memory, and the count of replies is about to wrap. -/
def replyState : State :=
  { State.reset with
    cmds := [bounded], regs := word (.cnt 0) 0x118 0xFFFFFFFF :: word (.cnt 0) 0x11C 0xFFFFFFFF :: ringRuns }

end Counter

open Counter

/-- Refutes O39: the reply is counted once it stands in the host's memory, and the record of the wrap is written over it. -/
theorem not_commandBoundaries : ¬ Obligations.CommandBoundaries := by
  unfold Obligations.CommandBoundaries
  rintro ⟨-, -, h, -⟩
  have h := leaves_of_answers (((((h replyState 1 bounded Queue.reset (by decide +kernel) rfl (by decide +kernel) (by decide +kernel)
    (by decide +kernel) (by decide +kernel)).1 (.inr (.inl (by decide +kernel)))).2 (.inr ⟨rfl, .inl rfl⟩)).1 (.inl (by decide +kernel))))
    (f := fun t => t.hostBytes 0 0 16 == bounded.reply true) (fun t ht => by
      rw [beq_iff_eq]
      exact ht.2.2.2 rfl)
  exact absurd h (by decide +kernel)

end Sys2Proof.Machine
end


section
/-! PROOF. O42 fails: the count of a command processor's accesses beyond its budget can be kept in a register of the contexts. -/

namespace Sys2Proof.Machine

open Sys2Proof.Claims

set_option Elab.async false

namespace Counter

/-- A running CTX_CREATE of context 0 with its lists at 0x10000. -/
def creating : Cmd := { NestedMerge.cmd with pkt := [0x01070818, 0, 0, 0, 0x10000, 0, 0, 0, 0, 0, 0, 0, 0, 0, 0, 0] }

/-- The state before it has read the descriptor. The processor that has taken over its queue bears a number at which the count of budget
excesses is the partition's count of contexts. -/
def unreadState : State :=
  { State.reset with
    cmds := [creating], parts := [(0, ⟨0, 0, 10000, [(0, 0x100000)], [0], [], false⟩)], regs := [word (.ctx 0) 0x100 5]
    host := { State.reset.host with cpMap := [(0, 0x1BE39)] } }

/-- The answer to its read: the descriptor holds zeros. -/
def descriptor : Req :=
  { (unreadState.cmdEng creating).req .read none (unreadState.descAddr 0) 64 with state := .ready, line := List.replicate 64 0 }

/-- The state in which it has that answer. -/
def createState : State := { unreadState with net := { State.reset.net with reqs := [descriptor], nextRid := 1 } }

end Counter

open Counter

/-- Refutes O42: the first write of the CTX_CREATE exceeds the budget, which is counted beside the context. -/
theorem not_contextCommands : ¬ Obligations.ContextCommands := by
  unfold Obligations.ContextCommands
  intro h
  have h := leaves_of_answers ((((h createState 1 0 (createState.descAddr 0) creating (by decide +kernel) (by decide +kernel) rfl
    (by decide +kernel) (by decide +kernel) (by decide +kernel)).2 (clean (List.replicate 64 0)) _ (by decide +kernel) (by decide +kernel)
    rfl ⟨by decide +kernel, by decide +kernel⟩).1 (by decide +kernel)).2.2 (by decide +kernel) (by decide +kernel) |>.2
    (by decide +kernel) (by decide +kernel)) (f := fun t => t.rgF (.ctx 0) 0x104 20 0 == 1) (fun t ht => by
      rw [beq_iff_eq]
      exact ht.2.2.2.trans (by decide +kernel))
  exact absurd h (by decide +kernel)

end Sys2Proof.Machine
end


section
/-! PROOF. O44 fails: a trace record can take the place of a partition's descriptor. -/

namespace Sys2Proof.Machine

open Sys2Proof.Claims

set_option Elab.async false

namespace Counter

/-- A PART_CREATE that waits to start, its descriptor at address 0 of the host's memory. -/
def partCreating : Cmd :=
  { NestedMerge.cmd with
    pkt := [0x01070038, 0, 0, 0, 0, 0, 0, 0, 0, 0, 0, 0, 0, 0, 0, 0], queue := 1024, admin := true, phase := .accepted, begun := false
    cores := [], launched := [] }

/-- The part is ready, and the admin ring, which lies at address 0 as well, runs. -/
def partState : State := { State.reset with cmds := [partCreating], regs := word (.pwr 0) 0x040 0x10 :: ringRuns }

end Counter

open Counter

/-- Refutes O44: the record of the command's start is written over the descriptor before the command reads it, and the status is another. -/
theorem not_partitionAndManagement : ¬ Obligations.PartitionAndManagement := by
  unfold Obligations.PartitionAndManagement
  rintro ⟨h, -⟩
  have h := leaves_of_answers (((h partState 1 partCreating _ _ ⟨by decide +kernel, by decide, .inr (by decide +kernel)⟩ (by decide +kernel)
    rfl rfl).1 rfl (by decide +kernel)).1 0x04 (by decide +kernel)) (f := fun t => (t.cmd? 1).map (·.status) == some 0x04) (fun t ht => by
      obtain ⟨⟨k, hk, -, hs, -⟩, -⟩ := ht
      rw [hk]
      simp [hs])
  exact absurd h (by decide +kernel)

end Sys2Proof.Machine
end


section
/-! PROOF. O45 fails: a command processor's accesses beyond its budget can be counted in a register of a host port. -/

namespace Sys2Proof.Machine

open Sys2Proof.Claims

set_option Elab.async false

namespace Counter

/-- A read of a command processor that waits to leave. -/
def queued : Req := { StaleNumber.stale with site := noSite, slot := 71, lane := 0, state := .queued }

/-- Host port 0 reaches partition 0 through its window; the processor that has taken over the queue of the waiting read bears a number at
which the count of budget excesses is the low word of the bytes that the port has taken. -/
def windowState : State :=
  { State.reset with
    regs := [word (State.reset.hpBlk 0) 0x000 1], parts := [(0, ⟨0, 0, 10000, [(0, 0x100000)], [0], [], false⟩)]
    net := { State.reset.net with reqs := [queued], nextRid := 1 }
    host := { State.reset.host with cpMap := [(0, 0x7E3C)], ports := [(0, { Port.reset with dmwGib := 1 })] } }

end Counter

open Counter

/-- Refutes O45: with the port's write the read leaves as well and exceeds the budget, which is counted beside the byte. -/
theorem not_hostPorts : ¬ Obligations.HostPorts := by
  unfold Obligations.HostPorts
  rintro ⟨-, -, -, -, h, -⟩
  have h := leaves_of_answers ((((h windowState 0 0 0 _ [0] (by decide) (by decide +kernel) (by decide +kernel) rfl (by decide +kernel)
    (by decide +kernel)).1 (by decide +kernel) (by decide +kernel)).2 0 (by decide +kernel)))
    (f := fun t => t.rg64 (windowState.hpBlk 0) 0x110 == 1) (fun t ht => by
      rw [beq_iff_eq]
      exact ht.2.2.2.trans (by decide +kernel))
  exact absurd h (by decide +kernel)

end Sys2Proof.Machine
end


section
/-! PROOF. O54 fails: regulators that fail their test can darken a region, and the part then falls short of cores. -/

namespace Sys2Proof.Machine

open Sys2Proof.Claims

set_option Elab.async false

namespace Counter

/-- Stage 4 is over: of the 1,024 sites exactly as many are good as the grade enables, and the regulator of region 0 has failed
its test, that of region 1, its neighbour, before. -/
def shortState : State :=
  { State.reset with
    part := { State.reset.part with fuseBad := 0xFFFFFFFFFFFFFFFF#4096 <<< 960 }
    regs := [word (.pwr 0) 0x040 4, word (.pwr 0) 0x104 8], flash := { State.reset.flash with healthA := some (Health.blank, 0) }
    boot := { State.reset.boot with test := { State.reset.boot.test with badRegs := [0] } } }

end Counter

open Counter

/-- Refutes O54: the two regions go dark with their four good cores, and stage 5 stops the part. -/
theorem not_bringUpStages : ¬ Obligations.BringUpStages := by
  unfold Obligations.BringUpStages
  rintro ⟨-, -, -, -, h, -⟩
  have h := leaves_of_answers ((h shortState (by decide +kernel)).1 (by decide +kernel) (by decide +kernel) (by decide +kernel))
    (f := fun t => !t.boot.stopped) (fun t ht => by rw [ht.1.2]; rfl)
  exact absurd h (by decide +kernel)

end Sys2Proof.Machine
end


section
/-! PROOF. O55 fails: with a debug access, requests of command processors leave whose counts beyond their budgets can start a trace ring. -/

namespace Sys2Proof.Machine

open Sys2Proof.Claims

set_option Elab.async false

namespace Counter

/-- Requests of processors that wait to leave at a site, under numbers from 100 on, by the homes of their queues. -/
def waitingAt (site : Nat) : List Req :=
  ((upTo 0 6).zip [0, 1, 0, 2, 1, 0]).map fun x => { queued with site := site, rid := 100 + x.1, lane := x.2 }

/-- The processors that have taken over the queues of those homes bear numbers at which they count budget excesses in the control register
of a ring, in the word that stands for the budget of that count, in the word that stands for the budget of this one, and in a count that is
full. -/
def misled (r : Nat) : Map Nat := [(0, 0x185FF + 16 * r), (1, 0x184BF + 16 * r), (2, 0x1837F + 16 * r), (3, 0x100)]

/-- The ring has room for a record and does not run; one count more, and its RUN bit is set. -/
def ringStops (r : Nat) : List (Nat × W32) :=
  [word (State.reset.hpBlk 0) 0x000 1, word (.cnt 0) (ringOff r + 0x18) 1, word (.cnt 0) (ringOff r + 0x1C) 0xFF,
    word (.msh 0) 0xC20 0xFFFFFFFE]

/-- A state whose requests at a site count three excesses in a ring's control register as they leave, which lets it run, and in which one more
request leaves after them. -/
def misledBy (r site : Nat) (last : Req) (s : State) : State :=
  { s with
    regs := ringStops r ++ s.regs, net := { s.net with reqs := waitingAt site ++ last :: s.net.reqs, nextRid := 107 }
    host := { s.host with cpMap := misled r } }

/-- The last one is another of a processor and fills a count, whose flag event goes to the admin ring in the host's memory. -/
def misledAt (site : Nat) (s : State) : State := misledBy 16 site { queued with site := site, rid := 106, lane := 3 } s

/-- The debug port has level 1 in a part whose first stack has its rails on. -/
def debugState : State :=
  misledAt noSite { State.reset with regs := [word (.dbg 0) 0x000 1, word (.pwr 0) 0x000 3] }

end Counter

open Counter

/-- Refutes O55: of a read that sets out the statement says that memory stays as it was where no ring runs. With it the requests leave that
wait at the door of the debug port, and one of their counts lets the admin ring run. -/
theorem not_debugPort : ¬ Obligations.DebugPort := by
  unfold Obligations.DebugPort
  rintro ⟨-, -, -, -, -, -, -, h, -⟩
  have h := leaves_of_answers (((h debugState 0 0 1 rfl (by decide +kernel) (by decide +kernel)).2.1 (by decide +kernel) (by decide)
    (by decide +kernel) (by decide +kernel) (by decide +kernel) rfl (by decide +kernel)).1 (by decide +kernel) (by decide +kernel))
    (f := fun t => t.hmem.isEmpty) (fun t ht => by
      obtain ⟨-, -, hm⟩ := ht.2.2 (by decide +kernel)
      rw [hm]
      rfl)
  exact absurd h (by decide +kernel)

end Sys2Proof.Machine
end


section
/-! PROOF. O47 fails as O55 does: with what a remote request sends, requests of command processors leave. -/

namespace Sys2Proof.Machine

open Sys2Proof.Claims

set_option Elab.async false

namespace Counter

/-- A partition of one core that reaches the first MiB of external memory. -/
def partition0 : Partition := ⟨0, 0, 10000, [(0, 0x100000)], [0], [], false⟩

/-- Port 0 of the fabric is up, and partition 0 accepts every source. -/
def fabricState : State :=
  misledAt noSite { State.reset with
    regs := [word (.fp 0) 0x000 2], parts := [(0, partition0)], fab := { State.reset.fab with accepts := [(0, 0x7FFF8000)] } }

/-- A read of the byte at address 0 for another part. -/
def readByte : FabPkt :=
  { cls := 7, mark := false, rt := false, dst := State.reset.boot.cfg.deviceId, src := 1, srcPort := 0, dstPart := 0, tag := 0, seq := 0
    addr := 0, op := 0, len := 1, data := [], poison := [] }

end Counter

open Counter

/-- Refutes O47: of a read that goes to the place of its bytes the statement says that memory stays as it was where no ring runs. -/
theorem not_fabricRequests : ¬ Obligations.FabricRequests := by
  unfold Obligations.FabricRequests
  rintro ⟨-, h, -⟩
  have h := leaves_of_answers ((h (.fabricReadRequest, 1, fun k => k.len, fun k u e => Reads u e k.addr k.len) (.head _) fabricState 0 0 0
    readByte (by decide +kernel)).2.2.1 (.inl rfl) ⟨⟨partition0, rfl, rfl⟩, ⟨by decide +kernel, by decide +kernel, by decide +kernel⟩, by decide +kernel⟩
    (fun hn => absurd rfl hn) (by decide +kernel)) (f := fun t => t.hmem.isEmpty) (fun t ht => by
      obtain ⟨-, -, hm⟩ := ht.2.2 (by decide +kernel)
      rw [hm]
      rfl)
  exact absurd h (by decide +kernel)

end Sys2Proof.Machine
end


section
/-! PROOF. O43 and O40 fail as O55 does: with what a command reads or writes, requests of command processors leave that wait. -/

namespace Sys2Proof.Machine

open Sys2Proof.Claims

set_option Elab.async false

namespace Counter

/-- A running COUNTER_SNAP. -/
def snapping : Cmd := { NestedMerge.cmd with pkt := [0x01070828, 0, 0, 0, 0, 0, 0, 0, 0, 0, 0, 0, 0, 0, 0, 0] }

/-- A running COPY of 8 bytes from address 0x1000 to address 0. -/
def copying : Cmd := { NestedMerge.cmd with pkt := [0x01070802, 0, 0x1000, 0, 0, 0, 8, 0, 0, 0, 0, 0, 0, 0, 0, 0] }

/-- One of them runs. -/
def runningState (c : Cmd) : State :=
  misledAt noSite { State.reset with cmds := [c], parts := [(0, partition0)] }

end Counter

open Counter

/-- Refutes O43: of a snapshot that is written the statement says that memory stays as it was where no ring runs. -/
theorem not_powerTraceAndTestCommands : ¬ Obligations.PowerTraceAndTestCommands := by
  unfold Obligations.PowerTraceAndTestCommands
  rintro ⟨-, -, -, h, -⟩
  have h := leaves_of_answers ((h (runningState snapping) 1 snapping _ ⟨by decide +kernel, by decide, .inl rfl⟩ (by decide +kernel)
    (by decide +kernel) rfl).1 rfl (by decide +kernel) (by decide +kernel)) (f := fun t => t.hmem.isEmpty) (fun t ht => by
      obtain ⟨-, -, -, -, hm⟩ := ht
      rw [hm]
      rfl)
  exact absurd h (by decide +kernel)

/-- Refutes O40: of a COPY that reads its source the statement says that memory stays as it was where no ring runs. -/
theorem not_computeAndCopyCommands : ¬ Obligations.ComputeAndCopyCommands := by
  unfold Obligations.ComputeAndCopyCommands
  rintro ⟨-, h, -⟩
  have h := leaves_of_answers ((((h (runningState copying) 1 copying ⟨by decide +kernel, by decide, .inl rfl⟩ (by decide +kernel)).1 0 8
    (by decide +kernel) (by decide +kernel) (by decide +kernel) (by decide +kernel)).2 (by decide +kernel)).1 (by decide) (by decide +kernel)
    (by decide +kernel)) (f := fun t => t.hmem.isEmpty) (fun t ht => by
      obtain ⟨⟨-, -, hm⟩, -⟩ := ht
      rw [hm]
      rfl)
  exact absurd h (by decide +kernel)

end Sys2Proof.Machine
end


section
/-! PROOF. O34 and O26 fail as O55 does: with what a transpose engine reads or a copy writes, requests of command processors leave. -/

namespace Sys2Proof.Machine

open Sys2Proof.Claims

set_option Elab.async false

namespace Counter

/-- A running TRANSPOSE of the byte at 0x2000 to address 0. -/
def transposing : Cmd := { NestedMerge.cmd with pkt := [0x01070804, 0, 0x2000, 0, 0, 0, 1, 1, 1, 1, 1, 0, 0, 0, 0, 0] }

/-- A copy of the first byte of local memory to the first byte of the window beneath the core. -/
def job : DmaJob := { id := 0, group := 0, blk := 0, cid := 1, lane := 0, index := 0, src := ⟨0, 0, 0⟩, dst := ⟨1, 0, 0⟩, len := 1 }

/-- The core of the block that has asked for it. -/
def copyCore : Core := { Core.idle with groups := [(0, NestedMerge.grp)], blocks := [(0, NestedMerge.blk)], dma := [job] }

/-- The block's command runs; its core has a window of 1 MiB beneath it. -/
def copyState : State :=
  misledAt 0 { State.reset with regs := [word (.sc 0) 0x800 1], cmds := [NestedMerge.cmd], cores := [(0, copyCore)] }

end Counter

open Counter

/-- Refutes O34: of a piece that is read the statement says that memory stays as it was where no ring runs. -/
theorem not_slicesRetireAndTranspose : ¬ Obligations.SlicesRetireAndTranspose := by
  unfold Obligations.SlicesRetireAndTranspose
  rintro ⟨-, -, h⟩
  have h := leaves_of_answers ((h (runningState transposing) 1 0 0 0 transposing (by decide +kernel) (by decide) (by decide +kernel)
    (by decide +kernel) rfl rfl (by decide +kernel)).1 rfl (by decide +kernel) (by decide +kernel) (by decide +kernel))
    (f := fun t => t.hmem.isEmpty) (fun t ht => by
      obtain ⟨⟨-, -, hm⟩, -⟩ := ht
      rw [hm]
      rfl)
  exact absurd h (by decide +kernel)

/-- Refutes O26: of a copy that is sent out the statement says that memory stays as it was where no ring runs. -/
theorem not_loadsCopiesAndBlocks : ¬ Obligations.LoadsCopiesAndBlocks := by
  unfold Obligations.LoadsCopiesAndBlocks
  rintro ⟨-, -, h, -⟩
  have h := leaves_of_answers (((h copyState 0 job NestedMerge.blk NestedMerge.cmd _ winBase (by decide +kernel) (by decide +kernel) rfl
    (by decide +kernel) rfl (by decide +kernel)).1 [(0, false)] (by decide) (by decide +kernel) (by decide +kernel) rfl).2 (by decide +kernel)
    (by decide +kernel)) (f := fun t => t.hmem.isEmpty) (fun t ht => by
      obtain ⟨-, ⟨-, -, hm⟩, -⟩ := ht
      rw [hm]
      rfl)
  exact absurd h (by decide +kernel)

end Sys2Proof.Machine
end


section
/-! PROOF. O25 fails: with the write-out of a strip to local memory, requests that wait at the core leave, whose counts beyond their budgets can
start a trace ring in device memory. -/

namespace Sys2Proof.Machine

open Sys2Proof.Claims

set_option Elab.async false

namespace Counter

/-- A tile of one output element at the begin of local memory, whose only strip is ready to be written out. -/
def tile : Tile :=
  { num := 0, desc := ⟨1, 1, 1, 0, 0, 12, 0, false, false, false, ⟨0, 4, 0⟩, ⟨0, 4, 64⟩, ⟨0, 4, 128⟩⟩, group := 0, lane := 0, index := 0
    blk := 0, cid := 1, image := none, staged := 1, started := 1, ended := 1, drained := 1, woStarted := 0, woDone := 0, interlock := true
    alone := true }

/-- The bank that holds the strip. -/
def strip : Bank := ⟨0, 0, [[(.fp 0, false)]], false, false⟩

/-- The core of the tile. -/
def tileCore : Core :=
  { Core.idle with
    groups := [(0, NestedMerge.grp)], blocks := [(0, NestedMerge.blk)]
    arr := { Array.idle with tiles := [tile], nextTile := 1, banks := [some strip, none] } }

/-- A read of a thread that waits to leave. -/
def threadsRead : Req := { StaleNumber.stale with rid := 106, state := .queued }

/-- The core is lent to partition 0, whose ring's records go to device address 0. The last of the requests that wait is one of a thread, and the
count of its excess is full. -/
def writeState : State :=
  misledBy 0 0 threadsRead { State.reset with
    regs := [word (.router 0) 0x108 0xFFFFFFFE, word (.msh 0) 0x200 0], cmds := [NestedMerge.cmd], cores := [(0, tileCore)]
    roster := { State.reset.roster with lent := [(0, 0)] } }

end Counter

open Counter

/-- Refutes O25: of a write-out the statement says that no byte beside the output changes where no ring runs. -/
theorem not_arrayOutputAndFiller : ¬ Obligations.ArrayOutputAndFiller := by
  unfold Obligations.ArrayOutputAndFiller
  intro h
  have h := leaves_of_answers ((h writeState 0 tileCore.arr (by decide +kernel) rfl rfl).1 tile strip
    (engOf 0 68 0 NestedMerge.blk NestedMerge.cmd 0) (by decide +kernel) (by decide +kernel) rfl rfl rfl (by decide) (by decide +kernel)
    (by decide +kernel) (by decide +kernel) (by decide +kernel) (by decide +kernel)) (f := fun t => t.byte 8 == 0) (fun t ht => by
      obtain ⟨-, -, -, ho⟩ := ht
      rw [ho 8 (.inl (by decide +kernel))]
      rfl)
  exact absurd h (by decide +kernel)

end Sys2Proof.Machine
end


section
/-! PROOF. O41 fails: a command that begins takes an index of its record ring, which may be the way mask of a pinned line's partition. -/

namespace Sys2Proof.Machine

open Sys2Proof.Claims

set_option Elab.async false

namespace MaskedIndex

/-- A LOCALIZE of site 0 to no window, which has been accepted. -/
def cmd : Cmd :=
  { NestedMerge.cmd with
    pkt := [0x12, 0, 0x1000, 0, 0, 0, 0, 0, 0, 0, 0, 0, 0, 0, 0, 0], phase := .accepted, cores := [], launched := [], begun := false }

/-- A pinned line of slice 0 whose partition's way mask is the word of partition 0's index, 6. -/
def line : Line := ⟨0, 15, 0, 0, true, false, 0x207F3⟩

/-- The state in which the LOCALIZE begins: the ring of partition 0's records has a place, and none runs. -/
def state : State :=
  { State.reset with
    regs := [Counter.word (.sc 0) 0x004 1, Counter.word (.cnt 0) (ringOff 0 + 8) 1, Counter.word (.cnt 0) (ringOff 0 + 0x0C) 6]
    cmds := [cmd], halves := [(0, { Half.empty with lines := [(0, line)] })], parts := [(0, ⟨0, 0, 0, [], [0], [], false⟩)] }

end MaskedIndex

open MaskedIndex

/-- Refutes O41: with the mask 6 the lines of slice 0 do not fit, and the statement says that the command ends with 0x20; but as it begins the
index becomes 7, they fit, and it goes on. -/
theorem not_pinAndLocalizeCommands : ¬ Obligations.PinAndLocalizeCommands := by
  unfold Obligations.PinAndLocalizeCommands
  rintro ⟨-, -, h⟩
  have h := leaves_of_answers ((((h state 1 cmd (by decide +kernel) (by decide +kernel) (by decide +kernel)).1 rfl).2 (by decide +kernel)).2
    (by decide +kernel) |>.1 ⟨0, by decide +kernel, by decide +kernel⟩) (f := fun t => ((t.cmd? 1).map (·.phase)) == some .ending) (fun t ht => by
      obtain ⟨k, hk, hp, -⟩ := ht
      rw [hk, Option.map_some, hp]
      rfl)
  exact absurd h (by decide +kernel)

end Sys2Proof.Machine
end

section
/-! PROOF. The words of thread instructions: every field reads back, and the opcode selects the instruction (R119, R122). -/

namespace Sys2Proof

open Sys2Proof.Claims

/-! ## Fields of a word -/

theorem flagNat_lt (b : Bool) : flagNat b < 2 := by cases b <;> decide

theorem ofNat_eq_of_toNat {w n : Nat} {x : BitVec w} (h : n = x.toNat) : BitVec.ofNat w n = x := by
  rw [h, BitVec.ofNat_toNat, BitVec.setWidth_eq]

theorem decide_eq_of_flagNat {n : Nat} {b : Bool} (h : n = flagNat b) : decide (n = 1) = b := by
  rw [h]; cases b <;> rfl

/-- The fields of a word under an opcode are those it was made of; each lies where the lower ones end. -/
theorem RForm.ofWord_word (op : Nat) (f : RForm) : RForm.ofWord (f.word op) = f := by
  obtain ⟨pg, pn, mod, ud, ua, ub, uc, rsv, c, b, a, d⟩ := f
  have := flagNat_lt pn; have := flagNat_lt ud; have := flagNat_lt ua; have := flagNat_lt ub; have := flagNat_lt uc
  rw [RForm.ofWord, RForm.word, RForm.mk.injEq]
  refine ⟨ofNat_eq_of_toNat ?_, decide_eq_of_flagNat ?_, ofNat_eq_of_toNat ?_, decide_eq_of_flagNat ?_, decide_eq_of_flagNat ?_,
    decide_eq_of_flagNat ?_, decide_eq_of_flagNat ?_, ofNat_eq_of_toNat ?_, ofNat_eq_of_toNat ?_, ofNat_eq_of_toNat ?_,
    ofNat_eq_of_toNat ?_, ofNat_eq_of_toNat ?_⟩ <;> simp only [bitsOf] <;> omega

theorem IForm.ofWord_word (op : Nat) (f : IForm) : IForm.ofWord (f.word op) = f := by
  obtain ⟨pg, pn, ud, ua, rsv, d, a, imm⟩ := f
  have := flagNat_lt pn; have := flagNat_lt ud; have := flagNat_lt ua
  rw [IForm.ofWord, IForm.word, IForm.mk.injEq]
  refine ⟨ofNat_eq_of_toNat ?_, decide_eq_of_flagNat ?_, decide_eq_of_flagNat ?_, decide_eq_of_flagNat ?_, ofNat_eq_of_toNat ?_,
    ofNat_eq_of_toNat ?_, ofNat_eq_of_toNat ?_, ofNat_eq_of_toNat ?_⟩ <;> simp only [bitsOf] <;> omega

theorem MForm.ofWord_word (op : Nat) (f : MForm) : MForm.ofWord (f.word op) = f := by
  obtain ⟨pg, pn, space, size, ua, sx, ud, rsv, d, a, off⟩ := f
  have := flagNat_lt pn; have := flagNat_lt ua; have := flagNat_lt sx; have := flagNat_lt ud
  rw [MForm.ofWord, MForm.word, MForm.mk.injEq]
  refine ⟨ofNat_eq_of_toNat ?_, decide_eq_of_flagNat ?_, ofNat_eq_of_toNat ?_, ofNat_eq_of_toNat ?_, decide_eq_of_flagNat ?_,
    decide_eq_of_flagNat ?_, decide_eq_of_flagNat ?_, ofNat_eq_of_toNat ?_, ofNat_eq_of_toNat ?_, ofNat_eq_of_toNat ?_,
    ofNat_eq_of_toNat ?_⟩ <;> simp only [bitsOf] <;> omega

theorem BForm.ofWord_word (op : Nat) (f : BForm) : BForm.ofWord (f.word op) = f := by
  obtain ⟨pg, pn, rsv, merge, target⟩ := f
  have := flagNat_lt pn
  rw [BForm.ofWord, BForm.word, BForm.mk.injEq]
  refine ⟨ofNat_eq_of_toNat ?_, decide_eq_of_flagNat ?_, ofNat_eq_of_toNat ?_, ofNat_eq_of_toNat ?_, ofNat_eq_of_toNat ?_⟩ <;>
    simp only [bitsOf] <;> omega

theorem TForm.ofWord_word (op : Nat) (f : TForm) : TForm.ofWord (f.word op) = f := by
  obtain ⟨pg, pn, mod, rsv, ubase, imm⟩ := f
  have := flagNat_lt pn
  rw [TForm.ofWord, TForm.word, TForm.mk.injEq]
  refine ⟨ofNat_eq_of_toNat ?_, decide_eq_of_flagNat ?_, ofNat_eq_of_toNat ?_, ofNat_eq_of_toNat ?_, ofNat_eq_of_toNat ?_,
    ofNat_eq_of_toNat ?_⟩ <;> simp only [bitsOf] <;> omega

theorem SForm.ofWord_word (op : Nat) (f : SForm) : SForm.ofWord (f.word op) = f := by
  obtain ⟨pg, pn, mod, rsv, ua, a, imm⟩ := f
  have := flagNat_lt pn; have := flagNat_lt ua
  rw [SForm.ofWord, SForm.word, SForm.mk.injEq]
  refine ⟨ofNat_eq_of_toNat ?_, decide_eq_of_flagNat ?_, ofNat_eq_of_toNat ?_, ofNat_eq_of_toNat ?_, decide_eq_of_flagNat ?_,
    ofNat_eq_of_toNat ?_, ofNat_eq_of_toNat ?_⟩ <;> simp only [bitsOf] <;> omega

/-! ## Opcodes -/

/-- What O58 says of one word. -/
def Decodes (i : Instr) (n : Nat) : Prop := n < 2 ^ 64 ∧ ∃ w p, guardOf i = some (w, p) ∧ decodeThread w n = some i

/-- A word that holds its opcode in bits [63:56] decodes to the instruction of that opcode. -/
theorem decodes_of_fields {n op : Nat} {w : At} {p : BitVec 3 × Bool × Nat} {i : Instr} (hop : op < 256)
    (hn : op * 2 ^ 56 ≤ n ∧ n < op * 2 ^ 56 + 2 ^ 56) (hg : guardOf i = some (w, p))
    (hd : bitsOf 63 56 n = op → decodeThread w n = some i) : Decodes i n :=
  ⟨by omega, w, p, hg, hd (by simp only [bitsOf]; omega)⟩

theorem RForm.decodes {n op : Nat} {w : At} {f : RForm} {p : BitVec 3 × Bool × Nat} {mk : At → RForm → Instr}
    (h : some (f.word op) = some n) (hop : op < 256) (hg : guardOf (mk w f) = some (w, p))
    (hd : ∀ m, bitsOf 63 56 m = op → decodeThread w m = some (mk w (.ofWord m))) : Decodes (mk w f) n := by
  obtain rfl := Option.some.inj h
  refine decodes_of_fields hop ?_ hg fun hm => (hd _ hm).trans (by rw [RForm.ofWord_word])
  have := flagNat_lt f.pn; have := flagNat_lt f.ud; have := flagNat_lt f.ua; have := flagNat_lt f.ub; have := flagNat_lt f.uc
  rw [RForm.word]; omega

theorem IForm.decodes {n op : Nat} {w : At} {f : IForm} {p : BitVec 3 × Bool × Nat} {mk : At → IForm → Instr}
    (h : some (f.word op) = some n) (hop : op < 256) (hg : guardOf (mk w f) = some (w, p))
    (hd : ∀ m, bitsOf 63 56 m = op → decodeThread w m = some (mk w (.ofWord m))) : Decodes (mk w f) n := by
  obtain rfl := Option.some.inj h
  refine decodes_of_fields hop ?_ hg fun hm => (hd _ hm).trans (by rw [IForm.ofWord_word])
  have := flagNat_lt f.pn; have := flagNat_lt f.ud; have := flagNat_lt f.ua
  rw [IForm.word]; omega

theorem MForm.decodes {n op : Nat} {w : At} {f : MForm} {p : BitVec 3 × Bool × Nat} {mk : At → MForm → Instr}
    (h : some (f.word op) = some n) (hop : op < 256) (hg : guardOf (mk w f) = some (w, p))
    (hd : ∀ m, bitsOf 63 56 m = op → decodeThread w m = some (mk w (.ofWord m))) : Decodes (mk w f) n := by
  obtain rfl := Option.some.inj h
  refine decodes_of_fields hop ?_ hg fun hm => (hd _ hm).trans (by rw [MForm.ofWord_word])
  have := flagNat_lt f.pn; have := flagNat_lt f.ua; have := flagNat_lt f.sx; have := flagNat_lt f.ud
  rw [MForm.word]; omega

theorem BForm.decodes {n op : Nat} {w : At} {f : BForm} {p : BitVec 3 × Bool × Nat} {mk : At → BForm → Instr}
    (h : some (f.word op) = some n) (hop : op < 256) (hg : guardOf (mk w f) = some (w, p))
    (hd : ∀ m, bitsOf 63 56 m = op → decodeThread w m = some (mk w (.ofWord m))) : Decodes (mk w f) n := by
  obtain rfl := Option.some.inj h
  refine decodes_of_fields hop ?_ hg fun hm => (hd _ hm).trans (by rw [BForm.ofWord_word])
  have := flagNat_lt f.pn
  rw [BForm.word]; omega

theorem TForm.decodes {n op : Nat} {w : At} {f : TForm} {p : BitVec 3 × Bool × Nat} {mk : At → TForm → Instr}
    (h : some (f.word op) = some n) (hop : op < 256) (hg : guardOf (mk w f) = some (w, p))
    (hd : ∀ m, bitsOf 63 56 m = op → decodeThread w m = some (mk w (.ofWord m))) : Decodes (mk w f) n := by
  obtain rfl := Option.some.inj h
  refine decodes_of_fields hop ?_ hg fun hm => (hd _ hm).trans (by rw [TForm.ofWord_word])
  have := flagNat_lt f.pn
  rw [TForm.word]; omega

theorem SForm.decodes {n op : Nat} {w : At} {f : SForm} {p : BitVec 3 × Bool × Nat} {mk : At → SForm → Instr}
    (h : some (f.word op) = some n) (hop : op < 256) (hg : guardOf (mk w f) = some (w, p))
    (hd : ∀ m, bitsOf 63 56 m = op → decodeThread w m = some (mk w (.ofWord m))) : Decodes (mk w f) n := by
  obtain rfl := Option.some.inj h
  refine decodes_of_fields hop ?_ hg fun hm => (hd _ hm).trans (by rw [SForm.ofWord_word])
  have := flagNat_lt f.pn; have := flagNat_lt f.ua
  rw [SForm.word]; omega

/-- Settles O58: in each row of R122 the word holds the row's opcode, which selects the instruction, and the fields read back. -/
theorem threadWordsDecode : Obligations.ThreadWordsDecode := by
  unfold Obligations.ThreadWordsDecode
  intro i n h
  cases i with
  | nop w f | merge w f | exit w f | spin w f | trap w f | barg w f | barb w f | fence w f =>
    exact SForm.decodes h (by decide) rfl fun m hm => by unfold decodeThread; rw [hm]; rfl
  | bra w f | brx w f =>
    exact BForm.decodes h (by decide) rfl fun m hm => by unfold decodeThread; rw [hm]; rfl
  | s2r w f | iadd w f | isub w f | imul w f | imulh w f | imulhu w f | imad w f | imin w f | imax w f | iminu w f
  | imaxu w f | iabs w f | idiv w f | idivu w f | irem w f | iremu w f | and w f | or w f | xor w f | shl w f
  | shr w f | sar w f | popc w f | clz w f | brev w f | isetp w f | isetpu w f | fsetp w f | sel w f | mov w f
  | plop w f | p2r w f | regToPred w f | fadd w f | fsub w f | fmul w f | ffma w f | fmin w f | fmax w f | fabs w f
  | fneg w f | fdiv w f | fsqrt w f | frcp w f | frsq w f | fexp2 w f | flog2 w f | fsin w f | fcos w f | ftanh w f
  | cvtif w f | cvtuf w f | cvtfi w f | cvtfu w f | cvtfb w f | cvtbf w f | cvtfh w f | cvthf w f | cvtf8 w f
  | cvt8f w f | shfl w f | vote w f =>
    exact RForm.decodes h (by decide) rfl fun m hm => by unfold decodeThread; rw [hm]; rfl
  | ld w f | st w f | ldnc w f | aadd w f | amin w f | amax w f | aminu w f | amaxu w f | aand w f | aor w f
  | axor w f | axchg w f | acas w f | afadd w f | raddI32 w f | raddF32 w f | raddBf16 w f | rmaxI32 w f | rminI32 w f
  | rmaxF32 w f | rminF32 w f | rmaxBf16 w f | rminBf16 w f =>
    exact MForm.decodes h (by decide) rfl fun m hm => by unfold decodeThread; rw [hm]; rfl
  | tile w f | twait w f | espld w f | dma w f | dwait w f =>
    exact TForm.decodes h (by decide) rfl fun m hm => by unfold decodeThread; rw [hm]; rfl
  | movi w f | iaddi w f | imuli w f | andi w f | ori w f | xori w f | shli w f | shri w f | sari w f | isetpi w f
  | isetpui w f | faddi w f | fmuli w f | fsetpi w f =>
    exact IForm.decodes h (by decide) rfl fun m hm => by unfold decodeThread; rw [hm]; rfl
  | _ => cases h

end Sys2Proof
end

section
/-! PROOF. Instructions that compute a register from registers and immediates (R116, R117, R122). -/

namespace Sys2Proof.Machine

open Sys2Proof.Claims

/-! ## What an instruction that writes D does -/

section Alu

variable {s : State} {w : At} {c : Ctx} {ls : List Nat}

/-- An R-format instruction gives each thread what it computes from its sources. -/
theorem runAlu_of_issues {u : RUse} {f : RForm} (h : Issues s w (u.need f true) c ls) {op : Ctx → Nat → Src → W32}
    {ok : Nat → W32 → Prop} (hok : ∀ l ∈ ls, ok l (op c l (u.read f c.grp l))) :
    ∃ t, runAlu w s f u op = .next t ∧ Result s t c f.ud f.d.toNat ls ok :=
  ⟨_, runThread_of_issues _ h, result_of_issues h f.ud f.d _ _ hok⟩

/-- One of two sources. -/
theorem runAlu_dab {f : RForm} (h : Issues s w (RUse.dab.need f true) c ls) {op : W32 → W32 → W32} {P : W32 → W32 → W32 → Prop}
    (hop : ∀ a b, P a b (op a b)) : ∃ t, runAlu w s f .dab (fun _ _ x => op x.a x.b) = .next t ∧
      Result s t c f.ud f.d.toNat ls (fun l r => P (ra c f l) (rb c f l) r) :=
  runAlu_of_issues h fun _ _ => hop _ _

/-- One of one source. -/
theorem runAlu_da {f : RForm} (h : Issues s w (RUse.da.need f true) c ls) {op : W32 → W32} {P : W32 → W32 → Prop}
    (hop : ∀ a, P a (op a)) : ∃ t, runAlu w s f .da (fun _ _ x => op x.a) = .next t ∧
      Result s t c f.ud f.d.toNat ls (fun l r => P (ra c f l) r) :=
  runAlu_of_issues h fun _ _ => hop _

/-- An I-format instruction gives each thread what it computes from A and IMM. -/
theorem runImm_of_issues {f : IForm} {useA : Bool} (h : Issues s w (iNeed f useA .reg true false) c ls) {op : W32 → W32 → W32}
    {ok : Nat → W32 → Prop} (hok : ∀ l ∈ ls, ok l (op (if useA then c.grp.reg l (regNo f.ua f.a.toNat) else 0) f.imm)) :
    ∃ t, runImm w s f useA op = .next t ∧ Result s t c f.ud f.d.toNat ls ok :=
  ⟨_, runThread_of_issues _ h, result_of_issues h f.ud f.d _ _ hok⟩

theorem runImm_a {f : IForm} (h : Issues s w (iNeed f true .reg true false) c ls) {op : W32 → W32 → W32} {P : W32 → W32 → W32 → Prop}
    (hop : ∀ a b, P a b (op a b)) : ∃ t, runImm w s f true op = .next t ∧
      Result s t c f.ud f.d.toNat ls (fun l r => P (c.grp.reg l (regNo f.ua f.a.toNat)) f.imm r) :=
  runImm_of_issues h fun _ _ => hop _ _

end Alu

/-! ## The numbers of R122 -/

/-- What IMIN and IMAX compute, and their unsigned forms. -/
def minS (a b : W32) : W32 := if a.slt b then a else b

def maxS (a b : W32) : W32 := if a.slt b then b else a

def minU (a b : W32) : W32 := if a.ult b then a else b

def maxU (a b : W32) : W32 := if a.ult b then b else a

theorem toInt_minS (a b : W32) : (minS a b).toInt = min a.toInt b.toInt := by
  rw [minS, BitVec.slt]; split <;> simp_all; omega

theorem toInt_maxS (a b : W32) : (maxS a b).toInt = max a.toInt b.toInt := by
  rw [maxS, BitVec.slt]; split <;> simp_all; omega

theorem toNat_minU (a b : W32) : (minU a b).toNat = min a.toNat b.toNat := by
  rw [minU, BitVec.ult]; split <;> simp_all; omega

theorem toNat_maxU (a b : W32) : (maxU a b).toNat = max a.toNat b.toNat := by
  rw [maxU, BitVec.ult]; split <;> simp_all; omega

/-- A number that fits a signed word is the word's. -/
theorem toInt_ofInt_of_fits {x : Int} (h1 : -2 ^ 31 ≤ x) (h2 : x < 2 ^ 31) : (BitVec.ofInt 32 x).toInt = x := by
  rw [BitVec.toInt_ofInt, Int.bmod_eq_of_le] <;> omega

theorem natAbs_toInt_le (a : W32) : a.toInt.natAbs ≤ 2 ^ 31 := by
  have := a.le_toInt; have := a.toInt_lt; omega

theorem toInt_mulHiS (a b : W32) : (mulHiS a b).toInt = a.toInt * b.toInt / 2 ^ 32 := by
  have h : (a.toInt * b.toInt).natAbs ≤ 2 ^ 31 * 2 ^ 31 := by
    rw [Int.natAbs_mul]; exact Nat.mul_le_mul (natAbs_toInt_le a) (natAbs_toInt_le b)
  exact toInt_ofInt_of_fits (by omega) (by omega)

theorem toNat_mulHiU (a b : W32) : (mulHiU a b).toNat = a.toNat * b.toNat / 2 ^ 32 := by
  have h : a.toNat * b.toNat < 2 ^ 64 := by
    calc a.toNat * b.toNat < 2 ^ 32 * 2 ^ 32 := Nat.mul_lt_mul'' a.isLt b.isLt
      _ = 2 ^ 64 := by norm_num
  rw [mulHiU, BitVec.toNat_ofNat, Nat.mod_eq_of_lt (by omega)]

theorem toInt_ne_zero {b : W32} (h : b ≠ 0) : b.toInt ≠ 0 := fun h0 => h (BitVec.toInt_inj.mp (h0.trans (by decide)))

/-- A signed quotient fits, but for the one of the least number by -1. -/
theorem divS_spec (a b : W32) : if b.toInt = 0 then (divS a b).toNat = 2 ^ 32 - 1
    else if a.toInt = -2 ^ 31 ∧ b.toInt = -1 then (divS a b).toInt = -2 ^ 31 else (divS a b).toInt = a.toInt.tdiv b.toInt := by
  by_cases hb : b = 0
  · subst hb; rfl
  rw [if_neg (toInt_ne_zero hb), divS, if_neg hb]
  split
  · rename_i h; rw [h.1, h.2]; decide
  · rename_i h
    have hq : (a.sdiv b).toInt = a.toInt.tdiv b.toInt := BitVec.toInt_sdiv_of_ne_or_ne a b (by
      by_contra hab
      push Not at hab
      exact h ⟨by rw [hab.1]; decide, by rw [hab.2]; decide⟩)
    rw [← hq]
    exact toInt_ofInt_of_fits (BitVec.le_toInt _) (BitVec.toInt_lt)

theorem toNat_divU (a b : W32) : if b.toNat = 0 then (divU a b).toNat = 2 ^ 32 - 1 else (divU a b).toNat = a.toNat / b.toNat := by
  have h0 : b = 0 ↔ b.toNat = 0 := by rw [← BitVec.toNat_inj]; rfl
  simp only [divU, h0]
  split
  · rfl
  · rw [BitVec.toNat_ofNat, Nat.mod_eq_of_lt ((Nat.div_le_self _ _).trans_lt a.isLt)]

theorem remS_spec (a b : W32) : if b.toInt = 0 then remS a b = a else (remS a b).toInt = a.toInt.tmod b.toInt := by
  by_cases hb : b = 0
  · subst hb; rfl
  rw [if_neg (toInt_ne_zero hb), remS, if_neg hb, ← BitVec.toInt_srem]
  exact toInt_ofInt_of_fits (BitVec.le_toInt _) (BitVec.toInt_lt)

theorem remU_spec (a b : W32) : if b.toNat = 0 then remU a b = a else (remU a b).toNat = a.toNat % b.toNat := by
  have h0 : b = 0 ↔ b.toNat = 0 := by rw [← BitVec.toNat_inj]; rfl
  simp only [remU, h0]
  split
  · rfl
  · rw [BitVec.toNat_ofNat, Nat.mod_eq_of_lt ((Nat.mod_le _ _).trans_lt a.isLt)]

/-- The shift amount is the low byte (R122). -/
theorem shAmt_eq (b : W32) : shAmt b = b.toNat % 256 := by simp [shAmt, getF, fld]

theorem toNat_shlW (a b : W32) :
    (shlW a b).toNat = if 32 ≤ b.toNat % 256 then 0 else a.toNat * 2 ^ (b.toNat % 256) % 2 ^ 32 := by
  rw [shlW, BitVec.toNat_shiftLeft, shAmt_eq, Nat.shiftLeft_eq]
  split
  · rename_i h
    exact Nat.mod_eq_zero_of_dvd ((pow_dvd_pow 2 h).mul_left _)
  · rfl

theorem toNat_shrW (a b : W32) : (shrW a b).toNat = if 32 ≤ b.toNat % 256 then 0 else a.toNat / 2 ^ (b.toNat % 256) := by
  rw [shrW, BitVec.toNat_ushiftRight, shAmt_eq, Nat.shiftRight_eq_div_pow]
  split
  · rename_i h
    exact Nat.div_eq_of_lt (a.isLt.trans_le (Nat.pow_le_pow_right (by omega) h))
  · rfl

theorem toInt_sarW (a b : W32) : (sarW a b).toInt = a.toInt / 2 ^ (b.toNat % 256) := by
  rw [sarW, BitVec.toInt_sshiftRight, shAmt_eq, Int.shiftRight_eq_div_pow]; push_cast; rfl

theorem isub_spec (a b : W32) : ((a - b).toInt - (a.toInt - b.toInt)) % 2 ^ 32 = 0 := by
  rw [BitVec.toInt_sub]
  have := Int.dvd_self_sub_bmod (x := a.toInt - b.toInt) (m := 2 ^ 32)
  omega

/-- Each row of `integerOps` is the shared operation of two sources with the number of its row. -/
theorem forall_integerOps {P : (At → RForm → Instr) × (W32 → W32 → W32 → Prop) → Prop}
    (h : ∀ (i : At → RForm → Instr) (op : W32 → W32 → W32) (Q : W32 → W32 → W32 → Prop),
      (∀ w f s, exec (i w f) s = runAlu w s f .dab (fun _ _ x => op x.a x.b)) → (∀ a b, Q a b (op a b)) → P (i, Q)) :
    ∀ p ∈ integerOps, P p := by
  simp only [integerOps, List.forall_mem_cons]
  exact ⟨h _ (· + ·) _ (fun _ _ _ => rfl) BitVec.toNat_add, h _ (· - ·) _ (fun _ _ _ => rfl) isub_spec,
    h _ (· * ·) _ (fun _ _ _ => rfl) BitVec.toNat_mul, h _ mulHiS _ (fun _ _ _ => rfl) toInt_mulHiS,
    h _ mulHiU _ (fun _ _ _ => rfl) toNat_mulHiU, h _ minS _ (fun _ _ _ => rfl) toInt_minS, h _ maxS _ (fun _ _ _ => rfl) toInt_maxS,
    h _ minU _ (fun _ _ _ => rfl) toNat_minU, h _ maxU _ (fun _ _ _ => rfl) toNat_maxU, h _ divS _ (fun _ _ _ => rfl) divS_spec,
    h _ divU _ (fun _ _ _ => rfl) toNat_divU, h _ remS _ (fun _ _ _ => rfl) remS_spec, h _ remU _ (fun _ _ _ => rfl) remU_spec,
    h _ (· &&& ·) _ (fun _ _ _ => rfl) fun _ _ _ _ => BitVec.getLsbD_and,
    h _ (· ||| ·) _ (fun _ _ _ => rfl) fun _ _ _ _ => BitVec.getLsbD_or,
    h _ (· ^^^ ·) _ (fun _ _ _ => rfl) fun _ _ _ _ => BitVec.getLsbD_xor, h _ shlW _ (fun _ _ _ => rfl) toNat_shlW,
    h _ shrW _ (fun _ _ _ => rfl) toNat_shrW, h _ sarW _ (fun _ _ _ => rfl) toInt_sarW, by simp⟩

/-- Settles O1: every row computes the number of its row, and a register instruction does nothing else. -/
theorem integerArithmetic : Obligations.IntegerArithmetic := by
  unfold Obligations.IntegerArithmetic
  intro s w f c ls h
  refine forall_integerOps fun i op Q hi hQ => ?_
  rw [Answers, hi]
  exact runAlu_dab h hQ

end Sys2Proof.Machine
end

section
/-! PROOF. Instructions of one and of three sources, immediates, predicate moves, and the poison of results (R117, R122, R139). -/

namespace Sys2Proof.Machine

open Sys2Proof.Claims

/-! ## The numbers of R122, one source -/

/-- What IABS computes. -/
def absS (a : W32) : W32 := if a.getLsbD 31 then -a else a

theorem toNat_absS (a : W32) : (absS a).toNat = a.toInt.natAbs := by
  have hm : a.getLsbD 31 = a.msb := rfl
  rw [absS, hm, BitVec.msb_eq_decide, BitVec.toInt_eq_toNat_cond]
  split <;> rename_i h <;> simp only [decide_eq_true_eq] at h
  · rw [if_neg (by omega), BitVec.toNat_neg]; omega
  · rw [if_pos (by omega)]; omega

theorem upTo_eq_range' (a n : Nat) : upTo a n = List.range' a n := by
  induction n generalizing a with
  | zero => rfl
  | succ n ih => rw [upTo, ih, List.range'_succ]

theorem toNat_popcount (a : W32) : (popcount a).toNat = (List.range 32).countP (fun i => a.getLsbD i) := by
  have h : (List.range 32).countP (fun i => a.getLsbD i) ≤ 32 := List.countP_le_length.trans (by simp)
  rw [popcount, upTo_eq_range', ← List.range_eq_range', BitVec.toNat_ofNat, Nat.mod_eq_of_lt (by omega)]

theorem leadZeros_spec (a : W32) : if a = 0 then leadZeros a = 32
    else 2 ^ (31 - (leadZeros a).toNat) ≤ a.toNat ∧ a.toNat < 2 ^ (32 - (leadZeros a).toNat) ∧ (leadZeros a).toNat < 32 := by
  split
  · rename_i h; subst h; rfl
  · rename_i h
    have h0 : a.toNat ≠ 0 := fun h0 => h (BitVec.eq_of_toNat_eq h0)
    have hlog : a.toNat.log2 < 32 := (Nat.log2_lt h0).mpr a.isLt
    have hr : (leadZeros a).toNat = 31 - a.toNat.log2 := by
      rw [leadZeros, bitLen, if_neg h0, BitVec.toNat_ofNat]; omega
    rw [hr, show 31 - (31 - a.toNat.log2) = a.toNat.log2 by omega, show 32 - (31 - a.toNat.log2) = a.toNat.log2 + 1 by omega]
    exact ⟨Nat.log2_self_le h0, Nat.lt_log2_self, by omega⟩

theorem getLsbD_reverse (a : W32) (i : Nat) (hi : i < 32) : a.reverse.getLsbD i = a.getLsbD (31 - i) := by
  rw [BitVec.getLsbD_reverse, BitVec.getMsbD]; simp [hi]

/-- FABS clears bit 31. -/
theorem toNat_fabs (a : W32) : (a &&& 0x7FFFFFFF#32).toNat = a.toNat % 2 ^ 31 :=
  Nat.and_two_pow_sub_one_eq_mod a.toNat 31

/-- FNEG inverts bit 31 and keeps the others. -/
theorem fneg_spec (a : W32) : (a ^^^ 0x80000000#32).toNat % 2 ^ 31 = a.toNat % 2 ^ 31 ∧
    (a ^^^ 0x80000000#32).getLsbD 31 = !a.getLsbD 31 := by
  constructor
  · rw [BitVec.toNat_xor, Nat.xor_mod_two_pow]; simp
  · rw [BitVec.getLsbD_xor]; simp

/-- Each row of `unaryOps` is the shared operation of one source with the number of its row. -/
theorem forall_unaryOps {P : (At → RForm → Instr) × (W32 → W32 → Prop) → Prop}
    (h : ∀ (i : At → RForm → Instr) (op : W32 → W32) (Q : W32 → W32 → Prop),
      (∀ w f s, exec (i w f) s = runAlu w s f .da (fun _ _ x => op x.a)) → (∀ a, Q a (op a)) → P (i, Q)) :
    ∀ p ∈ unaryOps, P p := by
  simp only [unaryOps, List.forall_mem_cons]
  exact ⟨h _ absS _ (fun _ _ _ => rfl) toNat_absS, h _ popcount _ (fun _ _ _ => rfl) toNat_popcount,
    h _ leadZeros _ (fun _ _ _ => rfl) leadZeros_spec, h _ BitVec.reverse _ (fun _ _ _ => rfl) getLsbD_reverse,
    h _ id _ (fun _ _ _ => rfl) fun _ => rfl, h _ (· &&& 0x7FFFFFFF#32) _ (fun _ _ _ => rfl) toNat_fabs,
    h _ (· ^^^ 0x80000000#32) _ (fun _ _ _ => rfl) fneg_spec, by simp⟩

/-- Each row of `immediateOps` is the shared operation of A and IMM with the result of its row. -/
theorem forall_immediateOps {P : (At → IForm → Instr) × (W32 → W32 → W32 → Prop) → Prop}
    (h : ∀ (i : At → IForm → Instr) (op : W32 → W32 → W32) (Q : W32 → W32 → W32 → Prop),
      (∀ w f s, exec (i w f) s = runImm w s f true op) → (∀ a b, Q a b (op a b)) → P (i, Q)) :
    ∀ p ∈ immediateOps, P p := by
  simp only [immediateOps, List.forall_mem_cons]
  exact ⟨h _ (· + ·) _ (fun _ _ _ => rfl) BitVec.toNat_add, h _ (· * ·) _ (fun _ _ _ => rfl) BitVec.toNat_mul,
    h _ (· &&& ·) _ (fun _ _ _ => rfl) fun _ _ _ _ => BitVec.getLsbD_and,
    h _ (· ||| ·) _ (fun _ _ _ => rfl) fun _ _ _ _ => BitVec.getLsbD_or,
    h _ (· ^^^ ·) _ (fun _ _ _ => rfl) fun _ _ _ _ => BitVec.getLsbD_xor, h _ shlW _ (fun _ _ _ => rfl) toNat_shlW,
    h _ shrW _ (fun _ _ _ => rfl) toNat_shrW, h _ sarW _ (fun _ _ _ => rfl) toInt_sarW,
    h _ fadd _ (fun _ _ _ => rfl) fun _ _ => rfl, h _ fmul _ (fun _ _ _ => rfl) fun _ _ => rfl, by simp⟩

theorem toNat_imad (a b c : W32) : (a * b + c).toNat = (a.toNat * b.toNat + c.toNat) % 2 ^ 32 := by
  rw [BitVec.toNat_add, BitVec.toNat_mul, Nat.mod_add_mod]

/-- Settles O2: a register instruction gives each thread its row's result of the thread's operands, and does nothing else. -/
theorem otherArithmetic : Obligations.OtherArithmetic := by
  unfold Obligations.OtherArithmetic
  refine ⟨⟨fun s w f c ls h => ?_, fun s w f c ls h => ⟨?_, ?_⟩⟩, fun s w f c ls h => ?_, fun s w f c ls h => ?_⟩
  · refine forall_unaryOps fun i op Q hi hQ => ?_
    rw [Answers, hi]
    exact runAlu_da h hQ
  · exact runAlu_of_issues (op := fun _ _ x => x.a * x.b + x.c) h fun _ _ => toNat_imad _ _ _
  · exact runAlu_of_issues (op := fun _ _ x => ffma x.a x.b x.c) h fun _ _ => rfl
  · refine forall_immediateOps fun i op Q hi hQ => ?_
    rw [Answers, hi]
    exact runImm_a h hQ
  · exact runImm_of_issues (op := fun _ b => b) h fun _ _ => rfl

/-! ## Moves between registers and predicates -/

/-- P2R: bit i is predicate i, p7 true. -/
theorem getLsbD_p2r (g : Group) (l : Nat) {i : Nat} (hi : i < 8) :
    (((1 : BitVec 1) ++ (g.th l).preds).setWidth 32).getLsbD i = g.pred l i := by
  rw [BitVec.getLsbD_setWidth, BitVec.getLsbD_append, Group.pred]
  by_cases h : i = 7
  · subst h; simp
  · simp [h, show i < 7 by omega, show i < 32 by omega]

/-- The mask of the lanes of a list that pass a test. -/
theorem getLsbD_voteMask (f : Nat → Bool) (ls : List Nat) (v : W32) {l : Nat} (hl : l < 32) :
    (ls.foldl (fun v l => if f l then v ||| ((1 : W32) <<< l) else v) v).getLsbD l = true ↔ v.getLsbD l = true ∨ l ∈ ls ∧ f l = true := by
  induction ls generalizing v with
  | nil => simp
  | cons k ls ih =>
    rw [List.foldl_cons, ih]
    by_cases hk : f k
    · rw [if_pos hk, BitVec.getLsbD_or]
      by_cases h : l = k
      · subst h; simp [hl, hk]
      · have hbit : ((1 : W32) <<< k).getLsbD l = false := by
          have : l < k ∨ l - k ≠ 0 := by omega
          rcases this with hk | hk <;> simp [hk]
        rw [hbit, Bool.or_false]; simp [h]
    · rw [if_neg hk]
      constructor
      · rintro (h | ⟨h, hf⟩)
        · exact .inl h
        · exact .inr ⟨List.mem_cons_of_mem _ h, hf⟩
      · rintro (h | ⟨h, hf⟩)
        · exact .inl h
        · rcases List.mem_cons.mp h with rfl | h
          · exact absurd hf hk
          · exact .inr ⟨h, hf⟩

theorem plopOp_spec {m : Nat} (hm : m < 4) (x y : Bool) : (m = 0 → plopOp m x y = (x && y)) ∧ (m = 1 → plopOp m x y = (x || y)) ∧
    (m = 2 → plopOp m x y = (x != y)) ∧ (m = 3 → plopOp m x y = (x && !y)) := by
  refine ⟨?_, ?_, ?_, ?_⟩ <;> rintro rfl <;> rfl

/-- Changing the thread of each lane of a list. -/
theorem Group.th_foldl_modTh (g : Group) (ls : List Nat) (f : Nat → Thread → Thread) (hls : ls.Nodup)
    (hlen : ∀ l ∈ ls, l < g.threads.length) (k : Nat) :
    (ls.foldl (fun g l => g.modTh l (f l)) g).th k = if k ∈ ls then f k (g.th k) else g.th k := by
  induction ls generalizing g with
  | nil => rfl
  | cons l ls ih =>
    obtain ⟨hl, hls⟩ := List.nodup_cons.mp hls
    rw [List.foldl_cons, ih _ hls fun j hj => by simpa using hlen j (List.mem_cons_of_mem _ hj),
      Group.th_modTh _ _ _ _ (hlen l (List.mem_cons_self ..))]
    by_cases hk : k = l
    · subst hk; simp [hl]
    · simp [hk]

/-- Changing threads leaves the rest of the group. -/
theorem Group.foldl_modTh_eq (g : Group) (ls : List Nat) (f : Nat → Thread → Thread) :
    ls.foldl (fun g l => g.modTh l (f l)) g = { g with threads := (ls.foldl (fun g l => g.modTh l (f l)) g).threads } := by
  induction ls generalizing g with
  | nil => rfl
  | cons l ls ih => rw [List.foldl_cons, ih]; rfl

/-- R2P leaves the registers of a group. -/
theorem keptRegs_of_threads {c : Ctx} {g : Group} (hg : g = { c.grp with threads := g.threads })
    (hth : ∀ l, (g.th l).regs = (c.grp.th l).regs ∧ (g.th l).rpois = (c.grp.th l).rpois) : KeptRegs c g := by
  intro l r
  obtain ⟨hr, hp⟩ := hth l
  rw [Group.reg, Group.reg, Group.rpois, Group.rpois, hr, hp, hg]
  exact ⟨rfl, rfl⟩

/-- An instruction that gives each thread new predicates and moves on. -/
theorem answers_preds {s : State} {w : At} {n : Need} {c : Ctx} {ls : List Nat} (h : Issues s w n c ls) (v : Nat → BitVec 7) :
    (∃ g, groupAt (s.put c ((ls.foldl (fun g l => g.modTh l (fun t => { t with preds := v l })) c.grp).advance c.path c.low c.pc)) c =
        some g ∧ KeptRegs c g ∧ MovedOn c g ∧ ∀ l m, g.pred l m = if l ∈ ls ∧ m < 7 then (v l).getLsbD m else c.grp.pred l m) ∧
      (FarFromWrap s c.site → OnlyGroup s (s.put c ((ls.foldl (fun g l => g.modTh l (fun t => { t with preds := v l })) c.grp).advance
        c.path c.low c.pc)) c) := by
  obtain ⟨hnd, hlt⟩ := lanes_of_issues h
  have hf := fetches_of_issues h
  have hth := Group.th_foldl_modTh c.grp ls (fun l t => { t with preds := v l }) hnd fun l hl => (hlt l hl).2
  have heq := Group.foldl_modTh_eq c.grp ls fun l t => { t with preds := v l }
  generalize hg : ls.foldl (fun g l => g.modTh l (fun t => { t with preds := v l })) c.grp = g at hth heq ⊢
  have honly : c.grp.OnlyValues g := by
    rw [← hg]; exact Group.onlyValues_foldl (fun g l => g.onlyValues_modTh l _ fun _ => rfl) ls c.grp
  have hkept : KeptRegs c g := keptRegs_of_threads heq fun l => by rw [hth]; split <;> exact ⟨rfl, rfl⟩
  refine ⟨⟨_, groupAt_put_of_fetches hf _, fun l r => ?_, honly.movedOn (issueCtx_of_fetches hf), fun l m => ?_⟩,
    State.onlyGroup_put _ (site_lt_of_fetches hf)⟩
  · exact ⟨(g.reg_advance _ _ _ l r).trans (hkept l r).1, (g.rpois_advance _ _ _ l r).trans (hkept l r).2⟩
  · refine (g.pred_advance _ _ _ l m).trans ?_
    rw [Group.pred, Group.pred, hth]
    by_cases hl : l ∈ ls
    · rcases lt_trichotomy m 7 with hm | rfl | hm
      · simp [hl, hm, hm.ne]
      · simp
      · simp [hl, hm.ne', not_lt_of_gt hm, BitVec.getLsbD_of_ge _ _ hm.le]
    · simp [hl]

/-- How PLOP, R2P and VOTE use their fields (R122). -/
abbrev usePlop : RUse := ⟨.pred, .pred, .pred, .no, 4, false, false⟩

abbrev useR2p : RUse := ⟨.no, .reg, .no, .no, 1, true, false⟩

abbrev useVote : RUse := ⟨.reg, .no, .no, .pred, 1, false, false⟩

theorem execPlop_eq (w : At) (f : RForm) (s : State) : exec (.plop w f) s = runThread w s (usePlop.need f true) (fun c lanes =>
    s.put c (setpGroup f.d.toNat (fun l => plopOp f.mod.toNat (c.grp.pred l f.a.toNat) (c.grp.pred l f.b.toNat)) c lanes)) := rfl

theorem execRegToPred_eq (w : At) (f : RForm) (s : State) : exec (.regToPred w f) s = runThread w s (useR2p.need f true) (fun c lanes =>
    s.put c ((lanes.foldl (fun g l => g.modTh l (fun t => { t with preds := (ra c f l).setWidth 7 })) c.grp).advance
      c.path c.low c.pc)) := rfl

/-- The mask of the lanes of VOTE. -/
def voteMask (c : Ctx) (f : RForm) (ls : List Nat) : W32 :=
  ls.foldl (fun v l => if c.grp.pred l f.c.toNat then v ||| ((1 : W32) <<< l) else v) 0

theorem execVote_eq (w : At) (f : RForm) (s : State) : exec (.vote w f) s = runThread w s (useVote.need f true) (fun c lanes =>
    s.put c ((c.grp.write (regNo f.ud f.d.toNat) (lanes.map (fun l => (l, voteMask c f lanes, false)))).advance
      c.path c.low c.pc)) := rfl

/-- Settles O4: SEL and P2R compute a register, PLOP a predicate, R2P the predicates of a thread, VOTE the mask of its lanes. -/
theorem predicateMoves : Obligations.PredicateMoves := by
  unfold Obligations.PredicateMoves
  refine ⟨fun s w f c ls h => ?_, fun s w f c ls h => ?_, fun s w f c ls h => ?_, fun s w f c ls h => ?_, fun s w f c ls h => ?_⟩
  · exact runAlu_of_issues (op := fun c l x => if c.grp.pred l f.c.toNat then x.a else x.b) h fun _ _ => rfl
  · have hlegal := legal_of_issues h
    simp only [RUse.need, Use.ok, Bool.and_eq_true, decide_eq_true_eq] at hlegal
    obtain ⟨⟨⟨⟨⟨⟨⟨hd, -⟩, -⟩, -⟩, -⟩, hm⟩, -⟩, -⟩ := hlegal
    exact ⟨_, (execPlop_eq w f s).trans (runThread_of_issues _ h), predResult_of_issues h hd _ fun l _ => plopOp_spec hm _ _⟩
  · refine runAlu_of_issues (op := fun c l _ => ((1 : BitVec 1) ++ (c.grp.th l).preds).setWidth 32) h fun l _ =>
      ⟨fun i hi => getLsbD_p2r c.grp l hi, ?_⟩
    have := ((1 : BitVec 1) ++ (c.grp.th l).preds).isLt
    rw [BitVec.toNat_setWidth]; omega
  · obtain ⟨⟨g, hg, hregs, hmoved, hpred⟩, honly⟩ := answers_preds h fun l => (ra c f l).setWidth 7
    refine ⟨_, (execRegToPred_eq w f s).trans (runThread_of_issues _ h), ⟨g, hg, hregs, hmoved, fun l m => ?_⟩, honly⟩
    rw [hpred, BitVec.getLsbD_setWidth]
    by_cases hm : m < 7 <;> simp [hm]
  · refine ⟨_, (execVote_eq w f s).trans (runThread_of_issues _ h), result_of_issues h f.ud f.d _ _ fun _ _ l hl => ?_⟩
    rw [voteMask, getLsbD_voteMask _ _ _ hl]; simp

end Sys2Proof.Machine
end

section
/-! PROOF. FP32 instructions and conversions (R42, R71, R74, R122, R123), and the poison of results (R139). -/

namespace Sys2Proof.Machine

open Sys2Proof.Claims

/-! ## The value of each instruction -/

theorem forall_fpOps {P : (At → RForm → Instr) × (W32 → W32 → W32) → Prop}
    (h : ∀ (i : At → RForm → Instr) (op : W32 → W32 → W32),
      (∀ w f s, exec (i w f) s = runAlu w s f .dab (fun _ _ x => op x.a x.b)) → P (i, op)) : ∀ p ∈ fpOps, P p := by
  simp only [fpOps, List.forall_mem_cons]
  exact ⟨h _ _ fun _ _ _ => rfl, h _ _ fun _ _ _ => rfl, h _ _ fun _ _ _ => rfl, h _ _ fun _ _ _ => rfl, h _ _ fun _ _ _ => rfl,
    h _ _ fun _ _ _ => rfl, by simp⟩

theorem forall_fpUnaryOps {P : (At → RForm → Instr) × (W32 → W32) → Prop}
    (h : ∀ (i : At → RForm → Instr) (op : W32 → W32),
      (∀ w f s, exec (i w f) s = runAlu w s f .da (fun _ _ x => op x.a)) → P (i, op)) : ∀ p ∈ fpUnaryOps, P p := by
  simp only [fpUnaryOps, List.forall_mem_cons]
  exact ⟨h _ _ fun _ _ _ => rfl, h _ _ fun _ _ _ => rfl, h _ _ fun _ _ _ => rfl, h _ _ fun _ _ _ => rfl, h _ _ fun _ _ _ => rfl,
    h _ _ fun _ _ _ => rfl, h _ _ fun _ _ _ => rfl, h _ _ fun _ _ _ => rfl, by simp⟩

/-! ## NaN operands (R71, R123) -/

theorem isNanFV_iff {v : FV} : isNanFV v = true ↔ v = .nan := by cases v <;> simp [isNanFV]

@[simp] theorem addFV_nan_left (v : FV) : addFV .nan v = nan32 := by cases v <;> rfl

@[simp] theorem addFV_nan_right (v : FV) : addFV v .nan = nan32 := by cases v <;> rfl

@[simp] theorem mulFV_nan_left (v : FV) : mulFV .nan v = .nan := by cases v <;> rfl

@[simp] theorem mulFV_nan_right (v : FV) : mulFV v .nan = .nan := by cases v <;> rfl

/-- Every operation of two sources gives the canonical NaN where one of them is NaN. -/
theorem fpOps_nan {a b : W32} (h : dec32 a = .nan ∨ dec32 b = .nan) : ∀ p ∈ fpOps, p.2 a b = nan32 := by
  have hdiv : fdiv a b = nan32 := by
    rcases h with h | h
    · simp [fdiv, h]
    · cases ha : dec32 a <;> simp [fdiv, h, ha]
  simp only [fpOps, List.forall_mem_cons]
  refine ⟨?_, ?_, ?_, ?_, ?_, hdiv, by simp⟩ <;> rcases h with h | h <;>
    simp [fadd, fsub, fmul, fmin, fmax, h, negFV, encFV, isNanFV]

theorem ffma_nan {a b : W32} (c : W32) (h : dec32 a = .nan ∨ dec32 b = .nan) : ffma a b c = nan32 ∧ ffma c a b = nan32 := by
  rcases h with h | h <;> simp [ffma, h]

theorem fpUnaryOps_nan {a : W32} (h : dec32 a = .nan) : ∀ p ∈ fpUnaryOps, p.2 a = nan32 := by
  simp [fpUnaryOps, fsqrt, frcpOp, frsqOp, fexp2Op, flog2Op, fsinOp, fcosOp, ftanhOp, h]

/-! ## Sine and cosine beyond 2^16 (R122) -/

/-- The value of a normal FP32 pattern. -/
theorem dec32_normal (a : W32) (h0 : a.toNat % 2 ^ 31 / 2 ^ 23 ≠ 0) (h1 : a.toNat % 2 ^ 31 < infCode f32) :
    ∃ n, dec32 a = .fin n (2 ^ 23 + a.toNat % 2 ^ 31 % 2 ^ 23) ((a.toNat % 2 ^ 31 / 2 ^ 23 : Nat) - 150) := by
  refine ⟨decide (2 ^ 31 ≤ a.toNat % 2 ^ 32), ?_⟩
  have he : (-149 : Int) + ((a.toNat % 2 ^ 31 / 2 ^ 23 : Nat) : Int) - 1 = ((a.toNat % 2 ^ 31 / 2 ^ 23 : Nat) : Int) - 150 := by omega
  rw [← he, dec32, decIEEE]
  exact (if_neg h1.ne).trans ((if_neg h1.not_gt).trans (if_neg h0))

theorem bitLen_of_normal {t : Nat} (h : t < 2 ^ 23) : bitLen (2 ^ 23 + t) = 24 := by
  have hlog : Nat.log2 (2 ^ 23 + t) = 23 := (Nat.log2_eq_iff (by omega)).mpr ⟨by omega, by omega⟩
  rw [bitLen, if_neg (by omega), hlog]

/-- A value beyond 2^16 is not within it, and what is no finite value is beyond. -/
theorem not_within16 {a : W32} (h : 0x47800000 < a.toNat % 2 ^ 31) {n : Bool} {m : Nat} {e : Int} (hd : dec32 a = .fin n m e) :
    within16 m e = false := by
  rcases lt_or_ge (a.toNat % 2 ^ 31) (infCode f32) with hinf | hinf
  · obtain ⟨k, hk⟩ := dec32_normal a (by omega) hinf
    rw [hd] at hk
    injection hk with _ hm he
    subst hm he
    have hb := bitLen_of_normal (t := a.toNat % 2 ^ 31 % 2 ^ 23) (by omega)
    simp only [within16, floorLog2, hb, Bool.or_eq_false_iff, Bool.and_eq_false_iff, decide_eq_false_iff_not]
    omega
  · exfalso
    rw [dec32, decIEEE] at hd
    split at hd
    · cases hd
    · rename_i hne
      have hlt : infCode f32 < a.toNat % 2 ^ (f32.nb - 1) := lt_of_le_of_ne hinf (Ne.symm hne)
      rw [if_pos hlt] at hd
      cases hd

theorem fsin_fcos_beyond {a : W32} (h : 0x47800000 < a.toNat % 2 ^ 31) : fsinOp a = nan32 ∧ fcosOp a = nan32 := by
  cases hd : dec32 a with
  | nan => simp [fsinOp, fcosOp, hd]
  | inf n => simp [fsinOp, fcosOp, hd]
  | fin n m e => simp [fsinOp, fcosOp, hd, not_within16 h hd]

/-- Settles O7: each row computes its operation on the operands of each thread, and every operation carries NaN on. -/
theorem floatingPoint : Obligations.FloatingPoint := by
  unfold Obligations.FloatingPoint
  refine ⟨⟨fun s w f c ls h => ?_, fun s w f c ls h => ?_⟩, fun a b c h => ?_, fun a h => ?_, fun a m e h hm => ?_,
    fun a h => fsin_fcos_beyond h⟩
  · refine forall_fpOps fun i op hi => ?_
    rw [Answers, hi]
    exact runAlu_dab (P := fun a b r => r = op a b) h fun _ _ => rfl
  · refine forall_fpUnaryOps fun i op hi => ?_
    rw [Answers, hi]
    exact runAlu_da (P := fun a r => r = op a) h fun _ => rfl
  · simp only [isNanFV_iff] at h
    exact ⟨fpOps_nan h, ffma_nan c h⟩
  · exact fpUnaryOps_nan (isNanFV_iff.mp h)
  · simp [fsqrt, h, hm, nan32]

/-! ## Conversions -/

/-- A decoded code is read from its own bits alone. -/
theorem decIEEE_mod (f : Fmt) (x : Nat) : decIEEE f (x % 2 ^ f.nb) = decIEEE f x := by
  have hle : 2 ^ (f.nb - 1) ∣ 2 ^ f.nb := pow_dvd_pow 2 (Nat.sub_le ..)
  simp only [decIEEE, Nat.mod_mod, Nat.mod_mod_of_dvd _ hle]

theorem withSign_lt {f : Fmt} {n : Bool} {c : Nat} (hc : c < 2 ^ (f.nb - 1)) (h : f.nb ≠ 0) : withSign f n c < 2 ^ f.nb := by
  have hp : 2 ^ f.nb = 2 ^ (f.nb - 1) * 2 := by rw [← pow_succ]; congr 1; omega
  rw [withSign]; split <;> omega

theorem toBf16_lt (v : FV) : toBf16 v < 65536 := by
  cases v with
  | nan => decide
  | inf n => cases n <;> decide
  | fin n m e => exact withSign_lt (f := bf16) ((min_le_right _ _).trans_lt (by decide)) (by decide)

theorem toFp16_lt (v : FV) : toFp16 v < 65536 := by
  cases v with
  | nan => decide
  | inf n => cases n <;> decide
  | fin n m e => exact withSign_lt (f := fp16) ((min_le_right _ _).trans_lt (by decide)) (by decide)

theorem toFp8_lt (b : Bool) (v : FV) : (toFp8 b v).1 < 2 ^ 8 := by
  have key : ∀ f : Fmt, f.nb = 8 → ∀ n mx c, mx < 2 ^ 7 →
      (if mx < c then (withSign f n mx, true) else (withSign f n c, false)).1 < 2 ^ 8 := by
    intro f hf n mx c hmx
    split
    · exact hf ▸ withSign_lt (by rw [hf]; exact hmx) (by omega)
    · exact hf ▸ withSign_lt (by rw [hf]; omega) (by omega)
  cases v with
  | nan => exact show 0x7F < 2 ^ 8 by decide
  | inf n => cases b <;> cases n <;> decide
  | fin n m e => cases b <;> exact key _ rfl _ _ _ (by decide)

/-- The half of a word that MOD selects (R122). -/
theorem decIEEE_half {f : Fmt} (hf : f.nb = 16) (a : W32) {m : Nat} (hm : m < 2) :
    decIEEE f (a.toNat / 2 ^ (16 * m)) = decIEEE f (if m = 0 then a.toNat % 65536 else a.toNat / 65536) := by
  interval_cases m
  · rw [if_pos rfl, ← decIEEE_mod f, hf, Nat.mul_zero, pow_zero, Nat.div_one]; norm_num
  · rfl

/-- The byte of a word that MOD selects, in the format that it selects (R122). -/
theorem ofFp8_byte (a : W32) {m : BitVec 4} (hm : m.toNat < 8) :
    ofFp8 (m.getLsbD 2) (a.toNat / 2 ^ (8 * (m.toNat % 4)) % 256) =
      if m.toNat < 4 then decFin e4m3 true (getF (8 * m.toNat + 7) (8 * m.toNat) a)
      else decIEEE e5m2 (getF (8 * (m.toNat - 4) + 7) (8 * (m.toNat - 4)) a) := by
  have hbit : m.getLsbD 2 = decide (4 ≤ m.toNat) := by
    rw [BitVec.getLsbD, Nat.testBit_eq_decide_div_mod_eq, decide_eq_decide]; omega
  have hfld : ∀ k, getF (8 * k + 7) (8 * k) a = a.toNat / 2 ^ (8 * k) % 256 := fun k => by
    rw [getF, fld, show 8 * k + 7 + 1 - 8 * k = 8 by omega]; rfl
  rw [ofFp8, hbit, hfld, hfld]
  by_cases h : m.toNat < 4
  · rw [if_pos h, if_neg (by simpa using h), Nat.mod_eq_of_lt h]
  · rw [if_neg h, if_pos (by simpa using h), show m.toNat % 4 = m.toNat - 4 by omega]

theorem mod_lt_of_issues {s : State} {w : At} {c : Ctx} {ls : List Nat} {u : RUse} {f : RForm} {extra : Bool}
    (h : Issues s w (u.need f extra) c ls) : f.mod.toNat < u.mods := by
  have hlegal := legal_of_issues h
  simp only [RUse.need, Bool.and_eq_true, decide_eq_true_eq] at hlegal
  obtain ⟨⟨⟨-, hm⟩, -⟩, -⟩ := hlegal
  exact hm

/-- Each row of `convertOps` gives its value under every MOD that it defines. -/
theorem forall_convertOps {P : (At → RForm → Instr) × Nat × (Nat → W32 → W32) → Prop}
    (h : ∀ (i : At → RForm → Instr) (n : Nat) (op : RForm → W32 → W32) (Q : Nat → W32 → W32),
      (∀ w f s, exec (i w f) s = runAlu w s f (useA n) (fun _ _ x => op f x.a)) →
      (∀ (f : RForm) a, f.mod.toNat < n → op f a = Q f.mod.toNat a) → P (i, n, Q)) : ∀ p ∈ convertOps, P p := by
  simp only [convertOps, List.forall_mem_cons]
  exact ⟨h _ _ (fun f => cvtif (rndOf f.mod.toNat)) _ (fun _ _ _ => rfl) fun _ _ _ => rfl,
    h _ _ (fun f => cvtuf (rndOf f.mod.toNat)) _ (fun _ _ _ => rfl) fun _ _ _ => rfl,
    h _ _ (fun f => cvtfi (rndOf f.mod.toNat)) _ (fun _ _ _ => rfl) fun _ _ _ => rfl,
    h _ _ (fun f => cvtfu (rndOf f.mod.toNat)) _ (fun _ _ _ => rfl) fun _ _ _ => rfl,
    h _ _ (fun f a => encFV (decIEEE bf16 (a.toNat / 2 ^ (16 * f.mod.toNat)))) _ (fun _ _ _ => rfl)
      fun _ a hm => congrArg encFV (decIEEE_half rfl a hm),
    h _ _ (fun f a => encFV (decIEEE fp16 (a.toNat / 2 ^ (16 * f.mod.toNat)))) _ (fun _ _ _ => rfl)
      fun _ a hm => congrArg encFV (decIEEE_half rfl a hm),
    h _ _ (fun f a => encFV (ofFp8 (f.mod.getLsbD 2) (a.toNat / 2 ^ (8 * (f.mod.toNat % 4)) % 256))) _ (fun _ _ _ => rfl)
      fun _ a hm => congrArg encFV (ofFp8_byte a hm), by simp⟩

/-- Two halves of a word. -/
theorem pack_halves {x y : Nat} (hx : x < 65536) (hy : y < 65536) :
    (BitVec.ofNat 32 (x * 65536 + y)).toNat / 65536 = x ∧ (BitVec.ofNat 32 (x * 65536 + y)).toNat % 65536 = y := by
  rw [BitVec.toNat_ofNat, Nat.mod_eq_of_lt (by omega)]; omega

/-- The byte of D that CVTF8 writes, the others as they were. -/
def cvtf8Word (f : RForm) (a d : W32) : W32 :=
  setF (8 * (f.mod.toNat % 4) + 7) (8 * (f.mod.toNat % 4)) (toFp8 (f.mod.getLsbD 2) (dec32 a)).1 d

theorem execCvtf8_eq (w : At) (f : RForm) (s : State) : exec (.cvtf8 w f) s = runThread w s ((useA 8).need f true) (fun c lanes =>
    s.put c ((c.grp.write (regNo f.ud f.d.toNat) (lanes.map (fun l => (l, cvtf8Word f (ra c f l) (c.grp.reg l (regNo f.ud f.d.toNat)),
      ((useA 8).read f c.grp l).p || c.grp.rpois l (regNo f.ud f.d.toNat))))).advance c.path c.low c.pc)) := rfl

theorem getF_cvtf8Word (f : RForm) (a d : W32) (hm : f.mod.toNat < 8) {i : Nat} (hi : i < 4) :
    getF (8 * i + 7) (8 * i) (cvtf8Word f a d) =
      if i = f.mod.toNat % 4 then (toFp8 (decide (4 ≤ f.mod.toNat)) (dec32 a)).1 else getF (8 * i + 7) (8 * i) d := by
  have hbit : f.mod.getLsbD 2 = decide (4 ≤ f.mod.toNat) := by
    rw [BitVec.getLsbD, Nat.testBit_eq_decide_div_mod_eq, decide_eq_decide]; omega
  rw [cvtf8Word, hbit]
  split
  · rename_i h
    rw [← h, getF_setF _ _ _ _ (by omega), show 8 * i + 7 + 1 - 8 * i = 8 by omega, Nat.mod_eq_of_lt (toFp8_lt _ _)]
  · rename_i h
    exact getF_setF_of_disjoint _ _ _ _ _ _ (by omega) (by omega)

/-- Settles O8: each row gives its value for the MOD that issues; the packed halves and the replaced byte read back. -/
theorem conversions : Obligations.Conversions := by
  unfold Obligations.Conversions
  refine ⟨forall_convertOps fun i n op Q hi hQ s w f c ls h => ?_, fun s w f c ls h => ⟨?_, ?_⟩, fun s w f c ls h => ?_⟩
  · rw [Answers, hi]
    exact runAlu_of_issues h fun _ _ => hQ f _ (mod_lt_of_issues h)
  · exact runAlu_of_issues (op := fun _ _ x => BitVec.ofNat 32 (toBf16 (dec32 x.b) * 65536 + toBf16 (dec32 x.a))) h
      fun _ _ => pack_halves (toBf16_lt _) (toBf16_lt _)
  · exact runAlu_of_issues (op := fun _ _ x => BitVec.ofNat 32 (toFp16 (dec32 x.b) * 65536 + toFp16 (dec32 x.a))) h
      fun _ _ => pack_halves (toFp16_lt _) (toFp16_lt _)
  · exact ⟨_, (execCvtf8_eq w f s).trans (runThread_of_issues _ h), result_of_issues h f.ud f.d _ _ fun l _ i hi =>
      getF_cvtf8Word f _ _ (mod_lt_of_issues h) hi⟩

/-! ## Poison (R139) -/

/-- A destination register takes the mark of each lane, a uniform register the lowest thread's. -/
theorem rpois_write {g : Group} {ls : List Nat} (ud : Bool) (d : Nat) (v : Nat → W32) (p : Nat → Bool) (hd : d < 256) (hne : ls ≠ [])
    (hls : ls.Nodup) (hlen : ∀ l ∈ ls, l < g.threads.length) :
    (ud = false → d ≠ 255 → ∀ l ∈ ls, (g.write (regNo ud d) (ls.map (fun l => (l, v l, p l)))).rpois l d = p l) ∧
    (ud = true → ∀ l, (g.write (regNo ud d) (ls.map (fun l => (l, v l, p l)))).rpois l (256 + d) = p (ls.headD 0)) := by
  refine ⟨?_, ?_⟩ <;> rintro rfl
  · intro h255 l hl
    have hw : g.write (regNo false d) (ls.map (fun l => (l, v l, p l))) = ls.foldl (fun h l => h.setV l d (v l) (p l)) g := by
      simp only [Group.write, regNo, Bool.false_eq_true, if_false, if_neg (show ¬ 256 ≤ d by omega), List.foldl_map]
    rw [hw, (Group.reg_foldl_setV g d ls v p hd hls hlen l d).2, if_pos ⟨hl, rfl, h255⟩]
  · intro l
    obtain ⟨k, ls, rfl⟩ := List.exists_cons_of_ne_nil hne
    have hw : g.write (regNo true d) ((k :: ls).map (fun l => (l, v l, p l))) = g.setU d (v k) (p k) := by simp [Group.write, regNo]
    rw [hw, Group.rpois_setU, if_pos rfl]; rfl

/-- The result of two sources carries poison where one of them does. -/
theorem poison_runAlu_dab {s : State} {w : At} {f : RForm} {c : Ctx} {ls : List Nat} (h : Issues s w (RUse.dab.need f true) c ls)
    (op : Ctx → Nat → Src → W32) : ∃ t, runAlu w s f .dab op = .next t ∧ ∃ g, groupAt t c = some g ∧
      (f.ud = false → f.d.toNat ≠ 255 → ∀ l ∈ ls, (g.rpois l f.d.toNat = true ↔
        c.grp.rpois l (regNo f.ua f.a.toNat) = true ∨ c.grp.rpois l (regNo f.ub f.b.toNat) = true)) ∧
      (f.ud = true → ∀ l, (g.rpois l (256 + f.d.toNat) = true ↔
        c.grp.rpois (ls.headD 0) (regNo f.ua f.a.toNat) = true ∨ c.grp.rpois (ls.headD 0) (regNo f.ub f.b.toNat) = true)) := by
  obtain ⟨hnd, hlt⟩ := lanes_of_issues h
  obtain ⟨hv, hu⟩ := rpois_write (g := c.grp) f.ud f.d.toNat (fun l => op c l (RUse.dab.read f c.grp l))
    (fun l => (RUse.dab.read f c.grp l).p) f.d.isLt (ne_nil_of_issues h) hnd fun l hl => (hlt l hl).2
  have hp : ∀ l, (RUse.dab.read f c.grp l).p = true ↔
      c.grp.rpois l (regNo f.ua f.a.toNat) = true ∨ c.grp.rpois l (regNo f.ub f.b.toNat) = true := by
    intro l; simp [RUse.read, RUse.dab]
  refine ⟨_, runThread_of_issues _ h, _, groupAt_put_of_fetches (fetches_of_issues h) _, fun hud h255 l hl => ?_, fun hud l => ?_⟩
  · rw [← hp, ← hv hud h255 l hl]
    exact iff_of_eq (congrArg (· = true) (Group.rpois_advance _ _ _ _ l _))
  · rw [← hp, ← hu hud l]
    exact iff_of_eq (congrArg (· = true) (Group.rpois_advance _ _ _ _ l _))

/-- Settles O9: every such instruction is the shared operation of two sources, which marks its results so. -/
theorem poisonFollowsArithmetic : Obligations.PoisonFollowsArithmetic := by
  unfold Obligations.PoisonFollowsArithmetic
  intro s w f c ls h i hi
  have key : ∃ op, exec (i w f) s = runAlu w s f .dab op := by
    simp only [List.mem_append, List.mem_map] at hi
    rcases hi with (⟨p, hp, rfl⟩ | ⟨p, hp, rfl⟩) | hi
    · exact forall_integerOps (P := fun p => ∃ op, exec (p.1 w f) s = runAlu w s f .dab op) (fun i op Q he _ => ⟨_, he w f s⟩) p hp
    · exact forall_fpOps (P := fun p => ∃ op, exec (p.1 w f) s = runAlu w s f .dab op) (fun i op he => ⟨_, he w f s⟩) p hp
    · simp only [List.mem_cons, List.not_mem_nil, or_false] at hi
      rcases hi with rfl | rfl
      · exact ⟨_, rfl⟩
      · exact ⟨_, rfl⟩
  obtain ⟨op, hop⟩ := key
  rw [Answers, hop]
  exact poison_runAlu_dab h op

end Sys2Proof.Machine
end

section
/-! PROOF. S2R reads special values and latches high words (R128). -/

namespace Sys2Proof.Machine

open Sys2Proof.Claims

@[simp] theorem Group.threads_length_foldl_modTh (g : Group) (ls : List Nat) (f : Nat → Thread → Thread) :
    (ls.foldl (fun g l => g.modTh l (f l)) g).threads.length = g.threads.length := by
  induction ls generalizing g with
  | nil => rfl
  | cons l ls ih => rw [List.foldl_cons, ih, Group.threads_length_modTh]

/-- The high word that S2R latches, for the time or for the cycles. -/
def latchHi (n : Nat) (hi : W32) (t : Thread) : Thread := if n = 2 then { t with timeHi := hi } else { t with cycHi := hi }

/-- The group of S2R before the path moves on: the high words of numbers 2 and 4 are latched in the lanes. -/
def latched (n : Nat) (hi : W32) (ls : List Nat) (g : Group) : Group :=
  if n = 2 ∨ n = 4 then ls.foldl (fun g l => g.modTh l (latchHi n hi)) g else g

theorem latched_eq (n : Nat) (hi : W32) (ls : List Nat) (g : Group) :
    latched n hi ls g = { g with threads := (latched n hi ls g).threads } := by
  rw [latched]; split
  · exact Group.foldl_modTh_eq g ls fun _ => latchHi n hi
  · rfl

theorem threads_length_latched (n : Nat) (hi : W32) (ls : List Nat) (g : Group) :
    (latched n hi ls g).threads.length = g.threads.length := by
  rw [latched]; split
  · exact g.threads_length_foldl_modTh ls fun _ => latchHi n hi
  · rfl

theorem th_latched {n : Nat} (hi : W32) {ls : List Nat} {g : Group} (hls : ls.Nodup) (hlen : ∀ l ∈ ls, l < g.threads.length) (k : Nat) :
    (latched n hi ls g).th k = { g.th k with
      timeHi := if n = 2 ∧ k ∈ ls then hi else (g.th k).timeHi
      cycHi := if n = 4 ∧ k ∈ ls then hi else (g.th k).cycHi } := by
  have hth := Group.th_foldl_modTh g ls (fun _ => latchHi n hi) hls hlen k
  by_cases h2 : n = 2
  · subst h2
    rw [latched, if_pos (.inl rfl), hth]
    by_cases hk : k ∈ ls <;> simp [hk, latchHi]
  · by_cases h4 : n = 4
    · subst h4
      rw [latched, if_pos (.inr rfl), hth]
      by_cases hk : k ∈ ls <;> simp [hk, latchHi]
    · simp [latched, h2, h4]

/-- How S2R uses its fields (R128). -/
abbrev useS2r : RUse := ⟨.reg, .raw, .no, .no, 1, false, false⟩

/-- The high word that goes with the low one of number 2 or 4. -/
def highWord (s : State) (c : Ctx) (n : Nat) : W32 :=
  if n = 2 then BitVec.ofNat 32 (s.timeOf (siteStack c.site) / 2 ^ 32) else s.rg (.cntCore c.site) 0x004

theorem latched_eq_ite (n : Nat) (hi : W32) (ls : List Nat) (g : Group) : latched n hi ls g =
    if n = 2 then ls.foldl (fun h l => h.modTh l (fun t => { t with timeHi := hi })) g
    else if n = 4 then ls.foldl (fun h l => h.modTh l (fun t => { t with cycHi := hi })) g else g := by
  by_cases h2 : n = 2
  · subst h2; rfl
  · by_cases h4 : n = 4
    · subst h4; rfl
    · simp [latched, h2, h4]

theorem execS2r_eq (w : At) (f : RForm) (s : State) : exec (.s2r w f) s = runThread w s (useS2r.need f (decide (f.a.toNat ≤ 8)))
    (fun c lanes => s.put c ((latched f.a.toNat (highWord s c f.a.toNat) lanes (c.grp.write (regNo f.ud f.d.toNat)
      (lanes.map (fun l => (l, special s c c.grp l f.a.toNat, false))))).advance c.path c.low c.pc)) := by
  simp only [latched_eq_ite]
  rfl

/-- What O6 asks of the value that a thread takes. -/
def SpecialValue (s : State) (site : Nat) (c : Ctx) (n l : Nat) (r : W32) : Prop :=
  (n = 0 → r.toNat = l) ∧ (n = 1 → r.toNat = site) ∧ (n = 2 → r.toNat = s.timeOf (siteStack site) % 2 ^ 32) ∧
  (n = 3 → r = (c.grp.th l).timeHi) ∧ (n = 4 → r = s.rg (.cntCore site) 0x000) ∧ (n = 5 → r = (c.grp.th l).cycHi) ∧
  (n = 6 → ∀ k < 32, r.getLsbD k = true ↔ k ∈ c.path) ∧ (n = 7 → r.toNat = c.cmd.part % 2 ^ 32) ∧
  (n = 8 → r.toNat = (c.pc + 1) % 2 ^ 32)

theorem specialValue_special (s : State) (c : Ctx) {l n : Nat} (hsite : c.site < 4096) (hl : l < 32) (hn : n ≤ 8) :
    SpecialValue s c.site c n l (special s c c.grp l n) := by
  unfold SpecialValue
  interval_cases n <;> simp [special]
  · omega
  · omega
  · intro k hk
    have := getLsbD_voteMask (fun _ => true) c.path 0 hk
    simpa using this

/-- A group whose threads differ from those of another beside indices, latched words and the choice of the path reads the same
registers and predicates. -/
theorem reads_of_threads {g h : Group} (hu : h.uregs = g.uregs) (hp : h.upois = g.upois)
    (hth : ∀ k, (h.th k).regs = (g.th k).regs ∧ (h.th k).rpois = (g.th k).rpois ∧ (h.th k).preds = (g.th k).preds) (l r : Nat) :
    h.reg l r = g.reg l r ∧ h.rpois l r = g.rpois l r ∧ h.pred l r = g.pred l r := by
  obtain ⟨hr, hq, hpr⟩ := hth l
  simp only [Group.reg, Group.rpois, Group.pred, hu, hp, hr, hq, hpr, and_self]

/-- Settles O6: every thread takes its special value, and numbers 2 and 4 latch the high word that belongs to it. -/
theorem specialValues : Obligations.SpecialValues := by
  unfold Obligations.SpecialValues
  intro s w f c ls h
  have hf := fetches_of_issues h
  obtain ⟨hsite, -⟩ := State.issueCtx_eq (issueCtx_of_fetches hf)
  obtain ⟨hnd, hlt⟩ := lanes_of_issues h
  have hn : f.a.toNat ≤ 8 := by
    have hlegal := legal_of_issues h
    simp only [RUse.need, Bool.and_eq_true, decide_eq_true_eq] at hlegal
    exact hlegal.2
  rw [← hsite]
  have hwrote := wrote_write (c := c) f.ud f.d.toNat (fun l => special s c c.grp l f.a.toNat) (fun _ => false) f.d.isLt
    (ne_nil_of_issues h) hnd (fun l hl => (hlt l hl).2) (ok := SpecialValue s c.site c f.a.toNat)
    fun l hl => specialValue_special s c (site_lt_of_fetches hf) (hlt l hl).1 hn
  have hkept := keptPreds_write c (regNo f.ud f.d.toNat) (ls.map fun l => (l, special s c c.grp l f.a.toNat, false))
  have honly := c.grp.onlyValues_write (regNo f.ud f.d.toNat) (ls.map fun l => (l, special s c c.grp l f.a.toNat, false))
  refine ⟨_, (execS2r_eq w f s).trans (runThread_of_issues _ h), ?_⟩
  generalize c.grp.write (regNo f.ud f.d.toNat) (ls.map fun l => (l, special s c c.grp l f.a.toNat, false)) = g at hwrote hkept honly ⊢
  obtain ⟨-, hlen, hth⟩ := honly
  have hlat := th_latched (n := f.a.toNat) (highWord s c f.a.toNat) (g := g) hnd fun l hl => hlen ▸ (hlt l hl).2
  have hleng := threads_length_latched f.a.toNat (highWord s c f.a.toNat) ls g
  have hlate := latched_eq f.a.toNat (highWord s c f.a.toNat) ls g
  generalize latched f.a.toNat (highWord s c f.a.toNat) ls g = g' at hlat hleng hlate ⊢
  have hadv : ∀ k, (Group.th { g'.advance c.path c.low c.pc with bpSkip := false } k) =
      if k ∈ c.path ∧ k < g'.threads.length then { g'.th k with pc := c.pc + 1 } else g'.th k := g'.th_advance _ _ _
  have hreads := reads_of_threads (g := g) (h := { g'.advance c.path c.low c.pc with bpSkip := false })
    ((g'.uregs_advance _ _ _).trans (by rw [hlate])) ((g'.upois_advance _ _ _).trans (by rw [hlate]))
    fun k => by rw [hadv]; split <;> rw [hlat] <;> exact ⟨rfl, rfl, rfl⟩
  refine ⟨_, groupAt_put_of_fetches hf _, fun l m => (hreads l m).2.2.trans (hkept l m), fun l hl => ?_, ?_, fun l => ?_, fun l => ?_⟩
  · rw [hadv, if_pos ⟨hl, by rw [hleng, hlen]; exact lt_length_of_mem_path (issueCtx_of_fetches hf) hl⟩]
  · obtain ⟨h1, h2, h3⟩ := hwrote
    refine ⟨fun hu hd l hl => ?_, fun hu l => ?_, fun l r hr => ?_⟩
    · rw [(hreads l _).1]; exact h1 hu hd l hl
    · rw [(hreads l _).1]; exact h2 hu l
    · rw [(hreads l _).1, (hreads l _).2.1]; exact h3 l r hr
  · have : (g'.th l).timeHi = _ := congrArg Thread.timeHi (hlat l)
    rw [hadv, apply_ite Thread.timeHi, ite_self, this, hth l]
    by_cases h2 : f.a.toNat = 2 <;> simp [h2, highWord]
  · have : (g'.th l).cycHi = _ := congrArg Thread.cycHi (hlat l)
    rw [hadv, apply_ite Thread.cycHi, ite_self, this, hth l]
    by_cases h4 : f.a.toNat = 4 <;> simp [h4, highWord]

end Sys2Proof.Machine
end

section
/-! PROOF. What every thread instruction does alike: the guard, reserved bits, and the end of the code (R99, R120, R124, R141). -/

namespace Sys2Proof.Machine

open Sys2Proof.Claims

/-! ## Every thread instruction is an issue under its guard -/

/-- An issue under a guard, to which reserved bits are a broken field (R120). -/
def Guarded (s : State) (w : At) (pg : BitVec 3) (pn : Bool) (rsv : Nat) (o : Out) : Prop :=
  ∃ n body, o = runThread w s n body ∧ n.pg = pg ∧ n.pn = pn ∧ (rsv ≠ 0 → n.legal = false)

section Guards

variable (s : State) (w : At)

theorem ne_zero_of_toNat {n : Nat} {b : BitVec n} (h : b.toNat ≠ 0) : b ≠ 0#n :=
  fun hb => h (by rw [hb]; rfl)

theorem guarded_r (f : RForm) (u : RUse) (extra : Bool) (body : Ctx → List Nat → State) :
    Guarded s w f.pg f.pn f.rsv.toNat (runThread w s (u.need f extra) body) :=
  ⟨_, _, rfl, rfl, rfl, fun h => by simp [RUse.need, ne_zero_of_toNat h]⟩

theorem guarded_i (f : IForm) (a : Bool) (u : Use) (extra eat : Bool) (body : Ctx → List Nat → State) :
    Guarded s w f.pg f.pn f.rsv.toNat (runThread w s (iNeed f a u extra eat) body) :=
  ⟨_, _, rfl, rfl, rfl, fun h => by simp [iNeed, ne_zero_of_toNat h]⟩

theorem guarded_s (f : SForm) (a modOk immOk eat : Bool) (body : Ctx → List Nat → State) :
    Guarded s w f.pg f.pn f.rsv.toNat (runThread w s (sNeed f a modOk immOk eat) body) :=
  ⟨_, _, rfl, rfl, rfl, fun h => by simp [sNeed, ne_zero_of_toNat h]⟩

theorem guarded_t (f : TForm) (n step : Nat) (modOk immOk : Bool) (body : Ctx → List Nat → State) :
    Guarded s w f.pg f.pn f.rsv.toNat (runThread w s (tNeed f n step modOk immOk) body) :=
  ⟨_, _, rfl, rfl, rfl, fun h => by simp [tNeed, ne_zero_of_toNat h]⟩

theorem guarded_b (f : BForm) (extra : Bool) (regs eats : List Nat) (body : Ctx → List Nat → State) :
    Guarded s w f.pg f.pn f.rsv.toNat (runThread w s ⟨f.pg, f.pn, decide (f.rsv = 0) && extra, regs, eats⟩ body) :=
  ⟨_, _, rfl, rfl, rfl, fun h => by simp [ne_zero_of_toNat h]⟩

theorem baseOk_of_rsv {f : MForm} (h : f.rsv.toNat ≠ 0) : f.baseOk = false := by
  simp [MForm.baseOk, ne_zero_of_toNat h]

theorem guarded_runAlu (f : RForm) (u : RUse) (op : Ctx → Nat → Src → W32) : Guarded s w f.pg f.pn f.rsv.toNat (runAlu w s f u op) := by
  unfold runAlu; exact guarded_r ..

theorem guarded_runSetp (f : RForm) (limit : Nat) (cond : Nat → W32 → W32 → Bool) :
    Guarded s w f.pg f.pn f.rsv.toNat (runSetp w s f limit cond) := by
  unfold runSetp; exact guarded_r ..

theorem guarded_runImm (f : IForm) (a : Bool) (op : W32 → W32 → W32) : Guarded s w f.pg f.pn f.rsv.toNat (runImm w s f a op) := by
  unfold runImm; exact guarded_i ..

theorem guarded_runSetpI (f : IForm) (limit : Nat) (cond : Nat → W32 → W32 → Bool) :
    Guarded s w f.pg f.pn f.rsv.toNat (runSetpI w s f limit cond) := by
  unfold runSetpI; exact guarded_i ..

theorem guarded_runMem {f : MForm} {n : Need} (hg : n.pg = f.pg ∧ n.pn = f.pn) (hl : f.baseOk = false → n.legal = false)
    (space ra : Nat) (off : Int) (size : Nat) (body : State → Ctx → List (Nat × Nat × Nat) → State) :
    Guarded s w f.pg f.pn f.rsv.toNat (runMem w s n space ra off size body) := by
  unfold runMem; exact ⟨_, _, rfl, hg.1, hg.2, fun h => hl (baseOk_of_rsv h)⟩

theorem guarded_load (f : MForm) (space ra : Nat) (off : Int) (size : Nat) (body : State → Ctx → List (Nat × Nat × Nat) → State) :
    Guarded s w f.pg f.pn f.rsv.toNat (runMem w s (loadNeed f) space ra off size body) :=
  guarded_runMem s w ⟨rfl, rfl⟩ (fun h => by simp [loadNeed, h]) ..

theorem guarded_store (f : MForm) (space ra : Nat) (off : Int) (size : Nat) (body : State → Ctx → List (Nat × Nat × Nat) → State) :
    Guarded s w f.pg f.pn f.rsv.toNat (runMem w s (storeNeed f) space ra off size body) :=
  guarded_runMem s w ⟨rfl, rfl⟩ (fun h => by simp [storeNeed, h]) ..

theorem guarded_atomic (f : MForm) (op : Nat) (cas wide : Bool) : Guarded s w f.pg f.pn f.rsv.toNat (runAtomic w s f op cas wide) := by
  unfold runAtomic; exact guarded_runMem s w ⟨rfl, rfl⟩ (fun h => by simp [atomicNeed, h]) ..

theorem guarded_reduce (f : MForm) (op : Nat) : Guarded s w f.pg f.pn f.rsv.toNat (runReduce w s f op) := by
  unfold runReduce; exact guarded_runMem s w ⟨rfl, rfl⟩ (fun h => by simp [reduceNeed, h]) ..

end Guards

/-- Each of them issues so (R119, R120). -/
theorem guarded_of_guardOf {i : Instr} {w : At} {pg : BitVec 3} {pn : Bool} {rsv : Nat} (h : guardOf i = some (w, pg, pn, rsv))
    (s : State) : Guarded s w pg pn rsv (exec i s) := by
  cases i with
  | iadd w f | isub w f | imul w f | imulh w f | imulhu w f | imad w f | imin w f | imax w f | iminu w f | imaxu w f
  | iabs w f | idiv w f | idivu w f | irem w f | iremu w f | and w f | or w f | xor w f | shl w f | shr w f | sar w f
  | popc w f | clz w f | brev w f | sel w f | mov w f | p2r w f | fadd w f | fsub w f | fmul w f | ffma w f | fmin w f
  | fmax w f | fabs w f | fneg w f | fdiv w f | fsqrt w f | frcp w f | frsq w f | fexp2 w f | flog2 w f | fsin w f
  | fcos w f | ftanh w f | cvtif w f | cvtuf w f | cvtfi w f | cvtfu w f | cvtfb w f | cvtbf w f | cvtfh w f | cvthf w f
  | cvt8f w f => cases h; exact guarded_runAlu ..
  | isetp w f | isetpu w f | fsetp w f => cases h; exact guarded_runSetp ..
  | aadd w f | amin w f | amax w f | aminu w f | amaxu w f | aand w f | aor w f | axor w f | axchg w f | acas w f
  | afadd w f => cases h; exact guarded_atomic ..
  | raddI32 w f | raddF32 w f | raddBf16 w f | rmaxI32 w f | rminI32 w f | rmaxF32 w f | rminF32 w f | rmaxBf16 w f
  | rminBf16 w f => cases h; exact guarded_reduce ..
  | movi w f | iaddi w f | imuli w f | andi w f | ori w f | xori w f | shli w f | shri w f | sari w f | faddi w f
  | fmuli w f => cases h; exact guarded_runImm ..
  | isetpi w f | isetpui w f | fsetpi w f => cases h; exact guarded_runSetpI ..
  | nop w f => cases h; rw [exec, execNop, plainNeed]; exact guarded_s ..
  | bra w f =>
    cases h; rw [exec, execBra]; exact ⟨_, _, rfl, rfl, rfl, fun h => decide_eq_false (ne_zero_of_toNat h)⟩
  | brx w f => cases h; rw [exec, execBrx]; exact guarded_b ..
  | merge w f => cases h; rw [exec, execMerge, plainNeed]; exact guarded_s ..
  | exit w f => cases h; rw [exec, execExit, plainNeed]; exact guarded_s ..
  | spin w f => cases h; rw [exec, execSpin, plainNeed]; exact guarded_s ..
  | trap w f => cases h; rw [exec, execTrap]; exact guarded_s ..
  | s2r w f => cases h; rw [exec, execS2r]; exact guarded_r ..
  | plop w f => cases h; rw [exec, execPlop]; exact guarded_r ..
  | regToPred w f => cases h; rw [exec, execRegToPred]; exact guarded_r ..
  | cvtf8 w f => cases h; rw [exec, execCvtf8]; exact guarded_r ..
  | shfl w f => cases h; rw [exec, execShfl]; exact guarded_r ..
  | vote w f => cases h; rw [exec, execVote]; exact guarded_r ..
  | ld w f => cases h; rw [exec, execLd]; exact guarded_load ..
  | st w f => cases h; rw [exec, execSt]; exact guarded_store ..
  | ldnc w f => cases h; rw [exec, execLdnc]; exact guarded_load ..
  | barg w f => cases h; rw [exec, execBarg]; exact guarded_s ..
  | barb w f => cases h; rw [exec, execBarb]; exact guarded_s ..
  | fence w f => cases h; rw [exec, execFence]; exact guarded_s ..
  | tile w f => cases h; rw [exec, execTile]; exact guarded_t ..
  | twait w f => cases h; rw [exec, execTwait]; exact guarded_t ..
  | espld w f => cases h; rw [exec, execEspld]; exact guarded_t ..
  | dma w f => cases h; rw [exec, execDma]; exact guarded_t ..
  | dwait w f => cases h; rw [exec, execDwait]; exact guarded_t ..
  | _ => cases h

/-! ## Failed guards -/

theorem lanes_eq_nil {c : Ctx} {pg : BitVec 3} {pn : Bool} (h : ∀ l ∈ c.path, c.grp.pred l pg.toNat = pn) : c.lanes pg pn = [] := by
  rw [Ctx.lanes, List.filter_eq_nil_iff]
  intro l hl; simp [h l hl]

/-- The path moves on, and nothing else happens (R102). -/
theorem onlyMoved_put {s : State} {w : At} {c : Ctx} (h : Fetches s w c) : OnlyMoved s (s.put c (c.grp.advance c.path c.low c.pc)) c :=
  ⟨⟨_, groupAt_put_of_fetches h _, fun l r => ⟨c.grp.reg_advance _ _ _ l r, c.grp.rpois_advance _ _ _ l r⟩,
      fun l n => c.grp.pred_advance _ _ _ l n, (Group.OnlyValues.refl c.grp).movedOn (issueCtx_of_fetches h)⟩,
    State.onlyGroup_put _ (site_lt_of_fetches h)⟩

/-- Settles O10: with no lane left, all that the shared operation does is wait for a register or move the path on. -/
theorem failedGuardHasNoEffect : Obligations.FailedGuardHasNoEffect := by
  unfold Obligations.FailedGuardHasNoEffect
  intro i w pg pn rsv s c hi hf hpath
  obtain ⟨n, body, hexec, rfl, rfl, -⟩ := guarded_of_guardOf hi s
  have hl := lanes_eq_nil hpath
  refine ⟨fun hw => ⟨_, hexec.trans (runThread_of_no_lane n body hf (by simp [hw]) hl), onlyMoved_put hf⟩, ?_⟩
  have hrun := runThread_of_fetches n body hf
  rw [hl] at hrun
  split at hrun
  · exact .inl (hexec.trans hrun)
  · exact .inr ⟨_, hexec.trans hrun, onlyMoved_put hf⟩

/-! ## Exceptions at issue -/

/-- An exception stops the group and ends the command, whether or not the instruction could be fetched (R140, R453). -/
theorem excepts_raise_of_issueCtx {s : State} {w : At} {c : Ctx} (hlt : w.site < s.sites) (h : s.issueCtx w = some c)
    (code lane trap : Nat) : Excepts s (s.raise c code lane trap) c code lane trap := by
  obtain ⟨hsite, hslot, -, hgrp, -, hcmd, hmay, -⟩ := State.issueCtx_eq h
  have hgrp := State.groups_stoppedAt (s := s) (c := c) (by rw [hsite, hslot]; exact hgrp)
  have hcid := State.cmd?_cid hcmd
  have hcmd : (s.stoppedAt c).cmd? c.cmd.cid = some c.cmd := by rw [State.cmd?_congr (s.cmds_stoppedAt c), hcid, hcmd]
  have hstop : ∀ u : State, (u.core c.site).groups = ((s.stoppedAt c).core c.site).groups →
      ∃ g, groupAt u c = some g ∧ g.stopped = true ∧ g.threads = c.grp.threads ∧ g.uregs = c.grp.uregs :=
    fun u hu => ⟨_, (congrArg (mfind · c.slot) hu).trans hgrp, rfl, rfl, rfl⟩
  rw [State.raise_eq]
  generalize hd : (⟨1, code, c.site, c.slot, c.grp.blk, lane, c.pc, 0xFF, trap, s.timeOf (siteStack c.site)⟩ : Detail) = d
  rw [Excepts, hd, Named, ← hcid]
  rcases State.phase_of_mayIssue hmay with hrun | ⟨hend, old, hold⟩
  · rw [State.endCmd_of_running d hcmd hrun]
    refine ⟨hstop _ (State.groups_excepted ..), ⟨_, State.cmd?_excepted d hcmd, rfl, ?_⟩, fun hfar _ => ?_⟩
    · rw [if_pos (.inl hrun)]; exact ⟨rfl, rfl⟩
    · rw [State.mem_excepted, State.poison_excepted]
      exact State.mem_stoppedAt (hsite ▸ hlt.trans_le s.sites_le) hfar
  · have hnot : c.cmd.phase ≠ .running := by rw [hend]; decide
    rw [State.endCmd_of_ending d hcmd hend hold]
    split
    · rename_i hbefore
      refine ⟨hstop _ ?_, ⟨_, State.cmd?_excepted d ?_, rfl, ?_⟩, fun _ hrun => absurd hrun hnot⟩
      · rw [State.groups_excepted, State.core_congr (State.cores_unreported ..)]
      · rw [State.cmd?_congr (State.cmds_unreported ..), hcmd]
      · rw [if_pos (.inr ⟨old, hold, hbefore⟩)]; exact ⟨rfl, rfl⟩
    · rename_i hbefore
      refine ⟨hstop _ ?_, ⟨c.cmd, ?_, hend, ?_⟩, fun _ hrun => absurd hrun hnot⟩
      · rw [State.core_congr (State.cores_unreported ..)]
      · rw [State.cmd?_congr (State.cmds_unreported ..), hcmd]
      · rw [if_neg]
        · exact ⟨rfl, rfl⟩
        · rintro (hrun | ⟨o, ho, hb⟩)
          · exact hnot hrun
          · rw [hold] at ho; obtain rfl := Option.some.inj ho; exact hbefore hb

/-- Settles O11: a reserved bit is a broken field, and the end of the code comes before the guard. -/
theorem issueExceptions : Obligations.IssueExceptions := by
  unfold Obligations.IssueExceptions
  refine ⟨fun i w pg pn rsv s c l hi hf hr hl => ?_, fun i w pg pn rsv s c hi hsite hslot hctx hbp hend => ?_⟩
  · obtain ⟨n, body, hexec, rfl, rfl, hlegal⟩ := guarded_of_guardOf hi s
    rw [Answers, hexec]
    exact runThread_excepts body hf hl (hlegal hr)
  · obtain ⟨n, body, hexec, -⟩ := guarded_of_guardOf hi s
    exact ⟨_, hexec.trans (runThread_beyond_code n body hsite hslot hctx hbp hend), excepts_raise_of_issueCtx hsite hctx ..⟩

end Sys2Proof.Machine
end

section
/-! PROOF. The machine right after reset (R10). -/

namespace Sys2Proof.Machine

open Sys2Proof.Claims

/-- The array block of a site is found at the site's own 4 KiB (R183). -/
theorem locate_arr {i o : Nat} (hi : i < 0x1000) (ho : o < 0x400) : locate (i * 0x1000 + o) = some (.arr i, o) := by
  have h1 : (i * 0x1000 + o) / 0x1000 = i := by omega
  have h2 : (i * 0x1000 + o) % 0x1000 = o := by omega
  rw [locate, if_pos (by omega), h1, h2, if_pos ho]

/-- ARR_FILLER reads 0x30 after reset at every site (R65). -/
theorem rg_reset_filler {i : Nat} (hi : i < 0x1000) : State.reset.rg (.arr i) 0x004 = 0x30#32 := by
  rw [State.rg_reset, regReset, fieldsAt, Blk.base, locate_arr hi (by omega)]
  exact show resetOf (arrFields 4) = 0x30#32 by decide

/-- Settles O57: the lists are empty by definition, and each register reads its table's reset word. -/
theorem resetState : Obligations.ResetState := by
  unfold Obligations.ResetState
  refine ⟨rfl, rfl, rfl, rfl, rfl, rfl, by decide, by decide, by decide, by decide, fun _ => rfl, State.rg_reset,
    fun i hi => rg_reset_filler (by omega), by decide, by decide, State.memOk_reset.1, State.memOk_reset.2.1⟩

end Sys2Proof.Machine
end

section
/-! PROOF. What every operation keeps (O56, O59, O60): the relation, registers, memory, counters and trace. -/

namespace Sys2Proof.Machine.State

/-- What a command leaves whatever it does: the queue, the part as made, and memory in canonical form. -/
structure Holds (s t : State) : Prop where
  pending : t.pending = s.pending
  part : t.part = s.part
  memOk : s.MemOk → t.MemOk

/-- What almost every operation leaves: what `Holds` says, and device time. -/
structure Keeps (s t : State) : Prop extends Holds s t where
  time : t.time = s.time

/-- An outcome whose next state, where there is one, keeps what `Keeps` says. -/
def Goes (s : State) : Out → Prop
  | .next t => s.Keeps t
  | _ => True

/-- An outcome whose next state, where there is one, keeps what `Holds` says. -/
def Ends (s : State) : Out → Prop
  | .next t => s.Holds t
  | _ => True

/-- The fields of a state that `Keeps` speaks of. -/
def kept (s : State) : List Instr × Part × Time × List Host.Cell × List Host.Cell × List Nat :=
  (s.pending, s.part, s.time, s.mem, s.hmem, s.poison)

/-- The fields of a state that `Keeps` speaks of, but for memory. -/
def keptBut (s : State) : List Instr × Part × Time := (s.pending, s.part, s.time)

theorem Goes.next {s t : State} {o : Out} (h : s.Goes o) (e : o = .next t) : s.Keeps t := by subst e; exact h

theorem Goes.ite {s : State} {p : Prop} [Decidable p] {o o' : Out} (h : s.Goes o) (h' : s.Goes o') :
    s.Goes (if p then o else o') := by split <;> assumption

theorem Goes.ends {s : State} {o : Out} (h : s.Goes o) : s.Ends o := by
  cases o with
  | next t => exact h.toHolds
  | _ => trivial

theorem Ends.next {s t : State} {o : Out} (h : s.Ends o) (e : o = .next t) : s.Holds t := by subst e; exact h

theorem Ends.ite {s : State} {p : Prop} [Decidable p] {o o' : Out} (h : s.Ends o) (h' : s.Ends o') :
    s.Ends (if p then o else o') := by split <;> assumption

theorem Holds.ite {s : State} {p : Prop} [Decidable p] {t u : State} (h : s.Holds t) (h' : s.Holds u) :
    s.Holds (if p then t else u) := by split <;> assumption

theorem Keeps.refl (s : State) : s.Keeps s := ⟨⟨rfl, rfl, id⟩, rfl⟩

theorem Keeps.trans {s t u : State} (h : s.Keeps t) (h' : t.Keeps u) : s.Keeps u :=
  ⟨⟨h'.pending.trans h.pending, h'.part.trans h.part, h'.memOk ∘ h.memOk⟩, h'.time.trans h.time⟩

theorem Holds.trans {s t u : State} (h : s.Holds t) (h' : t.Holds u) : s.Holds u :=
  ⟨h'.pending.trans h.pending, h'.part.trans h.part, h'.memOk ∘ h.memOk⟩

theorem Holds.foldl {α : Type} {s : State} {f : State → α → State} (hf : ∀ t x, s.Holds t → s.Holds (f t x)) (l : List α)
    {t : State} (h : s.Holds t) : s.Holds (l.foldl f t) := by
  induction l generalizing t with
  | nil => exact h
  | cons x l ih => exact ih (hf t x h)

/-- A record update of device time. -/
theorem Holds.updateTime {s t : State} (h : s.Holds t) {time} : s.Holds { t with time := time } :=
  h.trans ⟨rfl, rfl, fun hm => hm.of_eq rfl rfl rfl⟩

theorem Keeps.memory {s t u : State} (h : s.Keeps t) (hm : t.MemOk → u.MemOk) (e : u.keptBut = t.keptBut) : s.Keeps u := by
  simp only [keptBut, Prod.mk.injEq] at e
  obtain ⟨e1, e2, e3⟩ := e
  exact h.trans ⟨⟨e1, e2, hm⟩, e3⟩

theorem Keeps.same {s t u : State} (h : s.Keeps t) (e : u.kept = t.kept) : s.Keeps u := by
  simp only [kept, Prod.mk.injEq] at e
  obtain ⟨e1, e2, e3, e4, e5, e6⟩ := e
  exact h.trans ⟨⟨e1, e2, fun hm => hm.of_eq e4 e5 e6⟩, e3⟩

/-- Whatever fields a record update sets, but for the kept ones. -/
theorem Keeps.update {s t : State} (h : s.Keeps t) {flash health pins boot regs latches granules cores roster halves mifs net host
    cmds nextCid parts fab power therm lostRecs dbg mgmt recoveredCnt unrecoveredCnt drawn} :
    s.Keeps { t with
      flash := flash, health := health, pins := pins, boot := boot, regs := regs, latches := latches, granules := granules
      cores := cores, roster := roster, halves := halves, mifs := mifs, net := net, host := host, cmds := cmds, nextCid := nextCid
      parts := parts, fab := fab, power := power, therm := therm, lostRecs := lostRecs, dbg := dbg, mgmt := mgmt
      recoveredCnt := recoveredCnt, unrecoveredCnt := unrecoveredCnt, drawn := drawn } := h.same rfl

theorem Keeps.ite {s : State} {p : Prop} [Decidable p] {t u : State} (h : s.Keeps t) (h' : s.Keeps u) :
    s.Keeps (if p then t else u) := by split <;> assumption

theorem Keeps.dite {s : State} {p : Prop} [Decidable p] {t : p → State} {u : ¬ p → State} (h : ∀ hp, s.Keeps (t hp))
    (h' : ∀ hp, s.Keeps (u hp)) : s.Keeps (dite p t u) := by
  split
  · exact h _
  · exact h' _

theorem Keeps.foldl {α : Type} {s : State} {f : State → α → State} (hf : ∀ t x, s.Keeps t → s.Keeps (f t x)) (l : List α)
    {t : State} (h : s.Keeps t) : s.Keeps (l.foldl f t) := by
  induction l generalizing t with
  | nil => exact h
  | cons x l ih => exact ih (hf t x h)

theorem Keeps.fst_ite {α : Type} {s : State} {p : Prop} [Decidable p] {t u : State × α} (h : s.Keeps t.1) (h' : s.Keeps u.1) :
    s.Keeps (if p then t else u).1 := by split <;> assumption

theorem Keeps.fst_foldl {α β : Type} {s : State} {f : State × β → α → State × β} (hf : ∀ t x, s.Keeps t.1 → s.Keeps (f t x).1)
    (l : List α) {t : State × β} (h : s.Keeps t.1) : s.Keeps (l.foldl f t).1 := by
  induction l generalizing t with
  | nil => exact h
  | cons x l ih => exact ih (hf t x h)

theorem Keeps.getD {s t : State} {o : Option State} (ho : ∀ u, o = some u → s.Keeps u) (h : s.Keeps t) : s.Keeps (o.getD t) := by
  cases o with
  | none => exact h
  | some u => exact ho u rfl

/-- A state that takes device memory and the marks over from another. -/
theorem Keeps.withMemory {s t u : State} (h : s.Keeps t) (h' : s.Keeps u) : s.Keeps { t with mem := u.mem, poison := u.poison } :=
  ⟨⟨h.pending, h.part, fun hm => ⟨(h'.memOk hm).1, (h.memOk hm).2.1, (h'.memOk hm).2.2⟩⟩, h.time⟩

theorem Keeps.pair {α : Type} {s t : State} (h : s.Keeps t) {x : α} : s.Keeps (t, x).1 := h

theorem Keeps.wg {s t : State} (h : s.Keeps t) {b : Blk} {o : Nat} {v : W32} : s.Keeps (t.wg b o v) := h.update
theorem Keeps.wgF {s t : State} (h : s.Keeps t) {b : Blk} {o hi lo v : Nat} : s.Keeps (t.wgF b o hi lo v) := h.wg
theorem Keeps.wgB {s t : State} (h : s.Keeps t) {b : Blk} {o i : Nat} {v : Bool} : s.Keeps (t.wgB b o i v) := h.wgF
theorem Keeps.wg64 {s t : State} (h : s.Keeps t) {b : Blk} {o v : Nat} : s.Keeps (t.wg64 b o v) := h.wg.wg
theorem Keeps.modTherm {s t : State} (h : s.Keeps t) {f : Therm → Therm} : s.Keeps (t.modTherm f) := h.update
theorem Keeps.modHealth {s t : State} (h : s.Keeps t) {f : Health → Health} : s.Keeps (t.modHealth f) := h.update
theorem Keeps.store {s t : State} (h : s.Keeps t) {a : Nat} {bs : List Byte} {p : Bool} : s.Keeps (t.store a bs p) :=
  h.memory (fun hm => hm.store a bs p) rfl
theorem Keeps.storeN {s t : State} (h : s.Keeps t) {a n v : Nat} : s.Keeps (t.storeN a n v) := h.store
theorem Keeps.clear {s t : State} (h : s.Keeps t) {a n : Nat} : s.Keeps (t.clear a n) := h.memory (fun hm => hm.clear a n) rfl
theorem Keeps.poisonAll {s t : State} (h : s.Keeps t) {a n : Nat} : s.Keeps (t.poisonAll a n) :=
  h.memory (fun hm => hm.poisonAll a n) rfl
theorem Keeps.copyRange {s t : State} (h : s.Keeps t) {a b n : Nat} : s.Keeps (t.copyRange a b n) :=
  Keeps.foldl (fun _ _ h0 => h0.poisonAll) _
    (h.memory (fun hm => ⟨Memory.wf_foldl_mset (Memory.wf_filter _ hm.1), hm.2.1, storeMarks_rising b n false hm.2.2⟩) rfl)
theorem Keeps.hostStore {s t : State} (h : s.Keeps t) {port a : Nat} {bs : List Byte} : s.Keeps (t.hostStore port a bs) :=
  h.memory (fun hm => hm.hostStore port a bs) rfl
theorem Keeps.setHome {s t : State} (h : s.Keeps t) {h' i v : Nat} : s.Keeps (t.setHome h' i v) := h.wgF
theorem Keeps.setPort {s t : State} (h : s.Keeps t) {p : Nat} {x : Port} : s.Keeps (t.setPort p x) := h.update
theorem Keeps.raiseIrq {s t : State} (h : s.Keeps t) {p v : Nat} : s.Keeps (t.raiseIrq p v) := h.setPort
theorem Keeps.portEvent {s t : State} (h : s.Keeps t) {p i : Nat} : s.Keeps (t.portEvent p i) := Keeps.ite h.wgB.raiseIrq h.wgB
theorem Keeps.adminEvent {s t : State} (h : s.Keeps t) {i : Nat} : s.Keeps (t.adminEvent i) := h.portEvent
theorem Keeps.putRecord {s t : State} (h : s.Keeps t) {r : Nat} {bs : List Byte} : s.Keeps (t.putRecord r bs) :=
  Keeps.wg (Keeps.ite h.hostStore h.store)
theorem Keeps.setFlag {s t : State} (h : s.Keeps t) {b : Blk} {o : Nat} : s.Keeps (t.setFlag b o) := h.update
theorem Keeps.count_fst {s t : State} (h : s.Keeps t) {b : Blk} {o n : Nat} : s.Keeps (t.count b o n).1 :=
  Keeps.fst_ite h (Keeps.fst_ite h.wg h.wg.setFlag)
theorem Keeps.count64_fst {s t : State} (h : s.Keeps t) {b : Blk} {o n : Nat} : s.Keeps (t.count64 b o n).1 :=
  Keeps.fst_ite h.wg64 h.wg64.setFlag
theorem Keeps.ringLost {s t : State} (h : s.Keeps t) {r : Nat} : s.Keeps (t.ringLost r) := Keeps.ite h.putRecord.update h
theorem Keeps.ringOne_fst {s t : State} (h : s.Keeps t) {j : Job} : s.Keeps (t.ringOne j).1 :=
  Keeps.fst_ite h (Keeps.fst_ite h.ringLost.putRecord h.ringLost.count_fst.count_fst.update)

theorem Keeps.rings {s t : State} (h : s.Keeps t) {f : Nat} {js : List Job} : s.Keeps (State.rings f t js) := by
  induction f generalizing t js with
  | zero => exact h
  | succ f ih =>
    cases js with
    | nil => exact h
    | cons j js => exact ih h.ringOne_fst

theorem Keeps.trace {s t : State} (h : s.Keeps t) {js : List Job} : s.Keeps (t.trace js) := h.rings
theorem Keeps.bump {s t : State} (h : s.Keeps t) {b : Blk} {o n : Nat} : s.Keeps (t.bump b o n) := Keeps.ite h.count_fst.trace h.count_fst
theorem Keeps.bump64 {s t : State} (h : s.Keeps t) {b : Blk} {o n : Nat} : s.Keeps (t.bump64 b o n) :=
  Keeps.ite h.count64_fst.trace h.count64_fst
theorem Keeps.tracePart {s t : State} (h : s.Keeps t) {stack p mask typ site : Nat} {payload : List Byte} :
    s.Keeps (t.tracePart stack p mask typ site payload) :=
  h.trace
theorem Keeps.traceAdmin {s t : State} (h : s.Keeps t) {stack mask typ site : Nat} {payload : List Byte} :
    s.Keeps (t.traceAdmin stack mask typ site payload) :=
  h.trace
theorem Keeps.traceEvery {s t : State} (h : s.Keeps t) {mask : Nat} {bs : List Byte} : s.Keeps (t.traceEvery mask bs) := h.trace
theorem Keeps.clearCounters {s t : State} (h : s.Keeps t) {b : Blk} : s.Keeps (t.clearCounters b) :=
  Keeps.foldl (fun _ _ h0 => Keeps.ite h0.wg.update h0) _ h
theorem Keeps.hostRx {s t : State} (h : s.Keeps t) {port n : Nat} : s.Keeps (t.hostRx port n) := h.bump64.bump64
theorem Keeps.hostTx {s t : State} (h : s.Keeps t) {port n : Nat} : s.Keeps (t.hostTx port n) := h.bump64.bump64
theorem Keeps.storeDue {s t : State} (h : s.Keeps t) : s.Keeps (t.storeDue) := h.update
theorem Keeps.healthEntry {s t : State} (h : s.Keeps t) {stack kind site detail : Nat} :
    s.Keeps (t.healthEntry stack kind site detail) :=
  h.storeDue.update.adminEvent

theorem Keeps.traceCoppice {s t : State} (h : s.Keeps t) {stack : Nat} {p : Option Nat} {cls act site other : Nat} :
    s.Keeps (t.traceCoppice stack p cls act site other) := by
  unfold State.traceCoppice
  split
  · exact h.tracePart
  · exact h.traceAdmin

theorem Keeps.setCmd {s t : State} (h : s.Keeps t) {c : Cmd} : s.Keeps (t.setCmd c) := h.update
theorem Keeps.modCmd {s t : State} (h : s.Keeps t) {cid : Nat} {f : Cmd → Cmd} : s.Keeps (t.modCmd cid f) := h.update
theorem Keeps.setCore {s t : State} (h : s.Keeps t) {i : Nat} {c : Core} : s.Keeps (t.setCore i c) := h.update
theorem Keeps.modCore {s t : State} (h : s.Keeps t) {i : Nat} {f : Core → Core} : s.Keeps (t.modCore i f) := h.setCore
theorem Keeps.setHalf {s t : State} (h : s.Keeps t) {h' : Nat} {x : Half} : s.Keeps (t.setHalf h' x) := h.update
theorem Keeps.modHalf {s t : State} (h : s.Keeps t) {h' : Nat} {f : Half → Half} : s.Keeps (t.modHalf h' f) := h.setHalf
theorem Keeps.setMif {s t : State} (h : s.Keeps t) {d : Nat} {x : Mif} : s.Keeps (t.setMif d x) := h.update

end Sys2Proof.Machine.State
end

section
/-! PROOF. What every operation keeps: commands, blocks, packets and lines of the cache. -/

namespace Sys2Proof.Machine.State

theorem Keeps.xposeSync {s t : State} (h : s.Keeps t) {h' : Nat} : s.Keeps (t.xposeSync h') :=
  Keeps.foldl (fun _ _ h0 => h0.wgB.wgB.wgB) _ h
theorem Keeps.xposeSyncAll {s t : State} (h : s.Keeps t) {c : Cmd} : s.Keeps (t.xposeSyncAll c) :=
  Keeps.ite (Keeps.foldl (fun _ _ h0 => h0.xposeSync) _ h) h
theorem Keeps.flushSync {s t : State} (h : s.Keeps t) {h' : Nat} : s.Keeps (t.flushSync h') := h.wgB
theorem Keeps.unstallSlice {s t : State} (h : s.Keeps t) {h' sl : Nat} : s.Keeps (t.unstallSlice h' sl) := h.modHalf
theorem Keeps.flushOver {s t : State} (h : s.Keeps t) {i : Nat} : s.Keeps (t.flushOver i) := h.modHalf.unstallSlice.flushSync
theorem Keeps.freeUnits {s t : State} (h : s.Keeps t) {c : Cmd} : s.Keeps (t.freeUnits c) :=
  Keeps.ite (Keeps.foldl (fun _ _ h2 => h2.flushOver) _ h.xposeSyncAll) h.xposeSyncAll
theorem Keeps.unreported {s t : State} (h : s.Keeps t) {status : Nat} {d : Detail} : s.Keeps (t.unreported status d) := Keeps.ite h.bump h
theorem Keeps.stopBlocks {s t : State} (h : s.Keeps t) {cid : Nat} : s.Keeps (t.stopBlocks cid) := h.update
theorem Keeps.oredSync {s t : State} (h : s.Keeps t) {h' : Nat} : s.Keeps (t.oredSync h') := h.wgF.wgB
theorem Keeps.dropStaged {s t : State} (h : s.Keeps t) {p : Staged → Bool} : s.Keeps (t.dropStaged p) :=
  Keeps.foldl (fun _ _ h0 => h0.modHalf.oredSync) _ h

theorem Keeps.endCmd {s t : State} (h : s.Keeps t) {cid status : Nat} {d : Detail} : s.Keeps (t.endCmd cid status d) := by
  unfold State.endCmd
  dsimp only
  split
  · exact h
  · split
    · exact Keeps.freeUnits (Keeps.setCmd (Keeps.ite h.stopBlocks.dropStaged h.stopBlocks))
    · exact Keeps.freeUnits (Keeps.setCmd (Keeps.ite h.stopBlocks.dropStaged h.stopBlocks))
    · split
      · exact h
      · exact Keeps.ite (Keeps.freeUnits (Keeps.setCmd (Keeps.ite h.unreported.stopBlocks.dropStaged h.unreported.stopBlocks)))
          h.unreported
    · exact h

theorem Keeps.finish {s t : State} (h : s.Keeps t) {cid status result : Nat} : s.Keeps (t.finish cid status result) := h.modCmd

theorem Keeps.unrecoveredBy {s t : State} (h : s.Keeps t) {cid code site other : Nat} : s.Keeps (t.unrecoveredBy cid code site other) := by
  unfold State.unrecoveredBy
  dsimp only
  split
  · exact h
  · split
    · exact Keeps.ite h.setCmd h
    · exact h
    · exact h
    · exact h.stopBlocks.setCmd.freeUnits.traceCoppice

theorem Keeps.unrecovered {s t : State} (h : s.Keeps t) {cid code site : Nat} : s.Keeps (t.unrecovered cid code site) := h.unrecoveredBy
theorem Keeps.unhalt {s t : State} (h : s.Keeps t) {site : Nat} {slots : List Nat} : s.Keeps (t.unhalt site slots) :=
  Keeps.ite (Keeps.wgB (Keeps.foldl (fun _ _ h2 => h2.wgB) _ h)) (Keeps.foldl (fun _ _ h3 => h3.wgB) _ h)
theorem Keeps.dropHalts {s t : State} (h : s.Keeps t) {site : Nat} : s.Keeps (t.dropHalts site) :=
  Keeps.foldl (fun _ _ h0 => h0.wgB) _ h.wgB.wg.wg
theorem Keeps.orphanReqs {s t : State} (h : s.Keeps t) {site : Nat} {slots : List Nat} : s.Keeps (t.orphanReqs site slots) := h.update
theorem Keeps.orphanEngines {s t : State} (h : s.Keeps t) {site cid lin : Nat} : s.Keeps (t.orphanEngines site cid lin) := h.update
theorem Keeps.setPlace {s t : State} (h : s.Keeps t) {site k base units : Nat} {valid : Bool} :
    s.Keeps (t.setPlace site k base units valid) :=
  h.wg
theorem Keeps.arrSync {s t : State} (h : s.Keeps t) {site : Nat} : s.Keeps (t.arrSync site) := h.wg
theorem Keeps.espSync {s t : State} (h : s.Keeps t) {site : Nat} : s.Keeps (t.espSync site) := h.wgB.wg
theorem Keeps.modArr {s t : State} (h : s.Keeps t) {site : Nat} {f : Array → Array} : s.Keeps (t.modArr site f) := h.modCore.arrSync
theorem Keeps.modEsp {s t : State} (h : s.Keeps t) {site : Nat} {f : Esp → Esp} : s.Keeps (t.modEsp site f) := h.modCore.espSync

theorem Keeps.dropBlock {s t : State} (h : s.Keeps t) {site b : Nat} : s.Keeps (t.dropBlock site b) := by
  refine Keeps.espSync (Keeps.arrSync (Keeps.setPlace (Keeps.unhalt (Keeps.orphanReqs (Keeps.setCore ?_)))))
  split
  · exact h.orphanEngines
  · exact h

theorem Keeps.dropOrdered {s t : State} (h : s.Keeps t) {cid lin : Nat} : s.Keeps (t.dropOrdered cid lin) := h.dropStaged.update
theorem Keeps.dropQueued {s t : State} (h : s.Keeps t) {site : Nat} {which : Req → Bool} : s.Keeps (t.dropQueued site which) := h.update

theorem Keeps.takeForReplay {s t : State} (h : s.Keeps t) {site : Nat} {bs : Option Nat} {b : Block} {ate : Option Detail} :
    s.Keeps (t.takeForReplay site bs b ate) := by
  unfold State.takeForReplay
  refine Keeps.modCmd (Keeps.dropOrdered ?_)
  split
  · exact h.dropQueued.dropBlock
  · exact h.dropQueued

theorem Keeps.consumeBlock {s t : State} (h : s.Keeps t) {site : Nat} {bs : Option Nat} {b : Block} {d : Detail} :
    s.Keeps (t.consumeBlock site bs b d) := by
  unfold State.consumeBlock
  split
  · exact h
  · exact Keeps.ite h.takeForReplay h.endCmd

theorem Keeps.consumeThread {s t : State} (h : s.Keeps t) {site slot bs : Nat} {b : Block} {lane index : Nat} :
    s.Keeps (t.consumeThread site slot bs b lane index) :=
  h.consumeBlock

theorem Keeps.settle {s t : State} (h : s.Keeps t) {cid : Nat} : s.Keeps (t.settle cid) := by
  unfold State.settle
  split
  · exact h
  · exact Keeps.ite h (Keeps.ite (Keeps.finish (Keeps.foldl (fun _ _ h2 => h2.bump) _ h.setCmd)) (Keeps.foldl (fun _ _ h3 => h3.bump) _
      h.setCmd))

theorem Keeps.consumePort {s t : State} (h : s.Keeps t) {cid port : Nat} : s.Keeps (t.consumePort cid port) := h.endCmd
theorem Keeps.addC0 {s t : State} (h : s.Keeps t) {i j n : Nat} : s.Keeps (t.addC0 i j n) := h.update
theorem Keeps.inject_fst {s t : State} (h : s.Keeps t) {key cls budget u : Nat} {drop : Blk × Nat} :
    s.Keeps (t.inject key cls budget u drop).1 :=
  Keeps.ite h.update.bump h.update
theorem Keeps.coreInject_fst {s t : State} (h : s.Keeps t) {site p m n : Nat} : s.Keeps (t.coreInject site p m n).1 := h.update.inject_fst
theorem Keeps.stall {s t : State} (h : s.Keeps t) {who : Staller} {on : StallOn} : s.Keeps (t.stall who on) := h.update
theorem Keeps.unstall {s t : State} (h : s.Keeps t) {who : Staller} : s.Keeps (t.unstall who) := h.update
theorem Keeps.hostInject_fst {s t : State} (h : s.Keeps t) {port p n : Nat} : s.Keeps (t.hostInject port p n).1 := h.inject_fst
theorem Keeps.fabInject_fst {s t : State} (h : s.Keeps t) {port p n : Nat} : s.Keeps (t.fabInject port p n).1 := h.inject_fst
theorem Keeps.cpInject_fst {s t : State} (h : s.Keeps t) {home p n : Nat} : s.Keeps (t.cpInject home p n).1 := h.inject_fst
theorem Keeps.injectFor_fst {s t : State} (h : s.Keeps t) {r : Req} {n : Nat} : s.Keeps (t.injectFor r n).1 :=
  .fst_ite h.coreInject_fst (.fst_ite (h.cpInject_fst (p := r.part)) (.fst_ite h.cpInject_fst (.fst_ite h.hostInject_fst
    (.fst_ite h.fabInject_fst h))))
theorem Keeps.wayGranule {s t : State} (h : s.Keeps t) {h' k : Nat} : s.Keeps (t.wayGranule h' k) := Keeps.ite h h.modHalf.bump
theorem Keeps.uncover {s t : State} (h : s.Keeps t) {h' : Nat} {l : Line} : s.Keeps (t.uncover h' l) :=
  Keeps.ite h (Keeps.foldl (fun _ _ h0 => h0.poisonAll) _ h.setMif)

theorem Keeps.takeWay_some {s t : State} (h : s.Keeps t) {hf sl set : Nat} {mask : W32} {hold : Bool} {l : Line} :
    ∀ u, t.takeWay hf sl set mask hold l = some u → s.Keeps u := by
  intro u hu
  obtain ⟨r, -, rfl⟩ := Option.map_eq_some_iff.mp hu
  refine Keeps.wayGranule ?_
  split
  · exact h.setHalf.uncover
  · exact h.setHalf

theorem Keeps.fillLine_some {s t : State} (h : s.Keeps t) {a p rrv : Nat} {valid dirty : BitVec 4} :
    ∀ u, t.fillLine a p rrv valid dirty = some u → s.Keeps u := by
  intro u hu
  simp only [State.fillLine] at hu
  split at hu
  · exact Option.some.inj hu ▸ h.setHalf
  · exact h.takeWay_some u hu

theorem Keeps.modLine {s t : State} (h : s.Keeps t) {a : Nat} {f : Line → Line} : s.Keeps (t.modLine a f) := by
  unfold State.modLine
  dsimp only
  split
  · exact h.setHalf
  · exact h

theorem Keeps.dirtyLine {s t : State} (h : s.Keeps t) {a : Nat} {dirty : BitVec 4} : s.Keeps (t.dirtyLine a dirty) := h.modLine
theorem Keeps.hitLine {s t : State} (h : s.Keeps t) {a : Nat} {dirty : BitVec 4} : s.Keeps (t.hitLine a dirty) := h.modLine.dirtyLine
theorem Keeps.countAccess {s t : State} (h : s.Keeps t) {a cls : Nat} {hit : Bool} : s.Keeps (t.countAccess a cls hit) := by
  unfold State.countAccess
  exact h.setHalf.bump
theorem Keeps.mergeVictim {s t : State} (h : s.Keeps t) {a n : Nat} : s.Keeps (t.mergeVictim a n) := h.setHalf
theorem Keeps.readBurst {s t : State} (h : s.Keeps t) {a : Nat} {sec : Nat → BitVec 4} {lines : List Nat} :
    s.Keeps (t.readBurst a sec lines) :=
  Keeps.ite h.bump64 (Keeps.ite h.bump64.bump64.bump64.bump h.bump64.bump)
theorem Keeps.cacheAwake {s t : State} (h : s.Keeps t) {h' : Nat} : s.Keeps (t.cacheAwake h') :=
  Keeps.ite h.modHalf.wgB.wgB.bump.setMif.bump h
theorem Keeps.carried {s t : State} (h : s.Keeps t) {a n : Nat} : s.Keeps (t.carried a n) := by
  unfold State.carried
  exact h.modHalf
theorem Keeps.markGranules {s t : State} (h : s.Keeps t) {a n : Nat} : s.Keeps (t.markGranules a n) :=
  Keeps.ite (Keeps.foldl (fun _ _ h0 => Keeps.ite h0 h0.bump.update) _ h) h
theorem Keeps.place {s t : State} (h : s.Keeps t) {a : Nat} {bs : List Byte} {pois : Bool} : s.Keeps (t.place a bs pois) :=
  h.markGranules.store
theorem Keeps.keepXlat {s t : State} (h : s.Keeps t) {site c pos page : Nat} : s.Keeps (t.keepXlat site c pos page) := h.modCore
theorem Keeps.storeMarked {s t : State} (h : s.Keeps t) {a : Nat} {bs : List PByte} : s.Keeps (t.storeMarked a bs) :=
  h.place.memory (fun hm => ⟨hm.1, hm.2.1, foldl_insNat_rising _ hm.2.2⟩) rfl

end Sys2Proof.Machine.State
end

section
/-! PROOF. What every operation keeps: requests as they are performed, and codes of stored words. -/

namespace Sys2Proof.Machine.State

theorem Keeps.setReq {s t : State} (h : s.Keeps t) {r : Req} : s.Keeps (t.setReq r) := h.update
theorem Keeps.dropReq {s t : State} (h : s.Keeps t) {rid : Nat} : s.Keeps (t.dropReq rid) := h.update
theorem Keeps.reduceAt {s t : State} (h : s.Keeps t) {op a b : Nat} {pois : Bool} : s.Keeps (t.reduceAt op a b pois) :=
  Keeps.ite h.place.bump h.place.bump
theorem Keeps.progress {s t : State} (h : s.Keeps t) {site cid lin slot lane : Nat} : s.Keeps (t.progress site cid lin slot lane) :=
  h.modCore
theorem Keeps.tainted {s t : State} (h : s.Keeps t) {cid : Nat} {p : Bool} : s.Keeps (t.tainted cid p) := Keeps.ite h.modCmd h

theorem Keeps.watch {s t : State} (h : s.Keeps t) {site slot space ea n : Nat} {write : Bool} :
    s.Keeps (t.watch site slot space ea n write) := by
  unfold State.watch
  split
  · exact h
  · exact h.wgB.wgB.wgB.wgF.wgF

theorem Keeps.postPacket {s t : State} (h : s.Keeps t) {k : Packet} : s.Keeps (t.postPacket k) := h.update
theorem Keeps.respond {s t : State} (h : s.Keeps t) {r : Req} : s.Keeps (t.respond r) := Keeps.ite h h.postPacket

theorem Keeps.eatAt {s t : State} (h : s.Keeps t) {r : Req} : s.Keeps (t.eatAt r) := by
  unfold State.eatAt
  split
  · split
    · exact h.consumeThread
    · exact h
  · split
    · exact h.consumeBlock
    · exact h.endCmd

theorem Keeps.seenBy {s t : State} (h : s.Keeps t) {r : Req} : s.Keeps (t.seenBy r) := Keeps.ite h.watch h
theorem Keeps.moves {s t : State} (h : s.Keeps t) {r : Req} : s.Keeps (t.moves r) := Keeps.ite h.progress h
theorem Keeps.refuseReq {s t : State} (h : s.Keeps t) {r : Req} : s.Keeps (t.refuseReq r) := h.respond.setReq

theorem Keeps.perform {s t : State} (h : s.Keeps t) {r : Req} : s.Keeps (t.perform r) := by
  have hdone (u : State) (hu : s.Keeps u) (l : List Byte × List Bool) (res : BitVec 128) (rp : Bool) :
      s.Keeps (((u.respond r).setReq { r with
        state := .performed, result := res, rpois := rp, line := l.1, lpois := l.2 }).seenBy r) := hu.respond.setReq.seenBy
  have hrec (u : State) (hu : s.Keeps u) : s.Keeps (if r.slot = 77 then u else
      { u with net := { u.net with records := u.net.records ++ [(t.placeSite r.addr, r.rid)] } }) := .ite hu hu.update
  unfold State.perform
  dsimp only
  split
  · exact hdone _ h _ _ _
  · exact hdone _ (hrec _ (Keeps.ite h.place h.storeMarked).tainted.moves) _ _ _
  · refine .ite (hdone _ h _ _ _) (.ite h.respond.setReq.eatAt (hdone _ (hrec _ ?_) _ _ _))
    exact .ite (.ite h.place h.place.modCore) (Keeps.ite h.place h.place.modCore).moves
  · exact hdone _ (hrec _ (Keeps.foldl (fun _ _ h0 => h0.reduceAt) _ h).tainted.moves) _ _ _
  · exact h

theorem Keeps.logWrite {s t : State} (h : s.Keeps t) {b : Blk} {k : LogKind} {i : Nat} {w0 loc : W32} {count : Nat} :
    s.Keeps (t.logWrite b k i w0 loc count) :=
  h.wg.wg.wg64

theorem Keeps.elog {s t : State} (h : s.Keeps t) {b : Blk} {k : LogKind} {w0 loc : W32} : s.Keeps (t.elog b k w0 loc) := by
  unfold State.elog
  split
  · exact h.logWrite
  · split
    · exact h.logWrite
    · exact h.bump.adminEvent

theorem Keeps.flip {s t : State} (h : s.Keeps t) {a : Nat} {b : Byte} : s.Keeps { t with mem := mset (0 : Byte) t.mem a b } :=
  h.memory (fun hm => ⟨Memory.wf_mset _ _ hm.1, hm.2.1, hm.2.2⟩) rfl

theorem Keeps.invert {s t : State} (h : s.Keeps t) {a : Nat} {bits : List Nat} : s.Keeps (t.invert a bits) :=
  Keeps.foldl (fun _ _ h0 => Keeps.ite h0.flip h0) _ h

theorem Keeps.unmark {s t : State} (h : s.Keeps t) {a : Nat} : s.Keeps (t.unmark a) :=
  h.memory (fun hm => ⟨hm.1, hm.2.1, hm.2.2.sublist List.filter_sublist⟩) rfl

theorem Keeps.turned {s t : State} (h : s.Keeps t) {a : Nat} {err : CacheErr} : s.Keeps (t.turned a err) := by
  cases err with
  | flips bs =>
    refine Keeps.ite h ?_
    generalize verdict _ = v
    cases v with
    | clean => exact h.unmark.invert
    | corrected i => exact Keeps.ite h h.unmark.invert
    | poison | uncorrectable => exact h.poisonAll
  | moved d =>
    unfold State.turned
    refine Keeps.ite h ?_
    rcases t.wordAt (a / 32 * 32) with ⟨hf, sl, k⟩
    generalize verdict _ = v
    cases v with
    | clean => exact h.store.update
    | corrected i => exact h.store.invert.update
    | poison | uncorrectable => exact h.poisonAll
  | tagCorrected | tagLost | clean => exact h

theorem Keeps.asFound {s t : State} (h : s.Keeps t) {errs : List (Nat × CacheErr)} : s.Keeps (t.asFound errs) :=
  Keeps.foldl (fun _ _ h0 => h0.turned) _ h
theorem Keeps.dueRetire {s t : State} (h : s.Keeps t) {h' sl : Nat} : s.Keeps (t.dueRetire h' sl) := h.modHalf

/-- The proof unfolds `report` at its head alone: reducing the place of a word in the kernel would count down from the window base. -/
theorem Keeps.report {s t : State} (h : s.Keeps t) {a : Nat} {err : CacheErr} {src : Nat} : s.Keeps (t.report a err src) := by
  have e : State.report = State.report := rfl
  conv_rhs at e => delta State.report
  rw [e]
  beta_reduce
  rcases t.wordAt a with ⟨hf, sl, k⟩
  cases err with
  | flips bs =>
    refine Keeps.ite h ?_
    generalize verdict _ = v
    cases v with
    | clean => exact h
    | poison => exact h.bump
    | corrected i => exact h.bump.elog
    | uncorrectable => exact h.bump.elog.adminEvent
  | moved d =>
    refine Keeps.ite h ?_
    have h1 : s.Keeps { t with drawn := t.drawn + 8 } := h.update
    generalize verdict _ = v
    cases v with
    | clean => exact h1
    | poison => exact h1.bump
    | corrected i => exact h1.bump.elog
    | uncorrectable => exact h1.bump.elog.adminEvent
  | tagCorrected => exact h.bump.elog
  | tagLost =>
    exact (Keeps.ite (Keeps.foldl (fun _ _ h0 => h0.poisonAll) _ h.bump.elog.adminEvent) h.bump.elog.adminEvent.poisonAll).dueRetire
  | clean => exact h

theorem Keeps.reports {s t : State} (h : s.Keeps t) {errs : List (Nat × CacheErr)} {src : Nat} : s.Keeps (t.reports errs src) :=
  Keeps.foldl (fun _ _ h0 => h0.report) _ h
theorem Keeps.sliceErr {s t : State} (h : s.Keeps t) {a : Nat} {err : CacheErr} {src : Nat} : s.Keeps (t.sliceErr a err src) :=
  h.report.turned

theorem Keeps.beatTurned {s t : State} (h : s.Keeps t) {er : Option Nat} {a : Nat} {x : BeatErr} : s.Keeps (t.beatTurned er a x) := by
  unfold State.beatTurned
  dsimp only
  split
  · exact Keeps.ite h h.unmark.invert
  · exact Keeps.ite h h.unmark.invert
  · exact h.poisonAll

theorem Keeps.setFport {s t : State} (h : s.Keeps t) {j : Nat} {x : FabPort} : s.Keeps (t.setFport j x) := h.update
theorem Keeps.traceMark {s t : State} (h : s.Keeps t) {port : Nat} {bs : List Byte} : s.Keeps (t.traceMark port bs) :=
  Keeps.foldl (fun _ _ h0 => Keeps.ite h0.trace.bump h0.trace) _ h
theorem Keeps.stamp {s t : State} (h : s.Keeps t) {j : Nat} {received : Bool} {k : FabPkt} : s.Keeps (t.stamp j received k) :=
  Keeps.ite h h.traceMark
theorem Keeps.leave {s t : State} (h : s.Keeps t) {j typ : Nat} {k : FabPkt} {n : W32} : s.Keeps (t.leave j typ k n) :=
  h.update.bump64.bump64.stamp

theorem Keeps.transmit {s t : State} (h : s.Keeps t) {j typ : Nat} {k : FabPkt} : s.Keeps (t.transmit j typ k) := by
  unfold State.transmit
  dsimp only
  split
  · exact h.setFport
  · exact h.setFport.leave

theorem Keeps.transmitAll {s t : State} (h : s.Keeps t) {j : Nat} {ps : List (Nat × FabPkt)} : s.Keeps (t.transmitAll j ps) := by
  induction ps generalizing t with
  | nil => exact h
  | cons p ps ih => exact ih h.transmit

theorem Keeps.drainPort {s t : State} (h : s.Keeps t) {j : Nat} : s.Keeps (t.drainPort j) := Keeps.ite h h.setFport.transmitAll
theorem Keeps.emit {s t : State} (h : s.Keeps t) {j typ : Nat} {k : FabPkt} : s.Keeps (t.emit j typ k) := h.setFport.transmit
theorem Keeps.loopBack {s t : State} (h : s.Keeps t) {typ : Nat} {k : FabPkt} : s.Keeps (t.loopBack typ k) := h.update
theorem Keeps.remoteFail {s t : State} (h : s.Keeps t) {cid code port : Nat} : s.Keeps (t.remoteFail cid code port) := h.endCmd.modCmd

theorem Keeps.sendRemote {s t : State} (h : s.Keeps t) {r : Req} {dst part addr : Nat} : s.Keeps (t.sendRemote r dst part addr) := by
  refine Keeps.ite h.loopBack ?_
  split
  · exact h.dropReq.remoteFail
  · exact h.emit

theorem Keeps.releaseRecords {s t : State} (h : s.Keeps t) {ok : Req → Bool} : s.Keeps (t.releaseRecords ok) := Keeps.ite h h.update
theorem Keeps.enter {s t : State} (h : s.Keeps t) {r : Req} : s.Keeps (t.enter r) := h.update
theorem Keeps.releaseFor {s t : State} (h : s.Keeps t) {r : Req} : s.Keeps (t.releaseFor r) := Keeps.ite h h.releaseRecords

theorem Keeps.goOut {s t : State} (h : s.Keeps t) {r : Req} : s.Keeps (t.goOut r) := by
  unfold State.goOut
  split
  · exact h.sendRemote
  · exact Keeps.ite h.bump64 (Keeps.postPacket (Keeps.ite h.bump64 h))

theorem Keeps.send {s t : State} (h : s.Keeps t) {r : Req} : s.Keeps (t.send r) := h.releaseFor.enter.goOut

theorem Keeps.departs_fst {s t : State} (h : s.Keeps t) {r : Req} : s.Keeps (t.departs r).1 := by
  unfold State.departs
  dsimp only
  split
  · exact h.stall
  · exact h.injectFor_fst.unstall.releaseFor.setReq.goOut

theorem Keeps.departAll {s t : State} (h : s.Keeps t) {rs : List Req} : s.Keeps (t.departAll rs) := by
  refine Keeps.fst_foldl (fun a r h0 => ?_) rs h
  refine Keeps.fst_ite h0 ?_
  have hd := h0.departs_fst (r := r)
  split <;> simp_all only

theorem Keeps.sendQueued {s t : State} (h : s.Keeps t) {site : Nat} : s.Keeps (t.sendQueued site) := h.departAll
theorem Keeps.used {s t : State} (h : s.Keeps t) {e : Eng} : s.Keeps (t.used e) := h.update
theorem Keeps.queueWrite {s t : State} (h : s.Keeps t) {e : Eng} {a : Nat} {bs : List PByte} : s.Keeps (t.queueWrite e a bs) :=
  Keeps.foldl (fun _ _ h0 => h0.enter) _ h
theorem Keeps.queueRead {s t : State} (h : s.Keeps t) {e : Eng} {a n : Nat} : s.Keeps (t.queueRead e a n) :=
  Keeps.foldl (fun _ _ h0 => Keeps.ite h0 h0.enter) _ h
theorem Keeps.sendOrder {s t : State} (h : s.Keeps t) {home cid : Nat} {msg : CtlMsg} : s.Keeps (t.sendOrder home cid msg) :=
  h.enter.sendQueued
theorem Keeps.obeyed {s t : State} (h : s.Keeps t) {r : Req} : s.Keeps (t.obeyed r) := h.respond.setReq

end Sys2Proof.Machine.State
end

section
/-! PROOF. What every operation keeps: thread instructions, engines, blocks, and array runs. -/

namespace Sys2Proof.Machine.State

theorem Keeps.hitHalt {s t : State} (h : s.Keeps t) {site slot which : Nat} {wp : Bool} : s.Keeps (t.hitHalt site slot which wp) :=
  h.wgB.wgB.wgB.wgF.wgF
theorem Keeps.modGroup {s t : State} (h : s.Keeps t) {site slot : Nat} {f : Group → Group} : s.Keeps (t.modGroup site slot f) := h.modCore
theorem Keeps.modBlock {s t : State} (h : s.Keeps t) {site b : Nat} {f : Block → Block} : s.Keeps (t.modBlock site b f) := h.modCore
theorem Keeps.issued {s t : State} (h : s.Keeps t) {c : Ctx} : s.Keeps (t.issued c) :=
  Keeps.bump64 (Keeps.bump64 (Keeps.modGroup (Keeps.ite h.modCore.wgB h.modCore)))
theorem Keeps.put {s t : State} (h : s.Keeps t) {c : Ctx} {g : Group} : s.Keeps (t.put c g) := h.modGroup.issued
theorem Keeps.raise {s t : State} (h : s.Keeps t) {c : Ctx} {code lane trap : Nat} : s.Keeps (t.raise c code lane trap) :=
  h.modGroup.issued.endCmd
theorem Keeps.consume {s t : State} (h : s.Keeps t) {c : Ctx} {lane : Nat} : s.Keeps (t.consume c lane) := h.modGroup.issued.consumeThread

theorem Goes.runThread {s t : State} (h : s.Keeps t) {w : At} {n : Need} {body : Ctx → List Nat → State}
    (hb : ∀ c ls, s.Keeps (body c ls)) : s.Goes (Machine.runThread w t n body) := by
  rcases runThread_cases (rfl : Machine.runThread w t n body = _) with
    e | ⟨c, -, ⟨i, e⟩ | ⟨code, l, e⟩ | ⟨l, e⟩ | e | ⟨ls, -, -, e⟩⟩ <;> rw [e]
  · exact h
  · exact h.hitHalt
  · exact h.raise
  · exact h.consume
  · exact h.put
  · exact hb c ls

theorem Goes.runAlu {s t : State} (h : s.Keeps t) {w : At} {f : RForm} {u : RUse} {op : Ctx → Nat → Src → W32} :
    s.Goes (runAlu w t f u op) :=
  Goes.runThread h (fun _ _ => h.put)
theorem Goes.runImm {s t : State} (h : s.Keeps t) {w : At} {f : IForm} {useA : Bool} {op : W32 → W32 → W32} :
    s.Goes (runImm w t f useA op) :=
  Goes.runThread h (fun _ _ => h.put)

theorem Goes.runSetp {s t : State} (h : s.Keeps t) {w : At} {f : RForm} {limit : Nat} {cond : Nat → W32 → W32 → Bool} :
    s.Goes (runSetp w t f limit cond) := by
  unfold Machine.runSetp
  exact Goes.runThread h (fun _ _ => h.put)

theorem Goes.runSetpI {s t : State} (h : s.Keeps t) {w : At} {f : IForm} {limit : Nat} {cond : Nat → W32 → W32 → Bool} :
    s.Goes (runSetpI w t f limit cond) :=
  Goes.runThread h (fun _ _ => h.put)

theorem Goes.runMem {s t : State} (h : s.Keeps t) {w : At} {n : Need} {space ra : Nat} {off : Int} {size : Nat}
    {body : State → Ctx → List (Nat × Nat × Nat) → State} (hb : ∀ u c es, s.Keeps u → s.Keeps (body u c es)) :
    s.Goes (Machine.runMem w t n space ra off size body) := by
  refine Goes.runThread h (fun c ls => ?_)
  dsimp only
  split
  · exact h.consume
  · split
    · exact h.raise
    · refine hb _ _ _ (Keeps.foldl (fun u e hu => ?_) _ h)
      split
      · exact hu.keepXlat
      · exact hu

theorem Keeps.dropFills {s t : State} (h : s.Keeps t) {site a : Nat} : s.Keeps (t.dropFills site a) := h.update
theorem Keeps.sendLs {s t : State} (h : s.Keeps t) {c : Ctx} {r : Req} : s.Keeps (t.sendLs c r) :=
  Keeps.ite h.consumeThread h.coreInject_fst.send
theorem Keeps.bumpSerial {s t : State} (h : s.Keeps t) : s.Keeps (t.bumpSerial) := h.update
theorem Keeps.tagStall {s t : State} (h : s.Keeps t) {c : Ctx} : s.Keeps (t.tagStall c) := h.stall
theorem Keeps.moveOn {s t : State} (h : s.Keeps t) {c : Ctx} : s.Keeps (t.moveOn c) := h.unstall.modGroup.issued

theorem Keeps.load {s t : State} (h : s.Keeps t) {c : Ctx} {f : MForm} {alloc : Bool} {es : List (Nat × Nat × Nat)} :
    s.Keeps (t.load c f alloc es) := by
  unfold State.load
  dsimp only
  refine Keeps.ite h.tagStall ?_
  split
  · exact h.stall
  · refine Keeps.moveOn (Keeps.bumpSerial (Keeps.foldl (fun _ _ h0 => Keeps.ite (Keeps.watch (Keeps.bump64 (Keeps.ite h0.modGroup h0)))
      ?_) _ h))
    split
    · exact Keeps.watch (Keeps.bump64 (Keeps.bump (Keeps.modCore (Keeps.ite h0.modGroup h0))))
    · exact Keeps.sendLs (Keeps.ite h0.bump h0)

theorem Goes.execLd {s t : State} (h : s.Keeps t) {w : At} {f : MForm} : s.Goes (execLd w f t) := Goes.runMem h (fun _ _ _ h0 => h0.load)
theorem Goes.execLdnc {s t : State} (h : s.Keeps t) {w : At} {f : MForm} : s.Goes (execLdnc w f t) :=
  Goes.runMem h (fun _ _ _ h0 => h0.load)
theorem Keeps.release {s t : State} (h : s.Keeps t) {site : Nat} {b : Block} {x : Contrib} : s.Keeps (t.release site b x) := h.enter

theorem Keeps.commitBlock {s t : State} (h : s.Keeps t) {site bs : Nat} : s.Keeps (t.commitBlock site bs) := by
  unfold State.commitBlock
  dsimp only
  split
  · exact h
  · exact Keeps.ite (Keeps.foldl (fun _ _ h2 => h2.release) _ h.setCore) (Keeps.sendQueued (Keeps.foldl (fun _ _ h3 => h3.release) _
      h.setCore))

theorem Keeps.commitPoint {s t : State} (h : s.Keeps t) {site bs : Nat} : s.Keeps (t.commitPoint site bs) := by
  unfold State.commitPoint
  dsimp only
  split
  · exact h
  · split
    · exact h.commitBlock
    · refine Keeps.ite ?_ (Keeps.commitBlock (Keeps.modCore ?_))
      · split
        · exact h.consumeThread
        · exact h.consumePort
      · split
        · exact h.consumeThread
        · exact h.consumePort

theorem Keeps.commitAll {s t : State} (h : s.Keeps t) {site : Nat} : s.Keeps (t.commitAll site) :=
  Keeps.foldl (fun _ _ h0 => h0.commitPoint) _ h
theorem Goes.execSt {s t : State} (h : s.Keeps t) {w : At} {f : MForm} : s.Goes (execSt w f t) :=
  Goes.runMem h (fun _ _ _ h0 => Keeps.ite h0.commitPoint (Keeps.ite h0.tagStall (Keeps.moveOn (Keeps.bumpSerial (Keeps.foldl (fun _ _
    h1 => Keeps.ite h1.store.tainted.progress.bump64.watch (Keeps.ite h1.sendLs.dropFills.modCore h1.sendLs)) _ h0)))))

theorem Goes.runAtomic {s t : State} (h : s.Keeps t) {w : At} {f : MForm} {op : Nat} {cas wide : Bool} :
    s.Goes (runAtomic w t f op cas wide) := by
  refine Goes.runMem h (fun _ _ _ h0 => Keeps.ite h0.commitPoint (Keeps.ite h0.tagStall ?_))
  split
  · exact h0.consume
  · exact Keeps.moveOn (Keeps.bumpSerial (Keeps.foldl (fun _ _ h1 => Keeps.ite (Keeps.watch (Keeps.bump64 (Keeps.ite (Keeps.modGroup
      (Keeps.ite h1.store h1.store.progress)) (Keeps.ite h1.store h1.store.progress)))) (Keeps.ite h1.sendLs.dropFills.modCore
      h1.sendLs)) _ h0))

theorem Goes.runReduce {s t : State} (h : s.Keeps t) {w : At} {f : MForm} {op : Nat} : s.Goes (runReduce w t f op) :=
  Goes.runMem h (fun _ _ _ h0 => Keeps.ite h0.tagStall (Keeps.moveOn (Keeps.bumpSerial (Keeps.foldl (fun _ _ h1 => Keeps.ite (Keeps.ite
    h1.modGroup.dropFills.modCore h1.modGroup) (Keeps.ite (Keeps.sendLs (Keeps.ite h1.modGroup.dropFills.modCore h1.modGroup))
    (Keeps.modCore (Keeps.ite (Keeps.commitAll (Keeps.ite h1.modGroup.dropFills.modCore h1.modGroup)) (Keeps.ite
    h1.modGroup.dropFills.modCore h1.modGroup))))) _ h0))))

theorem Goes.execAadd {s t : State} (h : s.Keeps t) {w : At} {f : MForm} : s.Goes (execAadd w f t) := Goes.runAtomic h
theorem Goes.execAmin {s t : State} (h : s.Keeps t) {w : At} {f : MForm} : s.Goes (execAmin w f t) := Goes.runAtomic h
theorem Goes.execAmax {s t : State} (h : s.Keeps t) {w : At} {f : MForm} : s.Goes (execAmax w f t) := Goes.runAtomic h
theorem Goes.execAminu {s t : State} (h : s.Keeps t) {w : At} {f : MForm} : s.Goes (execAminu w f t) := Goes.runAtomic h
theorem Goes.execAmaxu {s t : State} (h : s.Keeps t) {w : At} {f : MForm} : s.Goes (execAmaxu w f t) := Goes.runAtomic h
theorem Goes.execAand {s t : State} (h : s.Keeps t) {w : At} {f : MForm} : s.Goes (execAand w f t) := Goes.runAtomic h
theorem Goes.execAor {s t : State} (h : s.Keeps t) {w : At} {f : MForm} : s.Goes (execAor w f t) := Goes.runAtomic h
theorem Goes.execAxor {s t : State} (h : s.Keeps t) {w : At} {f : MForm} : s.Goes (execAxor w f t) := Goes.runAtomic h
theorem Goes.execAxchg {s t : State} (h : s.Keeps t) {w : At} {f : MForm} : s.Goes (execAxchg w f t) := Goes.runAtomic h
theorem Goes.execAcas {s t : State} (h : s.Keeps t) {w : At} {f : MForm} : s.Goes (execAcas w f t) := Goes.runAtomic h
theorem Goes.execAfadd {s t : State} (h : s.Keeps t) {w : At} {f : MForm} : s.Goes (execAfadd w f t) := Goes.runAtomic h
theorem Goes.execRaddI32 {s t : State} (h : s.Keeps t) {w : At} {f : MForm} : s.Goes (execRaddI32 w f t) := Goes.runReduce h
theorem Goes.execRaddF32 {s t : State} (h : s.Keeps t) {w : At} {f : MForm} : s.Goes (execRaddF32 w f t) := Goes.runReduce h
theorem Goes.execRaddBf16 {s t : State} (h : s.Keeps t) {w : At} {f : MForm} : s.Goes (execRaddBf16 w f t) := Goes.runReduce h
theorem Goes.execRmaxI32 {s t : State} (h : s.Keeps t) {w : At} {f : MForm} : s.Goes (execRmaxI32 w f t) := Goes.runReduce h
theorem Goes.execRminI32 {s t : State} (h : s.Keeps t) {w : At} {f : MForm} : s.Goes (execRminI32 w f t) := Goes.runReduce h
theorem Goes.execRmaxF32 {s t : State} (h : s.Keeps t) {w : At} {f : MForm} : s.Goes (execRmaxF32 w f t) := Goes.runReduce h
theorem Goes.execRminF32 {s t : State} (h : s.Keeps t) {w : At} {f : MForm} : s.Goes (execRminF32 w f t) := Goes.runReduce h
theorem Goes.execRmaxBf16 {s t : State} (h : s.Keeps t) {w : At} {f : MForm} : s.Goes (execRmaxBf16 w f t) := Goes.runReduce h
theorem Goes.execRminBf16 {s t : State} (h : s.Keeps t) {w : At} {f : MForm} : s.Goes (execRminBf16 w f t) := Goes.runReduce h
theorem Keeps.overlay {s t : State} (h : s.Keeps t) {a : Nat} {bs : List PByte} : s.Keeps (t.overlay a bs) :=
  Keeps.memory (show s.Keeps (t.store a (bs.map (·.1)) false) from h.store)
    (fun hm => ⟨hm.1, hm.2.1, foldl_insNat_rising _ (hm.2.2.sublist List.filter_sublist)⟩) rfl

theorem Keeps.ask {s t : State} (h : s.Keeps t) {e : Eng} {ps : List Piece} : s.Keeps (t.ask e ps) := by
  refine Keeps.sendQueued (Keeps.foldl (fun _ _ h0 => ?_) _ h)
  split
  · exact Keeps.ite h0 h0.queueRead
  · exact Keeps.ite h0 h0.enter
  · exact h0

theorem Keeps.moved {s t : State} (h : s.Keeps t) {e : Eng} {ps : List Piece} : s.Keeps (t.moved e ps) := by
  refine Keeps.foldl (fun _ _ h0 => ?_) _ h
  split
  · exact Keeps.ite h0.bump64 h0
  · exact h0.keepXlat
  · exact h0

theorem Keeps.queueAway {s t : State} (h : s.Keeps t) {e : Eng} {kind : ReqKind} {dst part a : Nat} {bs : List Byte} :
    s.Keeps (t.queueAway e kind dst part a bs) :=
  h.enter

theorem Keeps.scatter {s t : State} (h : s.Keeps t) {e : Eng} {ps : List Piece} {bs : List PByte} : s.Keeps (t.scatter e ps bs) := by
  refine Keeps.sendQueued (Keeps.fst_foldl (fun _ _ h0 => ?_) _ h)
  split
  · exact Keeps.ite h0.storeMarked h0.queueWrite
  · exact Keeps.ite h0.consumePort h0.queueAway
  · exact h0

theorem Keeps.restart {s t : State} (h : s.Keeps t) {site b : Nat} : s.Keeps (t.restart site b) := h.modBlock
theorem Keeps.blockBars {s t : State} (h : s.Keeps t) {site b : Nat} : s.Keeps (t.blockBars site b) :=
  Keeps.foldl (fun _ _ h0 => Keeps.ite h0.modCore.restart.commitPoint h0) _ h

theorem Keeps.freeBlock {s t : State} (h : s.Keeps t) {site b : Nat} : s.Keeps (t.freeBlock site b) := by
  have h1 : s.Keeps (if ((t.core site).groupsOf b).all (fun g => g.2.over) then t.commitPoint site b else t) := .ite h.commitPoint h
  unfold State.freeBlock
  dsimp only
  split
  · exact h1
  · exact .ite h1.modCore.orphanReqs.unhalt.dropBlock.modCmd.settle h1.modCore.orphanReqs.unhalt

theorem Keeps.espStart {s t : State} (h : s.Keeps t) {site : Nat} : s.Keeps (t.espStart site) := h.modCore.espSync
theorem Keeps.arrFault {s t : State} (h : s.Keeps t) {site code group detail : Nat} : s.Keeps (t.arrFault site code group detail) :=
  Keeps.ite h.bump h.bump.wg
theorem Keeps.raiseLate {s t : State} (h : s.Keeps t) {site slot lane index cid code : Nat} :
    s.Keeps (t.raiseLate site slot lane index cid code) :=
  h.modGroup.endCmd
theorem Keeps.tileOver {s t : State} (h : s.Keeps t) {site : Nat} {t' : Tile} : s.Keeps (t.tileOver site t') :=
  h.modArr.espStart.freeBlock
theorem Goes.execNop {s t : State} (h : s.Keeps t) {w : At} {f : SForm} : s.Goes (execNop w f t) := Goes.runThread h (fun _ _ => h.put)
theorem Keeps.branch {s t : State} (h : s.Keeps t) {c : Ctx} {lanes : List Nat} {m : ℤ} {next : Nat → Nat} :
    s.Keeps (branch t c lanes m next) :=
  Keeps.ite h.put (Keeps.ite h.raise h.put)
theorem Goes.execBra {s t : State} (h : s.Keeps t) {w : At} {f : BForm} : s.Goes (execBra w f t) := Goes.runThread h (fun _ _ => h.branch)
theorem Goes.execBrx {s t : State} (h : s.Keeps t) {w : At} {f : BForm} : s.Goes (execBrx w f t) := by
  unfold Machine.execBrx
  exact Goes.runThread h (fun _ _ => h.branch)
theorem Goes.execMerge {s t : State} (h : s.Keeps t) {w : At} {f : SForm} : s.Goes (execMerge w f t) :=
  Goes.runThread h (fun _ _ => Keeps.ite h.put (Keeps.ite h.put.restart h.put))
theorem Goes.execExit {s t : State} (h : s.Keeps t) {w : At} {f : SForm} : s.Goes (execExit w f t) :=
  Goes.runThread h (fun _ _ => h.put.restart.blockBars.freeBlock)
theorem Goes.execSpin {s t : State} (h : s.Keeps t) {w : At} {f : SForm} : s.Goes (execSpin w f t) := Goes.runThread h (fun _ _ => h.put)
theorem Goes.execTrap {s t : State} (h : s.Keeps t) {w : At} {f : SForm} : s.Goes (execTrap w f t) :=
  Goes.runThread h (fun _ _ => h.raise)
theorem Goes.execS2r {s t : State} (h : s.Keeps t) {w : At} {f : RForm} : s.Goes (execS2r w f t) := by
  unfold Machine.execS2r
  exact Goes.runThread h (fun _ _ => h.put)

theorem Goes.execBarg {s t : State} (h : s.Keeps t) {w : At} {f : SForm} : s.Goes (execBarg w f t) := by
  unfold Machine.execBarg
  dsimp only
  refine Goes.runThread h (fun _ _ => ?_)
  split
  · exact h.raise
  · exact Keeps.ite h.put.restart h.put

theorem Goes.execBarb {s t : State} (h : s.Keeps t) {w : At} {f : SForm} : s.Goes (execBarb w f t) :=
  Goes.runThread h (fun _ _ => h.put.blockBars)
theorem Keeps.dropL1 {s t : State} (h : s.Keeps t) {site : Nat} : s.Keeps (t.dropL1 site) := h.modCore.update
theorem Goes.execFence {s t : State} (h : s.Keeps t) {w : At} {f : SForm} : s.Goes (execFence w f t) :=
  Goes.runThread h (fun _ _ => Keeps.ite h.put (Keeps.ite h.commitPoint (Keeps.ite h h.commitPoint.dropL1.moveOn)))

theorem Goes.execTile {s t : State} (h : s.Keeps t) {w : At} {f : TForm} : s.Goes (execTile w f t) := by
  refine Goes.runThread h (fun _ _ => Keeps.ite h (Keeps.ite h.consume ?_))
  split
  · exact h.arrFault.raise
  · split
    · exact h.arrFault.raise
    · split
      · exact h.arrFault.raise
      · exact Keeps.ite (Keeps.tileOver (Keeps.moveOn (Keeps.ite h.modArr.modGroup h.modArr))) (Keeps.moveOn (Keeps.ite
          h.modArr.modGroup h.modArr))

theorem Goes.execTwait {s t : State} (h : s.Keeps t) {w : At} {f : TForm} : s.Goes (execTwait w f t) :=
  Goes.runThread h (fun _ _ => Keeps.ite h h.commitPoint.moveOn)
theorem Goes.execEspld {s t : State} (h : s.Keeps t) {w : At} {f : TForm} : s.Goes (execEspld w f t) :=
  Goes.runThread h (fun _ _ => h.modEsp.modGroup.issued.espStart)
theorem Goes.execDma {s t : State} (h : s.Keeps t) {w : At} {f : TForm} : s.Goes (execDma w f t) :=
  Goes.runThread h (fun _ _ => Keeps.ite h (Keeps.ite h.consume (Keeps.ite h.raise (Keeps.ite h.raise (Keeps.ite h.raise
    h.modCore.moveOn)))))
theorem Goes.execDwait {s t : State} (h : s.Keeps t) {w : At} {f : TForm} : s.Goes (execDwait w f t) :=
  Goes.runThread h (fun _ _ => Keeps.ite h h.commitPoint.moveOn)

theorem Keeps.tileEat {s t : State} (h : s.Keeps t) {site : Nat} {t' : Tile} : s.Keeps (t.tileEat site t') := by
  unfold State.tileEat
  split
  · exact h.consumeThread
  · exact h

theorem Keeps.tileBad {s t : State} (h : s.Keeps t) {site : Nat} {t' : Tile} {detail : Nat} : s.Keeps (t.tileBad site t' detail) :=
  Keeps.ite h.arrFault.raiseLate h.raiseLate
theorem Keeps.arrCheck {s t : State} (h : s.Keeps t) {site group detail : Nat} : s.Keeps (t.arrCheck site group detail) :=
  h.arrFault.modArr
theorem Goes.onArray {s t : State} (h : s.Keeps t) {site : Nat} {f : Machine.Array → State} (hf : ∀ a, s.Keeps (f a)) :
    s.Goes (Machine.onArray t site f) :=
  Goes.ite h (Goes.ite h (hf _))

theorem Goes.execStageWeights {s t : State} (h : s.Keeps t) {site : Nat} : s.Goes (execStageWeights site t) := by
  unfold Machine.execStageWeights
  dsimp only
  refine Goes.onArray h (fun _ => Keeps.ite h ?_)
  split
  · split
    · exact h
    · split
      · exact h.tileEat
      · exact h.tileEat
      · exact h.tileBad
      · exact h.tileBad
      · exact h.moved.used.modArr
      · exact h.ask
  · exact h

theorem Goes.execPassStart {s t : State} (h : s.Keeps t) {site : Nat} {parityFail : Bool} : s.Goes (execPassStart site parityFail t) := by
  refine Goes.onArray h (fun _ => ?_)
  split
  · split
    · exact h
    · split
      · exact h
      · refine Keeps.ite h ?_
        split
        · exact h.tileEat
        · exact h.tileEat
        · exact h.tileBad
        · exact h.tileBad
        · split
          · exact Keeps.ite h.modArr h
          · exact Keeps.ite (Keeps.ite h.modArr h) (Keeps.ite h.arrCheck h.moved.used.modArr)
        · exact h.ask.modArr
  · exact h

theorem Goes.execPassEnd {s t : State} (h : s.Keeps t) {site : Nat} : s.Goes (execPassEnd site t) := by
  refine Goes.onArray h (fun _ => ?_)
  split
  · exact h
  · split
    · exact h.modArr
    · exact Keeps.ite h h.modArr.bump

theorem Goes.execDrainPartials {s t : State} (h : s.Keeps t) {site : Nat} {residueFail : Bool} :
    s.Goes (execDrainPartials site residueFail t) := by
  refine Goes.onArray h (fun _ => ?_)
  split
  · exact h
  · split
    · exact h.modArr
    · exact Keeps.ite h (Keeps.ite h.arrCheck h.modArr)

theorem Goes.execPriorValueRead {s t : State} (h : s.Keeps t) {site : Nat} : s.Goes (execPriorValueRead site t) := by
  unfold Machine.execPriorValueRead
  dsimp only
  refine Goes.onArray h (fun _ => ?_)
  split
  · exact h
  · split
    · exact h
    · split
      · exact h.tileEat
      · exact h.tileBad
      · exact h.ask
      · exact h.moved.used.modArr

theorem Goes.execWriteOut {s t : State} (h : s.Keeps t) {site : Nat} {parityFail : Bool} : s.Goes (execWriteOut site parityFail t) := by
  refine Goes.onArray h (fun _ => ?_)
  split
  · exact h
  · split
    · exact h
    · exact Keeps.ite h.arrCheck (Keeps.ite h.tileBad (Keeps.update (Keeps.modArr (Keeps.ite (Keeps.modEsp (Keeps.bump (Keeps.bump
        (Keeps.bump (Keeps.tainted (Keeps.foldl (fun _ _ h21 => h21.moved.scatter) _ h)))))) (Keeps.bump (Keeps.tainted (Keeps.foldl
        (fun _ _ h22 => h22.moved.scatter) _ h)))))))

theorem Goes.execWriteOutDone {s t : State} (h : s.Keeps t) {site : Nat} : s.Goes (execWriteOutDone site t) := by
  refine Goes.onArray h (fun _ => ?_)
  split
  · exact h
  · split
    · exact h.modArr
    · exact Keeps.ite h (Keeps.ite (Keeps.tileOver (Keeps.bump (Keeps.ite h.modArr.modEsp.modBlock h.modArr.modEsp))) (Keeps.ite
        h.modArr.modEsp.modBlock h.modArr.modEsp))

theorem Goes.execInterlockEnd {s t : State} (h : s.Keeps t) {site : Nat} : s.Goes (execInterlockEnd site t) := by
  refine Goes.onArray h (fun _ => ?_)
  split
  · exact h
  · exact Keeps.ite h h.modArr

theorem Goes.execFillerRampDown {s t : State} (h : s.Keeps t) {site : Nat} : s.Goes (execFillerRampDown site t) := by
  refine Goes.onArray h (fun _ => ?_)
  split
  · exact h
  · exact Keeps.ite h h.modArr

theorem Goes.execFillerRampUp {s t : State} (h : s.Keeps t) {site : Nat} : s.Goes (execFillerRampUp site t) :=
  Goes.onArray h (fun _ => Keeps.ite h h.modArr)
theorem Keeps.espInstall {s t : State} (h : s.Keeps t) {site slot : Nat} {im : Image} : s.Keeps (t.espInstall site slot im) :=
  h.modEsp.bump
theorem Keeps.espRefuse {s t : State} (h : s.Keeps t) {site code : Nat} : s.Keeps (t.espRefuse site code) := h.wgB.wgF
theorem Keeps.espLoadWrite {s t : State} (h : s.Keeps t) {site : Nat} {word : W32} : s.Keeps (t.espLoadWrite site word) :=
  Keeps.ite h.wgF (Keeps.ite h.wgF.espRefuse h.wgF.modEsp.espStart)
theorem Goes.execEspLoadStart {s t : State} (h : s.Keeps t) {port site : Nat} {word : W32} :
    s.Goes (execEspLoadStart port site word t) :=
  Goes.ite h (Keeps.ite (Keeps.ite h.hostRx h) (Keeps.espLoadWrite (Keeps.ite h.hostRx h)))

/-- What an image load that ends leaves of its core: the engine's requests, the load itself and the group's wait are gone. -/
theorem Keeps.loadEnds {s t : State} (h : s.Keeps t) {site : Nat} {g : Option Nat} {e : Option Eng} :
    s.Keeps ((match g with
      | some g => ((match e with | some e => t.used e | none => t).modEsp site (fun x => { x with load := none })).modGroup site g
          (fun x => { x with espWait := false })
      | none => (match e with | some e => t.used e | none => t).modEsp site (fun x => { x with load := none })).espStart site) := by
  cases g <;> cases e
  · exact h.modEsp.espStart
  · exact h.used.modEsp.espStart
  · exact h.modEsp.modGroup.espStart
  · exact h.used.modEsp.modGroup.espStart

/-- The thread that asked for an image load, where it is still there, consumes the poison that the load met. -/
theorem Keeps.loadEats {s t : State} (h : s.Keeps t) {site lane index : Nat} {g : Option Nat} :
    s.Keeps (match g with
      | some g => (match mfind (t.core site).groups g with
        | some x => (match mfind (t.core site).blocks x.blk with
          | some b => t.consumeThread site g x.blk b lane index
          | none => t)
        | none => t)
      | none => t) := by
  split
  · split
    · split
      · exact h.consumeThread
      · exact h
    · exact h
  · exact h

theorem Goes.execEspImageLoadDone {s t : State} (h : s.Keeps t) {site : Nat} : s.Goes (Machine.execEspImageLoadDone site t) := by
  refine Goes.ite h ?_
  split
  · exact h
  · next l _ =>
    dsimp only
    split
    · show s.Keeps _
      split
      · exact h.ask
      · exact h
    · refine Keeps.loadEnds (Keeps.espInstall ?_)
      split
      · exact h.moved
      · exact h
    · show s.Keeps _
      split
      · exact h.espRefuse.loadEnds.raiseLate
      · exact h.espRefuse.loadEnds
    · exact h.loadEnds.loadEats

theorem Goes.execDmaComplete {s t : State} (h : s.Keeps t) {site job : Nat} : s.Goes (Machine.execDmaComplete site job t) := by
  refine Goes.ite h ?_
  split
  · exact h
  · split
    · refine Goes.ite (Keeps.ite h h.modCore.freeBlock) ?_
      split
      · exact h.consumeThread
      · exact h.raiseLate
      · exact h.raiseLate
      · exact h.ask
      · exact Goes.ite h.moved.used.moved.scatter.tainted.bump64.modCore h.moved.used.moved.scatter.tainted.bump64.modCore.freeBlock
    · exact h

end Sys2Proof.Machine.State
end

section
/-! PROOF. What every operation keeps: regions, power, placement, boundaries, and slices. -/

namespace Sys2Proof.Machine.State

theorem Keeps.setReg {s t : State} (h : s.Keeps t) {r hi lo v : Nat} : s.Keeps (t.setReg r hi lo v) := h.wgF
theorem Keeps.meshSync {s t : State} (h : s.Keeps t) {h' : Nat} : s.Keeps (t.meshSync h') := Keeps.ite h h.wgF.update
theorem Keeps.setStep {s t : State} (h : s.Keeps t) {r k : Nat} : s.Keeps (t.setStep r k) := h.setReg.meshSync
theorem Keeps.govSet {s t : State} (h : s.Keeps t) {r : Nat} : s.Keeps (t.govSet r) := h.setReg
theorem Keeps.govLower {s t : State} (h : s.Keeps t) {r : Nat} : s.Keeps (t.govLower r) := h.update.govSet
theorem Keeps.govRaise {s t : State} (h : s.Keeps t) {r : Nat} : s.Keeps (t.govRaise r) := h.update.govSet
theorem Keeps.capRegion {s t : State} (h : s.Keeps t) {r : Nat} : s.Keeps (t.capRegion r) := h.setReg.update.govSet
theorem Keeps.govSync {s t : State} (h : s.Keeps t) {t' : Nat} : s.Keeps (t.govSync t') := h.wgB
theorem Keeps.unlower {s t : State} (h : s.Keeps t) {r : Nat} : s.Keeps (t.unlower r) := Keeps.foldl (fun _ _ h0 => h0.govSet) _ h.update
theorem Keeps.govForget {s t : State} (h : s.Keeps t) {r : Nat} : s.Keeps (t.govForget r) := h.update.unlower.govSet.govSync
theorem Keeps.wakeRegion {s t : State} (h : s.Keeps t) {r : Nat} : s.Keeps (t.wakeRegion r) :=
  Keeps.ite (Keeps.ite h.setReg.setReg.setReg.meshSync.modHalf.modHalf h.setReg.setReg.setReg.meshSync.modHalf) h
theorem Keeps.stopPortTest {s t : State} (h : s.Keeps t) {i : Nat} : s.Keeps (t.stopPortTest i) := Keeps.ite h.wgB.modHalf h
theorem Keeps.parkRegion {s t : State} (h : s.Keeps t) {r : Nat} {trim : Bool} : s.Keeps (t.parkRegion r trim) :=
  Keeps.ite h (Keeps.govForget (Keeps.meshSync (Keeps.foldl (fun _ _ h10 => h10.modCore) _ (Keeps.foldl (fun _ _ h9 => h9.stopPortTest)
    _ h.setReg.setReg.setReg))))
theorem Keeps.trimUnpark {s t : State} (h : s.Keeps t) {r : Nat} : s.Keeps (t.trimUnpark r) := h.wakeRegion.bump

theorem Goes.execGovernorMeasure {s t : State} (h : s.Keeps t) {stack power16 : Nat} : s.Goes (execGovernorMeasure stack power16 t) :=
  Goes.ite h (Goes.ite h (Keeps.ite (Keeps.bump (Keeps.govSync (Keeps.ite (Keeps.ite (Keeps.update (Keeps.foldl (fun _ _ h101 =>
    h101.govLower) _ h.wgF.update.update)) h.wgF.update.update) (Keeps.ite (Keeps.ite (Keeps.update (Keeps.foldl (fun _ _ h104 =>
    h104.govRaise) _ h.wgF.update.update)) h.wgF.update.update) h.wgF.update.update)))) (Keeps.govSync (Keeps.ite (Keeps.ite
    (Keeps.update (Keeps.foldl (fun _ _ h107 => h107.govLower) _ h.wgF.update.update)) h.wgF.update.update) (Keeps.ite (Keeps.ite
    (Keeps.update (Keeps.foldl (fun _ _ h110 => h110.govRaise) _ h.wgF.update.update)) h.wgF.update.update) h.wgF.update.update)))))

theorem Goes.execStepChange {s t : State} (h : s.Keeps t) {stack region : Nat} : s.Goes (execStepChange stack region t) :=
  Goes.ite h (Keeps.ite h.update.setStep h)
theorem Keeps.stretch {s t : State} (h : s.Keeps t) {r n : Nat} : s.Keeps (t.stretch r n) := h.bump.update

theorem Goes.execDroopCrossing {s t : State} (h : s.Keeps t) {stack region below : Nat} :
    s.Goes (execDroopCrossing stack region below t) := by
  refine Goes.ite h (Keeps.ite h (Keeps.ite h.update ?_))
  split
  · exact h.update
  · exact h.stretch.update

theorem Keeps.closeStep {s t : State} (h : s.Keeps t) {r : Nat} : s.Keeps (t.closeStep r) := by
  refine Keeps.ite (Keeps.govSync (Keeps.ite (Keeps.capRegion (Keeps.unlower (Keeps.setReg ?_))) (Keeps.unlower (Keeps.setReg ?_))))
    (Keeps.setReg ?_)
  · split
    · exact h.bump.update
    · exact h
  · split
    · exact h.bump.update
    · exact h
  · split
    · exact h.bump.update
    · exact h

theorem Goes.execSwitchOnStep {s t : State} (h : s.Keeps t) {stack region halfCurrent : Nat} {peaks : List Nat} :
    s.Goes (execSwitchOnStep stack region halfCurrent peaks t) :=
  Goes.ite h (Keeps.ite h (Keeps.ite h.closeStep h.update))

theorem Goes.execSwitchOnWaitExpiry {s t : State} (h : s.Keeps t) {stack region : Nat} {peaks : List Nat} :
    s.Goes (execSwitchOnWaitExpiry stack region peaks t) := by
  unfold Machine.execSwitchOnWaitExpiry
  dsimp only
  refine Goes.ite h ?_
  split
  · exact h
  · exact Goes.ite h (Keeps.closeStep (Keeps.govSync (Keeps.foldl (fun _ _ h9 => h9.govSet) _ h.bump.update)))

theorem Keeps.standIdle {s t : State} (h : s.Keeps t) : s.Keeps (t.standIdle) := by
  unfold State.standIdle
  split
  · exact h
  · exact Keeps.foldl (fun _ _ h0 => h0.setReg) _ h

theorem Goes.execRegionOn {s t : State} (h : s.Keeps t) {stack region : Nat} : s.Goes (execRegionOn stack region t) :=
  Goes.ite h (Goes.ite (Keeps.govSync (Keeps.setStep (Keeps.ite h.setReg.setReg.standIdle h.setReg.setReg))) h)
theorem Keeps.holdFill {s t : State} (h : s.Keeps t) {r : Nat} {v : Bool} : s.Keeps (t.holdFill r v) :=
  Keeps.foldl (fun _ _ h0 => Keeps.ite h0.modArr h0) _ h
theorem Keeps.trimStep {s t : State} (h : s.Keeps t) {down : Bool} {r : Nat} : s.Keeps (t.trimStep down r) := h.setReg

theorem Keeps.trimEach_fst {s : State} {x : TrimAcc} (h : s.Keeps x.1) {f : State → Nat → State}
    (hf : ∀ t r, s.Keeps t → s.Keeps (f t r)) {unit : Nat} {rs : List Nat} : s.Keeps (Machine.trimEach f unit rs x).1 :=
  Keeps.fst_foldl (fun _ _ h0 => .fst_ite h0 (hf _ _ h0)) _ h

theorem Keeps.trimRounds_fst {s : State} {x : TrimAcc} (h : s.Keeps x.1) {down : Bool} {unit n : Nat} {rs : List Nat} :
    s.Keeps (Machine.trimRounds down unit rs n x).1 := by
  induction n generalizing x with
  | zero => exact h
  | succ n ih => exact ih (h.trimEach_fst fun _ _ h0 => h0.trimStep)

theorem Keeps.trimLower_fst {s t : State} (h : s.Keeps t) {m : TrimMeas} {e : Nat} : s.Keeps (t.trimLower m e).1 := by
  unfold State.trimLower
  dsimp only
  refine Keeps.trimEach_fst (Keeps.trimRounds_fst (Keeps.trimEach_fst ?_ ?_)) ?_
  · exact h
  · exact fun _ _ h1 => h1.holdFill
  · exact fun _ _ h1 => h1.parkRegion.bump

theorem Keeps.trimRaise_fst {s t : State} (h : s.Keeps t) {m : TrimMeas} {e : Nat} : s.Keeps (t.trimRaise m e).1 := by
  unfold State.trimRaise
  dsimp only
  refine Keeps.trimEach_fst (Keeps.trimRounds_fst (Keeps.trimEach_fst ?_ ?_)) ?_
  · exact h
  · exact fun _ _ h1 => h1.trimUnpark
  · exact fun _ _ h1 => h1.holdFill

theorem Keeps.trimRelease_fst {s : State} {lo hi : Nat} {us : List ((State → State) × Nat × Bool)}
    (hu : ∀ f ∈ us, ∀ t, s.Keeps t → s.Keeps (f.1 t)) {x : State × Nat} (h : s.Keeps x.1) :
    s.Keeps (Machine.trimRelease lo hi us x).1 := by
  induction us generalizing x with
  | nil => exact h
  | cons f us ih =>
    exact .fst_ite h (ih (fun g hg => hu g (List.mem_cons_of_mem _ hg)) (hu f List.mem_cons_self _ h))

theorem Keeps.of_trimUnits {s t : State} {m : TrimMeas} : ∀ f ∈ t.trimUnits m, ∀ u, s.Keeps u → s.Keeps (f.1 u) := by
  intro f hf u hu
  simp only [State.trimUnits, List.mem_append, List.mem_map, List.mem_flatMap] at hf
  rcases hf with (⟨r, -, rfl⟩ | ⟨r, -, rfl⟩) | ⟨r, -, k, -, rfl⟩
  · exact hu.holdFill
  · exact hu.trimUnpark
  · exact hu.trimStep

theorem Keeps.trimIdle {s t : State} (h : s.Keeps t) : s.Keeps (t.trimIdle) := h.update
theorem Keeps.trimFlag {s t : State} (h : s.Keeps t) {i : Nat} {v : Bool} : s.Keeps (t.trimFlag i v) := Keeps.ite h.wgB.adminEvent h.wgB
theorem Keeps.trimOff {s t : State} (h : s.Keeps t) : s.Keeps (t.trimOff) :=
  Keeps.update (Keeps.foldl (fun _ _ h6 => h6.setReg) _ h.wg.wgF)

theorem Keeps.trimLoop {s t : State} (h : s.Keeps t) {m : TrimMeas} : s.Keeps (t.trimLoop m) := by
  unfold State.trimLoop
  dsimp only
  generalize hu : State.standIdle _ = u
  have h1 : s.Keeps u := hu ▸ h.update.standIdle
  refine .ite (Keeps.trimOff (Keeps.wgF (Keeps.update (Keeps.trimFlag (Keeps.trimFlag (Keeps.trimFlag ?_))))))
    (Keeps.wgF (Keeps.update (Keeps.trimFlag (Keeps.trimFlag (Keeps.trimFlag ?_)))))
  all_goals
    exact Keeps.fst_ite h1.trimLower_fst (Keeps.fst_ite h1.trimRaise_fst (Keeps.trimRelease_fst Keeps.of_trimUnits h1))

theorem Goes.execTrimPeriod {s t : State} (h : s.Keeps t) {meas : TrimMeas} : s.Goes (execTrimPeriod meas t) := by
  refine Goes.ite h (Keeps.update (Keeps.ite (Keeps.trimLoop ?_) ?_))
  · split
    · exact h.trimIdle
    · exact Keeps.ite h.trimIdle.update.wgB.wgB.update (Keeps.ite h.trimIdle.update.wgB h.trimIdle.update)
  · split
    · exact h.trimIdle
    · exact Keeps.ite h.trimIdle.update.wgB.wgB.update (Keeps.ite h.trimIdle.update.wgB h.trimIdle.update)

theorem Goes.execTrimReport {s t : State} (h : s.Keeps t) : s.Goes (execTrimReport t) :=
  Goes.ite h (Keeps.traceEvery (Keeps.ite (Keeps.bump (Keeps.ite h.wgF.wgF.wg64.update.bump h.wgF.wgF.wg64.update)) (Keeps.ite
    h.wgF.wgF.wg64.update.bump h.wgF.wgF.wg64.update)))
theorem Keeps.startBlock {s t : State} (h : s.Keeps t) {i : Nat} {c : Cmd} {lin : Nat} {old : Option Block} :
    s.Keeps (t.startBlock i c lin old) :=
  h.setCore.update.clear.setPlace

theorem Keeps.unparkForPlace {s t : State} (h : s.Keeps t) {c : Cmd} : s.Keeps (t.unparkForPlace c) := by
  unfold State.unparkForPlace
  split
  · exact h.trimUnpark
  · exact h

theorem Keeps.reloadImages {s t : State} (h : s.Keeps t) {e : Eng} {ate : Option Detail} {after : State → State}
    (ha : ∀ u, s.Keeps u → s.Keeps (after u)) {ims : List Image} : s.Keeps (t.reloadImages e ate after ims) := by
  induction ims generalizing after with
  | nil => exact ha t h
  | cons im ims ih =>
    refine ih (fun u hu => ?_)
    split
    · exact ha _ hu.espInstall
    · exact .ite h h.ask
    · split
      · exact h.used.endCmd
      · exact h.used.unrecovered

theorem Keeps.placeBlock {s t : State} (h : s.Keeps t) {c : Cmd} {lin : Nat} {old : Option Block} {after : State → State}
    (ha : ∀ u, s.Keeps u → s.Keeps (after u)) : s.Keeps (t.placeBlock c lin old after) := by
  unfold State.placeBlock
  split
  · exact h.unparkForPlace
  · exact .ite h.modCmd (.ite h (h.reloadImages fun _ hu => ha _ hu.used.startBlock))

theorem Goes.execBlockPlace {s t : State} (h : s.Keeps t) {cid : Nat} : s.Goes (execBlockPlace cid t) := by
  unfold Machine.execBlockPlace
  split
  · exact h
  · exact Keeps.ite (h.placeBlock (fun _ h0 => h0.modCmd)) h

theorem Goes.execReplayPlace {s t : State} (h : s.Keeps t) {cid : Nat} : s.Goes (execReplayPlace cid t) := by
  unfold Machine.execReplayPlace
  split
  · exact h
  · split
    · exact h
    · split
      · exact h
      · exact Keeps.ite (h.placeBlock (fun _ h0 => h0.modCmd.traceCoppice)) h

theorem Goes.execStallDetectorFire {s t : State} (h : s.Keeps t) {site block : Nat} : s.Goes (execStallDetectorFire site block t) := by
  refine Goes.ite h ?_
  split
  · exact h
  · exact Keeps.ite h.endCmd h

theorem Keeps.cpWrite {s t : State} (h : s.Keeps t) {c : Cmd} {a : Nat} {bs : List Byte} : s.Keeps (t.cpWrite c a bs) :=
  h.queueWrite.sendQueued
theorem Keeps.hostWrite {s t : State} (h : s.Keeps t) {port a : Nat} {bs : List Byte} : s.Keeps (t.hostWrite port a bs) :=
  h.hostStore.hostTx

theorem Keeps.takeIndex {s t : State} (h : s.Keeps t) {cid : Nat} : s.Keeps (t.takeIndex cid) := by
  unfold State.takeIndex
  split
  · exact h
  · exact Keeps.ite h h.wg.setCmd

theorem Keeps.traceCmd {s t : State} (h : s.Keeps t) {c : Cmd} {mask typ status : Nat} : s.Keeps (t.traceCmd c mask typ status) :=
  Keeps.ite h.traceAdmin h.tracePart
theorem Keeps.clearCore {s t : State} (h : s.Keeps t) {i : Nat} : s.Keeps (t.clearCore i) :=
  Keeps.update (Keeps.foldl (fun _ _ h2 => h2.clearCounters) _ h)
theorem Keeps.coreBoundary {s t : State} (h : s.Keeps t) {i : Nat} : s.Keeps (t.coreBoundary i) := h.dropL1.modCore

theorem Keeps.launchReach {s t : State} (h : s.Keeps t) {cid site : Nat} : s.Keeps (t.launchReach cid site) := by
  unfold State.launchReach
  split
  · exact h
  · exact Keeps.ite (Keeps.ite h.coreBoundary.modCmd.clearCore h.coreBoundary.modCmd) h

theorem Keeps.order {s t : State} (h : s.Keeps t) {cid : Nat} {msg : CtlMsg} : s.Keeps (t.order cid msg) := by
  unfold State.order
  split
  · exact Keeps.ite h h.sendOrder
  · exact h

theorem Goes.execLaunchMessage {s t : State} (h : s.Keeps t) {cid site : Nat} : s.Goes (execLaunchMessage cid site t) := by
  refine Goes.ite h ?_
  split
  · exact Keeps.ite h.launchReach.obeyed h
  · exact Keeps.ite h.order h

theorem Keeps.endReach {s t : State} (h : s.Keeps t) {cid site : Nat} : s.Keeps (t.endReach cid site) := by
  unfold State.endReach
  split
  · exact h
  · exact Keeps.ite (Keeps.modCmd (Keeps.coreBoundary (Keeps.foldl (fun _ _ h5 => h5.commitPoint.dropBlock) _ h))) h

theorem Goes.execEndBoundaryOrder {s t : State} (h : s.Keeps t) {cid site : Nat} : s.Goes (execEndBoundaryOrder cid site t) := by
  refine Goes.ite h ?_
  split
  · exact Keeps.ite h (Keeps.ite h.endReach.setReq h.obeyed)
  · exact Keeps.ite h.order h

theorem Keeps.ackReach {s t : State} (h : s.Keeps t) {cid site : Nat} : s.Keeps (t.ackReach cid site) := by
  unfold State.ackReach
  split
  · exact h
  · exact Keeps.ite h.modCmd h

theorem Goes.execCoreAcknowledge {s t : State} (h : s.Keeps t) {cid site : Nat} : s.Goes (execCoreAcknowledge cid site t) := by
  refine Goes.ite h ?_
  split
  · exact h
  · refine Keeps.ite h ?_
    split
    · exact Keeps.ite h.obeyed h
    · exact h.enter.obeyed

theorem Keeps.resetReach {s t : State} (h : s.Keeps t) {site : Nat} : s.Keeps (t.resetReach site) :=
  Keeps.ite (Keeps.foldl (fun _ _ h0 => h0.dropBlock) _ h) h

theorem Goes.execCommandEndBoundary {s t : State} (h : s.Keeps t) {cid : Nat} : s.Goes (execCommandEndBoundary cid t) := by
  unfold Machine.execCommandEndBoundary
  dsimp only
  split
  · exact h
  · refine Goes.ite ?_ h
    split
    · exact h.takeIndex
    · exact Keeps.traceCmd (Keeps.ite (Keeps.ite h.takeIndex.setCmd.update h.takeIndex.setCmd) (Keeps.cpWrite (Keeps.ite
        h.takeIndex.setCmd.update h.takeIndex.setCmd)))

theorem Keeps.setQueue {s t : State} (h : s.Keeps t) {port qi : Nat} {q : Queue} : s.Keeps (t.setQueue port qi q) := h.update
theorem Keeps.endRead {s t : State} (h : s.Keeps t) {port qi : Nat} : s.Keeps (t.endRead port qi) :=
  Keeps.ite h.used.update.setPort h.used.update
theorem Keeps.stopQueue {s t : State} (h : s.Keeps t) {port qi code : Nat} : s.Keeps (t.stopQueue port qi code) :=
  Keeps.ite h.endRead.setQueue.tracePart h.endRead.setQueue.traceAdmin
theorem Keeps.ringWrite {s t : State} (h : s.Keeps t) {c : Cmd} {dev : Bool} {a : Nat} {bs : List Byte} :
    s.Keeps (t.ringWrite c dev a bs) :=
  Keeps.ite h.cpWrite h.hostWrite

theorem Keeps.writeDetail {s t : State} (h : s.Keeps t) {c : Cmd} {j : Nat} : s.Keeps (t.writeDetail c j) := by
  unfold State.writeDetail
  split
  · exact h.ringWrite
  · exact h

theorem Keeps.writeSlot {s t : State} (h : s.Keeps t) {c : Cmd} : s.Keeps (t.writeSlot c) := h.ringWrite
theorem Keeps.slotDone {s t : State} (h : s.Keeps t) {c : Cmd} : s.Keeps (t.slotDone c) :=
  Keeps.ite (Keeps.raiseIrq (Keeps.ite h.setQueue.bump64.update h.setQueue.bump64)) (Keeps.ite h.setQueue.bump64.update
    h.setQueue.bump64)
theorem Keeps.dropCmd {s t : State} (h : s.Keeps t) {cid : Nat} : s.Keeps (t.dropCmd cid) := h.update
theorem Keeps.replyBegin {s t : State} (h : s.Keeps t) {c : Cmd} {j : Nat} : s.Keeps (t.replyBegin c j) :=
  Keeps.modCmd (Keeps.ite (Keeps.writeSlot (Keeps.ite h.writeDetail h)) (Keeps.ite h.writeDetail h))
theorem Keeps.holdReply {s t : State} (h : s.Keeps t) {c : Cmd} {j : Nat} : s.Keeps (t.holdReply c j) :=
  Keeps.ite h.slotDone.setPort.setCmd h.setPort.setCmd

theorem Keeps.writeHeld {s t : State} (h : s.Keeps t) {x : Nat × Option Nat} : s.Keeps (t.writeHeld x) := by
  unfold State.writeHeld
  split
  · exact h
  · split
    · exact h.writeDetail.dropCmd
    · exact Keeps.dropCmd (Keeps.slotDone (Keeps.writeSlot (Keeps.ite h h.writeDetail)))

theorem Keeps.replyEnd {s t : State} (h : s.Keeps t) {c : Cmd} {j : Nat} : s.Keeps (t.replyEnd c j) :=
  Keeps.ite h.holdReply (Keeps.dropCmd (Keeps.slotDone (Keeps.ite h h.writeSlot)))

theorem Goes.execStatusReply {s t : State} (h : s.Keeps t) {cid : Nat} {writeFails : Bool} :
    s.Goes (execStatusReply cid writeFails t) := by
  unfold Machine.execStatusReply
  split
  · exact h
  · refine Goes.ite h (Goes.ite h (Goes.ite h (Goes.ite h (Goes.ite h.dropCmd.stopQueue ?_))))
    split
    · exact h.replyEnd
    · exact Keeps.ite h.replyBegin h.replyBegin.replyEnd

theorem Goes.execMsiXInterrupt {s t : State} (h : s.Keeps t) {port : Nat} : s.Goes (execMsiXInterrupt port t) := by
  unfold Machine.execMsiXInterrupt
  dsimp only
  refine Goes.ite h ?_
  split
  · exact h
  · exact Goes.ite h (Goes.ite h.setPort.update h.setPort)

theorem Keeps.served {s t : State} (h : s.Keeps t) {r : Req} : s.Keeps (t.served r) := Keeps.ite h h.modHalf
theorem Keeps.passed {s t : State} (h : s.Keeps t) {r : Req} {stored : Nat} : s.Keeps (t.passed r stored) :=
  Keeps.ite h h.carried.modHalf.bump

theorem Keeps.performAt {s t : State} (h : s.Keeps t) {r : Req} {errs : List (Nat × CacheErr)} : s.Keeps (t.performAt r errs) := by
  have h1 : s.Keeps ((t.reports (r.finds errs) (t.accessSource r)).passed r
      (if r.kind = .write then 0 else t.storedPoison r.span.1 r.span.2 (r.finds errs))) := h.reports.passed
  have h2 := (h1.asFound (errs := r.finds errs)).perform (r := r)
  exact Keeps.settle (.ite (Keeps.ite (h2.withMemory h1) h2).dropReq (Keeps.ite (h2.withMemory h1) h2))

theorem Keeps.addMiss {s t : State} (h : s.Keeps t) {r : Req} {need : BitVec 4} {fetch : Bool} : s.Keeps (t.addMiss r need fetch) := by
  unfold State.addMiss
  dsimp only
  split
  · exact Keeps.ite h.stall (Keeps.setReq (Keeps.unstall (Keeps.ite h.setHalf.setMif h.setHalf)))
  · exact Keeps.ite h.stall (Keeps.ite h.stall (Keeps.setReq (Keeps.unstall (Keeps.ite h.setHalf.setMif h.setHalf))))

theorem Keeps.writeWhole {s t : State} (h : s.Keeps t) {r : Req} {errs : List (Nat × CacheErr)} : s.Keeps (t.writeWhole r errs) := by
  refine .ite h.countAccess.performAt ?_
  split
  · exact h.stall
  · next hu => exact (h.fillLine_some _ hu).countAccess.performAt

theorem Keeps.atHome {s t : State} (h : s.Keeps t) {r : Req} {errs : List (Nat × CacheErr)} : s.Keeps (t.atHome r errs) := by
  unfold State.atHome
  dsimp only
  split
  · exact h.countAccess.hitLine.performAt
  · exact Keeps.ite h.countAccess.performAt (Keeps.ite (Keeps.ite h.addMiss.countAccess.bump h.addMiss)
      h.countAccess.mergeVictim.bump.performAt)
  · exact Keeps.ite h.writeWhole (Keeps.ite h.addMiss.countAccess h.addMiss)

theorem Keeps.atLost {s t : State} (h : s.Keeps t) {r : Req} : s.Keeps (t.atLost r) := by
  unfold State.atLost
  dsimp only
  split
  · exact h.respond.setReq.settle
  · exact h.refuseReq.settle

theorem Keeps.reachPlace {s t : State} (h : s.Keeps t) {r : Req} {errs : List (Nat × CacheErr)} : s.Keeps (t.reachPlace r errs) :=
  Keeps.ite h (Keeps.ite h.refuseReq (Keeps.ite h.stall (Keeps.ite (Keeps.atLost (Keeps.foldl (fun _ _ h8 => h8.sliceErr) _
    h.served.unstall)) (Keeps.ite (Keeps.atHome (Keeps.foldl (fun _ _ h9 => h9.sliceErr) _ h.served.unstall)) (Keeps.performAt
    (Keeps.foldl (fun _ _ h10 => h10.sliceErr) _ h.served.unstall))))))

theorem Goes.runSlice {s t : State} (h : s.Keeps t) {rid : Nat} {ok : ReqKind → Bool} {body : Req → State}
    (hb : ∀ r, s.Keeps (body r)) : s.Goes (Machine.runSlice t rid ok body) := by
  unfold Machine.runSlice
  split
  · exact h
  · exact Keeps.ite (hb _) h

theorem Goes.execSliceRead {s t : State} (h : s.Keeps t) {rid : Nat} {errs : List (Nat × CacheErr)} :
    s.Goes (execSliceRead rid errs t) :=
  Goes.runSlice h (fun _ => h.reachPlace)
theorem Goes.execSliceWrite {s t : State} (h : s.Keeps t) {rid : Nat} {errs : List (Nat × CacheErr)} :
    s.Goes (execSliceWrite rid errs t) :=
  Goes.runSlice h (fun _ => h.reachPlace)
theorem Goes.execSliceAtomic {s t : State} (h : s.Keeps t) {rid : Nat} {errs : List (Nat × CacheErr)} :
    s.Goes (execSliceAtomic rid errs t) :=
  Goes.runSlice h (fun _ => h.reachPlace)
theorem Keeps.discard {s t : State} (h : s.Keeps t) {r : Req} : s.Keeps (t.discard r) := h.respond.setReq.settle
theorem Keeps.stage {s t : State} (h : s.Keeps t) {r : Req} {op : Nat} {key : Nat × Nat × Nat} : s.Keeps (t.stage r op key) :=
  Keeps.ite (Keeps.ite h.discard.endCmd.bump h.discard.endCmd) h.modHalf.oredSync.update.discard.moves

theorem Goes.execSliceReduction {s t : State} (h : s.Keeps t) {rid : Nat} {errs : List (Nat × CacheErr)} :
    s.Goes (execSliceReduction rid errs t) := by
  refine Goes.runSlice h (fun _ => ?_)
  split
  · refine Keeps.ite h (Keeps.ite h.stall (Keeps.ite h.served.unstall.atLost ?_))
    split
    · exact h.served.unstall.discard
    · exact Keeps.ite h.served.unstall.discard h.served.unstall.stage
  · exact h.reachPlace

theorem Goes.execOrderedReductionApply {s t : State} (h : s.Keeps t) {cid half : Nat} : s.Goes (execOrderedReductionApply cid half t) := by
  refine Goes.ite h ?_
  split
  · exact h
  · exact Goes.ite (Keeps.oredSync (Keeps.foldl (fun _ _ h2 => h2.enter) _ h.modHalf)) h

theorem Keeps.performWaiting {s t : State} (h : s.Keeps t) {rid : Nat} {cached : Bool} {errs : List (Nat × CacheErr)} :
    s.Keeps (t.performWaiting rid cached errs) := by
  unfold State.performWaiting
  split
  · exact h
  · exact Keeps.performAt (Keeps.ite h.dirtyLine h)

theorem Keeps.performAll {s t : State} (h : s.Keeps t) {rids : List Nat} {cached : Bool} {errs : List (Nat × CacheErr)} :
    s.Keeps (t.performAll rids cached errs) :=
  Keeps.foldl (fun _ _ h0 => h0.performWaiting) _ h

theorem Goes.execSectorFill {s t : State} (h : s.Keeps t) {half line : Nat} {errs : List (Nat × CacheErr)} :
    s.Goes (Machine.execSectorFill half line errs t) := by
  refine Goes.ite h ?_
  split
  · exact h
  · refine Goes.ite h.modHalf.performAll ?_
    split
    · exact h.stall
    · next hu =>
      exact (Keeps.foldl (fun _ _ h0 => h0.sliceErr) _ (h.modHalf.fillLine_some _ hu)).unstall.performAll

theorem Goes.execWriteBackIssue {s t : State} (h : s.Keeps t) {half line : Nat} {errs : List (Nat × CacheErr)} :
    s.Goes (execWriteBackIssue half line errs t) := by
  refine Goes.ite h ?_
  split
  · exact h
  · exact Goes.ite h (Goes.ite h.stall (Keeps.setMif (Keeps.bump (Keeps.modHalf (Keeps.foldl (fun _ _ h10 => h10.sliceErr) _
      h.unstall)))))

theorem Goes.execWriteBackPerformed {s t : State} (h : s.Keeps t) {half line : Nat} : s.Goes (execWriteBackPerformed half line t) := by
  refine Goes.ite h ?_
  split
  · exact h
  · exact Goes.ite h (Goes.ite h.stall (Keeps.ite h.unstall.modHalf.bump64.setMif h.unstall.modHalf.bump64))

theorem Keeps.poisonDevice {s t : State} (h : s.Keeps t) {a : Nat} {which : BitVec 4} : s.Keeps (t.poisonDevice a which) :=
  Keeps.foldl (fun _ _ h0 => Keeps.ite h0 (Keeps.ite h0.setMif h0.poisonAll)) _ h
theorem Keeps.eraseDie {s t : State} (h : s.Keeps t) {dev die : Nat} : s.Keeps (t.eraseDie dev die) := h.wgB.wgF.modHealth.healthEntry
theorem Keeps.dieCorrected {s t : State} (h : s.Keeps t) {dev die : Nat} : s.Keeps (t.dieCorrected dev die) :=
  Keeps.ite h.setMif.eraseDie h.setMif
theorem Keeps.bitmapLost {s t : State} (h : s.Keeps t) {a : Nat} : s.Keeps (t.bitmapLost a) :=
  Keeps.adminEvent (Keeps.elog (Keeps.bump (Keeps.foldl (fun _ _ h6 => h6.poisonDevice) _ h.setMif)))
theorem Keeps.bitmapFixed {s t : State} (h : s.Keeps t) {a : Nat} : s.Keeps (t.bitmapFixed a) := h.bump.elog

theorem Keeps.beatReport {s t : State} (h : s.Keeps t) {dev o : Nat} {v : BeatVerdict} {src : Nat} :
    s.Keeps (t.beatReport dev o v src) := by
  unfold State.beatReport
  split
  · exact h
  · exact h
  · exact h.bump.elog.dieCorrected
  · exact h.bump.bump.elog.adminEvent
  · exact h.bump.elog.adminEvent

theorem Keeps.burstBeat {s t : State} (h : s.Keeps t) {dev base : Nat} {sec : Nat → BitVec 4} {er : Option Nat} {i : Nat} {x : BeatErr}
  :
    s.Keeps (t.burstBeat dev base sec er i x) :=
  Keeps.ite h (Keeps.ite (Keeps.beatTurned (Keeps.ite h.beatReport.bump h.beatReport)) (Keeps.ite h.beatReport.bump h.beatReport))

theorem Keeps.memErr {s t : State} (h : s.Keeps t) {dev base : Nat} {sec : Nat → BitVec 4} {err : MemErr} :
    s.Keeps (t.memErr dev base sec err) := by
  unfold State.memErr
  split
  · exact h
  · exact Keeps.foldl (fun _ _ h0 => h0.burstBeat) _ h
  · exact h.bitmapFixed
  · exact h.bitmapLost

theorem Keeps.fetched {s t : State} (h : s.Keeps t) {h' line : Nat} : s.Keeps (t.fetched h' line) := h.modHalf
theorem Keeps.writeLine {s t : State} (h : s.Keeps t) {dev line : Nat} {dirty : BitVec 4} : s.Keeps (t.writeLine dev line dirty) :=
  Keeps.ite h.setMif.bump h.setMif
theorem Keeps.deliver {s t : State} (h : s.Keeps t) {dev o : Nat} {got : List Nat} {err : MemErr} : s.Keeps (t.deliver dev o got err) :=
  Keeps.foldl (fun _ _ h6 => h6.fetched) _ h.setMif.readBurst.memErr

theorem Goes.execMifAccess {s t : State} (h : s.Keeps t) {dev line : Nat} {write : Bool} {err : MemErr} :
    s.Goes (execMifAccess dev line write err t) :=
  Goes.ite h (Goes.ite h (Goes.ite (Goes.ite h (Goes.ite h.bitmapLost (Goes.ite (Keeps.bump64 (Keeps.bump64 (Keeps.writeLine (Keeps.ite
    h.setMif.bitmapFixed h.setMif)))) h))) (Goes.ite (Keeps.deliver (Keeps.ite h.bitmapLost h)) h)))

theorem Goes.execBitmapZeroFill {s t : State} (h : s.Keeps t) {dev region : Nat} : s.Goes (execBitmapZeroFill dev region t) :=
  Goes.ite h (Goes.ite h.setMif.bump64.bump64 h)

end Sys2Proof.Machine.State
end

section
/-! PROOF. What every operation keeps: temperature, interfaces, recovery, integrity, Coppice, and the mesh. -/

namespace Sys2Proof.Machine.State

theorem Keeps.thermEvent {s t : State} (h : s.Keeps t) {t' b : Nat} : s.Keeps (t.thermEvent t' b) :=
  Keeps.ite h h.wgB.adminEvent.update.traceAdmin
theorem Keeps.declareSuspect {s t : State} (h : s.Keeps t) {t' i : Nat} : s.Keeps (t.declareSuspect t' i) :=
  Keeps.ite h.wgB.thermEvent.bump.modHealth.modTherm.wgB.modHealth.healthEntry h.wgB.thermEvent.bump.modHealth.modTherm
theorem Keeps.suspectOne {s t : State} (h : s.Keeps t) {t' i : Nat} {raw est : ℤ} : s.Keeps (t.suspectOne t' i raw est) :=
  Keeps.ite (Keeps.ite h.modTherm.modTherm.wgB.modTherm h.modTherm.modTherm) (Keeps.ite h.modTherm.declareSuspect h.modTherm)
theorem Keeps.bandTrack {s t : State} (h : s.Keeps t) {t' i : Nat} {v : ℤ} : s.Keeps (t.bandTrack t' i v) := h.update

theorem Keeps.throttle {s t : State} (h : s.Keeps t) {t' hf : Nat} {vs : List (Nat × ℤ)} : s.Keeps (t.throttle t' hf vs) :=
  Keeps.ite (Keeps.update (Keeps.ite (Keeps.update (Keeps.thermEvent (Keeps.ite h.update.wgB.thermEvent h.update.wgB))) (Keeps.ite
    h.update.wgB.thermEvent h.update.wgB))) (Keeps.ite (Keeps.update (Keeps.thermEvent (Keeps.ite h.update.wgB.thermEvent
    h.update.wgB))) (Keeps.ite h.update.wgB.thermEvent h.update.wgB))

theorem Keeps.sampleRate {s t : State} (h : s.Keeps t) {t' : Nat} {vs : List (Nat × ℤ)} : s.Keeps (t.sampleRate t' vs) :=
  Keeps.ite (Keeps.ite h.update h.update.wgB.bump) (Keeps.ite h.update.wgB h.update)
theorem Keeps.takeSample {s t : State} (h : s.Keeps t) {t' : Nat} {raws : List (Nat × ℤ)} : s.Keeps (t.takeSample t' raws) := by
  unfold State.takeSample
  exact Keeps.modTherm (Keeps.foldl (fun _ _ h2 => h2.wgF) _ h)
theorem Keeps.bandStall {s t : State} (h : s.Keeps t) {h' sl : Nat} : s.Keeps (t.bandStall h' sl) := h.modHalf
theorem Goes.execSramBandChange {s t : State} (h : s.Keeps t) {stack sensor band : Nat} :
    s.Goes (execSramBandChange stack sensor band t) :=
  Goes.ite h (Goes.ite (Keeps.foldl (fun _ _ h2 => h2.bandStall) _ h.wgF.bump) h)

theorem Ends.execTimeAlignCheck {s t : State} (h : s.Keeps t) {stack : Nat} {found : ℤ} :
    s.Ends (Machine.execTimeAlignCheck stack found t) := by
  unfold Machine.execTimeAlignCheck
  dsimp only
  have hd : s.Holds { t with time := { t.time with diff := mset 0 t.time.diff stack found } } := h.toHolds.updateTime
  refine Ends.ite h.toHolds (Ends.ite h.toHolds (Ends.ite h.wgB.toHolds (Ends.ite (Holds.ite h.toHolds.updateTime h.toHolds) ?_)))
  exact hd.trans (Keeps.wgB (Keeps.ite (Keeps.refl _).bump (Keeps.refl _))).toHolds

theorem Goes.execClkTimeRead {s t : State} (h : s.Keeps t) {port stack : Nat} : s.Goes (execClkTimeRead port stack t) :=
  Goes.ite h (Goes.ite h h.hostTx.update.setPort)
theorem Goes.execRefresh {s t : State} (h : s.Keeps t) {dev bank : Nat} : s.Goes (execRefresh dev bank t) :=
  Goes.ite h (Goes.ite h.setMif h)
theorem Goes.execMifTempRead {s t : State} (h : s.Keeps t) {dev : Nat} {temps : List ℤ} : s.Goes (execMifTempRead dev temps t) :=
  Goes.ite h (Goes.ite h (Keeps.ite (Keeps.thermEvent (Keeps.ite h.setMif.wgF.wgF.wgF.wgB.wgB h.setMif.wgF.wgF.wgF.wgB.wgB.bump))
    (Keeps.ite h.setMif.wgF.wgF.wgF.wgB.wgB h.setMif.wgF.wgF.wgF.wgB.wgB.bump)))
theorem Goes.execWck2dqRead {s t : State} (h : s.Keeps t) {dev : Nat} {drift : Bool} : s.Goes (execWck2dqRead dev drift t) :=
  Goes.ite h (Goes.ite h.setMif.bump h)
theorem Goes.execMifRetrainDone {s t : State} (h : s.Keeps t) {dev : Nat} : s.Goes (execMifRetrainDone dev t) :=
  Goes.ite h (Goes.ite h h.setMif.update)
theorem Keeps.retain {s t : State} (h : s.Keeps t) {h' : Nat} : s.Keeps (t.retain h') := h.modHalf.wgB.wgB
theorem Goes.execSelfRefreshEntry {s t : State} (h : s.Keeps t) {half : Nat} : s.Goes (execSelfRefreshEntry half t) :=
  Goes.ite h (Keeps.ite h.retain h)
theorem Goes.execCacheWake {s t : State} (h : s.Keeps t) {half : Nat} : s.Goes (execCacheWake half t) :=
  Goes.ite h (Keeps.ite h.modHalf h)
theorem Goes.execCacheWakeDone {s t : State} (h : s.Keeps t) {half : Nat} : s.Goes (execCacheWakeDone half t) :=
  Goes.ite h (Keeps.ite h.cacheAwake h)
theorem Goes.execRetentionReturn {s t : State} (h : s.Keeps t) {half : Nat} : s.Goes (execRetentionReturn half t) :=
  Goes.ite h (Keeps.ite h.retain h)
theorem Keeps.setPinF {s t : State} (h : s.Keeps t) {t' i hi lo v : Nat} : s.Keeps (t.setPinF t' i hi lo v) := h.wgF.wgF
theorem Keeps.pinSync {s t : State} (h : s.Keeps t) {t' : Nat} : s.Keeps (t.pinSync t') :=
  Keeps.foldl (fun _ _ h0 => Keeps.wgB (Keeps.foldl (fun _ _ h3 => Keeps.ite h3 h3.wgF) _ h0)) _ h
theorem Keeps.flushLine {s t : State} (h : s.Keeps t) {h' line : Nat} {dirty : BitVec 4} : s.Keeps (t.flushLine h' line dirty) :=
  Keeps.ite h h.setMif.writeLine.bump64.bump64.bump64
theorem Keeps.dropGranules {s t : State} (h : s.Keeps t) {a n : Nat} : s.Keeps (t.dropGranules a n) := h.clear.update
theorem Keeps.resizeWindow {s t : State} (h : s.Keeps t) {h' sl w p : Nat} : s.Keeps (t.resizeWindow h' sl w p) :=
  Keeps.pinSync (Keeps.wg (Keeps.foldl (fun _ _ h35 => h35.wayGranule) _ (Keeps.modHalf (Keeps.dropGranules (Keeps.foldl (fun _ _ h34 =>
    h34.flushLine.uncover) _ h)))))
theorem Keeps.loseWindow {s t : State} (h : s.Keeps t) {h' sl site : Nat} : s.Keeps (t.loseWindow h' sl site) :=
  Keeps.resizeWindow (Keeps.ite (Keeps.foldl (fun _ _ h2 => h2.unrecovered) _ h) h)
theorem Keeps.copyWindow {s t : State} (h : s.Keeps t) {src dst : Nat} : s.Keeps (t.copyWindow src dst) :=
  Keeps.ite h h.resizeWindow.copyRange.bump.update.resizeWindow
theorem Keeps.modRoster {s t : State} (h : s.Keeps t) {f : Roster → Roster} : s.Keeps (t.modRoster f) := h.update

theorem Keeps.noCoreLeft {s t : State} (h : s.Keeps t) {p : Option Nat} {site : Nat} : s.Keeps (t.noCoreLeft p site) := by
  unfold State.noCoreLeft
  split
  · exact h
  · exact Keeps.ite (Keeps.foldl (fun _ _ h0 => h0.unrecovered) _ h) h

theorem Keeps.replaceCore_fst {s t : State} (h : s.Keeps t) {p : Option Nat} {site : Nat} : s.Keeps (t.replaceCore p site).1 := by
  unfold State.replaceCore
  dsimp only
  split
  · exact h.noCoreLeft
  · exact Keeps.wakeRegion (Keeps.modRoster (Keeps.ite h.loseWindow h))

theorem Keeps.replayBlock {s t : State} (h : s.Keeps t) {site : Nat} {bs : Option Nat} {b : Block} {router : Bool} {cls other : Nat} :
    s.Keeps (t.replayBlock site bs b router cls other) := by
  unfold State.replayBlock
  split
  · exact h.unrecoveredBy
  · exact h.takeForReplay.traceCoppice
  · exact h

theorem Keeps.takeBlocks {s t : State} (h : s.Keeps t) {site cls : Nat} {router : Bool} : s.Keeps (t.takeBlocks site cls router) := by
  unfold State.takeBlocks
  dsimp only
  refine Keeps.dropQueued (Keeps.foldl (fun _ _ h4 => h4.dropBlock) _ (Keeps.foldl (fun _ _ h3 => ?_) _ h))
  split
  · exact h3
  · refine Keeps.ite h3.replayBlock (Keeps.ite ?_ h3)
    split
    · exact h3.unrecovered
    · exact h3

theorem Keeps.latchEnd {s t : State} (h : s.Keeps t) {site : Nat} : s.Keeps (t.latchEnd site) := h.update
theorem Keeps.idleCore {s t : State} (h : s.Keeps t) {site : Nat} : s.Keeps (t.idleCore site) := h.setCore.arrSync.espSync
theorem Keeps.answerFenced {s t : State} (h : s.Keeps t) {site : Nat} : s.Keeps (t.answerFenced site) :=
  Keeps.foldl (fun _ _ h0 => h0.obeyed) _ h
theorem Keeps.fenceOnly {s t : State} (h : s.Keeps t) {site cls : Nat} {router : Bool} : s.Keeps (t.fenceOnly site cls router) := by
  unfold State.fenceOnly
  exact h.takeBlocks.latchEnd.idleCore.dropHalts.modRoster.answerFenced.modHealth

theorem Keeps.fenceCore {s t : State} (h : s.Keeps t) {site cls : Nat} {router : Bool} : s.Keeps (t.fenceCore site cls router) := by
  refine Keeps.ite h (Keeps.traceCoppice (Keeps.healthEntry ?_))
  split
  · exact h.fenceOnly.replaceCore_fst
  · exact Keeps.fst_ite h.fenceOnly.replaceCore_fst h.fenceOnly

theorem Keeps.joinCore {s t : State} (h : s.Keeps t) {i failed : Nat} : s.Keeps (t.joinCore i failed) :=
  Keeps.traceCoppice (Keeps.healthEntry (Keeps.coreBoundary (Keeps.update (Keeps.ite (Keeps.modHealth (Keeps.modRoster (Keeps.modEsp
    (Keeps.ite h (Keeps.ite h.copyWindow h.loseWindow))))) (Keeps.update (Keeps.modHealth (Keeps.modRoster (Keeps.modEsp (Keeps.ite h
    (Keeps.ite h.copyWindow h.loseWindow))))))))))

theorem Keeps.writeOverrides {s t : State} (h : s.Keeps t) {i j : Nat} {router : Bool} : s.Keeps (t.writeOverrides i j router) := by
  refine Keeps.foldl (fun _ _ h0 => ?_) _ h
  split
  · exact h0
  · exact h0.wg

theorem Keeps.passBy {s t : State} (h : s.Keeps t) {e : Nat} : s.Keeps (t.passBy e) :=
  Keeps.wgF (Keeps.ite (Keeps.foldl (fun _ _ h6 => h6.writeOverrides) _ h.update) h.update.writeOverrides)
theorem Keeps.bypass {s t : State} (h : s.Keeps t) {e : Nat} : s.Keeps (t.bypass e) := h.passBy.healthEntry
theorem Keeps.loseHalf {s t : State} (h : s.Keeps t) {h' : Nat} : s.Keeps (t.loseHalf h') :=
  Keeps.ite h (Keeps.healthEntry (Keeps.foldl (fun _ _ h318 => h318.fenceCore) _ (Keeps.oredSync (Keeps.setHalf (Keeps.foldl (fun _ _
    h317 => Keeps.ite h317 h317.loseWindow) _ (Keeps.foldl (fun _ _ h316 => h316.unrecovered) _ h.modHealth.modRoster))))))
theorem Keeps.failRouter {s t : State} (h : s.Keeps t) {i cls : Nat} : s.Keeps (t.failRouter i cls) :=
  Keeps.ite h (Keeps.ite h.bypass.fenceCore h.loseHalf)
theorem Keeps.failLink {s t : State} (h : s.Keeps t) {a b : Nat} : s.Keeps (t.failLink a b) := Keeps.ite h (Keeps.ite h.bypass h.loseHalf)

theorem Keeps.modLines {s t : State} (h : s.Keeps t) {h' a n : Nat} {flush : Bool} {f : Line → Line} :
    s.Keeps (t.modLines h' a n flush f) := by
  unfold State.modLines
  exact Keeps.modHalf (Keeps.ite (Keeps.foldl (fun _ _ h2 => h2.flushLine) _ h) h)

theorem Keeps.demote {s t : State} (h : s.Keeps t) {h' i : Nat} : s.Keeps (t.demote h' i) :=
  h.modLines.modLines.setPinF.bump.wgF.wgB.pinSync
theorem Keeps.thrashEvent {s t : State} (h : s.Keeps t) {h' : Nat} : s.Keeps (t.thrashEvent h') :=
  Keeps.ite h.wgB.bump.adminEvent h.wgB.bump

theorem Goes.execThrashWindowEnd {s t : State} (h : s.Keeps t) {half : Nat} : s.Goes (execThrashWindowEnd half t) := by
  refine Goes.ite h (Goes.ite h (Keeps.ite (Keeps.ite ?_ h.setHalf.wgF.wgF.wgF.thrashEvent) h.setHalf.wgF.wgF.wgF))
  split
  · exact h.setHalf.wgF.wgF.wgF.thrashEvent.demote
  · exact h.setHalf.wgF.wgF.wgF.thrashEvent

theorem Goes.execCacheRemap {s t : State} (h : s.Keeps t) {half slice word : Nat} : s.Goes (execCacheRemap half slice word t) := by
  unfold Machine.execCacheRemap
  dsimp only
  refine Goes.ite h ?_
  split
  · exact h
  · refine Goes.ite h.wgB ?_
    split
    · exact h.dueRetire
    · refine Keeps.modHealth (Keeps.storeDue (Keeps.wgB (Keeps.wg ?_)))
      split
      · exact Keeps.ite h.poisonAll h
      · exact h

theorem Keeps.remapLine {s t : State} (h : s.Keeps t) {dev line : Nat} {hit : List Nat} : s.Keeps (t.remapLine dev line hit) := by
  refine Keeps.ite (Keeps.foldl (fun _ _ h0 => h0.wgB) _ h) ?_
  split
  · exact Keeps.ite h h.modHealth.adminEvent.healthEntry
  · exact Keeps.modHealth (Keeps.storeDue (Keeps.foldl (fun _ _ h7 => h7.wgB) _ h.wg.wg))

theorem Goes.execMemoryRemap {s t : State} (h : s.Keeps t) {dev line : Nat} : s.Goes (execMemoryRemap dev line t) :=
  Goes.ite h (Keeps.ite h h.remapLine)
theorem Keeps.scrubInject_fst {s t : State} (h : s.Keeps t) {stack key : Nat} : s.Keeps (t.scrubInject stack key).1 := h.update

theorem Keeps.voidWord {s t : State} (h : s.Keeps t) {h' p : Nat} {err : CacheErr} : s.Keeps (t.voidWord h' p err) := by
  unfold State.voidWord
  dsimp only
  split
  · exact h.bump.elog
  · exact h.bump.elog.adminEvent
  · exact h

theorem Keeps.scrubCache {s t : State} (h : s.Keeps t) {h' : Nat} {err : CacheErr} : s.Keeps (t.scrubCache h' err) := by
  unfold State.scrubCache
  dsimp only
  split
  · exact h
  · refine Keeps.ite h (Keeps.ite (Keeps.bump ?_) ?_)
    · split
      · exact h.scrubInject_fst.modHalf.sliceErr.bump
      · exact h.scrubInject_fst.modHalf.voidWord
    · split
      · exact h.scrubInject_fst.modHalf.sliceErr.bump
      · exact h.scrubInject_fst.modHalf.voidWord

theorem Keeps.scrubWrites {s t : State} (h : s.Keeps t) {dev : Nat} {w : Nat × List Nat × Bool} : s.Keeps (t.scrubWrites dev w) :=
  Keeps.ite h.setMif (Keeps.ite h.setMif.scrubInject_fst.bump64.bump64 (Keeps.ite (Keeps.ite
    h.setMif.scrubInject_fst.bump64.bump64.setMif h.setMif.scrubInject_fst.bump64.bump64) (Keeps.ite
    h.setMif.scrubInject_fst.bump64.bump64.poisonAll (Keeps.ite h.setMif.scrubInject_fst.bump64.bump64
    h.setMif.scrubInject_fst.bump64.bump64.unmark.invert))))

theorem Keeps.scrubBeat {s t : State} (h : s.Keeps t) {dev beat : Nat} {x : BeatErr} : s.Keeps (t.scrubBeat dev beat x) := by
  unfold State.scrubBeat
  dsimp only
  split
  · exact Keeps.setMif (Keeps.ite h.beatReport.bump h.beatReport)
  · exact Keeps.setMif (Keeps.ite h.beatReport.bump h.beatReport)
  · exact Keeps.setMif (Keeps.ite h.beatReport.bump h.beatReport)
  · exact Keeps.ite h.beatReport.bump h.beatReport

theorem Keeps.scrubMemory {s t : State} (h : s.Keeps t) {dev : Nat} {err : MemErr} : s.Keeps (t.scrubMemory dev err) := by
  unfold State.scrubMemory
  dsimp only
  split
  · exact h
  · refine Keeps.ite h (Keeps.trans ?_ (Keeps.ite (Keeps.refl _).bump (Keeps.refl _)))
    split
    · exact Keeps.ite h.setMif.scrubInject_fst.bump.deliver h.setMif.scrubInject_fst.bump.bump64.bump64
    · exact Keeps.bitmapFixed (Keeps.ite h.setMif.scrubInject_fst.bump.deliver h.setMif.scrubInject_fst.bump.bump64.bump64)
    · exact Keeps.bitmapLost (Keeps.ite h.setMif.scrubInject_fst.bump.deliver h.setMif.scrubInject_fst.bump.bump64.bump64)
    · exact Keeps.ite (Keeps.ite h.setMif.scrubInject_fst.bump.deliver h.setMif.scrubInject_fst.bump.bump64.bump64) (Keeps.foldl (fun _
        _ h76 => h76.scrubBeat) _ (Keeps.ite h.setMif.scrubInject_fst.bump.deliver h.setMif.scrubInject_fst.bump.bump64.bump64))

theorem Goes.execScrubAccess {s t : State} (h : s.Keeps t) {target : ScrubTarget} : s.Goes (execScrubAccess target t) := by
  unfold Machine.execScrubAccess
  split
  · exact Goes.ite h (Keeps.ite h.scrubCache h)
  · refine Goes.ite h (Goes.ite h ?_)
    split
    · exact Keeps.ite h.scrubWrites h
    · exact Keeps.ite h.scrubMemory h

theorem Keeps.queueTest {s t : State} (h : s.Keeps t) {h' sl : Nat} : s.Keeps (t.queueTest h' sl) := h.modHalf
theorem Keeps.laneError {s t : State} (h : s.Keeps t) {h' sl lane : Nat} : s.Keeps (t.laneError h' sl lane) :=
  Keeps.ite h.setHalf.queueTest h.setHalf
theorem Keeps.redeliver {s t : State} (h : s.Keeps t) {found : State} {a : Nat} : s.Keeps (t.redeliver found a) := h.update

theorem Keeps.resent {s t : State} (h : s.Keeps t) {hf sl lane w a : Nat} {write : Bool} {err : CacheErr} :
    s.Keeps (t.resent hf sl lane w a write err) := by
  have hd (u v : State) (hu : s.Keeps u) (hv : s.Keeps v) :
      s.Keeps (if write then { u with mem := v.mem, poison := v.poison } else u.redeliver v a) := .ite (hu.withMemory hv) hu.redeliver
  unfold State.resent
  dsimp only
  generalize verdict _ = v
  cases v with
  | clean => exact h
  | poison => exact .ite h (hd _ _ h.bump h.poisonAll)
  | corrected i => exact hd _ _ h.bump.elog.laneError h.turned
  | uncorrectable =>
    exact hd _ _ (Keeps.ite h.bump.elog.adminEvent.queueTest.modHalf h.bump.elog.adminEvent.queueTest)
      (Keeps.ite h.bump.elog.adminEvent.queueTest.modHalf h.bump.elog.adminEvent.queueTest).poisonAll

theorem Goes.execPortResend {s t : State} (h : s.Keeps t) {half slice lane word : Nat} {write : Bool} {result : CacheErr} :
    s.Goes (execPortResend half slice lane word write result t) := by
  refine Goes.ite h ?_
  split
  · exact h
  · split
    · exact h.bump.resent
    · exact h.bump.resent
    · exact h.bump

theorem Keeps.portLows {s t : State} (h : s.Keeps t) {h' : Nat} : s.Keeps (t.portLows h') :=
  Keeps.ite h (Keeps.foldl (fun _ _ h0 => h0.modHalf) _ h)
theorem Keeps.startTest {s t : State} (h : s.Keeps t) {h' sl : Nat} : s.Keeps (t.startTest h' sl) := Keeps.ite h.wgB h
theorem Keeps.dueTest {s t : State} (h : s.Keeps t) {h' sl : Nat} : s.Keeps (t.dueTest h' sl) := Keeps.ite h.startTest h
theorem Goes.execPortTest {s t : State} (h : s.Keeps t) {half slice : Nat} : s.Goes (execPortTest half slice t) := Goes.ite h h.dueTest

theorem Keeps.failLane_fst {s : State} {x : State × List Bool} (h : s.Keeps x.1) {hf sl lane : Nat} :
    s.Keeps (State.failLane hf sl x lane).1 :=
  .fst_ite h (.fst_ite h.setHalf.modHealth.pair h.setHalf.modHealth.wgF.pair)

theorem Keeps.portResult {s t : State} (h : s.Keeps t) {hf sl : Nat} {failed : List Nat} : s.Keeps (t.portResult hf sl failed) := by
  unfold State.portResult
  dsimp only
  generalize hx : failed.foldl (State.failLane hf sl) _ = x
  have h1 : s.Keeps x.1 := hx ▸ Keeps.fst_foldl (fun _ _ h0 => h0.failLane_fst) _ (Keeps.ite h h.wgB).pair
  split
  · exact .ite h1.dueRetire (.ite h1.wgF.modHealth (.ite h1.wgF.modHealth h1))
  · exact .ite h1.dueRetire h1
  · exact .ite h1.dueRetire h1
  · exact h1

theorem Keeps.testDone {s t : State} (h : s.Keeps t) {h' sl : Nat} {failed : List Nat} : s.Keeps (t.testDone h' sl failed) :=
  h.wgB.modHalf.portResult.unstallSlice
theorem Goes.execPortTestDone {s t : State} (h : s.Keeps t) {half slice : Nat} {failed : List Nat} :
    s.Goes (execPortTestDone half slice failed t) :=
  Goes.ite h (Goes.ite (Keeps.ite h.testDone.loseHalf h.testDone) h)

theorem Keeps.replaceAbove {s t : State} (h : s.Keeps t) {site w p : Nat} : s.Keeps (t.replaceAbove site w p) := by
  unfold State.replaceAbove
  dsimp only
  refine Keeps.ite h ?_
  split
  · exact h
  · exact Keeps.wakeRegion (Keeps.ite h.takeBlocks.latchEnd.idleCore.modRoster.modRoster.modHealth.resizeWindow
      h.takeBlocks.latchEnd.idleCore.modRoster.modRoster.modHealth)

theorem Keeps.retireWindow {s t : State} (h : s.Keeps t) {h' sl : Nat} : s.Keeps (t.retireWindow h' sl) :=
  Keeps.ite h (Keeps.ite h.loseWindow h.resizeWindow.replaceAbove)

theorem Goes.execSliceRetire {s t : State} (h : s.Keeps t) {half slice : Nat} {errs : List (Nat × CacheErr)} :
    s.Goes (execSliceRetire half slice errs t) :=
  Goes.ite h (Goes.ite h (Keeps.traceCoppice (Keeps.healthEntry (Keeps.modHealth (Keeps.wgF (Keeps.wgF (Keeps.flushSync (Keeps.wgF
    (Keeps.modHalf (Keeps.retireWindow (Keeps.modHalf (Keeps.foldl (fun _ _ h148 => h148.flushLine) _ (Keeps.foldl (fun _ _ h147 =>
    h147.sliceErr) _ h)))))))))))))

theorem Keeps.rehomeMap {s t : State} (h : s.Keeps t) {hf sl : Nat} : s.Keeps (t.rehomeMap hf sl) := by
  unfold State.rehomeMap
  refine Keeps.fst_foldl (fun _ _ h0 => ?_) _ h
  dsimp only
  split
  · exact h0
  · exact h0.setHome.modHealth.pair

theorem Keeps.rehomeLine_some {s t : State} (h : s.Keeps t) {hf : Nat} {l : Line} :
    ∀ u, t.rehomeLine hf l = some u → s.Keeps u.1 := by
  intro u hu
  obtain ⟨v, hv, rfl⟩ := Option.map_eq_some_iff.mp hu
  exact h.takeWay_some v hv

theorem Keeps.rehomeLines_some {s t : State} (h : s.Keeps t) {hf : Nat} {ls : List Line} :
    ∀ u, t.rehomeLines hf ls = some u → s.Keeps u.1 := by
  induction ls generalizing t with
  | nil => rintro u hu; cases hu; exact h
  | cons l ls ih =>
    intro u hu
    unfold State.rehomeLines at hu
    split at hu
    · cases hu
    · next v ok hv =>
      obtain ⟨r, hr, rfl⟩ := Option.map_eq_some_iff.mp hu
      exact ih (h.rehomeLine_some _ hv) r hr

theorem Keeps.demotedBy {s t : State} (h : s.Keeps t) {h' : Nat} {lines : List Nat} : s.Keeps (t.demotedBy h' lines) :=
  Keeps.ite h (Keeps.thrashEvent (Keeps.foldl (fun _ _ h0 => Keeps.ite h0.setPinF.bump h0) _ h))
theorem Keeps.rehomed_some {s t : State} (h : s.Keeps t) {half slice : Nat} : ∀ u, t.rehomed half slice = some u → s.Keeps u.1 :=
  Keeps.rehomeLines_some (Keeps.rehomeMap (Keeps.modHalf (Keeps.foldl (fun _ _ h5 => h5.uncover) _ h)))
theorem Keeps.startTraining {s t : State} (h : s.Keeps t) : s.Keeps (t.startTraining) :=
  Keeps.ite (Keeps.foldl (fun _ _ h0 => h0.wgF) _ h) h

theorem Goes.execRehomeDone {s t : State} (h : s.Keeps t) {half slice : Nat} : s.Goes (Machine.execRehomeDone half slice t) := by
  refine Goes.ite h (Goes.ite h ?_)
  split
  · exact h
  · next hu => exact (h.rehomed_some _ hu).demotedBy.flushSync.pinSync.startTraining

theorem Goes.onSite {s t : State} (h : s.Keeps t) {site : Nat} {u : State} (hu : s.Keeps u) : s.Goes (Machine.onSite t site u) :=
  Goes.ite h hu

theorem Keeps.fenceReach {s t : State} (h : s.Keeps t) {site : Nat} : s.Keeps (t.fenceReach site) := by
  unfold State.fenceReach
  split
  · exact h
  · exact h.update.fenceCore

theorem Goes.execCoreFence {s t : State} (h : s.Keeps t) {site : Nat} {cause : CoreCause} : s.Goes (execCoreFence site cause t) := by
  unfold Machine.execCoreFence
  dsimp only
  refine Goes.onSite h (Keeps.ite h.fenceCore ?_)
  split
  · exact Keeps.ite h.obeyed.fenceReach h
  · exact Keeps.ite h (Keeps.ite (Keeps.ite h h.update) (Keeps.sendOrder (Keeps.ite h h.update)))

theorem Goes.execControlAckTimeout {s t : State} (h : s.Keeps t) {site : Nat} : s.Goes (execControlAckTimeout site t) := by
  unfold Machine.execControlAckTimeout
  exact Goes.onSite h (Keeps.ite h.fenceCore h)

theorem Goes.execWakeCheckDone {s t : State} (h : s.Keeps t) {site : Nat} {pass : Bool} : s.Goes (execWakeCheckDone site pass t) := by
  unfold Machine.execWakeCheckDone
  refine Goes.onSite h ?_
  split
  · exact h
  · exact Keeps.ite h (Keeps.ite h.fenceCore (Keeps.ite h.joinCore h.modRoster))

theorem Goes.execWindowCopy {s t : State} (h : s.Keeps t) {src dst : Nat} : s.Goes (execWindowCopy src dst t) :=
  Goes.ite h (Keeps.ite h.copyWindow h)

theorem Keeps.restrict {s t : State} (h : s.Keeps t) {site lane : Nat} : s.Keeps (t.restrict site lane) := by
  unfold State.restrict
  dsimp only
  exact Keeps.healthEntry (Keeps.fst_ite (Keeps.replaceCore_fst (Keeps.modHealth (Keeps.modRoster (Keeps.ite
    h.takeBlocks.latchEnd.idleCore h)))) (Keeps.modHealth (Keeps.modRoster (Keeps.ite h.takeBlocks.latchEnd.idleCore h))).pair)

theorem Goes.execLaneFault {s t : State} (h : s.Keeps t) {site lane : Nat} : s.Goes (execLaneFault site lane t) := by
  unfold Machine.execLaneFault
  refine Goes.onSite h (Keeps.ite h ?_)
  split
  · exact h.restrict
  · exact Keeps.ite h h.fenceCore

theorem Keeps.darken {s t : State} (h : s.Keeps t) {r : Nat} : s.Keeps (t.darken r) :=
  Keeps.ite h (Keeps.healthEntry (Keeps.foldl (fun _ _ h102 => Keeps.ite h102 h102.dueRetire) _ (Keeps.foldl (fun _ _ h101 => Keeps.ite
    h101 h101.bypass) _ (Keeps.foldl (fun _ _ h100 => h100.fenceCore) _ h.setReg.meshSync.govForget.modHealth))))

theorem Goes.execRegulatorFail {s t : State} (h : s.Keeps t) {stack region : Nat} : s.Goes (execRegulatorFail stack region t) :=
  Goes.ite h (Goes.ite h (Keeps.ite (Keeps.ite h.setReg.bump.modHealth.healthEntry
    h.setReg.bump.modHealth.healthEntry.capRegion.govSync) (Keeps.foldl (fun _ _ h6 => h6.darken) _
    h.setReg.bump.modHealth.healthEntry)))

theorem Goes.execRouterCreditTimeout {s t : State} (h : s.Keeps t) {site : Nat} : s.Goes (execRouterCreditTimeout site t) := by
  unfold Machine.execRouterCreditTimeout
  exact Goes.onSite h h.failRouter
theorem Goes.execRouterBypass {s t : State} (h : s.Keeps t) {site : Nat} : s.Goes (execRouterBypass site t) := by
  unfold Machine.execRouterBypass
  exact Goes.onSite h h.failRouter
theorem Keeps.resend {s t : State} (h : s.Keeps t) {cid : Nat} : s.Keeps (t.resend cid) := h.modCmd.update
theorem Goes.execCommandProcessorWatchdog {s t : State} (h : s.Keeps t) {stack cp : Nat} :
    s.Goes (execCommandProcessorWatchdog stack cp t) :=
  Goes.ite h (Keeps.foldl (fun _ _ h2 => Keeps.ite h2.unrecovered h2.resend.traceCoppice) _ h.update)
theorem Goes.execHalfLoss {s t : State} (h : s.Keeps t) {half : Nat} : s.Goes (execHalfLoss half t) := Goes.ite h h.loseHalf
theorem Keeps.setPacket {s t : State} (h : s.Keeps t) {pid : Nat} {f : Packet → Option Packet} : s.Keeps (t.setPacket pid f) := h.update
theorem Keeps.linkCheck {s t : State} (h : s.Keeps t) {i j : Nat} : s.Keeps (t.linkCheck i j) := Keeps.ite h.update.failLink h.update

theorem Keeps.arrive {s t : State} (h : s.Keeps t) {k : Packet} : s.Keeps (t.arrive k) := by
  unfold State.arrive
  dsimp only
  split
  · exact h.setPacket
  · split
    · exact Keeps.ite h.setPacket.obeyed h.setPacket.setReq
    · exact Keeps.ite h.setPacket.setReq h.setPacket.respond
    · exact h.setPacket.respond
    · exact h.setPacket.respond
    · exact h.setPacket

theorem Goes.execRouterPacket {s t : State} (h : s.Keeps t) {pid : Nat} {checkFail : Bool} :
    s.Goes (execRouterPacket pid checkFail t) := by
  unfold Machine.execRouterPacket
  split
  · exact h
  · refine Goes.ite h.setPacket (Goes.ite h ?_)
    split
    · exact Keeps.ite h h.arrive
    · exact Goes.ite (Keeps.linkCheck (Keeps.bump (Keeps.setPacket (Keeps.ite h.addC0 h)))) (Keeps.setPacket (Keeps.ite h.addC0 h))

theorem Keeps.answer {s t : State} (h : s.Keeps t) {r : Req} : s.Keeps (t.answer r) := by
  refine Keeps.ite h (Keeps.ite (Keeps.modCore ?_) ?_)
  · split
    · exact Keeps.ite h.update h.update.bump64
    · exact Keeps.modGroup (Keeps.ite h.update h.update.bump64)
  · split
    · exact Keeps.ite h.update h.update.bump64
    · exact Keeps.modGroup (Keeps.ite h.update h.update.bump64)

theorem Keeps.completed {s t : State} (h : s.Keeps t) {r : Req} : s.Keeps (t.completed r) := by
  refine Keeps.ite h.answer.setReq ?_
  split
  · exact h.answer.dropReq
  · exact h.answer.setReq

theorem Keeps.refusedBack {s t : State} (h : s.Keeps t) {r : Req} : s.Keeps (t.refusedBack r) := by
  refine Keeps.ite h (Keeps.ite h.raiseLate (Keeps.ite ?_ (Keeps.ite ?_ (Keeps.ite h.unrecovered h))))
  · split
    · exact h.tileBad
    · exact h
  · split
    · exact h.raiseLate
    · exact h

theorem Keeps.takeAnswer {s t : State} (h : s.Keeps t) {r : Req} : s.Keeps (t.takeAnswer r) :=
  Keeps.ite h.completed.refusedBack h.completed

theorem Goes.execRequestRetry {s t : State} (h : s.Keeps t) {rid : Nat} : s.Goes (execRequestRetry rid t) := by
  unfold Machine.execRequestRetry
  split
  · exact h
  · exact Goes.ite (Keeps.ite h.setReq.bump h.setReq.bump.postPacket) h

theorem Keeps.again {s t : State} (h : s.Keeps t) {r : Req} : s.Keeps (t.again r) := h.update

theorem Keeps.replayAfter {s t : State} (h : s.Keeps t) {r : Req} : s.Keeps (t.replayAfter r) := by
  unfold State.replayAfter
  dsimp only
  refine Keeps.ite h (Keeps.ite h.again.postPacket ?_)
  split
  · exact h
  · split
    · exact Keeps.ite h.replayBlock h
    · exact h

theorem Goes.execRequestGiveUp {s t : State} (h : s.Keeps t) {rid : Nat} : s.Goes (execRequestGiveUp rid t) := by
  unfold Machine.execRequestGiveUp
  split
  · exact h
  · exact Goes.ite h.dropReq.bump.update.replayAfter h

theorem Goes.execRecordRelease {s t : State} (h : s.Keeps t) {which : Released} : s.Goes (execRecordRelease which t) := by
  unfold Machine.execRecordRelease
  split
  · exact h.update
  · split
    · exact h.releaseRecords
    · exact h.update

theorem Goes.execBudgetWindowBoundary {s t : State} (h : s.Keeps t) : s.Goes (execBudgetWindowBoundary t) :=
  Goes.ite h (Keeps.update (Keeps.foldl (fun _ _ h2 => h2.bump) _ h))

theorem Goes.execCrossingModeSwitch {s t : State} (h : s.Keeps t) {stack half : Nat} : s.Goes (execCrossingModeSwitch stack half t) := by
  unfold Machine.execCrossingModeSwitch
  dsimp only
  refine Goes.ite h ?_
  split
  · exact h
  · exact h.update.wgB

theorem Keeps.latchReach {s t : State} (h : s.Keeps t) {cid site : Nat} : s.Keeps (t.latchReach cid site) := h.modCmd

theorem Goes.execRingMessage {s t : State} (h : s.Keeps t) {msg : CtlMsg} : s.Goes (execRingMessage msg t) := by
  unfold Machine.execRingMessage
  split
  · exact Goes.onSite h (Keeps.ite h.launchReach h)
  · exact Goes.onSite h (Keeps.ite h.endReach h)
  · exact Goes.onSite h (Keeps.ite h.ackReach h)
  · exact Goes.onSite h (Keeps.ite h.dropL1 h)
  · exact Goes.onSite h (Keeps.ite h.latchReach h)
  · exact Goes.onSite h (Keeps.ite h.resetReach h)
  · exact Goes.onSite h (Keeps.ite h.fenceReach h)

theorem Goes.execRingLinkFail {s t : State} (h : s.Keeps t) {stack layer : Nat} : s.Goes (execRingLinkFail stack layer t) :=
  Goes.ite h (Goes.ite h.update.wgB.adminEvent h)

end Sys2Proof.Machine.State
end

section
/-! PROOF. What every operation keeps: queues, and the commands of hosts. -/

namespace Sys2Proof.Machine.State

theorem Keeps.ringBell {s t : State} (h : s.Keeps t) {port qi : Nat} {tail : Bool} {v : Nat} : s.Keeps (t.ringBell port qi tail v) :=
  Keeps.ite h.hostRx.bump (Keeps.ite h.hostRx (Keeps.ite h.hostRx.stopQueue h.hostRx.setQueue))
theorem Keeps.setPosted {s t : State} (h : s.Keeps t) {port : Nat} {l : List (Bool × Nat × List Byte)} : s.Keeps (t.setPosted port l) :=
  Keeps.ite h h.setPort
theorem Goes.doorbell {s t : State} (h : s.Keeps t) {port qi : Nat} {tail : Bool} {value : W32} :
    s.Goes (doorbell t port qi tail value) :=
  Goes.ite h (Goes.ite h (Goes.ite h.ringBell h.setPosted))
theorem Goes.execSqTailDoorbell {s t : State} (h : s.Keeps t) {port queue : Nat} {value : W32} :
    s.Goes (execSqTailDoorbell port queue value t) :=
  Goes.doorbell h
theorem Goes.execCqHeadDoorbell {s t : State} (h : s.Keeps t) {port queue : Nat} {value : W32} :
    s.Goes (execCqHeadDoorbell port queue value t) :=
  Goes.doorbell h

theorem Goes.execQueueEnable {s t : State} (h : s.Keeps t) {port queue : Nat} {word : W32} :
    s.Goes (execQueueEnable port queue word t) :=
  Goes.ite h (Goes.ite h (Goes.ite h.hostRx (Goes.ite (Keeps.setQueue (Keeps.ite h.hostRx h.hostRx.endRead)) (Goes.ite h.hostRx.setQueue
    (Goes.ite h.hostRx.setQueue.setQueue h.hostRx.setQueue.stopQueue)))))

theorem Keeps.askHost {s t : State} (h : s.Keeps t) {port qi : Nat} : s.Keeps (t.askHost port qi) := Keeps.ite h.stall h.unstall.setPort
theorem Keeps.arrives {s t : State} (h : s.Keeps t) {port queue : Nat} {bs : List PByte} : s.Keeps (t.arrives port queue bs) :=
  Keeps.ite h.update.setQueue.consumePort (Keeps.ite h.update.setQueue h.update.setQueue.finish)

theorem Goes.execCommandFetch {s t : State} (h : s.Keeps t) {port queue : Nat} {readFails : Bool} :
    s.Goes (execCommandFetch port queue readFails t) := by
  unfold Machine.execCommandFetch
  dsimp only
  refine Goes.ite h (Goes.ite h (Goes.ite h.stall (Goes.ite ?_ (Goes.ite h.askHost (Goes.ite h.unstall.endRead.stopQueue
    h.unstall.endRead.hostRx.arrives)))))
  split
  · exact h.unstall.used.arrives
  · exact h.unstall.queueRead.sendQueued

theorem Keeps.begin {s t : State} (h : s.Keeps t) {cid : Nat} : s.Keeps (t.begin cid) := by
  unfold State.begin
  dsimp only
  split
  · exact h.modCmd.takeIndex.traceCmd
  · exact h.modCmd.takeIndex

theorem Goes.runCmd {s t : State} (h : s.Keeps t) {cid : Nat} {ok : Cmd → Bool} {body : State → Cmd → State}
    (hb : ∀ u c, s.Keeps u → s.Keeps (body u c)) : s.Goes (Machine.runCmd t cid ok body) := by
  unfold Machine.runCmd
  split
  · exact h
  · refine Goes.ite h (Goes.ite (Goes.ite h ?_) (Goes.ite (hb _ _ h) h))
    split
    · exact h.finish
    · show s.Keeps _
      split
      · exact hb _ _ h.begin
      · exact h.begin

theorem Goes.execCommandTimeout {s t : State} (h : s.Keeps t) {cid : Nat} : s.Goes (execCommandTimeout cid t) := by
  unfold Machine.execCommandTimeout
  split
  · exact h
  · split
    · exact h
    · exact Keeps.ite h (Keeps.ite h.setCmd (Keeps.ite h.endCmd h))

theorem Goes.execNopCommand {s t : State} (h : s.Keeps t) {cid : Nat} : s.Goes (execNopCommand cid t) :=
  Goes.runCmd h (fun _ _ h0 => h0.finish)
theorem Goes.execLaunch {s t : State} (h : s.Keeps t) {cid : Nat} : s.Goes (execLaunch cid t) := Goes.runCmd h (fun _ _ h0 => h0)
theorem Keeps.pieceDone {s t : State} (h : s.Keeps t) {c : Cmd} {total : Nat} : s.Keeps (t.pieceDone c total) :=
  Keeps.ite h (Keeps.ite h.modCmd.finish h.modCmd)
theorem Keeps.pieceEats {s t : State} (h : s.Keeps t) {c : Cmd} {i port : Nat} : s.Keeps (t.pieceEats c i port) :=
  Keeps.ite h.modCmd.traceCoppice h.consumePort

theorem Keeps.movePiece {s t : State} (h : s.Keeps t) {c : Cmd} {total : Nat} {src dst : List Piece}
    {send : State → List PByte → State} (hs : ∀ u bs, s.Keeps u → s.Keeps (send u bs)) :
    s.Keeps (t.movePiece c total src dst send) := by
  refine .ite (.ite h h.pieceDone) ?_
  split
  · split
    · exact (hs _ _ h.used.modCmd).sendQueued
    · exact h.used.pieceEats
    · exact h.used.pieceEats
  · exact h.ask
  · exact h.used.unrecovered

theorem Goes.execCopy {s t : State} (h : s.Keeps t) {cid : Nat} : s.Goes (execCopy cid t) :=
  Goes.runCmd h (fun _ _ h0 => Keeps.ite h0.finish (h0.movePiece (fun _ _ h1 => h1.scatter)))
theorem Goes.execFill {s t : State} (h : s.Keeps t) {cid : Nat} : s.Goes (execFill cid t) :=
  Goes.runCmd h (fun _ _ h0 => h0.movePiece (fun _ _ h1 => h1.scatter))
theorem Keeps.queueReduce {s t : State} (h : s.Keeps t) {e : Eng} {op : Nat} {ordered : Bool} {i a : Nat} {bs : List PByte} :
    s.Keeps (t.queueReduce e op ordered i a bs) :=
  Keeps.foldl (fun _ _ h0 => h0.enter) _ h

theorem Keeps.reduceRuns {s t : State} (h : s.Keeps t) {e : Eng} {op : Nat} {ordered : Bool} {o : Nat} {ps : List Piece}
    {bs : List PByte} : s.Keeps (t.reduceRuns e op ordered o ps bs) := by
  induction ps generalizing t o bs with
  | nil => exact h
  | cons p ps ih =>
    cases p with
    | here a n => exact ih h.queueReduce
    | away dst part a n => exact ih h.queueAway
    | bad c => exact ih h
    | eat => exact ih h
    | xlat c x pg => exact ih h

theorem Goes.execReduce {s t : State} (h : s.Keeps t) {cid : Nat} : s.Goes (execReduce cid t) :=
  Goes.runCmd h (fun _ _ h0 => Keeps.ite h0.finish (h0.movePiece (fun _ _ h1 => h1.reduceRuns)))

theorem Keeps.xposeFound_some {s t : State} (h : s.Keeps t) {c : Cmd} {e : Eng} {rs : List (Nat × Nat)} :
    ∀ u, t.xposeFound c e rs = some u → s.Keeps u := by
  unfold State.xposeFound
  suffices hg : ∀ v : Option State, (∀ u, v = some u → s.Keeps u) → ∀ u, rs.foldl _ v = some u → s.Keeps u from
    hg (some t) (fun u hu => Option.some.inj hu ▸ h)
  induction rs with
  | nil => exact fun v hv => hv
  | cons r rs ih =>
    intro v hv
    refine ih _ (fun u hu => ?_)
    dsimp only at hu
    split at hu
    · exact Option.some.inj hu ▸ (hv _ rfl).overlay
    · cases hu

theorem Keeps.xposeWrite {s t : State} (h : s.Keeps t) {c : Cmd} {e : Eng} {x : Xpose} {i : Nat} {found : State} :
    s.Keeps (t.xposeWrite c e x i found) :=
  Keeps.foldl (fun _ _ h2 => h2.scatter) _ h.update
theorem Goes.execTranspose {s t : State} (h : s.Keeps t) {cid : Nat} : s.Goes (execTranspose cid t) :=
  Goes.runCmd h (fun _ _ h0 => Keeps.ite h0.finish h0.xposeSyncAll)
theorem Keeps.xposeDone {s t : State} (h : s.Keeps t) {c : Cmd} {x : Xpose} {h' k i : Nat} : s.Keeps (t.xposeDone c x h' k i) :=
  Keeps.ite h.bump64.modCmd.finish h.bump64.modCmd

theorem Keeps.xposeWork {s t : State} (h : s.Keeps t) {c : Cmd} {x : Xpose} {h' en i : Nat} {written : Bool} :
    s.Keeps (t.xposeWork c x h' en i written) := by
  refine Keeps.ite (Keeps.ite h h.xposeDone) ?_
  split
  · exact Keeps.foldl (fun _ _ h0 => h0.ask) _ h
  · exact h.used.xposeWrite.modCmd

theorem Keeps.xposeFault {s t : State} (h : s.Keeps t) {c : Cmd} {h' e : Nat} : s.Keeps (t.xposeFault c h' e) :=
  Keeps.ite h.wgB.used.unrecovered h.wgB.used.modHalf.modCmd.traceCoppice

theorem Goes.execTransposePiece {s t : State} (h : s.Keeps t) {cid half engine : Nat} {fault : Bool} :
    s.Goes (execTransposePiece cid half engine fault t) := by
  refine Goes.ite h ?_
  split
  · exact h
  · refine Goes.ite (Keeps.xposeSyncAll (Keeps.ite h.xposeFault ?_)) h
    split
    · exact h.xposeWork
    · split
      · exact h
      · exact h.modCmd.xposeWork

theorem Keeps.setSem {s t : State} (h : s.Keeps t) {p i v : Nat} : s.Keeps (t.setSem p i v) := h.update
theorem Keeps.releaseWaits {s t : State} (h : s.Keeps t) : s.Keeps (t.releaseWaits) := Keeps.foldl (fun _ _ h0 => h0.finish) _ h
theorem Goes.execSignal {s t : State} (h : s.Keeps t) {cid : Nat} : s.Goes (execSignal cid t) :=
  Goes.runCmd h (fun _ _ h0 => h0.setSem.finish.releaseWaits)
theorem Goes.execWait {s t : State} (h : s.Keeps t) {cid : Nat} : s.Goes (execWait cid t) :=
  Goes.runCmd h (fun _ _ h0 => Keeps.ite h0.finish h0)
theorem Goes.execFenceCommand {s t : State} (h : s.Keeps t) {cid : Nat} : s.Goes (execFenceCommand cid t) :=
  Goes.runCmd h (fun _ _ h0 => Keeps.ite h0.finish h0)
theorem Keeps.setDesc {s t : State} (h : s.Keeps t) {c : Cmd} {x : Nat} {d : Desc} : s.Keeps (t.setDesc c x d) := h.cpWrite
theorem Keeps.ctxCount {s t : State} (h : s.Keeps t) {p : Nat} {up : Bool} : s.Keeps (t.ctxCount p up) := h.wgF.wgF
theorem Keeps.mapPage {s t : State} (h : s.Keeps t) {c : Cmd} {d : Desc} {i page : Nat} : s.Keeps (t.mapPage c d i page) :=
  h.cpWrite.cpWrite
theorem Keeps.unmapPages {s t : State} (h : s.Keeps t) {c : Cmd} {d : Desc} {from_ : Nat} : s.Keeps (t.unmapPages c d from_) :=
  Keeps.foldl (fun _ _ h4 => h4.cpWrite) _ (Keeps.foldl (fun _ _ h3 => h3.cpWrite) _ h)
theorem Keeps.dropXlats {s t : State} (h : s.Keeps t) {p : Nat} : s.Keeps (t.dropXlats p) := Keeps.foldl (fun _ _ h0 => h0.modCore) _ h

theorem Goes.runCtx {s t : State} (h : s.Keeps t) {cid op : Nat} {wait : Bool} {body : State → Cmd → Nat → Desc → State}
    (hb : ∀ u c x d, s.Keeps u → s.Keeps (body u c x d)) : s.Goes (Machine.runCtx t cid op wait body) := by
  refine Goes.runCmd h (fun u c hu => .ite hu ?_)
  split
  · exact .ite hu.used.consumePort (hb _ _ _ _ hu.used)
  · exact hu.queueRead.sendQueued

theorem Goes.execCtxCreate {s t : State} (h : s.Keeps t) {cid : Nat} : s.Goes (execCtxCreate cid t) :=
  Goes.runCtx h (fun _ _ _ _ h0 => Keeps.ite h0.finish (Keeps.ite h0.finish (Keeps.ite h0.finish h0.setDesc.cpWrite.ctxCount.finish)))
theorem Goes.execCtxAppend {s t : State} (h : s.Keeps t) {cid : Nat} : s.Goes (execCtxAppend cid t) :=
  Goes.runCtx h (fun _ _ _ _ h0 => Keeps.ite h0.finish (Keeps.ite h0.finish (Keeps.ite h0.finish (Keeps.finish (Keeps.setDesc
    (Keeps.foldl (fun _ _ h3 => h3.mapPage) _ h0))))))
theorem Goes.execCtxTruncate {s t : State} (h : s.Keeps t) {cid : Nat} : s.Goes (execCtxTruncate cid t) :=
  Goes.runCtx h (fun _ _ _ _ h0 => Keeps.ite h0.finish (Keeps.ite h0.finish h0.unmapPages.setDesc.dropXlats.finish))
theorem Goes.execCtxFree {s t : State} (h : s.Keeps t) {cid : Nat} : s.Goes (execCtxFree cid t) :=
  Goes.runCtx h (fun _ _ _ _ h0 => Keeps.ite h0.finish h0.unmapPages.setDesc.ctxCount.dropXlats.finish)
theorem Goes.execCtxQuery {s t : State} (h : s.Keeps t) {cid : Nat} : s.Goes (execCtxQuery cid t) :=
  Goes.runCtx h (fun _ _ _ _ h0 => Keeps.ite h0.finish (Keeps.ite h0.cpWrite.finish (Keeps.ite h0 h0.hostWrite.finish)))
theorem Keeps.openPin {s t : State} (h : s.Keeps t) {t' i a n p prio : Nat} : s.Keeps (t.openPin t' i a n p prio) :=
  Keeps.foldl (fun _ _ h0 => h0.wg.wg.wg.wg) _ h
theorem Keeps.pinFetch {s t : State} (h : s.Keeps t) {p line : Nat} {need : BitVec 4} : s.Keeps (t.pinFetch p line need) :=
  Keeps.ite h.stall (Keeps.ite h.stall h.unstall.setHalf.setMif)

theorem Keeps.pinLine {s t : State} (h : s.Keeps t) {p line : Nat} : s.Keeps (t.pinLine p line) := by
  refine .ite h ?_
  split
  · exact h.pinFetch
  · exact .ite h.pinFetch (.ite h.setHalf (.getD h.setHalf.takeWay_some h))

theorem Keeps.pinStart {s t : State} (h : s.Keeps t) {c : Cmd} {a n : Nat} : s.Keeps (t.pinStart c a n) := by
  refine Keeps.ite h.finish (Keeps.ite h.finish ?_)
  split
  · exact Keeps.modCmd (Keeps.foldl (fun _ _ h2 => h2.openPin) _ h)
  · exact Keeps.finish (Keeps.foldl (fun _ _ h3 => h3.bump) _ h)

theorem Keeps.pinRun {s t : State} (h : s.Keeps t) {c : Cmd} {a n : Nat} : s.Keeps (t.pinRun c a n) :=
  Keeps.ite (Keeps.finish (Keeps.foldl (fun _ _ h14 => h14.setPinF) _ (Keeps.foldl (fun _ _ h13 => h13.pinSync) _ (Keeps.foldl (fun _ _
    h12 => h12.pinLine) _ h)))) (Keeps.foldl (fun _ _ h16 => h16.pinSync) _ (Keeps.foldl (fun _ _ h15 => h15.pinLine) _ h))
theorem Goes.execPin {s t : State} (h : s.Keeps t) {cid : Nat} : s.Goes (execPin cid t) :=
  Goes.runCmd h (fun _ _ h0 => Keeps.ite h0.pinRun (Keeps.ite h0.pinStart h0))
theorem Keeps.unpinEntry {s t : State} (h : s.Keeps t) {t' i : Nat} : s.Keeps (t.unpinEntry t' i) :=
  Keeps.pinSync (Keeps.foldl (fun _ _ h9 => Keeps.foldl (fun _ _ h10 => h10.wg) _ h9) _ h.modLines.modLines)
theorem Goes.execUnpin {s t : State} (h : s.Keeps t) {cid : Nat} : s.Goes (execUnpin cid t) :=
  Goes.runCmd h (fun _ _ h0 => Keeps.ite (Keeps.finish (Keeps.foldl (fun _ _ h1 => h1.unpinEntry) _ h0)) (Keeps.ite h0.finish (Keeps.ite
    h0 (Keeps.modCmd (Keeps.foldl (fun _ _ h2 => h2.setPinF) _ h0)))))
theorem Keeps.localizeStall {s t : State} (h : s.Keeps t) {c : Cmd} {i : Nat} : s.Keeps (t.localizeStall c i) :=
  h.modHalf.flushSync.modCmd
theorem Keeps.localizeFlush {s t : State} (h : s.Keeps t) {c : Cmd} {i : Nat} : s.Keeps (t.localizeFlush c i) :=
  Keeps.modCmd (Keeps.flushOver (Keeps.ite h h.resizeWindow))

theorem Goes.execLocalize {s t : State} (h : s.Keeps t) {cid : Nat} : s.Goes (execLocalize cid t) := by
  refine Goes.runCmd h (fun _ _ h0 => Keeps.ite (Keeps.ite h0 ?_) (Keeps.ite (Keeps.finish (Keeps.foldl (fun _ _ h11 =>
    h11.localizeStall) _ (Keeps.foldl (fun _ _ h10 => h10.localizeFlush) _ h0))) (Keeps.foldl (fun _ _ h13 => h13.localizeStall) _
    (Keeps.foldl (fun _ _ h12 => h12.localizeFlush) _ h0))))
  split
  · exact h0.finish
  · exact h0.modCmd

theorem Goes.execTrimSet {s t : State} (h : s.Keeps t) {cid : Nat} : s.Goes (execTrimSet cid t) :=
  Goes.runCmd h (fun _ _ h0 => h0.wgF.wgF.wgF.wgB.update.finish)
theorem Keeps.parkByCommand {s t : State} (h : s.Keeps t) {r : Nat} : s.Keeps (t.parkByCommand r) :=
  Keeps.ite h.update h.update.parkRegion
theorem Goes.execPark {s t : State} (h : s.Keeps t) {cid : Nat} : s.Goes (execPark cid t) :=
  Goes.runCmd h (fun _ _ h0 => Keeps.ite h0 (Keeps.finish (Keeps.foldl (fun _ _ h1 => h1.parkByCommand) _ h0)))
theorem Keeps.unparkRegion {s t : State} (h : s.Keeps t) {r : Nat} : s.Keeps (t.unparkRegion r) :=
  Keeps.ite (Keeps.foldl (fun _ _ h0 => h0.modRoster) _ h.wakeRegion) h
theorem Goes.execUnpark {s t : State} (h : s.Keeps t) {cid : Nat} : s.Goes (execUnpark cid t) :=
  Goes.runCmd h (fun _ _ h0 => Keeps.ite (Keeps.finish (Keeps.ite (Keeps.modCmd (Keeps.foldl (fun _ _ h7 => h7.unparkRegion) _
    h0.update)) h0)) (Keeps.ite (Keeps.modCmd (Keeps.foldl (fun _ _ h10 => h10.unparkRegion) _ h0.update)) h0))
theorem Keeps.clearRanges {s t : State} (h : s.Keeps t) {rs : List (Nat × Nat)} : s.Keeps (t.clearRanges rs) :=
  Keeps.foldl (fun _ _ h10 => h10.setMif) _ (Keeps.foldl (fun _ _ h9 => h9.clear) _ h.update)
theorem Keeps.setClasses {s t : State} (h : s.Keeps t) {p w : Nat} {b0 b1 : W32} : s.Keeps (t.setClasses p w b0 b1) :=
  Keeps.foldl (fun _ _ h0 => Keeps.foldl (fun _ _ h1 => h1.wg.update) _ h0) _ h
theorem Keeps.setWays {s t : State} (h : s.Keeps t) {p : Nat} {ws : List Nat} : s.Keeps (t.setWays p ws) :=
  Keeps.foldl (fun _ _ h0 => h0.wg) _ h
theorem Keeps.clearQueues {s t : State} (h : s.Keeps t) {port : Nat} {qs : List Nat} : s.Keeps (t.clearQueues port qs) :=
  Keeps.foldl (fun _ _ h0 => h0.endRead.setQueue) _ h
theorem Keeps.createPart {s t : State} (h : s.Keeps t) {d : PartDesc} : s.Keeps (t.createPart d) :=
  Keeps.foldl (fun _ _ h126 => h126.wakeRegion) _ h.update.setClasses.setWays.clearRanges.wg.wg.clearQueues.update

theorem Goes.execPartCreate {s t : State} (h : s.Keeps t) {cid : Nat} : s.Goes (execPartCreate cid t) := by
  unfold Machine.execPartCreate
  dsimp only
  refine Goes.runCmd h (fun _ _ h0 => ?_)
  split
  · refine Keeps.ite h0 (Keeps.ite h0 ?_)
    split
    · exact h0.hostRx.finish
    · exact h0.hostRx.createPart.modCmd
  · exact Keeps.ite h0 h0.finish

theorem Keeps.discardCmd {s t : State} (h : s.Keeps t) {c : Cmd} : s.Keeps (t.discardCmd c) :=
  Keeps.ite (Keeps.foldl (fun _ _ h6 => h6.modCore) _ h.freeUnits.update) h.freeUnits.update
theorem Keeps.discardCmds {s t : State} (h : s.Keeps t) {gone : Cmd → Bool} : s.Keeps (t.discardCmds gone) :=
  Keeps.foldl (fun _ _ h0 => h0.discardCmd) _ h.update
theorem Keeps.stopRecovery {s t : State} (h : s.Keeps t) {p : Nat} : s.Keeps (t.stopRecovery p) := by
  unfold State.stopRecovery
  exact h.modRoster
theorem Keeps.resetBegin_fst {s t : State} (h : s.Keeps t) {p : Nat} : s.Keeps (t.resetBegin p).1 :=
  h.update.discardCmds.update.dropStaged.stopRecovery

theorem Keeps.resetOrders {s t : State} (h : s.Keeps t) {home p : Nat} : s.Keeps (t.resetOrders home p) := by
  refine Keeps.update (Keeps.foldl (fun _ _ h2 => ?_) _ h)
  split
  · exact Keeps.ite h2.resetReach.obeyed h2
  · exact Keeps.ite h2 h2.sendOrder

theorem Keeps.resetCore {s t : State} (h : s.Keeps t) {i : Nat} : s.Keeps (t.resetCore i) :=
  Keeps.espSync (Keeps.arrSync (Keeps.foldl (fun _ _ h14 => h14.wg) _ h.setCore.clear))

theorem Keeps.resetEnd {s t : State} (h : s.Keeps t) {p : Nat} : s.Keeps (t.resetEnd p) := by
  unfold State.resetEnd
  dsimp only
  split
  · exact Keeps.clearQueues (Keeps.update (Keeps.foldl (fun _ _ h80 => h80.dropGranules) _ (Keeps.foldl (fun _ _ h79 => h79.resetCore) _
      h.update.dropStaged)))
  · exact Keeps.update (Keeps.foldl (fun _ _ h82 => h82.dropGranules) _ (Keeps.foldl (fun _ _ h81 => h81.resetCore) _
      h.update.dropStaged))

theorem Keeps.resetFor {s t : State} (h : s.Keeps t) {c : Cmd} {p : Nat} {done : State → Nat → State}
    (hd : ∀ u n, s.Keeps u → s.Keeps (done u n)) : s.Keeps (t.resetFor c p done) := by
  have h1 : s.Keeps (if c.pieces = [] then
      ((t.resetBegin p).1.modCmd c.cid (fun d => { d with pieces := [p], nextBlock := (t.resetBegin p).2 }), (t.resetBegin p).2)
    else (t, c.nextBlock)).1 := .fst_ite h.resetBegin_fst.modCmd h
  exact .ite (hd _ _ h1.resetOrders.resetEnd) h1.resetOrders

theorem Goes.execPartReset {s t : State} (h : s.Keeps t) {cid : Nat} : s.Goes (execPartReset cid t) :=
  Goes.runCmd h (fun _ _ h0 => Keeps.ite h0.finish (h0.resetFor (fun _ _ h1 => h1.finish)))

theorem Keeps.portSweep {s t : State} (h : s.Keeps t) {port : Nat} {ps : List Nat} : s.Keeps (t.portSweep port ps) := by
  induction ps generalizing t with
  | nil => exact h.setPort
  | cons p ps ih =>
    have h1 := (Keeps.ite (p := ((mfind t.parts p).map (·.resetting)).getD true = true) h (h.resetBegin_fst (p := p)))
    exact .ite (ih h1.resetOrders.resetEnd) h1.resetOrders.setPort

theorem Keeps.portReset {s t : State} (h : s.Keeps t) {port : Nat} : s.Keeps (t.portReset port) :=
  Keeps.ite h.setPort (Keeps.ite h.portSweep h.discardCmds.setPort.clearQueues.portSweep)
theorem Keeps.freeContexts {s t : State} (h : s.Keeps t) {c : Cmd} {p : Nat} : s.Keeps (t.freeContexts c p) :=
  Keeps.wgF (Keeps.foldl (fun _ _ h9 => h9.wgF) _ (Keeps.foldl (fun _ _ h8 => Keeps.ite h8.cpWrite (Keeps.ite h8.unmapPages.setDesc h8))
    _ h))
theorem Keeps.returnLent {s t : State} (h : s.Keeps t) {p : Nat} : s.Keeps (t.returnLent p) :=
  Keeps.foldl (fun _ _ h4 => Keeps.ite h4.parkRegion h4) _ (Keeps.foldl (fun _ _ h3 => h3.modRoster.modHealth) _ h)

theorem Keeps.freePart {s t : State} (h : s.Keeps t) {c : Cmd} {p : Nat} : s.Keeps (t.freePart c p) :=
  Keeps.update (Keeps.wg (Keeps.wg (Keeps.wg (Keeps.wg (Keeps.wg (Keeps.setWays (Keeps.setClasses (Keeps.foldl (fun _ _ h698 =>
    Keeps.ite h698 h698.parkRegion) _ (Keeps.update (Keeps.returnLent (Keeps.freeContexts (Keeps.foldl (fun _ _ h697 =>
    h697.resizeWindow) _ (Keeps.foldl (fun _ _ h696 => h696.unpinEntry) _ h)))))))))))))

theorem Goes.execPartDestroy {s t : State} (h : s.Keeps t) {cid : Nat} : s.Goes (execPartDestroy cid t) :=
  Goes.runCmd h (fun _ _ h0 => Keeps.ite h0.finish (h0.resetFor (fun _ _ h1 => h1.freePart.finish)))
theorem Keeps.beginStore {s t : State} (h : s.Keeps t) {w : FlashWrite} : s.Keeps (t.beginStore w) := h.update

theorem Keeps.tearStore {s t : State} (h : s.Keeps t) : s.Keeps (t.tearStore) := by
  unfold State.tearStore
  split
  · exact h
  · exact h.update

theorem Keeps.storeDone {s t : State} (h : s.Keeps t) {ok : Bool} : s.Keeps (t.storeDone ok) := by
  unfold State.storeDone
  split
  · exact h
  · exact Keeps.foldl (fun _ _ h2 => h2.finish) _ h.update

theorem Goes.execHealthRecordStore {s t : State} (h : s.Keeps t) : s.Goes (execHealthRecordStore t) := Keeps.ite h.update h
theorem Goes.execFlashStoreDone {s t : State} (h : s.Keeps t) {ok : Bool} : s.Goes (execFlashStoreDone ok t) := h.storeDone
theorem Goes.execFwLoad {s t : State} (h : s.Keeps t) {cid : Nat} {flashOk : Bool} : s.Goes (execFwLoad cid flashOk t) :=
  Goes.runCmd h (fun _ _ h0 => Keeps.ite h0.storeDone (Keeps.ite h0 (Keeps.ite h0.hostRx.finish (Keeps.ite h0.hostRx.finish
    h0.hostRx.beginStore.modCmd))))
theorem Goes.execQuicksetStore {s t : State} (h : s.Keeps t) {cid : Nat} {flashOk : Bool} : s.Goes (execQuicksetStore cid flashOk t) :=
  Goes.runCmd h (fun _ _ h0 => Keeps.ite h0.storeDone (Keeps.ite h0 h0.beginStore.modCmd))
theorem Goes.execHealthQuery {s t : State} (h : s.Keeps t) {cid : Nat} : s.Goes (execHealthQuery cid t) :=
  Goes.runCmd h (fun _ _ h0 => Keeps.ite h0.cpWrite.finish (Keeps.ite h0 h0.hostWrite.finish))
theorem Keeps.mgmtAnswer {s t : State} (h : s.Keeps t) {pkt : List Byte} {status : Nat} {result : List Byte} :
    s.Keeps (t.mgmtAnswer pkt status result) :=
  h.update

theorem Goes.execSmbusBlockWrite {s t : State} (h : s.Keeps t) {data : List Byte} {pecOk : Bool} :
    s.Goes (execSmbusBlockWrite data pecOk t) := by
  refine Keeps.ite h ?_
  split
  · exact h.mgmtAnswer
  · exact h.mgmtAnswer
  · exact h.update
  · exact h.update
  · exact h.mgmtAnswer

theorem Keeps.mgmtRun {s t : State} (h : s.Keeps t) {op : Nat} {result : List Byte} : s.Keeps (t.mgmtRun op result) := by
  unfold State.mgmtRun
  split
  · exact Keeps.ite h.mgmtAnswer h
  · exact h

theorem Goes.execThermalRead {s t : State} (h : s.Keeps t) : s.Goes (execThermalRead t) := h.mgmtRun
theorem Goes.execPowerRead {s t : State} (h : s.Keeps t) : s.Goes (execPowerRead t) := h.mgmtRun
theorem Goes.execSmbusBlockRead {s t : State} (h : s.Keeps t) {pecOk : Bool} : s.Goes (execSmbusBlockRead pecOk t) := Keeps.ite h.update h

end Sys2Proof.Machine.State
end

section
/-! PROOF. What every operation keeps: host ports, fabric links, resets and registers. -/

namespace Sys2Proof.Machine.State

theorem Keeps.unsupported {s t : State} (h : s.Keeps t) {port : Nat} : s.Keeps (t.unsupported port) := h.setPort.bump

theorem Keeps.hostRead {s t : State} (h : s.Keeps t) {port : Nat} {g : Got} : s.Keeps (t.hostRead port g) := by
  unfold State.hostRead
  split
  · exact Keeps.ite h.setPort.hostTx.bump.portEvent h.setPort.hostTx
  · exact h.unsupported

theorem Keeps.settleReads {s t : State} (h : s.Keeps t) {port : Nat} : s.Keeps (t.settleReads port) := by
  unfold State.settleReads
  dsimp only
  refine Keeps.foldl (fun _ _ h0 => ?_) _ h
  split
  · exact h0
  · exact h0.used.hostRead.setPort

theorem Keeps.postOne_some {s t : State} (h : s.Keeps t) {port : Nat} {x : Bool × Nat × List Byte} :
    ∀ u, t.postOne port x = some u → s.Keeps u := by
  intro u hu
  simp only [State.postOne] at hu
  split at hu
  · split at hu
    · cases hu
    · exact Option.some.inj hu ▸ h.ringBell
  · split at hu
    · exact Option.some.inj hu ▸ h.unsupported
    · exact Option.some.inj hu ▸ h.hostRx.queueWrite.bumpSerial.sendQueued

theorem Keeps.postAll {s t : State} (h : s.Keeps t) {port : Nat} {xs : List (Bool × Nat × List Byte)} :
    s.Keeps (t.postAll port xs) := by
  induction xs generalizing t with
  | nil => exact h.setPosted
  | cons x xs ih =>
    unfold State.postAll
    split
    · next hu => exact ih (h.postOne_some _ hu)
    · exact h.setPosted

/-- The case split comes before the unfolding: the kernel could not reduce the reach of an address. -/
theorem Goes.execHostWindowRead {s t : State} (h : s.Keeps t) {port off len : Nat} :
    s.Goes (Machine.execHostWindowRead port off len t) := by
  rcases hr : (t.postAll port (t.port port).posted).hostReach port
    ((t.postAll port (t.port port).posted).dmwAddr port off) (max 1 len) with _ | p
  · simp only [Machine.execHostWindowRead, hr]
    exact .ite h (.ite h (.ite h.unsupported (.ite h.postAll h.postAll.unsupported)))
  · simp only [Machine.execHostWindowRead, hr]
    exact .ite h (.ite h (.ite h.unsupported (.ite h.postAll
      h.postAll.queueRead.bumpSerial.sendQueued.setPort.settleReads)))

theorem Goes.execHostWindowWrite {s t : State} (h : s.Keeps t) {port off : Nat} {data : List Byte} :
    s.Goes (execHostWindowWrite port off data t) :=
  Goes.ite h (Goes.ite h (Goes.ite h.unsupported h.postAll))
theorem Goes.execAtomicopRequest {s t : State} (h : s.Keeps t) {port : Nat} : s.Goes (execAtomicopRequest port t) :=
  Goes.ite h (Keeps.ite h.unsupported h)
theorem Goes.execFunctionLevelReset {s t : State} (h : s.Keeps t) {port : Nat} : s.Goes (execFunctionLevelReset port t) :=
  Goes.ite h (Keeps.ite h.portReset h)
theorem Keeps.linkDown {s t : State} (h : s.Keeps t) {port : Nat} : s.Keeps (t.linkDown port) := h.wgF
theorem Goes.execPerstN {s t : State} (h : s.Keeps t) {port : Nat} {level : Bool} : s.Goes (execPerstN port level t) :=
  Goes.ite h (Keeps.ite h.update h.update.linkDown.portReset.setPort)
theorem Goes.execD3hotEntry {s t : State} (h : s.Keeps t) {port : Nat} : s.Goes (execD3hotEntry port t) :=
  Goes.ite h (Keeps.ite h.setPort h)
theorem Goes.execD0Return {s t : State} (h : s.Keeps t) {port : Nat} : s.Goes (execD0Return port t) :=
  Goes.ite h (Goes.ite h (Keeps.setPort (Keeps.foldl (fun _ _ h6 => h6.writeHeld) _ h.setPort)))
theorem Goes.execHostLinkTraining {s t : State} (h : s.Keeps t) {port rate width bar2 : Nat} :
    s.Goes (execHostLinkTraining port rate width bar2 t) :=
  Goes.ite h (Goes.ite h (Goes.ite (Keeps.wgF (Keeps.ite h.setPort h)) h.linkDown))
theorem Goes.execHostLinkDown {s t : State} (h : s.Keeps t) {port : Nat} : s.Goes (execHostLinkDown port t) := Goes.ite h h.linkDown
theorem Keeps.modFport {s t : State} (h : s.Keeps t) {j : Nat} {f : FabPort → FabPort} : s.Keeps (t.modFport j f) := h.setFport

theorem Keeps.failPkt {s t : State} (h : s.Keeps t) {j typ : Nat} {k : FabPkt} : s.Keeps (t.failPkt j typ k) := by
  unfold State.failPkt
  split
  · exact h.update
  · exact h

theorem Keeps.lostFrame {s t : State} (h : s.Keeps t) {j : Nat} {p : SentPkt} : s.Keeps (t.lostFrame j p) := by
  refine Keeps.ite h.failPkt ?_
  split
  · exact h
  · exact Keeps.ite h.emit h.transmit

theorem Keeps.moveOne {s t : State} (h : s.Keeps t) {j : Nat} {p : Nat × FabPkt} : s.Keeps (t.moveOne j p) := by
  unfold State.moveOne
  split
  · exact h.failPkt
  · exact Keeps.ite h.emit h.transmit

theorem Keeps.movePackets {s t : State} (h : s.Keeps t) {j : Nat} : s.Keeps (t.movePackets j) :=
  Keeps.foldl (fun _ _ h4 => h4.moveOne) _ (Keeps.foldl (fun _ _ h3 => h3.lostFrame) _ h.modFport)
theorem Keeps.fabDown {s t : State} (h : s.Keeps t) {j : Nat} : s.Keeps (t.fabDown j) := h.wgF.wgF.wgF.wgB.wgB.movePackets
theorem Keeps.fabTrain {s t : State} (h : s.Keeps t) {j : Nat} {anew : Bool} : s.Keeps (t.fabTrain j anew) := by
  unfold State.fabTrain
  exact Keeps.modFport (Keeps.wgB (Keeps.ite h.wgF.wgF h.wgF))
theorem Goes.execFabricPortTraining {s t : State} (h : s.Keeps t) {port : Nat} : s.Goes (execFabricPortTraining port t) :=
  Goes.ite h (Keeps.ite h.fabTrain h)
theorem Goes.execFabricTrainingRetry {s t : State} (h : s.Keeps t) {port : Nat} : s.Goes (execFabricTrainingRetry port t) :=
  Goes.ite h (Keeps.ite h.fabTrain h)
theorem Keeps.fabRetrain {s t : State} (h : s.Keeps t) {port : Nat} : s.Keeps (t.fabRetrain port) :=
  Keeps.ite h (Keeps.ite h.wgB h.fabTrain.wgB.movePackets)
theorem Keeps.fabAccept {s t : State} (h : s.Keeps t) {port : Nat} : s.Keeps (t.fabAccept port) := Keeps.ite h.wgF.wgF h
theorem Goes.execRetrain {s t : State} (h : s.Keeps t) {hostPort port : Nat} : s.Goes (execRetrain hostPort port t) :=
  Goes.ite h (Keeps.ite (Keeps.fabRetrain (Keeps.ite h.hostRx h)) (Keeps.ite h.hostRx h))
theorem Goes.execAcceptHeld {s t : State} (h : s.Keeps t) {hostPort port : Nat} : s.Goes (execAcceptHeld hostPort port t) :=
  Goes.ite h (Keeps.ite (Keeps.fabAccept (Keeps.ite h.hostRx h)) (Keeps.ite h.hostRx h))
theorem Keeps.fabTrained {s t : State} (h : s.Keeps t) {j w bad : Nat} {t' : FabTrain} : s.Keeps (t.fabTrained j w bad t') :=
  Keeps.ite h.wgF.wgF.wgF.wgB.wgF.wgF.wgF.wgB.modFport.adminEvent h.wgF.wgF.wgF.wgB.wgF.wgF.wgF.wgB.modFport

theorem Goes.execFabricTrainingDone {s t : State} (h : s.Keeps t) {port : Nat} {result : FabTrain} :
    s.Goes (execFabricTrainingDone port result t) := by
  unfold Machine.execFabricTrainingDone
  dsimp only
  refine Goes.ite h (Goes.ite h (Goes.ite (Keeps.ite h.fabDown.modFport.adminEvent h) ?_))
  split
  · exact h.fabDown.wgF.adminEvent
  · exact Keeps.drainPort (Keeps.fabTrained (Keeps.ite h h.bump))

theorem Keeps.replay {s t : State} (h : s.Keeps t) {j key : Nat} {n : W32} : s.Keeps (t.replay j key n) := h.modFport.update.bump
theorem Keeps.sendNak {s t : State} (h : s.Keeps t) {j key : Nat} {n : W32} : s.Keeps (t.sendNak j key n) := h.update

theorem Goes.execLinkFrameError {s t : State} (h : s.Keeps t) {port : Nat} {nak : Option (Nat × W32)} {badLanes : Nat} :
    s.Goes (execLinkFrameError port nak badLanes t) := by
  unfold Machine.execLinkFrameError
  dsimp only
  refine Goes.ite h (Goes.ite h ?_)
  split
  · exact Keeps.ite (Keeps.ite h h.bump) (Keeps.replay (Keeps.ite h h.bump))
  · exact Keeps.ite (Keeps.bump (Keeps.ite h h.bump)) (Keeps.sendNak (Keeps.ite h h.bump))

theorem Goes.execRetxTimer {s t : State} (h : s.Keeps t) {port : Nat} : s.Goes (execRetxTimer port t) :=
  Goes.ite h (Keeps.ite (Keeps.foldl (fun _ _ h0 => h0.replay) _ h) h)

theorem Goes.execLinkGiveUp {s t : State} (h : s.Keeps t) {port badLanes : Nat} : s.Goes (execLinkGiveUp port badLanes t) := by
  unfold Machine.execLinkGiveUp
  dsimp only
  refine Goes.ite h (Goes.ite h ?_)
  split
  · exact Keeps.adminEvent (Keeps.foldl (fun _ _ h63 => h63.lostFrame) _ h.bump.modFport.wgF.fabDown)
  · exact Keeps.foldl (fun _ _ h70 => h70.lostFrame) _ (Keeps.modFport (Keeps.wgF (Keeps.wgF (Keeps.wgF (Keeps.ite h.bump.modFport.wgF
      h.bump.modFport.wgF.bump)))))

theorem Goes.execFabricLinkDown {s t : State} (h : s.Keeps t) {port : Nat} : s.Goes (execFabricLinkDown port t) :=
  Goes.ite h (Keeps.ite h h.fabDown)
theorem Keeps.unsent {s t : State} (h : s.Keeps t) {r : Req} : s.Keeps (t.unsent r) :=
  Keeps.update (Keeps.foldl (fun _ _ h2 => h2.modFport.drainPort) _ h)
theorem Keeps.failReq {s t : State} (h : s.Keeps t) {r : Req} {code port : Nat} : s.Keeps (t.failReq r code port) :=
  h.unsent.dropReq.remoteFail

theorem Goes.execRemoteAccessTimeout {s t : State} (h : s.Keeps t) {rid : Nat} : s.Goes (execRemoteAccessTimeout rid t) := by
  unfold Machine.execRemoteAccessTimeout
  split
  · exact h
  · exact Keeps.ite h.failReq h

theorem Goes.execRemoteResend {s t : State} (h : s.Keeps t) {rid : Nat} : s.Goes (execRemoteResend rid t) := by
  unfold Machine.execRemoteResend
  split
  · split
    · exact h
    · split
      · exact h.failReq
      · exact h.setReq.update.emit
  · exact h

theorem Keeps.readBack {s t : State} (h : s.Keeps t) {r : Req} {k : FabPkt} : s.Keeps (t.readBack r k) :=
  Keeps.ite (Keeps.ite h.unsent.dropReq.eatAt h.unsent.answer.dropReq.watch) (Keeps.ite h.unsent.dropReq.settle h.unsent.answer.setReq)

theorem Keeps.acked {s t : State} (h : s.Keeps t) {r : Req} {k : FabPkt} : s.Keeps (t.acked r k) := by
  unfold State.acked
  split
  · exact Keeps.ite h.unsent.dropReq.eatAt (Keeps.settle (Keeps.dropReq (Keeps.watch (Keeps.answer (Keeps.ite h.unsent.modCore
      h.unsent.modCore.progress)))))
  · refine Keeps.ite (Keeps.settle (Keeps.dropReq (Keeps.watch (Keeps.progress ?_)))) (Keeps.settle (Keeps.dropReq ?_))
    · split
      · exact h.unsent.modCore
      · exact h.unsent
    · split
      · exact h.unsent.modCore
      · exact h.unsent

theorem Keeps.took {s t : State} (h : s.Keeps t) {j : Nat} {k : FabPkt} : s.Keeps (t.took j k) := h.modFport.bump64.bump64.stamp

theorem Keeps.reply {s t : State} (h : s.Keeps t) {typ : Nat} {k : FabPkt} {tag : Nat} {data : List Byte} {poison : List Bool} :
    s.Keeps (t.reply typ k tag data poison) := by
  refine Keeps.ite h.loopBack ?_
  split
  · exact h
  · exact h.emit

theorem Keeps.refuseTyp {s t : State} (h : s.Keeps t) {typ : Nat} {k : FabPkt} {code : Nat} : s.Keeps (t.refuseTyp typ k code) := by
  refine Keeps.reply ?_
  split
  · exact h.bump
  · exact h

theorem Keeps.forward {s t : State} (h : s.Keeps t) {j typ : Nat} {k : FabPkt} : s.Keeps (t.forward j typ k) := by
  unfold State.forward
  dsimp only
  split
  · exact h.inject_fst.transmit
  · exact h.refuseTyp

theorem Goes.runFab {s t : State} (h : s.Keeps t) {port typ : Nat} {k : FabPkt} {waits : Bool} {deliver : State → State}
    (hd : ∀ u, s.Keeps u → s.Keeps (deliver u)) : s.Goes (Machine.runFab t port typ k waits deliver) := by
  refine Goes.ite h (Goes.ite (Keeps.ite h (hd _ (h.same rfl))) (Goes.ite h (Goes.ite h.bump ?_)))
  split
  · exact h.sendNak
  · exact Goes.ite (Keeps.ite h.took h.took.forward) (Goes.ite h (hd _ h.took))

theorem Keeps.fabQueue {s t : State} (h : s.Keeps t) {e : Eng} {typ : Nat} {k : FabPkt} : s.Keeps (t.fabQueue e typ k) := by
  unfold State.fabQueue
  split
  · exact h.queueRead
  · exact h.queueWrite
  · exact h.enter
  · exact Keeps.foldl (fun _ _ h0 => h0.enter) _ h

theorem Keeps.fabServe {s t : State} (h : s.Keeps t) {port typ : Nat} {k : FabPkt} : s.Keeps (t.fabServe port typ k) :=
  h.fabQueue.bumpSerial.sendQueued.update

theorem Goes.execFabricReadRequest {s t : State} (h : s.Keeps t) {port : Nat} {pkt : FabPkt} :
    s.Goes (execFabricReadRequest port pkt t) := by
  refine Goes.runFab h (fun _ h0 => ?_)
  split
  · exact h0.refuseTyp
  · exact h0.fabServe

theorem Keeps.keepRecord {s t : State} (h : s.Keeps t) {x : FabRecord} : s.Keeps (t.keepRecord x) := h.update

theorem Keeps.settleFab {s t : State} (h : s.Keeps t) : s.Keeps (t.settleFab) := by
  unfold State.settleFab
  dsimp only
  refine Keeps.foldl (fun _ _ h0 => Keeps.ite h0 ?_) _ h
  split
  · exact Keeps.ite h0.used.update.reply h0.used.update.keepRecord.reply
  · exact h0.used.update.refuseTyp

theorem Keeps.fabOnce {s t : State} (h : s.Keeps t) {port typ : Nat} {k : FabPkt} {n : Nat} : s.Keeps (t.fabOnce port typ k n) := by
  unfold State.fabOnce
  split
  · exact h.reply
  · refine Keeps.ite h ?_
    split
    · exact h.refuseTyp
    · exact h.fabServe

theorem Goes.runFabOnce {s t : State} (h : s.Keeps t) {port typ : Nat} {k : FabPkt} {n : Nat} : s.Goes (runFabOnce t port typ k n) :=
  Goes.runFab (Keeps.ite h.stall h.unstall) (fun _ h2 => h2.fabOnce)
theorem Goes.execFabricWrite {s t : State} (h : s.Keeps t) {port : Nat} {pkt : FabPkt} : s.Goes (execFabricWrite port pkt t) :=
  Goes.runFabOnce h
theorem Goes.execFabricAtomic {s t : State} (h : s.Keeps t) {port : Nat} {pkt : FabPkt} : s.Goes (execFabricAtomic port pkt t) :=
  Goes.runFabOnce h
theorem Goes.execFabricReduction {s t : State} (h : s.Keeps t) {port : Nat} {pkt : FabPkt} : s.Goes (execFabricReduction port pkt t) :=
  Goes.runFabOnce h

theorem Goes.execFabricReadResponse {s t : State} (h : s.Keeps t) {port : Nat} {pkt : FabPkt} :
    s.Goes (execFabricReadResponse port pkt t) := by
  refine Goes.runFab h (fun _ h0 => ?_)
  split
  · exact Keeps.ite h0.readBack h0
  · exact h0

theorem Goes.execFabricAcknowledgement {s t : State} (h : s.Keeps t) {port : Nat} {pkt : FabPkt} :
    s.Goes (execFabricAcknowledgement port pkt t) := by
  refine Goes.runFab h (fun _ h0 => ?_)
  split
  · exact Keeps.ite h0 h0.acked
  · exact h0

theorem Goes.execFabricRefusal {s t : State} (h : s.Keeps t) {port : Nat} {pkt : FabPkt} : s.Goes (execFabricRefusal port pkt t) := by
  refine Goes.runFab h (fun _ h0 => ?_)
  split
  · exact h0.failReq
  · exact h0

theorem Goes.execTimeMark {s t : State} (h : s.Keeps t) {port : Nat} {pkt : FabPkt} : s.Goes (Machine.execTimeMark port pkt t) :=
  Goes.runFab h (fun _ hu => hu)
theorem Goes.execMarkSend {s t : State} (h : s.Keeps t) : s.Goes (execMarkSend t) := Keeps.ite (Keeps.foldl (fun _ _ h0 => h0.emit) _ h) h
/-- A whole-part reset sets device time to 0, so that it keeps what `Holds` says alone. -/
theorem Keeps.partReset {s t : State} (h : s.Keeps t) : s.Holds t.partReset :=
  ⟨h.tearStore.pending, h.tearStore.part, fun hm => ⟨rfl, (h.tearStore.memOk hm).2.1, List.Pairwise.nil⟩⟩
theorem Keeps.released {s t : State} (h : s.Keeps t) : s.Keeps (t.released) := h.update
theorem Ends.execResetNAssert {s t : State} (h : s.Keeps t) {level : Bool} : s.Ends (Machine.execResetNAssert level t) :=
  Holds.ite h.toHolds (.ite h.update.released.toHolds h.update.partReset)
theorem Ends.execPwrgdDeassert {s t : State} (h : s.Keeps t) {level : Bool} : s.Ends (Machine.execPwrgdDeassert level t) :=
  Holds.ite h.toHolds (.ite h.update.released.toHolds h.update.partReset)
theorem Ends.execVddAonLoss {s t : State} (h : s.Keeps t) : s.Ends (Machine.execVddAonLoss t) := h.update.partReset
theorem Keeps.haltWork {s t : State} (h : s.Keeps t) : s.Keeps (t.haltWork) := h.update
theorem Keeps.stopPart {s t : State} (h : s.Keeps t) {reason detail : Nat} : s.Keeps (t.stopPart reason detail) :=
  Keeps.ite h.update h.update.wgB.wgF.wgF.wg64.traceAdmin.haltWork.update
theorem Keeps.regionsOff {s t : State} (h : s.Keeps t) {t' : Nat} : s.Keeps (t.regionsOff t') :=
  Keeps.govSync (Keeps.foldl (fun _ _ h0 => Keeps.ite h0 h0.setReg.setReg.setReg.govForget) _ h)
theorem Keeps.stackOff {s t : State} (h : s.Keeps t) {t' : Nat} : s.Keeps (t.stackOff t') := h.regionsOff.wgF
theorem Keeps.storeHealth {s t : State} (h : s.Keeps t) : s.Keeps (t.storeHealth) := Keeps.ite h.storeDue h.beginStore
theorem Keeps.faultPower {s t : State} (h : s.Keeps t) {stack : Nat} : s.Keeps (t.faultPower stack) :=
  Keeps.ite h h.stackOff.modHealth.stopPart.storeHealth
theorem Goes.execPowerFault {s t : State} (h : s.Keeps t) {stack : Nat} : s.Goes (execPowerFault stack t) := Goes.ite h h.faultPower
theorem Goes.execPhaseFail {s t : State} (h : s.Keeps t) {stack : Nat} {array : Bool} : s.Goes (execPhaseFail stack array t) :=
  Goes.ite h (Keeps.ite h (Keeps.ite (Keeps.faultPower (Keeps.storeHealth (Keeps.healthEntry (Keeps.bump (Keeps.modHealth (Keeps.ite
    h.wgF h.wgF.wgF)))))) (Keeps.storeHealth (Keeps.healthEntry (Keeps.bump (Keeps.modHealth (Keeps.ite h.wgF h.wgF.wgF)))))))
theorem Holds.faultClock {s t : State} (h : s.Holds t) {stack : Nat} : s.Holds (t.faultClock stack) := by
  have hw : s.Holds { t.wgB (.clk stack) 0x000 0 false with time := { (t.wgB (.clk stack) 0x000 0 false).time with
      locked := delNat (t.wgB (.clk stack) 0x000 0 false).time.locked stack
      running := (t.wgB (.clk stack) 0x000 0 false).time.running && decide (stack ≠ 0) } } :=
    (h.trans (Keeps.refl t).wgB.toHolds).updateTime
  exact .ite hw (hw.trans (Keeps.stopPart (Keeps.wgB (Keeps.stackOff (Keeps.refl _)))).toHolds)

theorem Ends.execClockFault {s t : State} (h : s.Keeps t) {stack : Nat} : s.Ends (Machine.execClockFault stack t) :=
  Ends.ite h.toHolds (Holds.ite h.toHolds.faultClock h.toHolds)

theorem Ends.execRefclkStop {s t : State} (h : s.Keeps t) : s.Ends (Machine.execRefclkStop t) :=
  Holds.foldl (fun _ _ h0 => h0.faultClock) _ h.update.toHolds

/-- A record update of device time, its count too. -/
theorem Holds.setTime {s t : State} (h : s.Holds t) {therm time} : s.Holds { t with therm := therm, time := time } :=
  h.trans ⟨rfl, rfl, fun hm => hm.of_eq rfl rfl rfl⟩

theorem Ends.execRootPllLock {s t : State} (h : s.Keeps t) {stack : Nat} : s.Ends (Machine.execRootPllLock stack t) :=
  Ends.ite h.toHolds (Ends.ite h.toHolds (Holds.ite h.update.wgB.toHolds.setTime.setTime h.update.wgB.toHolds.setTime))

/-- A record update that empties device memory, whatever else it sets but for the kept fields. -/
theorem Keeps.wiped {s t : State} (h : s.Keeps t) {health pins boot granules halves host cmds fab therm} :
    s.Keeps { t with
      mem := [], poison := [], health := health, pins := pins, boot := boot, granules := granules, halves := halves, host := host
      cmds := cmds, fab := fab, therm := therm } :=
  h.memory (fun hm => ⟨rfl, hm.2.1, List.Pairwise.nil⟩) rfl

theorem Keeps.trip {s t : State} (h : s.Keeps t) {stack sensor : Nat} : s.Keeps (t.trip stack sensor) := by
  unfold State.trip
  refine Keeps.ite h (Keeps.storeHealth (Keeps.wiped (Keeps.haltWork (Keeps.wgB ?_))))
  exact Keeps.foldl (fun _ _ h0 => h0.fabDown) _ (Keeps.foldl (fun _ _ h0 => h0.linkDown) _
    (Keeps.foldl (fun _ _ h0 => h0.stackOff.wgF.wgB) _ h.tearStore))

theorem Goes.execThermalTrip {s t : State} (h : s.Keeps t) {stack sensor : Nat} : s.Goes (execThermalTrip stack sensor t) :=
  Goes.ite h (Keeps.ite h.trip h)
theorem Ends.execTripLatchClear {s t : State} (h : s.Keeps t) : s.Ends (Machine.execTripLatchClear t) :=
  Holds.ite (Holds.ite h.storeDone.update.partReset h.storeDone.update.toHolds) h.toHolds

theorem Keeps.latchRead {s t : State} (h : s.Keeps t) {master a : Nat} : s.Keeps (t.latchRead master a) := by
  unfold State.latchRead
  dsimp only
  split
  · exact h
  · split
    · exact h.update
    · exact h

theorem Goes.execCounterLowRead {s t : State} (h : s.Keeps t) {master addr : Nat} : s.Goes (execCounterLowRead master addr t) := by
  refine Goes.ite h ?_
  split
  · exact h
  · exact Keeps.ite h (Keeps.ite h.latchRead.setPort.hostTx h.latchRead)

theorem Keeps.alertSync {s t : State} (h : s.Keeps t) : s.Keeps (t.alertSync) := Keeps.ite h h.update
theorem Keeps.fabTableWrite {s t : State} (h : s.Keeps t) {o : Nat} {v : W32} : s.Keeps (t.fabTableWrite o v) :=
  Keeps.ite h.wg (Keeps.ite h.update (Keeps.ite h.update h.update))

theorem Keeps.afterWrite {s t : State} (h : s.Keeps t) {b : Blk} {o : Nat} : s.Keeps (t.afterWrite b o) := by
  unfold State.afterWrite
  split
  · exact Keeps.ite h.pinSync h
  · exact Keeps.ite h.alertSync h
  · exact Keeps.ite h.fabDown h
  · exact h

theorem Keeps.applyWrite {s t : State} (h : s.Keeps t) {b : Blk} {o : Nat} {v : W32} : s.Keeps (t.applyWrite b o v) := by
  unfold State.applyWrite
  split
  · exact Keeps.ite h.fabTableWrite h.wg.afterWrite
  · exact Keeps.ite (Keeps.ite h h.update) (Keeps.foldl (fun _ _ h0 => h0.wg) _ h)
  · exact Keeps.afterWrite (Keeps.foldl (fun _ _ h1 => h1.wg) _ h)

theorem Keeps.writeReg {s t : State} (h : s.Keeps t) {port a : Nat} {v : W32} : s.Keeps (t.writeReg port a v) := by
  unfold State.writeReg
  split
  · exact h
  · exact Keeps.ite h h.applyWrite

theorem Keeps.msixWrite {s t : State} (h : s.Keeps t) {port k w : Nat} {v : W32} : s.Keeps (t.msixWrite port k w v) := by
  unfold State.msixWrite
  split
  · exact h.update
  · exact h.update
  · exact h.update
  · exact Keeps.ite h.update (Keeps.ite h.update.raiseIrq h.update)

theorem Goes.execRegisterWrite {s t : State} (h : s.Keeps t) {port off : Nat} {value : W32} :
    s.Goes (execRegisterWrite port off value t) :=
  Goes.ite h (Goes.ite h (Keeps.hostRx (Keeps.ite h.writeReg (Keeps.ite (Keeps.ite h.setQueue h) (Keeps.ite h.msixWrite h)))))
theorem Goes.execCntCoreClear {s t : State} (h : s.Keeps t) {port site : Nat} : s.Goes (execCntCoreClear port site t) :=
  Goes.ite h (Goes.ite h (Keeps.ite h.hostRx.clearCore h.hostRx))
theorem Keeps.clearBlocks {s t : State} (h : s.Keeps t) {stack : Nat} {mask : W32} : s.Keeps (t.clearBlocks stack mask) :=
  Keeps.foldl (fun _ _ h0 => Keeps.ite h0 (Keeps.ite h0.clearCounters.update h0.clearCounters)) _ h
theorem Goes.execCntClear {s t : State} (h : s.Keeps t) {port stack : Nat} {mask : W32} : s.Goes (execCntClear port stack mask t) :=
  Goes.ite h (Goes.ite h (Keeps.ite h.hostRx h.hostRx.clearBlocks))
theorem Keeps.clearLog {s t : State} (h : s.Keeps t) {mem : Bool} {unit : Nat} : s.Keeps (t.clearLog mem unit) :=
  Keeps.foldl (fun _ _ h0 => Keeps.ite h0.wgB h0) _ h
theorem Goes.execElogClear {s t : State} (h : s.Keeps t) {port : Nat} {mem : Bool} {unit : Nat} :
    s.Goes (execElogClear port mem unit t) :=
  Goes.ite h (Goes.ite h (Keeps.ite h.hostRx h.hostRx.clearLog))
theorem Keeps.setRptr {s t : State} (h : s.Keeps t) {ring : Nat} {value : W32} : s.Keeps (t.setRptr ring value) :=
  Keeps.ite h.wg.ringLost h.wg
theorem Goes.execTrRptrWrite {s t : State} (h : s.Keeps t) {port ring : Nat} {value : W32} :
    s.Goes (execTrRptrWrite port ring value t) :=
  Goes.ite h (Goes.ite h (Keeps.ite h.hostRx h.hostRx.setRptr))

end Sys2Proof.Machine.State
end

section
/-! PROOF. What every operation keeps: bring-up, the debug port, answers, tests, traces and sensors. -/

namespace Sys2Proof.Machine.State

theorem Keeps.setStage {s t : State} (h : s.Keeps t) {n : Nat} : s.Keeps (t.setStage n) := Keeps.foldl (fun _ _ h0 => h0.wgF) _ h
theorem Keeps.modBoot {s t : State} (h : s.Keeps t) {f : Boot → Boot} : s.Keeps (t.modBoot f) := h.update

theorem Goes.execBootRom {s t : State} (h : s.Keeps t) {primaryOk : Bool} {badStack : Option Nat} :
    s.Goes (execBootRom primaryOk badStack t) := by
  refine Keeps.ite h (Keeps.ite h.wgF.stopPart ?_)
  split
  · exact Keeps.ite h.setStage.stopPart h.setStage
  · exact h.setStage

theorem Keeps.loadCfg {s t : State} (h : s.Keeps t) {c : Cfg} : s.Keeps (t.loadCfg c) :=
  Keeps.update (Keeps.foldl (fun _ _ h53 => h53.wgB.wgB.wg.wg64.wg64) _ (Keeps.wgB (Keeps.foldl (fun _ _ h52 => h52.wgB.wgB) _
    h.modBoot)))

theorem Goes.execFirmwareCheck {s t : State} (h : s.Keeps t) : s.Goes (execFirmwareCheck t) := by
  unfold Machine.execFirmwareCheck
  dsimp only
  refine Keeps.ite h ?_
  split
  · exact h.setStage.stopPart
  · split
    · exact h.setStage.stopPart
    · exact h.setStage.modBoot.update.loadCfg

theorem Keeps.railsOn {s t : State} (h : s.Keeps t) {t' : Nat} : s.Keeps (t.railsOn t') := Keeps.ite h.wgF.wgF.wgF.wgF h.wgF.wgF

theorem Goes.execFirmwareBroadcast {s t : State} (h : s.Keeps t) {badCores : List Nat} : s.Goes (execFirmwareBroadcast badCores t) := by
  unfold Machine.execFirmwareBroadcast
  dsimp only
  refine Keeps.ite h ?_
  split
  · exact Keeps.faultPower (Keeps.foldl (fun _ _ h31 => h31.railsOn) _ h.setStage)
  · exact Keeps.modBoot (Keeps.foldl (fun _ _ h64 => h64.wakeRegion) _ (Keeps.foldl (fun _ _ h63 => h63.setReg) _ (Keeps.foldl (fun _ _
      h61 => Keeps.foldl (fun _ _ h62 => h62.passBy) _ h61.setReg) _ (Keeps.foldl (fun _ _ h60 => h60.railsOn) _ h.setStage))))

theorem Goes.execCornerSelfTest {s t : State} (h : s.Keeps t) {result : SelfTest} : s.Goes (execCornerSelfTest result t) :=
  Keeps.ite h h.setStage.modBoot
theorem Keeps.setRoster {s t : State} (h : s.Keeps t) {prev : Sites} : s.Keeps (t.setRoster prev) := h.update
theorem Keeps.restoreMap {s t : State} (h : s.Keeps t) {h' : Nat} : s.Keeps (t.restoreMap h') := Keeps.foldl (fun _ _ h0 => h0.wg) _ h
theorem Keeps.bootRetire {s t : State} (h : s.Keeps t) {k : Nat} : s.Keeps (t.bootRetire k) := by
  unfold State.bootRetire
  exact Keeps.modHealth (Keeps.ite h.wgF.rehomeMap h.wgF)

theorem Keeps.restoreHealth {s t : State} (h : s.Keeps t) : s.Keeps (t.restoreHealth) := by
  unfold State.restoreHealth
  refine Keeps.modHealth (Keeps.foldl (fun _ _ h524 => h524.bootRetire) _ (Keeps.foldl (fun _ _ h523 => h523.wgB) _ (Keeps.foldl (fun _
    _ h522 => h522.wg.wg) _ (Keeps.foldl (fun _ _ h521 => ?_) _ (Keeps.foldl (fun _ _ h519 => Keeps.ite h519.modHalf.wgF h519.modHalf) _
    (Keeps.foldl (fun _ _ h518 => h518.wgF) _ (Keeps.foldl (fun _ _ h517 => h517.restoreMap) _ h)))))))
  split
  · exact h521.wg
  · exact h521

theorem Keeps.testFails {s t : State} (h : s.Keeps t) : s.Keeps (t.testFails) := by
  unfold State.testFails
  dsimp only
  refine Keeps.foldl (fun _ _ h14 => Keeps.ite h14 (Keeps.ite h14.passBy h14.setHalf)) _ (Keeps.foldl (fun _ _ h8 => ?_) _ h)
  split
  · exact h8.setReg.modHealth.capRegion.govSync
  · exact Keeps.foldl (fun _ _ h12 => Keeps.ite h12 (Keeps.foldl (fun _ _ h13 => h13.passBy) _ h12.setReg.modHealth.govForget)) _
      h8.setReg.modHealth

theorem Goes.execReconciliation {s t : State} (h : s.Keeps t) : s.Goes (execReconciliation t) :=
  Keeps.ite h (Keeps.ite h.setStage.testFails.stopPart (Keeps.ite h.setStage.testFails.stopPart
    h.setStage.testFails.modHealth.restoreHealth.setRoster.modHealth.modBoot))
theorem Goes.execVportStageTest {s t : State} (h : s.Keeps t) {failed : List (Nat × List Nat)} : s.Goes (execVportStageTest failed t) :=
  Keeps.ite h (Keeps.startTraining (Keeps.foldl (fun _ _ h0 => h0.portResult) _ h.setStage))
theorem Keeps.mifTrained {s t : State} (h : s.Keeps t) {d serial rate : Nat} {quick : Bool} {temp : ℤ} {hours settings : Nat} :
    s.Keeps (t.mifTrained d serial rate quick temp hours settings) :=
  h.wgF.wgF.wgB.wgF.wgF.setMif
theorem Keeps.discardQuick {s t : State} (h : s.Keeps t) {d : Nat} {r : QRec} : s.Keeps (t.discardQuick d r) := h.update
theorem Keeps.trainFully {s t : State} (h : s.Keeps t) {t' : Training} {d : Nat} : s.Keeps (t.trainFully t' d) :=
  h.mifTrained.modBoot.update

theorem Keeps.trainMif {s t : State} (h : s.Keeps t) {t' : Training} {d : Nat} : s.Keeps (t.trainMif t' d) := by
  unfold State.trainMif
  split
  · exact Keeps.ite h.discardQuick.trainFully h.mifTrained
  · exact h.trainFully

theorem Keeps.trainDies {s t : State} (h : s.Keeps t) {t' : Training} {d : Nat} : s.Keeps (t.trainDies t' d) := by
  unfold State.trainDies
  split
  · exact h.eraseDie
  · exact h.modHealth

theorem Keeps.bootLose {s t : State} (h : s.Keeps t) {d : Nat} : s.Keeps (t.bootLose d) :=
  Keeps.healthEntry (Keeps.ite h.setHalf.modHealth.setRoster.modBoot.modBoot h.setHalf.modHealth.setRoster.modBoot)

theorem Keeps.mifsFail {s t : State} (h : s.Keeps t) {ds : List Nat} : s.Keeps (t.mifsFail ds) := by
  unfold State.mifsFail
  split
  · exact Keeps.foldl (fun _ _ h3 => h3.wgF) _ h
  · exact Keeps.ite (Keeps.stopPart (Keeps.foldl (fun _ _ h4 => h4.wgF) _ h)) (Keeps.foldl (fun _ _ h6 => h6.bootLose) _ (Keeps.foldl
      (fun _ _ h5 => h5.wgF) _ h))

theorem Goes.execTrainingStage {s t : State} (h : s.Keeps t) {result : Training} : s.Goes (execTrainingStage result t) := by
  refine Keeps.ite h ?_
  split
  · exact h.setStage.stopPart
  · exact Keeps.mifsFail (Keeps.foldl (fun _ _ h6 => h6.trainMif.trainDies) _ h.setStage)

theorem Keeps.repairLines {s t : State} (h : s.Keeps t) {d : Nat} {ls : List Nat} : s.Keeps (t.repairLines d ls) := by
  unfold State.repairLines
  exact Keeps.modHealth (Keeps.foldl (fun _ _ h2 => Keeps.ite h2.wg.wg h2) _ h)

theorem Keeps.memFails_fst {s t : State} (h : s.Keeps t) {f : MemFail} : s.Keeps (t.memFails f).1 := by
  refine Keeps.fst_ite h.repairLines ?_
  split
  · exact Keeps.ite (Keeps.foldl (fun _ _ h0 => h0.remapLine) _ h.repairLines) (Keeps.eraseDie (Keeps.foldl (fun _ _ h1 => h1.remapLine)
      _ h.repairLines))
  · exact Keeps.foldl (fun _ _ h2 => h2.remapLine) _ h.repairLines

theorem Keeps.memTest {s t : State} (h : s.Keeps t) {fs : List MemFail} : s.Keeps (t.memTest fs) := by
  unfold State.memTest
  exact Keeps.mifsFail (Keeps.fst_foldl (fun _ _ h0 => h0.memFails_fst.pair) _ h.pair)
theorem Keeps.memoryTested {s t : State} (h : s.Keeps t) : s.Keeps t.memoryTested :=
  h.memory (fun hm => ⟨Memory.wf_filter _ hm.1, hm.2.1, hm.2.2.sublist List.filter_sublist⟩) rfl
theorem Goes.execPatternTest {s t : State} (h : s.Keeps t) {failed : List MemFail} : s.Goes (execPatternTest failed t) :=
  Keeps.ite h (Keeps.ite h.setStage.memTest (Keeps.ite h.setStage.memTest.wgB.memoryTested h.setStage.memTest))
theorem Goes.execRetentionTest {s t : State} (h : s.Keeps t) {failed : List MemFail} : s.Goes (execRetentionTest failed t) :=
  Keeps.ite h (Keeps.ite h.setStage.memTest h.setStage.memTest.memoryTested.modHealth)

theorem Keeps.pickRouters_fst {s : State} {n : Nat} {x : State × List Nat} (h : s.Keeps x.1) {got : List Nat} :
    s.Keeps (Machine.pickRouters n x got).1 := by
  induction n generalizing x got with
  | zero => exact h
  | succ n ih => exact ih h.update.pair

theorem Keeps.attachLayer_fst {s t : State} (h : s.Keeps t) {k l : Nat} : s.Keeps (t.attachLayer k l).1 := by
  unfold State.attachLayer
  refine Keeps.fst_foldl (fun x _ h0 => ?_) _ (Keeps.pickRouters_fst h.pair).pair
  obtain ⟨u, cs, out⟩ := x
  exact (Keeps.pickRouters_fst (x := (u, cs)) h0).pair

theorem Keeps.setAttach {s t : State} (h : s.Keeps t) {t' : Nat} : s.Keeps (t.setAttach t') :=
  Keeps.wgF (Keeps.foldl (fun _ _ h0 => h0.wg) _ h.attachLayer_fst.attachLayer_fst)
theorem Keeps.pinDirLine {s t : State} (h : s.Keeps t) {a : Nat} : s.Keeps (t.pinDirLine a) := .getD h.takeWay_some h
theorem Keeps.setDirectory {s t : State} (h : s.Keeps t) {d : Nat} : s.Keeps (t.setDirectory d) :=
  Keeps.foldl (fun _ _ h2 => h2.pinDirLine) _ h.setMif
theorem Keeps.setPin0 {s t : State} (h : s.Keeps t) {t' : Nat} : s.Keeps (t.setPin0 t') :=
  Keeps.pinSync (Keeps.foldl (fun _ _ h6 => h6.wg.wg.wg) _ h.update)
theorem Keeps.countSlices {s t : State} (h : s.Keeps t) {h' : Nat} : s.Keeps (t.countSlices h') := h.wgF.wgF

theorem Keeps.bootSetUp {s t : State} (h : s.Keeps t) : s.Keeps (t.bootSetUp) :=
  Keeps.ite (Keeps.adminEvent (Keeps.update (Keeps.foldl (fun _ _ h48 => h48.wg.setAttach) _ (Keeps.foldl (fun _ _ h47 => h47.setPin0) _
    (Keeps.foldl (fun _ _ h46 => h46.setDirectory) _ (Keeps.foldl (fun _ _ h45 => h45.countSlices) _ h)))))) (Keeps.update (Keeps.foldl
    (fun _ _ h52 => h52.wg.setAttach) _ (Keeps.foldl (fun _ _ h51 => h51.setPin0) _ (Keeps.foldl (fun _ _ h50 => h50.setDirectory) _
    (Keeps.foldl (fun _ _ h49 => h49.countSlices) _ h)))))

theorem Keeps.raiseReady {s t : State} (h : s.Keeps t) : s.Keeps (t.raiseReady) := by
  unfold State.raiseReady
  exact Keeps.modBoot (Keeps.foldl (fun _ _ h2 => h2.parkRegion) _ h.wgB.wgB.wg64)

theorem Goes.execTopologyCheck {s t : State} (h : s.Keeps t) {badLink : Option Nat} : s.Goes (execTopologyCheck badLink t) := by
  refine Keeps.ite h (Keeps.ite (Keeps.ite h ?_) (Keeps.ite h (Keeps.ite h.beginStore.modBoot (Keeps.ite h.raiseReady h))))
  split
  · exact h.setStage.stopPart
  · exact h.setStage.bootSetUp.storeHealth.modBoot

theorem Keeps.tap {s t : State} (h : s.Keeps t) {ir n : Nat} : s.Keeps (t.tap ir n) := Keeps.ite h.update h
theorem Goes.execExtest {s t : State} (h : s.Keeps t) : s.Goes (execExtest t) := h.tap
theorem Goes.execSamplePreload {s t : State} (h : s.Keeps t) {captured preload : Nat} : s.Goes (execSamplePreload captured preload t) :=
  Keeps.ite h.update.tap h
theorem Goes.execIdcode {s t : State} (h : s.Keeps t) : s.Goes (execIdcode t) := h.tap
theorem Goes.execClamp {s t : State} (h : s.Keeps t) : s.Goes (execClamp t) := h.tap
theorem Goes.execHighz {s t : State} (h : s.Keeps t) : s.Goes (execHighz t) := h.tap
theorem Goes.execBypass {s t : State} (h : s.Keeps t) : s.Goes (execBypass t) := h.tap
theorem Goes.execTapReset {s t : State} (h : s.Keeps t) : s.Goes (execTapReset t) := h.tap
theorem Keeps.dbgLocked {s t : State} (h : s.Keeps t) : s.Keeps (t.dbgLocked) :=
  Keeps.foldl (fun _ _ h0 => Keeps.foldl (fun _ _ h1 => h1.wgB) _ h0.dropHalts) _ h.wgF
theorem Goes.execDbgChallenge {s t : State} (h : s.Keeps t) : s.Goes (execDbgChallenge t) := h.tap
theorem Goes.execDbgToken {s t : State} (h : s.Keeps t) {token : List Byte} : s.Goes (execDbgToken token t) :=
  Keeps.ite h.tap (Keeps.ite h.tap.update.wgF.wgF.wg64 h.tap.update.wgF.wgB)
theorem Goes.execDbgLock {s t : State} (h : s.Keeps t) : s.Goes (execDbgLock t) := Keeps.ite h.tap.dbgLocked h
theorem Goes.execDebugExpiry {s t : State} (h : s.Keeps t) : s.Goes (execDebugExpiry t) := Keeps.ite h.dbgLocked h
theorem Keeps.dbgHalt {s t : State} (h : s.Keeps t) {site : Nat} : s.Keeps (t.dbgHalt site) := Keeps.foldl (fun _ _ h0 => h0.wgB) _ h
theorem Keeps.dbgResume {s t : State} (h : s.Keeps t) {site : Nat} : s.Keeps (t.dbgResume site) :=
  Keeps.foldl (fun _ _ h0 => h0.modGroup) _ h.unhalt
theorem Keeps.dbgStep {s t : State} (h : s.Keeps t) {site : Nat} : s.Keeps (t.dbgStep site) := Keeps.ite h.wgB h
theorem Goes.execHalt {s t : State} (h : s.Keeps t) {site : Nat} : s.Goes (execHalt site t) := Goes.ite h (Keeps.ite h.dbgHalt h)
theorem Goes.execResume {s t : State} (h : s.Keeps t) {site : Nat} : s.Goes (execResume site t) := Goes.ite h (Keeps.ite h.dbgResume h)
theorem Goes.execStep {s t : State} (h : s.Keeps t) {site : Nat} : s.Goes (execStep site t) := Goes.ite h (Keeps.ite h.dbgStep h)

theorem Keeps.dbgActs {s t : State} (h : s.Keeps t) {b : Blk} {o : Nat} {v : W32} : s.Keeps (t.dbgActs b o v) := by
  unfold State.dbgActs
  split
  · exact Keeps.ite h.espLoadWrite h
  · exact Keeps.ite h.clearCore h
  · exact Keeps.ite h.clearLog h
  · exact Keeps.ite h.clearLog h
  · exact Keeps.ite (Keeps.ite (Keeps.fabRetrain (Keeps.ite h.fabAccept h)) (Keeps.ite h.fabAccept h)) h
  · exact Keeps.ite (Keeps.ite (Keeps.dbgStep (Keeps.ite (Keeps.dbgResume (Keeps.ite h.dbgHalt h)) (Keeps.ite h.dbgHalt h))) (Keeps.ite
      (Keeps.dbgResume (Keeps.ite h.dbgHalt h)) (Keeps.ite h.dbgHalt h))) h
  · exact Keeps.ite h.clearBlocks (Keeps.ite h.setRptr h)
  · exact h

theorem Keeps.dbgWriteReg_some {s t : State} (h : s.Keeps t) {a : Nat} {v : W32} :
    ∀ u, t.dbgWriteReg a v = some u → s.Keeps u := by
  intro u hu
  unfold State.dbgWriteReg at hu
  split at hu
  · split at hu
    · cases hu; exact h
    · cases hu
  · split at hu
    · cases hu
    · split at hu
      · cases hu; exact h
      · cases hu; exact (Keeps.ite h h.applyWrite).dbgActs

theorem Goes.execDbgReg {s t : State} (h : s.Keeps t) {dr : BitVec 96} : s.Goes (Machine.execDbgReg dr t) := by
  refine Keeps.ite h.tap (.ite ?_ h.latchRead.tap)
  split
  · next hu => exact (h.dbgWriteReg_some _ hu).tap
  · exact h.tap

theorem Keeps.dbgMemAccess {s t : State} (h : s.Keeps t) {dr : BitVec 128} {a n : Nat} {write : Bool} :
    s.Keeps (t.dbgMemAccess dr a n write) :=
  Keeps.ite h.update.tap (Keeps.update (Keeps.sendQueued (Keeps.bumpSerial (Keeps.ite h.queueWrite h.queueRead))))

theorem Keeps.settleDbg {s t : State} (h : s.Keeps t) {refused : Bool} : s.Keeps (t.settleDbg refused) := by
  unfold State.settleDbg
  split
  · exact h
  · refine Keeps.ite h (Keeps.ite h.used.update.tap ?_)
    split
    · exact h.used.update.tap
    · exact h.used.update.tap

theorem Keeps.dbgMemReg {s t : State} (h : s.Keeps t) {dr : BitVec 128} {x n : Nat} {write : Bool} :
    s.Keeps (t.dbgMemReg dr x n write) := by
  refine .ite h.tap (.ite ?_ h.latchRead.tap)
  dsimp only
  split
  · exact h.tap
  · next hu =>
    refine .ite (h.dbgWriteReg_some _ hu).tap ?_
    split
    · exact h.tap
    · next hv => exact ((h.dbgWriteReg_some _ hu).dbgWriteReg_some _ hv).tap

theorem Goes.execDbgMem {s t : State} (h : s.Keeps t) {dr : BitVec 128} : s.Goes (execDbgMem dr t) := by
  refine Keeps.ite h.tap (Keeps.ite h.dbgMemReg ?_)
  split
  · exact h.tap
  · exact Keeps.ite h.tap (Keeps.ite h h.dbgMemAccess)

theorem Keeps.fabRefused {s t : State} (h : s.Keeps t) {serial : Nat} : s.Keeps (t.fabRefused serial) := h.update

theorem Keeps.delivered {s t : State} (h : s.Keeps t) {r : Req} : s.Keeps (t.delivered r) := by
  refine Keeps.ite (Keeps.settleReads (Keeps.ite h.unsupported h)) (Keeps.ite (Keeps.settleFab (Keeps.ite h.fabRefused h)) (Keeps.ite
    h.settleDbg ?_))
  split
  · exact Keeps.ite h h.ackReach
  · exact h

theorem Keeps.gotAnswer {s t : State} (h : s.Keeps t) {r : Req} : s.Keeps (t.gotAnswer r) := h.takeAnswer.delivered

theorem Goes.execResponseArrival {s t : State} (h : s.Keeps t) {rid : Nat} : s.Goes (execResponseArrival rid t) := by
  unfold Machine.execResponseArrival
  dsimp only
  split
  · exact h
  · exact h.setPacket.bump
  · refine Goes.ite h ?_
    split
    · exact Keeps.ite h.setPacket.bump h.setPacket.gotAnswer
    · refine Goes.ite h ?_
      split
      · exact h.gotAnswer
      · exact Goes.ite h h.setReq.bump
      · exact h

theorem Keeps.testEnd {s t : State} (h : s.Keeps t) {c : Cmd} {n : Nat} : s.Keeps (t.testEnd c n) := h.finish
theorem Keeps.vportResults {s t : State} (h : s.Keeps t) {cid : Nat} {running : List Nat} {failed : List (Nat × List Nat)} :
    s.Keeps (t.vportResults cid running failed) :=
  Keeps.foldl (fun _ _ h0 => Keeps.ite h0.testDone.modCmd h0.modCmd) _ h
theorem Keeps.vportStarts {s t : State} (h : s.Keeps t) {cid : Nat} {left : List Nat} : s.Keeps (t.vportStarts cid left) :=
  Keeps.foldl (fun _ _ h0 => Keeps.ite h0.startTest.modCmd h0) _ h
theorem Goes.execSelftestVport {s t : State} (h : s.Keeps t) {cid : Nat} {failed : List (Nat × List Nat)} :
    s.Goes (execSelftestVport cid failed t) :=
  Goes.runCmd h (fun _ _ h0 => Keeps.ite h0.vportResults.testEnd h0.vportResults.vportStarts)

theorem Goes.execSelftestCore {s t : State} (h : s.Keeps t) {cid : Nat} {failed : List Nat} : s.Goes (execSelftestCore cid failed t) :=
  Goes.runCmd h (fun _ _ h0 => Keeps.ite (Keeps.testEnd (Keeps.modCmd (Keeps.foldl (fun _ _ h44 => h44.fenceCore) _ (Keeps.foldl (fun _
    _ h43 => h43.modCore) _ (Keeps.foldl (fun _ _ h42 => h42.modCore) _ h0))))) (Keeps.modCmd (Keeps.foldl (fun _ _ h47 =>
    h47.fenceCore) _ (Keeps.foldl (fun _ _ h46 => h46.modCore) _ (Keeps.foldl (fun _ _ h45 => h45.modCore) _ h0)))))

theorem Goes.execSelftestMemory {s t : State} (h : s.Keeps t) {cid : Nat} {failed : List (Nat × Nat)} :
    s.Goes (execSelftestMemory cid failed t) :=
  Goes.runCmd h (fun _ _ h0 => Keeps.testEnd (Keeps.foldl (fun _ _ h1 => h1.remapLine) _ h0))
theorem Goes.execCounterSnap {s t : State} (h : s.Keeps t) {cid : Nat} : s.Goes (execCounterSnap cid t) :=
  Goes.runCmd h (fun _ _ h0 => Keeps.ite h0.cpWrite.finish (Keeps.ite h0 h0.hostWrite.finish))
theorem Keeps.traceRun {s t : State} (h : s.Keeps t) {c : Cmd} {on : Bool} : s.Keeps (t.traceRun c on) := h.wgF.wgB
theorem Goes.execTraceStop {s t : State} (h : s.Keeps t) {cid : Nat} : s.Goes (execTraceStop cid t) :=
  Goes.runCmd h (fun _ _ h0 => h0.traceRun.finish)
theorem Goes.execTraceStart {s t : State} (h : s.Keeps t) {cid : Nat} : s.Goes (execTraceStart cid t) :=
  Goes.runCmd h (fun _ _ h0 => Keeps.ite h0.finish h0.traceRun.finish)
theorem Goes.execTraceSetRecordRing {s t : State} (h : s.Keeps t) {cid : Nat} : s.Goes (execTraceSetRecordRing cid t) :=
  Goes.runCmd h (fun _ _ h0 => h0.wg.wgF.wgF.finish)
theorem Goes.execTraceSetTraceRing {s t : State} (h : s.Keeps t) {cid : Nat} : s.Goes (execTraceSetTraceRing cid t) :=
  Goes.runCmd h (fun _ _ h0 => Keeps.ite h0.finish h0.wg.wgF.wgF.wg.wg.update.finish)

theorem Keeps.actOn {s t : State} (h : s.Keeps t) {t' : Nat} {raws : List (Nat × ℤ)} {est : Nat → ℤ} : s.Keeps (t.actOn t' raws est) :=
  Keeps.ite (Keeps.bump (Keeps.sampleRate (Keeps.throttle (Keeps.throttle (Keeps.foldl (fun _ _ h38 => h38.bandTrack) _ (Keeps.foldl
    (fun _ _ h37 => h37.suspectOne) _ h.modTherm)))))) (Keeps.sampleRate (Keeps.throttle (Keeps.throttle (Keeps.foldl (fun _ _ h40 =>
    h40.bandTrack) _ (Keeps.foldl (fun _ _ h39 => h39.suspectOne) _ h.modTherm)))))

theorem Goes.execSensorSample {s t : State} (h : s.Keeps t) {stack : Nat} {readings powers : List ℤ} :
    s.Goes (execSensorSample stack readings powers t) := by
  unfold Machine.execSensorSample
  dsimp only
  refine Goes.ite h (Goes.ite h (Goes.ite h.takeSample.modTherm ?_))
  split
  · exact h.takeSample.modTherm.actOn.trip
  · exact h.takeSample.modTherm.actOn

end Sys2Proof.Machine.State
end

section
/-! PROOF. What every operation keeps: approximations, floating point and integers, and the dispatch of all commands. -/

namespace Sys2Proof.Machine.State

theorem Goes.execFadd {s t : State} (h : s.Keeps t) {w : At} {f : RForm} : s.Goes (execFadd w f t) := Goes.runAlu h
theorem Goes.execFsub {s t : State} (h : s.Keeps t) {w : At} {f : RForm} : s.Goes (execFsub w f t) := Goes.runAlu h
theorem Goes.execFmul {s t : State} (h : s.Keeps t) {w : At} {f : RForm} : s.Goes (execFmul w f t) := Goes.runAlu h
theorem Goes.execFfma {s t : State} (h : s.Keeps t) {w : At} {f : RForm} : s.Goes (execFfma w f t) := Goes.runAlu h
theorem Goes.execFmin {s t : State} (h : s.Keeps t) {w : At} {f : RForm} : s.Goes (execFmin w f t) := Goes.runAlu h
theorem Goes.execFmax {s t : State} (h : s.Keeps t) {w : At} {f : RForm} : s.Goes (execFmax w f t) := Goes.runAlu h
theorem Goes.execFabs {s t : State} (h : s.Keeps t) {w : At} {f : RForm} : s.Goes (execFabs w f t) := Goes.runAlu h
theorem Goes.execFneg {s t : State} (h : s.Keeps t) {w : At} {f : RForm} : s.Goes (execFneg w f t) := Goes.runAlu h
theorem Goes.execFdiv {s t : State} (h : s.Keeps t) {w : At} {f : RForm} : s.Goes (execFdiv w f t) := Goes.runAlu h
theorem Goes.execFsqrt {s t : State} (h : s.Keeps t) {w : At} {f : RForm} : s.Goes (execFsqrt w f t) := Goes.runAlu h
theorem Goes.execFrcp {s t : State} (h : s.Keeps t) {w : At} {f : RForm} : s.Goes (execFrcp w f t) := Goes.runAlu h
theorem Goes.execFrsq {s t : State} (h : s.Keeps t) {w : At} {f : RForm} : s.Goes (execFrsq w f t) := Goes.runAlu h
theorem Goes.execFexp2 {s t : State} (h : s.Keeps t) {w : At} {f : RForm} : s.Goes (execFexp2 w f t) := Goes.runAlu h
theorem Goes.execFlog2 {s t : State} (h : s.Keeps t) {w : At} {f : RForm} : s.Goes (execFlog2 w f t) := Goes.runAlu h
theorem Goes.execFsin {s t : State} (h : s.Keeps t) {w : At} {f : RForm} : s.Goes (execFsin w f t) := Goes.runAlu h
theorem Goes.execFcos {s t : State} (h : s.Keeps t) {w : At} {f : RForm} : s.Goes (execFcos w f t) := Goes.runAlu h
theorem Goes.execFtanh {s t : State} (h : s.Keeps t) {w : At} {f : RForm} : s.Goes (execFtanh w f t) := Goes.runAlu h
theorem Goes.execCvtif {s t : State} (h : s.Keeps t) {w : At} {f : RForm} : s.Goes (execCvtif w f t) := Goes.runAlu h
theorem Goes.execCvtuf {s t : State} (h : s.Keeps t) {w : At} {f : RForm} : s.Goes (execCvtuf w f t) := Goes.runAlu h
theorem Goes.execCvtfi {s t : State} (h : s.Keeps t) {w : At} {f : RForm} : s.Goes (execCvtfi w f t) := Goes.runAlu h
theorem Goes.execCvtfu {s t : State} (h : s.Keeps t) {w : At} {f : RForm} : s.Goes (execCvtfu w f t) := Goes.runAlu h
theorem Goes.execCvtfb {s t : State} (h : s.Keeps t) {w : At} {f : RForm} : s.Goes (execCvtfb w f t) := Goes.runAlu h
theorem Goes.execCvtbf {s t : State} (h : s.Keeps t) {w : At} {f : RForm} : s.Goes (execCvtbf w f t) := Goes.runAlu h
theorem Goes.execCvtfh {s t : State} (h : s.Keeps t) {w : At} {f : RForm} : s.Goes (execCvtfh w f t) := Goes.runAlu h
theorem Goes.execCvthf {s t : State} (h : s.Keeps t) {w : At} {f : RForm} : s.Goes (execCvthf w f t) := Goes.runAlu h
theorem Goes.execCvt8f {s t : State} (h : s.Keeps t) {w : At} {f : RForm} : s.Goes (execCvt8f w f t) := Goes.runAlu h
theorem Goes.execCvtf8 {s t : State} (h : s.Keeps t) {w : At} {f : RForm} : s.Goes (execCvtf8 w f t) := by
  unfold Machine.execCvtf8
  exact Goes.runThread h (fun _ _ => h.put)
theorem Goes.execIadd {s t : State} (h : s.Keeps t) {w : At} {f : RForm} : s.Goes (execIadd w f t) := Goes.runAlu h
theorem Goes.execIsub {s t : State} (h : s.Keeps t) {w : At} {f : RForm} : s.Goes (execIsub w f t) := Goes.runAlu h
theorem Goes.execImul {s t : State} (h : s.Keeps t) {w : At} {f : RForm} : s.Goes (execImul w f t) := Goes.runAlu h
theorem Goes.execImulh {s t : State} (h : s.Keeps t) {w : At} {f : RForm} : s.Goes (execImulh w f t) := Goes.runAlu h
theorem Goes.execImulhu {s t : State} (h : s.Keeps t) {w : At} {f : RForm} : s.Goes (execImulhu w f t) := Goes.runAlu h
theorem Goes.execImad {s t : State} (h : s.Keeps t) {w : At} {f : RForm} : s.Goes (execImad w f t) := Goes.runAlu h
theorem Goes.execImin {s t : State} (h : s.Keeps t) {w : At} {f : RForm} : s.Goes (execImin w f t) := Goes.runAlu h
theorem Goes.execImax {s t : State} (h : s.Keeps t) {w : At} {f : RForm} : s.Goes (execImax w f t) := Goes.runAlu h
theorem Goes.execIminu {s t : State} (h : s.Keeps t) {w : At} {f : RForm} : s.Goes (execIminu w f t) := Goes.runAlu h
theorem Goes.execImaxu {s t : State} (h : s.Keeps t) {w : At} {f : RForm} : s.Goes (execImaxu w f t) := Goes.runAlu h
theorem Goes.execIabs {s t : State} (h : s.Keeps t) {w : At} {f : RForm} : s.Goes (execIabs w f t) := Goes.runAlu h
theorem Goes.execIdiv {s t : State} (h : s.Keeps t) {w : At} {f : RForm} : s.Goes (execIdiv w f t) := Goes.runAlu h
theorem Goes.execIdivu {s t : State} (h : s.Keeps t) {w : At} {f : RForm} : s.Goes (execIdivu w f t) := Goes.runAlu h
theorem Goes.execIrem {s t : State} (h : s.Keeps t) {w : At} {f : RForm} : s.Goes (execIrem w f t) := Goes.runAlu h
theorem Goes.execIremu {s t : State} (h : s.Keeps t) {w : At} {f : RForm} : s.Goes (execIremu w f t) := Goes.runAlu h
theorem Goes.execAnd {s t : State} (h : s.Keeps t) {w : At} {f : RForm} : s.Goes (execAnd w f t) := Goes.runAlu h
theorem Goes.execOr {s t : State} (h : s.Keeps t) {w : At} {f : RForm} : s.Goes (execOr w f t) := Goes.runAlu h
theorem Goes.execXor {s t : State} (h : s.Keeps t) {w : At} {f : RForm} : s.Goes (execXor w f t) := Goes.runAlu h
theorem Goes.execShl {s t : State} (h : s.Keeps t) {w : At} {f : RForm} : s.Goes (execShl w f t) := Goes.runAlu h
theorem Goes.execShr {s t : State} (h : s.Keeps t) {w : At} {f : RForm} : s.Goes (execShr w f t) := Goes.runAlu h
theorem Goes.execSar {s t : State} (h : s.Keeps t) {w : At} {f : RForm} : s.Goes (execSar w f t) := Goes.runAlu h
theorem Goes.execPopc {s t : State} (h : s.Keeps t) {w : At} {f : RForm} : s.Goes (execPopc w f t) := Goes.runAlu h
theorem Goes.execClz {s t : State} (h : s.Keeps t) {w : At} {f : RForm} : s.Goes (execClz w f t) := Goes.runAlu h
theorem Goes.execBrev {s t : State} (h : s.Keeps t) {w : At} {f : RForm} : s.Goes (execBrev w f t) := Goes.runAlu h
theorem Goes.execIsetp {s t : State} (h : s.Keeps t) {w : At} {f : RForm} : s.Goes (execIsetp w f t) := Goes.runSetp h
theorem Goes.execIsetpu {s t : State} (h : s.Keeps t) {w : At} {f : RForm} : s.Goes (execIsetpu w f t) := Goes.runSetp h
theorem Goes.execFsetp {s t : State} (h : s.Keeps t) {w : At} {f : RForm} : s.Goes (execFsetp w f t) := Goes.runSetp h
theorem Goes.execSel {s t : State} (h : s.Keeps t) {w : At} {f : RForm} : s.Goes (execSel w f t) := Goes.runAlu h
theorem Goes.execMov {s t : State} (h : s.Keeps t) {w : At} {f : RForm} : s.Goes (execMov w f t) := Goes.runAlu h
theorem Goes.execPlop {s t : State} (h : s.Keeps t) {w : At} {f : RForm} : s.Goes (execPlop w f t) := Goes.runThread h (fun _ _ => h.put)
theorem Goes.execP2r {s t : State} (h : s.Keeps t) {w : At} {f : RForm} : s.Goes (execP2r w f t) := Goes.runAlu h
theorem Goes.execRegToPred {s t : State} (h : s.Keeps t) {w : At} {f : RForm} : s.Goes (execRegToPred w f t) := by
  unfold Machine.execRegToPred
  exact Goes.runThread h (fun _ _ => h.put)
theorem Goes.execShfl {s t : State} (h : s.Keeps t) {w : At} {f : RForm} : s.Goes (execShfl w f t) := by
  unfold Machine.execShfl
  exact Goes.runThread h (fun _ _ => h.put)
theorem Goes.execVote {s t : State} (h : s.Keeps t) {w : At} {f : RForm} : s.Goes (execVote w f t) := by
  unfold Machine.execVote
  exact Goes.runThread h (fun _ _ => h.put)
theorem Goes.execMovi {s t : State} (h : s.Keeps t) {w : At} {f : IForm} : s.Goes (execMovi w f t) := Goes.runImm h
theorem Goes.execIaddi {s t : State} (h : s.Keeps t) {w : At} {f : IForm} : s.Goes (execIaddi w f t) := Goes.runImm h
theorem Goes.execImuli {s t : State} (h : s.Keeps t) {w : At} {f : IForm} : s.Goes (execImuli w f t) := Goes.runImm h
theorem Goes.execAndi {s t : State} (h : s.Keeps t) {w : At} {f : IForm} : s.Goes (execAndi w f t) := Goes.runImm h
theorem Goes.execOri {s t : State} (h : s.Keeps t) {w : At} {f : IForm} : s.Goes (execOri w f t) := Goes.runImm h
theorem Goes.execXori {s t : State} (h : s.Keeps t) {w : At} {f : IForm} : s.Goes (execXori w f t) := Goes.runImm h
theorem Goes.execShli {s t : State} (h : s.Keeps t) {w : At} {f : IForm} : s.Goes (execShli w f t) := Goes.runImm h
theorem Goes.execShri {s t : State} (h : s.Keeps t) {w : At} {f : IForm} : s.Goes (execShri w f t) := Goes.runImm h
theorem Goes.execSari {s t : State} (h : s.Keeps t) {w : At} {f : IForm} : s.Goes (execSari w f t) := Goes.runImm h
theorem Goes.execFaddi {s t : State} (h : s.Keeps t) {w : At} {f : IForm} : s.Goes (execFaddi w f t) := Goes.runImm h
theorem Goes.execFmuli {s t : State} (h : s.Keeps t) {w : At} {f : IForm} : s.Goes (execFmuli w f t) := Goes.runImm h
theorem Goes.execIsetpi {s t : State} (h : s.Keeps t) {w : At} {f : IForm} : s.Goes (execIsetpi w f t) := Goes.runSetpI h
theorem Goes.execIsetpui {s t : State} (h : s.Keeps t) {w : At} {f : IForm} : s.Goes (execIsetpui w f t) := Goes.runSetpI h
theorem Goes.execFsetpi {s t : State} (h : s.Keeps t) {w : At} {f : IForm} : s.Goes (execFsetpi w f t) := Goes.runSetpI h

/-- Whatever a command does, the queue, the part as made and canonical memory stay. -/
theorem Ends.exec {s t : State} (h : s.Keeps t) {i : Instr} : s.Ends (Machine.exec i t) := by
  cases i with
  | nop _ _ => exact (Goes.execNop h).ends
  | bra _ _ => exact (Goes.execBra h).ends
  | brx _ _ => exact (Goes.execBrx h).ends
  | merge _ _ => exact (Goes.execMerge h).ends
  | exit _ _ => exact (Goes.execExit h).ends
  | spin _ _ => exact (Goes.execSpin h).ends
  | trap _ _ => exact (Goes.execTrap h).ends
  | s2r _ _ => exact (Goes.execS2r h).ends
  | iadd _ _ => exact (Goes.execIadd h).ends
  | isub _ _ => exact (Goes.execIsub h).ends
  | imul _ _ => exact (Goes.execImul h).ends
  | imulh _ _ => exact (Goes.execImulh h).ends
  | imulhu _ _ => exact (Goes.execImulhu h).ends
  | imad _ _ => exact (Goes.execImad h).ends
  | imin _ _ => exact (Goes.execImin h).ends
  | imax _ _ => exact (Goes.execImax h).ends
  | iminu _ _ => exact (Goes.execIminu h).ends
  | imaxu _ _ => exact (Goes.execImaxu h).ends
  | iabs _ _ => exact (Goes.execIabs h).ends
  | idiv _ _ => exact (Goes.execIdiv h).ends
  | idivu _ _ => exact (Goes.execIdivu h).ends
  | irem _ _ => exact (Goes.execIrem h).ends
  | iremu _ _ => exact (Goes.execIremu h).ends
  | and _ _ => exact (Goes.execAnd h).ends
  | or _ _ => exact (Goes.execOr h).ends
  | xor _ _ => exact (Goes.execXor h).ends
  | shl _ _ => exact (Goes.execShl h).ends
  | shr _ _ => exact (Goes.execShr h).ends
  | sar _ _ => exact (Goes.execSar h).ends
  | popc _ _ => exact (Goes.execPopc h).ends
  | clz _ _ => exact (Goes.execClz h).ends
  | brev _ _ => exact (Goes.execBrev h).ends
  | isetp _ _ => exact (Goes.execIsetp h).ends
  | isetpu _ _ => exact (Goes.execIsetpu h).ends
  | fsetp _ _ => exact (Goes.execFsetp h).ends
  | sel _ _ => exact (Goes.execSel h).ends
  | mov _ _ => exact (Goes.execMov h).ends
  | plop _ _ => exact (Goes.execPlop h).ends
  | p2r _ _ => exact (Goes.execP2r h).ends
  | regToPred _ _ => exact (Goes.execRegToPred h).ends
  | fadd _ _ => exact (Goes.execFadd h).ends
  | fsub _ _ => exact (Goes.execFsub h).ends
  | fmul _ _ => exact (Goes.execFmul h).ends
  | ffma _ _ => exact (Goes.execFfma h).ends
  | fmin _ _ => exact (Goes.execFmin h).ends
  | fmax _ _ => exact (Goes.execFmax h).ends
  | fabs _ _ => exact (Goes.execFabs h).ends
  | fneg _ _ => exact (Goes.execFneg h).ends
  | fdiv _ _ => exact (Goes.execFdiv h).ends
  | fsqrt _ _ => exact (Goes.execFsqrt h).ends
  | frcp _ _ => exact (Goes.execFrcp h).ends
  | frsq _ _ => exact (Goes.execFrsq h).ends
  | fexp2 _ _ => exact (Goes.execFexp2 h).ends
  | flog2 _ _ => exact (Goes.execFlog2 h).ends
  | fsin _ _ => exact (Goes.execFsin h).ends
  | fcos _ _ => exact (Goes.execFcos h).ends
  | ftanh _ _ => exact (Goes.execFtanh h).ends
  | cvtif _ _ => exact (Goes.execCvtif h).ends
  | cvtuf _ _ => exact (Goes.execCvtuf h).ends
  | cvtfi _ _ => exact (Goes.execCvtfi h).ends
  | cvtfu _ _ => exact (Goes.execCvtfu h).ends
  | cvtfb _ _ => exact (Goes.execCvtfb h).ends
  | cvtbf _ _ => exact (Goes.execCvtbf h).ends
  | cvtfh _ _ => exact (Goes.execCvtfh h).ends
  | cvthf _ _ => exact (Goes.execCvthf h).ends
  | cvtf8 _ _ => exact (Goes.execCvtf8 h).ends
  | cvt8f _ _ => exact (Goes.execCvt8f h).ends
  | shfl _ _ => exact (Goes.execShfl h).ends
  | vote _ _ => exact (Goes.execVote h).ends
  | ld _ _ => exact (Goes.execLd h).ends
  | st _ _ => exact (Goes.execSt h).ends
  | ldnc _ _ => exact (Goes.execLdnc h).ends
  | aadd _ _ => exact (Goes.execAadd h).ends
  | amin _ _ => exact (Goes.execAmin h).ends
  | amax _ _ => exact (Goes.execAmax h).ends
  | aminu _ _ => exact (Goes.execAminu h).ends
  | amaxu _ _ => exact (Goes.execAmaxu h).ends
  | aand _ _ => exact (Goes.execAand h).ends
  | aor _ _ => exact (Goes.execAor h).ends
  | axor _ _ => exact (Goes.execAxor h).ends
  | axchg _ _ => exact (Goes.execAxchg h).ends
  | acas _ _ => exact (Goes.execAcas h).ends
  | afadd _ _ => exact (Goes.execAfadd h).ends
  | raddI32 _ _ => exact (Goes.execRaddI32 h).ends
  | raddF32 _ _ => exact (Goes.execRaddF32 h).ends
  | raddBf16 _ _ => exact (Goes.execRaddBf16 h).ends
  | rmaxI32 _ _ => exact (Goes.execRmaxI32 h).ends
  | rminI32 _ _ => exact (Goes.execRminI32 h).ends
  | rmaxF32 _ _ => exact (Goes.execRmaxF32 h).ends
  | rminF32 _ _ => exact (Goes.execRminF32 h).ends
  | rmaxBf16 _ _ => exact (Goes.execRmaxBf16 h).ends
  | rminBf16 _ _ => exact (Goes.execRminBf16 h).ends
  | barg _ _ => exact (Goes.execBarg h).ends
  | barb _ _ => exact (Goes.execBarb h).ends
  | fence _ _ => exact (Goes.execFence h).ends
  | tile _ _ => exact (Goes.execTile h).ends
  | twait _ _ => exact (Goes.execTwait h).ends
  | espld _ _ => exact (Goes.execEspld h).ends
  | dma _ _ => exact (Goes.execDma h).ends
  | dwait _ _ => exact (Goes.execDwait h).ends
  | movi _ _ => exact (Goes.execMovi h).ends
  | iaddi _ _ => exact (Goes.execIaddi h).ends
  | imuli _ _ => exact (Goes.execImuli h).ends
  | andi _ _ => exact (Goes.execAndi h).ends
  | ori _ _ => exact (Goes.execOri h).ends
  | xori _ _ => exact (Goes.execXori h).ends
  | shli _ _ => exact (Goes.execShli h).ends
  | shri _ _ => exact (Goes.execShri h).ends
  | sari _ _ => exact (Goes.execSari h).ends
  | isetpi _ _ => exact (Goes.execIsetpi h).ends
  | isetpui _ _ => exact (Goes.execIsetpui h).ends
  | faddi _ _ => exact (Goes.execFaddi h).ends
  | fmuli _ _ => exact (Goes.execFmuli h).ends
  | fsetpi _ _ => exact (Goes.execFsetpi h).ends
  | stageWeights _ => exact (Goes.execStageWeights h).ends
  | passStart _ _ => exact (Goes.execPassStart h).ends
  | passEnd _ => exact (Goes.execPassEnd h).ends
  | drainPartials _ _ => exact (Goes.execDrainPartials h).ends
  | priorValueRead _ => exact (Goes.execPriorValueRead h).ends
  | writeOut _ _ => exact (Goes.execWriteOut h).ends
  | writeOutDone _ => exact (Goes.execWriteOutDone h).ends
  | interlockEnd _ => exact (Goes.execInterlockEnd h).ends
  | fillerRampDown _ => exact (Goes.execFillerRampDown h).ends
  | fillerRampUp _ => exact (Goes.execFillerRampUp h).ends
  | espLoadStart _ _ _ => exact (Goes.execEspLoadStart h).ends
  | espImageLoadDone _ => exact (Goes.execEspImageLoadDone h).ends
  | dmaComplete _ _ => exact (Goes.execDmaComplete h).ends
  | blockPlace _ => exact (Goes.execBlockPlace h).ends
  | stallDetectorFire _ _ => exact (Goes.execStallDetectorFire h).ends
  | sliceRead _ _ => exact (Goes.execSliceRead h).ends
  | sliceWrite _ _ => exact (Goes.execSliceWrite h).ends
  | sliceAtomic _ _ => exact (Goes.execSliceAtomic h).ends
  | sliceReduction _ _ => exact (Goes.execSliceReduction h).ends
  | orderedReductionApply _ _ => exact (Goes.execOrderedReductionApply h).ends
  | sectorFill _ _ _ => exact (Goes.execSectorFill h).ends
  | writeBackIssue _ _ _ => exact (Goes.execWriteBackIssue h).ends
  | writeBackPerformed _ _ => exact (Goes.execWriteBackPerformed h).ends
  | mifAccess _ _ _ _ => exact (Goes.execMifAccess h).ends
  | refresh _ _ => exact (Goes.execRefresh h).ends
  | mifTempRead _ _ => exact (Goes.execMifTempRead h).ends
  | wck2dqRead _ _ => exact (Goes.execWck2dqRead h).ends
  | mifRetrainDone _ => exact (Goes.execMifRetrainDone h).ends
  | selfRefreshEntry _ => exact (Goes.execSelfRefreshEntry h).ends
  | cacheWake _ => exact (Goes.execCacheWake h).ends
  | cacheWakeDone _ => exact (Goes.execCacheWakeDone h).ends
  | retentionReturn _ => exact (Goes.execRetentionReturn h).ends
  | cacheRemap _ _ _ => exact (Goes.execCacheRemap h).ends
  | memoryRemap _ _ => exact (Goes.execMemoryRemap h).ends
  | bitmapZeroFill _ _ => exact (Goes.execBitmapZeroFill h).ends
  | scrubAccess _ => exact (Goes.execScrubAccess h).ends
  | portResend _ _ _ _ _ _ => exact (Goes.execPortResend h).ends
  | portTest _ _ => exact (Goes.execPortTest h).ends
  | portTestDone _ _ _ => exact (Goes.execPortTestDone h).ends
  | sliceRetire _ _ _ => exact (Goes.execSliceRetire h).ends
  | rehomeDone _ _ => exact (Goes.execRehomeDone h).ends
  | thrashWindowEnd _ => exact (Goes.execThrashWindowEnd h).ends
  | transposePiece _ _ _ _ => exact (Goes.execTransposePiece h).ends
  | routerPacket _ _ => exact (Goes.execRouterPacket h).ends
  | responseArrival _ => exact (Goes.execResponseArrival h).ends
  | requestRetry _ => exact (Goes.execRequestRetry h).ends
  | requestGiveUp _ => exact (Goes.execRequestGiveUp h).ends
  | recordRelease _ => exact (Goes.execRecordRelease h).ends
  | budgetWindowBoundary => exact (Goes.execBudgetWindowBoundary h).ends
  | crossingModeSwitch _ _ => exact (Goes.execCrossingModeSwitch h).ends
  | ringMessage _ => exact (Goes.execRingMessage h).ends
  | ringLinkFail _ _ => exact (Goes.execRingLinkFail h).ends
  | launchMessage _ _ => exact (Goes.execLaunchMessage h).ends
  | endBoundaryOrder _ _ => exact (Goes.execEndBoundaryOrder h).ends
  | coreAcknowledge _ _ => exact (Goes.execCoreAcknowledge h).ends
  | commandEndBoundary _ => exact (Goes.execCommandEndBoundary h).ends
  | statusReply _ _ => exact (Goes.execStatusReply h).ends
  | msiXInterrupt _ => exact (Goes.execMsiXInterrupt h).ends
  | sqTailDoorbell _ _ _ => exact (Goes.execSqTailDoorbell h).ends
  | cqHeadDoorbell _ _ _ => exact (Goes.execCqHeadDoorbell h).ends
  | commandFetch _ _ _ => exact (Goes.execCommandFetch h).ends
  | queueEnable _ _ _ => exact (Goes.execQueueEnable h).ends
  | nopCommand _ => exact (Goes.execNopCommand h).ends
  | launch _ => exact (Goes.execLaunch h).ends
  | copy _ => exact (Goes.execCopy h).ends
  | fill _ => exact (Goes.execFill h).ends
  | transpose _ => exact (Goes.execTranspose h).ends
  | reduce _ => exact (Goes.execReduce h).ends
  | signal _ => exact (Goes.execSignal h).ends
  | wait _ => exact (Goes.execWait h).ends
  | fenceCommand _ => exact (Goes.execFenceCommand h).ends
  | pin _ => exact (Goes.execPin h).ends
  | unpin _ => exact (Goes.execUnpin h).ends
  | localize _ => exact (Goes.execLocalize h).ends
  | ctxCreate _ => exact (Goes.execCtxCreate h).ends
  | ctxAppend _ => exact (Goes.execCtxAppend h).ends
  | ctxTruncate _ => exact (Goes.execCtxTruncate h).ends
  | ctxFree _ => exact (Goes.execCtxFree h).ends
  | ctxQuery _ => exact (Goes.execCtxQuery h).ends
  | trimSet _ => exact (Goes.execTrimSet h).ends
  | park _ => exact (Goes.execPark h).ends
  | unpark _ => exact (Goes.execUnpark h).ends
  | counterSnap _ => exact (Goes.execCounterSnap h).ends
  | traceStop _ => exact (Goes.execTraceStop h).ends
  | traceStart _ => exact (Goes.execTraceStart h).ends
  | traceSetRecordRing _ => exact (Goes.execTraceSetRecordRing h).ends
  | traceSetTraceRing _ => exact (Goes.execTraceSetTraceRing h).ends
  | selftestVport _ _ => exact (Goes.execSelftestVport h).ends
  | selftestCore _ _ => exact (Goes.execSelftestCore h).ends
  | selftestMemory _ _ => exact (Goes.execSelftestMemory h).ends
  | partCreate _ => exact (Goes.execPartCreate h).ends
  | partDestroy _ => exact (Goes.execPartDestroy h).ends
  | partReset _ => exact (Goes.execPartReset h).ends
  | fwLoad _ _ => exact (Goes.execFwLoad h).ends
  | quicksetStore _ _ => exact (Goes.execQuicksetStore h).ends
  | healthQuery _ => exact (Goes.execHealthQuery h).ends
  | thermalRead => exact (Goes.execThermalRead h).ends
  | powerRead => exact (Goes.execPowerRead h).ends
  | smbusBlockWrite _ _ => exact (Goes.execSmbusBlockWrite h).ends
  | smbusBlockRead _ => exact (Goes.execSmbusBlockRead h).ends
  | commandTimeout _ => exact (Goes.execCommandTimeout h).ends
  | hostWindowRead _ _ _ => exact (Goes.execHostWindowRead h).ends
  | hostWindowWrite _ _ _ => exact (Goes.execHostWindowWrite h).ends
  | atomicopRequest _ => exact (Goes.execAtomicopRequest h).ends
  | functionLevelReset _ => exact (Goes.execFunctionLevelReset h).ends
  | perstN _ _ => exact (Goes.execPerstN h).ends
  | d3hotEntry _ => exact (Goes.execD3hotEntry h).ends
  | d0Return _ => exact (Goes.execD0Return h).ends
  | hostLinkTraining _ _ _ _ => exact (Goes.execHostLinkTraining h).ends
  | fabricPortTraining _ => exact (Goes.execFabricPortTraining h).ends
  | retrain _ _ => exact (Goes.execRetrain h).ends
  | acceptHeld _ _ => exact (Goes.execAcceptHeld h).ends
  | linkFrameError _ _ _ => exact (Goes.execLinkFrameError h).ends
  | retxTimer _ => exact (Goes.execRetxTimer h).ends
  | linkGiveUp _ _ => exact (Goes.execLinkGiveUp h).ends
  | fabricReadRequest _ _ => exact (Goes.execFabricReadRequest h).ends
  | fabricReadResponse _ _ => exact (Goes.execFabricReadResponse h).ends
  | fabricWrite _ _ => exact (Goes.execFabricWrite h).ends
  | fabricAtomic _ _ => exact (Goes.execFabricAtomic h).ends
  | fabricReduction _ _ => exact (Goes.execFabricReduction h).ends
  | fabricAcknowledgement _ _ => exact (Goes.execFabricAcknowledgement h).ends
  | fabricRefusal _ _ => exact (Goes.execFabricRefusal h).ends
  | timeMark _ _ => exact (Goes.execTimeMark h).ends
  | markSend => exact (Goes.execMarkSend h).ends
  | remoteAccessTimeout _ => exact (Goes.execRemoteAccessTimeout h).ends
  | remoteResend _ => exact (Goes.execRemoteResend h).ends
  | governorMeasure _ _ => exact (Goes.execGovernorMeasure h).ends
  | stepChange _ _ => exact (Goes.execStepChange h).ends
  | droopCrossing _ _ _ => exact (Goes.execDroopCrossing h).ends
  | switchOnStep _ _ _ _ => exact (Goes.execSwitchOnStep h).ends
  | switchOnWaitExpiry _ _ _ => exact (Goes.execSwitchOnWaitExpiry h).ends
  | regionOn _ _ => exact (Goes.execRegionOn h).ends
  | regulatorFail _ _ => exact (Goes.execRegulatorFail h).ends
  | phaseFail _ _ => exact (Goes.execPhaseFail h).ends
  | powerFault _ => exact (Goes.execPowerFault h).ends
  | trimPeriod _ => exact (Goes.execTrimPeriod h).ends
  | trimReport => exact (Goes.execTrimReport h).ends
  | sensorSample _ _ _ => exact (Goes.execSensorSample h).ends
  | sramBandChange _ _ _ => exact (Goes.execSramBandChange h).ends
  | thermalTrip _ _ => exact (Goes.execThermalTrip h).ends
  | tripLatchClear => exact Ends.execTripLatchClear h
  | clockFault _ => exact Ends.execClockFault h
  | timeAlignCheck _ _ => exact Ends.execTimeAlignCheck h
  | clkTimeRead _ _ => exact (Goes.execClkTimeRead h).ends
  | counterLowRead _ _ => exact (Goes.execCounterLowRead h).ends
  | cntCoreClear _ _ => exact (Goes.execCntCoreClear h).ends
  | cntClear _ _ _ => exact (Goes.execCntClear h).ends
  | elogClear _ _ _ => exact (Goes.execElogClear h).ends
  | trRptrWrite _ _ _ => exact (Goes.execTrRptrWrite h).ends
  | registerWrite _ _ _ => exact (Goes.execRegisterWrite h).ends
  | coreFence _ _ => exact (Goes.execCoreFence h).ends
  | wakeCheckDone _ _ => exact (Goes.execWakeCheckDone h).ends
  | windowCopy _ _ => exact (Goes.execWindowCopy h).ends
  | replayPlace _ => exact (Goes.execReplayPlace h).ends
  | controlAckTimeout _ => exact (Goes.execControlAckTimeout h).ends
  | routerCreditTimeout _ => exact (Goes.execRouterCreditTimeout h).ends
  | routerBypass _ => exact (Goes.execRouterBypass h).ends
  | commandProcessorWatchdog _ _ => exact (Goes.execCommandProcessorWatchdog h).ends
  | halfLoss _ => exact (Goes.execHalfLoss h).ends
  | laneFault _ _ => exact (Goes.execLaneFault h).ends
  | healthRecordStore => exact (Goes.execHealthRecordStore h).ends
  | flashStoreDone _ => exact (Goes.execFlashStoreDone h).ends
  | resetNAssert _ => exact Ends.execResetNAssert h
  | pwrgdDeassert _ => exact Ends.execPwrgdDeassert h
  | bootRom _ _ => exact (Goes.execBootRom h).ends
  | firmwareCheck => exact (Goes.execFirmwareCheck h).ends
  | firmwareBroadcast _ => exact (Goes.execFirmwareBroadcast h).ends
  | cornerSelfTest _ => exact (Goes.execCornerSelfTest h).ends
  | reconciliation => exact (Goes.execReconciliation h).ends
  | vportStageTest _ => exact (Goes.execVportStageTest h).ends
  | trainingStage _ => exact (Goes.execTrainingStage h).ends
  | patternTest _ => exact (Goes.execPatternTest h).ends
  | retentionTest _ => exact (Goes.execRetentionTest h).ends
  | topologyCheck _ => exact (Goes.execTopologyCheck h).ends
  | refclkStop => exact Ends.execRefclkStop h
  | extest => exact (Goes.execExtest h).ends
  | samplePreload _ _ => exact (Goes.execSamplePreload h).ends
  | idcode => exact (Goes.execIdcode h).ends
  | clamp => exact (Goes.execClamp h).ends
  | highz => exact (Goes.execHighz h).ends
  | bypass => exact (Goes.execBypass h).ends
  | dbgChallenge => exact (Goes.execDbgChallenge h).ends
  | dbgToken _ => exact (Goes.execDbgToken h).ends
  | dbgLock => exact (Goes.execDbgLock h).ends
  | dbgReg _ => exact (Goes.execDbgReg h).ends
  | dbgMem _ => exact (Goes.execDbgMem h).ends
  | debugExpiry => exact (Goes.execDebugExpiry h).ends
  | halt _ => exact (Goes.execHalt h).ends
  | resume _ => exact (Goes.execResume h).ends
  | step _ => exact (Goes.execStep h).ends
  | hostLinkDown _ => exact (Goes.execHostLinkDown h).ends
  | fabricLinkDown _ => exact (Goes.execFabricLinkDown h).ends
  | fabricTrainingDone _ _ => exact (Goes.execFabricTrainingDone h).ends
  | fabricTrainingRetry _ => exact (Goes.execFabricTrainingRetry h).ends
  | vddAonLoss => exact Ends.execVddAonLoss h
  | rootPllLock _ => exact Ends.execRootPllLock h
  | tapReset => exact (Goes.execTapReset h).ends

end Sys2Proof.Machine.State
end

section
/-! PROOF. What every operation keeps: a tick. -/

namespace Sys2Proof.Machine.State

theorem Keeps.tickLate {s t : State} (h : s.Keeps t) : s.Keeps (t.tickLate) := by
  refine Keeps.update (Keeps.foldl (fun _ _ h2 => ?_) _ h)
  split
  · exact h2.stretch
  · exact h2

theorem Keeps.tickArr {s t : State} (h : s.Keeps t) {i n : Nat} : s.Keeps (t.tickArr i n) := by
  refine Keeps.ite h ?_
  split
  · exact h.modArr.bump.bump.bump
  · exact h.modArr.bump.bump.bump
  · exact h.modArr.bump.bump.bump
  · exact h.modArr.bump.bump.bump
  · exact h.modArr.bump.bump

theorem Keeps.tickFetch {s t : State} (h : s.Keeps t) {site slot : Nat} : s.Keeps (t.tickFetch site slot) := by
  unfold State.tickFetch
  dsimp only
  split
  · exact h
  · refine .ite h ?_
    split
    · next hu => exact (Goes.runThread h fun _ _ => h).next hu
    · exact h

theorem Keeps.tickCore {s t : State} (h : s.Keeps t) {i : Nat} : s.Keeps (t.tickCore i) :=
  Keeps.ite h (Keeps.tickArr (Keeps.bump (Keeps.bump (Keeps.bump (Keeps.bump (Keeps.bump64 (Keeps.bump64 (Keeps.ite (Keeps.foldl (fun _
    _ h74 => h74.tickFetch) _ h) (Keeps.setCore (Keeps.foldl (fun _ _ h75 => h75.tickFetch) _ h))))))))))
theorem Keeps.tickStalls {s t : State} (h : s.Keeps t) : s.Keeps (t.tickStalls) := Keeps.foldl (fun _ _ h0 => h0.bump) _ h.update
theorem Keeps.tickTags {s t : State} (h : s.Keeps t) : s.Keeps (t.tickTags) := Keeps.foldl (fun _ _ h0 => h0.sendQueued) _ h
theorem Keeps.tickMif {s t : State} (h : s.Keeps t) {d : Nat} : s.Keeps (t.tickMif d) :=
  Keeps.foldl (fun _ _ h14 => h14.dueTest) _ (Keeps.portLows (Keeps.ite (Keeps.bump (Keeps.ite (Keeps.bump (Keeps.ite h h.modHalf))
    (Keeps.ite h h.modHalf))) (Keeps.ite (Keeps.bump (Keeps.ite h h.modHalf)) (Keeps.ite h h.modHalf))))
theorem Keeps.tickHours {s t : State} (h : s.Keeps t) : s.Keeps (t.tickHours) :=
  Keeps.ite h.update (Keeps.foldl (fun _ _ h1 => h1.wgF) _ h.storeDue.update)

end Sys2Proof.Machine.State
end

section
/-! PROOF. A tick and a step: O56, O59, O60. -/

namespace Sys2Proof.Machine
open Sys2Proof.Claims

/-- The ports at a tick: what they have posted is taken, and their resets go on. -/
theorem State.Keeps.tickPort {s t : State} (h : s.Keeps t) {p : Nat} :
    s.Keeps (let t := if (t.port p).posted = [] then t else t.postAll p (t.port p).posted
      if (t.port p).resets ≠ [] then t.portSweep p (t.port p).resets
      else if (t.port p).resetDue then t.portReset p else t) := by
  have h1 : s.Keeps (if (t.port p).posted = [] then t else t.postAll p (t.port p).posted) := .ite h h.postAll
  exact .ite h1.portSweep (.ite h1.portReset h1)

/-- A tick of running device time works on a state that keeps device time, and then advances it. -/
theorem State.tick_of_running (s : State) (hr : s.time.running = true) :
    ∃ u, s.Keeps u ∧ s.tick = { u with time := { u.time with
      now := (u.time.now + 1) % 2 ^ 64
      diff := ((upTo 0 u.stacks).map (fun t => (t, u.nextDiff t))).filter (fun e => decide (e.2 ≠ 0)), drift := [] } } := by
  refine ⟨_, ?_, if_neg (by simp [hr])⟩
  refine State.Keeps.foldl (fun _ _ h0 => h0.tickPort) _ (State.Keeps.tickHours (State.Keeps.update ?_))
  refine State.Keeps.releaseRecords (State.Keeps.tickStalls (State.Keeps.tickTags ?_))
  exact State.Keeps.foldl (fun _ _ h0 => h0.tickMif) _
    (State.Keeps.tickLate (State.Keeps.foldl (fun _ _ h0 => h0.tickCore) _ (.refl s)))

theorem State.tick_of_stopped (s : State) (hr : s.time.running = false) : s.tick = s := by simp [State.tick, hr]

/-- A tick leaves the queue and the part, and memory stays canonical. -/
theorem State.holds_tick (s : State) : s.Holds s.tick := by
  cases hr : s.time.running with
  | false => rw [s.tick_of_stopped hr]; exact (State.Keeps.refl s).toHolds
  | true =>
    obtain ⟨u, hu, e⟩ := s.tick_of_running hr
    rw [e]
    exact hu.toHolds.updateTime

/-- A step runs the front command on the rest of the queue, or ticks. -/
theorem step_of_pending {s : State} {c : Instr} {rest : List Instr} (h : s.pending = c :: rest) :
    step s = exec c { s with pending := rest } := by
  simp only [step, h]

theorem step_of_idle {s : State} (h : s.pending = []) : step s = .next s.tick := by
  simp only [step, h]

/-- Settles O59: whatever a command does keeps the queue's rest and the part. -/
theorem commandsAreTakenInOrder : Obligations.CommandsAreTakenInOrder := by
  intro s t c rest hp hs
  rw [step_of_pending hp] at hs
  have h := (State.Ends.exec (State.Keeps.refl { s with pending := rest })).next hs
  exact ⟨h.pending, h.part⟩

/-- Settles O60: every operation of the model keeps canonical memory (`State.Ends.exec`), a tick as well (`State.holds_tick`). -/
theorem memoryStaysCanonical : Obligations.MemoryStaysCanonical := by
  intro s t hm hh hp hs
  have hok : s.MemOk := ⟨hm, hh, hp⟩
  cases hq : s.pending with
  | nil =>
    rw [step_of_idle hq] at hs
    cases hs
    exact s.holds_tick.memOk hok
  | cons c rest =>
    rw [step_of_pending hq] at hs
    exact ((State.Ends.exec (State.Keeps.refl { s with pending := rest })).next hs).memOk hok

/-- Settles O56, by the definition of a step; that a tick advances the count by 1 rests on its work keeping the count. -/
theorem stepRunsTheFrontCommand : Obligations.StepRunsTheFrontCommand := by
  refine ⟨fun s c rest h => step_of_pending h, fun s c => step_of_pending rfl, fun s hp hr => ?_, fun s hp hr => ?_⟩
  · rw [step_of_idle hp, s.tick_of_stopped hr]
  · obtain ⟨u, hu, e⟩ := s.tick_of_running hr
    refine ⟨s.tick, step_of_idle hp, ?_, ?_, ?_⟩ <;> rw [e]
    · exact hu.pending.trans hp
    · exact congrArg (fun x : Time => (x.now + 1) % 2 ^ 64) hu.time
    · exact hu.part

end Sys2Proof.Machine
end

section
/-! PROOF. Resets of the whole part: O53. -/

namespace Sys2Proof.Machine

open Sys2Proof.Claims

/-! ### Stacks -/

theorem State.stacks_le (s : State) : s.stacks ≤ 8 := by
  unfold State.stacks; cases s.part.grade <;> decide

/-! ### The registers that a reset keeps (R10, R372) -/

theorem mget_nil {α : Type} (d : α) (i : Nat) : mget d [] i = d := rfl

theorem mfind_mset {α : Type} [DecidableEq α] (d : α) (m : Map α) (i j : Nat) (x : α) :
    mfind (mset d m i x) j = if j = i then (if x = d then none else some x) else mfind m j := by
  unfold mset
  split <;> simp only [mfind_merase, mfind_mput]

/-- Writes at keys other than j leave j. -/
theorem mfind_foldl_mset_of_ne {α β : Type} [DecidableEq α] {d : α} {f : β → Nat} {g : β → α} {l : List β} {j : Nat}
    (h : ∀ b ∈ l, f b ≠ j) (m : Map α) : mfind (l.foldl (fun m b => mset d m (f b) (g b)) m) j = mfind m j := by
  induction l generalizing m with
  | nil => rfl
  | cons b l ih =>
    rw [List.foldl_cons, ih (fun c hc => h c (List.mem_cons_of_mem _ hc)), mfind_mset,
      if_neg (fun e => h b List.mem_cons_self e.symm)]

/-- Writes of which those at key j all write x leave x there. -/
theorem mfind_foldl_mset_of_mem {α β : Type} [DecidableEq α] {d x : α} {f : β → Nat} {g : β → α} {l : List β} {j : Nat}
    (h : ∀ b ∈ l, f b = j → g b = x) (hj : ∃ b ∈ l, f b = j) (m : Map α) :
    mfind (l.foldl (fun m b => mset d m (f b) (g b)) m) j = if x = d then none else some x := by
  induction l generalizing m with
  | nil => obtain ⟨b, hb, -⟩ := hj; cases hb
  | cons b l ih =>
    rw [List.foldl_cons]
    by_cases hl : ∃ c ∈ l, f c = j
    · exact ih (fun c hc => h c (List.mem_cons_of_mem _ hc)) hl _
    · have hb : f b = j := by
        obtain ⟨c, hc, e⟩ := hj
        rcases List.mem_cons.mp hc with rfl | hc
        · exact e
        · exact absurd ⟨c, hc, e⟩ hl
      rw [mfind_foldl_mset_of_ne (fun c hc e => hl ⟨c, hc, e⟩), mfind_mset, if_pos hb.symm, h b List.mem_cons_self hb]

/-- What the kept registers hold for a stack's thermal trip. -/
theorem State.mfind_keptRegs_thm (s : State) {t : Nat} (ht : t < s.stacks) :
    mfind s.keptRegs (Blk.thm t).base =
      if s.rg (.thm t) 0x000 &&& 0x7FF8#32 = 0 then none else some (s.rg (.thm t) 0x000 &&& 0x7FF8#32) := by
  refine mfind_foldl_mset_of_mem (fun b _ e => ?_) ⟨t, by simpa using ht, rfl⟩ _
  have : b = t := by simp only [Blk.base] at e; omega
  rw [this]

theorem State.mfind_keptRegs_ne (s : State) {k : Nat} (h : ∀ t < s.stacks, k ≠ (Blk.thm t).base) : mfind s.keptRegs k = none :=
  mfind_foldl_mset_of_ne (fun b hb e => h b (by simpa using hb) e.symm) _

/-- THM_STATUS reads 0 in its kept fields after reset. -/
theorem regReset_thm {t : Nat} (ht : t < 8) : regReset (Blk.thm t).base &&& 0x7FF8#32 = 0 := by
  have h : ∀ t < 8, regReset (Blk.thm t).base &&& 0x7FF8#32 = 0 := by decide +kernel
  exact h t ht

/-- TRIP_SEEN, TRIP_SENSOR and TRIP_STACK are the bits of the mask. -/
theorem getF_kept (w : W32) : getF 14 3 (w &&& 0x7FF8#32) = getF 14 3 w := by
  refine Nat.eq_of_testBit_eq fun i => ?_
  simp only [testBit_getF, BitVec.getLsbD_and]
  by_cases hi : i < 12
  · have : (0x7FF8#32).getLsbD (3 + i) = true := by decide +revert
    simp [this]
  · simp [hi]

/-- A state with the kept registers reads every other register at its reset value. -/
theorem State.rg_keptRegs_ne (s u : State) (hu : u.regs = s.keptRegs) {b : Blk} {o : Nat}
    (h : ∀ t < s.stacks, b.base + o ≠ (Blk.thm t).base) : u.rg b o = regReset (b.base + o) := by
  rw [State.rg, mget, hu, s.mfind_keptRegs_ne h]; rfl

theorem State.rgF_keptRegs (s u : State) (hu : u.regs = s.keptRegs) {t : Nat} (ht : t < s.stacks) :
    u.rgF (.thm t) 0x000 14 3 = s.rgF (.thm t) 0x000 14 3 := by
  have hr : u.rg (.thm t) 0x000 &&& 0x7FF8#32 = s.rg (.thm t) 0x000 &&& 0x7FF8#32 := by
    rw [State.rg, mget, hu, Nat.add_zero, s.mfind_keptRegs_thm ht]
    split
    · next h0 => rw [h0, Option.getD_none]; exact regReset_thm (ht.trans_le s.stacks_le)
    · rw [Option.getD_some, BitVec.and_assoc, BitVec.and_self]
  rw [State.rgF, State.rgF, ← getF_kept, hr, getF_kept]

/-! ### The reset itself -/

theorem State.tearStore_eq (s : State) : s.tearStore = { s with flash := s.tearStore.flash } := by
  unfold State.tearStore; split <;> rfl

theorem State.tearStore_storing (s : State) : s.tearStore.flash.storing = none := by
  unfold State.tearStore
  split
  · assumption
  · rfl

theorem State.tearStore_regs (s : State) : s.tearStore.regs = s.regs := by rw [s.tearStore_eq]
theorem State.tearStore_part (s : State) : s.tearStore.part = s.part := by rw [s.tearStore_eq]
theorem State.tearStore_pins (s : State) : s.tearStore.pins = s.pins := by rw [s.tearStore_eq]

theorem State.keptRegs_congr {s t : State} (hr : t.regs = s.regs) (hp : t.part = s.part) : t.keptRegs = s.keptRegs := by
  simp only [State.keptRegs, State.stacks, hp, State.rg_congr hr]

theorem State.partReset_regs (s : State) : s.partReset.regs = s.keptRegs := State.keptRegs_congr s.tearStore_regs s.tearStore_part

theorem State.partReset_resetN (s : State) : s.partReset.pins.resetN = s.pins.resetN :=
  show s.tearStore.pins.resetN = _ by rw [s.tearStore_pins]
theorem State.partReset_pwrgd (s : State) : s.partReset.pins.pwrgd = s.pins.pwrgd :=
  show s.tearStore.pins.pwrgd = _ by rw [s.tearStore_pins]
theorem State.partReset_vddAon (s : State) : s.partReset.pins.vddAon = s.pins.vddAon :=
  show s.tearStore.pins.vddAon = _ by rw [s.tearStore_pins]
theorem State.partReset_thermtrip (s : State) : s.partReset.pins.thermtrip = s.pins.thermtrip :=
  show s.tearStore.pins.thermtrip = _ by rw [s.tearStore_pins]

theorem State.partReset_ir (s : State) : s.partReset.dbg.ir = s.dbg.ir := by
  show s.tearStore.dbg.ir = s.dbg.ir
  rw [s.tearStore_eq]

theorem State.partReset_part (s : State) : s.partReset.part = s.part := s.tearStore_part

/-- A whole-part reset resets the part. -/
theorem State.isReset_partReset (s : State) : IsReset s s.partReset := by
  refine ⟨fun b o h => s.rg_keptRegs_ne _ s.partReset_regs h, rfl, rfl, rfl, rfl, rfl, rfl, rfl, s.tearStore_storing, ?_, ?_,
    s.tearStore_part⟩
  · show s.tearStore.hmem = s.hmem
    rw [s.tearStore_eq]
  · show s.tearStore.pending = s.pending
    rw [s.tearStore_eq]

/-- `IsReset` asks for a state's part, queue, host memory and stacks alone. -/
theorem isReset_of_eq {s s' u : State} (h : IsReset s' u) (hp : s'.part = s.part) (hq : s'.pending = s.pending)
    (hm : s'.hmem = s.hmem) : IsReset s u := by
  unfold IsReset at h ⊢
  rwa [hq, hm, hp, show s'.stacks = s.stacks by rw [State.stacks, State.stacks, hp]] at h

/-- After a reset no rail is on and the memories are held in reset. -/
theorem drives_of_partReset (s : State) :
    (∀ t < s.stacks, s.partReset.systemDrive (.vronLogic t) = .low ∧ s.partReset.systemDrive (.vronArray t) = .low) ∧
    (∀ d < s.devices, s.partReset.systemDrive (.mif d .resetN) = .low) := by
  have hr {b : Blk} (h : ∀ t < s.stacks, b.base + 0x000 ≠ (Blk.thm t).base) : s.partReset.rg b 0x000 = regReset b.base :=
    s.rg_keptRegs_ne _ s.partReset_regs h
  constructor
  · intro t ht
    have hw : ∀ t < 8, (regReset (Blk.pwr t).base).getLsbD 0 = false ∧ (regReset (Blk.pwr t).base).getLsbD 1 = false := by decide +kernel
    obtain ⟨h0, h1⟩ := hw t (ht.trans_le s.stacks_le)
    have hb := hr (b := .pwr t) (by intro t' _; simp only [Blk.base]; omega)
    simp only [State.systemDrive, State.rgB, hb, h0, h1, Bool.false_and, Bool.false_eq_true, if_false, and_self]
  · intro d hd
    have hw : ∀ d < 16, getF 1 0 (regReset (Blk.mif d).base) = 0 := by decide +kernel
    have h0 := hw d (by have := s.stacks_le; rw [State.devices] at hd; omega)
    have hb := hr (b := .mif d) (by intro t' _; simp only [Blk.base]; omega)
    simp only [State.systemDrive, State.rgF, hb, h0, mifDrive, ne_eq, not_true_eq_false, decide_false]

/-- THM_STATUS after the loss of VDD_AON, with no register kept. -/
theorem State.rg_partReset_of_nil {s : State} (h : s.regs = []) {t : Nat} (ht : t < s.stacks) :
    s.partReset.rg (.thm t) 0x000 = regReset (Blk.thm t).base := by
  have h0 : s.rg (.thm t) 0x000 &&& 0x7FF8#32 = 0 := by
    rw [State.rg, h, Nat.add_zero, mget_nil]; exact regReset_thm (ht.trans_le s.stacks_le)
  rw [State.rg, mget, s.partReset_regs, Nat.add_zero, s.mfind_keptRegs_thm ht, if_pos h0, Option.getD_none]

theorem exec_resetNAssert_low {s : State} (h : s.pins.resetN = true) :
    exec (.resetNAssert false) s = .next ({ s with pins := { s.pins with resetN := false } } : State).partReset := by
  simp only [exec, execResetNAssert, h, Bool.false_eq_true, if_false]

theorem exec_resetNAssert_high {s : State} (h : s.pins.resetN = false) :
    exec (.resetNAssert true) s = .next ({ s with pins := { s.pins with resetN := true } } : State).released := by
  simp only [exec, execResetNAssert, h, Bool.true_eq_false, if_false, if_true]

theorem exec_pwrgdDeassert_low {s : State} (h : s.pins.pwrgd = true) :
    exec (.pwrgdDeassert false) s = .next ({ s with pins := { s.pins with pwrgd := false } } : State).partReset := by
  simp only [exec, execPwrgdDeassert, h, Bool.false_eq_true, if_false]

/-- Settles O53: each of the three is one whole-part reset, whose registers are the kept ones of `State.keptRegs`. -/
theorem partResets : Obligations.PartResets := by
  refine ⟨fun s h => ?_, fun s h => ?_, fun s => ?_, fun s h => ?_, fun s h => ?_, fun s => ⟨?_, ?_⟩⟩
  · refine ⟨_, exec_resetNAssert_low h, isReset_of_eq (State.isReset_partReset _) rfl rfl rfl, ?_, ?_, fun t ht => ?_⟩
    · exact State.partReset_resetN _
    · exact State.partReset_thermtrip _
    · exact State.rgF_keptRegs { s with pins := { s.pins with resetN := false } } _ (State.partReset_regs _) ht
  · refine ⟨_, exec_pwrgdDeassert_low h, isReset_of_eq (State.isReset_partReset _) rfl rfl rfl, ?_, ?_, fun t ht => ?_⟩
    · exact State.partReset_pwrgd _
    · exact State.partReset_thermtrip _
    · exact State.rgF_keptRegs { s with pins := { s.pins with pwrgd := false } } _ (State.partReset_regs _) ht
  · refine ⟨_, rfl, isReset_of_eq (State.isReset_partReset _) rfl rfl rfl, ?_, ?_, ?_, fun t ht => ?_⟩
    · exact State.partReset_vddAon _
    · exact State.partReset_thermtrip _
    · exact State.partReset_ir _
    · exact State.rg_partReset_of_nil rfl ht
  · exact ⟨_, exec_resetNAssert_high h, rfl, rfl, rfl, fun t ht =>
      State.rgF_keptRegs { s with pins := { s.pins with resetN := true } } _ rfl ht⟩
  · refine ⟨_, exec_resetNAssert_low h, ?_⟩
    obtain ⟨hv, hd⟩ := drives_of_partReset { s with pins := { s.pins with resetN := false } }
    exact ⟨hv, hd, congrArg (fun b : Bool => if b then Drive.low else .none) (State.partReset_thermtrip _)⟩
  · simp only [exec, execResetNAssert, if_true]
  · simp only [exec, execPwrgdDeassert, if_true]

end Sys2Proof.Machine
end


section
/-! PROOF. What steers the threads of a group: waits, paths, merges and barriers (R102 to R106), and what they leave. -/

namespace Sys2Proof.Machine

open Sys2Proof.Claims

/-! ## Groups whose registers and predicates stay -/

/-- Between g and h only the course of the threads differs: no register, mark or predicate. -/
structure Group.Steered (g h : Group) : Prop where
  length : h.threads.length = g.threads.length
  uregs : h.uregs = g.uregs
  upois : h.upois = g.upois
  blk : h.blk = g.blk
  regs : ∀ l, (h.th l).regs = (g.th l).regs
  rpois : ∀ l, (h.th l).rpois = (g.th l).rpois
  preds : ∀ l, (h.th l).preds = (g.th l).preds

theorem Group.Steered.refl (g : Group) : g.Steered g :=
  ⟨rfl, rfl, rfl, rfl, fun _ => rfl, fun _ => rfl, fun _ => rfl⟩

theorem Group.Steered.trans {g h k : Group} (a : g.Steered h) (b : h.Steered k) : g.Steered k :=
  ⟨b.length.trans a.length, b.uregs.trans a.uregs, b.upois.trans a.upois, b.blk.trans a.blk,
    fun l => (b.regs l).trans (a.regs l), fun l => (b.rpois l).trans (a.rpois l), fun l => (b.preds l).trans (a.preds l)⟩

theorem Group.Steered.of_threads {g h : Group} (ht : h.threads = g.threads) (hu : h.uregs = g.uregs) (hp : h.upois = g.upois)
    (hb : h.blk = g.blk) : g.Steered h := by
  have hth : ∀ l, h.th l = g.th l := fun l => by rw [Group.th, Group.th, ht]
  exact ⟨by rw [ht], hu, hp, hb, fun l => by rw [hth], fun l => by rw [hth], fun l => by rw [hth]⟩

theorem Group.Steered.modTh {g h : Group} (a : g.Steered h) (l : Nat) {f : Thread → Thread} (hr : ∀ t, (f t).regs = t.regs)
    (hp : ∀ t, (f t).rpois = t.rpois) (hq : ∀ t, (f t).preds = t.preds) : g.Steered (h.modTh l f) :=
  a.trans ⟨by simp, rfl, rfl, rfl, fun k => h.field_th_modTh Thread.regs l k hr, fun k => h.field_th_modTh Thread.rpois l k hp,
    fun k => h.field_th_modTh Thread.preds l k hq⟩

theorem Group.Steered.foldl {α : Type} {f : Group → α → Group} (hf : ∀ g x, Group.Steered g (f g x)) (xs : List α) {g h : Group}
    (a : g.Steered h) : g.Steered (xs.foldl f h) := by
  induction xs generalizing h with
  | nil => exact a
  | cons x xs ih => exact ih (a.trans (hf h x))

/-- Threads changed in lanes of a list keep their values where the change does. -/
theorem Group.steered_modThs (g : Group) (ls : List Nat) {f : Thread → Thread} (hr : ∀ t, (f t).regs = t.regs)
    (hp : ∀ t, (f t).rpois = t.rpois) (hq : ∀ t, (f t).preds = t.preds) : g.Steered (ls.foldl (fun h l => h.modTh l f) g) :=
  .foldl (f := fun h l => h.modTh l f) (fun h l => (Steered.refl h).modTh l hr hp hq) ls (.refl g)

theorem Group.Steered.keptRegs {c : Ctx} {g : Group} (h : c.grp.Steered g) : KeptRegs c g := by
  intro l r
  simp only [Group.reg, Group.rpois, h.uregs, h.upois, h.regs, h.rpois, and_self]

theorem Group.Steered.keptPreds {c : Ctx} {g : Group} (h : c.grp.Steered g) : KeptPreds c g := keptPreds_of_preds h.preds

section Steering

variable (g : Group)

theorem Group.steered_nextPath (cur : Nat) : g.Steered (g.nextPath cur) := .of_threads rfl rfl rfl rfl

theorem Group.steered_counted (low : Nat) : g.Steered (g.counted low) := by
  rw [Group.counted_eq]; exact .of_threads rfl rfl rfl rfl

theorem Group.steered_moveTo (ls : List Nat) (pc : Nat) : g.Steered (g.moveTo ls pc) :=
  g.steered_modThs ls (fun _ => rfl) (fun _ => rfl) (fun _ => rfl)

theorem Group.steered_wake : g.Steered g.wake := by
  unfold Group.wake
  split
  · split
    · exact .refl g
    · exact .of_threads rfl rfl rfl rfl
  · exact .of_threads rfl rfl rfl rfl

theorem Group.steered_leave (lanes rest : List Nat) (low : Nat) (w : Wait) (pc : Nat) (unlock : Bool) :
    g.Steered (g.leave lanes rest low w pc unlock) := by
  unfold Group.leave
  have h : g.Steered (lanes.foldl (fun h l => h.modTh l (fun t => { t with wait := w, pc := pc, lock := t.lock && !unlock })) g) :=
    g.steered_modThs lanes (fun _ => rfl) (fun _ => rfl) (fun _ => rfl)
  dsimp only
  generalize lanes.foldl _ g = k at *
  split
  · exact h.trans (k.steered_nextPath _)
  · rename_i l _
    exact (h.trans (k := { k with act := some l }) (.of_threads rfl rfl rfl rfl)).trans (Group.steered_counted _ _)

theorem Group.steered_rejoin (d : Nat) (v : Div) : g.Steered (g.rejoin d v) := by
  unfold Group.rejoin
  dsimp only
  generalize hl : (upTo 0 32).filter _ = live
  have h : g.Steered (live.foldl (fun h l => h.modTh l (fun t =>
      if g.again v.merge t then { t with wait := .merge, pc := v.merge, divs := t.divs.drop 1 }
      else { t with wait := .run, pc := v.merge + 1, divs := t.divs.drop 1 })) g) := by
    refine g.steered_modThs live ?_ ?_ ?_ <;> intro t <;> split <;> rfl
  split
  · exact h.trans (.of_threads rfl rfl rfl rfl)
  · exact h.trans (.of_threads rfl rfl rfl rfl)

end Steering

/-- What every rejoining keeps, the completion of merges keeps. -/
theorem Group.merges_induct {P : Group → Prop} {g : Group} (h : P g)
    (hj : ∀ k d v, P k → mfind k.divs d = some v → k.mergeDone d v = true → P (k.rejoin d v)) : P g.merges.1 := by
  unfold Group.merges
  have key : ∀ (ds : List Nat) (x : Group × Bool), P x.1 → P (ds.foldl (fun (x : Group × Bool) d =>
      match mfind x.1.divs d with
      | some v => if x.1.mergeDone d v then (x.1.rejoin d v, true) else x
      | none => x) x).1 := by
    intro ds
    induction ds with
    | nil => exact fun _ h => h
    | cons d ds ih =>
      intro x hx
      refine ih _ ?_
      dsimp only
      split
      · rename_i v hv
        split
        · rename_i hd; exact hj _ _ _ hx hv hd
        · exact hx
      · exact hx
  exact key _ (g, false) h

theorem Group.steered_merges (g : Group) : g.Steered g.merges.1 :=
  Group.merges_induct (.refl g) fun k d v hk _ _ => hk.trans (k.steered_rejoin d v)

/-- The threads of a complete group barrier. -/
def Group.released (g : Group) : Group :=
  (upTo 0 32).foldl (fun (h : Group) l => if (h.th l).wait = .barG then h.modTh l (fun t => { t with wait := .run }) else h) g

theorem Group.bars_eq (g : Group) :
    g.bars = if g.barDone then (Group.wake { g.released with barMask := none }, true) else (g, false) := by
  unfold Group.bars Group.released; rfl

theorem Group.steered_released (g : Group) : g.Steered g.released := by
  unfold Group.released
  generalize upTo 0 32 = ls
  refine .foldl (fun h l => ?_) ls (.refl g)
  split
  · exact (Steered.refl h).modTh l (fun _ => rfl) (fun _ => rfl) (fun _ => rfl)
  · exact .refl h

theorem Group.steered_bars (g : Group) : g.Steered g.bars.1 := by
  rw [Group.bars_eq]
  have h := g.steered_released
  generalize g.released = k at *
  split
  · exact (h.trans (k := { k with barMask := none }) (.of_threads rfl rfl rfl rfl)).trans (Group.steered_wake _)
  · exact .refl g

/-! ## Threads that have exited -/

/-- The same threads have exited. -/
def Group.SameExits (g h : Group) : Prop := ∀ l, (h.th l).wait = .exited ↔ (g.th l).wait = .exited

theorem Group.SameExits.trans {g h k : Group} (a : g.SameExits h) (b : h.SameExits k) : g.SameExits k := fun l => (b l).trans (a l)

theorem Group.SameExits.of_threads {g h : Group} (ht : h.threads = g.threads) : g.SameExits h := fun l => by
  rw [Group.th, Group.th, ht]

theorem Group.SameExits.modTh {g : Group} (l : Nat) {f : Thread → Thread} (hf : (f (g.th l)).wait ≠ .exited)
    (hl : (g.th l).wait ≠ .exited) : g.SameExits (g.modTh l f) := by
  intro k
  by_cases hlt : l < g.threads.length
  · rw [Group.th_modTh _ _ _ _ hlt]
    split
    · rename_i hk; subst hk; simp [hf, hl]
    · rfl
  · rw [Group.modTh_of_length_le _ _ _ (not_lt.mp hlt)]

theorem Group.wait_th_of_length_le {g : Group} {l : Nat} (h : g.threads.length ≤ l) : (g.th l).wait = .exited := by
  rw [Group.th, nth_of_length_le _ _ _ h]; rfl

theorem Group.lt_length_of_wait {g : Group} {l : Nat} (h : (g.th l).wait ≠ .exited) : l < g.threads.length := by
  by_contra hl; exact h (Group.wait_th_of_length_le (not_lt.mp hl))

theorem Group.th_wake (g : Group) (l : Nat) : g.wake.th l = g.th l := by
  unfold Group.wake
  split
  · split <;> rfl
  · rfl

/-- Threads in lanes that have not exited, changed each to one that has not, leave the exits as they were. -/
theorem Group.SameExits.foldl {f : Thread → Thread} (hf : ∀ t, (f t).wait ≠ .exited) (ls : List Nat) (hls : ls.Nodup) (g : Group)
    (hg : ∀ l ∈ ls, (g.th l).wait ≠ .exited) : g.SameExits (ls.foldl (fun h l => h.modTh l f) g) := by
  intro k
  rw [Group.th_foldl_modTh g ls (fun _ => f) hls (fun l hl => Group.lt_length_of_wait (hg l hl))]
  split
  · rename_i hk; simp [hf, hg k hk]
  · rfl

/-- How a thread goes on behind the merge point of a divergence. -/
def Group.rejoined (g : Group) (merge : Nat) (t : Thread) : Thread :=
  if g.again merge t then { t with wait := .merge, pc := merge, divs := t.divs.drop 1 }
  else { t with wait := .run, pc := merge + 1, divs := t.divs.drop 1 }

theorem Group.th_rejoin (g : Group) (d : Nat) (v : Div) (k : Nat) :
    (g.rejoin d v).th k =
      if k < 32 ∧ k ∈ v.members ∧ (g.th k).wait ≠ .exited then g.rejoined v.merge (g.th k) else g.th k := by
  have hmem : ∀ l, l ∈ (upTo 0 32).filter (fun l => v.members.contains l && (g.th l).wait != .exited) ↔
      l < 32 ∧ l ∈ v.members ∧ (g.th l).wait ≠ .exited := by
    intro l; simp
  have hth := Group.th_foldl_modTh g ((upTo 0 32).filter (fun l => v.members.contains l && (g.th l).wait != .exited))
    (fun _ => g.rejoined v.merge) ((upTo_nodup 0 32).filter _)
    (fun l hl => Group.lt_length_of_wait ((hmem l).mp hl).2.2) k
  simp only [hmem] at hth
  rw [← hth]
  unfold Group.rejoin
  dsimp only
  split <;> rfl

theorem Group.rejoined_wait (g : Group) (m : Nat) (t : Thread) : (g.rejoined m t).wait ≠ .exited := by
  unfold Group.rejoined; split <;> simp

theorem Group.sameExits_rejoin (g : Group) (d : Nat) (v : Div) : g.SameExits (g.rejoin d v) := by
  intro k
  rw [Group.th_rejoin]
  split
  · rename_i h; simp [g.rejoined_wait, h.2.2]
  · rfl

theorem Group.sameExits_merges (g : Group) : g.SameExits g.merges.1 :=
  Group.merges_induct (fun _ => Iff.rfl) fun k d v hk _ _ => hk.trans (k.sameExits_rejoin d v)

/-- A complete group barrier lets exactly the threads that wait at it run. -/
theorem Group.th_released (g : Group) (k : Nat) :
    g.released.th k = if k < 32 ∧ (g.th k).wait = .barG then { g.th k with wait := .run } else g.th k := by
  have key : ∀ (ls : List Nat) (g : Group), ls.Nodup → (ls.foldl (fun (h : Group) l =>
      if (h.th l).wait = .barG then h.modTh l (fun t => { t with wait := .run }) else h) g).th k =
      if k ∈ ls ∧ (g.th k).wait = .barG then { g.th k with wait := .run } else g.th k := by
    intro ls
    induction ls with
    | nil => simp
    | cons l ls ih =>
      intro g hls
      obtain ⟨hl, hls⟩ := List.nodup_cons.mp hls
      rw [List.foldl_cons, ih _ hls]
      by_cases hw : (g.th l).wait = .barG
      · rw [if_pos hw, Group.th_modTh _ _ _ _ (Group.lt_length_of_wait (by rw [hw]; simp))]
        by_cases hk : k = l
        · subst hk; simp [hl, hw]
        · simp [hk]
      · rw [if_neg hw]
        by_cases hk : k = l
        · subst hk; simp [hl, hw]
        · simp [hk]
  rw [Group.released, key _ _ (upTo_nodup 0 32)]
  simp

theorem Group.th_barMask (g : Group) (m : Option W32) (k : Nat) : Group.th { g with barMask := m } k = g.th k := rfl

theorem Group.sameExits_bars (g : Group) : g.SameExits g.bars.1 := by
  rw [Group.bars_eq]
  split
  · intro k
    rw [Group.th_wake, Group.th_barMask, Group.th_released]
    split
    · rename_i h; simp [h.2]
    · rfl
  · exact fun _ => Iff.rfl

/-! ## Threads that leave the path -/

theorem Group.th_leave (g : Group) {lanes : List Nat} (rest : List Nat) (low : Nat) (w : Wait) (pc : Nat) (unlock : Bool)
    (hnd : lanes.Nodup) (hlt : ∀ l ∈ lanes, l < g.threads.length) (k : Nat) :
    (g.leave lanes rest low w pc unlock).th k =
      if k ∈ lanes then { g.th k with wait := w, pc := pc, lock := (g.th k).lock && !unlock } else g.th k := by
  rw [← Group.th_foldl_modTh g lanes (fun _ t => { t with wait := w, pc := pc, lock := t.lock && !unlock }) hnd hlt]
  unfold Group.leave
  dsimp only
  split
  · rfl
  · rw [Group.th_counted]; rfl

theorem Group.barMask_leave (g : Group) (lanes rest : List Nat) (low : Nat) (w : Wait) (pc : Nat) (unlock : Bool) :
    (g.leave lanes rest low w pc unlock).barMask = g.barMask := by
  have h := Group.foldl_modTh_eq g lanes (fun _ t => { t with wait := w, pc := pc, lock := t.lock && !unlock })
  unfold Group.leave
  dsimp only
  split
  · rw [h]; rfl
  · rw [Group.counted_eq, h]

/-- Some threads of the path leave it for a wait, the others go on to the next instruction. -/
def Ctx.parted (c : Ctx) (ls : List Nat) (w : Wait) (pc : Nat) (unlock : Bool) : Group :=
  (c.grp.moveTo (c.path.filter (fun l => !ls.contains l)) (c.pc + 1)).leave ls (c.path.filter (fun l => !ls.contains l)) c.low w pc unlock

theorem Ctx.steered_parted (c : Ctx) (ls : List Nat) (w : Wait) (pc : Nat) (unlock : Bool) :
    c.grp.Steered (c.parted ls w pc unlock) := (Group.steered_moveTo _ _ _).trans (Group.steered_leave _ _ _ _ _ _ _)

theorem Ctx.th_parted {c : Ctx} {ls : List Nat} (w : Wait) (pc : Nat) (unlock : Bool) (hnd : ls.Nodup)
    (hlt : ∀ l ∈ ls, l < c.grp.threads.length) (k : Nat) :
    (c.parted ls w pc unlock).th k =
      if k ∈ ls then { c.grp.th k with wait := w, pc := pc, lock := (c.grp.th k).lock && !unlock }
      else if k ∈ c.path ∧ k < c.grp.threads.length then { c.grp.th k with pc := c.pc + 1 } else c.grp.th k := by
  rw [Ctx.parted, Group.th_leave _ _ _ _ _ _ hnd (fun l hl => by rw [(Group.steered_moveTo _ _ _).length]; exact hlt l hl),
    Group.th_moveTo]
  by_cases hk : k ∈ ls
  · simp [hk]
  · simp [hk]

theorem Ctx.wait_parted_of_not_mem {c : Ctx} {ls : List Nat} (w : Wait) (pc : Nat) (unlock : Bool) (hnd : ls.Nodup)
    (hlt : ∀ l ∈ ls, l < c.grp.threads.length) {k : Nat} (hk : k ∉ ls) :
    ((c.parted ls w pc unlock).th k).wait = (c.grp.th k).wait := by
  rw [Ctx.th_parted w pc unlock hnd hlt, if_neg hk]; split <;> rfl

end Sys2Proof.Machine
end


section
/-! PROOF. What leaves the cores as they are, but for blocks that a command's end stops: counters, traces, requests that go out, the end of
a command (R111, R252, R383). -/

namespace Sys2Proof.Machine

open Sys2Proof.Claims

/-! ## Cores, but for the stop of their blocks -/

/-- A core, but for which of its blocks a command's end has stopped. -/
def Core.bare (k : Core) : Core := { k with blocks := k.blocks.map (fun b => (b.1, { b.2 with stopped := false })) }

/-- The cores, but for stopped blocks. -/
def State.bare (s : State) : Nat → Core := fun i => (s.core i).bare

theorem State.bare_of_cores {s t : State} (h : t.cores = s.cores) : t.bare = s.bare :=
  funext fun i => congrArg Core.bare (State.core_congr h i)

theorem State.core_bare {s t : State} (h : t.bare = s.bare) (i : Nat) : (t.core i).bare = (s.core i).bare := congrFun h i

theorem State.groups_of_bare {s t : State} (h : t.bare = s.bare) (i : Nat) : (t.core i).groups = (s.core i).groups := by
  have h := congrArg Core.groups (State.core_bare h i); exact h

theorem State.arr_of_bare {s t : State} (h : t.bare = s.bare) (i : Nat) : (t.core i).arr = (s.core i).arr := by
  have h := congrArg Core.arr (State.core_bare h i); exact h

theorem State.dma_of_bare {s t : State} (h : t.bare = s.bare) (i : Nat) : (t.core i).dma = (s.core i).dma := by
  have h := congrArg Core.dma (State.core_bare h i); exact h

theorem State.l1_of_bare {s t : State} (h : t.bare = s.bare) (i : Nat) : (t.core i).l1 = (s.core i).l1 := by
  have h := congrArg Core.l1 (State.core_bare h i); exact h

theorem State.commit_of_bare {s t : State} (h : t.bare = s.bare) (i : Nat) : (t.core i).commit = (s.core i).commit := by
  have h := congrArg Core.commit (State.core_bare h i); exact h

theorem State.isSome_block_of_bare {s t : State} (h : t.bare = s.bare) (i b : Nat) :
    (mfind (t.core i).blocks b).isSome = (mfind (s.core i).blocks b).isSome := by
  have hb : mfind (t.bare i).blocks b = mfind (s.bare i).blocks b := by rw [h]
  simp only [State.bare, Core.bare] at hb
  rw [mfind_map (fun _ (x : Block) => { x with stopped := false }), mfind_map (fun _ (x : Block) => { x with stopped := false })] at hb
  simpa using congrArg Option.isSome hb

theorem State.OnlyTraced.bare {s t : State} (h : s.OnlyTraced t) : t.bare = s.bare := State.bare_of_cores (by rw [h])

theorem State.OnlyHalves.bare {s t : State} (h : s.OnlyHalves t) : t.bare = s.bare := State.bare_of_cores h.cores

theorem State.bare_foldl {α : Type} {f : State → α → State} (hf : ∀ s x, (f s x).bare = s.bare) (xs : List α) (s : State) :
    (xs.foldl f s).bare = s.bare := by
  induction xs generalizing s with
  | nil => rfl
  | cons x xs ih => exact (ih _).trans (hf s x)

theorem State.bare_fst_foldl {α β : Type} {f : State × β → α → State × β} (hf : ∀ s x, (f s x).1.bare = s.1.bare) (xs : List α)
    (s : State × β) : (xs.foldl f s).1.bare = s.1.bare := by
  induction xs generalizing s with
  | nil => rfl
  | cons x xs ih => exact (ih _).trans (hf s x)

theorem State.bare_ite {p : Prop} [Decidable p] {s t u : State} (ht : t.bare = s.bare) (hu : u.bare = s.bare) :
    (if p then t else u).bare = s.bare := by
  split <;> assumption

section Bare

variable (s : State)

@[simp] theorem State.bare_bump (b : Blk) (o n : Nat) : (s.bump b o n).bare = s.bare := (s.onlyTraced_bump b o n).bare

@[simp] theorem State.bare_bump64 (b : Blk) (o n : Nat) : (s.bump64 b o n).bare = s.bare := (s.onlyTraced_bump64 b o n).bare

@[simp] theorem State.bare_trace (js : List Job) : (s.trace js).bare = s.bare := (s.onlyTraced_trace js).bare

@[simp] theorem State.bare_wg (b : Blk) (o : Nat) (v : W32) : (s.wg b o v).bare = s.bare := rfl

@[simp] theorem State.bare_wgB (b : Blk) (o i : Nat) (v : Bool) : (s.wgB b o i v).bare = s.bare := rfl

@[simp] theorem State.bare_setCmd (c : Cmd) : (s.setCmd c).bare = s.bare := State.bare_of_cores (s.setCmd_cores c)

@[simp] theorem State.bare_modCmd (cid : Nat) (f : Cmd → Cmd) : (s.modCmd cid f).bare = s.bare :=
  State.bare_of_cores (s.modCmd_cores cid f)

@[simp] theorem State.bare_setReq (r : Req) : (s.setReq r).bare = s.bare := rfl

@[simp] theorem State.bare_setFport (j : Nat) (x : FabPort) : (s.setFport j x).bare = s.bare := rfl

@[simp] theorem State.bare_stall (w : Staller) (o : StallOn) : (s.stall w o).bare = s.bare := rfl

@[simp] theorem State.bare_unstall (w : Staller) : (s.unstall w).bare = s.bare := rfl

@[simp] theorem State.bare_enter (r : Req) : (s.enter r).bare = s.bare := rfl

@[simp] theorem State.bare_postPacket (k : Packet) : (s.postPacket k).bare = s.bare := rfl

@[simp] theorem State.bare_dropReq (rid : Nat) : (s.dropReq rid).bare = s.bare := rfl

@[simp] theorem State.bare_loopBack (typ : Nat) (k : FabPkt) : (s.loopBack typ k).bare = s.bare := rfl

@[simp] theorem State.bare_finish (cid status result : Nat) : (s.finish cid status result).bare = s.bare := by
  unfold State.finish; simp

/-! ## The end of a command -/

theorem Core.bare_stopped (k : Core) (cid : Nat) : ({ k with
    blocks := k.blocks.map (fun b => (b.1, if b.2.cid = cid then { b.2 with stopped := true } else b.2)) } : Core).bare = k.bare := by
  simp only [Core.bare, List.map_map]
  congr 1
  refine List.map_congr_left fun b _ => ?_
  simp only [Function.comp]
  split <;> rfl

@[simp] theorem State.bare_stopBlocks (cid : Nat) : (s.stopBlocks cid).bare = s.bare := by
  funext i
  have h := mfind_map (fun _ (k : Core) => { k with
    blocks := k.blocks.map (fun b => (b.1, if b.2.cid = cid then { b.2 with stopped := true } else b.2)) }) s.cores i
  simp only [State.bare, State.core, State.stopBlocks, mget, h]
  cases mfind s.cores i with
  | none => rfl
  | some k => exact k.bare_stopped cid

@[simp] theorem State.bare_modHalf (h : Nat) (f : Half → Half) : (s.modHalf h f).bare = s.bare := State.bare_of_cores (s.modHalf_cores h f)

@[simp] theorem State.bare_oredSync (h : Nat) : (s.oredSync h).bare = s.bare := by
  unfold State.oredSync
  dsimp only
  rw [State.bare_wgB, State.bare_of_cores (State.wgF_cores ..)]

@[simp] theorem State.bare_dropStaged (p : Staged → Bool) : (s.dropStaged p).bare = s.bare := by
  unfold State.dropStaged
  refine State.bare_foldl (fun t h => ?_) _ s
  rw [State.bare_oredSync, State.bare_modHalf]

@[simp] theorem State.bare_freeUnits (c : Cmd) : (s.freeUnits c).bare = s.bare := (s.onlyHalves_freeUnits c).bare

@[simp] theorem State.bare_unreported (status : Nat) (d : Detail) : (s.unreported status d).bare = s.bare :=
  (s.unreported_onlyTraced status d).bare

/-- The end of a command stops its blocks and changes no core otherwise. -/
@[simp] theorem State.bare_endCmd (cid status : Nat) (d : Detail) : (s.endCmd cid status d).bare = s.bare := by
  unfold State.endCmd
  dsimp only
  have key : ∀ t : State, (if status = 0x13 then t.dropStaged (fun x => x.cid == cid) else t).bare = t.bare := by
    intro t; split <;> simp
  split
  · rfl
  · split
    · simp [key]
    · simp [key]
    · split
      · rfl
      · split <;> simp [key]
    · rfl

@[simp] theorem State.bare_remoteFail (cid code port : Nat) : (s.remoteFail cid code port).bare = s.bare := by
  unfold State.remoteFail; simp

/-! ## Requests that go out -/

@[simp] theorem State.bare_traceMark (port : Nat) (bs : List Byte) : (s.traceMark port bs).bare = s.bare := by
  refine State.bare_foldl (fun t r => ?_) _ s
  dsimp only
  split <;> simp

@[simp] theorem State.bare_stamp (j : Nat) (rc : Bool) (k : FabPkt) : (s.stamp j rc k).bare = s.bare := by
  unfold State.stamp
  split
  · rfl
  · simp

@[simp] theorem State.bare_leave (j typ : Nat) (k : FabPkt) (n : W32) : (s.leave j typ k n).bare = s.bare := by
  unfold State.leave; simp; rfl

@[simp] theorem State.bare_transmit (j typ : Nat) (k : FabPkt) : (s.transmit j typ k).bare = s.bare := by
  unfold State.transmit
  dsimp only
  split <;> simp

@[simp] theorem State.bare_emit (j typ : Nat) (k : FabPkt) : (s.emit j typ k).bare = s.bare := by
  unfold State.emit; simp

@[simp] theorem State.bare_sendRemote (r : Req) (dst part addr : Nat) : (s.sendRemote r dst part addr).bare = s.bare := by
  unfold State.sendRemote
  split
  · rfl
  · split <;> simp

@[simp] theorem State.bare_goOut (r : Req) : (s.goOut r).bare = s.bare := by
  unfold State.goOut
  split
  · simp
  · split
    · simp
    · split <;> simp

@[simp] theorem State.bare_releaseRecords (ok : Req → Bool) : (s.releaseRecords ok).bare = s.bare := by
  unfold State.releaseRecords; dsimp only; split <;> rfl

@[simp] theorem State.bare_releaseFor (r : Req) : (s.releaseFor r).bare = s.bare := by
  unfold State.releaseFor; split <;> simp

@[simp] theorem State.bare_send (r : Req) : (s.send r).bare = s.bare := by
  unfold State.send; simp

@[simp] theorem State.bare_inject (key cls budget u : Nat) (drop : Blk × Nat) : (s.inject key cls budget u drop).1.bare = s.bare := by
  unfold State.inject
  dsimp only
  split
  · simp; rfl
  · rfl

@[simp] theorem State.bare_coreInject (site p m n : Nat) : (s.coreInject site p m n).1.bare = s.bare := by
  unfold State.coreInject; simp; rfl

@[simp] theorem State.bare_cpInject (home p n : Nat) : (s.cpInject home p n).1.bare = s.bare := by
  unfold State.cpInject; exact s.bare_inject ..

@[simp] theorem State.bare_hostInject (port p n : Nat) : (s.hostInject port p n).1.bare = s.bare := by
  unfold State.hostInject; exact s.bare_inject ..

@[simp] theorem State.bare_fabInject (port p n : Nat) : (s.fabInject port p n).1.bare = s.bare := by
  unfold State.fabInject; exact s.bare_inject ..

@[simp] theorem State.bare_injectFor (r : Req) (n : Nat) : (s.injectFor r n).1.bare = s.bare := by
  simp only [State.injectFor, apply_ite Prod.fst, apply_ite State.bare, State.bare_coreInject, State.bare_cpInject,
    State.bare_hostInject, State.bare_fabInject, ite_self]

@[simp] theorem State.bare_departs (r : Req) : (s.departs r).1.bare = s.bare := by
  unfold State.departs
  dsimp only
  split <;> simp

@[simp] theorem State.bare_departAll (rs : List Req) : (s.departAll rs).bare = s.bare := by
  refine State.bare_fst_foldl (fun a r => ?_) rs (s, [])
  split
  · rfl
  · have h := a.1.bare_departs r
    split <;> rename_i h' <;> rw [h'] at h <;> exact h

@[simp] theorem State.bare_sendQueued (site : Nat) : (s.sendQueued site).bare = s.bare := s.bare_departAll _

@[simp] theorem State.bare_release (site : Nat) (b : Block) (x : Contrib) : (s.release site b x).bare = s.bare := rfl

@[simp] theorem State.bare_unhalt (site : Nat) (slots : List Nat) : (s.unhalt site slots).bare = s.bare := by
  unfold State.unhalt
  dsimp only
  split
  · rw [State.bare_wgB]; exact State.bare_foldl (fun _ _ => State.bare_wgB ..) _ s
  · exact State.bare_foldl (fun _ _ => State.bare_wgB ..) _ s

@[simp] theorem State.bare_orphanReqs (site : Nat) (slots : List Nat) : (s.orphanReqs site slots).bare = s.bare := rfl

@[simp] theorem State.bare_orphanEngines (site cid lin : Nat) : (s.orphanEngines site cid lin).bare = s.bare := rfl

@[simp] theorem State.bare_setPlace (site k base units : Nat) (valid : Bool) : (s.setPlace site k base units valid).bare = s.bare := rfl

@[simp] theorem State.bare_arrSync (site : Nat) : (s.arrSync site).bare = s.bare := rfl

@[simp] theorem State.bare_espSync (site : Nat) : (s.espSync site).bare = s.bare := by
  unfold State.espSync; dsimp only; rw [State.bare_wg, State.bare_wgB]

@[simp] theorem State.bare_settle (cid : Nat) : (s.settle cid).bare = s.bare := by
  have h : ∀ (l : List (Nat × Block)) (t : State), (l.foldl (fun t e => t.bump (.cntCore e.1) 0x098 1) t).bare = t.bare :=
    State.bare_foldl fun _ _ => State.bare_bump ..
  unfold State.settle
  split
  · rfl
  · exact State.bare_ite rfl (State.bare_ite ((State.bare_finish ..).trans ((h _ _).trans (s.bare_setCmd _)))
      ((h _ _).trans (s.bare_setCmd _)))

end Bare

/-! ## Commit points (R383) -/

/-- The contributions of a block that wait at a core, of a list. -/
theorem find?_eq_none_of_clean {l : List Contrib} {bs : Nat} (h : ∀ x ∈ l, x.blk = bs → x.pois = false) (p : Contrib → Bool) :
    l.find? (fun x => x.blk == bs && x.pois && p x) = none := by
  rw [List.find?_eq_none]
  intro x hx
  by_cases hb : x.blk = bs
  · simp [h x hx hb]
  · simp [hb]

/-- Where no poisoned contribution of a block waits, its commit point is the mark and the release of what it has buffered. -/
theorem State.commitPoint_of_clean {s : State} {site bs : Nat} (h : ∀ x ∈ (s.core site).commit, x.blk = bs → x.pois = false) :
    s.commitPoint site bs = s.commitBlock site bs := by
  unfold State.commitPoint
  dsimp only
  split
  · rename_i hb; unfold State.commitBlock; simp only [hb]
  · rw [find?_eq_none_of_clean h]

theorem Core.bare_commit (k : Core) (l : List Contrib) : ({ k with commit := l } : Core).bare = { k.bare with commit := l } := rfl

/-- A commit point leaves a core's groups, array, copies and L1, takes its block's contributions out and changes no other core. -/
theorem State.core_commitBlock (s : State) (site bs i : Nat) :
    ∃ b c, (((s.commitBlock site bs).core i).bare = { (s.core i).bare with blocks := b, commit := c } ∧
      (∀ j, (mfind ((s.commitBlock site bs).core i).blocks j).isSome = (mfind (s.core i).blocks j).isSome)) ∧
      (c = if i = site ∧ (mfind (s.core site).blocks bs).isSome then (s.core site).commit.filter (fun x => x.blk != bs)
        else (s.core i).commit) := by
  unfold State.commitBlock
  dsimp only
  split
  · rename_i h
    exact ⟨(s.core i).bare.blocks, _, ⟨by rw [h]; simp only [Option.isSome_none, Bool.false_eq_true, and_false, if_false]; rfl,
      fun _ => rfl⟩, rfl⟩
  · rename_i b h
    generalize hk : ({ s.core site with blocks := _, commit := _ } : Core) = k
    generalize hl : (s.core site).commit.filter (fun x => x.blk == bs) = ours
    have hf : (ours.foldl (fun t x => t.release site b x) (s.setCore site k)).bare = (s.setCore site k).bare :=
      State.bare_foldl (fun _ _ => State.bare_release ..) _ _
    have ht : (if ours.isEmpty then ours.foldl (fun t x => t.release site b x) (s.setCore site k)
        else (ours.foldl (fun t x => t.release site b x) (s.setCore site k)).sendQueued site).bare = (s.setCore site k).bare := by
      split <;> simp [hf]
    generalize (if ours.isEmpty then ours.foldl (fun t x => t.release site b x) (s.setCore site k)
        else (ours.foldl (fun t x => t.release site b x) (s.setCore site k)).sendQueued site) = t at ht
    refine ⟨((s.setCore site k).bare i).blocks, ((s.setCore site k).bare i).commit, ⟨?_, fun j => ?_⟩, ?_⟩
    · have := congrFun ht i
      simp only [State.bare, State.core_setCore] at this ⊢
      rw [this]
      by_cases hi : i = site
      · subst hi; simp only [if_true]; subst hk; rfl
      · simp only [if_neg hi]
    · rw [State.isSome_block_of_bare ht, State.core_setCore]
      by_cases hi : i = site
      · subst hi hk
        simp only [if_true, mfind_mput]
        by_cases hj : j = bs
        · subst hj; simp [h]
        · simp [hj]
      · rw [if_neg hi]
    · simp only [State.bare, State.core_setCore, h, Option.isSome_some, and_true]
      by_cases hi : i = site
      · subst hi hk; simp [Core.bare]
      · simp only [if_neg hi]; rfl

end Sys2Proof.Machine
end


section
/-! PROOF. Block barriers, the end of groups and blocks (R105, R106, R127), and what they leave of a group. -/

namespace Sys2Proof.Machine

open Sys2Proof.Claims

/-! ## Groups of a core -/

/-- A slot holds a group, under one entry. -/
def OnlyAt (m : Map Group) (i : Nat) (g : Group) : Prop := mfind m i = some g ∧ ∀ e ∈ m, e.1 = i → e.2 = g

theorem mfind_filter_of_pos {α : Type} {m : Map α} {i : Nat} {p : Nat × α → Bool} (h : ∀ e ∈ m, e.1 = i → p e = true) :
    mfind (m.filter p) i = mfind m i := by
  induction m with
  | nil => rfl
  | cons e m ih =>
    have ih := ih fun x hx => h x (List.mem_cons_of_mem _ hx)
    rw [List.filter_cons]
    by_cases he : e.1 = i
    · rw [if_pos (h e (List.mem_cons_self ..) he)]; simp [mfind, he]
    · split <;> simp [mfind, he, ih]

theorem mfind_filter_of_neg {α : Type} {m : Map α} {i : Nat} {p : Nat × α → Bool} (h : ∀ e ∈ m, e.1 = i → p e = false) :
    mfind (m.filter p) i = none := by
  induction m with
  | nil => rfl
  | cons e m ih =>
    have ih := ih fun x hx => h x (List.mem_cons_of_mem _ hx)
    rw [List.filter_cons]
    by_cases he : e.1 = i
    · rw [if_neg (by simp [h e (List.mem_cons_self ..) he])]; exact ih
    · split <;> simp [mfind, he, ih]

theorem onlyAt_mmod {m : Map Group} {i : Nat} {g : Group} (f : Group → Group) (h : mfind m i = some g) : OnlyAt (mmod m i f) i (f g) := by
  refine ⟨by simp [h], fun e he hi => ?_⟩
  simp only [mmod, h] at he
  rcases mem_mput he with rfl | ⟨-, hne⟩
  · rfl
  · exact absurd hi hne

theorem OnlyAt.map {m : Map Group} {i : Nat} {g : Group} (f : Group → Group) (h : OnlyAt m i g) :
    OnlyAt (m.map (fun e => (e.1, f e.2))) i (f g) := by
  obtain ⟨h1, h2⟩ := h
  refine ⟨by rw [mfind_map (fun _ => f), h1]; rfl, fun e he hi => ?_⟩
  obtain ⟨e', he', rfl⟩ := List.mem_map.mp he
  rw [h2 e' he' hi]

theorem Group.th_mem {g : Group} {l : Nat} (h : l < g.threads.length) : g.th l ∈ g.threads := by
  unfold Group.th
  generalize g.threads = ts at *
  induction ts generalizing l with
  | nil => simp at h
  | cons t ts ih =>
    cases l with
    | zero => exact List.mem_cons_self ..
    | succ l => exact List.mem_cons_of_mem _ (ih (by simpa using h))

theorem Group.mem_threads {g : Group} {t : Thread} (h : t ∈ g.threads) : ∃ l < g.threads.length, g.th l = t := by
  unfold Group.th
  generalize g.threads = ts at *
  induction ts with
  | nil => simp at h
  | cons t' ts ih =>
    rcases List.mem_cons.mp h with rfl | h
    · exact ⟨0, by simp, rfl⟩
    · obtain ⟨l, hl, e⟩ := ih h
      exact ⟨l + 1, by simpa using hl, e⟩

theorem Group.forall_threads_iff {g : Group} {p : Thread → Prop} : (∀ t ∈ g.threads, p t) ↔ ∀ l < g.threads.length, p (g.th l) := by
  refine ⟨fun h l hl => h _ (Group.th_mem hl), fun h t ht => ?_⟩
  obtain ⟨l, hl, rfl⟩ := Group.mem_threads ht
  exact h l hl

theorem Group.over_iff {g : Group} : g.over = true ↔ ∀ l, (g.th l).wait = .exited := by
  rw [Group.over, List.all_eq_true]
  simp only [beq_iff_eq]
  rw [Group.forall_threads_iff]
  refine ⟨fun h l => ?_, fun h l _ => h l⟩
  by_cases hl : l < g.threads.length
  · exact h l hl
  · exact Group.wait_th_of_length_le (not_lt.mp hl)

/-! ## The core of an issue -/

/-- The groups of a core after an instruction of a group has issued. -/
def Ctx.groupsPut (c : Ctx) (m : Map Group) (g : Group) : Map Group :=
  mmod (mmod m c.slot (fun _ => g)) c.slot (fun g => { g with bpSkip := false })

theorem State.core_put (s : State) (c : Ctx) (g : Group) : ∃ bl, (∀ b, (mfind bl b).isSome = (mfind (s.core c.site).blocks b).isSome) ∧
    (s.put c g).core c.site =
      { s.core c.site with rr := (c.slot + 1) % 64, blocks := bl, groups := c.groupsPut (s.core c.site).groups g } := by
  have h := State.core_issued (s.modGroup c.site c.slot (fun _ => g)) c c.site
  rw [if_pos rfl] at h
  have hm : (s.modGroup c.site c.slot (fun _ => g)).core c.site =
      { s.core c.site with groups := mmod (s.core c.site).groups c.slot (fun _ => g) } := by
    rw [State.modGroup, State.core_modCore, if_pos rfl]
  rw [hm] at h
  refine ⟨_, fun b => ?_, h.trans rfl⟩
  simp only [Core.stalled]
  rw [mfind_map (fun i x => stallAfter _ _ _ i x)]
  simp

theorem onlyAt_groupsPut {c : Ctx} {m : Map Group} {g x : Group} (h : mfind m c.slot = some x) :
    OnlyAt (c.groupsPut m g) c.slot { g with bpSkip := false } :=
  onlyAt_mmod _ (onlyAt_mmod (fun _ => g) h).1

/-- An entry of another slot was there before. -/
theorem mem_groupsPut {c : Ctx} {m : Map Group} {g : Group} {e : Nat × Group} (he : e ∈ c.groupsPut m g) (hne : e.1 ≠ c.slot) : e ∈ m := by
  have key : ∀ (m : Map Group) (f : Group → Group), e ∈ mmod m c.slot f → e ∈ m := by
    intro m f h
    unfold mmod at h
    split at h
    · rcases mem_mput h with rfl | ⟨h, -⟩
      · exact absurd rfl hne
      · exact h
    · exact h
  exact key _ _ (key _ _ he)

theorem mem_minsert_of_mem {α : Type} {m : Map α} {i : Nat} {x : α} {e : Nat × α} (h : e ∈ m) : e ∈ minsert m i x := by
  induction m with
  | nil => simp at h
  | cons a m ih =>
    simp only [minsert]
    split
    · exact List.mem_cons_of_mem _ h
    · rcases List.mem_cons.mp h with rfl | h
      · exact List.mem_cons_self ..
      · exact List.mem_cons_of_mem _ (ih h)

theorem mem_merase_of_mem {α : Type} {m : Map α} {i : Nat} {e : Nat × α} (h : e ∈ m) (hne : e.1 ≠ i) : e ∈ merase m i := by
  induction m with
  | nil => simp at h
  | cons a m ih =>
    simp only [merase]
    rcases List.mem_cons.mp h with rfl | h
    · rw [if_neg hne]; exact List.mem_cons_self ..
    · split
      · exact ih h
      · exact List.mem_cons_of_mem _ (ih h)

theorem mem_groupsPut_of_mem {c : Ctx} {m : Map Group} {g : Group} {e : Nat × Group} (he : e ∈ m) (hne : e.1 ≠ c.slot) :
    e ∈ c.groupsPut m g := by
  have key : ∀ (m : Map Group) (f : Group → Group), e ∈ m → e ∈ mmod m c.slot f := by
    intro m f h
    unfold mmod
    split
    · exact mem_minsert_of_mem (mem_merase_of_mem h hne)
    · exact h
  exact key _ _ (key _ _ he)

/-! ## Block barriers (R105) -/

theorem Core.mem_groupsOf {k : Core} {b : Nat} {e : Nat × Group} : e ∈ k.groupsOf b ↔ e ∈ k.groups ∧ e.2.blk = b := by
  simp [Core.groupsOf]

theorem Core.barReady_iff {k : Core} {b n : Nat} : k.barReady b n = true ↔
    (∃ e ∈ k.groups, e.2.blk = b ∧ ∃ t ∈ e.2.threads, t.wait = .barB n) ∧
      ∀ e ∈ k.groups, e.2.blk = b → ∀ t ∈ e.2.threads, t.wait = .barB n ∨ t.wait = .exited := by
  simp only [Core.barReady, Core.groupsOf, Bool.and_eq_true, List.any_eq_true, List.all_eq_true, List.mem_flatMap, List.mem_filter,
    beq_iff_eq, Bool.or_eq_true]
  constructor
  · rintro ⟨⟨t, ⟨e, ⟨he, hb⟩, ht⟩, hw⟩, h⟩
    exact ⟨⟨e, he, hb, t, ht, hw⟩, fun e he hb t ht => h t ⟨e, ⟨he, hb⟩, ht⟩⟩
  · rintro ⟨⟨e, he, hb, t, ht, hw⟩, h⟩
    exact ⟨⟨t, ⟨e, ⟨he, hb⟩, ht⟩, hw⟩, fun t ⟨e, ⟨he, hb⟩, ht⟩ => h e he hb t ht⟩

/-- A thread that waits at barrier n of its block goes on. -/
def Thread.unbarred (n : Nat) (t : Thread) : Thread := if t.wait = .barB n then { t with wait := .run } else t

/-- The threads of a group that wait at barrier n of its block go on. -/
def Group.unbarred (n : Nat) (g : Group) : Group := Group.wake { g with threads := g.threads.map (Thread.unbarred n) }

/-- What the release of barrier n of a block makes of a group. -/
def Group.barStep (b n : Nat) (g : Group) : Group := if g.blk = b then g.unbarred n else g

theorem Core.groups_barRelease (k : Core) (b n : Nat) :
    (k.barRelease b n).groups = k.groups.map (fun e => (e.1, e.2.barStep b n)) := by
  unfold Core.barRelease
  refine List.map_congr_left fun e _ => ?_
  unfold Group.barStep
  split <;> rfl

theorem nth_map {α β : Type} (f : α → β) (d : α) (l : List α) (n : Nat) : nth (f d) (l.map f) n = f (nth d l n) := by
  induction l generalizing n with
  | nil => rfl
  | cons x l ih => cases n with
    | zero => rfl
    | succ n => exact ih n

theorem Group.th_map (g : Group) (f : Thread → Thread) (hf : f Thread.none = Thread.none) (l : Nat) :
    Group.th { g with threads := g.threads.map f } l = f (g.th l) := by
  have h := nth_map f Thread.none g.threads l
  rwa [hf] at h

theorem Group.th_unbarred (n : Nat) (g : Group) (l : Nat) : (g.unbarred n).th l = (g.th l).unbarred n := by
  rw [Group.unbarred, Group.th_wake, Group.th_map _ _ rfl]

theorem Thread.unbarred_values (n : Nat) (t : Thread) :
    (t.unbarred n).regs = t.regs ∧ (t.unbarred n).rpois = t.rpois ∧ (t.unbarred n).preds = t.preds := by
  unfold Thread.unbarred; split <;> simp

theorem Group.steered_unbarred (n : Nat) (g : Group) : g.Steered (g.unbarred n) := by
  have hth : ∀ l, (g.unbarred n).th l = (g.th l).unbarred n := g.th_unbarred n
  have hw : Group.Steered { g with threads := g.threads.map (Thread.unbarred n) } (g.unbarred n) := Group.steered_wake _
  refine ⟨by rw [hw.length]; simp, hw.uregs, hw.upois, hw.blk, fun l => ?_, fun l => ?_, fun l => ?_⟩
  · rw [hth, ((g.th l).unbarred_values n).1]
  · rw [hth, ((g.th l).unbarred_values n).2.1]
  · rw [hth, ((g.th l).unbarred_values n).2.2]

theorem Group.steered_barStep (b n : Nat) (g : Group) : g.Steered (g.barStep b n) := by
  unfold Group.barStep
  split
  · exact g.steered_unbarred n
  · exact .refl g

theorem Group.sameExits_barStep (b n : Nat) (g : Group) : g.SameExits (g.barStep b n) := by
  unfold Group.barStep
  split
  · intro l
    rw [Group.th_unbarred, Thread.unbarred]
    split
    · rename_i h; simp [h]
    · rfl
  · exact fun _ => Iff.rfl

/-- The release of a block barrier, with the commit point that it is. -/
def State.barStep (s : State) (site b n : Nat) : State :=
  ((s.modCore site (fun k => k.barRelease b n)).restart site b).commitPoint site b

theorem State.blockBars_eq (s : State) (site b : Nat) : s.blockBars site b =
    [0, 1, 2, 3].foldl (fun t n => if (t.core site).barReady b n then t.barStep site b n else t) s := rfl

theorem State.blockBars_induct {s : State} {site b : Nat} {P : State → Prop} (h : P s)
    (hstep : ∀ t n, P t → P (t.barStep site b n)) : P (s.blockBars site b) := by
  rw [State.blockBars_eq]
  generalize [0, 1, 2, 3] = ns
  induction ns generalizing s with
  | nil => exact h
  | cons n ns ih =>
    refine ih ?_
    dsimp only
    split
    · exact hstep s n h
    · exact h

/-- With no barrier complete, nothing happens. -/
theorem State.blockBars_of_not_ready {s : State} {site b : Nat} (h : ∀ n < 4, (s.core site).barReady b n = false) :
    s.blockBars site b = s := by
  simp [State.blockBars_eq, h]

/-- With one barrier complete, and none once it has been released, that one is released. -/
theorem State.blockBars_of_ready {s : State} {site b n : Nat} (hn : n < 4) (hr : (s.core site).barReady b n = true)
    (h : ∀ m, m ≠ n → (s.core site).barReady b m = false) (h' : ∀ m, ((s.barStep site b n).core site).barReady b m = false) :
    s.blockBars site b = s.barStep site b n := by
  rw [State.blockBars_eq]
  interval_cases n <;> simp [hr, h, h']

/-- What a commit point leaves of a core that has no poisoned contribution of the block. -/
theorem State.core_commitPoint {s : State} {site bs : Nat} (h : ∀ x ∈ (s.core site).commit, x.blk = bs → x.pois = false) :
    let k := (s.commitPoint site bs).core site
    k.groups = (s.core site).groups ∧ k.arr = (s.core site).arr ∧ k.dma = (s.core site).dma ∧ k.l1 = (s.core site).l1 ∧
      k.commit = (if (mfind (s.core site).blocks bs).isSome then (s.core site).commit.filter (fun x => x.blk != bs)
        else (s.core site).commit) ∧
      ∀ j, (mfind k.blocks j).isSome = (mfind (s.core site).blocks j).isSome := by
  rw [State.commitPoint_of_clean h]
  obtain ⟨b, cm, ⟨hb, hs⟩, hc⟩ := s.core_commitBlock site bs site
  have hg := congrArg Core.groups hb
  have ha := congrArg Core.arr hb
  have hd := congrArg Core.dma hb
  have hl := congrArg Core.l1 hb
  have hcm := congrArg Core.commit hb
  exact ⟨hg, ha, hd, hl, hcm.trans (hc.trans (by simp)), hs⟩

theorem State.core_restart (s : State) (site b : Nat) : ∃ bl, (∀ j, (mfind bl j).isSome = (mfind (s.core site).blocks j).isSome) ∧
    (s.restart site b).core site = { s.core site with blocks := bl } := by
  refine ⟨mmod (s.core site).blocks b (fun x => { x with stall := 0 }), fun j => ?_, ?_⟩
  · rw [mfind_mmod]
    split
    · rename_i hj; subst hj; simp
    · rfl
  · rw [State.restart, State.modBlock, State.core_modCore, if_pos rfl]

/-- What the release of a barrier leaves of a core that has no poisoned contribution of the block. -/
theorem State.core_barStep {s : State} {site b n : Nat} (h : ∀ x ∈ (s.core site).commit, x.blk = b → x.pois = false) :
    let k := (s.barStep site b n).core site
    k.groups = (s.core site).groups.map (fun e => (e.1, e.2.barStep b n)) ∧ k.arr = (s.core site).arr ∧
      k.dma = (s.core site).dma ∧ (∀ x ∈ k.commit, x ∈ (s.core site).commit) ∧
      ∀ j, (mfind k.blocks j).isSome = (mfind (s.core site).blocks j).isSome := by
  have h1 : (s.modCore site (fun k => k.barRelease b n)).core site = (s.core site).barRelease b n := by
    rw [State.core_modCore, if_pos rfl]
  obtain ⟨bl, hbl, h2⟩ := (s.modCore site (fun k => k.barRelease b n)).core_restart site b
  rw [h1] at h2 hbl
  obtain ⟨hg, ha, hd, -, hc, hs⟩ := State.core_commitPoint (s := (s.modCore site (fun k => k.barRelease b n)).restart site b)
    (site := site) (bs := b) (by rw [h2]; exact h)
  rw [h2] at hg ha hd hc hs
  refine ⟨hg.trans (Core.groups_barRelease _ _ _), ha, hd, fun x hx => ?_, fun j => (hs j).trans (hbl j)⟩
  have hx : x ∈ (if (mfind bl b).isSome then (s.core site).commit.filter (fun x => x.blk != b) else (s.core site).commit) := hc ▸ hx
  split at hx
  · exact List.mem_of_mem_filter hx
  · exact hx

/-! ## Groups and blocks that are over (R91, R127) -/

theorem State.bare_setCore {s t : State} (h : t.bare = s.bare) (i : Nat) (k : Core) : (t.setCore i k).bare = (s.setCore i k).bare := by
  funext j
  simp only [State.bare, State.core_setCore]
  split
  · rfl
  · exact State.core_bare h j

theorem Core.espNext_eq (k : Core) : k.espNext = { k with esp := k.espNext.esp } := by
  unfold Core.espNext; split <;> rfl

/-- A block that leaves a core takes its groups and its place with it. -/
theorem State.core_dropBlock (s : State) (site b : Nat) :
    ((s.dropBlock site b).core site).groups = (s.core site).groups.filter (fun g => g.2.blk != b) ∧
      mfind ((s.dropBlock site b).core site).blocks b = none := by
  have h : ∃ k : Core, k.groups = (s.core site).groups.filter (fun g => g.2.blk != b) ∧ k.blocks = merase (s.core site).blocks b ∧
      (s.dropBlock site b).bare = (s.setCore site k).bare := by
    unfold State.dropBlock
    dsimp only
    refine ⟨Core.espNext ?k, ?_, ?_, ?_⟩
    pick_goal 4
    · rw [State.bare_espSync, State.bare_arrSync, State.bare_setPlace, State.bare_unhalt, State.bare_orphanReqs]
      refine State.bare_setCore ?_ _ _
      split
      · rfl
      · rfl
    · rw [Core.espNext_eq]
    · rw [Core.espNext_eq]
  obtain ⟨k, hg, hb, he⟩ := h
  refine ⟨by rw [State.groups_of_bare he, State.core_setCore, if_pos rfl, hg], ?_⟩
  have := State.isSome_block_of_bare he site b
  rw [State.core_setCore, if_pos rfl, hb, mfind_merase, if_pos rfl] at this
  exact Option.isSome_eq_false_iff.mp this |> Option.isNone_iff_eq_none.mp

/-- The slots of a block's groups that may be freed. -/
def Core.doneSlots (k : Core) (b : Nat) : List Nat := ((k.groupsOf b).filter (fun g => k.groupFree g.1 g.2)).map (·.1)

theorem State.freeBlock_eq (s : State) (site b : Nat) : s.freeBlock site b =
    let t := if ((s.core site).groupsOf b).all (fun g => g.2.over) then s.commitPoint site b else s
    match mfind (t.core site).blocks b with
    | none => t
    | some blk =>
      let u := ((t.modCore site (fun k => { k with groups := k.groups.filter (fun g => !((s.core site).doneSlots b).contains g.1) })).orphanReqs
        site ((s.core site).doneSlots b)).unhalt site ((s.core site).doneSlots b)
      if ((s.core site).groupsOf b).all (fun g => (s.core site).groupFree g.1 g.2) then
        ((u.dropBlock site b).modCmd blk.cid (fun c => { c with exited := c.exited ++ [(site, blk)] })).settle blk.cid
      else u := rfl

theorem State.bare_freed (t : State) (site : Nat) (done : List Nat) (f : Core → Core) :
    (((t.modCore site f).orphanReqs site done).unhalt site done).bare = (t.modCore site f).bare := by
  rw [State.bare_unhalt, State.bare_orphanReqs]

/-- A group with a thread that has not exited stays. -/
theorem State.freeBlock_of_kept {s : State} {site b slot : Nat} {g : Group} (ho : OnlyAt (s.core site).groups slot g) (hb : g.blk = b)
    (hov : g.over = false) : mfind ((s.freeBlock site b).core site).groups slot = some g := by
  obtain ⟨hf, hu⟩ := ho
  have hmem : (slot, g) ∈ (s.core site).groupsOf b := Core.mem_groupsOf.mpr ⟨mem_of_mfind hf, hb⟩
  have h1 : ((s.core site).groupsOf b).all (fun g => g.2.over) = false := by
    rw [List.all_eq_false]; exact ⟨_, hmem, by simp [hov]⟩
  have h2 : ((s.core site).groupsOf b).all (fun g => (s.core site).groupFree g.1 g.2) = false := by
    rw [List.all_eq_false]; exact ⟨_, hmem, by simp [Core.groupFree, hov]⟩
  have h3 : slot ∉ (s.core site).doneSlots b := by
    simp only [Core.doneSlots, List.mem_map, List.mem_filter, Core.mem_groupsOf]
    rintro ⟨e, ⟨⟨he, -⟩, hfree⟩, hes⟩
    rw [Core.groupFree, hu e he hes] at hfree
    simp [hov] at hfree
  rw [State.freeBlock_eq]
  simp only [h1, h2, Bool.false_eq_true, if_false]
  split
  · exact hf
  · rw [State.groups_of_bare (State.bare_freed _ _ _ _), State.core_modCore, if_pos rfl]
    refine (mfind_filter_of_pos fun e _ hi => ?_).trans hf
    simp [hi, h3]

/-- A group that is over, with no tile and no copy under way, is freed, and so is its block where it is the last. -/
theorem State.freeBlock_of_free {s : State} {site b slot : Nat} {g : Group} (ho : OnlyAt (s.core site).groups slot g) (hb : g.blk = b)
    (hfree : (s.core site).groupFree slot g = true) (hblk : (mfind (s.core site).blocks b).isSome = true)
    (hclean : ∀ x ∈ (s.core site).commit, x.blk = b → x.pois = false) :
    mfind ((s.freeBlock site b).core site).groups slot = none ∧
      ((∀ e ∈ (s.core site).groups, e.2.blk = b → e.1 = slot) → mfind ((s.freeBlock site b).core site).blocks b = none) := by
  obtain ⟨hf, hu⟩ := ho
  have hdone : slot ∈ (s.core site).doneSlots b := by
    simp only [Core.doneSlots, List.mem_map, List.mem_filter, Core.mem_groupsOf]
    exact ⟨(slot, g), ⟨⟨mem_of_mfind hf, hb⟩, hfree⟩, rfl⟩
  rw [State.freeBlock_eq]
  generalize ht : (if ((s.core site).groupsOf b).all (fun g => g.2.over) = true then s.commitPoint site b else s) = t
  have hs : (mfind (t.core site).blocks b).isSome = true := by
    subst ht
    split
    · obtain ⟨-, -, -, -, -, hs⟩ := State.core_commitPoint hclean
      exact (hs b).trans hblk
    · exact hblk
  obtain ⟨blk, hblk⟩ := Option.isSome_iff_exists.mp hs
  dsimp only
  rw [hblk]
  dsimp only
  generalize hun : ((t.modCore site _).orphanReqs site _).unhalt site _ = u
  have hnone : mfind (u.core site).groups slot = none := by
    subst hun
    rw [State.groups_of_bare (State.bare_freed _ _ _ _), State.core_modCore, if_pos rfl]
    refine mfind_filter_of_neg fun e _ hi => ?_
    simp [hi, hdone]
  split
  · rename_i hall
    have hset : (((u.dropBlock site b).modCmd blk.cid (fun c => { c with exited := c.exited ++ [(site, blk)] })).settle blk.cid).bare =
        (u.dropBlock site b).bare := by rw [State.bare_settle, State.bare_modCmd]
    obtain ⟨hg, hbn⟩ := u.core_dropBlock site b
    refine ⟨?_, fun _ => ?_⟩
    · rw [State.groups_of_bare hset, hg]
      rcases h : mfind ((u.core site).groups.filter (fun g => g.2.blk != b)) slot with - | x
      · exact h
      · have := mfind_isSome_of_mem (List.mem_of_mem_filter (mem_of_mfind h))
        simp [hnone] at this
    · have := State.isSome_block_of_bare hset site b
      rw [hbn] at this
      exact Option.isNone_iff_eq_none.mp (Option.isSome_eq_false_iff.mp this)
  · rename_i hall
    refine ⟨hnone, fun h => absurd ?_ hall⟩
    rw [List.all_eq_true]
    intro e he
    obtain ⟨he, heb⟩ := Core.mem_groupsOf.mp he
    have hs := h e he heb
    rw [hu e he hs, hs]; exact hfree

end Sys2Proof.Machine
end


section
/-! PROOF. NOP, SPIN, TRAP, MERGE without divergence, EXIT (O12). -/

namespace Sys2Proof.Machine

open Sys2Proof.Claims

/-! ## The next path (R102) -/

theorem upTo_rising (a n : Nat) : (upTo a n).Pairwise (· < ·) := by
  rw [upTo_eq_range']; exact List.pairwise_lt_range'

theorem Group.lows_rising (g : Group) : g.lows.Pairwise (· < ·) := (upTo_rising 0 32).filter _

theorem Group.mem_lows {g : Group} {l : Nat} : l ∈ g.lows ↔
    l < 32 ∧ g.runs l = true ∧ ∀ k < l, ¬ (g.runs k = true ∧ (g.th k).pc = (g.th l).pc) := by
  unfold Group.lows
  rw [List.mem_filter, mem_upTo, Bool.and_eq_true, List.all_eq_true]
  simp only [mem_upTo, Bool.not_eq_true', Bool.and_eq_false_iff, beq_eq_false_iff_ne]
  constructor
  · rintro ⟨⟨-, h32⟩, hr, h⟩
    refine ⟨by omega, hr, fun k hk ⟨h1, h2⟩ => ?_⟩
    rcases h k ⟨by omega, by omega⟩ with h | h
    · simp [h1] at h
    · exact h h2
  · rintro ⟨h32, hr, h⟩
    refine ⟨⟨by omega, by omega⟩, hr, fun k ⟨_, hk⟩ => ?_⟩
    by_cases h1 : g.runs k = true
    · exact .inr fun h2 => h k (by omega) ⟨h1, h2⟩
    · exact .inl (by simpa using h1)

/-- Every runnable path has its lowest lane. -/
theorem Group.exists_low (g : Group) (k : Nat) (h32 : k < 32) (hr : g.runs k = true) : ∃ l ∈ g.lows, (g.th l).pc = (g.th k).pc := by
  induction k using Nat.strongRecOn with
  | _ k ih =>
    by_cases h : ∃ j < k, g.runs j = true ∧ (g.th j).pc = (g.th k).pc
    · obtain ⟨j, hj, hrj, hpc⟩ := h
      obtain ⟨l, hl, e⟩ := ih j hj (by omega) hrj
      exact ⟨l, hl, e.trans hpc⟩
    · exact ⟨k, Group.mem_lows.mpr ⟨h32, hr, fun j hj hh => h ⟨j, hj, hh⟩⟩, rfl⟩

/-- The issue goes to another runnable path where there is one. -/
theorem Group.act_nextPath_ne {g : Group} {cur l : Nat} (hl : l ∈ g.lows) (hne : l ≠ cur) : (g.nextPath cur).act ≠ some cur := by
  unfold Group.nextPath
  dsimp only
  cases hf : g.lows.find? (fun l => decide (cur < l)) with
  | some x => have := List.find?_some hf; simp at this; simp; omega
  | none =>
    rw [List.find?_eq_none] at hf
    have hlow : l < cur := by have := hf l hl; simp at this; omega
    intro h
    cases hg : g.lows with
    | nil => simp [hg] at hl
    | cons x xs =>
      rw [hg] at h hl
      have hx : x = cur := by simpa using h
      have hr := g.lows_rising
      rw [hg, List.pairwise_cons] at hr
      rcases List.mem_cons.mp hl with h | h
      · omega
      · have := hr.1 l h; omega

/-- The lowest lane of the path leads it. -/
theorem head_path_of_issueCtx {s : State} {w : At} {c : Ctx} (h : s.issueCtx w = some c) {l : Nat} (hl : l ∈ c.path) : c.low ∈ c.path := by
  simp only [State.issueCtx] at h
  split at h
  · cases h
  · split at h
    · cases h
    · split at h
      · split at h
        · cases h
          dsimp only at *
          generalize Group.pathAt _ _ = p at *
          cases p with
          | nil => simp at hl
          | cons x xs => simp
        · cases h
      · cases h

section Issue

variable {s : State} {w : At} {c : Ctx} {ls : List Nat} {n : Need}

theorem mem_path_of_issues (h : Issues s w n c ls) {l : Nat} (hl : l ∈ ls) : l ∈ c.path := by
  obtain ⟨-, rfl, -⟩ := h
  exact List.mem_of_mem_filter hl

theorem path_of_issues (h : Issues s w n c ls) {l : Nat} (hl : l ∈ c.path) :
    l < 32 ∧ (c.grp.th l).wait = .run ∧ (c.grp.th l).pc = c.pc ∧ l < c.grp.threads.length := by
  have hctx := issueCtx_of_fetches (fetches_of_issues h)
  have hp := hl
  rw [State.path_eq_pathAt hctx, Group.mem_pathAt] at hp
  obtain ⟨h32, hr, hpc⟩ := hp
  exact ⟨h32, by simpa [Group.runs] using hr, hpc, lt_length_of_mem_path hctx hl⟩

theorem low_mem_of_issues (h : Issues s w n c ls) : c.low ∈ c.path := by
  obtain ⟨l, hl⟩ := List.exists_mem_of_ne_nil ls (ne_nil_of_issues h)
  exact head_path_of_issueCtx (issueCtx_of_fetches (fetches_of_issues h)) (mem_path_of_issues h hl)

theorem headD_of_issues (h : Issues s w n c ls) (a b : Nat) : ls.headD a = ls.headD b := by
  obtain ⟨x, xs, rfl⟩ := List.exists_cons_of_ne_nil (ne_nil_of_issues h); rfl

theorem site_slot_of_fetches (h : Fetches s w c) : c.core = s.core c.site ∧ mfind (s.core c.site).groups c.slot = some c.grp ∧
    mfind (s.core c.site).blocks c.grp.blk = some c.blk := by
  obtain ⟨hsite, hslot, hcore, hgrp, hblk, -⟩ := State.issueCtx_eq (issueCtx_of_fetches h)
  rw [hsite, hslot]; exact ⟨hcore, hgrp, hblk⟩

/-! ## SPIN (R108) -/

/-- The group after SPIN, before another path takes over. -/
def Ctx.spun (c : Ctx) (ls : List Nat) : Group :=
  ls.foldl (fun h l => h.modTh l (fun t => { t with lock := true })) (c.grp.moveTo c.path (c.pc + 1))

theorem execSpin_eq (w : At) (f : SForm) (s : State) :
    exec (.spin w f) s = runThread w s (plainNeed f) (fun c ls => s.put c ((c.spun ls).nextPath c.low)) := rfl

theorem th_spun (h : Issues s w n c ls) (l : Nat) : (c.spun ls).th l = { c.grp.th l with
    pc := if l ∈ c.path then c.pc + 1 else (c.grp.th l).pc
    lock := if l ∈ ls then true else (c.grp.th l).lock } := by
  obtain ⟨hnd, hlt⟩ := lanes_of_issues h
  have hmove : (c.grp.moveTo c.path (c.pc + 1)).th l =
      { c.grp.th l with pc := if l ∈ c.path then c.pc + 1 else (c.grp.th l).pc } := by
    rw [Group.th_moveTo]
    by_cases hl : l ∈ c.path
    · rw [if_pos ⟨hl, (path_of_issues h hl).2.2.2⟩, if_pos hl]
    · rw [if_neg (fun h => hl h.1), if_neg hl]
  rw [Ctx.spun, Group.th_foldl_modTh _ _ (fun _ t => { t with lock := true }) hnd
    (fun k hk => by rw [(Group.steered_moveTo _ _ _).length]; exact (hlt k hk).2), hmove]
  by_cases hl : l ∈ ls
  · simp only [if_pos hl]
  · simp only [if_neg hl]

theorem steered_spun (c : Ctx) (ls : List Nat) : c.grp.Steered (c.spun ls) :=
  (Group.steered_moveTo _ _ _).trans (Group.steered_modThs _ _ (fun _ => rfl) (fun _ => rfl) (fun _ => rfl))

theorem answers_spin {f : SForm} (h : Issues s w (plainNeed f) c ls) :
    Answers (.spin w f) s (fun t => (FarFromWrap s c.site → OnlyGroup s t c) ∧ ∃ g, groupAt t c = some g ∧
      (∀ l, g.th l = { c.grp.th l with
        pc := if l ∈ c.path then c.pc + 1 else (c.grp.th l).pc
        lock := if l ∈ ls then true else (c.grp.th l).lock }) ∧
      KeptRegs c g ∧ g.count = 0 ∧
      ((∃ k < 32, (c.grp.th k).wait = .run ∧ (c.grp.th k).pc ≠ c.pc ∧ (c.grp.th k).pc ≠ c.pc + 1) → g.act ≠ some c.low)) := by
  have hf := fetches_of_issues h
  have hkept : KeptRegs c ((c.spun ls).nextPath c.low) := ((steered_spun c ls).trans (Group.steered_nextPath _ _)).keptRegs
  refine ⟨_, (execSpin_eq w f s).trans (runThread_of_issues _ h), State.onlyGroup_put _ (site_lt_of_fetches hf), _,
    groupAt_put_of_fetches hf _, th_spun h, hkept, rfl, ?_⟩
  rintro ⟨k, h32, hw, hpc, hpc1⟩
  have hkp : k ∉ c.path := fun hk => hpc (path_of_issues h hk).2.2.1
  have hk := th_spun h k
  rw [if_neg hkp] at hk
  obtain ⟨l, hl, hlpc⟩ := (c.spun ls).exists_low k h32 (by rw [Group.runs, hk]; simp [hw])
  refine Group.act_nextPath_ne hl ?_
  rintro rfl
  rw [th_spun h, hk, if_pos (low_mem_of_issues h)] at hlpc
  exact hpc1 hlpc.symm

/-! ## MERGE where nothing merges (R126) -/

/-- The lanes for which a MERGE is the merge point of their innermost divergence. -/
def Ctx.mergesHere (c : Ctx) (l : Nat) : Bool :=
  match (c.grp.th l).divs.head? with
  | some d => ((mfind c.grp.divs d).map (·.merge)) == some c.pc
  | none => false

theorem Ctx.mergesHere_iff {c : Ctx} {l : Nat} : c.mergesHere l = true ↔
    ∃ d v, (c.grp.th l).divs.head? = some d ∧ mfind c.grp.divs d = some v ∧ v.merge = c.pc := by
  unfold Ctx.mergesHere
  cases (c.grp.th l).divs.head? with
  | none => simp
  | some d => simp

theorem execMerge_eq (w : At) (f : SForm) (s : State) :
    exec (.merge w f) s = runThread w s (plainNeed f) (fun c ls =>
      if ls.filter c.mergesHere = [] then s.put c (c.grp.advance c.path c.low c.pc)
      else
        let x := (c.parted (ls.filter c.mergesHere) .merge c.pc false).merges
        if x.2 then (s.put c x.1).restart c.site c.grp.blk else s.put c x.1) := rfl

theorem answers_merge_of_none {f : SForm} (h : Issues s w (plainNeed f) c ls)
    (hno : ∀ l ∈ ls, ∀ d v, (c.grp.th l).divs.head? = some d → mfind c.grp.divs d = some v → v.merge ≠ c.pc) :
    Answers (.merge w f) s (fun t => OnlyMoved s t c) := by
  have hnil : ls.filter c.mergesHere = [] := by
    rw [List.filter_eq_nil_iff]
    intro l hl hm
    obtain ⟨d, v, h1, h2, h3⟩ := Ctx.mergesHere_iff.mp hm
    exact hno l hl d v h1 h2 h3
  refine ⟨_, (execMerge_eq w f s).trans (runThread_of_issues _ h), ?_⟩
  rw [if_pos hnil]
  exact onlyMoved_put (fetches_of_issues h)

/-! ## EXIT (R106, R127) -/

/-- The group after EXIT, with the merges and the barrier that it completes. -/
def Ctx.exited (c : Ctx) (ls : List Nat) : Group := (c.parted ls .exited c.pc true).merges.1.bars.1

theorem execExit_eq (w : At) (f : SForm) (s : State) :
    exec (.exit w f) s = runThread w s (plainNeed f) (fun c ls =>
      (((s.put c (c.exited ls)).restart c.site c.grp.blk).blockBars c.site c.grp.blk).freeBlock c.site c.grp.blk) := rfl

theorem Ctx.steered_exited (c : Ctx) (ls : List Nat) : c.grp.Steered (c.exited ls) :=
  ((c.steered_parted _ _ _ _).trans (Group.steered_merges _)).trans (Group.steered_bars _)

theorem wait_exited_iff (h : Issues s w n c ls) (l : Nat) :
    ((c.exited ls).th l).wait = .exited ↔ l ∈ ls ∨ (c.grp.th l).wait = .exited := by
  obtain ⟨hnd, hlt⟩ := lanes_of_issues h
  refine (((Group.sameExits_merges _).trans (Group.sameExits_bars _)) l).trans ?_
  by_cases hl : l ∈ ls
  · rw [Ctx.th_parted _ _ _ hnd (fun k hk => (hlt k hk).2), if_pos hl]; simp [hl]
  · rw [Ctx.wait_parted_of_not_mem _ _ _ hnd (fun k hk => (hlt k hk).2) hl]; simp [hl]

/-- A core in the course of an EXIT: its slot holds one group, whose exits and values are those of g, and its other entries, tiles and
copies are those of k. -/
structure Parting (k : Core) (slot b : Nat) (g : Group) (k' : Core) : Prop where
  group : ∃ h, OnlyAt k'.groups slot h ∧ g.Steered h ∧ g.SameExits h
  clean : ∀ x ∈ k'.commit, x.blk = b → x.pois = false
  block : (mfind k'.blocks b).isSome = true
  arr : k'.arr = k.arr
  dma : k'.dma = k.dma
  sole : (∀ e ∈ k.groups, e.2.blk = b → e.1 = slot) → ∀ e ∈ k'.groups, e.2.blk = b → e.1 = slot

theorem Parting.barStep {k : Core} {slot b site n : Nat} {g : Group} {t : State} (h : Parting k slot b g (t.core site)) :
    Parting k slot b g ((t.barStep site b n).core site) := by
  obtain ⟨hg, ha, hd, hc, hs⟩ := State.core_barStep (n := n) h.clean
  refine ⟨?_, fun x hx => h.clean x (hc x hx), (hs b).trans h.block, ha.trans h.arr, hd.trans h.dma, fun hk e he hb => ?_⟩
  · obtain ⟨x, hx, hst, hex⟩ := h.group
    rw [hg]
    exact ⟨_, hx.map (Group.barStep b n), hst.trans (x.steered_barStep b n), hex.trans (x.sameExits_barStep b n)⟩
  · rw [hg] at he
    obtain ⟨e', he', rfl⟩ := List.mem_map.mp he
    exact h.sole hk e' he' ((e'.2.steered_barStep b n).blk.symm.trans hb)

theorem parting_of_issues (h : Issues s w n c ls) (hc : CleanCommits c) :
    Parting c.core c.slot c.grp.blk { c.exited ls with bpSkip := false }
      ((((s.put c (c.exited ls)).restart c.site c.grp.blk).blockBars c.site c.grp.blk).core c.site) := by
  obtain ⟨hcore, hgrp, hblk⟩ := site_slot_of_fetches (fetches_of_issues h)
  refine State.blockBars_induct (P := fun t => Parting c.core c.slot c.grp.blk { c.exited ls with bpSkip := false } (t.core c.site)) ?_
    fun _ _ => Parting.barStep
  obtain ⟨bl, hbl, hput⟩ := s.core_put c (c.exited ls)
  obtain ⟨bl', hbl', hre⟩ := (s.put c (c.exited ls)).core_restart c.site c.grp.blk
  rw [hput] at hbl' hre
  rw [hre]
  refine ⟨⟨_, onlyAt_groupsPut hgrp, .refl _, fun _ => Iff.rfl⟩, hcore ▸ hc, ?_, by rw [hcore], by rw [hcore], fun hk e he hb => ?_⟩
  · exact (hbl' _).trans ((hbl _).trans (by simp [hblk]))
  · by_contra hne
    exact hne (hk e (hcore ▸ mem_groupsPut he hne) hb)

theorem answers_exit {f : SForm} (h : Issues s w (plainNeed f) c ls) (hc : CleanCommits c) :
    ((∃ k, (c.grp.th k).wait ≠ .exited ∧ k ∉ ls) →
      Answers (.exit w f) s (fun t => ∃ g, groupAt t c = some g ∧ KeptRegs c g ∧ ∀ l ∈ ls, (g.th l).wait = .exited)) ∧
    ((∀ k, (c.grp.th k).wait = .exited ∨ k ∈ ls) →
      (∀ x ∈ c.core.arr.tiles, x.group ≠ c.slot) → (∀ j ∈ c.core.dma, j.group ≠ c.slot) →
      Answers (.exit w f) s (fun t => groupAt t c = none ∧
        ((∀ e ∈ c.core.groups, e.2.blk = c.grp.blk → e.1 = c.slot) →
          mfind (t.core c.site).blocks c.grp.blk = none))) := by
  have hp := parting_of_issues h hc
  obtain ⟨g, ho, hst, hex⟩ := hp.group
  have hskip : (c.exited ls).Steered { c.exited ls with bpSkip := false } := .of_threads rfl rfl rfl rfl
  have hst : c.grp.Steered g := (c.steered_exited ls).trans (hskip.trans hst)
  have hex : ∀ l, (g.th l).wait = .exited ↔ l ∈ ls ∨ (c.grp.th l).wait = .exited := fun l => (hex l).trans (wait_exited_iff h l)
  refine ⟨fun ⟨k, hk, hkl⟩ => ?_, fun hall htiles hdma => ?_⟩
  · have hov : g.over = false := by
      rw [Bool.eq_false_iff]
      exact fun hov => ((hex k).mp (Group.over_iff.mp hov k)).elim hkl hk
    exact ⟨_, (execExit_eq w f s).trans (runThread_of_issues _ h), g, State.freeBlock_of_kept ho hst.blk hov, hst.keptRegs,
      fun l hl => (hex l).mpr (.inl hl)⟩
  · have hov : g.over = true := Group.over_iff.mpr fun l => (hex l).mpr ((hall l).symm)
    obtain ⟨hnone, hblk⟩ := State.freeBlock_of_free ho hst.blk (by
      rw [Core.groupFree, hov, hp.arr, hp.dma]
      simp only [Bool.true_and, Bool.and_eq_true, List.all_eq_true, bne_iff_ne]
      exact ⟨htiles, hdma⟩) hp.block hp.clean
    exact ⟨_, (execExit_eq w f s).trans (runThread_of_issues _ h), hnone, fun hk => hblk (hp.sole hk)⟩

end Issue

/-- Settles O12: each of these instructions leaves the group that its row describes; an EXIT frees the slots of what is over. -/
theorem plainControlAndExit : Obligations.PlainControlAndExit := by
  unfold Obligations.PlainControlAndExit
  refine ⟨⟨fun s w f c ls h => ⟨?_, answers_spin h, answers_merge_of_none h⟩, fun s w f c ls h => ?_⟩,
    fun s w f c ls h hc => answers_exit h hc⟩
  · exact ⟨_, runThread_of_issues (fun c _ => s.put c (c.grp.advance c.path c.low c.pc)) h, onlyMoved_put (fetches_of_issues h)⟩
  · have himm : f.imm.toNat < 256 := by
      have hl := legal_of_issues h
      simp only [sNeed, Bool.and_eq_true, decide_eq_true_eq] at hl
      exact hl.1.2
    refine ⟨_, runThread_of_issues (fun c ls => s.raise c 0x0D (ls.headD c.low) (f.imm.toNat % 256)) h, ?_⟩
    rw [Nat.mod_eq_of_lt himm, headD_of_issues h c.low 0]
    exact excepts_raise (fetches_of_issues h) ..

end Sys2Proof.Machine
end


section
/-! PROOF. Barriers of groups and blocks (O14), and fences (O15). -/

namespace Sys2Proof.Machine

open Sys2Proof.Claims

section Issue

variable {s : State} {w : At} {c : Ctx} {ls : List Nat} {n : Need}

/-! ## Group barriers (R104, R134) -/

/-- The mask that a lane's BARG names. -/
def Ctx.bargMask (c : Ctx) (f : SForm) (l : Nat) : W32 := if f.mod = 1 then c.grp.reg l (regNo f.ua f.a.toNat) else f.imm

/-- The needs of BARG. -/
def bargNeed (f : SForm) : Need :=
  sNeed f (decide (f.mod = 1)) (decide (f.mod.toNat ≤ 1)) (!decide (f.mod = 1) || decide (f.imm = 0)) (decide (f.mod = 1))

/-- The group in which the lanes have arrived at a BARG with a mask. -/
def Ctx.arrived (c : Ctx) (ls : List Nat) (m : W32) : Group := { c.parted ls .barG (c.pc + 1) true with barMask := some m }

theorem execBarg_eq (w : At) (f : SForm) (s : State) :
    exec (.barg w f) s = runThread w s (bargNeed f) (fun c ls =>
      match ls.find? (fun l => !(c.bargMask f l).getLsbD l || c.bargMask f l != c.grp.barMask.getD (c.bargMask f (ls.headD c.low))) with
      | some l => s.raise c 0x06 l 0
      | none =>
        let x := (c.arrived ls (c.grp.barMask.getD (c.bargMask f (ls.headD c.low)))).bars
        if x.2 then (s.put c x.1).restart c.site c.grp.blk else s.put c x.1) := by
  change execBarg w f s = _
  unfold execBarg bargNeed
  simp only [decide_eq_true_eq]
  rfl

theorem Ctx.steered_arrived (c : Ctx) (ls : List Nat) (m : W32) : c.grp.Steered (c.arrived ls m) :=
  (c.steered_parted ls .barG (c.pc + 1) true).trans (.of_threads rfl rfl rfl rfl)

theorem Group.barDone_iff {g : Group} {m : W32} (hm : g.barMask = some m) : g.barDone = true ↔
    ∀ l < 32, m.getLsbD l = true → (g.th l).wait = .exited ∨ (g.th l).wait = .barG := by
  simp only [Group.barDone, hm, List.all_eq_true, mem_upTo, Bool.or_eq_true, Bool.not_eq_true', beq_iff_eq]
  constructor
  · intro h l hl hb
    rcases h l ⟨by omega, by omega⟩ with (h | h) | h
    · simp [hb] at h
    · exact .inl h
    · exact .inr h
  · rintro h l ⟨-, hl⟩
    by_cases hb : m.getLsbD l = true
    · rcases h l (by omega) hb with h | h <;> simp [h]
    · exact .inl (.inl (by simpa using hb))

theorem th_arrived (h : Issues s w n c ls) (m : W32) (k : Nat) : (c.arrived ls m).th k =
    if k ∈ ls then { c.grp.th k with wait := .barG, pc := c.pc + 1, lock := false }
    else if k ∈ c.path then { c.grp.th k with pc := c.pc + 1 } else c.grp.th k := by
  obtain ⟨hnd, hlt⟩ := lanes_of_issues h
  have hth := Ctx.th_parted (c := c) .barG (c.pc + 1) true hnd (fun l hl => (hlt l hl).2) k
  have hpath : (k ∈ c.path ∧ k < c.grp.threads.length) ↔ k ∈ c.path :=
    ⟨fun h => h.1, fun hk => ⟨hk, (path_of_issues h hk).2.2.2⟩⟩
  simpa [Ctx.arrived, Group.th_barMask, hpath] using hth

theorem wait_arrived (h : Issues s w n c ls) (m : W32) (k : Nat) :
    ((c.arrived ls m).th k).wait = if k ∈ ls then .barG else (c.grp.th k).wait := by
  rw [th_arrived h]
  split
  · rfl
  · split <;> rfl

theorem Group.barMask_wake (g : Group) : g.wake.barMask = g.barMask := by
  unfold Group.wake
  split
  · split <;> rfl
  · rfl

/-- What is left of the group where the state is that of an issue, perhaps with its block's timer restarted. -/
theorem groupAt_restart (h : Fetches s w c) (g : Group) (p : Bool) :
    groupAt (if p then (s.put c g).restart c.site c.grp.blk else s.put c g) c = some { g with bpSkip := false } := by
  have hput := groupAt_put_of_fetches h g
  split
  · obtain ⟨bl, -, hre⟩ := (s.put c g).core_restart c.site c.grp.blk
    rw [groupAt, hre]; exact hput
  · exact hput

theorem barg_find_none {f : SForm} {m : W32} (hmask : ∀ l ∈ ls, c.bargMask f l = m ∧ m.getLsbD l = true) :
    ls.find? (fun l => !(c.bargMask f l).getLsbD l || c.bargMask f l != m) = none := by
  rw [List.find?_eq_none]
  intro l hl
  obtain ⟨hm, hb⟩ := hmask l hl
  simp [hm, hb]

/-- The barrier under way that a BARG joins. -/
theorem barMask_getD {f : SForm} {m : W32} (h : Issues s w n c ls)
    (hm : m = match c.grp.barMask with | some x => x | none => c.bargMask f (ls.headD 0)) :
    c.grp.barMask.getD (c.bargMask f (ls.headD c.low)) = m := by
  rw [hm, headD_of_issues h c.low 0]
  cases c.grp.barMask <;> rfl

/-- The state after a BARG that every lane may join. -/
theorem exec_barg_of_mask {f : SForm} {m : W32} (h : Issues s w (bargNeed f) c ls)
    (hm : m = match c.grp.barMask with | some x => x | none => c.bargMask f (ls.headD 0))
    (hmask : ∀ l ∈ ls, c.bargMask f l = m ∧ m.getLsbD l = true) :
    exec (.barg w f) s = .next (if (c.arrived ls m).bars.2 then (s.put c (c.arrived ls m).bars.1).restart c.site c.grp.blk
      else s.put c (c.arrived ls m).bars.1) := by
  rw [execBarg_eq, runThread_of_issues _ h]
  dsimp only
  rw [barMask_getD h hm, barg_find_none hmask]

theorem answers_barg_wait {f : SForm} {m : W32} (h : Issues s w (bargNeed f) c ls)
    (hm : m = match c.grp.barMask with | some x => x | none => c.bargMask f (ls.headD 0))
    (hmask : ∀ l ∈ ls, c.bargMask f l = m ∧ m.getLsbD l = true)
    (hk : ∃ k < 32, m.getLsbD k = true ∧ k ∉ ls ∧ (c.grp.th k).wait ≠ .exited ∧ (c.grp.th k).wait ≠ .barG) :
    Answers (.barg w f) s (fun t => ∃ g, groupAt t c = some g ∧ KeptRegs c g ∧ g.barMask = some m ∧
      ∀ l ∈ ls, (g.th l).wait = .barG ∧ (g.th l).pc = c.pc + 1) := by
  obtain ⟨k, h32, hb, hkl, hne, hnb⟩ := hk
  have hdone : (c.arrived ls m).barDone = false := by
    rw [Bool.eq_false_iff, ne_eq, Group.barDone_iff (m := m) rfl]
    intro hall
    have := hall k h32 hb
    rw [wait_arrived h, if_neg hkl] at this
    exact this.elim hne hnb
  have hbars : (c.arrived ls m).bars = (c.arrived ls m, false) := by rw [Group.bars_eq, hdone]; rfl
  refine ⟨_, exec_barg_of_mask h hm hmask, ?_⟩
  rw [hbars]
  refine ⟨_, groupAt_restart (fetches_of_issues h) _ _, (c.steered_arrived ls m).keptRegs, rfl, fun l hl => ?_⟩
  have := th_arrived h m l
  rw [if_pos hl] at this
  exact ⟨congrArg Thread.wait this, congrArg Thread.pc this⟩

theorem answers_barg_done {f : SForm} {m : W32} (h : Issues s w (bargNeed f) c ls)
    (hm : m = match c.grp.barMask with | some x => x | none => c.bargMask f (ls.headD 0))
    (hmask : ∀ l ∈ ls, c.bargMask f l = m ∧ m.getLsbD l = true)
    (hall : ∀ k < 32, m.getLsbD k = true → k ∈ ls ∨ (c.grp.th k).wait = .exited ∨ (c.grp.th k).wait = .barG) :
    Answers (.barg w f) s (fun t => ∃ g, groupAt t c = some g ∧ KeptRegs c g ∧ g.barMask = none ∧
      ∀ l < 32, l ∈ ls ∨ (c.grp.th l).wait = .barG → (g.th l).wait = .run ∧
        (g.th l).pc = if l ∈ ls then c.pc + 1 else (c.grp.th l).pc) := by
  have hdone : (c.arrived ls m).barDone = true := by
    rw [Group.barDone_iff (m := m) rfl]
    intro k h32 hb
    rw [wait_arrived h]
    split
    · exact .inr rfl
    · rename_i hkl; exact (hall k h32 hb).resolve_left hkl
  have hst := (c.steered_arrived ls m).trans (Group.steered_bars _)
  have hbars := Group.bars_eq (c.arrived ls m)
  rw [if_pos hdone] at hbars
  refine ⟨_, exec_barg_of_mask h hm hmask, _, groupAt_restart (fetches_of_issues h) _ _, hst.keptRegs, ?_, fun l h32 hl => ?_⟩
  · rw [hbars]
    dsimp only
    rw [Group.barMask_wake]
  · have hth : ((c.arrived ls m).bars.1).th l = (c.arrived ls m).released.th l := by
      rw [hbars, Group.th_wake, Group.th_barMask]
    have hwait : ((c.arrived ls m).th l).wait = .barG := by
      rw [wait_arrived h]
      split
      · rfl
      · rename_i hn; exact hl.resolve_left hn
    rw [Group.th_released, if_pos ⟨h32, hwait⟩] at hth
    refine ⟨congrArg Thread.wait hth, (congrArg Thread.pc hth).trans ?_⟩
    change ((c.arrived ls m).th l).pc = _
    rw [th_arrived h]
    by_cases hm : l ∈ ls
    · simp only [if_pos hm]
    · have hpath : l ∉ c.path := fun hp => by
        have := (path_of_issues h hp).2.1
        rw [hl.resolve_left hm] at this; simp at this
      simp only [if_neg hm, if_neg hpath]

theorem answers_barg_mask {f : SForm} {m : W32} {l : Nat} (h : Issues s w (bargNeed f) c ls)
    (hm : m = match c.grp.barMask with | some x => x | none => c.bargMask f (ls.headD 0))
    (hl : ls.find? (fun l => !(c.bargMask f l).getLsbD l || c.bargMask f l != m) = some l) :
    Answers (.barg w f) s (fun t => Excepts s t c 0x06 l 0) := by
  refine ⟨s.raise c 0x06 l 0, ?_, excepts_raise (fetches_of_issues h) ..⟩
  rw [execBarg_eq, runThread_of_issues _ h]
  dsimp only
  rw [barMask_getD h hm, hl]

/-! ## Block barriers (R105, R134) -/

/-- The needs of BARB. -/
def barbNeed (f : SForm) : Need := sNeed f false (decide (f.mod = 0)) (decide (f.imm.toNat < 4)) false

theorem execBarb_eq (w : At) (f : SForm) (s : State) :
    exec (.barb w f) s = runThread w s (barbNeed f) (fun c ls =>
      (s.put c (c.parted ls (.barB f.imm.toNat) (c.pc + 1) true)).blockBars c.site c.grp.blk) := rfl

theorem barb_imm {f : SForm} (h : Issues s w (barbNeed f) c ls) : f.imm.toNat < 4 := by
  have hl := legal_of_issues h
  simp only [barbNeed, sNeed, Bool.and_eq_true, decide_eq_true_eq] at hl
  exact hl.1.2

theorem th_parted_barb (h : Issues s w n c ls) (b k : Nat) : (c.parted ls (.barB b) (c.pc + 1) true).th k =
    if k ∈ ls then { c.grp.th k with wait := .barB b, pc := c.pc + 1, lock := false }
    else if k ∈ c.path then { c.grp.th k with pc := c.pc + 1 } else c.grp.th k := by
  obtain ⟨hnd, hlt⟩ := lanes_of_issues h
  have hth := Ctx.th_parted (c := c) (.barB b) (c.pc + 1) true hnd (fun l hl => (hlt l hl).2) k
  have hpath : (k ∈ c.path ∧ k < c.grp.threads.length) ↔ k ∈ c.path :=
    ⟨fun h => h.1, fun hk => ⟨hk, (path_of_issues h hk).2.2.2⟩⟩
  simpa [hpath] using hth

theorem wait_parted_barb (h : Issues s w n c ls) (b k : Nat) :
    ((c.parted ls (.barB b) (c.pc + 1) true).th k).wait = if k ∈ ls then .barB b else (c.grp.th k).wait := by
  rw [th_parted_barb h]
  split
  · rfl
  · split <;> rfl

/-- The core after the arrival at a block barrier. -/
theorem core_put_of_issues (h : Issues s w n c ls) (g : Group) :
    OnlyAt ((s.put c g).core c.site).groups c.slot { g with bpSkip := false } ∧
      (∀ e ∈ ((s.put c g).core c.site).groups, e.1 ≠ c.slot → e ∈ c.core.groups) ∧
      (∀ e ∈ c.core.groups, e.1 ≠ c.slot → e ∈ ((s.put c g).core c.site).groups) ∧
      ((s.put c g).core c.site).commit = c.core.commit := by
  obtain ⟨hcore, hgrp, -⟩ := site_slot_of_fetches (fetches_of_issues h)
  obtain ⟨bl, -, hput⟩ := s.core_put c g
  rw [hput, hcore]
  exact ⟨onlyAt_groupsPut hgrp, fun e he hne => mem_groupsPut he hne, fun e he hne => mem_groupsPut_of_mem he hne, rfl⟩

/-- Where a thread waits at one barrier of its block, no other barrier is complete. -/
theorem Core.barReady_of_other {k : Core} {b m i l x : Nat} {g : Group} (hg : (i, g) ∈ k.groups) (hb : g.blk = b)
    (hw : (g.th l).wait = .barB x) (hm : m ≠ x) : k.barReady b m = false := by
  rw [Bool.eq_false_iff, ne_eq, Core.barReady_iff]
  rintro ⟨-, hall⟩
  have hl : l < g.threads.length := Group.lt_length_of_wait (by rw [hw]; simp)
  have := hall _ hg hb _ (Group.th_mem hl)
  rw [hw] at this
  simp [Ne.symm hm] at this

theorem answers_barb_wait {f : SForm} (h : Issues s w (barbNeed f) c ls)
    (hk : (∃ k < 32, k ∉ ls ∧ (c.grp.th k).wait ≠ .exited ∧ (c.grp.th k).wait ≠ .barB f.imm.toNat) ∨
      (∃ e ∈ c.core.groups, e.1 ≠ c.slot ∧ e.2.blk = c.grp.blk ∧
        ∃ x ∈ e.2.threads, x.wait ≠ .exited ∧ x.wait ≠ .barB f.imm.toNat)) :
    Answers (.barb w f) s (fun t => ∃ g, groupAt t c = some g ∧ KeptRegs c g ∧
      ∀ l ∈ ls, (g.th l).wait = .barB f.imm.toNat ∧ (g.th l).pc = c.pc + 1) := by
  have hst := c.steered_parted ls (.barB f.imm.toNat) (c.pc + 1) true
  generalize hg : c.parted ls (.barB f.imm.toNat) (c.pc + 1) true = g at hst
  have hth := th_parted_barb h f.imm.toNat
  have hwt := wait_parted_barb h f.imm.toNat
  rw [hg] at hth hwt
  obtain ⟨⟨hat, -⟩, -, hin, -⟩ := core_put_of_issues h g
  obtain ⟨l, hl⟩ := List.exists_mem_of_ne_nil ls (ne_nil_of_issues h)
  have hnot : ∀ m < 4, ((s.put c g).core c.site).barReady c.grp.blk m = false := by
    intro m _
    by_cases hm : m = f.imm.toNat
    · subst hm
      rw [Bool.eq_false_iff, ne_eq, Core.barReady_iff]
      rintro ⟨-, hall⟩
      rcases hk with ⟨k, -, hkl, hne, hnb⟩ | ⟨e, he, hes, heb, x, hx, hne, hnb⟩
      · have hw : (Group.th { g with bpSkip := false } k).wait = (c.grp.th k).wait := (hwt k).trans (if_neg hkl)
        have hlt : k < g.threads.length := by rw [hst.length]; exact Group.lt_length_of_wait hne
        have := hall _ (mem_of_mfind hat) hst.blk _ (Group.th_mem (g := { g with bpSkip := false }) hlt)
        rw [hw] at this
        exact this.elim hnb hne
      · exact (hall e (hin e he hes) heb x hx).elim hnb hne
    · refine Core.barReady_of_other (mem_of_mfind hat) hst.blk (l := l) ?_ hm
      exact (hwt l).trans (if_pos hl)
  refine ⟨_, (execBarb_eq w f s).trans (runThread_of_issues _ h), ?_⟩
  rw [hg, State.blockBars_of_not_ready hnot]
  refine ⟨_, hat, hst.keptRegs, fun l hl => ?_⟩
  have := hth l
  rw [if_pos hl] at this
  exact ⟨congrArg Thread.wait this, congrArg Thread.pc this⟩

theorem Thread.wait_unbarred {t : Thread} {m : Nat} (h : t.wait = .barB m ∨ t.wait = .exited) :
    (t.unbarred m).wait = .exited ∨ (t.unbarred m).wait = .run := by
  unfold Thread.unbarred
  split
  · exact .inr rfl
  · rename_i hm; exact .inl (h.resolve_left hm)

theorem answers_barb_done {f : SForm} (h : Issues s w (barbNeed f) c ls) (hc : CleanCommits c)
    (hgrp : ∀ k, k ∈ ls ∨ (c.grp.th k).wait = .exited ∨ (c.grp.th k).wait = .barB f.imm.toNat)
    (hoth : ∀ e ∈ c.core.groups, e.1 ≠ c.slot → e.2.blk = c.grp.blk →
        ∀ x ∈ e.2.threads, x.wait = .exited ∨ x.wait = .barB f.imm.toNat) :
    Answers (.barb w f) s (fun t => ∃ g, groupAt t c = some g ∧ KeptRegs c g ∧
      (∀ l ∈ ls, (g.th l).wait = .run ∧ (g.th l).pc = c.pc + 1) ∧
      (∀ e ∈ (t.core c.site).groups, e.2.blk = c.grp.blk → ∀ x ∈ e.2.threads, x.wait = .exited ∨ x.wait = .run)) := by
  have hst := c.steered_parted ls (.barB f.imm.toNat) (c.pc + 1) true
  generalize hg : c.parted ls (.barB f.imm.toNat) (c.pc + 1) true = g at hst
  have hth := th_parted_barb h f.imm.toNat
  have hwt := wait_parted_barb h f.imm.toNat
  rw [hg] at hth hwt
  obtain ⟨hat, hout, -, hcm⟩ := core_put_of_issues h g
  obtain ⟨l, hl⟩ := List.exists_mem_of_ne_nil ls (ne_nil_of_issues h)
  have hlt : ∀ l ∈ ls, l < g.threads.length := fun l hl => by rw [hst.length]; exact ((lanes_of_issues h).2 l hl).2
  -- every thread of the block waits at the barrier or has exited
  have hall : ∀ e ∈ ((s.put c g).core c.site).groups, e.2.blk = c.grp.blk → ∀ x ∈ e.2.threads,
      x.wait = .barB f.imm.toNat ∨ x.wait = .exited := by
    intro e he heb x hx
    by_cases hes : e.1 = c.slot
    · rw [hat.2 e he hes] at hx
      obtain ⟨k, -, rfl⟩ := Group.mem_threads hx
      have hw : (Group.th { g with bpSkip := false } k).wait = _ := hwt k
      rw [hw]
      split
      · exact .inl rfl
      · rename_i hkl; exact ((hgrp k).resolve_left hkl).symm
    · exact (hoth e (hout e he hes) hes heb x hx).symm
  have hready : ((s.put c g).core c.site).barReady c.grp.blk f.imm.toNat = true :=
    Core.barReady_iff.mpr ⟨⟨_, mem_of_mfind hat.1, hst.blk, _, Group.th_mem (g := { g with bpSkip := false }) (hlt l hl),
      (hwt l).trans (if_pos hl)⟩, hall⟩
  obtain ⟨hgs, -⟩ := State.core_barStep (s := s.put c g) (site := c.site) (b := c.grp.blk) (n := f.imm.toNat) (by rw [hcm]; exact hc)
  have hafter : ∀ e ∈ (((s.put c g).barStep c.site c.grp.blk f.imm.toNat).core c.site).groups, e.2.blk = c.grp.blk →
      ∀ x ∈ e.2.threads, x.wait = .exited ∨ x.wait = .run := by
    intro e he heb x hx
    rw [hgs] at he
    obtain ⟨e', he', rfl⟩ := List.mem_map.mp he
    have heb' : e'.2.blk = c.grp.blk := (e'.2.steered_barStep _ _).blk.symm.trans heb
    dsimp only at hx
    rw [Group.barStep, if_pos heb'] at hx
    obtain ⟨k, hk, rfl⟩ := Group.mem_threads hx
    rw [(e'.2.steered_unbarred _).length] at hk
    rw [Group.th_unbarred]
    exact Thread.wait_unbarred (hall e' he' heb' _ (Group.th_mem hk))
  have hnone : ∀ m, (((s.put c g).barStep c.site c.grp.blk f.imm.toNat).core c.site).barReady c.grp.blk m = false := by
    intro m
    rw [Bool.eq_false_iff, ne_eq, Core.barReady_iff]
    rintro ⟨⟨e, he, heb, x, hx, hw⟩, -⟩
    rcases hafter e he heb x hx with h | h <;> rw [hw] at h <;> simp at h
  have hnot : ∀ m, m ≠ f.imm.toNat → ((s.put c g).core c.site).barReady c.grp.blk m = false := fun m hm =>
    Core.barReady_of_other (mem_of_mfind hat.1) hst.blk (l := l) ((hwt l).trans (if_pos hl)) hm
  refine ⟨_, (execBarb_eq w f s).trans (runThread_of_issues _ h), ?_⟩
  rw [hg, State.blockBars_of_ready (barb_imm h) hready hnot hnone]
  have hblk : Group.blk { g with bpSkip := false } = c.grp.blk := hst.blk
  have hfind : groupAt ((s.put c g).barStep c.site c.grp.blk f.imm.toNat) c =
      some (Group.unbarred f.imm.toNat { g with bpSkip := false }) := by
    rw [groupAt, hgs, (hat.map (Group.barStep c.grp.blk f.imm.toNat)).1, Group.barStep, if_pos hblk]
  have hskip : g.Steered { g with bpSkip := false } := .of_threads rfl rfl rfl rfl
  refine ⟨_, hfind, (hst.trans (hskip.trans (Group.steered_unbarred _ _))).keptRegs, fun l hl => ?_, hafter⟩
  have ht : Group.th { g with bpSkip := false } l = _ := hth l
  rw [if_pos hl] at ht
  rw [Group.th_unbarred, ht, Thread.unbarred, if_pos rfl]
  exact ⟨rfl, rfl⟩

end Issue

/-- Settles O14: the threads that arrive at a barrier wait there until the last one has come, and then all go on. -/
theorem barriers : Obligations.Barriers := by
  unfold Obligations.Barriers
  refine ⟨fun s w f c ls m mask h hmask hm => ?_, fun s w f c ls h hc => ⟨answers_barb_wait h, fun h1 h2 => answers_barb_done h hc h1 h2⟩⟩
  obtain rfl : mask = c.bargMask f := funext hmask
  exact ⟨answers_barg_wait h hm, answers_barg_done h hm, fun l hl => answers_barg_mask h hm hl⟩

end Sys2Proof.Machine
end


section
/-! PROOF. An instruction that moves its path on after other effects (R102), and FENCE (O15). -/

namespace Sys2Proof.Machine

open Sys2Proof.Claims

/-! ## Moving on -/

theorem mmod_const {α : Type} {m : Map α} {i : Nat} {x : α} (f : α → α) (h : mfind m i = some x) : mmod m i f = mmod m i (fun _ => f x) := by
  simp only [mmod, h]

theorem State.modGroup_const {s : State} {site slot : Nat} {g : Group} (f : Group → Group)
    (h : mfind (s.core site).groups slot = some g) : s.modGroup site slot f = s.modGroup site slot (fun _ => f g) := by
  simp only [State.modGroup, State.modCore, mmod_const f h]

/-- Moving on puts the group as it stands one instruction further. -/
theorem State.moveOn_eq_put {s : State} {c : Ctx} {g : Group} (h : mfind (s.core c.site).groups c.slot = some g) :
    s.moveOn c = (s.unstall (.group c.site c.slot)).put c (g.advance c.path c.low c.pc) := by
  have h' : mfind ((s.unstall (.group c.site c.slot)).core c.site).groups c.slot = some g := h
  rw [State.moveOn, State.modGroup_const _ h']; rfl

theorem State.net_put (s : State) (c : Ctx) (g : Group) : (s.put c g).net = s.net := by
  rw [State.put, (State.issued_onlyTraced _ _), (State.beforeCounts_onlyCores _ _)]; rfl

theorem State.mem_put {s : State} {c : Ctx} (g : Group) (hsite : c.site < 4096) (hfar : FarFromWrap s c.site) :
    (s.put c g).mem = s.mem ∧ (s.put c g).poison = s.poison ∧ (s.put c g).hmem = s.hmem := by
  obtain ⟨h, -⟩ := State.issued_of_far (s := s.modGroup c.site c.slot (fun _ => g)) hsite hfar
  have e : s.put c g = _ := h
  rw [e]; exact ⟨rfl, rfl, rfl⟩

theorem FarFromWrap.congr {s t : State} (h : t.regs = s.regs) {site : Nat} (hs : FarFromWrap s site) : FarFromWrap t site := by
  have hr : ∀ b o, t.rg64 b o = s.rg64 b o := fun b o => by simp only [State.rg64, State.rg_congr h]
  simpa only [FarFromWrap, hr] using hs

theorem mayMoveOn {s : State} {w : At} {c : Ctx} (h : Fetches s w c) : KeptRegs c { c.grp.advance c.path c.low c.pc with bpSkip := false } ∧
    KeptPreds c { c.grp.advance c.path c.low c.pc with bpSkip := false } ∧
    MovedOn c { c.grp.advance c.path c.low c.pc with bpSkip := false } :=
  ⟨fun l r => ⟨c.grp.reg_advance _ _ _ l r, c.grp.rpois_advance _ _ _ l r⟩, fun l n => c.grp.pred_advance _ _ _ l n,
    (Group.OnlyValues.refl c.grp).movedOn (issueCtx_of_fetches h)⟩

/-- Where the group stands as it issued, moving on leaves it one instruction further. -/
theorem groupAt_moveOn {s t : State} {w : At} {c : Ctx} (h : Fetches s w c) (ht : mfind (t.core c.site).groups c.slot = some c.grp) :
    ∃ g, groupAt (t.moveOn c) c = some g ∧ KeptRegs c g ∧ KeptPreds c g ∧ MovedOn c g := by
  obtain ⟨hr, hp, hm⟩ := mayMoveOn h
  refine ⟨_, ?_, hr, hp, hm⟩
  rw [State.moveOn_eq_put ht]
  exact State.groupAt_put _ c _ ht

/-- Moving on leaves memory where the counts do not wrap. -/
theorem State.mem_moveOn {t : State} {c : Ctx} {g : Group} (ht : mfind (t.core c.site).groups c.slot = some g) (hsite : c.site < 4096)
    (hfar : FarFromWrap t c.site) : (t.moveOn c).mem = t.mem ∧ (t.moveOn c).poison = t.poison ∧ (t.moveOn c).hmem = t.hmem := by
  rw [State.moveOn_eq_put ht]
  exact State.mem_put _ hsite (FarFromWrap.congr (s := t) rfl hfar)

theorem State.net_moveOn {t : State} {c : Ctx} {g : Group} (ht : mfind (t.core c.site).groups c.slot = some g) :
    (t.moveOn c).net = (t.unstall (.group c.site c.slot)).net := by
  rw [State.moveOn_eq_put ht, State.net_put]

theorem State.core_moveOn {t : State} {c : Ctx} {g : Group} (ht : mfind (t.core c.site).groups c.slot = some g) :
    ∃ bl gs, (t.moveOn c).core c.site = { t.core c.site with rr := (c.slot + 1) % 64, blocks := bl, groups := gs } := by
  rw [State.moveOn_eq_put ht]
  obtain ⟨bl, -, h⟩ := (t.unstall (.group c.site c.slot)).core_put c (g.advance c.path c.low c.pc)
  exact ⟨bl, _, h⟩

/-! ## A commit point with nothing to commit -/

theorem State.commitPoint_of_none {s : State} {site bs : Nat} (h : ∀ x ∈ (s.core site).commit, x.blk ≠ bs)
    (hb : (mfind (s.core site).blocks bs).isSome = true) :
    ∃ k, s.commitPoint site bs = s.setCore site k ∧ k.groups = (s.core site).groups := by
  rw [State.commitPoint_of_clean fun x hx hb => absurd hb (h x hx)]
  obtain ⟨b, hb⟩ := Option.isSome_iff_exists.mp hb
  have hnil : (s.core site).commit.filter (fun x => x.blk == bs) = [] := by
    rw [List.filter_eq_nil_iff]; intro x hx; simpa using h x hx
  unfold State.commitBlock
  simp only [hb, hnil, List.isEmpty_nil, if_true, List.foldl_nil]
  exact ⟨_, rfl, rfl⟩

section Issue

variable {s : State} {w : At} {c : Ctx} {ls : List Nat}

/-- The needs of FENCE. -/
def fenceNeed (f : SForm) : Need := sNeed f false (decide (f.mod.toNat ≤ 2)) (decide (f.imm = 0)) false

theorem execFence_eq (w : At) (f : SForm) (s : State) :
    exec (.fence w f) s = runThread w s (fenceNeed f) (fun c ls =>
      if f.mod = 0 then s.put c (c.grp.advance c.path c.low c.pc)
      else if c.core.commit.any (fun x => x.blk == c.grp.blk) then s.commitPoint c.site c.grp.blk
      else if s.unperformed c ls || (f.mod = 2 && c.working) then s
      else ((s.commitPoint c.site c.grp.blk).dropL1 c.site).moveOn c) := rfl

theorem not_any_of_none (h : ∀ x ∈ c.core.commit, x.blk ≠ c.grp.blk) : c.core.commit.any (fun x => x.blk == c.grp.blk) = false := by
  rw [List.any_eq_false]; intro x hx; simpa using h x hx

/-- FENCE with nothing left to perform empties the L1 and moves on. -/
theorem answers_fence_done {f : SForm} (h : Issues s w (fenceNeed f) c ls) (hm : f.mod ≠ 0) (hno : ∀ x ∈ c.core.commit, x.blk ≠ c.grp.blk)
    (hp : s.unperformed c ls = false) (hw : f.mod = 2 → c.working = false) :
    Answers (.fence w f) s (fun t => (t.core c.site).l1 = [] ∧
      (∀ r ∈ t.net.reqs, r.site = c.site → r.fillL1 = true → r.dropFill = true) ∧
      (FarFromWrap s c.site → t.mem = s.mem) ∧
      ∃ g, groupAt t c = some g ∧ KeptRegs c g ∧ KeptPreds c g ∧ MovedOn c g) := by
  have hf := fetches_of_issues h
  obtain ⟨hcore, hgrp, hblk⟩ := site_slot_of_fetches hf
  have hwork : (s.unperformed c ls || (f.mod = 2 && c.working)) = false := by
    rw [hp, Bool.false_or]
    simpa using hw
  obtain ⟨k, hk, hkg⟩ := State.commitPoint_of_none (s := s) (site := c.site) (bs := c.grp.blk) (hcore ▸ hno) (by simp [hblk])
  have hcr : ((s.setCore c.site k).dropL1 c.site).core c.site = { k with l1 := [] } := by
    change ((s.setCore c.site k).modCore c.site (fun k => { k with l1 := [] })).core c.site = _
    rw [State.core_modCore, if_pos rfl, State.core_setCore, if_pos rfl]
  have hg : mfind (((s.setCore c.site k).dropL1 c.site).core c.site).groups c.slot = some c.grp := by rw [hcr]; exact hkg ▸ hgrp
  refine ⟨((s.setCore c.site k).dropL1 c.site).moveOn c, ?_, ?_, ?_, fun hfar => ?_, groupAt_moveOn hf hg⟩
  · rw [execFence_eq, runThread_of_issues _ h, if_neg hm, not_any_of_none hno, hwork, hk]; rfl
  · obtain ⟨bl, gs, hmv⟩ := State.core_moveOn hg
    rw [hmv, hcr]
  · rw [State.net_moveOn hg]
    intro r hr hsite hfill
    obtain ⟨q, -, rfl⟩ := List.mem_map.mp (show r ∈ ((s.setCore c.site k).dropL1 c.site).net.reqs from hr)
    split
    · rfl
    · rename_i hn
      rw [if_neg hn] at hsite hfill
      exact absurd ⟨hsite, hfill⟩ hn
  · rw [(State.mem_moveOn hg (site_lt_of_fetches hf) (FarFromWrap.congr (s := s) rfl hfar)).1]; rfl

theorem exec_fence_waits {f : SForm} (h : Issues s w (fenceNeed f) c ls) (hm : f.mod ≠ 0) (hno : ∀ x ∈ c.core.commit, x.blk ≠ c.grp.blk)
    (hp : s.unperformed c ls = true ∨ (f.mod = 2 ∧ c.working = true)) : exec (.fence w f) s = .next s := by
  have hwork : (s.unperformed c ls || (f.mod = 2 && c.working)) = true := by
    rcases hp with hp | ⟨h2, hp⟩ <;> simp [hp]
    exact .inr h2
  rw [execFence_eq, runThread_of_issues _ h, if_neg hm, not_any_of_none hno, hwork]; rfl

end Issue

/-- Settles O15: a fence moves on, empties the L1 and moves on, or leaves the group where it is. -/
theorem fenceScopes : Obligations.FenceScopes := by
  unfold Obligations.FenceScopes
  refine fun s w f c ls h => ⟨fun hm => ?_, fun hm hno => ⟨fun ⟨hp, hw⟩ => answers_fence_done h hm hno hp hw, exec_fence_waits h hm hno⟩⟩
  refine ⟨_, (execFence_eq w f s).trans (runThread_of_issues _ h), ?_⟩
  rw [if_pos hm]
  exact onlyMoved_put (fetches_of_issues h)

end Sys2Proof.Machine
end


section
/-! PROOF. Effective addresses and what a memory instruction does with them (R130, R141; O16). -/

namespace Sys2Proof.Machine

open Sys2Proof.Claims

/-! ## Lanes of a memory instruction -/

theorem laneWith_map (ls : List Nat) (ea : Nat → Ea) (k : Nat) :
    laneWith (ls.map (fun l => (l, ea l))) k = ls.find? (fun l => ea l == .exc k) := by
  rw [laneWith, List.find?_map, Option.map_map]
  exact Option.map_id'

theorem find?_eat_map {ls : List Nat} {ea : Nat → Ea} (h : ∀ k ∈ ls, ea k ≠ .eat) :
    (ls.map (fun l => (l, ea l))).find? (fun e => e.2 == .eat) = none := by
  rw [List.find?_map, Option.map_eq_none_iff, List.find?_eq_none]
  intro k hk
  simpa using h k hk

section Issue

variable {s : State} {w : At} {c : Ctx} {ls : List Nat} {n : Need}

/-- A memory instruction takes the lowest exception code that one of its lanes has, in the lowest such lane (R141). -/
theorem runMem_excepts (h : Issues s w n c ls) {space ra size l code : Nat} {off : Int}
    (body : State → Ctx → List (Nat × Nat × Nat) → State) (heat : ∀ k ∈ ls, s.effAddr c space ra off size k ≠ .eat)
    (hcode : code ∈ [3, 4, 5]) (hl : ls.find? (fun k => s.effAddr c space ra off size k == .exc code) = some l)
    (hlow : ∀ x, 3 ≤ x → x < code → ∀ k ∈ ls, s.effAddr c space ra off size k ≠ .exc x) :
    ∃ t, runMem w s n space ra off size body = .next t ∧ Excepts s t c code l 0 := by
  refine ⟨s.raise c code l 0, ?_, excepts_raise (fetches_of_issues h) ..⟩
  have hnone : ∀ x, 3 ≤ x → x < code → ls.find? (fun k => s.effAddr c space ra off size k == .exc x) = none := by
    intro x h3 hx
    rw [List.find?_eq_none]
    intro k hk
    simpa using hlow x h3 hx k hk
  have hsome : [3, 4, 5].findSome? (fun k => (laneWith (ls.map (fun l => (l, s.effAddr c space ra off size l))) k).map
      (fun l => (k, l))) = some (code, l) := by
    simp only [laneWith_map]
    simp only [List.mem_cons, List.not_mem_nil, or_false] at hcode
    rcases hcode with rfl | rfl | rfl <;> simp [List.findSome?, hl, hnone]
  rw [runMem, runThread_of_issues _ h]
  simp only [find?_eat_map heat, hsome]

/-! ## Every memory instruction (R130, R132, R133) -/

/-- One lane of a store: lane, device address, address in its space. -/
def storeOne (f : MForm) (s : State) (c : Ctx) (t : State) (e : Nat × Nat × Nat) : State :=
  let n := f.bytes
  let (lane, a, x) := e
  let (v, p) := c.grp.datum lane (dataRegs f.ud f.d.toNat n) n
  if f.sp = 0 then
    let t := (t.store a (toBytes n v) p).tainted c.blk.cid p
    let t := (t.progress c.site c.blk.cid c.blk.lin c.slot lane).bump64 (.cntCore c.site) 0x018 n
    t.watch c.site c.slot 0 x n true
  else
    let r := { c.req lane s.net.nextSerial .write f.sp x a n with data := BitVec.ofNat 128 v, pois := p }
    let t := t.sendLs c r
    if f.sp = 2 && r.remote.isNone then (t.dropFills c.site a).modCore c.site (fun k => k.l1Store a (toBytes n v) p) else t

/-- A store whose addresses are good. -/
def storeBody (s : State) (f : MForm) (t : State) (c : Ctx) (es : List (Nat × Nat × Nat)) : State :=
  if f.sp ≠ 0 ∧ es.any (c.buffered f.bytes) = true then t.commitPoint c.site c.grp.blk
  else if f.sp ≠ 0 ∧ t.tagsFor c es.length f.bytes = false then t.tagStall c
  else ((es.foldl (storeOne f s c) t).bumpSerial).moveOn c

/-- One lane of an atomic. -/
def atomicOne (op : Nat) (cas : Bool) (f : MForm) (s : State) (c : Ctx) (first : Option Nat) (t : State) (e : Nat × Nat × Nat) : State :=
  let n := f.bytes
  let (lane, a, x) := e
  let b := (c.grp.datum lane (dataRegs false f.b n) n).1
  let cv := if cas then (c.grp.datum lane (dataRegs false f.c n) n).1 else 0
  let writes := f.sx && (!f.ud || decide (first = some lane))
  if f.sp = 0 then
    let old := t.num a n
    let new := atomicNew op n old b cv
    let t := t.store a (toBytes n new) false
    let t := if new = old then t else t.progress c.site c.blk.cid c.blk.lin c.slot lane
    let t := if writes then t.modGroup c.site c.slot (fun g => g.writeData lane (regNo f.ud f.d.toNat) (loadWords n false old) false) else t
    (t.bump64 (.cntCore c.site) 0x018 (2 * n)).watch c.site c.slot 0 x n true
  else
    let t := t.sendLs c { c.req lane s.net.nextSerial (.atomic op) f.sp x a n with
      data := BitVec.ofNat 128 b, cmp := BitVec.ofNat 128 cv, dest := if writes then some f.d.toNat else none
      uni := f.ud }
    if f.sp = 2 then (t.dropFills c.site a).modCore c.site (fun k => k.l1Drop a) else t

/-- An atomic whose addresses are good. -/
def atomicBody (op : Nat) (cas : Bool) (s : State) (f : MForm) (t : State) (c : Ctx) (es : List (Nat × Nat × Nat)) : State :=
  if f.sp ≠ 0 ∧ es.any (c.buffered f.bytes) = true then t.commitPoint c.site c.grp.blk
  else if f.sp ≠ 0 ∧ t.tagsFor c es.length f.bytes = false then t.tagStall c
  else
    match (if f.sp = 0 then es.find? (fun e => t.poisoned e.2.1 f.bytes) else none) with
    | some e => t.consume c e.1
    | none => ((es.foldl (atomicOne op cas f s c (es.head?.map (·.1))) t).bumpSerial).moveOn c

/-- One lane of a reduction. -/
def reduceOne (op : Nat) (f : MForm) (s : State) (c : Ctx) (t : State) (e : Nat × Nat × Nat) : State :=
  let (lane, a, x) := e
  let v := c.grp.reg lane f.b
  let p := c.grp.rpois lane f.b
  let th := c.grp.idx * 32 + lane
  let n := (c.grp.th lane).nred
  let t := t.modGroup c.site c.slot (fun g => g.modTh lane (fun q => { q with nred := n + 1 }))
  let t := if f.sp = 2 then (t.dropFills c.site a).modCore c.site (fun k => k.l1Drop a) else t
  if n < mget 0 c.blk.commits th then t
  else if c.cmd.flag 8 || c.cmd.flag 9 then
    t.sendLs c { c.req lane s.net.nextSerial (.reduce op) f.sp x a f.bytes with
      data := v.setWidth 128, pois := p, red := if c.cmd.flag 9 then some (c.blk.lin, th, n) else none }
  else
    let t := if 4096 ≤ (t.core c.site).commit.length then t.commitAll c.site else t
    t.modCore c.site (fun k => { k with commit := k.commit ++ [⟨c.grp.blk, th, n, c.pc, op, a, v, p⟩] })

/-- A reduction whose addresses are good. -/
def reduceBody (op : Nat) (s : State) (f : MForm) (t : State) (c : Ctx) (es : List (Nat × Nat × Nat)) : State :=
  if t.tagsFor c es.length f.bytes = false then t.tagStall c
  else ((es.foldl (reduceOne op f s c) t).bumpSerial).moveOn c

theorem execLd_eq (w : At) (f : MForm) (s : State) : exec (.ld w f) s =
    runMem w s (loadNeed f) f.sp (regNo f.ua f.a.toNat) f.offset f.bytes (fun t c es => t.load c f (decide (f.sp = 2)) es) := rfl

theorem execLdnc_eq (w : At) (f : MForm) (s : State) : exec (.ldnc w f) s =
    runMem w s (loadNeed f) f.sp (regNo f.ua f.a.toNat) f.offset f.bytes (fun t c es => t.load c f false es) := rfl

theorem execSt_eq (w : At) (f : MForm) (s : State) : exec (.st w f) s =
    runMem w s (storeNeed f) f.sp (regNo f.ua f.a.toNat) f.offset f.bytes (storeBody s f) := rfl

theorem runAtomic_eq (w : At) (s : State) (f : MForm) (op : Nat) (cas wide : Bool) : runAtomic w s f op cas wide =
    runMem w s (atomicNeed f cas wide) f.sp (regNo f.ua f.a.toNat) 0 f.bytes (atomicBody op cas s f) := rfl

theorem runReduce_eq (w : At) (s : State) (f : MForm) (op : Nat) : runReduce w s f op =
    runMem w s (reduceNeed f op) f.sp (regNo f.ua f.a.toNat) 0 f.bytes (reduceBody op s f) := rfl

/-- The memory instructions are runs of one shared operation under their needs and displacements. -/
theorem forall_memoryOps {P : (At → MForm → Instr) × (MForm → Need) × (MForm → Int) → Prop}
    (h : ∀ (i : At → MForm → Instr) (need : MForm → Need) (off : MForm → Int),
      (∃ body : State → MForm → State → Ctx → List (Nat × Nat × Nat) → State,
        ∀ w f s, exec (i w f) s = runMem w s (need f) f.sp (regNo f.ua f.a.toNat) (off f) f.bytes (body s f)) → P (i, need, off)) :
    ∀ p ∈ memoryOps, P p := by
  have ha : ∀ (i : At → MForm → Instr) (op : Nat) (cas wide : Bool), (∀ w f s, exec (i w f) s = runAtomic w s f op cas wide) →
      P (i, fun f => atomicNeed f cas wide, fun _ => 0) := fun i op cas wide hi => by
    exact h _ _ _ ⟨atomicBody op cas, fun w f s => (hi w f s).trans (runAtomic_eq w s f op cas wide)⟩
  have hr : ∀ (i : At → MForm → Instr) (op : Nat), (∀ w f s, exec (i w f) s = runReduce w s f op) →
      P (i, fun f => reduceNeed f op, fun _ => 0) := fun i op hi => by
    exact h _ _ _ ⟨reduceBody op, fun w f s => (hi w f s).trans (runReduce_eq w s f op)⟩
  simp only [memoryOps, atomicOps, reduceOps, List.map_cons, List.map_nil, List.cons_append, List.nil_append, List.forall_mem_cons]
  exact ⟨h _ _ _ ⟨fun _ f t c es => t.load c f (decide (f.sp = 2)) es, execLd_eq⟩, h _ _ _ ⟨fun _ f t c es => t.load c f false es, execLdnc_eq⟩,
    h _ _ _ ⟨storeBody, execSt_eq⟩,
    ha _ 0x90 _ _ fun _ _ _ => rfl, ha _ 0x91 _ _ fun _ _ _ => rfl, ha _ 0x92 _ _ fun _ _ _ => rfl, ha _ 0x93 _ _ fun _ _ _ => rfl,
    ha _ 0x94 _ _ fun _ _ _ => rfl, ha _ 0x95 _ _ fun _ _ _ => rfl, ha _ 0x96 _ _ fun _ _ _ => rfl, ha _ 0x97 _ _ fun _ _ _ => rfl,
    ha _ 0x98 _ _ fun _ _ _ => rfl, ha _ 0x99 _ _ fun _ _ _ => rfl, ha _ 0x9A _ _ fun _ _ _ => rfl,
    hr _ _ fun _ _ _ => rfl, hr _ _ fun _ _ _ => rfl, hr _ _ fun _ _ _ => rfl, hr _ _ fun _ _ _ => rfl, hr _ _ fun _ _ _ => rfl,
    hr _ _ fun _ _ _ => rfl, hr _ _ fun _ _ _ => rfl, hr _ _ fun _ _ _ => rfl, hr _ _ fun _ _ _ => rfl, by simp⟩

end Issue

/-! ## Effective addresses (R130) -/

section Address

variable (s : State) (c : Ctx) (f : MForm) (off : Int) (l : Nat)

theorem laneEa_local (h : f.space = 0) : laneEa s c f off l =
    if ((c.grp.reg l (regNo f.ua f.a.toNat)).toNat + off) % (f.bytes : Nat) ≠ 0 then .exc 3
    else if (c.grp.reg l (regNo f.ua f.a.toNat)).toNat + off < 0 ∨
      (c.blk.lmemUnits * 4096 : Nat) < (c.grp.reg l (regNo f.ua f.a.toNat)).toNat + off + (f.bytes : Nat) then .exc 4
    else .ok (0xF10000000000 + c.site * 0x80000 + c.blk.lmemBase * 4096 + ((c.grp.reg l (regNo f.ua f.a.toNat)).toNat + off).toNat)
      ((c.grp.reg l (regNo f.ua f.a.toNat)).toNat + off).toNat none := by
  have hs : f.sp = 0 := by rw [MForm.sp, h]; rfl
  rw [laneEa, hs]
  simp only [State.effAddr, lmemAddr, lmemBase]
  push_cast
  rfl

theorem laneEa_window (h : f.space = 1) : laneEa s c f off l =
    if ((c.grp.reg l (regNo f.ua f.a.toNat)).toNat + off) % (f.bytes : Nat) ≠ 0 then .exc 3
    else if (c.grp.reg l (regNo f.ua f.a.toNat)).toNat + off < 0 ∨
      ((s.winSize (siteHalf c.site) (siteSlice c.site) * 0x100000 : Nat) : Int) <
        (c.grp.reg l (regNo f.ua f.a.toNat)).toNat + off + (f.bytes : Nat) ∨
      s.winPart (siteHalf c.site) (siteSlice c.site) ≠ c.cmd.part then .exc 4
    else .ok (0xF00000000000 + c.site * 0x400000 + ((c.grp.reg l (regNo f.ua f.a.toNat)).toNat + off).toNat)
      ((c.grp.reg l (regNo f.ua f.a.toNat)).toNat + off).toNat none := by
  have hs : f.sp = 1 := by rw [MForm.sp, h]; rfl
  rw [laneEa, hs]
  simp only [State.effAddr, winBase]
  push_cast
  rfl

/-- The flat address of a pair of registers. -/
def flatAddr (lo hi : W32) (off : Int) : Int := (((lo.toNat : Int) + (hi.toNat : Int) % 65536 * 2 ^ 32) + off) % 2 ^ 48

theorem laneEa_flat (h : f.space = 2) : laneEa s c f off l =
    if flatAddr (c.grp.reg l (regNo f.ua f.a.toNat)) (c.grp.reg l (regNo f.ua f.a.toNat + 1)) off % (f.bytes : Nat) ≠ 0 then .exc 3
    else if (65536 : Int) ≤ (c.grp.reg l (regNo f.ua f.a.toNat + 1)).toNat ∨ s.reach c.cmd.part
      (flatAddr (c.grp.reg l (regNo f.ua f.a.toNat)) (c.grp.reg l (regNo f.ua f.a.toNat + 1)) off).toNat f.bytes = false then .exc 4
    else .ok (flatAddr (c.grp.reg l (regNo f.ua f.a.toNat)) (c.grp.reg l (regNo f.ua f.a.toNat + 1)) off).toNat
      (flatAddr (c.grp.reg l (regNo f.ua f.a.toNat)) (c.grp.reg l (regNo f.ua f.a.toNat + 1)) off).toNat none := by
  have hs : f.sp = 2 := by rw [MForm.sp, h]; rfl
  generalize hx : flatAddr _ _ off = x
  have hx0 : 0 ≤ x := by subst hx; exact Int.emod_nonneg _ (by norm_num)
  have hmod : x % (f.bytes : Nat) ≠ 0 ↔ x.toNat % f.bytes ≠ 0 := by
    obtain ⟨y, rfl⟩ := Int.eq_ofNat_of_zero_le hx0
    simp only [Int.toNat_natCast]
    norm_cast
  have hhi : (65536 : Int) ≤ (c.grp.reg l (regNo f.ua f.a.toNat + 1)).toNat ↔
    65536 ≤ (c.grp.reg l (regNo f.ua f.a.toNat + 1)).toNat := by norm_cast
  simp only [hmod, hhi]
  rw [laneEa, hs]
  simp only [State.effAddr]
  push_cast
  rw [← hx]
  rfl

theorem laneEa_context (h : f.space = 3) :
    (((c.grp.reg l (regNo f.ua f.a.toNat + 1)).toNat + off) % (f.bytes : Nat) ≠ 0 → laneEa s c f off l = .exc 3) ∧
    (((c.grp.reg l (regNo f.ua f.a.toNat + 1)).toNat + off) % (f.bytes : Nat) = 0 →
      (c.grp.reg l (regNo f.ua f.a.toNat + 1)).toNat + off < 0 → laneEa s c f off l = .exc 5) := by
  have hs : f.sp = 3 := by rw [MForm.sp, h]; rfl
  rw [laneEa, hs]
  simp only [State.effAddr]
  exact ⟨fun h => if_pos h, fun h1 h2 => by rw [if_neg (by simpa using h1), if_pos h2]⟩

end Address

/-- Settles O16: a memory instruction takes the lowest exception among its lanes, whose addresses are those of their space. -/
theorem addressesAndTheirExceptions : Obligations.AddressesAndTheirExceptions := by
  unfold Obligations.AddressesAndTheirExceptions
  refine ⟨forall_memoryOps fun i need off ⟨body, hi⟩ s w f c ls l code h heat hcode hl hlow => ?_, fun s c f off l => ?_⟩
  · rw [Answers, hi]
    exact runMem_excepts h _ heat hcode hl hlow
  · exact ⟨laneEa_local s c f off l, laneEa_window s c f off l, laneEa_flat s c f off l, laneEa_context s c f off l⟩

end Sys2Proof.Machine
end


section
/-! PROOF. TWAIT, DWAIT, ESPLD and DMA (O22). -/

namespace Sys2Proof.Machine

open Sys2Proof.Claims

theorem State.esp_of_bare {s t : State} (h : t.bare = s.bare) (i : Nat) : (t.core i).esp = (s.core i).esp :=
  show (t.core i).bare.esp = (s.core i).bare.esp from congrArg Core.esp (State.core_bare h i)

section Issue

variable {s : State} {w : At} {c : Ctx} {ls : List Nat} {n : Need}

/-! ## Waiting for tiles and copies -/

/-- After a commit point that consumes no poison the path moves on. -/
theorem groupAt_moveOn_commitPoint (h : Fetches s w c) (hc : CleanCommits c) :
    ∃ g, groupAt ((s.commitPoint c.site c.grp.blk).moveOn c) c = some g ∧ KeptRegs c g ∧ KeptPreds c g ∧ MovedOn c g := by
  obtain ⟨hcore, hgrp, -⟩ := site_slot_of_fetches h
  refine groupAt_moveOn h ?_
  rw [(State.core_commitPoint (s := s) (site := c.site) (bs := c.grp.blk) (hcore ▸ hc)).1]
  exact hgrp

/-- An instruction that waits while more of its group's work is under way than it allows. -/
theorem answers_wait {i : Instr} {k : Nat} {m : Ctx → Nat}
    (he : exec i s = runThread w s n (fun c _ => if k < m c then s else (s.commitPoint c.site c.grp.blk).moveOn c))
    (h : Issues s w n c ls) (hc : CleanCommits c) :
    (m c ≤ k → Answers i s (fun t => ∃ g, groupAt t c = some g ∧ KeptRegs c g ∧ KeptPreds c g ∧ MovedOn c g)) ∧
      (k < m c → exec i s = .next s) := by
  rw [runThread_of_issues _ h] at he
  refine ⟨fun hm => ⟨_, he, ?_⟩, fun hm => by rw [he, if_pos hm]⟩
  rw [if_neg (Nat.not_lt.mpr hm)]
  exact groupAt_moveOn_commitPoint (fetches_of_issues h) hc

/-- The needs of an instruction that waits for its group's work. -/
def waitNeed (f : TForm) (most : Nat) : Need := tNeed f 0 1 (decide (f.mod = 0)) (decide (f.imm.toNat < most))

theorem execTwait_eq (w : At) (f : TForm) (s : State) : exec (.twait w f) s = runThread w s (waitNeed f 4) (fun c _ =>
    if f.imm.toNat < (c.core.arr.tiles.filter (fun t => t.group == c.slot)).length then s
    else (s.commitPoint c.site c.grp.blk).moveOn c) := rfl

theorem execDwait_eq (w : At) (f : TForm) (s : State) : exec (.dwait w f) s = runThread w s (waitNeed f 8) (fun c _ =>
    if f.imm.toNat < (c.core.dma.filter (fun j => j.group == c.slot)).length then s
    else (s.commitPoint c.site c.grp.blk).moveOn c) := rfl

/-! ## Image loads -/

/-- The next load starts with the group, the space and the address it was asked for with. -/
theorem mem_espNext {k : Core} {l : EspLoad} (h : l ∈ k.esp.load.toList ++ k.esp.waiting) :
    ∃ x ∈ k.espNext.esp.load.toList ++ k.espNext.esp.waiting, x.group = l.group ∧ x.space = l.space ∧ x.addr = l.addr := by
  unfold Core.espNext
  split
  case h_1 l' ls i is hload hwait hfree =>
    rw [hload, hwait] at h
    rcases List.mem_cons.mp h with rfl | h
    · exact ⟨_, List.mem_cons_self .., rfl, rfl, rfl⟩
    · exact ⟨l, List.mem_cons_of_mem _ h, rfl, rfl, rfl⟩
  case h_2 => exact ⟨l, h, rfl, rfl, rfl⟩

theorem State.core_modEsp (s : State) (site : Nat) (f : Esp → Esp) : ((s.modEsp site f).core site).groups = (s.core site).groups ∧
    ((s.modEsp site f).core site).esp = f (s.core site).esp := by
  have hb : (s.modEsp site f).bare = _ := State.bare_espSync _ site
  refine ⟨(State.groups_of_bare hb site).trans ?_, (State.esp_of_bare hb site).trans ?_⟩
  · rw [State.core_modCore, if_pos rfl]
  · rw [State.core_modCore, if_pos rfl]

theorem State.core_espStart (s : State) (site : Nat) : ((s.espStart site).core site).groups = (s.core site).groups ∧
    ((s.espStart site).core site).esp = (s.core site).espNext.esp := by
  have hb : (s.espStart site).bare = _ := State.bare_espSync _ site
  refine ⟨(State.groups_of_bare hb site).trans ?_, (State.esp_of_bare hb site).trans ?_⟩
  · rw [State.core_modCore, if_pos rfl, Core.espNext_eq]
  · rw [State.core_modCore, if_pos rfl]

/-- The load that ESPLD asks for. -/
def Ctx.espLoad (c : Ctx) (f : TForm) (ls : List Nat) : EspLoad :=
  { group := some c.slot, cid := some c.blk.cid, space := f.mod.toNat
    addr := (mget 0 c.grp.uregs f.ubase.toNat).toNat + 2 ^ 32 * getF 15 0 (mget 0 c.grp.uregs (f.ubase.toNat + 1))
    slot := 0, lane := ls.headD c.low, index := c.pc }

/-- The needs of ESPLD. -/
def espldNeed (f : TForm) : Need := tNeed f 2 2 (decide (f.mod.toNat ≤ 2)) (decide (f.imm = 0))

theorem execEspld_eq (w : At) (f : TForm) (s : State) : exec (.espld w f) s = runThread w s (espldNeed f) (fun c ls =>
    (((s.modEsp c.site (fun e => { e with waiting := e.waiting ++ [c.espLoad f ls] })).modGroup c.site c.slot
      (fun g => { g.advance c.path c.low c.pc with espWait := true })).issued c).espStart c.site) := rfl

theorem answers_espld {f : TForm} (h : Issues s w (espldNeed f) c ls) : Answers (.espld w f) s (fun t =>
      (∃ g, groupAt t c = some g ∧ KeptRegs c g ∧ g.espWait = true ∧ ∀ l ∈ c.path, (g.th l).pc = c.pc + 1) ∧
      ∃ x ∈ (t.core c.site).esp.load.toList ++ (t.core c.site).esp.waiting, x.group = some c.slot ∧
        x.space = f.mod.toNat ∧ x.addr = (mget 0 c.grp.uregs f.ubase.toNat).toNat +
          2 ^ 32 * ((mget 0 c.grp.uregs (f.ubase.toNat + 1)).toNat % 65536)) := by
  have hf := fetches_of_issues h
  obtain ⟨-, hgrp, -⟩ := site_slot_of_fetches hf
  obtain ⟨hr, -, hm⟩ := mayMoveOn hf
  have hs₁ := s.core_modEsp c.site (fun e => { e with waiting := e.waiting ++ [c.espLoad f ls] })
  refine ⟨_, (execEspld_eq w f s).trans (runThread_of_issues _ h), ?_⟩
  generalize s.modEsp c.site _ = s₁ at hs₁ ⊢
  obtain ⟨hg₁, he₁⟩ := hs₁
  rw [← hg₁] at hgrp
  rw [State.modGroup_const _ hgrp]
  obtain ⟨hgs, hes⟩ := (s₁.put c { c.grp.advance c.path c.low c.pc with espWait := true }).core_espStart c.site
  refine ⟨⟨_, (congrArg (mfind · c.slot) hgs).trans (State.groupAt_put _ c _ hgrp), hr, rfl, fun l hl => ?_⟩, ?_⟩
  · have := congrArg Thread.pc (hm.2.1 l)
    exact this.trans (if_pos hl)
  · have hkept : ((s₁.put c { c.grp.advance c.path c.low c.pc with espWait := true }).core c.site).esp = (s₁.core c.site).esp := by
      obtain ⟨bl, -, hb⟩ := s₁.core_put c { c.grp.advance c.path c.low c.pc with espWait := true }
      rw [hb]
    have hmem : c.espLoad f ls ∈ ((s₁.put c { c.grp.advance c.path c.low c.pc with espWait := true }).core c.site).esp.load.toList ++
        ((s₁.put c { c.grp.advance c.path c.low c.pc with espWait := true }).core c.site).esp.waiting := by
      rw [hkept, he₁]; simp
    obtain ⟨x, hx, hgroup, hspace, haddr⟩ := mem_espNext hmem
    exact ⟨x, hes ▸ hx, hgroup, hspace, haddr.trans (by simp [Ctx.espLoad, getF, fld])⟩

/-! ## Copies -/

/-- The needs of DMA. -/
def dmaNeed (f : TForm) : Need := tNeed f 8 8 (decide (f.mod = 0)) (decide (f.imm = 0))

/-- What the pieces of an operand keep a copy from: 0 for poison, else an exception code. -/
def pieceCode (ps : List Piece) : Option Nat :=
  if ps.contains .eat then some 0 else ps.findSome? (fun p => match p with | .bad x => some x | _ => none)

theorem pieceCode_of_good {ps : List Piece} (h : ∀ q ∈ ps, q ≠ .eat ∧ ∀ code, q ≠ .bad code) : pieceCode ps = none := by
  have heat : Piece.eat ∉ ps := fun he => (h _ he).1 rfl
  rw [pieceCode, if_neg (by simpa using heat), List.findSome?_eq_none_iff]
  intro q hq
  cases q with
  | bad x => exact absurd rfl ((h _ hq).2 x)
  | _ => rfl

/-- The copy that a DMA instruction starts. -/
def Ctx.dmaJob (c : Ctx) (f : TForm) (ls : List Nat) : DmaJob :=
  let u (i : Nat) : W32 := mget 0 c.grp.uregs (f.ubase.toNat + i)
  ⟨c.core.nextDma, c.slot, c.grp.blk, c.blk.cid, ls.headD c.low, c.pc, locOf (u 0) (u 1), locOf (u 2) (u 3), (u 4).toNat⟩

/-- The state after a copy has started. -/
def State.startDma (s : State) (c : Ctx) (j : DmaJob) : State :=
  (s.modCore c.site (fun k => { k with dma := k.dma ++ [j], nextDma := k.nextDma + 1 })).moveOn c

theorem exec_dma_waits {f : TForm} (h : Issues s w (dmaNeed f) c ls)
    (hn : 4 ≤ (c.core.dma.filter (fun j => j.group == c.slot)).length) : exec (.dma w f) s = .next s := by
  change execDma w f s = _
  unfold execDma
  refine (runThread_of_issues _ h).trans ?_
  dsimp only
  rw [if_pos hn]

theorem exec_dma_starts {f : TForm} (h : Issues s w (dmaNeed f) c ls) (u : Nat → W32)
    (hu : ∀ i, u i = mget 0 c.grp.uregs (f.ubase.toNat + i))
    (hd : dmaBad (locOf (u 0) (u 1)) (locOf (u 2) (u 3)) (u 4).toNat (u 5 ||| u 6 ||| u 7) = false)
    (hp : ∀ x ∈ [locOf (u 0) (u 1), locOf (u 2) (u 3)], ∀ q ∈ s.pieces (engOf c.site 69 c.core.nextDma c.blk c.cmd c.pc)
      x.space x.addr (u 4).toNat, q ≠ .eat ∧ ∀ code, q ≠ .bad code)
    (hn : (c.core.dma.filter (fun j => j.group == c.slot)).length < 4) :
    exec (.dma w f) s = .next (s.startDma c (c.dmaJob f ls)) := by
  have hlen : max (u 4).toNat 1 = (u 4).toNat := by
    have : (u 4).toNat ≠ 0 := by
      intro h0
      simp [dmaBad, h0] at hd
    omega
  change execDma w f s = _
  unfold execDma
  refine (runThread_of_issues _ h).trans ?_
  dsimp only
  simp only [← hu]
  rw [if_neg (Nat.not_le.mpr hn), List.filterMap_eq_nil_iff.mpr ?good, hd]
  case good =>
    intro ps hps
    refine pieceCode_of_good ?_
    rw [hlen] at hps
    rcases List.mem_cons.mp hps with rfl | hps
    · exact hp _ (by simp)
    · split at hps
      · exact absurd hps (by simp)
      · rw [List.mem_singleton.mp hps]
        exact hp _ (by simp)
  simp only [List.contains_nil, Bool.false_eq_true, if_false]
  have hj : c.dmaJob f ls = ⟨c.core.nextDma, c.slot, c.grp.blk, c.blk.cid, ls.headD c.low, c.pc, locOf (u 0) (u 1), locOf (u 2) (u 3),
      (u 4).toNat⟩ := by simp only [Ctx.dmaJob, hu]
  rw [hj, State.startDma, (site_slot_of_fetches (fetches_of_issues h)).1]
  rfl

theorem answers_dma {f : TForm} (h : Issues s w (dmaNeed f) c ls) (u : Nat → W32)
    (hu : ∀ i, u i = mget 0 c.grp.uregs (f.ubase.toNat + i))
    (hd : dmaBad (locOf (u 0) (u 1)) (locOf (u 2) (u 3)) (u 4).toNat (u 5 ||| u 6 ||| u 7) = false)
    (hp : ∀ x ∈ [locOf (u 0) (u 1), locOf (u 2) (u 3)], ∀ q ∈ s.pieces (engOf c.site 69 c.core.nextDma c.blk c.cmd c.pc)
      x.space x.addr (u 4).toNat, q ≠ .eat ∧ ∀ code, q ≠ .bad code)
    (hn : (c.core.dma.filter (fun j => j.group == c.slot)).length < 4) :
    Answers (.dma w f) s (fun t =>
        (∃ g, groupAt t c = some g ∧ KeptRegs c g ∧ KeptPreds c g ∧ MovedOn c g) ∧ SameNet s t ∧
        (t.core c.site).dma = c.core.dma ++ [⟨c.core.nextDma, c.slot, c.grp.blk, c.blk.cid, ls.headD 0, c.pc,
          locOf (u 0) (u 1), locOf (u 2) (u 3), (u 4).toNat⟩]) := by
  have hf := fetches_of_issues h
  obtain ⟨hcore, hgrp, -⟩ := site_slot_of_fetches hf
  refine ⟨_, exec_dma_starts h u hu hd hp hn, ?_⟩
  let k : Core := { s.core c.site with dma := (s.core c.site).dma ++ [c.dmaJob f ls], nextDma := (s.core c.site).nextDma + 1 }
  have hk : (s.setCore c.site k).core c.site = k := by rw [State.core_setCore, if_pos rfl]
  have hg : mfind ((s.setCore c.site k).core c.site).groups c.slot = some c.grp := by rw [hk]; exact hgrp
  have hstart : s.startDma c (c.dmaJob f ls) = (s.setCore c.site k).moveOn c := rfl
  rw [hstart]
  refine ⟨groupAt_moveOn hf hg, ?_, ?_⟩
  · rw [SameNet, State.net_moveOn hg]; rfl
  · obtain ⟨bl, gs, hmv⟩ := State.core_moveOn hg
    rw [hmv, hk]
    simp only [k, Ctx.dmaJob, hu, hcore, headD_of_issues h c.low 0]

end Issue

/-- Settles O22: waits against the counts, a load that starts or waits, and a copy under its number. -/
theorem copiesLoadsAndTheirWaits : Obligations.CopiesLoadsAndTheirWaits := by
  unfold Obligations.CopiesLoadsAndTheirWaits
  refine ⟨⟨fun s w f c ls h hc => answers_wait (execTwait_eq w f s) h hc, fun s w f c ls h hc => answers_wait (execDwait_eq w f s) h hc⟩,
    fun s w f c ls h => answers_espld h, fun s w f c ls u h hu hd hp => ⟨answers_dma h u hu hd hp, exec_dma_waits h⟩⟩

end Sys2Proof.Machine
end


section
/-! PROOF. What the cells hold, and what the planes of a pass add up to (O24). -/

namespace Sys2Proof.Machine

open Sys2Proof.Claims

/-! ## Weights in their cells (R26, R27) -/

theorem nth_eq_getD {α : Type} (d : α) (l : List α) (n : Nat) : nth d l n = l[n]?.getD d := by
  induction l generalizing n with
  | nil => simp [nth]
  | cons x xs ih => cases n with
    | zero => simp [nth]
    | succ n => simp [nth, ih]

theorem nth_map_upTo {α : Type} (d : α) (f : Nat → α) {n c : Nat} (h : c < n) : nth d ((upTo 0 n).map f) c = f c := by
  rw [nth_eq_getD, List.getElem?_map]
  simp [upTo_eq_range', h]

/-- The low n bits of a number in the signed range of n bits give it back. -/
theorem sint_emod (n : Nat) (hn : 0 < n) {w : Int} (hl : -(2 : Int) ^ (n - 1) ≤ w) (hu : w < 2 ^ (n - 1)) :
    sint n (w % 2 ^ n).toNat = w := by
  obtain ⟨m, rfl⟩ : ∃ m, n = m + 1 := ⟨n - 1, by omega⟩
  simp only [Nat.add_sub_cancel] at hl hu
  have h2 : (2 : Int) ^ (m + 1) = 2 * 2 ^ m := by rw [pow_succ]; ring
  have hpos : (0 : Int) < 2 ^ m := by positivity
  have hnat : (2 : Nat) ^ (m + 1) = 2 * 2 ^ m := by rw [pow_succ]; ring
  have hcast : ((2 ^ m : Nat) : Int) = 2 ^ m := by push_cast; rfl
  simp only [sint, Nat.add_sub_cancel]
  rw [h2, hnat]
  rcases le_or_gt 0 w with h0 | h0
  · have he : w % (2 * 2 ^ m) = w := Int.emod_eq_of_lt h0 (by omega)
    rw [he, Nat.mod_eq_of_lt (by omega), if_pos (by omega)]
    omega
  · have he : w % (2 * 2 ^ m) = w + 2 * 2 ^ m := by
      rw [← Int.add_emod_right, Int.emod_eq_of_lt (by omega) (by omega)]
    rw [he, Nat.mod_eq_of_lt (by omega), if_neg (by omega)]
    push_cast
    omega

/-- The cells of one byte, side by side. -/
def slotByte (bw : Nat) (v : Nat → Nat) : Nat := (upTo 0 (8 / bw)).foldl (fun x i => x + v i * 2 ^ (bw * i)) 0

/-- Each slot of a byte holds its own bits. -/
theorem slot_slotByte {bw : Nat} (hbw : bw = 2 ∨ bw = 4 ∨ bw = 8) {v : Nat → Nat} (hv : ∀ i, v i < 2 ^ bw) {i : Nat} (hi : i < 8 / bw) :
    slotByte bw v % 256 / 2 ^ (bw * i) % 2 ^ bw = v i := by
  have h0 := hv 0
  have h1 := hv 1
  have h2 := hv 2
  have h3 := hv 3
  rcases hbw with rfl | rfl | rfl
  · rw [slotByte, show upTo 0 (8 / 2) = [0, 1, 2, 3] from rfl]
    interval_cases i <;> simp only [List.foldl, Nat.reduceMul, Nat.reducePow] <;> omega
  · rw [slotByte, show upTo 0 (8 / 4) = [0, 1] from rfl]
    interval_cases i <;> simp only [List.foldl, Nat.reduceMul, Nat.reducePow] <;> omega
  · rw [slotByte, show upTo 0 (8 / 8) = [0] from rfl]
    interval_cases i
    simp only [List.foldl, Nat.reduceMul, Nat.reducePow]
    omega

theorem packSlots_of_narrow {bw : Nat} (h16 : bw ≠ 16) (ws : List Int) : packSlots bw ws = (upTo 0 (cdiv ws.length (8 / bw))).map (fun c =>
    BitVec.ofNat 8 (slotByte bw fun i => (nth 0 ws (8 / bw * c + i) % (2 : Int) ^ bw).toNat)) := by
  rw [packSlots, if_neg h16]; rfl

theorem lowWeight_of_narrow {bw : Nat} (hbw : bw = 2 ∨ bw = 4 ∨ bw = 8) {ws : List Int} {n : Nat} {w : Int} (hw : ws[n]? = some w)
    (hl : -(2 : Int) ^ (bw - 1) ≤ w) (hu : w < 2 ^ (bw - 1)) : lowWeight bw (packSlots bw ws) n = w := by
  have h16 : bw ≠ 16 := by omega
  have hk : 0 < 8 / bw := by rcases hbw with rfl | rfl | rfl <;> decide
  have hlen : n < ws.length := (List.getElem?_eq_some_iff.mp hw).1
  have hc : n / (8 / bw) < cdiv ws.length (8 / bw) := by
    rw [cdiv, Nat.div_lt_iff_lt_mul hk]
    have := Nat.div_add_mod (ws.length + 8 / bw - 1) (8 / bw)
    have := Nat.mod_lt (ws.length + 8 / bw - 1) hk
    rw [Nat.mul_comm]
    omega
  have hv : ∀ i, (nth 0 ws (8 / bw * (n / (8 / bw)) + i) % (2 : Int) ^ bw).toNat < 2 ^ bw := by
    intro i
    have hpos : (0 : Int) < 2 ^ bw := by positivity
    have h1 := Int.emod_lt_of_pos (nth 0 ws (8 / bw * (n / (8 / bw)) + i)) hpos
    have h0 := Int.emod_nonneg (nth 0 ws (8 / bw * (n / (8 / bw)) + i)) hpos.ne'
    have : ((2 ^ bw : Nat) : Int) = 2 ^ bw := by push_cast; rfl
    omega
  rw [lowWeight, if_neg h16, packSlots_of_narrow h16, nth_map_upTo _ _ hc, BitVec.toNat_ofNat]
  rw [slot_slotByte hbw hv (Nat.mod_lt n hk), Nat.div_add_mod, nth_eq_getD, hw, Option.getD_some]
  exact sint_emod bw (by omega) hl hu

theorem nth_pairs (ws : List Int) (f g : Int → Byte) (n : Nat) {w : Int} (hw : ws[n]? = some w) :
    nth 0 (ws.flatMap (fun w => [f w, g w])) (2 * n) = f w ∧ nth 0 (ws.flatMap (fun w => [f w, g w])) (2 * n + 1) = g w := by
  induction ws generalizing n with
  | nil => simp at hw
  | cons x xs ih => cases n with
    | zero =>
      obtain rfl : x = w := by simpa using hw
      exact ⟨rfl, rfl⟩
    | succ n => exact ih n (by simpa using hw)

/-- The two cells of a pair make up its 16 bits. -/
theorem weight_of_pair {ws : List Int} {n : Nat} {w : Int} (hw : ws[n]? = some w) (hl : -(2 : Int) ^ 15 ≤ w) (hu : w < 2 ^ 15) :
    highWeight 16 (packSlots 16 ws) n * 256 + lowWeight 16 (packSlots 16 ws) n = w := by
  obtain ⟨hlo, hhi⟩ := nth_pairs ws (fun w => BitVec.ofInt 8 w) (fun w => BitVec.ofInt 8 (w / 256)) n hw
  simp only [highWeight, lowWeight, packSlots, if_true]
  rw [hlo, hhi, BitVec.toNat_ofInt, BitVec.toNat_ofInt]
  have hs := sint_emod 8 (by decide) (w := w / 256) (by omega) (by omega)
  simp only [Int.reducePow] at hs
  push_cast
  rw [hs]
  omega

theorem weights_held {bw : Nat} (hbw : bw ∈ [2, 4, 8, 16]) {ws : List Int} {n : Nat} {w : Int} (hw : ws[n]? = some w)
    (hl : -(2 : Int) ^ (bw - 1) ≤ w) (hu : w < 2 ^ (bw - 1)) :
    highWeight bw (packSlots bw ws) n * 256 + lowWeight bw (packSlots bw ws) n = w := by
  by_cases h16 : bw = 16
  · subst h16
    exact weight_of_pair hw hl hu
  · have hn : bw = 2 ∨ bw = 4 ∨ bw = 8 := by simp at hbw; omega
    rw [highWeight, if_neg h16, lowWeight_of_narrow hn hw hl hu]
    ring

/-! ## Planes (R28) -/

/-- What plane j counts for: its bit, and the sign plane negatively. -/
def planeValue (ba j : Nat) : Int := if j + 1 = ba then -2 ^ j else 2 ^ j

theorem planeSum_cons (ba j : Nat) (a w : Int) (as ws : List Int) :
    planeSum ba j (a :: as) (w :: ws) = planeBit ba a j * w + planeSum ba j as ws := by
  have hfold : ∀ (l : List (Int × Int)) (x : Int), l.foldl (fun s x => if planeBit ba x.1 j = 1 then s + x.2 else s) x =
      x + l.foldl (fun s x => if planeBit ba x.1 j = 1 then s + x.2 else s) 0 := by
    intro l
    induction l with
    | nil => simp
    | cons y l ih =>
      intro x
      simp only [List.foldl_cons]
      rw [ih, ih (if planeBit ba y.1 j = 1 then 0 + y.2 else 0)]
      split <;> ring
  have hbit : planeBit ba a j = 0 ∨ planeBit ba a j = 1 := by unfold planeBit; omega
  rw [planeSum, List.zip_cons_cons, List.foldl_cons, hfold, planeSum]
  rcases hbit with h | h <;> simp [h]

theorem accumulate_eq_sum (ba : Nat) (as ws : List Int) :
    accumulate ba as ws = ((List.range ba).map fun j => planeSum ba j as ws * planeValue ba j).sum := by
  have h : ∀ (l : List Nat) (x : Int), l.foldl (fun acc j =>
      if j + 1 = ba then acc - planeSum ba j as ws * 2 ^ j else acc + planeSum ba j as ws * 2 ^ j) x =
      x + (l.map fun j => planeSum ba j as ws * planeValue ba j).sum := by
    intro l
    induction l with
    | nil => simp
    | cons j l ih =>
      intro x
      rw [List.foldl_cons, ih, List.map_cons, List.sum_cons, planeValue]
      split <;> ring
  rw [accumulate, h, upTo_eq_range', ← List.range_eq_range', zero_add]

/-- The low m bits of a number, each for its value. -/
theorem sum_bits (y m : Nat) : ((List.range m).map fun j => ((y / 2 ^ j % 2 : Nat) : Int) * 2 ^ j).sum = (y % 2 ^ m : Nat) := by
  induction m with
  | zero => simp [Nat.mod_one]
  | succ m ih =>
    rw [List.range_succ, List.map_append, List.sum_append, ih, List.map_cons, List.map_nil, List.sum_singleton, Nat.mod_pow_succ]
    push_cast
    ring

/-- The planes of a number in the signed range of its bits, each for what it counts, give the number. -/
theorem sum_planes {ba : Nat} (hba : 0 < ba) {a : Int} (hl : -(2 : Int) ^ (ba - 1) ≤ a) (hu : a < 2 ^ (ba - 1)) :
    ((List.range ba).map fun j => (planeBit ba a j : Int) * planeValue ba j).sum = a := by
  obtain ⟨m, rfl⟩ : ∃ m, ba = m + 1 := ⟨ba - 1, by omega⟩
  have hlow : (List.range m).map (fun j => (planeBit (m + 1) a j : Int) * planeValue (m + 1) j) =
      (List.range m).map fun j => (((a % (2 : Int) ^ (m + 1)).toNat / 2 ^ j % 2 : Nat) : Int) * 2 ^ j := by
    refine List.map_congr_left fun j hj => ?_
    have : j < m := List.mem_range.mp hj
    rw [planeValue, if_neg (by omega), planeBit]
  have hs := sint_emod (m + 1) hba hl hu
  have hy : (a % (2 : Int) ^ (m + 1)).toNat < 2 ^ (m + 1) := by
    have hpos : (0 : Int) < 2 ^ (m + 1) := by positivity
    have h1 := Int.emod_lt_of_pos a hpos
    have : ((2 ^ (m + 1) : Nat) : Int) = 2 ^ (m + 1) := by push_cast; rfl
    have h0 := Int.emod_nonneg a hpos.ne'
    omega
  rw [List.range_succ, List.map_append, List.sum_append, hlow, sum_bits, List.map_cons, List.map_nil, List.sum_singleton, planeValue,
    if_pos rfl, planeBit]
  generalize (a % (2 : Int) ^ (m + 1)).toNat = y at hs hy
  rw [← hs, sint, Nat.mod_eq_of_lt hy, Nat.add_sub_cancel]
  have hdiv := Nat.div_add_mod y (2 ^ m)
  have hpow : 2 ^ (m + 1) = 2 * 2 ^ m := by rw [pow_succ]; ring
  have hpos : 0 < 2 ^ m := by positivity
  by_cases hy2 : y < 2 ^ m
  · rw [if_pos hy2, Nat.mod_eq_of_lt hy2, Nat.div_eq_of_lt hy2]
    simp
  · have hone : y / 2 ^ m = 1 := Nat.div_eq_of_lt_le (by omega) (by omega)
    rw [if_neg hy2, hone]
    rw [hone] at hdiv
    have hcast : ((2 ^ m : Nat) : Int) = 2 ^ m := by push_cast; rfl
    have hint : ((2 ^ m * 1 + y % 2 ^ m : Nat) : Int) = y := by rw [hdiv]
    rw [Nat.cast_add, Nat.cast_mul, hcast, Nat.cast_one] at hint
    rw [show ((1 % 2 : Nat) : Int) = 1 from rfl, pow_succ]
    linarith

theorem accumulate_cons {ba : Nat} (hba : 0 < ba) {a : Int} (hl : -(2 : Int) ^ (ba - 1) ≤ a) (hu : a < 2 ^ (ba - 1)) (w : Int)
    (as ws : List Int) : accumulate ba (a :: as) (w :: ws) = a * w + accumulate ba as ws := by
  have hsplit : (fun j => planeSum ba j (a :: as) (w :: ws) * planeValue ba j) =
      fun j => (planeBit ba a j : Int) * planeValue ba j * w + planeSum ba j as ws * planeValue ba j := by
    funext j
    rw [planeSum_cons]
    ring
  rw [accumulate_eq_sum, hsplit, List.sum_map_add, List.sum_map_mul_right, sum_planes hba hl hu, accumulate_eq_sum]

/-- The planes of a block of activations give the exact sum of products. -/
theorem accumulate_eq {ba : Nat} (hba : 0 < ba) {as : List Int} (h : ∀ a ∈ as, -(2 : Int) ^ (ba - 1) ≤ a ∧ a < 2 ^ (ba - 1)) (ws : List Int) :
    accumulate ba as ws = (List.zipWith (fun a w => a * w) as ws).sum := by
  have hnil : ∀ as ws : List Int, as.zip ws = [] → accumulate ba as ws = 0 := by
    intro as ws hz
    rw [accumulate_eq_sum]
    simp [planeSum, hz]
  induction as generalizing ws with
  | nil => exact hnil [] ws rfl
  | cons a as ih =>
    cases ws with
    | nil => exact hnil _ [] (by simp)
    | cons w ws =>
      obtain ⟨ha, has⟩ := List.forall_mem_cons.mp h
      rw [accumulate_cons hba ha.1 ha.2, ih has, List.zipWith_cons_cons, List.sum_cons]

/-! ## Elements (R41, R44) -/

theorem DVal.add_int (x : Int) (q : Option W32) (p : Bool) (cs : List ColAcc) :
    DVal.add (.int x q, p) cs = (.int (x + (cs.map ColAcc.total).sum) q, p || cs.any (·.pois)) := by
  induction cs generalizing x p with
  | nil => simp [DVal.add]
  | cons c cs ih =>
    rw [DVal.add, List.foldl_cons]
    refine (ih (x + c.total) (p || c.pois)).trans ?_
    rw [List.map_cons, List.sum_cons, List.any_cons, Bool.or_assoc, add_assoc]

/-- Settles O24: slots and pairs hold their weights, the planes add up to the products, and partials enter an integer element exactly. -/
theorem partialsAreExact : Obligations.PartialsAreExact := by
  unfold Obligations.PartialsAreExact
  refine ⟨fun bw hbw ws n w hw hl hu => weights_held hbw hw hl hu, fun ba as ws hba h => accumulate_eq hba h ws,
    DVal.add_int, fun c => ⟨rfl, fun hn => ?_⟩⟩
  rw [ColAcc.fp, if_pos hn]
  rfl

end Sys2Proof.Machine
end


section
/-! PROOF. Commands wait for their turn, and end at the first check that they fail (R271, R272, R277): O38. -/

namespace Sys2Proof.Machine

open Sys2Proof.Claims

/-- The rows of commands all run through `runCmd`. -/
theorem exec_commandRow : ∀ p ∈ commandRows, ∀ (s : State) (cid : Nat), ∃ body, exec (p.2 cid) s = runCmd s cid p.1 body := by
  simp only [commandRows, List.forall_mem_cons, List.not_mem_nil, false_implies, implies_true, and_true]
  repeat' apply And.intro
  all_goals
    intro s cid
    dsimp only [exec, execCtxCreate, execCtxAppend, execCtxTruncate, execCtxFree, execCtxQuery, runCtx]
    exact ⟨_, rfl⟩

section Row

variable {s : State} {cid : Nat} {c : Cmd} {ok : Cmd → Bool} {body : State → Cmd → State}

theorem runCmd_of_waiting (hc : s.cmd? cid = some c) (hok : ok c = true) (hp : c.phase = .accepted) (hw : s.canStart c = false) :
    runCmd s cid ok body = .next s := by
  simp [runCmd, hc, hok, hp, hw]

theorem runCmd_of_refused {st : Nat} (hc : s.cmd? cid = some c) (hok : ok c = true) (hp : c.phase = .accepted)
    (hw : s.canStart c = true) (hr : s.refusal c = some st) : runCmd s cid ok body = .next (s.finish cid st 0) := by
  simp [runCmd, hc, hok, hp, hw, hr]

end Row

theorem State.mem_cmds_finish {s : State} {cid : Nat} {d : Cmd} (hd : d ∈ s.cmds) (hn : d.cid ≠ cid) (st res : Nat) :
    d ∈ (s.finish cid st res).cmds := List.mem_map.2 ⟨d, hd, if_neg hn⟩

/-- Settles O38: every row runs through `runCmd`, whose first checks these are. -/
theorem commandsStartOrAreRefused : Obligations.CommandsStartOrAreRefused := by
  intro p hp s cid c hc hok hph
  obtain ⟨body, he⟩ := exec_commandRow p hp s cid
  refine ⟨fun hw => by rw [he, runCmd_of_waiting hc hok hph hw], fun st hw hr => ?_⟩
  obtain ⟨k, hk, hke, hst, -⟩ := State.finish_ended st 0 hc (.inl hph)
  exact ⟨_, by rw [he, runCmd_of_refused hc hok hph hw hr], ⟨k, hk, hke, hst⟩, rfl, fun d hd hn => State.mem_cmds_finish hd hn st 0⟩

end Sys2Proof.Machine
end


section
/-! PROOF. What counts, records and events leave of the registers (R414 to R418, R426, R429): all but the flags and rings of the counter
blocks and the host ports' own blocks. -/

namespace Sys2Proof.Machine

open Sys2Proof.Claims

/-! ## Registers that differ at keys of a kind only -/

/-- Between s and t only registers at keys of a kind differ. -/
def State.RegsBut (K : Nat → Prop) (s t : State) : Prop := ∀ k, ¬ K k → mfind t.regs k = mfind s.regs k

section Frame

variable {K L : Nat → Prop} {s t u : State}

theorem State.RegsBut.refl (s : State) : s.RegsBut K s := fun _ _ => rfl

theorem State.RegsBut.of_eq (h : t.regs = s.regs) : s.RegsBut K t := fun _ _ => by rw [h]

theorem State.RegsBut.from (h : u.regs = s.regs) (k : u.RegsBut K t) : s.RegsBut K t := fun i hi => by rw [← h]; exact k i hi

theorem State.RegsBut.trans (h : s.RegsBut K t) (h' : t.RegsBut K u) : s.RegsBut K u := fun k hk => (h' k hk).trans (h k hk)

theorem State.RegsBut.mono (h : s.RegsBut K t) (hKL : ∀ k, K k → L k) : s.RegsBut L t := fun k hk => h k fun hK => hk (hKL k hK)

theorem State.RegsBut.ite {p : Prop} [Decidable p] (h : s.RegsBut K t) (h' : s.RegsBut K u) : s.RegsBut K (if p then t else u) := by
  split <;> assumption

theorem State.RegsBut.foldl {α : Type} {f : State → α → State} (hf : ∀ (t : State) x, t.RegsBut K (f t x)) (l : List α) (s : State) :
    s.RegsBut K (l.foldl f s) := by
  induction l generalizing s with
  | nil => exact .refl s
  | cons x l ih => exact (hf s x).trans (ih _)

/-- A register at another key reads as before. -/
theorem State.RegsBut.rg (h : s.RegsBut K t) {b : Blk} {o : Nat} (hk : ¬ K (b.base + o)) : t.rg b o = s.rg b o := by
  simp only [State.rg, mget, h _ hk]

theorem State.RegsBut.rgF (h : s.RegsBut K t) {b : Blk} {o : Nat} (hi lo : Nat) (hk : ¬ K (b.base + o)) :
    t.rgF b o hi lo = s.rgF b o hi lo := by rw [State.rgF, State.rgF, h.rg hk]

theorem State.RegsBut.rgB (h : s.RegsBut K t) {b : Blk} {o : Nat} (i : Nat) (hk : ¬ K (b.base + o)) :
    t.rgB b o i = s.rgB b o i := by rw [State.rgB, State.rgB, h.rg hk]

theorem State.RegsBut.rg64 (h : s.RegsBut K t) {b : Blk} {o : Nat} (hk : ¬ K (b.base + o)) (hk' : ¬ K (b.base + (o + 4))) :
    t.rg64 b o = s.rg64 b o := by rw [State.rg64, State.rg64, h.rg hk, h.rg hk']

theorem State.regsBut_wg (s : State) (b : Blk) (o : Nat) (v : W32) (hk : K (b.base + o)) : s.RegsBut K (s.wg b o v) :=
  fun _ h => mfind_mset_ne _ _ _ fun e => h (e ▸ hk)

theorem State.regsBut_wgF (s : State) (b : Blk) (o hi lo v : Nat) (hk : K (b.base + o)) : s.RegsBut K (s.wgF b o hi lo v) :=
  s.regsBut_wg b o _ hk

theorem State.regsBut_wgB (s : State) (b : Blk) (o i : Nat) (v : Bool) (hk : K (b.base + o)) : s.RegsBut K (s.wgB b o i v) :=
  s.regsBut_wg b o _ hk

theorem State.regsBut_wg64 (s : State) (b : Blk) (o v : Nat) (hk : K (b.base + o)) (hk' : K (b.base + (o + 4))) :
    s.RegsBut K (s.wg64 b o v) := (s.regsBut_wg b o _ hk).trans (State.regsBut_wg _ b (o + 4) _ hk')

end Frame

/-! ## Fields beside the one that is written -/

section Fields

variable (s : State) {b b' : Blk} {o o' : Nat}

theorem State.rgB_wgF_of_disjoint (b : Blk) (o hi lo v i : Nat) (h32 : hi < 32) (h : i < lo ∨ hi < i) :
    (s.wgF b o hi lo v).rgB b o i = s.rgB b o i := by
  rw [State.rgB, State.rg_wgF, if_pos rfl, getLsbD_setF _ _ _ _ _ h32, if_neg (by omega), State.rgB]

theorem State.rgB_wgF_ne (hi lo v i : Nat) (h : b'.base + o' ≠ b.base + o) : (s.wgF b o hi lo v).rgB b' o' i = s.rgB b' o' i := by
  rw [State.rgB, State.rg_wgF, if_neg h, State.rgB]

theorem State.rgB_wgB_ne (i j : Nat) (v : Bool) (h : b'.base + o' ≠ b.base + o) : (s.wgB b o i v).rgB b' o' j = s.rgB b' o' j :=
  s.rgB_wgF_ne _ _ _ _ h

theorem State.rgF_wgB_ne (i hi lo : Nat) (v : Bool) (h : b'.base + o' ≠ b.base + o) :
    (s.wgB b o i v).rgF b' o' hi lo = s.rgF b' o' hi lo := s.rgF_wgF_ne _ _ _ _ _ h

theorem State.rgF_wgB_of_disjoint (b : Blk) (o i hi lo : Nat) (v : Bool) (h32 : i < 32) (h : hi < i ∨ i < lo) :
    (s.wgB b o i v).rgF b o hi lo = s.rgF b o hi lo := s.rgF_wgF_of_disjoint _ _ _ _ _ _ _ h32 h

end Fields

/-! ## Counts, flags and records -/

/-- The keys of what a count or a record writes beside the counter itself: the counter blocks of the stacks, and the flags of the cores. -/
def tally (k : Nat) : Prop := (0x1000000 ≤ k ∧ k / 0x10000 % 16 = 8) ∨ (k < 0x1000000 ∧ k % 0x1000 / 0x100 = 0xB)

/-- The keys of what an event writes: those, and the host ports' blocks. -/
def eventKey (k : Nat) : Prop := tally k ∨ (0x1000000 ≤ k ∧ k / 0x10000 % 16 = 4)

/-- A block of the part: of one of its sites, or of the two host ports that a stack may have. -/
def Blk.placed : Blk → Prop
  | .arr i => i < 4096
  | .esp i => i < 4096
  | .cntCore i => i < 4096
  | .router i => i < 4096
  | .hp _ k => k < 2
  | _ => True

theorem posOf_le (l : List Nat) (x : Nat) : posOf l x ≤ l.length := by
  induction l with
  | nil => exact Nat.le_refl 0
  | cons y l ih => simp only [posOf, List.length_cons]; split <;> omega

theorem length_counterWords (b : Blk) : (counterWords b).length ≤ if b.site.isSome then 24 else 272 := by
  cases b <;> simp [counterWords, Blk.site, upTo_eq_range']
  split <;> simp

theorem tally_flagPlace {b : Blk} (h : b.placed) (o : Nat) : tally (flagPlace b o).1 := by
  have hp := (posOf_le (counterWords b) o).trans (length_counterWords b)
  revert hp h
  simp only [flagPlace, tally]
  generalize posOf (counterWords b) o = i
  cases b <;> simp [Blk.site, Blk.flagNo, Blk.base, Blk.stack, Blk.placed] <;> omega

theorem tally_cnt {t o : Nat} (h : o < 0x10000) : tally ((Blk.cnt t).base + o) := by simp only [tally, Blk.base]; omega

theorem eventKey_hp {t k o : Nat} (hk : k < 2) (h : o < 0x4000) : eventKey ((Blk.hp t k).base + o) := by
  simp only [eventKey, tally, Blk.base]; omega

section Counts

variable (s : State)

theorem State.regsBut_setFlag {b : Blk} (h : b.placed) (o : Nat) : s.RegsBut tally (s.setFlag b o) :=
  fun _ hk => mfind_mset_ne _ _ _ fun e => hk (e ▸ tally_flagPlace h o)

theorem State.regsBut_count {b : Blk} (h : b.placed) (o n : Nat) :
    s.RegsBut (fun k => tally k ∨ k = b.base + o) (s.count b o n).1 := by
  unfold State.count
  dsimp only
  have hw : ∀ v, s.RegsBut (fun k => tally k ∨ k = b.base + o) (s.wg b o v) := fun v => s.regsBut_wg b o v (.inr rfl)
  split
  · exact .refl s
  · split
    · exact hw _
    · exact (hw _).trans ((State.regsBut_setFlag _ h o).mono fun _ => .inl)

theorem State.regsBut_count_cnt (t : Nat) {o : Nat} (ho : o < 0x10000) (n : Nat) : s.RegsBut tally (s.count (.cnt t) o n).1 :=
  (s.regsBut_count (b := .cnt t) trivial o n).mono fun _ hk => hk.elim id fun e => e ▸ tally_cnt ho

theorem State.regsBut_putRecord {r : Nat} (hr : r < 17) (bs : List Byte) : s.RegsBut tally (s.putRecord r bs) := by
  refine State.RegsBut.trans (t := if r = 16 then s.hostStore s.boot.cfg.adminPort _ bs else s.store _ bs false) ?_
    (State.regsBut_wg _ (.cnt 0) (ringOff r + 0x20) _ (tally_cnt (by simp only [ringOff]; omega)))
  exact .ite (.of_eq rfl) (.of_eq rfl)

theorem State.regsBut_ringLost {r : Nat} (hr : r < 17) : s.RegsBut tally (s.ringLost r) :=
  .ite ((s.regsBut_putRecord hr _).trans (.of_eq rfl)) (.refl s)

theorem State.regsBut_ringOne (j : Job) : s.RegsBut tally (s.ringOne j).1 := by
  obtain ⟨r, mask, bs⟩ := j
  unfold State.ringOne
  dsimp only
  split
  · exact .refl s
  · next ht =>
    have hr : r < 17 := by
      simp only [State.ringTakes, Bool.not_eq_true', Bool.not_eq_false, Bool.and_eq_true, decide_eq_true_eq] at ht
      exact ht.1.1.1
    have h := s.regsBut_ringLost hr
    split
    · exact h.trans (State.regsBut_putRecord _ hr bs)
    · refine h.trans (State.RegsBut.trans (State.regsBut_count_cnt _ 0 ?_ 1) (State.RegsBut.trans (State.regsBut_count_cnt _ 0 ?_ 1) (.of_eq rfl)))
      · simp only [ringOff]; omega
      · omega

theorem State.regsBut_rings (f : Nat) (js : List Job) : s.RegsBut tally (State.rings f s js) := by
  induction f generalizing s js with
  | zero => exact .refl s
  | succ f ih =>
    cases js with
    | nil => exact .refl s
    | cons j js => exact (s.regsBut_ringOne j).trans (ih _ _)

theorem State.regsBut_trace (js : List Job) : s.RegsBut tally (s.trace js) := s.regsBut_rings 100 js

theorem State.regsBut_bump {b : Blk} (h : b.placed) (o n : Nat) : s.RegsBut (fun k => tally k ∨ k = b.base + o) (s.bump b o n) := by
  unfold State.bump
  dsimp only
  have hc := s.regsBut_count h o n
  split
  · exact hc.trans ((State.regsBut_trace _ _).mono fun _ => .inl)
  · exact hc

theorem State.regsBut_bump64 {b : Blk} (h : b.placed) (o n : Nat) :
    s.RegsBut (fun k => tally k ∨ k = b.base + o ∨ k = b.base + (o + 4)) (s.bump64 b o n) := by
  unfold State.bump64 State.count64
  dsimp only
  have hw : ∀ v, s.RegsBut (fun k => tally k ∨ k = b.base + o ∨ k = b.base + (o + 4)) (s.wg64 b o v) := fun v =>
    (s.regsBut_wg b o _ (.inr (.inl rfl))).trans (State.regsBut_wg _ b (o + 4) _ (.inr (.inr rfl)))
  split
  · exact hw _
  · exact (hw _).trans (((State.regsBut_setFlag _ h o).trans (State.regsBut_trace _ _)).mono fun _ => .inl)

/-- A counter of an event counts it, while it has room. -/
theorem State.counted_bump (b : Blk) (o n : Nat) : Counted s (s.bump b o n) b o n := by
  intro h
  rcases Nat.eq_zero_or_pos n with rfl | hn
  · rfl
  · rw [State.bump_of_lt s b o n (by omega) h, State.rg_wg_self, BitVec.toNat_ofNat, Nat.mod_eq_of_lt (by omega)]

/-- A 64-bit counter counts it. -/
theorem State.counted64_bump64 {b : Blk} (h : b.placed) {o : Nat} (n : Nat) (h0 : ¬ tally (b.base + o)) (h4 : ¬ tally (b.base + (o + 4))) :
    Counted64 s (s.bump64 b o n) b o n := by
  have key : ∀ t : State, (s.wg64 b o (s.rg64 b o + n)).RegsBut tally t → t.rg64 b o = (s.rg64 b o + n) % 2 ^ 64 := fun t ht => by
    rw [ht.rg64 h0 h4, State.rg64_wg64_self]
  unfold Counted64 State.bump64 State.count64
  dsimp only
  split
  · exact key _ (.refl _)
  · exact key _ ((State.regsBut_setFlag _ h o).trans (State.regsBut_trace _ _))

theorem State.regsBut_traceAdmin (t mask typ site : Nat) (bs : List Byte) : s.RegsBut tally (s.traceAdmin t mask typ site bs) :=
  s.regsBut_trace _

/-! ## Events -/

/-- The block of a host port is one of two of a stack. -/
theorem State.hpBlk_eq (p : Nat) : ∃ t k, k < 2 ∧ s.hpBlk p = .hp t k := by
  have h : ∀ g : Grade, (g.hostPort p).2 < 2 := fun g => by
    unfold Grade.hostPort
    split
    · simp
    · simp
    · simp only; omega
  exact ⟨_, _, h _, rfl⟩

theorem State.placed_hpBlk (p : Nat) : (s.hpBlk p).placed := by
  obtain ⟨t, k, hk, e⟩ := s.hpBlk_eq p
  rw [e]; exact hk

theorem State.eventKey_hpBlk (p : Nat) {o : Nat} (h : o < 0x4000) : eventKey ((s.hpBlk p).base + o) := by
  obtain ⟨t, k, hk, e⟩ := s.hpBlk_eq p
  rw [e]; exact eventKey_hp hk h

theorem State.regsBut_portEvent (p i : Nat) : s.RegsBut eventKey (s.portEvent p i) := by
  have h : s.RegsBut eventKey (s.wgB (s.hpBlk p) 0x014 i true) := s.regsBut_wg _ _ _ (s.eventKey_hpBlk p (by omega))
  exact .ite (h.trans (.of_eq rfl)) h

theorem State.regsBut_adminEvent (i : Nat) : s.RegsBut eventKey (s.adminEvent i) := s.regsBut_portEvent _ i

theorem State.regsBut_hostRx (port n : Nat) : s.RegsBut eventKey (s.hostRx port n) := by
  refine ((s.regsBut_bump64 (s.placed_hpBlk port) 0x110 n).mono ?_).trans ((State.regsBut_bump64 (b := .cnt 0) _ trivial 0x108 n).mono ?_)
  · rintro k (hk | rfl | rfl)
    · exact .inl hk
    · exact s.eventKey_hpBlk port (by omega)
    · exact s.eventKey_hpBlk port (by omega)
  · rintro k (hk | rfl | rfl)
    · exact .inl hk
    · exact .inl (tally_cnt (by omega))
    · exact .inl (tally_cnt (by omega))

theorem State.regsBut_hostTx (port n : Nat) : s.RegsBut eventKey (s.hostTx port n) := by
  refine ((s.regsBut_bump64 (s.placed_hpBlk port) 0x118 n).mono ?_).trans ((State.regsBut_bump64 (b := .cnt 0) _ trivial 0x108 n).mono ?_)
  · rintro k (hk | rfl | rfl)
    · exact .inl hk
    · exact s.eventKey_hpBlk port (by omega)
    · exact s.eventKey_hpBlk port (by omega)
  · rintro k (hk | rfl | rfl)
    · exact .inl hk
    · exact .inl (tally_cnt (by omega))
    · exact .inl (tally_cnt (by omega))

theorem State.thermEvent_of_set {t b : Nat} (h : s.rgB (.thm t) 0x008 b = true) : s.thermEvent t b = s := if_pos h

theorem State.thermEvent_of_clear {t b : Nat} (h : s.rgB (.thm t) 0x008 b = false) :
    s.thermEvent t b = State.traceAdmin { (s.wgB (.thm t) 0x008 b true).adminEvent 8 with
      pins := { ((s.wgB (.thm t) 0x008 b true).adminEvent 8).pins with alert := true } } t 5 6 0xFFF (toBytes 4 (2 ^ b)) := by
  unfold State.thermEvent
  rw [if_neg (by simp [h])]

theorem State.regsBut_alert_traceAdmin (pins : Pins) (t mask typ site : Nat) (bs : List Byte) :
    s.RegsBut tally (State.traceAdmin { s with pins := pins } t mask typ site bs) :=
  (State.RegsBut.of_eq (t := { s with pins := pins }) rfl).trans (State.regsBut_traceAdmin _ t mask typ site bs)

/-- A thermal event writes its own bit beside. -/
theorem State.regsBut_thermEvent (t b : Nat) :
    s.RegsBut (fun k => eventKey k ∨ k = (Blk.thm t).base + 0x008) (s.thermEvent t b) := by
  cases h : s.rgB (.thm t) 0x008 b with
  | true => rw [s.thermEvent_of_set h]; exact .refl s
  | false =>
    rw [s.thermEvent_of_clear h]
    have hw := s.regsBut_wgB (K := fun k => eventKey k ∨ k = (Blk.thm t).base + 0x008) (.thm t) 0x008 b true (.inr rfl)
    refine hw.trans (((State.regsBut_adminEvent _ 8).trans ?_).mono fun _ => .inl)
    exact (State.regsBut_alert_traceAdmin _ _ t 5 6 0xFFF _).mono fun _ => .inl

end Counts

end Sys2Proof.Machine
end


section
/-! PROOF. Memory interfaces on their own clock, and retention of a half (R311, R312, R314, R333, R334): O30. -/

namespace Sys2Proof.Machine

open Sys2Proof.Claims

/-! ## Refresh and temperatures -/

theorem exec_refresh {s : State} {dev bank : Nat} (hd : dev < s.devices) (hb : bank < 16) (hr : s.mifReady dev = true)
    (hs : s.rgB (.mif dev) 0x000 9 = false) : exec (.refresh dev bank) s =
      .next (s.setMif dev { s.mif dev with refreshes := mput (s.mif dev).refreshes bank (mget 0 (s.mif dev).refreshes bank + 1) }) := by
  change execRefresh dev bank s = _
  unfold execRefresh
  rw [if_neg (by omega), if_pos (by simp [hr, hs])]

theorem hottest_mem {ts : List Int} (h : ts ≠ []) : (hottest ts).1 ∈ ts := by
  induction ts with
  | nil => exact absurd rfl h
  | cons x ts ih =>
    cases ts with
    | nil => simp [hottest]
    | cons y ys =>
      rw [hottest]
      · dsimp only
        split
        · simp
        · exact List.mem_cons_of_mem _ (ih (by simp))
      · simp

/-- The hottest die, and of several the first. -/
theorem hottest_eq {ts : List Int} {t : Int} {die : Nat} (ht : ts[die]? = some t) (hmax : ∀ x ∈ ts, x ≤ t)
    (hfirst : ∀ i < die, ts[i]? ≠ some t) : hottest ts = (t, die) := by
  induction ts generalizing die with
  | nil => simp at ht
  | cons x ts ih =>
    have hx := hmax x (by simp)
    cases die with
    | zero =>
      obtain rfl : x = t := by simpa using ht
      cases ts with
      | nil => rfl
      | cons y ys =>
        have hle : (hottest (y :: ys)).1 ≤ x := hmax _ (List.mem_cons_of_mem _ (hottest_mem (by simp)))
        rw [hottest]
        · simp only [hle, if_true]
        · simp
    | succ die =>
      have h := ih (die := die) (by simpa using ht) (fun y hy => hmax y (List.mem_cons_of_mem _ hy))
        (fun i hi => by simpa using hfirst (i + 1) (by omega))
      have hne : ¬ t ≤ x := fun hle => hfirst 0 (by omega) (by simp [le_antisymm hx hle])
      cases ts with
      | nil => simp at ht
      | cons y ys =>
        rw [hottest]
        · simp only [h, if_neg hne]
        · simp

/-- The registers of an interface after a reading: the hottest die, the refresh band and the two holds. -/
def State.tempRegs (s : State) (dev : Nat) (t : Int) (die band : Nat) (wr all : Bool) : State :=
  ((((s.wgF (.mif dev) 0x004 15 0 (t * 16 % 65536).toNat).wgF (.mif dev) 0x004 20 16 die).wgF (.mif dev) 0x000 6 5 band).wgB
    (.mif dev) 0x000 7 wr).wgB (.mif dev) 0x000 8 all

section TempRegs

variable (s : State) (dev : Nat) (t : Int) (die band : Nat) (wr all : Bool)

theorem State.tempRegs_temp : (s.tempRegs dev t die band wr all).rgF (.mif dev) 0x004 15 0 = (t * 16 % 65536).toNat := by
  rw [State.tempRegs, State.rgF_wgB_ne, State.rgF_wgB_ne, State.rgF_wgF_ne, State.rgF_wgF_of_disjoint, State.rgF_wgF_self] <;> omega

theorem State.tempRegs_die (h : die < 32) : (s.tempRegs dev t die band wr all).rgF (.mif dev) 0x004 20 16 = die := by
  rw [State.tempRegs, State.rgF_wgB_ne, State.rgF_wgB_ne, State.rgF_wgF_ne, State.rgF_wgF_self] <;> omega

theorem State.tempRegs_band : (s.tempRegs dev t die band wr all).rgF (.mif dev) 0x000 6 5 = band % 4 := by
  rw [State.tempRegs, State.rgF_wgB_of_disjoint, State.rgF_wgB_of_disjoint, State.rgF_wgF_self] <;> omega

theorem State.tempRegs_writeHold : (s.tempRegs dev t die band wr all).rgB (.mif dev) 0x000 7 = wr := by
  rw [State.tempRegs, State.rgB_wgB_ne_bit, State.rgB_wgB_self] <;> omega

theorem State.tempRegs_hold : (s.tempRegs dev t die band wr all).rgB (.mif dev) 0x000 8 = all := by
  rw [State.tempRegs, State.rgB_wgB_self]; omega

end TempRegs

/-- A reading counts a change of band and raises a thermal event. -/
theorem State.regsBut_bandEvents (s : State) (dev : Nat) (p q : Prop) [Decidable p] [Decidable q] :
    s.RegsBut (fun k => eventKey k ∨ k = (Blk.mif dev).base + 0x110 ∨ k = (Blk.thm (dev / 2)).base + 0x008)
      (if q then (if p then s else s.bump (.mif dev) 0x110 1).thermEvent (dev / 2) 3 else if p then s else s.bump (.mif dev) 0x110 1) := by
  have hb : s.RegsBut (fun k => eventKey k ∨ k = (Blk.mif dev).base + 0x110 ∨ k = (Blk.thm (dev / 2)).base + 0x008)
      (if p then s else s.bump (.mif dev) 0x110 1) :=
    .ite (.refl s) ((s.regsBut_bump (b := .mif dev) trivial 0x110 1).mono fun k hk => hk.elim (fun h => .inl (.inl h)) fun h => .inr (.inl h))
  exact .ite (hb.trans ((State.regsBut_thermEvent _ (dev / 2) 3).mono fun k hk => hk.elim .inl fun h => .inr (.inr h))) hb

/-- A reading writes those registers; beside them it counts and raises events. -/
theorem exec_mifTempRead {s : State} {dev die : Nat} {temps : List Int} {t : Int} (hd : dev < s.devices) (hr : s.mifReady dev = true)
    (hl : temps.length ≤ 18) (ht : hottest temps = (t, die)) :
    ∃ u v, exec (.mifTempRead dev temps) s = .next u ∧ (State.tempRegs v dev t die
        (nextBand (s.rgF (.mif dev) 0x000 6 5) t (coolCount (s.mif dev).coolBand t 95) (coolCount (s.mif dev).coolLow t 85))
        (nextHold (s.rgB (.mif dev) 0x000 7) t 105 (coolCount (s.mif dev).coolWr t 105))
        (nextHold (s.rgB (.mif dev) 0x000 8) t 115 (coolCount (s.mif dev).coolAll t 115))).RegsBut
      (fun k => eventKey k ∨ k = (Blk.mif dev).base + 0x110 ∨ k = (Blk.thm (dev / 2)).base + 0x008) u := by
  change ∃ u v, execMifTempRead dev temps s = .next u ∧ _
  unfold execMifTempRead
  rw [if_neg (by omega), if_neg (by simp [hr]), List.take_of_length_le hl, ht]
  exact ⟨_, _, rfl, State.regsBut_bandEvents _ _ _ _⟩

/-- The registers of interfaces that a reading's event does not write. -/
theorem mif_not_event (dev : Nat) {o : Nat} (h : o < 0x010) :
    ¬ (eventKey ((Blk.mif dev).base + o) ∨ (Blk.mif dev).base + o = (Blk.mif dev).base + 0x110 ∨
      (Blk.mif dev).base + o = (Blk.thm (dev / 2)).base + 0x008) := by
  simp only [eventKey, tally, Blk.base]
  omega

theorem nextBand_of_hot {cur c95 c85 : Nat} {t : Int} (hc : cur ≤ 2) (ht : 95 < t) (h95 : c95 = 0) : nextBand cur t c95 c85 = 2 := by
  simp only [nextBand, if_pos ht]
  split
  · rfl
  · obtain rfl : cur = 2 := by omega
    simp [h95]

theorem coolCount_of_not_cool {n : Nat} {t thr : Int} (h : thr < t) : coolCount n t thr = 0 := if_neg (by omega)

theorem nextHold_of_hot {cur : Bool} {t thr : Int} {n : Nat} (h : thr < t) : nextHold cur t thr n = true := by simp [nextHold, h]

theorem nextHold_of_cool {cur : Bool} {t thr : Int} {n : Nat} (h : t + 2 ≤ thr) (hn : 9 ≤ n) :
    nextHold cur t thr (coolCount n t thr) = false := by
  simp only [nextHold, coolCount, if_pos h, Bool.or_eq_false_iff, decide_eq_false_iff_not, Bool.and_eq_false_iff]
  exact ⟨by omega, .inr (by omega)⟩

/-! ## Retention -/

/-- What a count leaves: halves and interfaces. -/
theorem State.half_bump (s : State) (b : Blk) (o n h : Nat) : (s.bump b o n).half h = s.half h := by
  rw [State.half, s.onlyTraced_bump b o n, State.half]

theorem State.mif_bump (s : State) (b : Blk) (o n d : Nat) : (s.bump b o n).mif d = s.mif d := by
  rw [State.mif, s.onlyTraced_bump b o n, State.mif]

theorem State.half_wgB (s : State) (b : Blk) (o i h : Nat) (v : Bool) : (s.wgB b o i v).half h = s.half h := rfl

theorem State.half_setMif (s : State) (d h : Nat) (x : Mif) : (s.setMif d x).half h = s.half h := rfl

theorem State.rgB_setMif (s : State) (d : Nat) (x : Mif) (b : Blk) (o i : Nat) : (s.setMif d x).rgB b o i = s.rgB b o i := rfl

section Retention

variable (s : State) (h : Nat)

theorem State.half_retain : (s.retain h).half h = { s.half h with retained := true, waking := none, woken := false } := by
  rw [State.retain, State.half_wgB, State.half_wgB, State.half_modHalf, if_pos rfl]

theorem State.rgB_retain : (s.retain h).rgB (.pwr (h / 2)) 0x000 (2 + h % 2) = true := by
  rw [State.retain, State.rgB_wgB_ne, State.rgB_wgB_self]
  · omega
  · simp only [Blk.base]; omega

theorem State.sameMemory_retain : SameMemory s (s.retain h) := by
  refine ⟨?_, ?_, ?_⟩
  · rw [State.retain, State.wgB_mem, State.wgB_mem, State.modHalf_mem]
  · rw [State.retain, State.wgB_poison, State.wgB_poison, State.modHalf_poison]
  · rw [State.retain, State.wgB_hmem, State.wgB_hmem, State.modHalf_hmem]

section Awake

variable {s h}
variable (hr : (s.half h).retained = true)

include hr

theorem State.half_cacheAwake :
    (s.cacheAwake h).half h = { s.half h with retained := false, waking := none, woken := s.allParked h, lastUse := s.time.now } := by
  rw [State.cacheAwake, if_pos hr]
  dsimp only
  rw [State.half_bump, State.half_setMif, State.half_bump, State.half_wgB, State.half_wgB, State.half_modHalf, if_pos rfl]

theorem State.mif_cacheAwake : ((s.cacheAwake h).mif h).retraining = true := by
  rw [State.cacheAwake, if_pos hr]
  dsimp only
  rw [State.mif_bump, State.mif_setMif, if_pos rfl]

theorem State.rgB_cacheAwake : (s.cacheAwake h).rgB (.pwr (h / 2)) 0x000 (2 + h % 2) = false := by
  rw [State.cacheAwake, if_pos hr]
  dsimp only
  rw [(State.regsBut_bump _ (b := .mif h) trivial 0x10C 1).rgB _ (by simp only [tally, Blk.base]; omega), State.rgB_setMif,
    (State.regsBut_bump _ (b := .pwr (h / 2)) trivial 0x814 1).rgB _ (by simp only [tally, Blk.base]; omega),
    State.rgB_wgB_ne _ _ _ _ (by simp only [Blk.base]; omega), State.rgB_wgB_self _ _ _ _ _ (by omega)]

end Awake

end Retention

theorem interfaceRefresh (s : State) (dev bank : Nat) (hd : dev < s.devices) (hb : bank < 16) (hr : s.mifReady dev = true)
    (hs : s.rgB (.mif dev) 0x000 9 = false) :
    Answers (.refresh dev bank) s (fun u => mget 0 (u.mif dev).refreshes bank = mget 0 (s.mif dev).refreshes bank + 1 ∧
      (∀ j, j ≠ bank → mget 0 (u.mif dev).refreshes j = mget 0 (s.mif dev).refreshes j) ∧ SameMemory s u) := by
  refine ⟨_, exec_refresh hd hb hr hs, ?_, fun j hj => ?_, rfl, rfl, rfl⟩
  · rw [State.mif_setMif, if_pos rfl, mget_mput, if_pos rfl]
  · rw [State.mif_setMif, if_pos rfl, mget_mput, if_neg hj]

/-- Settles O30: a temperature is read into the registers that `State.tempRegs` writes, and nothing that it raises writes them again. -/
theorem interfaceAndRetention : Obligations.InterfaceAndRetention := by
  refine ⟨interfaceRefresh, ?_, ?_, ?_, ?_⟩
  · intro s dev temps t die hd hr hl ht hmax hfirst
    obtain ⟨u, v, hu, h⟩ := exec_mifTempRead hd hr hl (hottest_eq ht hmax hfirst)
    have hdie : die < 32 := by
      have := (List.getElem?_eq_some_iff.1 ht).1
      omega
    refine ⟨u, hu, ?_, ?_, fun hc h95 => ?_, fun h105 => ?_, fun h115 => ?_, fun hc _ hn => ?_, fun hc _ hn => ?_⟩
    · rw [h.rgF _ _ (mif_not_event dev (by omega)), State.tempRegs_temp]
    · rw [h.rgF _ _ (mif_not_event dev (by omega)), State.tempRegs_die _ _ _ _ _ _ _ hdie]
    · rw [h.rgF _ _ (mif_not_event dev (by omega)), State.tempRegs_band, nextBand_of_hot hc h95 (coolCount_of_not_cool h95)]
    · rw [h.rgB _ (mif_not_event dev (by omega)), State.tempRegs_writeHold, nextHold_of_hot h105]
    · rw [h.rgB _ (mif_not_event dev (by omega)), State.tempRegs_hold, nextHold_of_hot h115]
    · rw [h.rgB _ (mif_not_event dev (by omega)), State.tempRegs_writeHold, nextHold_of_cool hc hn]
    · rw [h.rgB _ (mif_not_event dev (by omega)), State.tempRegs_hold, nextHold_of_cool hc hn]
  · intro s dev hd hr hn
    refine ⟨(s.setMif dev { s.mif dev with retraining := true }).bump (.mif dev) 0x10C 1, ?_, ?_,
      State.counted_bump (s.setMif dev _) (.mif dev) 0x10C 1⟩
    · change execWck2dqRead dev true s = _
      rw [execWck2dqRead, if_neg (by omega), if_pos (by simp [hr, hn])]
    · rw [State.mif_bump, State.mif_setMif, if_pos rfl]
  · intro s dev hd
    cases hm : (s.mif dev).retraining with
    | false =>
      refine ⟨s, ?_, hm⟩
      change execMifRetrainDone dev s = _
      rw [execMifRetrainDone, if_neg (by omega), if_pos (by simp [hm])]
    | true =>
      refine ⟨{ s.setMif dev { s.mif dev with retraining := false, settings := s.drawn } with drawn := s.drawn + 1 }, ?_, ?_⟩
      · change execMifRetrainDone dev s = _
        rw [execMifRetrainDone, if_neg (by omega), if_neg (by simp [hm])]
      · exact congrArg Mif.retraining ((State.mif_setMif s dev dev _).trans (if_pos rfl))
  · intro s half hh
    refine ⟨fun hp hon hr hw hl => ?_, fun hr hw hq => ?_, fun hr hw => ?_, fun hw hp hq hu => ?_⟩
    · refine ⟨s.retain half, ?_, by rw [State.half_retain], s.rgB_retain half, s.sameMemory_retain half⟩
      change execSelfRefreshEntry half s = _
      rw [execSelfRefreshEntry, if_neg (by omega)]
      simp [hp, hon, hr, hw, hl]
    · refine ⟨s.modHalf half (fun x => { x with waking := some s.time.now }), ?_,
        congrArg Half.waking ((State.half_modHalf s half half _).trans (if_pos rfl))⟩
      change execCacheWake half s = _
      rw [execCacheWake, if_neg (by omega)]
      simp [hr, hw, hq]
    · refine ⟨s.cacheAwake half, ?_, by rw [State.half_cacheAwake hr], by rw [State.half_cacheAwake hr], State.mif_cacheAwake hr,
        State.rgB_cacheAwake hr⟩
      change execCacheWakeDone half s = _
      rw [execCacheWakeDone, if_neg (by omega), if_pos hw]
    · refine ⟨s.retain half, ?_, by rw [State.half_retain], by rw [State.half_retain]⟩
      change execRetentionReturn half s = _
      rw [execRetentionReturn, if_neg (by omega)]
      simp [hw, hp, hq, hu]

end Sys2Proof.Machine
end


section
/-! PROOF. Registers of regions, rails that go off, and the stop of the part (R330, R332, R335, R336, R392, R394, R409). -/

namespace Sys2Proof.Machine

open Sys2Proof.Claims

/-! ## Operations of power control -/

/-- Between s and t only registers and what power control remembers differ. -/
def State.OnlyPower (s t : State) : Prop := t = { s with regs := t.regs, power := t.power }

theorem State.OnlyPower.refl (s : State) : s.OnlyPower s := rfl

theorem State.OnlyPower.trans {s t u : State} (h : s.OnlyPower t) (k : t.OnlyPower u) : s.OnlyPower u := by
  unfold State.OnlyPower at *
  rw [k, h]

theorem State.OnlyPower.of_regs {s t : State} (h : s.OnlyRegs t) : s.OnlyPower t := by
  unfold State.OnlyPower
  rw [h]

theorem State.OnlyPower.ite {s t u : State} {p : Prop} [Decidable p] (h : s.OnlyPower t) (h' : s.OnlyPower u) :
    s.OnlyPower (if p then t else u) := by split <;> assumption

theorem State.OnlyPower.foldl {α : Type} {f : State → α → State} (hf : ∀ (t : State) x, t.OnlyPower (f t x)) (l : List α) (s : State) :
    s.OnlyPower (l.foldl f s) := by
  induction l generalizing s with
  | nil => exact .refl s
  | cons x l ih => exact (hf s x).trans (ih _)

section PowerOps

variable (s : State)

theorem State.onlyPower_wgF (b : Blk) (o hi lo v : Nat) : s.OnlyPower (s.wgF b o hi lo v) := .of_regs (s.onlyRegs_wg ..)

theorem State.onlyPower_wgB (b : Blk) (o i : Nat) (v : Bool) : s.OnlyPower (s.wgB b o i v) := .of_regs (s.onlyRegs_wg ..)

theorem State.onlyPower_setReg (r hi lo v : Nat) : s.OnlyPower (s.setReg r hi lo v) := s.onlyPower_wgF ..

theorem State.onlyPower_govSet (r : Nat) : s.OnlyPower (s.govSet r) := s.onlyPower_setReg ..

theorem State.onlyPower_govSync (t : Nat) : s.OnlyPower (s.govSync t) := s.onlyPower_wgB ..

theorem State.onlyPower_power (p : Power) : s.OnlyPower { s with power := p } := rfl

theorem State.onlyPower_unlower (r : Nat) : s.OnlyPower (s.unlower r) :=
  (s.onlyPower_power _).trans (.foldl (fun t r => t.onlyPower_govSet r) _ _)

theorem State.onlyPower_govForget (r : Nat) : s.OnlyPower (s.govForget r) :=
  (s.onlyPower_power _).trans ((State.onlyPower_unlower _ r).trans ((State.onlyPower_govSet _ r).trans (State.onlyPower_govSync _ _)))

theorem State.onlyPower_regionsOff (t : Nat) : s.OnlyPower (s.regionsOff t) := by
  refine .trans (.foldl (fun u r => ?_) _ _) (State.onlyPower_govSync _ t)
  exact .ite (.refl u) ((State.onlyPower_setReg _ _ _ _ _).trans ((State.onlyPower_setReg _ _ _ _ _).trans
    ((State.onlyPower_setReg _ _ _ _ _).trans (State.onlyPower_govForget _ r))))

theorem State.onlyPower_stackOff (t : Nat) : s.OnlyPower (s.stackOff t) := (s.onlyPower_regionsOff t).trans (State.onlyPower_wgF ..)

theorem State.onlyPower_trimOff : s.OnlyPower s.trimOff := by
  refine .trans (.of_regs (s.onlyRegs_wg ..)) (.trans (State.onlyPower_wgF _ _ _ _ _ _) (.trans (.foldl (fun u r => ?_) _ _) (State.onlyPower_power _ _)))
  exact u.onlyPower_setReg ..

end PowerOps

/-! ## The registers that they write -/

/-- What every step of a fold leaves, the fold leaves. -/
theorem State.foldl_same {α β : Type} (g : State → β) {f : State → α → State} (hf : ∀ u x, g (f u x) = g u) (l : List α) (s : State) :
    g (l.foldl f s) = g s := by
  induction l generalizing s with
  | nil => rfl
  | cons x l ih => exact (ih _).trans (hf s x)

/-- The keys of PWR_STATUS and of the regions' registers. -/
def powerKey (k : Nat) : Prop :=
  0x1000000 ≤ k ∧ k / 0x10000 % 16 = 5 ∧ (k % 0x10000 = 0 ∨ (0x100 ≤ k % 0x10000 ∧ k % 0x10000 < 0x500))

/-- The keys of Trim's registers. -/
def trimKey (k : Nat) : Prop := 0x1000000 ≤ k ∧ k / 0x10000 % 16 = 0xB

theorem powerKey_status (t : Nat) : powerKey ((Blk.pwr t).base + 0x000) := by
  simp only [powerKey, Blk.base]; omega

theorem powerKey_region (r : Nat) : powerKey ((Blk.pwr (r / 256)).base + (0x100 + 4 * (r % 256))) := by
  simp only [powerKey, Blk.base]; omega

/-- A field reads as before unless it meets the field that is written. -/
theorem State.rgF_wgF_apart (s : State) {b b' : Blk} {o o' hi lo v hi' lo' : Nat} (h32 : hi < 32)
    (h : b'.base + o' ≠ b.base + o ∨ hi' < lo ∨ hi < lo') : (s.wgF b o hi lo v).rgF b' o' hi' lo' = s.rgF b' o' hi' lo' := by
  by_cases hk : b'.base + o' = b.base + o
  · have hd := h.resolve_left (not_not_intro hk)
    rw [State.rgF, State.rg_wgF, if_pos hk, getF_setF_of_disjoint _ _ _ _ _ _ h32 hd]
    simp only [State.rgF, State.rg, hk]
  · exact s.rgF_wgF_ne _ _ _ _ _ hk

section Regions

variable (s : State)

theorem State.regF_setReg_self (r : Nat) {hi : Nat} (lo v : Nat) (h : hi < 32) : (s.setReg r hi lo v).regF r hi lo = v % 2 ^ (hi + 1 - lo) :=
  s.rgF_wgF_self _ _ _ _ _ h

/-- Another field of a region's register, or one of another region. -/
theorem State.regF_setReg_apart (r r' : Nat) {hi lo hi' lo' : Nat} (v : Nat) (h32 : hi < 32) (h : r' ≠ r ∨ hi' < lo ∨ hi < lo') :
    (s.setReg r hi lo v).regF r' hi' lo' = s.regF r' hi' lo' := by
  refine s.rgF_wgF_apart h32 (h.imp_left fun hne => ?_)
  simp only [Blk.base]
  omega

theorem State.regF_congr {s t : State} (h : t.regs = s.regs) (r hi lo : Nat) : t.regF r hi lo = s.regF r hi lo := State.rgF_congr h ..

theorem State.regF_govSet (x r : Nat) {hi lo : Nat} (h : hi < 10 ∨ 14 < lo) : (s.govSet x).regF r hi lo = s.regF r hi lo :=
  s.regF_setReg_apart _ _ _ (by omega) (.inr h)

theorem State.regF_govSync (t r hi lo : Nat) : (s.govSync t).regF r hi lo = s.regF r hi lo :=
  s.rgF_wgB_ne _ _ _ _ (by simp only [Blk.base]; omega)

theorem State.regF_unlower (x r : Nat) {hi lo : Nat} (h : hi < 10 ∨ 14 < lo) : (s.unlower x).regF r hi lo = s.regF r hi lo :=
  (State.foldl_same (fun u => u.regF r hi lo) (fun u y => u.regF_govSet y r h) _ _).trans (State.regF_congr rfl ..)

theorem State.regF_govForget (x r : Nat) {hi lo : Nat} (h : hi < 10 ∨ 14 < lo) : (s.govForget x).regF r hi lo = s.regF r hi lo := by
  rw [State.govForget, State.regF_govSync, State.regF_govSet _ _ _ h, State.regF_unlower _ _ _ h]
  exact State.regF_congr rfl ..

/-- PWR_STATUS beside GOV_ACTIVE. -/
theorem State.status_setReg (r hi lo v t hi' lo' : Nat) : (s.setReg r hi lo v).rgF (.pwr t) 0x000 hi' lo' = s.rgF (.pwr t) 0x000 hi' lo' :=
  s.rgF_wgF_ne _ _ _ _ _ (by simp only [Blk.base]; omega)

theorem State.status_govSync (t t' : Nat) {hi lo : Nat} (h : hi < 4 ∨ 4 < lo) :
    (s.govSync t).rgF (.pwr t') 0x000 hi lo = s.rgF (.pwr t') 0x000 hi lo := s.rgF_wgF_apart (by omega) (.inr h)

theorem State.status_unlower (x t hi lo : Nat) : (s.unlower x).rgF (.pwr t) 0x000 hi lo = s.rgF (.pwr t) 0x000 hi lo :=
  (State.foldl_same (fun u => u.rgF (.pwr t) 0x000 hi lo) (fun u y => u.status_setReg y _ _ _ _ _ _) _ _).trans (State.rgF_congr rfl ..)

theorem State.status_govForget (x t : Nat) {hi lo : Nat} (h : hi < 4 ∨ 4 < lo) :
    (s.govForget x).rgF (.pwr t) 0x000 hi lo = s.rgF (.pwr t) 0x000 hi lo := by
  rw [State.govForget, State.status_govSync _ _ _ h, State.govSet, State.status_setReg, State.status_unlower]
  exact State.rgF_congr rfl ..

/-! ## Regions and rails that go off -/

/-- A region switches off; a dark one stays dark. -/
def State.regionOff (s : State) (r : Nat) : State :=
  if s.regF r 1 0 = 3 then s else (((s.setReg r 1 0 0).setReg r 2 2 0).setReg r 23 20 0).govForget r

theorem State.regionsOff_eq (t : Nat) : s.regionsOff t = ((stackRegions t).foldl State.regionOff s).govSync t := rfl

theorem State.regF_regionOff (x r : Nat) :
    (s.regionOff x).regF r 1 0 = if r = x ∧ s.regF r 1 0 ≠ 3 then 0 else s.regF r 1 0 := by
  unfold State.regionOff
  split
  · next h => rw [if_neg]; rintro ⟨rfl, hne⟩; exact hne h
  · next h =>
    rw [State.regF_govForget _ _ _ (by omega), State.regF_setReg_apart _ _ _ _ (by omega) (by omega),
      State.regF_setReg_apart _ _ _ _ (by omega) (by omega)]
    by_cases hx : r = x
    · subst hx
      rw [State.regF_setReg_self _ _ _ _ (by omega), if_pos ⟨rfl, h⟩]
      simp
    · rw [State.regF_setReg_apart _ _ _ _ (by omega) (.inl hx), if_neg fun h => hx h.1]

theorem State.regF_foldl_regionOff (l : List Nat) (r : Nat) :
    (l.foldl State.regionOff s).regF r 1 0 = if r ∈ l ∧ s.regF r 1 0 ≠ 3 then 0 else s.regF r 1 0 := by
  induction l generalizing s with
  | nil => simp
  | cons x l ih =>
    rw [List.foldl_cons, ih, State.regF_regionOff]
    generalize s.regF r 1 0 = v
    by_cases h3 : v = 3
    · simp [h3]
    · by_cases hx : r = x <;> simp [hx, h3]

/-- No region of a stack that is switched off stays on. -/
theorem State.regF_regionsOff {t r : Nat} (h : r / 256 = t) (h3 : s.regF r 1 0 ≠ 3) : (s.regionsOff t).regF r 1 0 = 0 := by
  have hm : r ∈ stackRegions t := by simp only [stackRegions, mem_upTo]; omega
  rw [State.regionsOff_eq, State.regF_govSync, State.regF_foldl_regionOff, if_pos ⟨hm, h3⟩]

theorem State.status_regionOff (x t : Nat) {hi lo : Nat} (h : hi < 4 ∨ 4 < lo) :
    (s.regionOff x).rgF (.pwr t) 0x000 hi lo = s.rgF (.pwr t) 0x000 hi lo := by
  unfold State.regionOff
  split
  · rfl
  · rw [State.status_govForget _ _ _ h, State.status_setReg, State.status_setReg, State.status_setReg]

theorem State.status_regionsOff (t t' : Nat) {hi lo : Nat} (h : hi < 4 ∨ 4 < lo) :
    (s.regionsOff t).rgF (.pwr t') 0x000 hi lo = s.rgF (.pwr t') 0x000 hi lo := by
  rw [State.regionsOff_eq, State.status_govSync _ _ _ h]
  exact State.foldl_same (fun u => u.rgF (.pwr t') 0x000 hi lo) (fun u x => u.status_regionOff x t' h) _ _

/-- The rails of a stack that is switched off are off, those of another as before. -/
theorem State.status_stackOff (t t' : Nat) :
    (s.stackOff t).rgF (.pwr t') 0x000 3 0 = if t' = t then 0 else s.rgF (.pwr t') 0x000 3 0 := by
  rw [State.stackOff]
  split
  · next h => subst h; rw [State.rgF_wgF_self _ _ _ _ _ _ (by omega), Nat.zero_mod]
  · next h => rw [State.rgF_wgF_ne _ _ _ _ _ _ (by simp only [Blk.base]; omega), State.status_regionsOff _ _ _ (by omega)]

theorem State.regF_stackOff {t r : Nat} (h : r / 256 = t) (h3 : s.regF r 1 0 ≠ 3) : (s.stackOff t).regF r 1 0 = 0 := by
  rw [State.stackOff, State.regF, State.rgF_wgF_ne _ _ _ _ _ _ (by simp only [Blk.base]; omega)]
  exact s.regF_regionsOff h h3

theorem State.regsBut_setReg (r hi lo v : Nat) : s.RegsBut powerKey (s.setReg r hi lo v) := s.regsBut_wgF _ _ _ _ _ (powerKey_region r)

theorem State.regsBut_govSet (r : Nat) : s.RegsBut powerKey (s.govSet r) := s.regsBut_setReg r 14 10 _

theorem State.regsBut_govSync (t : Nat) : s.RegsBut powerKey (s.govSync t) := s.regsBut_wgB _ _ _ _ (powerKey_status t)

theorem State.regsBut_unlower (r : Nat) : s.RegsBut powerKey (s.unlower r) :=
  .from (u := { s with power := { s.power with lowered := merase s.power.lowered r } }) rfl (.foldl (fun u _ => u.regsBut_govSet _) _ _)

theorem State.regsBut_release (r t : Nat) : s.RegsBut powerKey (((s.unlower r).govSet r).govSync t) :=
  (s.regsBut_unlower r).trans ((State.regsBut_govSet _ r).trans (State.regsBut_govSync _ t))

theorem State.regsBut_govForget (r : Nat) : s.RegsBut powerKey (s.govForget r) := .from rfl (State.regsBut_release _ r (r / 256))

theorem State.regsBut_regionOff (r : Nat) : s.RegsBut powerKey (s.regionOff r) :=
  .ite (.refl s) ((s.regsBut_setReg r 1 0 0).trans ((State.regsBut_setReg _ r 2 2 0).trans ((State.regsBut_setReg _ r 23 20 0).trans
    (State.regsBut_govForget _ r))))

theorem State.regsBut_stackOff (t : Nat) : s.RegsBut powerKey (s.stackOff t) :=
  .trans (.trans (.foldl (fun u r => u.regsBut_regionOff r) _ _) (State.regsBut_wgB _ _ _ _ _ (powerKey_status t)))
    (State.regsBut_wgF _ _ _ _ _ _ (powerKey_status t))

theorem State.regsBut_trimOff : s.RegsBut (fun k => powerKey k ∨ trimKey k) s.trimOff := by
  have ht : ∀ (u : State) (o : Nat) (v : W32), o < 0x10000 → u.RegsBut (fun k => powerKey k ∨ trimKey k) (u.wg .trim o v) := fun u o v ho =>
    u.regsBut_wg _ _ _ (.inr (by simp only [trimKey, Blk.base]; omega))
  refine .trans (ht s 0x000 _ (by omega)) (.trans (ht _ 0x014 _ (by omega)) (.trans (.foldl (fun u r => ?_) _ _) (.of_eq rfl)))
  exact u.regsBut_wgF _ _ _ _ _ (.inl (powerKey_region r))

end Regions

/-! ## The part stops -/

/-- The reason of a stop and its time, as PWR_BOOT_STATUS shows them. -/
def State.stopRegs (s : State) (reason detail : Nat) : State :=
  (((s.wgB (.pwr 0) 0x040 4 false).wgF (.pwr 0) 0x040 11 8 reason).wgF (.pwr 0) 0x040 27 12 detail).wg64 (.pwr 0) 0x044 s.time.now

/-- The stop is shown, and recorded. -/
def State.stopNoted (s : State) (reason detail : Nat) : State :=
  (State.stopRegs { s with pins := { s.pins with alert := true } } reason detail).traceAdmin 0 5 6 0xFFF (toBytes 4 (0x100 + reason))

section Stops

variable (s : State) (reason detail : Nat)

theorem State.stopPart_of_stopped (h : s.boot.stopped = true) : s.stopPart reason detail = { s with pins := { s.pins with alert := true } } :=
  if_pos h

theorem State.stopPart_of_running (h : s.boot.stopped = false) : s.stopPart reason detail =
    { (s.stopNoted reason detail).haltWork with boot := { (s.stopNoted reason detail).boot with stopped := true } } :=
  if_neg (by simp [h])

theorem State.onlyTraced_stopNoted :
    State.OnlyTraced { s with pins := { s.pins with alert := true } } (s.stopNoted reason detail) := by
  refine .trans (State.OnlyRegs.traced ?_) (State.onlyTraced_trace _ _)
  exact .trans (State.onlyRegs_wg ..) (.trans (State.onlyRegs_wg ..) (.trans (State.onlyRegs_wg ..) (State.onlyRegs_wg64 ..)))

theorem State.regsBut_stopNoted : (State.stopRegs { s with pins := { s.pins with alert := true } } reason detail).RegsBut tally
    (s.stopNoted reason detail) := State.regsBut_traceAdmin _ 0 5 6 0xFFF _

/-- What a stop writes after its reason. -/
def stopKey (k : Nat) : Prop := tally k ∨ powerKey k ∨ trimKey k

theorem State.regsBut_stopPart (h : s.boot.stopped = false) :
    (State.stopRegs { s with pins := { s.pins with alert := true } } reason detail).RegsBut stopKey (s.stopPart reason detail) := by
  rw [s.stopPart_of_running reason detail h]
  exact ((s.regsBut_stopNoted reason detail).mono fun _ => .inl).trans
    (((State.regsBut_trimOff (s.stopNoted reason detail)).mono fun _ => .inr))

theorem not_stopKey_boot {o : Nat} (h : 0x040 ≤ o) (h' : o < 0x100) : ¬ stopKey ((Blk.pwr 0).base + o) := by
  simp only [stopKey, tally, powerKey, trimKey, Blk.base]
  omega

theorem State.stopRegs_ready : (s.stopRegs reason detail).rgB (.pwr 0) 0x040 4 = false := by
  rw [State.stopRegs, State.rgB, State.rg_wg64_ne _ _ (by omega) (by omega), ← State.rgB, State.rgB_wgF_of_disjoint _ _ _ _ _ _ _ (by omega) (by omega),
    State.rgB_wgF_of_disjoint _ _ _ _ _ _ _ (by omega) (by omega), State.rgB_wgB_self _ _ _ _ _ (by omega)]

theorem State.stopRegs_reason : (s.stopRegs reason detail).rgF (.pwr 0) 0x040 11 8 = reason % 16 := by
  rw [State.stopRegs, State.rgF, State.rg_wg64_ne _ _ (by omega) (by omega), ← State.rgF, State.rgF_wgF_of_disjoint _ _ _ _ _ _ _ _ (by omega) (by omega),
    State.rgF_wgF_self _ _ _ _ _ _ (by omega)]
  rfl

theorem State.stopRegs_detail : (s.stopRegs reason detail).rgF (.pwr 0) 0x040 27 12 = detail % 65536 := by
  rw [State.stopRegs, State.rgF, State.rg_wg64_ne _ _ (by omega) (by omega), ← State.rgF, State.rgF_wgF_self _ _ _ _ _ _ (by omega)]
  rfl

theorem State.stopRegs_time : (s.stopRegs reason detail).rg64 (.pwr 0) 0x044 = s.time.now % 2 ^ 64 := State.rg64_wg64_self _ _ _ _

/-- What a stop shows of its reason. -/
theorem State.stopPart_status (h : s.boot.stopped = false) :
    (s.stopPart reason detail).rgB (.pwr 0) 0x040 4 = false ∧ (s.stopPart reason detail).rgF (.pwr 0) 0x040 11 8 = reason % 16 ∧
      (s.stopPart reason detail).rgF (.pwr 0) 0x040 27 12 = detail % 65536 ∧
      (s.stopPart reason detail).rg64 (.pwr 0) 0x044 = s.time.now % 2 ^ 64 := by
  have hr := s.regsBut_stopPart reason detail h
  have hk : ¬ stopKey ((Blk.pwr 0).base + 0x040) := not_stopKey_boot (by omega) (by omega)
  refine ⟨?_, ?_, ?_, ?_⟩
  · rw [hr.rgB _ hk, State.stopRegs_ready]
  · rw [hr.rgF _ _ hk, State.stopRegs_reason]
  · rw [hr.rgF _ _ hk, State.stopRegs_detail]
  · rw [hr.rg64 (not_stopKey_boot (by omega) (by omega)) (not_stopKey_boot (by omega) (by omega)), State.stopRegs_time]

/-- What a stop leaves of the part's work. -/
theorem State.stopPart_work (h : s.boot.stopped = false) : (s.stopPart reason detail).boot.stopped = true ∧
    (s.stopPart reason detail).pins = { s.pins with alert := true } ∧ (s.stopPart reason detail).cores = [] ∧
    (s.stopPart reason detail).parts = [] ∧ (s.stopPart reason detail).cmds = s.cmds.filter (fun c => c.admin && c.opcode == 0x48) ∧
    (s.stopPart reason detail).health = s.health ∧ (s.stopPart reason detail).flash = s.flash := by
  have ht := s.onlyTraced_stopNoted reason detail
  rw [s.stopPart_of_running reason detail h]
  have hp : (s.stopNoted reason detail).pins = { s.pins with alert := true } := by rw [ht]
  have hc : (s.stopNoted reason detail).cmds = s.cmds := by rw [ht]
  have hh : (s.stopNoted reason detail).health = s.health := by rw [ht]
  have hf : (s.stopNoted reason detail).flash = s.flash := by rw [ht]
  exact ⟨rfl, hp, rfl, rfl, congrArg (List.filter _) hc, hh, hf⟩

/-- PWR_STATUS keeps its rails through a stop. -/
theorem State.status_trimOff (t hi lo : Nat) : s.trimOff.rgF (.pwr t) 0x000 hi lo = s.rgF (.pwr t) 0x000 hi lo := by
  have hk : ∀ (u : State) (o : Nat) (v : W32), o < 0x10000 → (u.wg .trim o v).rgF (.pwr t) 0x000 hi lo = u.rgF (.pwr t) 0x000 hi lo :=
    fun u o v ho => by
      rw [State.rgF, State.rg_wg_ne _ _ (by simp only [Blk.base]; omega), State.rgF]
  have hf := State.foldl_same (fun u => u.rgF (.pwr t) 0x000 hi lo) (f := fun u r => u.setReg r 19 15 16) (fun u r => u.status_setReg r _ _ _ _ _ _)
  unfold State.trimOff
  dsimp only
  refine (State.rgF_congr rfl ..).trans ((hf _ _).trans ?_)
  rw [State.wgF, hk _ _ _ (by omega), hk _ _ _ (by omega)]

theorem State.status_stopPart (h : s.boot.stopped = false) (t hi lo : Nat) :
    (s.stopPart reason detail).rgF (.pwr t) 0x000 hi lo = s.rgF (.pwr t) 0x000 hi lo := by
  have hk : ∀ o, 0x040 ≤ o → o < 0x100 → (Blk.pwr t).base + 0x000 ≠ (Blk.pwr 0).base + o := fun o h1 h2 => by
    simp only [Blk.base]; omega
  have hs : ∀ u : State, (u.stopRegs reason detail).rgF (.pwr t) 0x000 hi lo = u.rgF (.pwr t) 0x000 hi lo := fun u => by
    rw [State.stopRegs, State.rgF, State.rg_wg64_ne _ _ (hk _ (by omega) (by omega)) (hk _ (by omega) (by omega)), ← State.rgF,
      State.rgF_wgF_ne _ _ _ _ _ _ (hk _ (by omega) (by omega)), State.rgF_wgF_ne _ _ _ _ _ _ (hk _ (by omega) (by omega)),
      State.rgF_wgB_ne _ _ _ _ _ (hk _ (by omega) (by omega))]
  rw [s.stopPart_of_running reason detail h]
  refine (State.status_trimOff (s.stopNoted reason detail) t hi lo).trans ?_
  rw [(s.regsBut_stopNoted reason detail).rgF _ _ (by simp only [tally, Blk.base]; omega), hs]
  exact State.rgF_congr rfl ..

end Stops

end Sys2Proof.Machine
end


section
/-! PROOF. Clocks, device time and its copies, latched reads (R352, R357 to R359, R371, R415): O51. -/

namespace Sys2Proof.Machine

open Sys2Proof.Claims

/-! ## Root PLLs -/

/-- A root PLL that is out of lock, and device time with the primary's. -/
def State.unlocked (s : State) (k : Nat) : State :=
  { s.wgB (.clk k) 0x000 0 false with time := { (s.wgB (.clk k) 0x000 0 false).time with
    locked := delNat (s.wgB (.clk k) 0x000 0 false).time.locked k
    running := (s.wgB (.clk k) 0x000 0 false).time.running && decide (k ≠ 0) } }

theorem State.faultClock_eq (s : State) (k : Nat) : s.faultClock k =
    if !(s.unlocked k).pins.resetN || !(s.unlocked k).pins.pwrgd || !(s.unlocked k).pins.vddAon then s.unlocked k
    else (((s.unlocked k).stackOff k).wgB (.clk k) 0x000 1 true).stopPart 9 k := rfl

theorem State.unlocked_pins (s : State) (k : Nat) : (s.unlocked k).pins = s.pins := by rw [State.unlocked, State.wgB_pins]

theorem State.unlocked_boot (s : State) (k : Nat) : (s.unlocked k).boot = s.boot := by rw [State.unlocked, State.wgB_boot]

theorem State.unlocked_time (s : State) (k : Nat) : (s.unlocked k).time =
    { s.time with locked := delNat s.time.locked k, running := s.time.running && decide (k ≠ 0) } := by
  rw [State.unlocked, State.wgB_time]

theorem State.unlocked_regs (s : State) (k : Nat) : (s.unlocked k).regs = (s.wgB (.clk k) 0x000 0 false).regs := by
  rw [State.unlocked]

section Fault

variable (s : State) (k : Nat)

/-- Whether or not the part stops with it. -/
theorem State.faultClock_time : (s.faultClock k).time =
    { s.time with locked := delNat s.time.locked k, running := s.time.running && decide (k ≠ 0) } := by
  rw [State.faultClock_eq]
  rw [← State.unlocked_time]
  split
  · rfl
  · exact (State.Keeps.stopPart (State.Keeps.wgB (State.Keeps.stackOff (State.Keeps.refl (s.unlocked k))))).time

theorem State.onlyPower_clockFaulted : (s.unlocked k).OnlyPower (((s.unlocked k).stackOff k).wgB (.clk k) 0x000 1 true) :=
  (State.onlyPower_stackOff _ k).trans (State.onlyPower_wgB ..)

theorem State.stopPart_refclk (reason detail : Nat) : (s.stopPart reason detail).pins.refclk = s.pins.refclk := by
  cases h : s.boot.stopped with
  | true => rw [s.stopPart_of_stopped reason detail h]
  | false => rw [(s.stopPart_work reason detail h).2.1]

theorem State.faultClock_refclk : (s.faultClock k).pins.refclk = s.pins.refclk := by
  rw [State.faultClock_eq, ← State.unlocked_pins s k]
  split
  · rfl
  · rw [State.stopPart_refclk, s.onlyPower_clockFaulted k]

theorem not_clock_stop : ¬ stopKey ((Blk.clk k).base + 0x000) := by
  simp only [stopKey, tally, powerKey, trimKey, Blk.base]
  omega

/-- The stop leaves the clock registers. -/
theorem State.clk_stopPart (reason detail i : Nat) : (s.stopPart reason detail).rgB (.clk k) 0x000 i = s.rgB (.clk k) 0x000 i := by
  have hk : ∀ o, 0x040 ≤ o → o < 0x100 → (Blk.clk k).base + 0x000 ≠ (Blk.pwr 0).base + o := fun o h1 h2 => by
    simp only [Blk.base]; omega
  cases h : s.boot.stopped with
  | true => rw [s.stopPart_of_stopped reason detail h]; rfl
  | false =>
    rw [(s.regsBut_stopPart reason detail h).rgB _ (not_clock_stop k), State.stopRegs, State.rgB,
      State.rg_wg64_ne _ _ (hk _ (by omega) (by omega)) (hk _ (by omega) (by omega)), ← State.rgB,
      State.rgB_wgF_ne _ _ _ _ _ (hk _ (by omega) (by omega)), State.rgB_wgF_ne _ _ _ _ _ (hk _ (by omega) (by omega)),
      State.rgB_wgB_ne _ _ _ _ (hk _ (by omega) (by omega))]
    exact State.rgB_congr rfl ..

theorem State.rgB_unlocked : (s.unlocked k).rgB (.clk k) 0x000 0 = false :=
  (State.rgB_congr (s.unlocked_regs k) ..).trans (s.rgB_wgB_self (.clk k) 0x000 0 false (by omega))

theorem State.faultClock_unlocked : (s.faultClock k).rgB (.clk k) 0x000 0 = false := by
  rw [State.faultClock_eq]
  split
  · exact s.rgB_unlocked k
  · rw [State.clk_stopPart, State.rgB_wgB_ne_bit _ _ _ _ _ _ (by omega) (by omega),
      ((s.unlocked k).regsBut_stackOff k).rgB _ (by simp only [powerKey, Blk.base]; omega), s.rgB_unlocked k]

/-- Out of reset the fault is shown, and the part stops with it. -/
theorem State.faultClock_stops (hr : s.pins.resetN = true) (hp : s.pins.pwrgd = true) (hv : s.pins.vddAon = true)
    (hs : s.boot.stopped = false) : (s.faultClock k).rgB (.clk k) 0x000 1 = true ∧ (s.faultClock k).boot.stopped = true ∧
      (s.faultClock k).rgF (.pwr 0) 0x040 11 8 = 9 ∧ (s.faultClock k).rgF (.pwr 0) 0x040 27 12 = k % 65536 ∧
      (s.faultClock k).rgF (.pwr k) 0x000 3 0 = 0 := by
  have he : s.faultClock k = (((s.unlocked k).stackOff k).wgB (.clk k) 0x000 1 true).stopPart 9 k :=
    (s.faultClock_eq k).trans (if_neg (by simp [s.unlocked_pins k, hr, hp, hv]))
  have hb : (((s.unlocked k).stackOff k).wgB (.clk k) 0x000 1 true).boot.stopped = false := by
    rw [s.onlyPower_clockFaulted k]; exact (congrArg Boot.stopped (s.unlocked_boot k)).trans hs
  obtain ⟨-, hreason, hdetail, -⟩ := State.stopPart_status _ 9 k hb
  rw [he]
  refine ⟨?_, (State.stopPart_work _ 9 k hb).1, hreason, hdetail, ?_⟩
  · rw [State.clk_stopPart, State.rgB_wgB_self _ _ _ _ _ (by omega)]
  · rw [State.status_stopPart _ _ _ hb, State.rgF_wgB_ne _ _ _ _ _ (by simp only [Blk.base]; omega), State.status_stackOff, if_pos rfl]

end Fault

theorem exec_clockFault {s : State} {k : Nat} (hk : k < s.stacks) :
    exec (.clockFault k) s = .next (if s.time.locked.contains k then s.faultClock k else s) := by
  change execClockFault k s = _
  rw [execClockFault, if_neg (by omega)]

/-- Every root PLL of a list loses lock. -/
theorem State.foldl_faultClock_time (l : List Nat) (s : State) :
    (∀ x, x ∈ (l.foldl State.faultClock s).time.locked ↔ x ∈ s.time.locked ∧ x ∉ l) ∧
      (l.foldl State.faultClock s).pins.refclk = s.pins.refclk ∧
      ((l.foldl State.faultClock s).time.running = true → s.time.running = true ∧ 0 ∉ l) := by
  induction l generalizing s with
  | nil => simp
  | cons y l ih =>
    obtain ⟨hl, hr, hn⟩ := ih (s.faultClock y)
    rw [List.foldl_cons]
    refine ⟨fun x => ?_, hr.trans (s.faultClock_refclk y), fun h => ?_⟩
    · rw [hl, State.faultClock_time]
      simp only [mem_delNat, List.mem_cons, not_or, and_assoc]
    · obtain ⟨h1, h0⟩ := hn h
      rw [State.faultClock_time] at h1
      simp only [Bool.and_eq_true, decide_eq_true_eq] at h1
      exact ⟨h1.1, by simp only [List.mem_cons, not_or]; exact ⟨fun e => h1.2 e.symm, h0⟩⟩

theorem rootPllFaults (s : State) (stack : Nat) (hk : stack < s.stacks) :
    (stack ∈ s.time.locked → Answers (.clockFault stack) s (fun u => stack ∉ u.time.locked ∧
      u.rgB (.clk stack) 0x000 0 = false ∧ (stack = 0 → u.time.running = false) ∧
      (s.pins.resetN = true → s.pins.pwrgd = true → s.pins.vddAon = true → s.boot.stopped = false →
        u.rgB (.clk stack) 0x000 1 = true ∧ u.boot.stopped = true ∧ u.rgF (.pwr 0) 0x040 11 8 = 9 ∧
        u.rgF (.pwr 0) 0x040 27 12 = stack ∧ u.rgF (.pwr stack) 0x000 3 0 = 0))) ∧
    (stack ∉ s.time.locked → exec (.clockFault stack) s = .next s) := by
  have hst : s.stacks ≤ 8 := by unfold State.stacks; cases s.part.grade <;> decide
  refine ⟨fun hm => ⟨s.faultClock stack, ?_, ?_, s.faultClock_unlocked stack, fun h0 => ?_, fun hr hp hv hs => ?_⟩, fun hm => ?_⟩
  · rw [exec_clockFault hk, if_pos (List.contains_iff_mem.2 hm)]
  · rw [State.faultClock_time]
    simp
  · rw [State.faultClock_time]
    simp [h0]
  · obtain ⟨h1, h2, h3, h4, h5⟩ := s.faultClock_stops stack hr hp hv hs
    exact ⟨h1, h2, h3, h4.trans (by omega), h5⟩
  · rw [exec_clockFault hk, if_neg (by simpa using hm)]

/-- A root PLL in lock. -/
def State.locked (s : State) (k : Nat) : State :=
  { (({ s with pins := { s.pins with refclk := true } }).wgB (.clk k) 0x000 0 true) with
    time := { (({ s with pins := { s.pins with refclk := true } }).wgB (.clk k) 0x000 0 true).time with
      locked := insNat (({ s with pins := { s.pins with refclk := true } }).wgB (.clk k) 0x000 0 true).time.locked k } }

/-- Device time at its start. -/
def State.timeBegun (s : State) : State :=
  { s with time := { s.time with now := 0, running := true, diff := [], drift := [] }, therm := { s.therm with sampleAt := [] } }

theorem State.locked_time (s : State) (k : Nat) : (s.locked k).time = { s.time with locked := insNat s.time.locked k } := by
  rw [State.locked, State.wgB_time]

theorem State.locked_regs (s : State) (k : Nat) :
    (s.locked k).regs = (({ s with pins := { s.pins with refclk := true } }).wgB (.clk k) 0x000 0 true).regs := by
  rw [State.locked]

theorem State.locked_boot (s : State) (k : Nat) : (s.locked k).boot = s.boot := by rw [State.locked, State.wgB_boot]

theorem State.rgB_locked (s : State) (k : Nat) : (s.locked k).rgB (.clk k) 0x000 0 = true :=
  (State.rgB_congr (s.locked_regs k) ..).trans (State.rgB_wgB_self _ _ _ _ _ (by omega))

theorem State.rgB_timeBegun (s : State) (b : Blk) (o i : Nat) : s.timeBegun.rgB b o i = s.rgB b o i := State.rgB_congr rfl ..

theorem rootPllLocks (s : State) (stack : Nat) (hk : stack < s.stacks) (hl : stack ∉ s.time.locked) (hr : s.pins.resetN = true)
    (hp : s.pins.pwrgd = true) (hv : s.pins.vddAon = true) :
    Answers (.rootPllLock stack) s (fun u => stack ∈ u.time.locked ∧ u.rgB (.clk stack) 0x000 0 = true ∧
      (stack = 0 → s.time.running = false → s.boot.stopped = false → u.time.running = true ∧ u.time.now = 0)) := by
  have he : exec (.rootPllLock stack) s = execRootPllLock stack s := rfl
  rw [execRootPllLock, if_neg (by omega), if_neg (by simp [hr, hp, hv, hl])] at he
  change _ = Host.Outcome.next (if stack = 0 ∧ (s.locked stack).time.running = false ∧ (s.locked stack).boot.stopped = false
    then (s.locked stack).timeBegun else s.locked stack) at he
  have hm : stack ∈ (s.locked stack).time.locked := by rw [s.locked_time]; simp
  refine ⟨_, he, ?_⟩
  split
  · exact ⟨hm, (State.rgB_timeBegun ..).trans (s.rgB_locked stack), fun _ _ _ => ⟨rfl, rfl⟩⟩
  · next hn =>
    refine ⟨hm, s.rgB_locked stack, fun h0 h1 h2 => absurd ⟨h0, ?_, ?_⟩ hn⟩
    · rw [s.locked_time]; exact h1
    · rw [s.locked_boot]; exact h2

theorem refclkStops (s : State) : Answers .refclkStop s (fun u => u.time.locked = [] ∧ u.pins.refclk = false ∧
    (0 ∈ s.time.locked → u.time.running = false)) := by
  obtain ⟨hl, hr, hn⟩ := State.foldl_faultClock_time s.time.locked { s with pins := { s.pins with refclk := false } }
  refine ⟨_, rfl, List.eq_nil_iff_forall_not_mem.2 fun x hx => ?_, hr, fun h0 => ?_⟩
  · obtain ⟨h1, h2⟩ := (hl x).1 hx
    exact h2 h1
  · exact Bool.eq_false_iff.2 fun h => (hn h).2 h0

/-! ## Copies of device time -/

/-- The difference of a stack's copy, as it was found. -/
def State.differs (s : State) (k : Nat) (d : Int) : State := { s with time := { s.time with diff := mset 0 s.time.diff k d } }

theorem State.timeOf_congr {s t : State} (h : t.time = s.time) (k : Nat) : t.timeOf k = s.timeOf k := by
  rw [State.timeOf, State.timeOf, h]

theorem State.timeOf_differs (s : State) (k : Nat) (d : Int) : (s.differs k d).timeOf k = ((s.time.now : Int) + d).toNat := by
  rw [State.timeOf]
  exact congrArg (fun x : Int => ((s.time.now : Int) + x).toNat) (mget_mset_self ..)

/-- Where the copy drifts no further than one count, its difference is taken over at the next tick. -/
theorem State.nextDiff_drift (s : State) (k : Nat) (d : Int) (h : s.drifts k d = true) :
    ({ s with time := { s.time with drift := mset 0 s.time.drift k d } } : State).nextDiff k = d := by
  have hd : (d - mget 0 s.time.diff k).natAbs ≤ 1 := by
    unfold State.drifts at h
    exact of_decide_eq_true (Bool.and_eq_true_iff.1 h).1
  rw [State.nextDiff]
  change (match mfind (mset 0 s.time.drift k d) k with
    | some x => x
    | none => let x := mget 0 s.time.diff k
      if 0 < x then x - 1 else if x < 0 then x + 1 else 0) = d
  generalize mget 0 s.time.diff k = x at hd
  by_cases h0 : d = 0
  · subst h0
    rw [mset, if_pos rfl, mfind_merase, if_pos rfl]
    grind
  · rw [mset, if_neg h0, mfind_mput, if_pos rfl]

theorem timeAlignChecks (s : State) (stack : Nat) (found : Int) (h0 : 0 < stack) (hk : stack < s.stacks) (hr : s.time.running = true) :
    (1 < found.natAbs → s.rgB (.clk stack) 0x000 2 = false → Answers (.timeAlignCheck stack found) s (fun u =>
      Counted s u (.clk stack) 0x020 1 ∧ u.rgB (.clk stack) 0x000 2 = false ∧
      u.timeOf stack = ((s.time.now : Int) + found).toNat)) ∧
    (found.natAbs ≤ 1 → s.rgB (.clk stack) 0x000 2 = false → Answers (.timeAlignCheck stack found) s (fun u =>
      u.rgB (.clk stack) 0x000 2 = true ∧ u.timeOf stack = ((s.time.now : Int) + found).toNat)) ∧
    (s.rgB (.clk stack) 0x000 2 = true → Answers (.timeAlignCheck stack found) s (fun u =>
      u = { s with time := { s.time with drift := u.time.drift } } ∧ (s.drifts stack found = true → u.nextDiff stack = found))) := by
  have he : exec (.timeAlignCheck stack found) s = execTimeAlignCheck stack found s := rfl
  rw [execTimeAlignCheck, if_neg (by omega), if_neg (by simp [hr]), if_neg (by omega)] at he
  have hne : (Blk.clk stack).base + 0x000 ≠ (Blk.clk stack).base + 0x020 := by omega
  refine ⟨fun hf ha => ?_, fun hf ha => ?_, fun ha => ?_⟩
  · rw [if_neg (by simp [ha])] at he
    change _ = Host.Outcome.next ((if 1 < found.natAbs then (s.differs stack found).bump (.clk stack) 0x020 1 else s.differs stack found).wgB
      (.clk stack) 0x000 2 (decide (found.natAbs ≤ 1))) at he
    rw [if_pos hf, decide_eq_false (by omega)] at he
    refine ⟨_, he, fun hc => ?_, State.rgB_wgB_self _ _ _ _ _ (by omega), ?_⟩
    · rw [State.wgB, State.rg_wgF, if_neg hne.symm]
      exact State.counted_bump (s.differs stack found) (.clk stack) 0x020 1 hc
    · exact (State.timeOf_congr (State.Keeps.wgB (State.Keeps.bump (State.Keeps.refl (s.differs stack found)))).time _).trans
        (s.timeOf_differs stack found)
  · rw [if_neg (by simp [ha])] at he
    change _ = Host.Outcome.next ((if 1 < found.natAbs then (s.differs stack found).bump (.clk stack) 0x020 1 else s.differs stack found).wgB
      (.clk stack) 0x000 2 (decide (found.natAbs ≤ 1))) at he
    rw [if_neg (by omega), decide_eq_true (by omega)] at he
    exact ⟨_, he, State.rgB_wgB_self _ _ _ _ _ (by omega),
      (State.timeOf_congr (State.Keeps.wgB (State.Keeps.refl (s.differs stack found))).time _).trans (s.timeOf_differs stack found)⟩
  · rw [if_pos ha] at he
    refine ⟨_, he, ?_, fun hd => ?_⟩
    · split <;> rfl
    · rw [if_pos hd]
      exact s.nextDiff_drift stack found hd

/-- A map that lists what a function gives, where it is not 0, holds it. -/
theorem mget_filter_of_mem {l : List Nat} (f : Nat → Int) {k : Nat} (h : k ∈ l) :
    mget 0 ((l.map fun i => (i, f i)).filter fun e => e.2 ≠ 0) k = f k := by
  induction l with
  | nil => cases h
  | cons a l ih =>
    rw [List.map_cons, List.filter_cons]
    by_cases ha : a = k
    · subst ha
      by_cases h0 : f a = 0
      · by_cases hl : a ∈ l
        · simp only [h0, ne_eq, not_true_eq_false, decide_false, Bool.false_eq_true, if_false]
          rw [ih hl, h0]
        · have hn : ∀ l : List Nat, a ∉ l → mfind ((l.map fun i => (i, f i)).filter fun e => e.2 ≠ 0) a = none := fun l hl => by
            refine Option.eq_none_iff_forall_ne_some.2 fun x hx => hl ?_
            obtain ⟨hm, -⟩ := List.mem_filter.1 (mem_of_mfind hx)
            obtain ⟨i, hi, e⟩ := List.mem_map.1 hm
            cases e
            exact hi
          simp only [h0, ne_eq, not_true_eq_false, decide_false, Bool.false_eq_true, if_false]
          rw [mget, hn l hl]
          rfl
      · simp only [ne_eq, h0, not_false_eq_true, decide_true, if_true]
        simp [mget, mfind]
    · have hl : k ∈ l := (List.mem_cons.1 h).resolve_left fun e => ha e.symm
      split
      · rw [mget, mfind, if_neg ha, ← mget, ih hl]
      · exact ih hl

theorem tickTakesDrifts (s t : State) (hr : s.time.running = true) (hp : s.pending = []) (hs : step s = .next t) (stack : Nat)
    (hk : stack < s.stacks) : mget 0 t.time.diff stack = s.nextDiff stack := by
  obtain ⟨u, hu, e⟩ := s.tick_of_running hr
  rw [step_of_idle hp] at hs
  cases hs
  have hd : ∀ k, u.nextDiff k = s.nextDiff k := fun k => by rw [State.nextDiff, State.nextDiff, hu.time]
  rw [e]
  have hst : u.stacks = s.stacks := congrArg (fun p : Part => p.grade.stacks) hu.part
  refine (mget_filter_of_mem (fun k => u.nextDiff k) ?_).trans (hd stack)
  rw [hst]
  simp [upTo_eq_range', hk]

/-! ## Latched reads -/

theorem clkTimeReads (s : State) (port stack : Nat) (hp : port < 4) (hk : stack < s.stacks) (hu : s.linkUp port = true) :
    Answers (.clkTimeRead port stack) s (fun u => ofBytes (u.port port).lastRead = s.timeOf stack % 2 ^ 32 ∧
      (u.port port).lastOk = true ∧
      u.latched port ((Blk.clk stack).base + 0x014) = BitVec.ofNat 32 (s.timeOf stack / 2 ^ 32)) := by
  have he : exec (.clkTimeRead port stack) s = execClkTimeRead port stack s := rfl
  rw [execClkTimeRead, if_neg (by omega), if_neg (by simp [hu])] at he
  have ht : (s.hostTx port 4).timeOf stack = s.timeOf stack :=
    State.timeOf_congr (State.Keeps.hostTx (State.Keeps.refl s)).time _
  refine ⟨_, he, ?_, ?_, ?_⟩
  · rw [State.port_setPort, if_pos rfl, ht]
    exact ofBytes_toBytes 4 _
  · rw [State.port_setPort, if_pos rfl]
  · exact (mget_mset_self ..).trans (by rw [ht])

/-- The blocks that hold 64-bit counts, one for each kind. -/
def wideBlks : List Blk := [.cntCore 0, .sc 0, .mif 0, .fp 0, .hp 0 0, .cnt 0]

/-- What a register of a 64-bit count's low word is. -/
def WideWord (b : Blk) (o : Nat) : Prop := o % 8 = 0 ∧ blkFields b o ≠ [] ∧ isHigh b o = false ∧ fwMask b o = 0

theorem wide_lt {b : Blk} {o : Nat} (h : isWide b o = true) : o < 0x600 := by
  cases b <;> simp [isWide, inStep] at h <;> omega

theorem wideWord_of_mem : ∀ b ∈ wideBlks, ∀ o < 0x600, isWide b o = true → WideWord b o := by
  unfold WideWord
  decide +kernel

/-- A 64-bit count's low word has a register, and a master reads all of it. -/
theorem wideWord {b : Blk} {o : Nat} (h : isWide b o = true) : WideWord b o := by
  have key : ∀ b' ∈ wideBlks, isWide b' o = true → WideWord b' o := fun b' hb hw => wideWord_of_mem b' hb o (wide_lt hw) hw
  cases b with
  | cntCore i => exact key (.cntCore 0) (by simp [wideBlks]) h
  | sc i => exact key (.sc 0) (by simp [wideBlks]) h
  | mif i => exact key (.mif 0) (by simp [wideBlks]) h
  | fp i => exact key (.fp 0) (by simp [wideBlks]) h
  | hp t k => exact key (.hp 0 0) (by simp [wideBlks]) h
  | cnt t =>
    obtain rfl : t = 0 := by simp only [isWide, Bool.and_eq_true, decide_eq_true_eq] at h; exact h.1
    exact key (.cnt 0) (by simp [wideBlks]) h
  | arr i => cases h
  | esp i => cases h
  | router i => cases h
  | msh i => cases h
  | pwr i => cases h
  | clk i => cases h
  | thm i => cases h
  | ctx i => cases h
  | dbg i => cases h
  | trim => cases h

/-- What a place's offset has in common with its address. -/
def SameOffset (a : Nat) (x : Option (Blk × Nat)) : Prop := ∀ p, x = some p → a % 4 = p.2 % 4

theorem SameOffset.ite {a : Nat} {x y : Option (Blk × Nat)} {c : Prop} [Decidable c] (h : c → SameOffset a x) (h' : ¬ c → SameOffset a y) :
    SameOffset a (if c then x else y) := by
  split
  · exact h ‹_›
  · exact h' ‹_›

theorem sameOffset_locateStack (t a : Nat) : SameOffset a (locateStack t a) := by
  unfold locateStack
  repeat' refine SameOffset.ite (fun _ => ?_) (fun _ => ?_)
  all_goals
    intro p hp
    cases hp <;> dsimp only <;> omega

/-- Every block begins at a multiple of 4. -/
theorem locate_mod {a o : Nat} {b : Blk} (h : locate a = some (b, o)) : a % 4 = o % 4 := by
  suffices hs : SameOffset a (locate a) from hs _ h
  unfold locate
  refine SameOffset.ite (fun hc => ?_) (fun _ => SameOffset.ite (fun _ p hp => ?_) (fun _ p hp => nomatch hp))
  · dsimp only
    repeat' refine SameOffset.ite (fun _ => ?_) (fun _ => ?_)
    all_goals
      intro p hp
      rw [← Option.some.inj hp]
      dsimp only
      omega
  · have := sameOffset_locateStack _ _ p hp
    omega

/-- What a read latches for a master. -/
def State.latch (s : State) (m a : Nat) (v : W32) : State := { s with latches := mset 0 s.latches (latchKey m a) v }

theorem State.latched_latch (s : State) (m a : Nat) (v : W32) : (s.latch m a v).latched m a = v := by
  rw [State.latched, State.latch, mget_mset, if_pos rfl]

theorem State.latch_ofNat (s : State) (m a : Nat) (v : W32) : s.latch m a (BitVec.ofNat 32 v.toNat) = s.latch m a v := by
  rw [BitVec.ofNat_toNat, BitVec.setWidth_eq]

/-- A read of a count's low word latches its high word. -/
theorem State.latchRead_of_wide (s : State) {m a o : Nat} {b : Blk} (hl : locate a = some (b, o)) (h : isWide b o = true) :
    s.latchRead m a = s.latch m (a + 4) (s.rg b (o + 4)) := by
  unfold State.latchRead
  rw [hl]
  cases b with
  | clk t => cases h
  | _ =>
    dsimp only
    rw [if_pos h, ← s.latch_ofNat]
    rfl

theorem State.readReg_of_wide (s : State) {m a o : Nat} {b : Blk} (hl : locate a = some (b, o)) (hb : s.hasBlk b = true)
    (h : isWide b o = true) : s.readReg m a = s.rg b o := by
  obtain ⟨h8, hf, hh, hm⟩ := wideWord h
  have ha := locate_mod hl
  have hn : ¬ (a % 4 ≠ 0 ∨ s.hasBlk b = false ∨ fieldsAt a = []) := by
    rw [fieldsAt, hl, hb]
    simp [hf]
    omega
  have hv : ∀ v : W32, (if s.hasBooted = true then v else v &&& ~~~ fwMask b o) = v := fun v => by
    rw [hm, BitVec.ofNat_eq_ofNat, BitVec.not_zero, BitVec.and_allOnes, ite_self]
  unfold State.readReg
  rw [hl]
  dsimp only
  rw [if_neg hn, hv]
  cases b with
  | cnt t =>
    have h0 : o ≠ 0 ∧ ¬ (0x040 ≤ o ∧ o < 0x080) := by simp [isWide, inStep] at h; omega
    simp [hh, h0.1, h0.2]
  | fp j =>
    have h0 : s.fabWord o = none := by
      have ho : o = 0x520 ∨ o = 0x528 := by simp [isWide, inStep] at h; omega
      unfold State.fabWord
      rw [if_neg (by omega), if_neg (by omega), if_neg (by omega), if_neg (by omega)]
    dsimp only
    rw [hh, h0, if_neg Bool.false_ne_true, Option.getD_none]
  | clk t => cases h
  | _ => simp [hh]

/-- A count of what a port sends leaves the ports and the latches. -/
theorem State.hostTx_port (u : State) (p n q : Nat) : (u.hostTx p n).port q = u.port q := by
  have h : u.OnlyTraced (u.hostTx p n) := (u.onlyTraced_bump64 ..).trans (State.onlyTraced_bump64 ..)
  rw [h]
  rfl

theorem State.hostTx_latched (u : State) (p n m a : Nat) : (u.hostTx p n).latched m a = u.latched m a := by
  have h : u.OnlyTraced (u.hostTx p n) := (u.onlyTraced_bump64 ..).trans (State.onlyTraced_bump64 ..)
  rw [State.latched, State.latched, h]

theorem State.setPort_latched (u : State) (p : Nat) (x : Port) (m a : Nat) : (u.setPort p x).latched m a = u.latched m a := by
  rw [State.latched, State.latched, State.setPort]

theorem State.rg_latch (u : State) (m a : Nat) (v : W32) (b : Blk) (o : Nat) : (u.latch m a v).rg b o = u.rg b o := by
  rw [State.rg, State.rg, State.latch]

theorem counterLowReads (s : State) (port addr o : Nat) (b : Blk) (hp : port < 4) (hu : s.linkUp port = true)
    (hl : locate addr = some (b, o)) (hb : s.hasBlk b = true) (hw : isWide b o = true) :
    Answers (.counterLowRead port addr) s (fun u => ofBytes (u.port port).lastRead = (s.rg b o).toNat ∧
      (u.port port).lastOk = true ∧ u.latched port (addr + 4) = s.rg b (o + 4)) := by
  have he : exec (.counterLowRead port addr) s = execCounterLowRead port addr s := rfl
  have hn : (!s.hasBlk b || !isWide b o || (decide (port < 4) && !s.linkUp port)) = false := by simp [hb, hw, hu]
  have hr : (s.latch port (addr + 4) (s.rg b (o + 4))).readReg port addr = s.rg b o := by
    rw [State.readReg_of_wide (s.latch port (addr + 4) (s.rg b (o + 4))) hl (hb : (s.latch ..).hasBlk b = true) hw, State.rg_latch]
  rw [execCounterLowRead, if_neg (by omega), hl] at he
  dsimp only at he
  rw [if_neg (by simp [hn]), s.latchRead_of_wide hl hw, if_pos hp, hr] at he
  refine ⟨_, he, ?_, ?_, ?_⟩
  · rw [State.hostTx_port, State.port_setPort, if_pos rfl, ofBytes_toBytes]
    exact Nat.mod_eq_of_lt (s.rg b o).isLt
  · rw [State.hostTx_port, State.port_setPort, if_pos rfl]
  · rw [State.hostTx_latched, State.setPort_latched, State.latched_latch]

/-- Settles O51. -/
theorem clocksAndTime : Obligations.ClocksAndTime :=
  ⟨fun s stack hk => ⟨(rootPllFaults s stack hk).1, (rootPllFaults s stack hk).2, rootPllLocks s stack hk⟩, refclkStops,
    timeAlignChecks, tickTakesDrifts, clkTimeReads, counterLowReads⟩

end Sys2Proof.Machine
end


section
/-! PROOF. What goes out on the fabric leaves: registers, memory while no ring runs, and the records of other ports (R294, R299, R302, R305). -/

namespace Sys2Proof.Machine

open Sys2Proof.Claims

/-! ## While no ring runs, counts and records leave memory -/

/-- The keys of the rings' control registers. -/
def ringKey (k : Nat) : Prop := ∃ r < 17, k = (Blk.cnt 0).base + (ringOff r + 0x1C)

/-- Where no ring runs before, none runs after, and memory is as it was. -/
def State.Quiet (s t : State) : Prop := TraceOff s → TraceOff t ∧ SameMemory s t

section Quiet

variable {s t u : State}

theorem State.Quiet.refl (s : State) : s.Quiet s := fun h => ⟨h, rfl, rfl, rfl⟩

theorem State.Quiet.trans (h : s.Quiet t) (k : t.Quiet u) : s.Quiet u := fun hs => by
  obtain ⟨ht, h1, h2, h3⟩ := h hs
  obtain ⟨hu, k1, k2, k3⟩ := k ht
  exact ⟨hu, k1.trans h1, k2.trans h2, k3.trans h3⟩

theorem State.Quiet.ite {p : Prop} [Decidable p] (h : s.Quiet t) (h' : s.Quiet u) : s.Quiet (if p then t else u) := by
  split <;> assumption

theorem State.Quiet.foldl {α : Type} {f : State → α → State} (hf : ∀ (t : State) x, t.Quiet (f t x)) (l : List α) (s : State) :
    s.Quiet (l.foldl f s) := by
  induction l generalizing s with
  | nil => exact .refl s
  | cons x l ih => exact (hf s x).trans (ih _)

/-- What changes neither memory nor the rings' control registers. -/
theorem State.Quiet.of_regs (hm : SameMemory s t) (hr : s.RegsBut (fun k => ¬ ringKey k) t) : s.Quiet t := fun h =>
  ⟨fun r hlt => (hr.rgB _ (fun hn => hn ⟨r, hlt, rfl⟩)).trans (h r hlt), hm⟩

theorem State.Quiet.of_eq (hm : SameMemory s t) (hr : t.regs = s.regs) : s.Quiet t := .of_regs hm (.of_eq hr)

end Quiet

theorem not_ringKey_of_page {k : Nat} (h : k < 0x1080000 ∨ 0x1090000 ≤ k) : ¬ ringKey k := by
  rintro ⟨r, hr, rfl⟩
  simp only [Blk.base, ringOff] at h
  omega

theorem not_ringKey_flagPlace {b : Blk} (h : b.placed) (o : Nat) : ¬ ringKey (flagPlace b o).1 := by
  have hp := (posOf_le (counterWords b) o).trans (length_counterWords b)
  rintro ⟨r, hr, he⟩
  revert he hp h
  simp only [flagPlace, ringOff]
  generalize posOf (counterWords b) o = i
  cases b <;> simp [Blk.site, Blk.flagNo, Blk.base, Blk.stack, Blk.placed] <;> omega

section Count

variable (s : State) {b : Blk} {o : Nat}

theorem State.regsBut_count_quiet (hf : ¬ ringKey (flagPlace b o).1) (ho : ¬ ringKey (b.base + o)) (n : Nat) :
    s.RegsBut (fun k => ¬ ringKey k) (s.count b o n).1 := by
  unfold State.count
  dsimp only
  have hw : ∀ v, s.RegsBut (fun k => ¬ ringKey k) (s.wg b o v) := fun v => s.regsBut_wg b o v ho
  split
  · exact .refl s
  · split
    · exact hw _
    · exact (hw _).trans fun _ hk => mfind_mset_ne _ _ _ fun e => hk (e ▸ hf)

theorem State.quiet_bump (hf : ¬ ringKey (flagPlace b o).1) (ho : ¬ ringKey (b.base + o)) (n : Nat) : s.Quiet (s.bump b o n) := fun h => by
  have hr : s.OnlyRegs (s.count b o n).1 := s.onlyRegs_count b o n
  have hq : s.Quiet (s.count b o n).1 := .of_regs (by rw [hr]; exact ⟨rfl, rfl, rfl⟩) (s.regsBut_count_quiet hf ho n)
  rw [State.bump_of_off (hq h).1]
  exact hq h

theorem State.regsBut_count64_quiet (hf : ¬ ringKey (flagPlace b o).1) (ho : ¬ ringKey (b.base + o)) (h4 : ¬ ringKey (b.base + (o + 4))) (n : Nat) :
    s.RegsBut (fun k => ¬ ringKey k) (s.count64 b o n).1 := by
  unfold State.count64
  dsimp only
  have hw : ∀ v, s.RegsBut (fun k => ¬ ringKey k) (s.wg64 b o v) := fun v => s.regsBut_wg64 b o v ho h4
  split
  · exact hw _
  · exact (hw _).trans fun _ hk => mfind_mset_ne _ _ _ fun e => hk (e ▸ hf)

theorem State.quiet_bump64 (hf : ¬ ringKey (flagPlace b o).1) (ho : ¬ ringKey (b.base + o)) (h4 : ¬ ringKey (b.base + (o + 4))) (n : Nat) :
    s.Quiet (s.bump64 b o n) := fun h => by
  have hr : s.OnlyRegs (s.count64 b o n).1 := s.onlyRegs_count64 b o n
  have hq : s.Quiet (s.count64 b o n).1 := .of_regs (by rw [hr]; exact ⟨rfl, rfl, rfl⟩) (s.regsBut_count64_quiet hf ho h4 n)
  rw [State.bump64_of_off (hq h).1]
  exact hq h

theorem State.quiet_trace (js : List Job) : s.Quiet (s.trace js) := fun h => by
  rw [State.trace_of_off h]
  exact State.Quiet.refl s h

end Count

/-! ## What goes out -/

/-- The keys of what goes out by ports of a kind counts. -/
def fabCount (P : Nat → Prop) (k : Nat) : Prop := tally k ∨ ∃ i o, P i ∧ 0x500 ≤ o ∧ o < 0x4000 ∧ k = (Blk.fp i).base + o

theorem fabCount_fp {P : Nat → Prop} {j o : Nat} (hj : P j) (ho : 0x500 ≤ o) (h : o < 0x4000) : fabCount P ((Blk.fp j).base + o) :=
  .inr ⟨j, o, hj, ho, h, rfl⟩

/-- Below its counters, and all of a port of another kind. -/
theorem not_fabCount_fp {P : Nat → Prop} {j o : Nat} (h : o < 0x4000) (ho : o < 0x500 ∨ ¬ P j) : ¬ fabCount P ((Blk.fp j).base + o) := by
  rintro (ht | ⟨i, o', hi, h5, h4, he⟩)
  · revert ht
    simp only [tally, Blk.base]
    omega
  · simp only [Blk.base] at he
    obtain rfl : i = j := by omega
    exact ho.elim (fun ho => by omega) fun hn => hn hi

theorem not_ringKey_fp {j o : Nat} (h : o < 0x4000) : ¬ ringKey ((Blk.fp j).base + o) := by
  rintro ⟨r, hr, he⟩
  simp only [Blk.base, ringOff] at he
  omega

theorem not_ringKey_cnt0 {o : Nat} (h : o < 0x2000) : ¬ ringKey ((Blk.cnt 0).base + o) := by
  rintro ⟨r, hr, he⟩
  simp only [Blk.base, ringOff] at he
  omega

/-- Between s and t packets may have gone out by ports of a kind: of the fabric's record only those ports, what has left, and what has failed
differ; of registers counts and flags; beside them memory, where a ring runs. -/
structure State.Sends (P : Nat → Prop) (s t : State) : Prop where
  only : t = { s with
    fab := { s.fab with ports := t.fab.ports, out := t.fab.out, frames := t.fab.frames, failed := t.fab.failed }
    regs := t.regs, mem := t.mem, poison := t.poison, hmem := t.hmem, lostRecs := t.lostRecs }
  ports : ∀ j, ¬ P j → t.fport j = s.fport j
  regs : s.RegsBut (fabCount P) t
  quiet : s.Quiet t

section Sends

variable {P Q : Nat → Prop} {s t u : State}

theorem State.Sends.refl (s : State) : s.Sends P s := ⟨rfl, fun _ _ => rfl, .refl s, .refl s⟩

theorem State.Sends.trans (h : s.Sends P t) (k : t.Sends P u) : s.Sends P u where
  only := by rw [k.only, h.only]
  ports j hj := (k.ports j hj).trans (h.ports j hj)
  regs := h.regs.trans k.regs
  quiet := h.quiet.trans k.quiet

theorem State.Sends.mono (h : s.Sends P t) (hPQ : ∀ j, P j → Q j) : s.Sends Q t :=
  { h with
    ports := fun j hj => h.ports j fun hp => hj (hPQ j hp)
    regs := h.regs.mono fun _ hk => hk.imp_right fun ⟨i, o, hi, ho⟩ => ⟨i, o, hPQ i hi, ho⟩ }

theorem State.Sends.ite {p : Prop} [Decidable p] (h : s.Sends P t) (h' : s.Sends P u) : s.Sends P (if p then t else u) := by
  split <;> assumption

theorem State.Sends.foldl {α : Type} {f : State → α → State} (hf : ∀ (t : State) x, t.Sends P (f t x)) (l : List α) (s : State) :
    s.Sends P (l.foldl f s) := by
  induction l generalizing s with
  | nil => exact .refl s
  | cons x l ih => exact (hf s x).trans (ih _)

/-- Counts and records are among what goes out may change. -/
theorem State.Sends.of_traced (h : s.OnlyTraced t) (hr : s.RegsBut (fabCount P) t) (hq : s.Quiet t) : s.Sends P t where
  only := by rw [h]
  ports j _ := by rw [h]; rfl
  regs := hr
  quiet := hq

theorem State.sends_bump (s : State) {j : Nat} (hj : P j) {o : Nat} (ho : 0x500 ≤ o) (h : o < 0x4000) (n : Nat) : s.Sends P (s.bump (.fp j) o n) :=
  .of_traced (s.onlyTraced_bump ..)
    ((s.regsBut_bump (b := .fp j) trivial o n).mono fun _ hk => hk.elim .inl fun e => e ▸ fabCount_fp hj ho h)
    (s.quiet_bump (not_ringKey_flagPlace (b := .fp j) trivial o) (not_ringKey_fp h) n)

theorem State.sends_bump64 (s : State) {j : Nat} (hj : P j) {o : Nat} (ho : 0x500 ≤ o) (h : o + 4 < 0x4000) (n : Nat) :
    s.Sends P (s.bump64 (.fp j) o n) :=
  .of_traced (s.onlyTraced_bump64 ..)
    ((s.regsBut_bump64 (b := .fp j) trivial o n).mono fun _ hk =>
      hk.elim .inl fun hk => hk.elim (fun e => e ▸ fabCount_fp hj ho (by omega)) fun e => e ▸ fabCount_fp hj (by omega) h)
    (s.quiet_bump64 (not_ringKey_flagPlace (b := .fp j) trivial o) (not_ringKey_fp (by omega)) (not_ringKey_fp h) n)

theorem State.sends_bump64_cnt (s : State) {o : Nat} (h : o + 4 < 0x2000) (n : Nat) : s.Sends P (s.bump64 (.cnt 0) o n) :=
  .of_traced (s.onlyTraced_bump64 ..)
    ((s.regsBut_bump64 (b := .cnt 0) trivial o n).mono fun _ hk =>
      hk.elim .inl fun hk => hk.elim (fun e => e ▸ .inl (tally_cnt (by omega))) fun e => e ▸ .inl (tally_cnt (by omega)))
    (s.quiet_bump64 (not_ringKey_flagPlace (b := .cnt 0) trivial o) (not_ringKey_cnt0 (by omega)) (not_ringKey_cnt0 h) n)

theorem State.sends_trace (s : State) (js : List Job) : s.Sends P (s.trace js) :=
  .of_traced (s.onlyTraced_trace js) ((s.regsBut_trace js).mono fun _ => .inl) (s.quiet_trace js)

theorem State.sends_traceMark (s : State) {j : Nat} (hj : P j) (bs : List Byte) : s.Sends P (s.traceMark j bs) :=
  .foldl (fun t r => .ite ((t.sends_trace _).trans (State.sends_bump _ hj (by omega) (by omega) 1)) (t.sends_trace _)) _ s

theorem State.sends_stamp (s : State) {j : Nat} (hj : P j) (received : Bool) (k : FabPkt) : s.Sends P (s.stamp j received k) := by
  unfold State.stamp
  split
  · exact .refl s
  · exact s.sends_traceMark hj _

/-- What is put into the fabric's record as a packet leaves. -/
theorem State.sends_fab (s : State) (x : List (Nat × FabPkt)) (y : List FabFrame) (z : Map Nat) :
    s.Sends P { s with fab := { s.fab with out := x, frames := y, failed := z } } :=
  ⟨rfl, fun _ _ => rfl, .of_eq rfl, .of_eq ⟨rfl, rfl, rfl⟩ rfl⟩

theorem State.sends_leave (s : State) {j : Nat} (hj : P j) (typ : Nat) (k : FabPkt) (n : W32) : s.Sends P (s.leave j typ k n) :=
  (s.sends_fab _ _ _).trans ((State.sends_bump64 _ hj (by omega) (by omega) _).trans
    ((State.sends_bump64_cnt _ (by omega) _).trans (State.sends_stamp _ hj false k)))

theorem State.sends_setFport (s : State) {j : Nat} (h : P j) (x : FabPort) : s.Sends P (s.setFport j x) :=
  ⟨rfl, fun i hi => by rw [State.fport_setFport, if_neg (by rintro rfl; exact hi h)], .of_eq rfl, .of_eq ⟨rfl, rfl, rfl⟩ rfl⟩

theorem State.sends_modFport (s : State) {j : Nat} (h : P j) (f : FabPort → FabPort) : s.Sends P (s.modFport j f) := s.sends_setFport h _

theorem State.sends_transmit (s : State) {j : Nat} (h : P j) (typ : Nat) (k : FabPkt) : s.Sends P (s.transmit j typ k) := by
  unfold State.transmit
  dsimp only
  split
  · exact s.sends_setFport h _
  · exact (s.sends_setFport h _).trans (State.sends_leave _ h ..)

theorem State.sends_transmitAll (s : State) {j : Nat} (h : P j) (l : List (Nat × FabPkt)) : s.Sends P (s.transmitAll j l) := by
  induction l generalizing s with
  | nil => exact .refl s
  | cons p l ih => exact (s.sends_transmit h p.1 p.2).trans (ih _)

theorem State.sends_drainPort (s : State) {j : Nat} (h : P j) : s.Sends P (s.drainPort j) :=
  .ite (.refl s) ((s.sends_setFport h _).trans (State.sends_transmitAll _ h _))

theorem State.sends_emit (s : State) {j : Nat} (h : P j) (typ : Nat) (k : FabPkt) : s.Sends P (s.emit j typ k) :=
  (s.sends_setFport h _).trans (State.sends_transmit _ h ..)

theorem State.sends_failPkt (s : State) (j typ : Nat) (k : FabPkt) : s.Sends P (s.failPkt j typ k) := by
  unfold State.failPkt
  split
  · exact s.sends_fab _ _ _
  · exact .refl s

theorem State.altPort_ne {s : State} {dst j i : Nat} (h : s.altPort dst j = some i) : i ≠ j ∧ s.portUp i = true := by
  unfold State.altPort at h
  dsimp only at h
  split at h
  · cases h
  · have := (List.mem_filter.1 (List.mem_of_mem_head? h)).2
    simpa using this

/-- A frame of a port that is given up goes out by another port, or has failed. -/
theorem State.sends_lostFrame (s : State) (j : Nat) (p : SentPkt) : s.Sends (· ≠ j) (s.lostFrame j p) := by
  unfold State.lostFrame
  split
  · exact s.sends_failPkt ..
  · split
    · exact .refl s
    · next i hi => exact .ite (s.sends_emit (P := (· ≠ j)) (State.altPort_ne hi).1 ..) (s.sends_transmit (P := (· ≠ j)) (State.altPort_ne hi).1 ..)

theorem State.sends_moveOne (s : State) (j : Nat) (p : Nat × FabPkt) : s.Sends (· ≠ j) (s.moveOne j p) := by
  unfold State.moveOne
  split
  · exact s.sends_failPkt ..
  · next i hi => exact .ite (s.sends_emit (P := (· ≠ j)) (State.altPort_ne hi).1 ..) (s.sends_transmit (P := (· ≠ j)) (State.altPort_ne hi).1 ..)

/-- What a port leaves as it goes down. -/
def FabPort.cleared (x : FabPort) : FabPort := { x with sentPkts := [], waiting := [], replays := [] }

theorem State.sends_movePackets (s : State) (j : Nat) : (s.modFport j FabPort.cleared).Sends (· ≠ j) (s.movePackets j) :=
  (State.Sends.foldl (fun t p => t.sends_lostFrame j p) _ _).trans (.foldl (fun t p => t.sends_moveOne j p) _ _)

theorem State.fport_movePackets (s : State) (j : Nat) : (s.movePackets j).fport j = (s.fport j).cleared :=
  ((s.sends_movePackets j).ports j (fun h => h rfl)).trans (by rw [State.modFport, State.fport_setFport, if_pos rfl])

end Sends

end Sys2Proof.Machine
end


section
/-! PROOF. Training, replay, give-up and loss of fabric links (R298 to R301, R303 to R305): O46. -/

namespace Sys2Proof.Machine

open Sys2Proof.Claims

/-! ## A port's record and registers -/

theorem State.fport_congr {s t : State} (h : t.fab = s.fab) (j : Nat) : t.fport j = s.fport j := by rw [State.fport, State.fport, h]

theorem State.fport_modFport (s : State) (j i : Nat) (f : FabPort → FabPort) :
    (s.modFport j f).fport i = if i = j then f (s.fport j) else s.fport i := s.fport_setFport j i _

theorem State.regs_modFport (s : State) (j : Nat) (f : FabPort → FabPort) : (s.modFport j f).regs = s.regs := by
  rw [State.modFport, State.setFport]

theorem State.memory_modFport (s : State) (j : Nat) (f : FabPort → FabPort) : SameMemory s (s.modFport j f) := ⟨rfl, rfl, rfl⟩

theorem State.OnlyRegs.memory {s t : State} (h : s.OnlyRegs t) : SameMemory s t := by
  rw [h]
  exact ⟨rfl, rfl, rfl⟩

/-- A field of a register, from a wider one that begins where it does. -/
theorem getF_of_wider {hi hi' : Nat} (h : hi ≤ hi') (w : W32) : getF hi 0 w = getF hi' 0 w % 2 ^ (hi + 1) := by
  refine Nat.eq_of_testBit_eq fun i => ?_
  rw [Nat.testBit_mod_two_pow, testBit_getF, testBit_getF]
  by_cases hi : i < hi + 1
  · simp [hi, show i < hi' + 1 by omega]
  · simp [hi]

section Train

variable (s : State) (j : Nat)

theorem State.fabState_congr {s t : State} (h : t.regs = s.regs) (j : Nat) : t.fabState j = s.fabState j := State.rgF_congr h ..

theorem State.fabState_begun (v : Nat) : (s.wgF (.fp j) 0x000 7 0 (1 + v * 16)).fabState j = 1 := by
  have hw := s.rgF_wgF_self (.fp j) 0x000 7 0 (1 + v * 16) (by omega)
  rw [State.rgF] at hw
  rw [State.fabState, State.rgF, getF_of_wider (hi' := 7) (by omega), hw]
  omega

/-- STATE and the bad lanes as training begins. -/
def State.begun (anew : Bool) : State :=
  let s := s.wgF (.fp j) 0x000 7 0 (1 + s.rgF (.fp j) 0x000 4 4 * 16)
  if anew || decide ((s.fport j).most = 0) then s.wgF (.fp j) 0x000 15 8 0 else s

theorem State.onlyRegs_begun (anew : Bool) : s.OnlyRegs (s.begun j anew) := by
  unfold State.begun
  dsimp only
  split
  · exact (State.onlyRegs_wg ..).trans (State.onlyRegs_wg ..)
  · exact State.onlyRegs_wg ..

theorem State.fabState_of_begun (anew : Bool) : (s.begun j anew).fabState j = 1 := by
  unfold State.begun
  dsimp only
  split
  · rw [State.fabState, State.rgF_wgF_of_disjoint _ _ _ _ _ _ _ _ (by omega) (.inl (by omega))]
    exact s.fabState_begun j _
  · exact s.fabState_begun j _

theorem State.fabTrain_eq (anew : Bool) : s.fabTrain j anew = ((s.begun j anew).wgB (.fp j) 0x004 31 false).modFport j (fun x => { x with
    trainFrom := (s.begun j anew).time.now, full := true, retry := false, most := if anew then 0 else x.most }) := rfl

/-- What the start of training makes of the port's record. -/
theorem State.fport_fabTrain (anew : Bool) : (s.fabTrain j anew).fport j =
    { s.fport j with trainFrom := s.time.now, full := true, retry := false, most := if anew then 0 else (s.fport j).most } := by
  have ht : (s.begun j anew).time = s.time := by rw [s.onlyRegs_begun j anew]
  have hf : ((s.begun j anew).wgB (.fp j) 0x004 31 false).fab = s.fab := by
    rw [State.wgB_fab, s.onlyRegs_begun j anew]
  rw [State.fabTrain_eq, State.fport_modFport, if_pos rfl, ht, State.fport_congr hf]

theorem State.memory_fabTrain (anew : Bool) : SameMemory s (s.fabTrain j anew) := by
  have h : s.OnlyRegs ((s.begun j anew).wgB (.fp j) 0x004 31 false) := (s.onlyRegs_begun j anew).trans (State.onlyRegs_wg ..)
  obtain ⟨h1, h2, h3⟩ := h.memory
  obtain ⟨k1, k2, k3⟩ := State.memory_modFport ((s.begun j anew).wgB (.fp j) 0x004 31 false) j (fun x => { x with
    trainFrom := (s.begun j anew).time.now, full := true, retry := false, most := if anew then 0 else x.most })
  rw [State.fabTrain_eq]
  exact ⟨k1.trans h1, k2.trans h2, k3.trans h3⟩

theorem State.fabState_fabTrain (anew : Bool) : (s.fabTrain j anew).fabState j = 1 := by
  rw [State.fabTrain_eq, State.fabState_congr (State.regs_modFport ..), State.fabState, State.rgF_wgB_ne _ _ _ _ _ (by simp only [Blk.base]; omega)]
  exact s.fabState_of_begun j anew

end Train

theorem portTrains (s : State) (port : Nat) (hp : port < s.fabPorts) (hh : s.held = false) (he : s.rgB (.fp port) 0x008 0 = true)
    (h0 : s.fabState port = 0) : Answers (.fabricPortTraining port) s (fun u => u.fabState port = 1 ∧ (u.fport port).full = true ∧
      (u.fport port).most = (s.fport port).most ∧ (u.fport port).trainFrom = s.time.now ∧ SameMemory s u) := by
  have hx : exec (.fabricPortTraining port) s = execFabricPortTraining port s := rfl
  rw [execFabricPortTraining, if_neg (by omega), if_pos (by simp [hh, he, h0])] at hx
  refine ⟨_, hx, s.fabState_fabTrain port false, ?_, ?_, ?_, s.memory_fabTrain port false⟩ <;> rw [State.fport_fabTrain]
  rfl

theorem portTrainsAgain (s : State) (port : Nat) (hp : port < s.fabPorts) (hh : s.held = false) (he : s.rgB (.fp port) 0x008 0 = true)
    (h0 : s.fabState port = 0) (hr : (s.fport port).retry = true) (ht : (s.fport port).trainFrom + 250000000 ≤ s.time.now) :
    Answers (.fabricTrainingRetry port) s (fun u => u.fabState port = 1 ∧ (u.fport port).full = true ∧ SameMemory s u) := by
  have hx : exec (.fabricTrainingRetry port) s = execFabricTrainingRetry port s := rfl
  rw [execFabricTrainingRetry, if_neg (by omega)] at hx
  dsimp only at hx
  rw [if_pos (by simp [hh, he, h0, hr, ht])] at hx
  exact ⟨_, hx, s.fabState_fabTrain port false, by rw [State.fport_fabTrain], s.memory_fabTrain port false⟩

/-! ## RETRAIN and ACCEPT_HELD -/

section Retrain

variable (s : State) (host port : Nat)

/-- A write by a host's link is counted, and leaves the fabric. -/
def State.written : State := if s.linkUp host then s.hostRx host 4 else s

theorem State.onlyTraced_hostRx (n : Nat) : s.OnlyTraced (s.hostRx host n) :=
  (s.onlyTraced_bump64 ..).trans (State.onlyTraced_bump64 ..)

theorem State.onlyTraced_written : s.OnlyTraced (s.written host) := by
  unfold State.written
  split
  · exact s.onlyTraced_hostRx host 4
  · exact .refl s

theorem State.regsBut_written : s.RegsBut eventKey (s.written host) := .ite (s.regsBut_hostRx host 4) (.refl s)

theorem not_eventKey_fp (j : Nat) {o : Nat} (h : o < 0x4000) : ¬ eventKey ((Blk.fp j).base + o) := by
  simp only [eventKey, tally, Blk.base]; omega

theorem State.fabState_written : (s.written host).fabState port = s.fabState port :=
  (s.regsBut_written host).rgF _ _ (not_eventKey_fp port (by omega))

theorem State.fab_written : (s.written host).fab = s.fab := by rw [s.onlyTraced_written host]

theorem State.linkUp_hostRx (n : Nat) : (s.hostRx host n).linkUp host = s.linkUp host := by
  obtain ⟨x, k, hk, e⟩ := s.hpBlk_eq host
  have hr : s.RegsBut (fun i => tally i ∨ i = (Blk.hp x k).base + 0x110 ∨ i = (Blk.hp x k).base + 0x114) (s.hostRx host n) := by
    unfold State.hostRx
    rw [e]
    refine (s.regsBut_bump64 (b := .hp x k) hk 0x110 n).trans ((State.regsBut_bump64 (b := .cnt 0) _ trivial 0x108 n).mono fun i hi => .inl ?_)
    rcases hi with hi | rfl | rfl
    · exact hi
    · exact tally_cnt (by omega)
    · exact tally_cnt (by omega)
  have hb : (s.hostRx host n).hpBlk host = s.hpBlk host := by rw [s.onlyTraced_hostRx host n]; rfl
  rw [State.linkUp, State.linkUp, hb, e]
  exact hr.rgB _ (by simp only [tally, Blk.base]; omega)

theorem State.fabWrites_written (hl : s.linkUp host = true) (ha : host = s.boot.cfg.adminPort) (hp : port < s.fabPorts) :
    (s.written host).fabWrites host port = true := by
  have hb : (s.written host).boot = s.boot := by rw [s.onlyTraced_written host]
  have hf : (s.written host).fabPorts = s.fabPorts := by rw [s.onlyTraced_written host]; rfl
  have hu : (s.written host).linkUp host = true := by rw [State.written, if_pos hl, State.linkUp_hostRx, hl]
  rw [State.fabWrites, hb, hf, hu]
  simp [ha, hp]

theorem State.rgB_written {o : Nat} (i : Nat) (h : o < 0x4000) : (s.written host).rgB (.fp port) o i = s.rgB (.fp port) o i :=
  (s.regsBut_written host).rgB _ (not_eventKey_fp port h)

theorem State.fport_written : (s.written host).fport port = s.fport port := State.fport_congr (s.fab_written host) port

end Retrain

theorem exec_retrain {s : State} {host port : Nat} (hh : host < 4) (ha : host = s.boot.cfg.adminPort) (hl : s.linkUp host = true)
    (hp : port < s.fabPorts) : exec (.retrain host port) s = .next ((s.written host).fabRetrain port) := by
  have hx : exec (.retrain host port) s = execRetrain host port s := rfl
  rw [execRetrain, if_neg (by omega)] at hx
  change _ = Host.Outcome.next (if (s.written host).fabWrites host port then (s.written host).fabRetrain port else s.written host) at hx
  rwa [if_pos (s.fabWrites_written host port hl ha hp)] at hx

theorem exec_acceptHeld {s : State} {host port : Nat} (hh : host < 4) (ha : host = s.boot.cfg.adminPort) (hl : s.linkUp host = true)
    (hp : port < s.fabPorts) : exec (.acceptHeld host port) s = .next ((s.written host).fabAccept port) := by
  have hx : exec (.acceptHeld host port) s = execAcceptHeld host port s := rfl
  rw [execAcceptHeld, if_neg (by omega)] at hx
  change _ = Host.Outcome.next (if (s.written host).fabWrites host port then (s.written host).fabAccept port else s.written host) at hx
  rwa [if_pos (s.fabWrites_written host port hl ha hp)] at hx

/-- RETRAIN of a port that is enabled, with none pending and no narrowed retrain under way. -/
theorem State.fabRetrain_anew (s : State) (port : Nat) (he : s.rgB (.fp port) 0x008 0 = true) (ha : s.rgB (.fp port) 0x008 2 = false)
    (hf : s.fabState port = 1 → (s.fport port).full = true) :
    (s.fabRetrain port).fabState port = 1 ∧ ((s.fabRetrain port).fport port).full = true ∧ ((s.fabRetrain port).fport port).most = 0 ∧
      ((s.fabRetrain port).fport port).sentPkts = [] ∧ ((s.fabRetrain port).fport port).waiting = [] ∧
      (s.fabRetrain port).rgB (.fp port) 0x008 2 = true := by
  have hr : s.fabRetrain port = ((s.fabTrain port true).wgB (.fp port) 0x008 2 true).movePackets port := by
    rw [State.fabRetrain, if_neg (by simp [he, State.fabAsked, ha]), if_neg (by rintro ⟨h1, h2⟩; simp [hf h1] at h2)]
  have hm := State.sends_movePackets ((s.fabTrain port true).wgB (.fp port) 0x008 2 true) port
  have hp := State.fport_movePackets ((s.fabTrain port true).wgB (.fp port) 0x008 2 true) port
  rw [State.fport_congr (State.wgB_fab ..), State.fport_fabTrain] at hp
  rw [hr, hp]
  refine ⟨?_, rfl, rfl, rfl, rfl, ?_⟩
  · rw [State.fabState, hm.regs.rgF _ _ (not_fabCount_fp (by omega) (.inl (by omega))), State.rgF_congr (State.regs_modFport ..),
      State.rgF_wgB_ne _ _ _ _ _ (by simp only [Blk.base]; omega)]
    exact s.fabState_fabTrain port true
  · rw [hm.regs.rgB _ (not_fabCount_fp (by omega) (.inl (by omega))), State.rgB, State.rg, State.regs_modFport]
    exact State.rgB_wgB_self _ _ _ _ _ (by omega)

theorem hostRetrains (s : State) (host port : Nat) (hh : host < 4) (ha : host = s.boot.cfg.adminPort) (hl : s.linkUp host = true)
    (hp : port < s.fabPorts) :
    (s.rgB (.fp port) 0x008 0 = true → s.rgB (.fp port) 0x008 2 = false → (s.fabState port = 1 → (s.fport port).full = true) →
      Answers (.retrain host port) s (fun u => u.fabState port = 1 ∧ (u.fport port).full = true ∧ (u.fport port).most = 0 ∧
        (u.fport port).sentPkts = [] ∧ (u.fport port).waiting = [] ∧ u.rgB (.fp port) 0x008 2 = true)) ∧
    (s.rgB (.fp port) 0x008 2 = true → Answers (.retrain host port) s (fun u => u.fab = s.fab ∧ u.fabState port = s.fabState port)) ∧
    (s.fabState port = 3 → s.rgF (.fp port) 0x000 7 5 = 2 →
      Answers (.acceptHeld host port) s (fun u => u.fabState port = 2 ∧ u.rgF (.fp port) 0x000 7 5 = 0)) := by
  refine ⟨fun he hn hf => ⟨_, exec_retrain hh ha hl hp, State.fabRetrain_anew _ port ?_ ?_ ?_⟩,
    fun hy => ⟨_, exec_retrain hh ha hl hp, ?_⟩, fun h3 h2 => ⟨_, exec_acceptHeld hh ha hl hp, ?_⟩⟩
  · rwa [State.rgB_written _ _ _ _ (by omega)]
  · rwa [State.rgB_written _ _ _ _ (by omega)]
  · rwa [State.fabState_written, State.fport_written]
  · have hw := State.rgB_written s host port (o := 0x008) 2 (by omega)
    rw [State.fabRetrain, if_pos (by rw [State.fabAsked, hw, hy, Bool.or_true])]
    exact ⟨s.fab_written host, s.fabState_written host port⟩
  · have hw : (s.written host).rgF (.fp port) 0x000 7 5 = 2 := by
      rwa [(s.regsBut_written host).rgF _ _ (not_eventKey_fp port (by omega))]
    rw [State.fabAccept, if_pos ⟨by rw [State.fabState_written, h3], hw⟩]
    refine ⟨?_, State.rgF_wgF_self _ _ _ _ _ _ (by omega)⟩
    rw [State.fabState, State.rgF_wgF_of_disjoint _ _ _ _ _ _ _ _ (by omega) (.inl (by omega)), State.rgF_wgF_self _ _ _ _ _ _ (by omega)]
    rfl

/-! ## Ports that go down -/

/-- The registers of a port that goes down. -/
def State.downRegs (s : State) (j : Nat) : State :=
  ((((s.wgF (.fp j) 0x000 1 0 0).wgF (.fp j) 0x000 3 2 3).wgF (.fp j) 0x000 7 5 0).wgB (.fp j) 0x004 31 false).wgB (.fp j) 0x008 2 false

section Down

variable (s : State) (j : Nat)

theorem State.fabDown_eq : s.fabDown j = (s.downRegs j).movePackets j := rfl

theorem State.fab_downRegs : (s.downRegs j).fab = s.fab := by
  rw [State.downRegs, State.wgB_fab, State.wgB_fab, State.wgF_fab, State.wgF_fab, State.wgF_fab]

theorem State.fabState_downRegs : (s.downRegs j).fabState j = 0 := by
  rw [State.downRegs, State.fabState, State.rgF_wgB_ne _ _ _ _ _ (by simp only [Blk.base]; omega),
    State.rgF_wgB_ne _ _ _ _ _ (by simp only [Blk.base]; omega), State.rgF_wgF_of_disjoint _ _ _ _ _ _ _ _ (by omega) (by omega),
    State.rgF_wgF_of_disjoint _ _ _ _ _ _ _ _ (by omega) (by omega), State.rgF_wgF_self _ _ _ _ _ _ (by omega), Nat.zero_mod]

theorem State.peer_downRegs : (s.downRegs j).rgB (.fp j) 0x004 31 = false := by
  rw [State.downRegs, State.rgB_wgB_ne _ _ _ _ (by simp only [Blk.base]; omega), State.rgB_wgB_self _ _ _ _ _ (by omega)]

theorem State.onlyRegs_downRegs : s.OnlyRegs (s.downRegs j) :=
  (State.onlyRegs_wg ..).trans ((State.onlyRegs_wg ..).trans ((State.onlyRegs_wg ..).trans ((State.onlyRegs_wg ..).trans (State.onlyRegs_wg ..))))

theorem State.quiet_downRegs : s.Quiet (s.downRegs j) := by
  have hk : ∀ o, o < 0x4000 → ¬ ringKey ((Blk.fp j).base + o) := fun o h => not_ringKey_fp h
  refine .of_regs (s.onlyRegs_downRegs j).memory ?_
  exact (s.regsBut_wgF _ _ _ _ _ (hk _ (by omega))).trans ((State.regsBut_wgF _ _ _ _ _ _ (hk _ (by omega))).trans
    ((State.regsBut_wgF _ _ _ _ _ _ (hk _ (by omega))).trans ((State.regsBut_wgB _ _ _ _ _ (hk _ (by omega))).trans
      (State.regsBut_wgB _ _ _ _ _ (hk _ (by omega))))))

theorem State.regsBut_fabDown : (s.downRegs j).RegsBut (fabCount (· ≠ j)) (s.fabDown j) :=
  (State.RegsBut.of_eq (State.regs_modFport ..)).trans (State.sends_movePackets _ j).regs

theorem State.fabState_fabDown : (s.fabDown j).fabState j = 0 := by
  rw [State.fabState, (s.regsBut_fabDown j).rgF _ _ (not_fabCount_fp (by omega) (.inl (by omega)))]
  exact s.fabState_downRegs j

theorem State.fport_fabDown : (s.fabDown j).fport j = (s.fport j).cleared := by
  rw [State.fabDown_eq, State.fport_movePackets, State.fport_congr (s.fab_downRegs j)]

theorem State.quiet_fabDown : s.Quiet (s.fabDown j) :=
  (s.quiet_downRegs j).trans ((State.Quiet.of_eq (State.memory_modFport ..) (State.regs_modFport ..)).trans
    (State.sends_movePackets (s.downRegs j) j).quiet)

end Down

theorem portGoesDown (s : State) (port : Nat) (hp : port < s.fabPorts) (h2 : 2 ≤ s.fabState port) :
    Answers (.fabricLinkDown port) s (fun u => u.fabState port = 0 ∧ u.rgB (.fp port) 0x004 31 = false ∧
      (u.fport port).sentPkts = [] ∧ (u.fport port).waiting = [] ∧ (TraceOff s → SameMemory s u)) := by
  have hx : exec (.fabricLinkDown port) s = execFabricLinkDown port s := rfl
  rw [execFabricLinkDown, if_neg (by omega), if_neg (by omega)] at hx
  refine ⟨_, hx, s.fabState_fabDown port, ?_, ?_, ?_, fun h => (s.quiet_fabDown port h).2⟩
  · rw [(s.regsBut_fabDown port).rgB _ (not_fabCount_fp (by omega) (.inl (by omega))), s.peer_downRegs port]
  · rw [State.fport_fabDown]; rfl
  · rw [State.fport_fabDown]; rfl

/-! ## Training ends -/

/-- A lane pair that is bad stays bad among more bad lanes. -/
theorem laneWidth_of_pairs {bad more most : Nat} (h : ∀ i < 4, bad / 4 ^ i % 4 ≠ 0) :
    laneWidth ((BitVec.ofNat 8 bad) ||| (BitVec.ofNat 8 more)).toNat most = none := by
  have hb : ∀ i < 4, ((BitVec.ofNat 8 bad) ||| (BitVec.ofNat 8 more)).toNat / 4 ^ i % 4 ≠ 0 := fun i hi => by
    have e : (4 : Nat) ^ i = 2 ^ (2 * i) := by rw [Nat.pow_mul]
    have h4 : ∀ x : Nat, x % 256 / 4 ^ i % 4 = x / 4 ^ i % 4 := fun x => by
      obtain rfl | rfl | rfl | rfl : i = 0 ∨ i = 1 ∨ i = 2 ∨ i = 3 := by omega
      all_goals simp only [Nat.reducePow]; omega
    rw [BitVec.toNat_or, BitVec.toNat_ofNat, BitVec.toNat_ofNat, e, Nat.or_div_two_pow, ← e, show (4 : Nat) = 2 ^ 2 from rfl,
      Nat.or_mod_two_pow, show (2 : Nat) ^ 2 = 4 from rfl, h4]
    exact Nat.pos_iff_ne_zero.1 (Nat.lt_of_lt_of_le (Nat.pos_of_ne_zero (h i hi)) Nat.left_le_or)
  have h0 := hb 0 (by omega)
  have h2 := hb 2 (by omega)
  generalize ((BitVec.ofNat 8 bad) ||| (BitVec.ofNat 8 more)).toNat = x at hb h0 h2
  simp only [Nat.reducePow] at h0 h2
  have hany : (upTo 0 4).any (fun i => decide (x / 4 ^ i % 4 = 0)) = false := by
    rw [List.any_eq_false]
    intro i hi
    have := hb i (by simp only [mem_upTo] at hi; omega)
    simp [this]
  rw [laneWidth, if_neg (by omega), if_neg (by omega), if_neg (by rw [hany]; simp)]

theorem laneWidth_of_good {bad : Nat} (h : bad % 256 = 0) : ((BitVec.ofNat 8 bad) ||| (BitVec.ofNat 8 0)).toNat = 0 := by
  simp [h]

end Sys2Proof.Machine
end


section
/-! PROOF. The end of training, replays and give-ups of fabric links (R298 to R301): O46. -/

namespace Sys2Proof.Machine

open Sys2Proof.Claims

/-! ## A trained link -/

/-- The registers of a link that has trained, held for a reason or up. -/
def State.trainedRegs (s : State) (j w bad why : Nat) (t : FabTrain) : State :=
  let b := Blk.fp j
  let s := (((s.wgF b 0x000 3 2 w).wgF b 0x000 15 8 bad).wgF b 0x000 7 5 why).wgB b 0x008 2 false
  let s := s.wgF b 0x000 1 0 (if why = 0 then 2 else 3)
  ((s.wgF b 0x004 14 0 t.peerId).wgF b 0x004 19 16 t.peerPort).wgB b 0x004 31 true

section Trained

variable (s : State) (j w bad why : Nat) (t : FabTrain)

theorem State.fabTrained_eq : s.fabTrained j w bad t =
    if s.heldReason j t ≠ 0 ∨ t.lanesBad % 256 ≠ 0 ∨ t.corrected = true
    then ((s.trainedRegs j w bad (s.heldReason j t) t).modFport j (fun x => { x with peerSerial := t.peerSerial })).adminEvent 9
    else (s.trainedRegs j w bad (s.heldReason j t) t).modFport j (fun x => { x with peerSerial := t.peerSerial }) := rfl

/-- STATE, WIDTH and the reason of a trained link, and its peer. -/
theorem State.trainedRegs_reads : (s.trainedRegs j w bad why t).fabState j = (if why = 0 then 2 else 3) ∧
    (s.trainedRegs j w bad why t).rgF (.fp j) 0x000 3 2 = w % 4 ∧ (s.trainedRegs j w bad why t).rgF (.fp j) 0x000 7 5 = why % 8 ∧
    (s.trainedRegs j w bad why t).rgF (.fp j) 0x004 14 0 = t.peerId % 2 ^ 15 ∧
    (s.trainedRegs j w bad why t).rgF (.fp j) 0x004 19 16 = t.peerPort % 16 := by
  have h4 : (Blk.fp j).base + 0x000 ≠ (Blk.fp j).base + 0x004 := by omega
  have h8 : (Blk.fp j).base + 0x000 ≠ (Blk.fp j).base + 0x008 := by omega
  unfold State.trainedRegs
  dsimp only
  refine ⟨?_, ?_, ?_, ?_, ?_⟩
  · rw [State.fabState, State.rgF_wgB_ne _ _ _ _ _ h4, State.rgF_wgF_ne _ _ _ _ _ _ h4, State.rgF_wgF_ne _ _ _ _ _ _ h4,
      State.rgF_wgF_self _ _ _ _ _ _ (by omega)]
    split <;> rfl
  · rw [State.rgF_wgB_ne _ _ _ _ _ h4, State.rgF_wgF_ne _ _ _ _ _ _ h4, State.rgF_wgF_ne _ _ _ _ _ _ h4,
      State.rgF_wgF_of_disjoint _ _ _ _ _ _ _ _ (by omega) (by omega), State.rgF_wgB_ne _ _ _ _ _ h8,
      State.rgF_wgF_of_disjoint _ _ _ _ _ _ _ _ (by omega) (by omega), State.rgF_wgF_of_disjoint _ _ _ _ _ _ _ _ (by omega) (by omega),
      State.rgF_wgF_self _ _ _ _ _ _ (by omega)]
    rfl
  · rw [State.rgF_wgB_ne _ _ _ _ _ h4, State.rgF_wgF_ne _ _ _ _ _ _ h4, State.rgF_wgF_ne _ _ _ _ _ _ h4,
      State.rgF_wgF_of_disjoint _ _ _ _ _ _ _ _ (by omega) (by omega), State.rgF_wgB_ne _ _ _ _ _ h8,
      State.rgF_wgF_self _ _ _ _ _ _ (by omega)]
    rfl
  · rw [State.rgF_wgB_of_disjoint _ _ _ _ _ _ _ (by omega) (by omega), State.rgF_wgF_of_disjoint _ _ _ _ _ _ _ _ (by omega) (by omega),
      State.rgF_wgF_self _ _ _ _ _ _ (by omega)]
  · rw [State.rgF_wgB_of_disjoint _ _ _ _ _ _ _ (by omega) (by omega), State.rgF_wgF_self _ _ _ _ _ _ (by omega)]
    rfl

/-- Events and what waited at the port leave these registers. -/
theorem State.rgF_trained {o hi lo : Nat} (h : o < 0x500) : ((s.fabTrained j w bad t).drainPort j).rgF (.fp j) o hi lo =
    (s.trainedRegs j w bad (s.heldReason j t) t).rgF (.fp j) o hi lo := by
  have hd := (State.sends_drainPort (P := (· = j)) (s.fabTrained j w bad t) rfl).regs
  have he : (s.trainedRegs j w bad (s.heldReason j t) t).RegsBut eventKey (s.fabTrained j w bad t) := by
    rw [State.fabTrained_eq]
    exact .ite ((State.RegsBut.of_eq (State.regs_modFport ..)).trans (State.regsBut_adminEvent _ 9)) (.of_eq (State.regs_modFport ..))
  rw [hd.rgF _ _ (not_fabCount_fp (by omega) (.inl h)), he.rgF _ _ (not_eventKey_fp j (by omega))]

end Trained

theorem exec_trained {s : State} {port : Nat} {t : FabTrain} (hp : port < s.fabPorts) (h1 : s.fabState port = 1) (hf : (s.fport port).full = true)
    (ht : t.heard = true) (hl : t.lanesBad % 256 = 0) (hb : s.rgF (.fp port) 0x000 15 8 = 0) (hm : (s.fport port).most = 0) :
    exec (.fabricTrainingDone port t) s = .next ((s.fabTrained port 0 0 t).drainPort port) := by
  have hx : exec (.fabricTrainingDone port t) s = execFabricTrainingDone port t s := rfl
  rw [execFabricTrainingDone, if_neg (by omega), if_neg (by omega)] at hx
  dsimp only at hx
  rw [if_neg (by simp [ht]), hb, if_pos hf, hm, laneWidth_of_good hl] at hx
  rw [hx]
  simp [laneWidth, hf]

theorem heldReason_lt (s : State) (j : Nat) (t : FabTrain) : s.heldReason j t < 8 := by
  unfold State.heldReason
  split
  · split <;> omega
  · dsimp only; split <;> omega

theorem portTrained (s : State) (port : Nat) (t : FabTrain) (hp : port < s.fabPorts) (h1 : s.fabState port = 1) (hf : (s.fport port).full = true)
    (ht : t.heard = true) (hl : t.lanesBad % 256 = 0) (hb : s.rgF (.fp port) 0x000 15 8 = 0) (hm : (s.fport port).most = 0) :
    Answers (.fabricTrainingDone port t) s (fun u => u.rgF (.fp port) 0x000 3 2 = 0 ∧
        u.rgF (.fp port) 0x004 14 0 = t.peerId % 2 ^ 15 ∧ u.rgF (.fp port) 0x004 19 16 = t.peerPort % 16 ∧
        (t.peerId ≠ s.boot.cfg.deviceId →
          (s.rgB (.fp port) 0x00C 31 = false → u.fabState port = 2 ∧ u.rgF (.fp port) 0x000 7 5 = 0) ∧
          (s.rgB (.fp port) 0x00C 31 = true → s.rgF (.fp port) 0x00C 14 0 ≠ t.peerId →
            u.fabState port = 3 ∧ u.rgF (.fp port) 0x000 7 5 = 2)) ∧
        (t.peerId = s.boot.cfg.deviceId → u.fabState port = 3 ∧
          u.rgF (.fp port) 0x000 7 5 = if t.peerSerial = s.part.serial then 1 else 3)) := by
  obtain ⟨hs, hw, hy, hi, hq⟩ := s.trainedRegs_reads port 0 0 (s.heldReason port t) t
  refine ⟨_, exec_trained hp h1 hf ht hl hb hm, ?_⟩
  beta_reduce
  rw [State.fabState, State.rgF_trained _ _ _ _ _ (by omega), State.rgF_trained _ _ _ _ _ (by omega), State.rgF_trained _ _ _ _ _ (by omega),
    State.rgF_trained _ _ _ _ _ (by omega), State.rgF_trained _ _ _ _ _ (by omega), hw, hy, hi, hq]
  rw [State.fabState] at hs
  rw [hs, Nat.mod_eq_of_lt (heldReason_lt s port t)]
  refine ⟨rfl, rfl, rfl, fun hn => ⟨fun h31 => ?_, fun h31 he => ?_⟩, fun he => ?_⟩
  · have hz : s.heldReason port t = 0 := by
      rw [State.rgB] at h31
      rw [State.heldReason, if_neg hn]
      dsimp only
      rw [h31, Bool.false_and, if_neg (by simp)]
    rw [hz]
    exact ⟨rfl, rfl⟩
  · rw [State.rgB] at h31
    rw [State.rgF] at he
    simp [State.heldReason, hn, h31, he]
  · rw [State.heldReason, if_pos he]
    split <;> simp

/-- An event leaves the fabric's state and its ports. -/
theorem State.fab_adminEvent (s : State) (i : Nat) : (s.adminEvent i).fab = s.fab := by
  rw [State.adminEvent, State.portEvent, State.raiseIrq]
  split
  · rw [State.setPort_fab, State.wgB_fab]
  · rw [State.wgB_fab]

theorem State.net_adminEvent (s : State) (i : Nat) : (s.adminEvent i).net = s.net := by
  rw [State.adminEvent, State.portEvent, State.raiseIrq]
  split
  · rw [State.setPort_net, State.wgB_net]
  · rw [State.wgB_net]

theorem State.boot_adminEvent (s : State) (i : Nat) : (s.adminEvent i).boot = s.boot := by
  rw [State.adminEvent, State.portEvent, State.raiseIrq]
  split
  · rw [State.setPort_boot, State.wgB_boot]
  · rw [State.wgB_boot]

theorem State.fabState_adminEvent (s : State) (i j : Nat) : (s.adminEvent i).fabState j = s.fabState j :=
  (s.regsBut_adminEvent i).rgF _ _ (not_eventKey_fp j (by omega))

theorem portFailsTraining (s : State) (port : Nat) (t : FabTrain) (hp : port < s.fabPorts) (h1 : s.fabState port = 1) (ht : t.heard = true)
    (hl : ∀ i < 4, t.lanesBad / 4 ^ i % 4 ≠ 0) : Answers (.fabricTrainingDone port t) s (fun u => u.fabState port = 0) := by
  have hx : exec (.fabricTrainingDone port t) s = execFabricTrainingDone port t s := rfl
  rw [execFabricTrainingDone, if_neg (by omega), if_neg (by omega)] at hx
  dsimp only at hx
  rw [if_neg (by simp [ht]), laneWidth_of_pairs hl] at hx
  refine ⟨_, hx, ?_⟩
  beta_reduce
  rw [State.fabState_adminEvent, State.fabState, State.rgF_wgF_of_disjoint _ _ _ _ _ _ _ _ (by omega) (by omega)]
  exact s.fabState_fabDown port

theorem portHearsNothing (s : State) (port : Nat) (t : FabTrain) (hp : port < s.fabPorts) (h1 : s.fabState port = 1) (ht : t.heard = false)
    (hn : (s.fport port).trainFrom + 100000000 ≤ s.time.now) :
    Answers (.fabricTrainingDone port t) s (fun u => u.fabState port = 0 ∧ (u.fport port).retry = true) := by
  have hx : exec (.fabricTrainingDone port t) s = execFabricTrainingDone port t s := rfl
  rw [execFabricTrainingDone, if_neg (by omega), if_neg (by omega)] at hx
  dsimp only at hx
  rw [if_pos (by simp [ht]), if_pos hn] at hx
  refine ⟨_, hx, ?_, ?_⟩
  · rw [State.fabState_adminEvent, State.fabState_congr (State.regs_modFport ..), State.fabState_fabDown]
  · rw [State.fport_congr (State.fab_adminEvent ..), State.fport_modFport, if_pos rfl]

/-! ## Replays -/

/-- Frames with a bad lane are counted. -/
def State.badFrame (s : State) (port bad : Nat) : State := if bad % 256 = 0 then s else s.bump (.fp port) 0x50C 1

section Replay

variable (s : State) (port bad : Nat)

theorem State.onlyTraced_badFrame : s.OnlyTraced (s.badFrame port bad) := by
  unfold State.badFrame
  split
  · exact .refl s
  · exact s.onlyTraced_bump ..

theorem State.fab_badFrame : (s.badFrame port bad).fab = s.fab := by rw [s.onlyTraced_badFrame port bad]

theorem State.time_badFrame : (s.badFrame port bad).time = s.time := by rw [s.onlyTraced_badFrame port bad]

/-- Only its own count changes beside the flags. -/
theorem State.rg_badFrame {o : Nat} (h : o < 0x4000) (hne : o ≠ 0x50C) : (s.badFrame port bad).rg (.fp port) o = s.rg (.fp port) o := by
  have hr : s.RegsBut (fun k => tally k ∨ k = (Blk.fp port).base + 0x50C) (s.badFrame port bad) :=
    .ite (.refl s) (s.regsBut_bump (b := .fp port) trivial 0x50C 1)
  exact hr.rg (by simp only [tally, Blk.base]; omega)

theorem Counted.of_rg {s t u : State} {b : Blk} {o n : Nat} (h : t.rg b o = s.rg b o) (hc : Counted t u b o n) : Counted s u b o n := by
  rw [Counted, h] at hc
  exact hc

theorem State.isEth_badFrame : (s.badFrame port bad).isEth port = s.isEth port := by
  rw [State.isEth, State.isEth, State.rgB, State.rgB, State.rg_badFrame _ _ _ (by omega) (by omega)]

/-- What the frames to replay depend on. -/
theorem State.peerKey_congr {s t : State} {j : Nat} (h : t.isEth j = s.isEth j) (dev : Nat) : t.peerKey j dev = s.peerKey j dev := by
  rw [State.peerKey, State.peerKey, h]

theorem State.recentReplays_congr {s t : State} {j key : Nat} (hr : mfind (t.fport j).replays key = mfind (s.fport j).replays key)
    (ht : t.time = s.time) : t.recentReplays j key = s.recentReplays j key := by rw [State.recentReplays, State.recentReplays, hr, ht]

theorem State.framesFrom_congr {s t : State} {j : Nat} (hf : (t.fport j).sentPkts = (s.fport j).sentPkts) (he : t.isEth j = s.isEth j)
    (key : Nat) (n : W32) : t.framesFrom j key n = s.framesFrom j key n := by
  rw [State.framesFrom, State.framesFrom, hf]
  refine List.filter_congr fun p _ => ?_
  rw [State.peerKey_congr he]

/-- A port's record after a replay. -/
def State.replayed (s : State) (j key : Nat) (n : W32) : FabPort :=
  { s.fport j with
    replays := mput (s.fport j).replays key (s.recentReplays j key ++ [s.time.now])
    sentPkts := (s.fport j).sentPkts.map (fun p => if (s.framesFrom j key n).contains p then { p with at_ := s.time.now } else p) }

/-- The requests whose timers a replay has moved. -/
def State.timersHeld (s : State) (j key : Nat) (n : W32) : State :=
  let tags := ((s.framesFrom j key n).filter (fun p => isRequest p.typ && p.pkt.src == s.boot.cfg.deviceId)).map (fun p => p.pkt.tag)
  let s := s.setFport j (s.replayed j key n)
  { s with net := { s.net with reqs := s.net.reqs.map (fun (r : Req) =>
    if r.remote.isSome ∧ tags.contains (r.rid % 2 ^ 24) = true then { r with heldOnce := true } else r) } }

theorem State.replay_eq (j key : Nat) (n : W32) :
    s.replay j key n = (s.timersHeld j key n).bump (.fp j) 0x500 (s.framesFrom j key n).length := rfl

theorem State.fport_timersHeld (j key : Nat) (n : W32) : (s.timersHeld j key n).fport j = s.replayed j key n :=
  (s.fport_setFport j j _).trans (if_pos rfl)

theorem State.time_timersHeld (j key : Nat) (n : W32) : (s.timersHeld j key n).time = s.time := rfl

theorem State.regs_timersHeld (j key : Nat) (n : W32) : (s.timersHeld j key n).regs = s.regs := rfl

theorem State.fport_replay (j key : Nat) (n : W32) : (s.replay j key n).fport j = s.replayed j key n := by
  rw [State.replay_eq, ← State.fport_timersHeld]
  exact State.fport_congr (by rw [State.onlyTraced_bump (s.timersHeld j key n) (.fp j) 0x500 _]) j

theorem State.time_replay (j key : Nat) (n : W32) : (s.replay j key n).time = s.time := by
  rw [State.replay_eq, State.onlyTraced_bump (s.timersHeld j key n) (.fp j) 0x500 _, State.time_timersHeld]

end Replay

section Errors

variable {s : State} {port : Nat} (bad : Nat) (hp : port < s.fabPorts) (h2 : 2 ≤ s.fabState port)
include hp h2

theorem exec_frameError (nak : Option (Nat × W32)) : exec (.linkFrameError port nak bad) s = .next (match nak with
    | some (dev, n) =>
      if 17 ≤ ((s.badFrame port bad).recentReplays port ((s.badFrame port bad).peerKey port dev)).length then s.badFrame port bad
      else (s.badFrame port bad).replay port ((s.badFrame port bad).peerKey port dev) n
    | none => if (s.badFrame port bad).isEth port then (s.badFrame port bad).bump (.fp port) 0x518 1
      else (s.badFrame port bad).sendNak port 0 ((s.badFrame port bad).fport port).expFrame) := by
  have hx : exec (.linkFrameError port nak bad) s = execLinkFrameError port nak bad s := rfl
  rw [execLinkFrameError, if_neg (by omega), if_neg (by omega)] at hx
  exact hx

theorem nakReplays (dev key : Nat) (n : W32) (hk : key = s.peerKey port dev) (hl : (s.recentReplays port key).length < 17) :
    Answers (.linkFrameError port (some (dev, n)) bad) s (fun u =>
        Counted s u (.fp port) 0x500 (s.framesFrom port key n).length ∧
        mfind (u.fport port).replays key = some (s.recentReplays port key ++ [s.time.now]) ∧
        (u.fport port).sentPkts = (s.fport port).sentPkts.map (fun p =>
          if p ∈ s.framesFrom port key n then { p with at_ := s.time.now } else p)) := by
  have hf := State.fport_congr (s.fab_badFrame port bad) port
  have he := s.isEth_badFrame port bad
  have ht := s.time_badFrame port bad
  have hr := State.recentReplays_congr (key := key) (congrArg (fun x => mfind x.replays key) hf) ht
  have hs := State.framesFrom_congr (congrArg (·.sentPkts) hf) he key n
  have hx := exec_frameError bad hp h2 (some (dev, n))
  dsimp only at hx
  rw [State.peerKey_congr he, ← hk, hr, if_neg (by omega)] at hx
  refine ⟨_, hx, ?_, ?_, ?_⟩
  · rw [State.replay_eq, hs]
    refine Counted.of_rg ?_ (State.counted_bump _ _ _ _)
    exact (State.rg_congr (State.regs_timersHeld ..) _ _).trans (s.rg_badFrame port bad (by omega) (by omega))
  · rw [State.fport_replay, State.replayed, hr, ht]
    simp
  · rw [State.fport_replay, State.replayed, hs, ht, hf]
    simp

theorem errorsCounted (hm : s.rgB (.fp port) 0x000 4 = true) : Answers (.linkFrameError port none bad) s (fun u =>
      Counted s u (.fp port) 0x518 1 ∧ u.fab = s.fab) := by
  have hx := exec_frameError bad hp h2 none
  dsimp only at hx
  rw [s.isEth_badFrame port bad, if_pos (show s.isEth port = true from hm)] at hx
  refine ⟨_, hx, Counted.of_rg (s.rg_badFrame port bad (by omega) (by omega)) (State.counted_bump _ _ _ _), ?_⟩
  rw [← s.fab_badFrame port bad, State.onlyTraced_bump (s.badFrame port bad) (.fp port) 0x518 1]

theorem errorsAnswered (hm : s.rgB (.fp port) 0x000 4 = false) : Answers (.linkFrameError port none bad) s (fun u =>
      u.fab = { s.fab with naks := s.fab.naks ++ [(port, 0, (s.fport port).expFrame)] }) := by
  have hx := exec_frameError bad hp h2 none
  dsimp only at hx
  rw [s.isEth_badFrame port bad, if_neg (by rw [State.isEth, hm]; simp)] at hx
  refine ⟨_, hx, ?_⟩
  rw [State.sendNak, State.fport_congr (s.fab_badFrame port bad), s.fab_badFrame port bad]

end Errors

/-! ## Replays of the timer -/

section Timer

variable {s : State} {port : Nat}

/-- The replay of one peer leaves the replays of another. -/
theorem State.replays_replay_ne {key key' : Nat} (h : key ≠ key') (n : W32) :
    mfind ((s.replay port key' n).fport port).replays key = mfind (s.fport port).replays key := by
  rw [State.fport_replay, State.replayed]
  simp [h]

theorem State.replays_foldl_ne {key : Nat} (l : List (Nat × W32)) (h : ∀ x ∈ l, x.1 ≠ key) (s : State) :
    mfind ((l.foldl (fun t x => t.replay port x.1 x.2) s).fport port).replays key = mfind (s.fport port).replays key ∧
      (l.foldl (fun t x => t.replay port x.1 x.2) s).time = s.time := by
  induction l generalizing s with
  | nil => exact ⟨rfl, rfl⟩
  | cons x l ih =>
    obtain ⟨h1, h2⟩ := ih (fun y hy => h y (List.mem_cons_of_mem _ hy)) (s.replay port x.1 x.2)
    exact ⟨h1.trans (State.replays_replay_ne (h x (by simp)).symm _), h2.trans (State.time_replay ..)⟩

/-- A peer that is replayed once shows it. -/
theorem State.replays_foldl_mem {key : Nat} {l : List (Nat × W32)} (hn : (l.map (·.1)).Nodup) (hm : key ∈ l.map (·.1)) (s : State) :
    mfind ((l.foldl (fun t x => t.replay port x.1 x.2) s).fport port).replays key = some (s.recentReplays port key ++ [s.time.now]) := by
  induction l generalizing s with
  | nil => simp at hm
  | cons x l ih =>
    rw [List.map_cons, List.nodup_cons] at hn
    obtain ⟨hx, hn⟩ := hn
    rw [List.foldl_cons]
    by_cases hk : x.1 = key
    · subst hk
      have hl : ∀ y ∈ l, y.1 ≠ x.1 := fun y hy e => hx (e ▸ List.mem_map_of_mem hy)
      rw [(State.replays_foldl_ne l hl _).1, State.fport_replay, State.replayed]
      simp
    · have hm' : key ∈ l.map (·.1) := by
        rw [List.map_cons, List.mem_cons] at hm
        exact hm.resolve_left fun e => hk e.symm
      rw [ih hn hm', State.recentReplays_congr (State.replays_replay_ne (fun e => hk e.symm) _) (State.time_replay ..), State.time_replay]

theorem map_fst_filterMap {α β : Type} {f : α → Option β} (l : List α) (h : ∀ x ∈ l, (f x).isSome) :
    (l.filterMap (fun x => (f x).map (fun y => (x, y)))).map (·.1) = l := by
  induction l with
  | nil => rfl
  | cons x l ih =>
    obtain ⟨y, hy⟩ := Option.isSome_iff_exists.1 (h x (by simp))
    rw [List.filterMap_cons, hy]
    exact congrArg _ (ih fun z hz => h z (List.mem_cons_of_mem _ hz))

theorem nodup_eraseDups (l : List Nat) : l.eraseDups.Nodup := by
  induction h : l.length using Nat.strongRecOn generalizing l with
  | _ n ih =>
    cases l with
    | nil => exact List.nodup_nil
    | cons x l =>
      rw [List.eraseDups_cons, List.nodup_cons]
      refine ⟨by simp, ih _ ?_ _ rfl⟩
      subst h
      exact Nat.lt_succ_of_le (List.length_filter_le ..)

/-- The peers with a request that is due, each once. -/
def State.retxPeers (s : State) (j : Nat) : List Nat :=
  ((((((s.fport j).sentPkts.filter (fun p => isRequest p.typ)).filter (fun p =>
    decide (p.at_ + 250 * max 1 (s.rgF (.fp j) 0x008 20 13) ≤ s.time.now))).map (fun p => s.peerKey j p.pkt.dst)).eraseDups).filter
      (fun key => decide ((s.recentReplays j key).length < 17)))

theorem State.retxDue_fst (s : State) (j : Nat) : (s.retxDue j).map (·.1) = s.retxPeers j := by
  have hd : s.retxDue j = (s.retxPeers j).filterMap (fun key =>
      ((((s.fport j).sentPkts.filter (fun p => isRequest p.typ)).find? (fun p => s.peerKey j p.pkt.dst == key)).map (·.frame)).map
        (fun y => (key, y))) := by
    simp only [State.retxDue, Option.map_map]
    rfl
  rw [hd]
  refine map_fst_filterMap _ fun key hk => ?_
  simp only [State.retxPeers, List.mem_filter, List.mem_eraseDups, List.mem_map] at hk
  obtain ⟨⟨p, ⟨hp, -⟩, rfl⟩, -⟩ := hk
  rw [Option.isSome_map, List.find?_isSome]
  exact ⟨p, List.mem_filter.2 hp, by simp⟩

theorem peersReplayed (s : State) (port : Nat) (hp : port < s.fabPorts) (key : Nat) (hu : s.portUp port = true)
    (he : s.rgB (.fp port) 0x000 4 = true) (hl : (s.recentReplays port key).length < 17)
    (hd : ∃ p ∈ (s.fport port).sentPkts, isRequest p.typ = true ∧ s.peerKey port p.pkt.dst = key ∧
        p.at_ + 250 * max 1 (s.rgF (.fp port) 0x008 20 13) ≤ s.time.now) :
    Answers (.retxTimer port) s (fun u => mfind (u.fport port).replays key = some (s.recentReplays port key ++ [s.time.now])) := by
  have hx : exec (.retxTimer port) s = execRetxTimer port s := rfl
  rw [execRetxTimer, if_neg (by omega), if_pos (by rw [hu, State.isEth, he]; rfl)] at hx
  obtain ⟨p, hm, hr, hk, ht⟩ := hd
  refine ⟨_, hx, State.replays_foldl_mem ?_ ?_ s⟩
  · rw [State.retxDue_fst]
    exact (nodup_eraseDups _).filter _
  · rw [State.retxDue_fst]
    simp only [State.retxPeers, List.mem_filter, List.mem_eraseDups, List.mem_map]
    exact ⟨⟨p, ⟨⟨hm, hr⟩, by simpa using ht⟩, hk⟩, by simpa using hl⟩

end Timer

/-! ## Give-up -/

section Fails

variable (s : State)

theorem State.fab_bump (b : Blk) (o n : Nat) : (s.bump b o n).fab = s.fab := by rw [s.onlyTraced_bump b o n]

theorem State.fab_bump64 (b : Blk) (o n : Nat) : (s.bump64 b o n).fab = s.fab := by rw [s.onlyTraced_bump64 b o n]

theorem State.fab_trace (js : List Job) : (s.trace js).fab = s.fab := by rw [s.onlyTraced_trace js]

theorem State.fab_traceMark (j : Nat) (bs : List Byte) : (s.traceMark j bs).fab = s.fab := by
  refine State.foldl_same (fun t => t.fab) (fun t r => ?_) _ s
  dsimp only
  split
  · exact (State.fab_bump ..).trans (t.fab_trace _)
  · exact t.fab_trace _

theorem State.fab_stamp (j : Nat) (received : Bool) (k : FabPkt) : (s.stamp j received k).fab = s.fab := by
  unfold State.stamp
  split
  · rfl
  · exact s.fab_traceMark j _

/-- What leaves a port is added to what has left; nothing else of the fabric's record changes. -/
theorem State.fab_leave (j typ : Nat) (k : FabPkt) (n : W32) : (s.leave j typ k n).fab =
    { s.fab with out := s.fab.out ++ [(typ, k)], frames := s.fab.frames ++ [s.frameOf j typ k n] } := by
  rw [State.leave, State.fab_stamp, State.fab_bump64, State.fab_bump64]

theorem State.failed_transmit (j typ : Nat) (k : FabPkt) : (s.transmit j typ k).fab.failed = s.fab.failed := by
  unfold State.transmit
  dsimp only
  split
  · rfl
  · rw [State.fab_leave]; rfl

theorem State.failed_emit (j typ : Nat) (k : FabPkt) : (s.emit j typ k).fab.failed = s.fab.failed := State.failed_transmit ..

/-- A request that fails on a port is marked with it. -/
theorem State.failed_failPkt (j typ rid : Nat) (k : FabPkt) :
    mfind (s.failPkt j typ k).fab.failed rid = mfind s.fab.failed rid ∨ mfind (s.failPkt j typ k).fab.failed rid = some j := by
  unfold State.failPkt
  split
  · next r _ =>
    dsimp only
    rw [mfind_mput]
    split
    · exact .inr rfl
    · exact .inl rfl
  · exact .inl rfl

theorem State.failed_lostFrame (j rid : Nat) (p : SentPkt) :
    mfind (s.lostFrame j p).fab.failed rid = mfind s.fab.failed rid ∨ mfind (s.lostFrame j p).fab.failed rid = some j := by
  unfold State.lostFrame
  split
  · exact s.failed_failPkt ..
  · split
    · exact .inl rfl
    · split
      · rw [State.failed_emit]; exact .inl rfl
      · rw [State.failed_transmit]; exact .inl rfl

theorem State.failed_foldl_lostFrame (j rid : Nat) (l : List SentPkt) (h : mfind s.fab.failed rid = some j) :
    mfind (l.foldl (fun t p => t.lostFrame j p) s).fab.failed rid = some j := by
  induction l generalizing s with
  | nil => exact h
  | cons p l ih => exact ih _ ((s.failed_lostFrame j rid p).elim (·.trans h) id)

theorem State.sends_lostFrames (j : Nat) (l : List SentPkt) : s.Sends (· ≠ j) (l.foldl (fun t p => t.lostFrame j p) s) :=
  .foldl (fun t p => t.sends_lostFrame j p) l s

theorem State.Sends.tagged {P : Nat → Prop} {s t : State} (h : s.Sends P t) (tag : Nat) : t.tagged tag = s.tagged tag := by
  have hn : t.net = s.net := by rw [h.only]
  rw [State.tagged, State.tagged, hn]

theorem State.Sends.net {P : Nat → Prop} {s t : State} (h : s.Sends P t) : t.net = s.net := by rw [h.only]

theorem State.net_modFport (j : Nat) (f : FabPort → FabPort) : (s.modFport j f).net = s.net := rfl

theorem State.boot_modFport (j : Nat) (f : FabPort → FabPort) : (s.modFport j f).boot = s.boot := rfl

theorem State.Sends.boot {P : Nat → Prop} {s t : State} (h : s.Sends P t) : t.boot = s.boot := by rw [h.only]

/-- Every own request among the frames that a port gives up is marked as failed on it. -/
theorem State.failed_lostFrames (j : Nat) (l : List SentPkt) {p : SentPkt} (hp : p ∈ l) (hr : isRequest p.typ = true)
    (hs : p.pkt.src = s.boot.cfg.deviceId) {r : Req} (ht : s.tagged p.pkt.tag = some r) :
    mfind (l.foldl (fun t p => t.lostFrame j p) s).fab.failed r.rid = some j := by
  induction l generalizing s with
  | nil => simp at hp
  | cons q l ih =>
    rw [List.foldl_cons]
    rcases List.mem_cons.1 hp with rfl | hq
    · refine State.failed_foldl_lostFrame _ j r.rid l ?_
      have hc : (isRequest p.typ && p.pkt.src == s.boot.cfg.deviceId) = true := by simp [hr, hs]
      rw [State.lostFrame, if_pos hc, State.failPkt, if_pos hc, ht]
      simp
    · have hl := s.sends_lostFrame j q
      exact ih _ hq (by rw [hl.boot, hs]) (by rw [hl.tagged, ht])

end Fails

section GiveUp

variable (s : State) (port bad : Nat)

/-- The frames of a port to the peers whose replays are spent. -/
def State.gone (s : State) (port : Nat) (p : SentPkt) : Bool := (s.spentPeers port).contains (s.peerKey port p.pkt.dst)

/-- A port that gives up, before it trains narrower or goes down. -/
def State.givenUp (s : State) (port bad : Nat) : State :=
  let t := (s.bump (.fp port) 0x504 1).modFport port (fun x => { x with
    sentPkts := x.sentPkts.filter (fun p => !s.gone port p), replays := x.replays.filter (fun e => !(s.spentPeers port).contains e.1)
    trainFrom := (s.bump (.fp port) 0x504 1).time.now, full := false, retry := false })
  t.wgF (.fp port) 0x000 15 8 ((BitVec.ofNat 8 bad) ||| (BitVec.ofNat 8 (t.rgF (.fp port) 0x000 15 8))).toNat

/-- It trains on the lanes that are left. -/
def State.narrowed (s : State) (port w : Nat) : State :=
  (((s.wgF (.fp port) 0x000 1 0 1).wgF (.fp port) 0x000 3 2 w).wgF (.fp port) 0x000 7 5 0).modFport port (fun x => { x with most := w })

theorem State.rgF_modFport (s : State) (j : Nat) (f : FabPort → FabPort) (b : Blk) (o hi lo : Nat) :
    (s.modFport j f).rgF b o hi lo = s.rgF b o hi lo := State.rgF_congr (State.regs_modFport ..) ..

/-- A count leaves the port's other registers. -/
theorem State.rg_bump_fp {c o : Nat} (n : Nat) (h : o < 0x4000) (hne : o ≠ c) : (s.bump (.fp port) c n).rg (.fp port) o = s.rg (.fp port) o :=
  (s.regsBut_bump (b := .fp port) trivial c n).rg (by simp only [tally, Blk.base]; omega)

theorem exec_giveUp {s : State} {port : Nat} (bad : Nat) (hp : port < s.fabPorts) (h2 : 2 ≤ s.fabState port) (hs : s.spentPeers port ≠ []) :
    exec (.linkGiveUp port bad) s = .next (
      let t := s.givenUp port bad
      let ps := (s.fport port).sentPkts.filter (s.gone port)
      match laneWidth ((BitVec.ofNat 8 bad) ||| (BitVec.ofNat 8 (s.rgF (.fp port) 0x000 15 8))).toNat (s.rgF (.fp port) 0x000 3 2) with
      | none => (ps.foldl (fun t p => t.lostFrame port p) (t.fabDown port)).adminEvent 9
      | some w => ps.foldl (fun t p => t.lostFrame port p)
          (State.narrowed (if w ≤ s.rgF (.fp port) 0x000 3 2 then t else t.bump (.fp port) 0x508 1) port w)) := by
  have hx : exec (.linkGiveUp port bad) s = execLinkGiveUp port bad s := rfl
  have hr : ∀ hi lo, (s.bump (.fp port) 0x504 1).rgF (.fp port) 0x000 hi lo = s.rgF (.fp port) 0x000 hi lo := fun hi lo => by
    rw [State.rgF, State.rg_bump_fp _ _ _ (by omega) (by omega), State.rgF]
  have hk : (s.bump (.fp port) 0x504 1).peerKey port = s.peerKey port := funext fun dev =>
    State.peerKey_congr (by rw [State.isEth, State.rgB, State.rg_bump_fp _ _ _ (by omega) (by omega)]; rfl) dev
  have hf : (s.bump (.fp port) 0x504 1).fport port = s.fport port := State.fport_congr (s.fab_bump ..) port
  rw [execLinkGiveUp, if_neg (by omega)] at hx
  dsimp only at hx
  rw [if_neg (by rintro (h | h); exacts [hs h, by omega]), hk, hf] at hx
  rw [hx]
  simp only [State.rgF_modFport, hr, State.givenUp]
  generalize laneWidth _ _ = w
  cases w with
  | none => rfl
  | some w => rfl

/-- The port's record after its give-up. -/
theorem State.fport_givenUp : (s.givenUp port bad).fport port = { s.fport port with
    sentPkts := (s.fport port).sentPkts.filter (fun p => !s.gone port p)
    replays := (s.fport port).replays.filter (fun e => !(s.spentPeers port).contains e.1)
    trainFrom := s.time.now, full := false, retry := false } := by
  have ht : (s.bump (.fp port) 0x504 1).time = s.time := by rw [s.onlyTraced_bump (.fp port) 0x504 1]
  rw [State.givenUp, State.fport_congr (State.wgF_fab ..), State.fport_modFport, if_pos rfl, State.fport_congr (s.fab_bump ..), ht]

theorem State.regsBut_givenUp : (s.bump (.fp port) 0x504 1).RegsBut (fun k => k = (Blk.fp port).base + 0x000) (s.givenUp port bad) :=
  (State.RegsBut.of_eq (State.regs_modFport ..)).trans (State.regsBut_wgF _ _ _ _ _ _ rfl)

theorem State.net_givenUp : (s.givenUp port bad).net = s.net := by
  have h : (s.bump (.fp port) 0x504 1).net = s.net := by rw [s.onlyTraced_bump (.fp port) 0x504 1]
  rw [← h, State.givenUp, State.wgF_net]
  rfl

theorem State.boot_givenUp : (s.givenUp port bad).boot = s.boot := by
  have h : (s.bump (.fp port) 0x504 1).boot = s.boot := by rw [s.onlyTraced_bump (.fp port) 0x504 1]
  rw [← h, State.givenUp, State.wgF_boot]
  rfl

end GiveUp

/-- What a port that has given up leaves, however it goes on. -/
structure State.GaveUp (s u : State) (port : Nat) : Prop where
  sent : ∀ p ∈ (u.fport port).sentPkts, s.gone port p = false
  net : u.net = s.net
  boot : u.boot = s.boot
  counts : (u.rg (.fp port) 0x504) = ((s.bump (.fp port) 0x504 1).rg (.fp port) 0x504)

section Onward

variable (s : State) (port bad : Nat)

theorem State.gaveUp_givenUp : s.GaveUp (s.givenUp port bad) port where
  sent p hp := by
    rw [State.fport_givenUp] at hp
    simpa using (List.mem_filter.1 hp).2
  net := s.net_givenUp port bad
  boot := s.boot_givenUp port bad
  counts := (s.regsBut_givenUp port bad).rg (by omega)

theorem State.gaveUp_down : s.GaveUp ((s.givenUp port bad).fabDown port) port where
  sent p hp := by rw [State.fport_fabDown] at hp; simp [FabPort.cleared] at hp
  net := by
    rw [State.fabDown_eq, (State.sends_movePackets _ port).net, State.net_modFport, State.downRegs, State.wgB_net, State.wgB_net, State.wgF_net,
      State.wgF_net, State.wgF_net, State.net_givenUp]
  boot := by
    rw [State.fabDown_eq, (State.sends_movePackets _ port).boot, State.boot_modFport, State.downRegs, State.wgB_boot, State.wgB_boot,
      State.wgF_boot, State.wgF_boot, State.wgF_boot, State.boot_givenUp]
  counts := by
    rw [← (s.gaveUp_givenUp port bad).counts, ((s.givenUp port bad).regsBut_fabDown port).rg (not_fabCount_fp (by omega) (.inr (by simp)))]
    unfold State.downRegs State.wgB State.wgF
    simp only [State.rg_wg_ne _ _ (show (Blk.fp port).base + 0x504 ≠ (Blk.fp port).base + 0x000 by omega),
      State.rg_wg_ne _ _ (show (Blk.fp port).base + 0x504 ≠ (Blk.fp port).base + 0x004 by omega),
      State.rg_wg_ne _ _ (show (Blk.fp port).base + 0x504 ≠ (Blk.fp port).base + 0x008 by omega)]

theorem State.GaveUp.narrowed {u : State} (h : s.GaveUp u port) (w : Nat) : s.GaveUp (u.narrowed port w) port where
  sent p hp := by
    refine h.sent p ?_
    rw [State.narrowed, State.fport_modFport, if_pos rfl, State.fport_congr (s := u) (by rw [State.wgF_fab, State.wgF_fab, State.wgF_fab])] at hp
    exact hp
  net := by rw [State.narrowed, State.modFport, State.setFport, State.wgF_net, State.wgF_net, State.wgF_net, h.net]
  boot := by rw [State.narrowed, State.modFport, State.setFport, State.wgF_boot, State.wgF_boot, State.wgF_boot, h.boot]
  counts := by
    rw [← h.counts, State.narrowed, State.rg_congr (State.regs_modFport ..)]
    unfold State.wgF
    simp only [State.rg_wg_ne _ _ (show (Blk.fp port).base + 0x504 ≠ (Blk.fp port).base + 0x000 by omega)]

theorem State.GaveUp.bump {u : State} (h : s.GaveUp u port) : s.GaveUp (u.bump (.fp port) 0x508 1) port where
  sent p hp := h.sent p (by rwa [State.fport_congr (u.fab_bump ..)] at hp)
  net := by rw [u.onlyTraced_bump (.fp port) 0x508 1, h.net]
  boot := by rw [u.onlyTraced_bump (.fp port) 0x508 1, h.boot]
  counts := by rw [← h.counts, State.rg_bump_fp _ _ _ (by omega) (by omega)]

/-- What the frames that it gives up come to. -/
theorem State.GaveUp.lost {u : State} (h : s.GaveUp u port) :
    s.GaveUp (((s.fport port).sentPkts.filter (s.gone port)).foldl (fun t p => t.lostFrame port p) u) port ∧
    (∀ p ∈ (s.fport port).sentPkts, s.gone port p = true → isRequest p.typ = true → p.pkt.src = s.boot.cfg.deviceId →
      ∀ r, s.tagged p.pkt.tag = some r →
        mfind (((s.fport port).sentPkts.filter (s.gone port)).foldl (fun t p => t.lostFrame port p) u).fab.failed r.rid = some port) := by
  have hl := u.sends_lostFrames port ((s.fport port).sentPkts.filter (s.gone port))
  refine ⟨⟨fun p hp => h.sent p ?_, ?_, hl.boot.trans h.boot, ?_⟩, fun p hp hg hr hs r ht => ?_⟩
  · rwa [hl.ports port (by simp)] at hp
  · rw [hl.net, h.net]
  · rw [← h.counts, hl.regs.rg (not_fabCount_fp (by omega) (.inr (by simp)))]
  · refine State.failed_lostFrames _ _ _ (List.mem_filter.2 ⟨hp, hg⟩) hr (by rw [h.boot, hs]) ?_
    rw [← ht, State.tagged, State.tagged, h.net]

theorem State.GaveUp.event {u : State} (h : s.GaveUp u port) : s.GaveUp (u.adminEvent 9) port where
  sent p hp := h.sent p (by rwa [State.fport_congr (u.fab_adminEvent 9)] at hp)
  net := (u.net_adminEvent 9).trans h.net
  boot := (u.boot_adminEvent 9).trans h.boot
  counts := by rw [← h.counts, (u.regsBut_adminEvent 9).rg (not_eventKey_fp port (by omega))]

end Onward

/-- STATE of a port that trains narrower stays 1 through what it gives up. -/
theorem State.fabState_narrowed (s : State) (port w : Nat) : (s.narrowed port w).fabState port = 1 := by
  rw [State.narrowed, State.fabState_congr (State.regs_modFport ..), State.fabState,
    State.rgF_wgF_of_disjoint _ _ _ _ _ _ _ _ (by omega) (by omega), State.rgF_wgF_of_disjoint _ _ _ _ _ _ _ _ (by omega) (by omega),
    State.rgF_wgF_self _ _ _ _ _ _ (by omega)]
  rfl

theorem State.fabState_lostFrames (s : State) (port : Nat) (l : List SentPkt) :
    (l.foldl (fun t p => t.lostFrame port p) s).fabState port = s.fabState port :=
  (s.sends_lostFrames port l).regs.rgF _ _ (not_fabCount_fp (by omega) (.inl (by omega)))

theorem State.fport_lostFrames (s : State) (port : Nat) (l : List SentPkt) :
    (l.foldl (fun t p => t.lostFrame port p) s).fport port = s.fport port := (s.sends_lostFrames port l).ports port (by simp)

theorem portGivesUp (s : State) (port bad : Nat) (hp : port < s.fabPorts) (h2 : 2 ≤ s.fabState port) (hs : s.spentPeers port ≠ []) :
    Answers (.linkGiveUp port bad) s (fun u => Counted s u (.fp port) 0x504 1 ∧
        (∀ p ∈ (u.fport port).sentPkts, s.peerKey port p.pkt.dst ∉ s.spentPeers port) ∧
        (∀ p ∈ (s.fport port).sentPkts, s.peerKey port p.pkt.dst ∈ s.spentPeers port → isRequest p.typ = true →
          p.pkt.src = s.boot.cfg.deviceId → ∀ r, s.tagged p.pkt.tag = some r → mfind u.fab.failed r.rid = some port) ∧
        (bad % 256 = 0 → s.rgF (.fp port) 0x000 15 8 = 0 → s.rgF (.fp port) 0x000 3 2 = 0 →
          u.fabState port = 1 ∧ (u.fport port).full = false) ∧
        ((∀ i < 4, bad / 4 ^ i % 4 ≠ 0) → u.fabState port = 0)) := by
  have hx := exec_giveUp bad hp h2 hs
  dsimp only at hx
  have hc : ∀ {u : State}, s.GaveUp u port → Counted s u (.fp port) 0x504 1 ∧
      ∀ p ∈ (u.fport port).sentPkts, s.peerKey port p.pkt.dst ∉ s.spentPeers port := fun h => by
    refine ⟨fun hlt => ?_, fun p hm => by simpa [State.gone] using h.sent p hm⟩
    rw [h.counts]
    exact s.counted_bump (.fp port) 0x504 1 hlt
  have hg : ∀ {p : SentPkt}, s.peerKey port p.pkt.dst ∈ s.spentPeers port → s.gone port p = true := fun h => by simpa [State.gone] using h
  cases hw : laneWidth ((BitVec.ofNat 8 bad) ||| (BitVec.ofNat 8 (s.rgF (.fp port) 0x000 15 8))).toNat (s.rgF (.fp port) 0x000 3 2) with
  | none =>
    rw [hw] at hx
    dsimp only at hx
    obtain ⟨h1, h3⟩ := State.GaveUp.lost s port (s.gaveUp_down port bad)
    obtain ⟨hn, hq⟩ := hc (h1.event s port)
    refine ⟨_, hx, hn, hq, fun p hm hk hr ho r ht => ?_, fun hb h8 h2 => ?_, fun _ => ?_⟩
    · rw [State.fab_adminEvent]
      exact h3 p hm (hg hk) hr ho r ht
    · rw [h8, h2, laneWidth_of_good hb] at hw
      simp [laneWidth] at hw
    · rw [State.fabState_adminEvent, State.fabState_lostFrames, State.fabState_fabDown]
  | some w =>
    rw [hw] at hx
    dsimp only at hx
    have hu : s.GaveUp (if w ≤ s.rgF (.fp port) 0x000 3 2 then s.givenUp port bad else (s.givenUp port bad).bump (.fp port) 0x508 1) port := by
      split
      · exact s.gaveUp_givenUp port bad
      · exact (s.gaveUp_givenUp port bad).bump s port
    obtain ⟨h1, h3⟩ := State.GaveUp.lost s port (hu.narrowed s port w)
    obtain ⟨hn, hq⟩ := hc h1
    refine ⟨_, hx, hn, hq, fun p hm hk hr ho r ht => h3 p hm (hg hk) hr ho r ht, fun hb h8 h2 => ?_, fun hb => ?_⟩
    · rw [h8, h2, laneWidth_of_good hb] at hw
      obtain rfl : 0 = w := by simpa [laneWidth] using hw
      rw [if_pos (by omega), State.fabState_lostFrames, State.fport_lostFrames, State.fabState_narrowed, State.narrowed, State.fport_modFport,
        if_pos rfl, State.fport_congr (s := s.givenUp port bad) (by rw [State.wgF_fab, State.wgF_fab, State.wgF_fab]), State.fport_givenUp]
      exact ⟨rfl, rfl⟩
    · rw [laneWidth_of_pairs hb] at hw
      cases hw

/-- Settles O46. -/
theorem fabricLinks : Obligations.FabricLinks := by
  unfold Obligations.FabricLinks
  refine ⟨fun s port hp hh he h0 => ⟨portTrains s port hp hh he h0, fun hr ht => portTrainsAgain s port hp hh he h0 hr ht⟩, hostRetrains,
    fun s port t hp h1 hf => ⟨fun ht hl hb hm => portTrained s port t hp h1 hf ht hl hb hm,
      fun ht hl => portFailsTraining s port t hp h1 ht hl, fun ht hn => portHearsNothing s port t hp h1 ht hn⟩,
    fun s port bad hp h2 => ⟨fun dev key n hk hl => nakReplays bad hp h2 dev key n hk hl, errorsCounted bad hp h2, errorsAnswered bad hp h2,
      fun key hu he hl hd => peersReplayed s port hp key hu he hl hd, portGivesUp s port bad hp h2, portGoesDown s port hp h2⟩⟩

end Sys2Proof.Machine
end


section
/-! PROOF. What answers bring to this part (R192, R211, R294, R296): O48. -/

namespace Sys2Proof.Machine

open Sys2Proof.Claims

/-! ## Counters of cores, wherever they lie -/

theorem not_ringKey_cntCore (i : Nat) {o : Nat} (h : o < 0x800) : ¬ ringKey ((Blk.cntCore i).base + o) := by
  rintro ⟨r, hr, he⟩
  simp only [Blk.base, ringOff] at he
  omega

theorem not_ringKey_flag_cntCore (i o : Nat) : ¬ ringKey (flagPlace (.cntCore i) o).1 := by
  have hp := (posOf_le (counterWords (.cntCore i)) o).trans (length_counterWords (.cntCore i))
  rintro ⟨r, hr, he⟩
  revert he hp
  simp only [flagPlace, ringOff]
  generalize posOf (counterWords (.cntCore i)) o = x
  simp [Blk.site, Blk.flagNo, Blk.base]
  omega

theorem not_ringKey_dbg (t : Nat) {o : Nat} (h : o < 0x20000) : ¬ ringKey ((Blk.dbg t).base + o) := by
  rintro ⟨r, hr, he⟩
  simp only [Blk.base, ringOff] at he
  omega

/-! ## What goes out leaves the rest -/

section Frames

variable {P : Nat → Prop} {s t : State}

theorem State.Sends.cores (h : s.Sends P t) : t.cores = s.cores := by rw [h.only]

theorem State.Sends.cmds (h : s.Sends P t) : t.cmds = s.cmds := by rw [h.only]

theorem State.Sends.req? (h : s.Sends P t) (rid : Nat) : t.req? rid = s.req? rid := by rw [State.req?, State.req?, h.net]

theorem State.sends_unsent (s : State) (r : Req) : s.Sends (fun _ => True) (s.unsent r) :=
  .trans (.foldl (fun t _ => (t.sends_modFport trivial _).trans (State.sends_drainPort _ trivial)) _ s) (State.sends_fab ..)

theorem State.sends_took (s : State) (j : Nat) (k : FabPkt) : s.Sends (fun _ => True) (s.took j k) :=
  (s.sends_modFport trivial _).trans ((State.sends_bump64 _ trivial (by omega) (by omega) _).trans
    ((State.sends_bump64_cnt _ (by omega) _).trans (State.sends_stamp _ trivial true k)))

end Frames

/-! ## Answers of loads -/

section Answer

variable (s : State) (r : Req)

/-- What an answer brings is counted. -/
def State.brought : State :=
  let s := { s with net := { s.net with unitUse := mput s.net.unitUse (r.site * 4 + unitOf r.slot) s.time.now } }
  if r.brings = 0 then s else s.bump64 (.cntCore r.site) (if r.remote.isNone && s.placeSite r.addr == r.site then 0x028 else 0x040) r.brings

/-- A load's registers take its data. -/
def State.loaded : State :=
  match r.dest with
  | none => s
  | some d => s.modGroup r.site r.slot (fun g => g.writeData r.lane (regNo r.uni d) (loadWords r.size r.sx r.result.toNat) r.rpois)

/-- The core's L1 takes its line. -/
def State.filled : State :=
  if r.fillL1 && !r.dropFill then s.modCore r.site (fun k => k.l1Fill ⟨r.addr / 128, r.line, r.lpois⟩) else s

theorem State.answer_eq : s.answer r = if 70 < r.slot then s else ((s.brought r).loaded r).filled r := rfl

/-- Between s and t the requests are the same, and where no ring runs memory is too. -/
def State.SameReqs (s t : State) : Prop := s.Quiet t ∧ t.net.reqs = s.net.reqs

theorem State.SameReqs.refl (s : State) : s.SameReqs s := ⟨.refl s, rfl⟩

theorem State.SameReqs.trans {s t u : State} (h : s.SameReqs t) (k : t.SameReqs u) : s.SameReqs u := ⟨h.1.trans k.1, k.2.trans h.2⟩

theorem State.SameReqs.ite {s t u : State} {p : Prop} [Decidable p] (h : s.SameReqs t) (h' : s.SameReqs u) :
    s.SameReqs (if p then t else u) := by split <;> assumption

theorem State.sameReqs_bump64_core (i : Nat) {o : Nat} (h : o < 0x200) (n : Nat) : s.SameReqs (s.bump64 (.cntCore i) o n) :=
  ⟨s.quiet_bump64 (not_ringKey_flag_cntCore i o) (not_ringKey_cntCore i (by omega)) (not_ringKey_cntCore i (by omega)) n,
    by rw [s.onlyTraced_bump64 (.cntCore i) o n]⟩

theorem State.sameReqs_bump_core (i : Nat) {o : Nat} (h : o < 0x200) (n : Nat) : s.SameReqs (s.bump (.cntCore i) o n) :=
  ⟨s.quiet_bump (not_ringKey_flag_cntCore i o) (not_ringKey_cntCore i (by omega)) n, by rw [s.onlyTraced_bump (.cntCore i) o n]⟩

theorem State.sameReqs_modCore (i : Nat) (f : Core → Core) : s.SameReqs (s.modCore i f) := ⟨.of_eq ⟨rfl, rfl, rfl⟩ rfl, rfl⟩

theorem State.sameReqs_brought : s.SameReqs (s.brought r) := by
  have h : s.SameReqs { s with net := { s.net with unitUse := mput s.net.unitUse (r.site * 4 + unitOf r.slot) s.time.now } } :=
    ⟨.of_eq ⟨rfl, rfl, rfl⟩ rfl, rfl⟩
  exact .ite h (h.trans (State.sameReqs_bump64_core _ _ (by split <;> omega) _))

theorem State.sameReqs_loaded : s.SameReqs (s.loaded r) := by
  unfold State.loaded
  split
  · exact .refl s
  · exact s.sameReqs_modCore ..

theorem State.sameReqs_answer : s.SameReqs (s.answer r) := by
  rw [State.answer_eq]
  exact .ite (.refl s) (((s.sameReqs_brought r).trans (State.sameReqs_loaded _ r)).trans (.ite (State.sameReqs_modCore ..) (.refl _)))

theorem State.SameReqs.req? {s t : State} (h : s.SameReqs t) (rid : Nat) : t.req? rid = s.req? rid := by rw [State.req?, State.req?, h.2]

/-- A watchpoint that matches shows in the debug registers. -/
theorem State.onlyRegs_watch (site slot space ea n : Nat) (write : Bool) : s.OnlyRegs (s.watch site slot space ea n write) := by
  unfold State.watch
  split
  · exact .refl s
  · exact (State.onlyRegs_wg ..).trans ((State.onlyRegs_wg ..).trans ((State.onlyRegs_wg ..).trans ((State.onlyRegs_wg ..).trans (State.onlyRegs_wg ..))))

theorem State.quiet_watch (site : Nat) {slot : Nat} (space ea n : Nat) (write : Bool) (h : slot < 64) :
    s.Quiet (s.watch site slot space ea n write) := by
  refine .of_regs (s.onlyRegs_watch ..).memory ?_
  unfold State.watch
  split
  · exact .refl s
  · have hk : ∀ o, o ≤ 0x20 → ¬ ringKey ((Blk.dbg (siteStack site)).base + (dbgOff site + o)) := fun o ho =>
      not_ringKey_dbg _ (by simp only [dbgOff, siteN]; omega)
    refine (s.regsBut_wgB _ _ _ _ ?_).trans ((State.regsBut_wgB _ _ _ _ _ (hk 4 (by omega))).trans ((State.regsBut_wgB _ _ _ _ _ (hk 4 (by omega))).trans
      ((State.regsBut_wgF _ _ _ _ _ _ (hk 4 (by omega))).trans (State.regsBut_wgF _ _ _ _ _ _ (hk 4 (by omega))))))
    rw [Nat.add_assoc (dbgOff site)]
    exact hk _ (by omega)

end Answer

/-! ## A packet that a port takes -/

/-- A new packet for this part is taken and delivered. -/
theorem runFab_of_arrives {s : State} {port : Nat} {k : FabPkt} (h : Arrives s port k) (typ : Nat) (deliver : State → State) :
    runFab s port typ k false deliver = .next (deliver (s.took port k)) := by
  obtain ⟨hu, hs, hg, hd, hl⟩ := h
  have hp : port < s.fabPorts := by
    rw [State.portUp, Bool.and_eq_true] at hu
    exact of_decide_eq_true hu.1
  have hn : s.looped typ k = false := by
    rw [State.looped, List.contains_eq_any_beq, List.any_eq_false]
    intro x hx he
    exact hl x hx (congrArg Prod.snd (eq_of_beq he)).symm
  rw [runFab, if_neg (by omega), if_neg (by simp [hn]), if_neg (by simp [hu]), if_neg (by simp [hs]), hg]
  dsimp only
  rw [if_neg (by simp [hd]), if_neg (by simp)]

theorem Arrives.tagged {s : State} {port : Nat} {k : FabPkt} {r : Req} (ht : s.tagged k.tag = some r) :
    (s.took port k).tagged k.tag = some r := ((s.sends_took port k).tagged k.tag).trans ht

/-- The answer of a read of an engine. -/
theorem engineTakes (s : State) (port : Nat) (k : FabPkt) (r : Req) (h : Arrives s port k) (ht : s.tagged k.tag = some r)
    (hr : s.req? r.rid = some r) (hk : r.kind = .read) (hs : 64 < r.slot) : Answers (.fabricReadResponse port k) s (fun u =>
      u.req? r.rid = some { r with state := .ready, line := k.data, lpois := k.poison } ∧ (TraceOff s → SameMemory s u)) := by
  have hx : exec (.fabricReadResponse port k) s = execFabricReadResponse port k s := rfl
  rw [execFabricReadResponse, runFab_of_arrives h, Arrives.tagged ht] at hx
  dsimp only at hx
  rw [if_pos hk, State.readBack, if_neg (by omega), if_neg (by omega)] at hx
  have hto := (s.sends_took port k).trans ((s.took port k).sends_unsent r)
  have ha := ((s.took port k).unsent r).sameReqs_answer r
  refine ⟨_, hx, ?_, fun hoff => ((hto.quiet.trans ha.1).trans (.of_eq ⟨rfl, rfl, rfl⟩ rfl) hoff).2⟩
  rw [State.req?_setReq, if_pos rfl]
  dsimp only
  rw [ha.req?, hto.req?, hr]
  rfl

/-! ## Words that a load brings -/

/-- The registers of a lane after data is written from register r on. -/
theorem Group.reg_foldl_write (lane : Nat) (p : Bool) (r o : Nat) (ws : List W32) (g : Group) (hl : lane < g.threads.length)
    (hr : r + o + ws.length ≤ 256) (l x : Nat) :
    (((upTo o ws.length).zip ws).foldl (fun h y => h.write (r + y.1) [(lane, y.2, p)]) g).reg l x =
      if l = lane ∧ r + o ≤ x ∧ x < r + o + ws.length ∧ x ≠ 255 then nth 0 ws (x - (r + o)) else g.reg l x := by
  induction ws generalizing o g with
  | nil => rw [if_neg (by simp only [List.length_nil]; omega)]; rfl
  | cons w ws ih =>
    rw [List.length_cons] at hr ⊢
    have hw : g.write (r + o) [(lane, w, p)] = g.setV lane (r + o) w p := by
      rw [Group.write, if_neg (by omega)]; rfl
    change (((upTo (o + 1) ws.length).zip ws).foldl _ (g.write (r + o) [(lane, w, p)])).reg l x = _
    rw [hw, ih (o + 1) _ (by rwa [Group.threads_length_setV]) (by omega), Group.reg_setV _ _ _ _ _ _ _ hl (by omega)]
    by_cases hlx : l = lane ∧ r + o < x ∧ x < r + o + (ws.length + 1) ∧ x ≠ 255
    · rw [if_pos (by omega), if_pos (by omega)]
      obtain ⟨i, rfl⟩ : ∃ i, x = r + o + (i + 1) := ⟨x - (r + o) - 1, by omega⟩
      rw [show r + o + (i + 1) - (r + (o + 1)) = i by omega, show r + o + (i + 1) - (r + o) = i + 1 by omega]
      rfl
    · rw [if_neg (by omega)]
      by_cases hx : l = lane ∧ x = r + o ∧ r + o ≠ 255
      · rw [if_pos hx, if_pos (by omega), show x - (r + o) = 0 by omega]
        rfl
      · rw [if_neg hx, if_neg (by omega)]

theorem length_loadWords (n : Nat) (sx : Bool) (v : Nat) : (loadWords n sx v).length = words n := by
  unfold loadWords words
  by_cases hn : n < 4
  · rw [if_pos hn, if_pos (show n ≤ 4 by omega)]; rfl
  · rw [if_neg hn, List.length_map, upTo_eq_range', List.length_range']
    split <;> omega

/-- A signed number of fewer bits is itself in a word. -/
theorem toInt_ofInt_sint {n : Nat} (v : Nat) (h0 : 0 < n) (h : n ≤ 32) : (BitVec.ofInt 32 (sint n v)).toInt = sint n v := by
  have hv := Nat.mod_lt v (show 0 < 2 ^ n by positivity)
  have hn : 2 ^ n = 2 * 2 ^ (n - 1) := by rw [← Nat.pow_succ']; congr; omega
  have hm : 2 ^ (n - 1) ≤ 2 ^ 31 := Nat.pow_le_pow_right (by omega) (by omega)
  have hz : (2 : Int) ^ n = 2 * ((2 ^ (n - 1) : Nat) : Int) := by exact_mod_cast hn
  have hs : -((2 ^ (n - 1) : Nat) : Int) ≤ sint n v ∧ sint n v < ((2 ^ (n - 1) : Nat) : Int) := by
    simp only [sint, hz]
    generalize v % 2 ^ n = y at hv
    generalize 2 ^ (n - 1) = m at *
    split <;> omega
  rw [BitVec.toInt_ofInt]
  exact Int.bmod_eq_of_le_mul_two (by omega) (by omega)

/-- Each word that a load brings is the datum's. -/
theorem loadedWord_loadWords {n : Nat} (sx : Bool) {v i : Nat} (h0 : 0 < n) (hv : v < 2 ^ (8 * n)) (hi : i < words n) :
    LoadedWord n sx v i (nth 0 (loadWords n sx v) i) := by
  unfold LoadedWord loadWords
  by_cases hn : n < 4
  · have h24 : 2 ^ (8 * n) ≤ 2 ^ 24 := Nat.pow_le_pow_right (by omega) (by omega)
    obtain rfl : i = 0 := by rw [words, if_pos (by omega)] at hi; omega
    rw [if_pos hn, if_pos hn]
    cases sx with
    | true => exact toInt_ofInt_sint v (by omega) (by omega)
    | false => exact Nat.mod_eq_of_lt (by omega)
  · have hi : i < n / 4 := by
      rw [words] at hi
      split at hi <;> omega
    rw [if_neg hn, if_neg hn, nth_map_upTo _ _ hi, BitVec.toNat_ofNat]

theorem State.cores_brought (s : State) (r : Req) : (s.brought r).cores = s.cores := by
  unfold State.brought
  dsimp only
  split
  · rfl
  · rw [State.onlyTraced_bump64 _ (.cntCore r.site) _ _]

/-- A load's data goes to its lane's registers, which are else as they were. -/
theorem State.groups_answer {s : State} {r : Req} {d : Nat} {g : Group} (hs : r.slot < 64) (hf : r.fillL1 = false) (hd : r.dest = some d)
    (hu : r.uni = false) (hg : mfind (s.core r.site).groups r.slot = some g) :
    mfind ((s.answer r).core r.site).groups r.slot = some (g.writeData r.lane d (loadWords r.size r.sx r.result.toNat) r.rpois) := by
  rw [State.answer_eq, if_neg (by omega), State.filled, if_neg (by simp [hf]), State.loaded, hd]
  dsimp only
  rw [State.modGroup, State.core_modCore, if_pos rfl, State.core_congr (s.cores_brought r), mfind_mmod, if_pos rfl, hg, hu]
  rfl

/-- The answer of a read of a thread. -/
theorem threadTakes (s : State) (port : Nat) (k : FabPkt) (r : Req) (h : Arrives s port k) (ht : s.tagged k.tag = some r) (d : Nat) (g : Group)
    (hk : r.kind = .read) (hs : r.slot < 64) (hf : r.fillL1 = false) (hp : k.poison.any id = false) (hn : k.data.length = r.size)
    (h0 : 0 < r.size) (h16 : r.size ≤ 16) (hd : r.dest = some d) (hw : d + words r.size ≤ 256) (hu : r.uni = false)
    (hg : mfind (s.core r.site).groups r.slot = some g) (hl : r.lane < g.threads.length) :
    Answers (.fabricReadResponse port k) s (fun u => u.req? r.rid = none ∧
        ∃ h, mfind (u.core r.site).groups r.slot = some h ∧
          (∀ i < words r.size, d + i < 255 → LoadedWord r.size r.sx (ofBytes k.data) i (h.reg r.lane (d + i))) ∧
          (∀ l x, (l ≠ r.lane ∨ x < d ∨ d + words r.size ≤ x) → h.reg l x = g.reg l x)) := by
  have hx : exec (.fabricReadResponse port k) s = execFabricReadResponse port k s := rfl
  rw [execFabricReadResponse, runFab_of_arrives h, Arrives.tagged ht] at hx
  dsimp only at hx
  rw [if_pos hk, State.readBack, if_pos hs, if_neg (by simp [hp])] at hx
  have hto := (s.sends_took port k).trans ((s.took port k).sends_unsent r)
  have hv : ofBytes k.data < 2 ^ (8 * r.size) := hn ▸ ofBytes_lt k.data
  have hr : (BitVec.ofNat 128 (ofBytes k.data)).toNat = ofBytes k.data :=
    Nat.mod_eq_of_lt (hv.trans_le (Nat.pow_le_pow_right (by omega) (by omega)))
  have ha := State.groups_answer (s := (s.took port k).unsent r) (r := { r with result := BitVec.ofNat 128 (ofBytes k.data) }) hs hf hd hu
    ((congrArg (fun c : Core => mfind c.groups r.slot) (State.core_congr hto.cores r.site)).trans hg)
  rw [hr] at ha
  have hq : ∀ v : State, (v.watch r.site r.slot r.space r.ea r.size false).req? = v.req? := fun v => by
    rw [v.onlyRegs_watch r.site r.slot r.space r.ea r.size false]; rfl
  have hc : ∀ v : State, (v.watch r.site r.slot r.space r.ea r.size false).cores = v.cores := fun v => by
    rw [v.onlyRegs_watch r.site r.slot r.space r.ea r.size false]
  have hb := Group.reg_foldl_write r.lane r.rpois d 0 (loadWords r.size r.sx (ofBytes k.data)) g hl (by rw [length_loadWords]; omega)
  rw [length_loadWords] at hb
  refine ⟨_, hx, ?_, _, (congrArg (fun c : Core => mfind c.groups r.slot) (State.core_congr (hc _) r.site)).trans ha, fun i hi h5 => ?_,
    fun l x hlx => ?_⟩
  · rw [hq, State.req?_dropReq, if_pos rfl]
  · rw [Group.writeData, length_loadWords, hb, if_pos (by omega), show d + i - (d + 0) = i by omega]
    exact loadedWord_loadWords r.sx h0 hv hi
  · rw [Group.writeData, length_loadWords, hb, if_neg (by omega)]

/-! ## Acknowledgements -/

section Settle

variable (s : State)

theorem State.sameReqs_settle (cid : Nat) : s.SameReqs (s.settle cid) := by
  unfold State.settle
  split
  · exact .refl s
  · next c _ =>
    dsimp only
    have hb : ∀ (l : List (Nat × Block)) (t : State), t.SameReqs (l.foldl (fun t e => t.bump (.cntCore e.1) 0x098 1) t) := fun l t => by
      induction l generalizing t with
      | nil => exact .refl t
      | cons e l ih => exact (t.sameReqs_bump_core e.1 (by omega) 1).trans (ih _)
    have hc : ∀ x : Cmd, s.SameReqs (s.setCmd x) := fun x => ⟨.of_eq ⟨rfl, rfl, rfl⟩ rfl, rfl⟩
    split
    · exact .refl s
    · split
      · exact ((hc _).trans (hb _ _)).trans ⟨.of_eq ⟨rfl, rfl, rfl⟩ rfl, rfl⟩
      · exact (hc _).trans (hb _ _)

theorem State.sameReqs_progress (site cid lin slot lane : Nat) : s.SameReqs (s.progress site cid lin slot lane) := s.sameReqs_modCore ..

theorem State.sameReqs_watch (site : Nat) {slot : Nat} (space ea n : Nat) (write : Bool) (h : slot < 64) :
    s.SameReqs (s.watch site slot space ea n write) := ⟨s.quiet_watch site space ea n write h, by rw [s.onlyRegs_watch site slot space ea n write]⟩

/-- A request that is over is dropped, and its command goes on. -/
theorem State.dropped_settle {s t : State} (h : s.SameReqs t) (rid cid : Nat) :
    s.Quiet ((t.dropReq rid).settle cid) ∧ ((t.dropReq rid).settle cid).req? rid = none := by
  have hs := (t.dropReq rid).sameReqs_settle cid
  refine ⟨h.1.trans (State.Quiet.trans (.of_eq ⟨rfl, rfl, rfl⟩ rfl) hs.1), ?_⟩
  rw [hs.req?, State.req?_dropReq, if_pos rfl]

/-- A write or a reduction that has been acknowledged is over. -/
theorem State.acked_of_write (r : Req) (k : FabPkt) (h : r.kind = .write ∨ ∃ o, r.kind = .reduce o) :
    s.Quiet (s.acked r k) ∧ (s.acked r k).req? r.rid = none := by
  have hu := (s.sends_unsent r).quiet
  have key : ∀ t : State, (s.unsent r).SameReqs t →
      s.Quiet (if r.slot < 64 then (((t.progress r.site r.cid r.lin r.slot r.lane).watch r.site r.slot r.space r.ea r.size true).dropReq r.rid).settle r.cid
        else (t.dropReq r.rid).settle r.cid) ∧
      (if r.slot < 64 then (((t.progress r.site r.cid r.lin r.slot r.lane).watch r.site r.slot r.space r.ea r.size true).dropReq r.rid).settle r.cid
        else (t.dropReq r.rid).settle r.cid).req? r.rid = none := fun t ht => by
    split
    · next h64 =>
      obtain ⟨h1, h2⟩ := State.dropped_settle ((ht.trans (t.sameReqs_progress r.site r.cid r.lin r.slot r.lane)).trans
        (State.sameReqs_watch _ r.site r.space r.ea r.size true h64)) r.rid r.cid
      exact ⟨hu.trans h1, h2⟩
    · obtain ⟨h1, h2⟩ := State.dropped_settle ht r.rid r.cid
      exact ⟨hu.trans h1, h2⟩
  rcases h with h | ⟨o, h⟩
  · unfold State.acked
    rw [h]
    exact key _ (.refl _)
  · unfold State.acked
    rw [h]
    exact key _ (State.sameReqs_modCore ..)

end Settle

theorem writesAcknowledged (s : State) (port : Nat) (k : FabPkt) (r : Req) (h : Arrives s port k) (ht : s.tagged k.tag = some r)
    (hk : r.kind = .write ∨ ∃ o, r.kind = .reduce o) : Answers (.fabricAcknowledgement port k) s (fun u =>
      u.req? r.rid = none ∧ (TraceOff s → SameMemory s u)) := by
  have hx : exec (.fabricAcknowledgement port k) s = execFabricAcknowledgement port k s := rfl
  rw [execFabricAcknowledgement, runFab_of_arrives h, Arrives.tagged ht] at hx
  dsimp only at hx
  rw [if_neg (by rintro he; simp [he] at hk)] at hx
  obtain ⟨h1, h2⟩ := (s.took port k).acked_of_write r k hk
  exact ⟨_, hx, h2, fun hoff => ((s.sends_took port k).quiet.trans h1 hoff).2⟩

/-! ## Remote accesses that fail -/

/-- A running command ends with a remote failure. -/
theorem State.endCmd_remote {s : State} {c : Cmd} (d : Detail) (h : s.cmd? c.cid = some c) (hp : c.phase = .running) :
    s.endCmd c.cid 0x16 d =
      ((s.stopBlocks c.cid).setCmd { c with phase := .ending, status := 0x16, detail := some d, replay := [] }).freeUnits c := by
  simp [State.endCmd, h, hp]

theorem State.remoteFails {s : State} {cid : Nat} {c : Cmd} (code port : Nat) (h : s.cmd? cid = some c) (hp : c.phase = .running) :
    RemoteFailed (s.remoteFail cid code port) cid code ∧ (s.remoteFail cid code port).net = s.net := by
  obtain rfl := State.cmd?_cid h
  rw [State.remoteFail, State.endCmd_remote _ h hp]
  generalize hd : ({ Detail.plain s (s.cmdStack c.cid) 7 code with port := port } : Detail) = d
  obtain ⟨hk, hc⟩ : d.kind = 7 ∧ d.code = code := hd ▸ ⟨rfl, rfl⟩
  have ho := ((s.stopBlocks c.cid).setCmd { c with phase := .ending, status := 0x16, detail := some d, replay := [] }).onlyHalves_freeUnits c
  have hs : (((s.stopBlocks c.cid).setCmd { c with phase := .ending, status := 0x16, detail := some d, replay := [] }).freeUnits c).cmd? c.cid =
      some { c with phase := .ending, status := 0x16, detail := some d, replay := [] } := by
    rw [State.cmd?_congr ho.cmds, State.cmd?_setCmd, if_pos rfl]
    dsimp only
    rw [State.cmd?_congr (s.cmds_stopBlocks c.cid), h]
    rfl
  refine ⟨⟨{ c with phase := .ending, status := 0x16, detail := some d, replay := [], result := code }, ?_, rfl, rfl, rfl, d, rfl, hk, hc⟩, ?_⟩
  · rw [State.cmd?_modCmd _ _ _ _ (by intro x hx; split <;> exact hx), if_pos rfl, hs]
    simp [hc]
  · rw [State.modCmd_net, ho]
    rfl

/-- A request that fails is dropped and ends its command. -/
theorem State.failReqs (s : State) (r : Req) {c : Cmd} (code port : Nat) (h : s.cmd? r.cid = some c) (hp : c.phase = .running) :
    RemoteFailed (s.failReq r code port) r.cid code ∧ (s.failReq r code port).req? r.rid = none := by
  have hc : ((s.unsent r).dropReq r.rid).cmd? r.cid = some c := (State.cmd?_congr (s.sends_unsent r).cmds _).trans h
  obtain ⟨h1, h2⟩ := State.remoteFails code port hc hp
  refine ⟨h1, ?_⟩
  rw [State.failReq, State.req?, h2]
  exact ((s.unsent r).req?_dropReq r.rid r.rid).trans (if_pos rfl)

theorem refusalFails (s : State) (port : Nat) (k : FabPkt) (r : Req) (c : Cmd) (h : Arrives s port k) (hc : s.cmd? r.cid = some c)
    (hp : c.phase = .running) (ho : k.op ∉ [2, 6, 7, 8])
    (hf : s.net.reqs.find? (fun r => r.remote.isSome && !r.ended && decide (r.rid % 65536 = k.tag / 256)) = some r) :
    Answers (.fabricRefusal port k) s (fun u => RemoteFailed u r.cid (k.tag % 256) ∧ u.req? r.rid = none) := by
  have hx : exec (.fabricRefusal port k) s = execFabricRefusal port k s := rfl
  have ht := s.sends_took port k
  rw [execFabricRefusal, runFab_of_arrives h, if_neg (by simpa using ho), ht.net, hf] at hx
  exact ⟨_, hx, State.failReqs _ r _ _ ((State.cmd?_congr ht.cmds _).trans hc) hp⟩

section Timeouts

variable {s : State} {rid : Nat} {r : Req}

theorem accessTimesOut {c : Cmd} (hr : s.req? rid = some r) (hc : s.cmd? r.cid = some c) (hp : c.phase = .running) (hm : r.remote ≠ none)
    (he : r.ended = false) (hf : mfind s.fab.failed rid = none) (ht : r.sentAt + 2500000 + (if r.heldOnce then 25000 else 0) ≤ s.time.now) :
    Answers (.remoteAccessTimeout rid) s (fun u => RemoteFailed u r.cid 6 ∧ u.req? rid = none) := by
  have hx : exec (.remoteAccessTimeout rid) s = execRemoteAccessTimeout rid s := rfl
  rw [execRemoteAccessTimeout, hr] at hx
  dsimp only at hx
  rw [if_pos (by simp [Option.isSome_iff_ne_none.2 hm, he, hf, ht])] at hx
  obtain rfl := State.req?_rid hr
  exact ⟨_, hx, s.failReqs r 6 _ hc hp⟩

theorem accessStillWaits (hr : s.req? rid = some r) (ht : s.time.now < r.sentAt + 2500000) : exec (.remoteAccessTimeout rid) s = .next s := by
  have hx : exec (.remoteAccessTimeout rid) s = execRemoteAccessTimeout rid s := rfl
  rw [execRemoteAccessTimeout, hr] at hx
  dsimp only at hx
  rwa [if_neg (by simp only [Bool.and_eq_true, decide_eq_true_eq, not_and]; omega)] at hx

theorem accessGivesUp {c : Cmd} {j dst part a : Nat} (hr : s.req? rid = some r) (hc : s.cmd? r.cid = some c) (hp : c.phase = .running)
    (hf : mfind s.fab.failed rid = some j) (hm : r.remote = some (dst, part, a)) (h : r.attempt ≠ 0 ∨ s.altPort dst j = none) :
    Answers (.remoteResend rid) s (fun u => RemoteFailed u r.cid 5 ∧ u.req? rid = none) := by
  have hx : exec (.remoteResend rid) s = execRemoteResend rid s := rfl
  have hn : (if r.attempt = 0 then s.altPort dst j else none) = none := by
    split
    · next h0 => exact h.resolve_left (not_not_intro h0)
    · rfl
  rw [execRemoteResend, hr, hf] at hx
  dsimp only at hx
  rw [hm] at hx
  dsimp only at hx
  rw [hn] at hx
  obtain rfl := State.req?_rid hr
  exact ⟨_, hx, s.failReqs r 5 _ hc hp⟩

end Timeouts

/-! ## Packets that leave at once -/

theorem length_pktBytes (typ : Nat) (k : FabPkt) :
    (pktBytes typ k).length = 32 + (if isRequest typ then 8 else 0) + 64 * cdiv k.data.length 64 := by
  have hc : k.data.length ≤ cdiv k.data.length 64 * 64 := by simp only [cdiv]; omega
  simp only [pktBytes, pktHeader, pktTrailer, List.length_append, length_toBytes, List.length_replicate]
  split
  · simp only [length_toBytes]; omega
  · simp only [List.length_nil]; omega

/-- A packet for which there is room leaves at once. -/
theorem State.out_transmit {s : State} {j typ : Nat} {k : FabPkt} (h : SendsAtOnce s j typ k.data.length) :
    (s.transmit j typ k).fab.out = s.fab.out ++ [(typ, k)] := by
  obtain ⟨hw, hr⟩ := h
  obtain ⟨l, hl⟩ := Option.isSome_iff_exists.1 hr
  unfold State.transmit
  dsimp only
  rw [if_pos hw, length_pktBytes, hl]
  dsimp only
  rw [State.fab_leave]
  rfl

theorem State.out_emit {s : State} {j typ : Nat} {k : FabPkt} (h : SendsAtOnce s j typ k.data.length) :
    ∃ q, (s.emit j typ k).fab.out = s.fab.out ++ [(typ, { k with seq := q, srcPort := j })] := by
  refine ⟨_, (State.out_transmit (k := { k with seq := mget 0 (s.fport j).nextSeq k.dst, srcPort := j }) ?_).trans rfl⟩
  rw [SendsAtOnce, State.fport_setFport, if_pos rfl]
  exact h

theorem accessGoesAgain {s : State} {rid : Nat} {r : Req} {j dst part a i : Nat} (hr : s.req? rid = some r) (hf : mfind s.fab.failed rid = some j)
    (hm : r.remote = some (dst, part, a)) (h0 : r.attempt = 0) (hi : s.altPort dst j = some i)
    (ho : SendsAtOnce s i r.kind.typ (r.packet s.boot.cfg.deviceId dst part a true).data.length) :
    Answers (.remoteResend rid) s (fun u =>
        u.req? rid = some { r with attempt := 1 } ∧ mfind u.fab.failed rid = none ∧
        ∃ k, u.fab.out = s.fab.out ++ [(r.kind.typ, k)] ∧ k.rt = true ∧ k.dst = dst ∧ k.dstPart = part ∧ k.addr = a ∧
          k.srcPort = i ∧ k.tag = rid % 2 ^ 24) := by
  have hx : exec (.remoteResend rid) s = execRemoteResend rid s := rfl
  rw [execRemoteResend, hr, hf] at hx
  dsimp only at hx
  rw [hm] at hx
  dsimp only at hx
  rw [if_pos h0, hi] at hx
  dsimp only at hx
  obtain rfl := State.req?_rid hr
  have hr1 : ({ r with attempt := 1, remote := some (dst, part, a) } : Req) = { r with attempt := 1 } := by rw [← hm]
  generalize hs' : ({ s.setReq { r with attempt := 1, remote := some (dst, part, a) } with fab := { s.fab with failed := merase s.fab.failed r.rid } } : State) = t at hx
  have hp : t.fport i = s.fport i := by rw [← hs']; rfl
  have hq : t.req? r.rid = some { r with attempt := 1 } := by
    rw [← hs', hr1]
    refine (s.req?_setReq { r with attempt := 1 } r.rid).trans ?_
    rw [if_pos rfl]
    dsimp only
    rw [hr]
    rfl
  have he := t.sends_emit (P := fun _ => True) (j := i) trivial r.kind.typ (r.packet s.boot.cfg.deviceId dst part a true)
  obtain ⟨q, hk⟩ := State.out_emit (s := t) (j := i) (typ := r.kind.typ) (k := r.packet s.boot.cfg.deviceId dst part a true)
    (by rw [SendsAtOnce, hp]; exact ho)
  rw [State.setReq_boot] at hx
  refine ⟨_, hx, (he.req? _).trans hq, ?_, _, hk.trans (by rw [← hs']), rfl, rfl, rfl, rfl, rfl, rfl⟩
  rw [State.failed_emit, ← hs']
  dsimp only
  rw [mfind_merase, if_pos rfl]

end Sys2Proof.Machine
end


section
/-! PROOF. Time marks (R302, R426), and what answers bring: O48. -/

namespace Sys2Proof.Machine

open Sys2Proof.Claims

/-! ## A count of nothing -/

section Zero

variable (s : State)

theorem State.rg_of_key {b b' : Blk} {o o' : Nat} (h : b'.base + o' = b.base + o) : s.rg b' o' = s.rg b o := by
  rw [State.rg, State.rg, h]

theorem State.rg64_lt (b : Blk) (o : Nat) : s.rg64 b o < 2 ^ 64 := by
  have h1 := (s.rg b o).isLt
  have h2 := (s.rg b (o + 4)).isLt
  rw [State.rg64]
  omega

/-- Writing back what was read changes no register. -/
theorem State.rg_wg64_rg64 (b b' : Blk) (o o' : Nat) : (s.wg64 b o (s.rg64 b o)).rg b' o' = s.rg b' o' := by
  have h1 := (s.rg b o).isLt
  have h2 := (s.rg b (o + 4)).isLt
  rw [State.wg64, State.rg_wg]
  split
  · next h =>
    rw [s.rg_of_key h]
    refine BitVec.eq_of_toNat_eq ?_
    rw [BitVec.toNat_ofNat, State.rg64]
    omega
  · rw [State.rg_wg]
    split
    · next h =>
      rw [s.rg_of_key h]
      refine BitVec.eq_of_toNat_eq ?_
      rw [BitVec.toNat_ofNat, State.rg64]
      omega
    · rfl

theorem State.bump64_zero (b : Blk) (o : Nat) : s.bump64 b o 0 = s.wg64 b o (s.rg64 b o) := by
  have h : s.count64 b o 0 = (s.wg64 b o (s.rg64 b o), false) := by
    unfold State.count64
    dsimp only
    rw [Nat.add_zero, if_pos (s.rg64_lt b o)]
  rw [State.bump64, h]
  rfl

end Zero

/-! ## Trace records of marks -/

/-- Between s and t every register reads the same, and memory and what the records take from the part do. -/
structure State.Alike (s t : State) : Prop where
  rg : ∀ b o, t.rg b o = s.rg b o
  mem : t.mem = s.mem
  lost : t.lostRecs = s.lostRecs
  time : t.time = s.time
  boot : t.boot = s.boot
  host : t.host = s.host

section Alike

variable {s t u : State}

theorem State.Alike.trans (h : s.Alike t) (k : t.Alike u) : s.Alike u :=
  ⟨fun b o => (k.rg b o).trans (h.rg b o), k.mem.trans h.mem, k.lost.trans h.lost, k.time.trans h.time, k.boot.trans h.boot, k.host.trans h.host⟩

theorem State.alike_bump64_zero (s : State) (b : Blk) (o : Nat) : s.Alike (s.bump64 b o 0) := by
  rw [State.bump64_zero]
  exact ⟨fun b' o' => s.rg_wg64_rg64 b b' o o', rfl, rfl, rfl, rfl, rfl⟩

theorem State.alike_modFport (s : State) (j : Nat) (f : FabPort → FabPort) : s.Alike (s.modFport j f) :=
  ⟨fun _ _ => State.rg_congr (State.regs_modFport ..) _ _, rfl, rfl, rfl, rfl, rfl⟩

theorem State.Alike.rgF (h : s.Alike t) (b : Blk) (o hi lo : Nat) : t.rgF b o hi lo = s.rgF b o hi lo := by rw [State.rgF, State.rgF, h.rg]

theorem State.Alike.rgB (h : s.Alike t) (b : Blk) (o i : Nat) : t.rgB b o i = s.rgB b o i := by rw [State.rgB, State.rgB, h.rg]

theorem State.Alike.ringTakes (h : s.Alike t) (r : Nat) (m : Option Nat) : t.ringTakes r m = s.ringTakes r m := by
  unfold State.ringTakes
  simp only [h.rgB, h.rgF]

theorem State.Alike.ringRoom (h : s.Alike t) (r : Nat) (hr : r < 16) : t.ringRoom r = s.ringRoom r := by
  have hn : (r == 16) = false := by simp; omega
  rw [State.ringRoom, State.ringRoom, hn]
  simp only [h.rg, h.rgF, Bool.false_and]

end Alike

/-- A ring that takes no marks takes none. -/
theorem State.trace_of_none {s : State} {r : Nat} (bs : List Byte) (h : s.ringTakes r (some 2) = false) : s.trace [(r, some 2, bs)] = s := by
  simp [State.trace, State.rings, State.ringOne, h]

/-- A ring with room takes the record. -/
theorem State.trace_of_room {s : State} {r : Nat} (bs : List Byte) (h : s.ringTakes r (some 2) = true) (hl : mget 0 s.lostRecs r = 0)
    (hr : s.ringRoom r = true) : s.trace [(r, some 2, bs)] = s.putRecord r bs := by
  simp [State.trace, State.rings, State.ringOne, State.ringLost, h, hl, hr]

/-- Where a record is kept leaves the other rings' control. -/
theorem State.ringTakes_putRecord (s : State) (r q : Nat) (bs : List Byte) (m : Option Nat) :
    (s.putRecord r bs).ringTakes q m = s.ringTakes q m := by
  have hm : ∀ (u : State) (v : W32), (∀ b o, u.rg b o = s.rg b o) → (u.wg (.cnt 0) (ringOff r + 0x20) v).ringTakes q m = s.ringTakes q m := fun u v hu => by
    have h1 : (Blk.cnt 0).base + (ringOff q + 0x1C) ≠ (Blk.cnt 0).base + (ringOff r + 0x20) := by simp only [ringOff]; omega
    have h2 : (Blk.cnt 0).base + (ringOff q + 0x18) ≠ (Blk.cnt 0).base + (ringOff r + 0x20) := by simp only [ringOff]; omega
    simp only [State.ringTakes, State.rgB, State.rgF, State.rg_wg_ne _ _ h1, State.rg_wg_ne _ _ h2, hu]
    rfl
  unfold State.putRecord
  dsimp only
  split
  · exact hm _ _ fun _ _ => rfl
  · exact hm _ _ fun _ _ => rfl

/-- One ring's turn at a mark. -/
def State.markRing (j : Nat) (bs : List Byte) (t : State) (r : Nat) : State :=
  let lost := t.ringTakes r (some 2) && !(t.ringLost r).ringRoom r
  let t := t.trace [(r, some 2, bs)]
  if lost then t.bump (.fp j) 0x51C 1 else t

theorem State.traceMark_eq (s : State) (j : Nat) (bs : List Byte) : s.traceMark j bs = (upTo 0 17).foldl (State.markRing j bs) s := rfl

theorem State.markRing_of_none {s : State} {r : Nat} (j : Nat) (bs : List Byte) (h : s.ringTakes r (some 2) = false) : s.markRing j bs r = s := by
  rw [State.markRing, h, State.trace_of_none bs h]
  rfl

theorem State.markRing_of_room {s : State} {r : Nat} (j : Nat) (bs : List Byte) (h : s.ringTakes r (some 2) = true)
    (hl : mget 0 s.lostRecs r = 0) (hr : s.ringRoom r = true) : s.markRing j bs r = s.putRecord r bs := by
  have hn : s.ringLost r = s := by simp [State.ringLost, hl]
  rw [State.markRing, h, State.trace_of_room bs h hl hr, hn, hr]
  rfl

theorem State.foldl_markRing_none {s : State} (j : Nat) (bs : List Byte) (l : List Nat) (h : ∀ q ∈ l, s.ringTakes q (some 2) = false) :
    l.foldl (State.markRing j bs) s = s := by
  induction l with
  | nil => rfl
  | cons q l ih => rw [List.foldl_cons, State.markRing_of_none j bs (h q (by simp))]; exact ih fun x hx => h x (List.mem_cons_of_mem _ hx)

/-- Of several rings the one that takes marks takes it. -/
theorem State.foldl_markRing_one {s : State} {r : Nat} (j : Nat) (bs : List Byte) (ht : s.ringTakes r (some 2) = true)
    (hl : mget 0 s.lostRecs r = 0) (hr : s.ringRoom r = true) (l : List Nat) (hn : l.Nodup) (hm : r ∈ l)
    (h : ∀ q ∈ l, q ≠ r → s.ringTakes q (some 2) = false) : l.foldl (State.markRing j bs) s = s.putRecord r bs := by
  induction l with
  | nil => simp at hm
  | cons q l ih =>
    rw [List.nodup_cons] at hn
    rw [List.foldl_cons]
    by_cases hq : q = r
    · subst hq
      rw [State.markRing_of_room j bs ht hl hr]
      refine State.foldl_markRing_none j bs l fun x hx => ?_
      rw [State.ringTakes_putRecord]
      exact h x (List.mem_cons_of_mem _ hx) fun e => hn.1 (e ▸ hx)
    · rw [State.markRing_of_none j bs (h q (by simp) hq)]
      exact ih hn.2 ((List.mem_cons.1 hm).resolve_left fun e => hq e.symm) fun x hx => h x (List.mem_cons_of_mem _ hx)

/-! ## The bytes of a record -/

theorem State.bytes_append (s : State) (a m n : Nat) : s.bytes a (m + n) = s.bytes a m ++ s.bytes (a + m) n := by
  induction m generalizing a with
  | zero => simp [State.bytes]
  | succ m ih => rw [Nat.add_right_comm, State.bytes, State.bytes, ih, List.cons_append, show a + 1 + m = a + (m + 1) by omega]

theorem length_stateBytes (s : State) (a n : Nat) : (s.bytes a n).length = n := by
  induction n generalizing a with
  | zero => rfl
  | succ n ih => rw [State.bytes, List.length_cons, ih]

/-- A part of the bytes that lie at a. -/
theorem State.num_of_bytes {s : State} {a o n m : Nat} {x y z : List Byte} (h : s.bytes a m = x ++ (y ++ z)) (hx : x.length = o) (hy : y.length = n) :
    s.num (a + o) n = ofBytes y := by
  have hm : m = o + (n + z.length) := by
    have := congrArg List.length h
    rw [length_stateBytes, List.length_append, List.length_append] at this
    omega
  rw [hm, State.bytes_append, State.bytes_append] at h
  obtain ⟨-, h⟩ := List.append_inj h (by rw [length_stateBytes, hx])
  rw [State.num, (List.append_inj h (by rw [length_stateBytes, hy])).1]

theorem length_markBytes (time own port peer peerPort : Nat) (received : Bool) (seq : W32) :
    (markBytes time own port peer peerPort received seq).length = 32 := by
  simp [markBytes]

/-- The five fields of a mark's record, and its end. -/
theorem State.nums_of_mark {u : State} {a time own port peer peerPort : Nat} {received : Bool} {seq : W32}
    (h : u.bytes a 32 = markBytes time own port peer peerPort received seq) :
    u.num a 8 = time % 2 ^ 64 ∧ u.num (a + 8) 4 = own % 2 ^ 15 + port % 16 * 2 ^ 16 + (if received then 2 ^ 20 else 0) ∧
      u.num (a + 12) 4 = peer % 2 ^ 15 + peerPort % 16 * 2 ^ 16 ∧ u.num (a + 16) 4 = seq.toNat ∧ u.num (a + 20) 12 = 0 := by
  simp only [markBytes, List.append_assoc] at h
  have hq : seq.toNat < 2 ^ 32 := seq.isLt
  have h1 : own % 2 ^ 15 + port % 16 * 2 ^ 16 + (if received then 2 ^ 20 else 0) < 2 ^ 32 := by split <;> omega
  have h2 : peer % 2 ^ 15 + peerPort % 16 * 2 ^ 16 < 2 ^ 32 := by omega
  generalize hx : own % 2 ^ 15 + port % 16 * 2 ^ 16 + (if received then 2 ^ 20 else 0) = x at h h1
  generalize hy : peer % 2 ^ 15 + peerPort % 16 * 2 ^ 16 = y at h h2
  have e0 : u.num (a + 0) 8 = _ := State.num_of_bytes (o := 0) (x := []) (y := toBytes 8 time) h rfl (length_toBytes ..)
  have e1 : u.num (a + 8) 4 = _ := State.num_of_bytes (x := toBytes 8 time) (y := toBytes 4 x) h (length_toBytes ..) (length_toBytes ..)
  have e2 : u.num (a + 12) 4 = _ := State.num_of_bytes (x := toBytes 8 time ++ toBytes 4 x) (y := toBytes 4 y)
    (z := toBytes 4 seq.toNat ++ toBytes 12 0) (by rw [h, List.append_assoc]) (by simp) (length_toBytes ..)
  have e3 : u.num (a + 16) 4 = _ := State.num_of_bytes (x := toBytes 8 time ++ (toBytes 4 x ++ toBytes 4 y)) (y := toBytes 4 seq.toNat)
    (z := toBytes 12 0) (by rw [h]; simp only [List.append_assoc]) (by simp) (length_toBytes ..)
  have e4 : u.num (a + 20) 12 = _ := State.num_of_bytes (x := toBytes 8 time ++ (toBytes 4 x ++ (toBytes 4 y ++ toBytes 4 seq.toNat)))
    (y := toBytes 12 0) (z := []) (by rw [h]; simp only [List.append_assoc, List.append_nil]) (by simp) (length_toBytes ..)
  rw [ofBytes_toBytes] at e0 e1 e2 e3 e4
  rw [Nat.mod_eq_of_lt h1] at e1
  rw [Nat.mod_eq_of_lt h2] at e2
  rw [Nat.mod_eq_of_lt hq] at e3
  exact ⟨e0, e1, e2, e3, e4⟩

/-- The record of a ring that a device ring keeps. -/
theorem State.putRecord_device {s : State} {r a : Nat} {bs : List Byte} (hr : r < 16)
    (ha : a = (s.rg (.cnt 0) (ringOff r + 0x10)).toNat + 2 ^ 32 * s.rgF (.cnt 0) (ringOff r + 0x14) 15 0 +
      32 * ((s.rg (.cnt 0) (ringOff r + 0x20)).toNat % s.rgF (.cnt 0) (ringOff r + 0x18) 24 0)) :
    s.putRecord r bs = (s.store a bs false).wg (.cnt 0) (ringOff r + 0x20) (s.rg (.cnt 0) (ringOff r + 0x20) + 1) := by
  rw [State.putRecord, if_neg (by omega), ha]

/-- A mark that a port takes, before its record. -/
def State.tookMark (s : State) (j : Nat) (k : FabPkt) : State :=
  ((s.modFport j (fun x => { x with peerIn := mput x.peerIn (k.src * 16 + k.srcPort) k.seq, expFrame := x.expFrame + 1 })).bump64 (.fp j) 0x528
    k.data.length).bump64 (.cnt 0) 0x110 k.data.length

theorem State.took_of_mark {s : State} {j : Nat} {k : FabPkt} (h : k.mark = true) : s.took j k = (s.tookMark j k).traceMark j
    (markBytes ((s.tookMark j k).timeOf (Blk.fp j).stack) (s.tookMark j k).boot.cfg.deviceId j ((s.tookMark j k).otherEnd j k.src k.srcPort).1
      ((s.tookMark j k).otherEnd j k.src k.srcPort).2 true k.seq) := by
  change (s.tookMark j k).stamp j true k = _
  rw [State.stamp, if_neg (by simp [h])]
  rfl

theorem State.alike_tookMark (s : State) (j : Nat) {k : FabPkt} (h : k.data = []) : s.Alike (s.tookMark j k) := by
  rw [State.tookMark, h, List.length_nil]
  exact (s.alike_modFport j _).trans ((State.alike_bump64_zero ..).trans (State.alike_bump64_zero ..))

theorem markArrives (s : State) (port r a : Nat) (k : FabPkt) (hp : port < s.fabPorts) (h2 : 2 ≤ s.fabState port) (hm : k.mark = true)
    (hd : k.data = []) (hl : s.looped 8 k = false) (hs : s.seen port k = false) (hg : s.gap port k = none) (ho : k.dst = s.boot.cfg.deviceId)
    (hr : r < 16) (ht : s.ringTakes r (some 2) = true) (hq : ∀ q < 17, q ≠ r → s.ringTakes q (some 2) = false) (hroom : s.ringRoom r = true)
    (hlost : mget 0 s.lostRecs r = 0)
    (ha : a = (s.rg (.cnt 0) (ringOff r + 0x10)).toNat + 2 ^ 32 * s.rgF (.cnt 0) (ringOff r + 0x14) 15 0 +
      32 * ((s.rg (.cnt 0) (ringOff r + 0x20)).toNat % s.rgF (.cnt 0) (ringOff r + 0x18) 24 0)) :
    Answers (.timeMark port k) s (fun u => OnlyBytes s u a 32 ∧
      u.num a 8 = s.timeOf (Blk.fp port).stack % 2 ^ 64 ∧
      u.num (a + 8) 4 = s.boot.cfg.deviceId % 2 ^ 15 + port % 16 * 2 ^ 16 + 2 ^ 20 ∧
      u.num (a + 12) 4 = (s.otherEnd port k.src k.srcPort).1 % 2 ^ 15 + (s.otherEnd port k.src k.srcPort).2 % 16 * 2 ^ 16 ∧
      u.num (a + 16) 4 = k.seq.toNat ∧ u.num (a + 20) 12 = 0 ∧
      u.rg (.cnt 0) (ringOff r + 0x20) = s.rg (.cnt 0) (ringOff r + 0x20) + 1) := by
  have hx : exec (.timeMark port k) s = execTimeMark port k s := rfl
  have hst : s.fabState port < 4 := by
    rw [State.fabState, State.rgF, getF_of_wider (hi' := 1) (by omega)]
    omega
  have hup : (!s.portUp port && !(decide (8 = 8) && decide (s.fabState port = 3))) = false := by
    rw [State.portUp]
    change (!(decide (port < s.fabPorts) && decide (s.fabState port = 2)) && _) = false
    obtain h | h : s.fabState port = 2 ∨ s.fabState port = 3 := by omega
    · simp [h, hp]
    · simp [h]
  rw [execTimeMark, runFab, if_neg (by omega), if_neg (by simp [hl]), if_neg (by rw [hup]; simp), if_neg (by simp [hs]), hg] at hx
  dsimp only at hx
  rw [if_neg (by simp [ho]), if_neg (by simp), id_eq, State.took_of_mark hm] at hx
  have hk := s.alike_tookMark port hd
  have hend : (s.tookMark port k).otherEnd port k.src k.srcPort = s.otherEnd port k.src k.srcPort := by
    rw [State.otherEnd, State.otherEnd, State.isEth, State.isEth, hk.rgB, hk.rgF, hk.rgF]
  rw [State.timeOf, hk.time, ← State.timeOf, hk.boot, hend, State.traceMark_eq, State.foldl_markRing_one port _ ((hk.ringTakes r _).trans ht)
    (by rw [hk.lost, hlost]) ((hk.ringRoom r hr).trans hroom) _ (upTo_nodup 0 17) (by simp; omega)
    (fun q hm hne => (hk.ringTakes q _).trans (hq q (by simp at hm; omega) hne)),
    State.putRecord_device (a := a) hr (by rw [hk.rg, hk.rg, hk.rgF, hk.rgF, ha])] at hx
  generalize hb : markBytes (s.timeOf (Blk.fp port).stack) s.boot.cfg.deviceId port (s.otherEnd port k.src k.srcPort).1
    (s.otherEnd port k.src k.srcPort).2 true k.seq = bs at hx
  have hlen : bs.length = 32 := hb ▸ length_markBytes ..
  refine ⟨_, hx, fun x hx => ?_, ?_⟩
  · refine (State.byte_store_outside _ a bs false x (by omega)).trans ?_
    rw [State.byte, State.byte, hk.mem]
  · have hbs := (s.tookMark port k).bytes_store a bs false
    rw [hlen, ← hb] at hbs
    obtain ⟨e0, e1, e2, e3, e4⟩ := State.nums_of_mark hbs
    rw [hb] at e0 e1 e2 e3 e4
    exact ⟨e0, e1, e2, e3, e4, by rw [State.rg_wg_self, hk.rg]⟩

/-! ## Marks that leave -/

/-- What goes out as marks by ports in turn. -/
theorem State.out_marks (l : List Nat) (hn : l.Nodup) (f : State → Nat → FabPkt) (hf : ∀ t j, (f t j).data = [] ∧ (f t j).mark = true)
    (s : State) (h : ∀ j ∈ l, SendsAtOnce s j 8 0) :
    ∃ o, (l.foldl (fun t j => t.emit j 8 (f t j)) s).fab.out = s.fab.out ++ o ∧ (∀ x ∈ o, x.1 = 8 ∧ x.2.mark = true) ∧
      o.map (fun x => x.2.srcPort) = l := by
  induction l generalizing s with
  | nil => exact ⟨[], by simp⟩
  | cons j l ih =>
    rw [List.nodup_cons] at hn
    obtain ⟨hd, hm⟩ := hf s j
    obtain ⟨q, hq⟩ := State.out_emit (s := s) (j := j) (typ := 8) (k := f s j) (by rw [hd]; exact h j (by simp))
    have he := s.sends_emit (P := (· = j)) rfl 8 (f s j)
    obtain ⟨o, h1, h2, h3⟩ := ih hn.2 (s.emit j 8 (f s j)) fun i hi => by
      rw [SendsAtOnce, he.ports i (by rintro rfl; exact hn.1 hi)]
      exact h i (List.mem_cons_of_mem _ hi)
    refine ⟨(8, { f s j with seq := q, srcPort := j }) :: o, ?_, ?_, ?_⟩
    · rw [List.foldl_cons, h1, hq, List.append_assoc]
      rfl
    · intro x hx
      rcases List.mem_cons.1 hx with rfl | hx
      · exact ⟨rfl, hm⟩
      · exact h2 x hx
    · rw [List.map_cons, h3]

theorem marksLeave (s : State) (hr : ∃ r < 17, s.ringTakes r (some 2) = true) (h : ∀ j < s.fabPorts, s.portUp j = true → SendsAtOnce s j 8 0) :
    Answers .markSend s (fun u => ∃ l, u.fab.out = s.fab.out ++ l ∧ (∀ x ∈ l, x.1 = 8 ∧ x.2.mark = true) ∧
      l.map (fun x => x.2.srcPort) = (upTo 0 s.fabPorts).filter s.portUp) := by
  have hx : exec .markSend s = execMarkSend s := rfl
  have hany : (upTo 0 17).any (fun r => s.ringTakes r (some 2)) = true := by
    obtain ⟨r, hlt, ht⟩ := hr
    exact List.any_eq_true.2 ⟨r, by simpa using hlt, ht⟩
  rw [execMarkSend, if_pos hany] at hx
  exact ⟨_, hx, State.out_marks _ ((upTo_nodup 0 _).filter _) _ (fun _ _ => ⟨rfl, rfl⟩) s fun j hj => by
    rw [List.mem_filter, mem_upTo] at hj
    exact h j (by omega) hj.2⟩

/-- Settles O48. -/
theorem fabricAnswersAndMarks : Obligations.FabricAnswersAndMarks := by
  unfold Obligations.FabricAnswersAndMarks
  refine ⟨fun s port k r h ht hr => ⟨fun hk hs => engineTakes s port k r h ht hr hk hs,
      fun d g hk hs hf hp hn h0 h16 hd hw hu hg hl => threadTakes s port k r h ht d g hk hs hf hp hn h0 h16 hd hw hu hg hl,
      fun hk => writesAcknowledged s port k r h ht hk⟩, refusalFails,
    fun s rid r c hr hc hp => ⟨fun hm he hf => ⟨fun ht => accessTimesOut hr hc hp hm he hf ht, fun ht => accessStillWaits hr ht⟩,
      fun j dst part a hf hm => ⟨fun i h0 hi ho => accessGoesAgain hr hf hm h0 hi ho, fun h => accessGivesUp hr hc hp hf hm h⟩⟩,
    markArrives, marksLeave⟩

end Sys2Proof.Machine
end


section
/-! PROOF. Requests that masters send (R230, R241, R248, R252): what sending leaves, and that a request that waits goes on. -/

namespace Sys2Proof.Machine

open Sys2Proof.Claims

/-! ## What sending leaves -/

/-- Between s and t requests have gone out: registers, memory, the network, the fabric, commands, cores and halves may differ. -/
def State.OnlySent (s t : State) : Prop :=
  t = { s with regs := t.regs, mem := t.mem, poison := t.poison, hmem := t.hmem, lostRecs := t.lostRecs, net := t.net, fab := t.fab
               cmds := t.cmds, cores := t.cores, halves := t.halves }

section OnlySent

variable {s t u : State}

theorem State.OnlySent.refl (s : State) : s.OnlySent s := rfl

theorem State.OnlySent.trans (h : s.OnlySent t) (k : t.OnlySent u) : s.OnlySent u := by
  unfold State.OnlySent at *
  rw [k, h]

theorem State.OnlySent.ite {p : Prop} [Decidable p] (h : s.OnlySent t) (h' : s.OnlySent u) : s.OnlySent (if p then t else u) := by
  split <;> assumption

theorem State.OnlySent.foldl {α : Type} {f : State → α → State} (hf : ∀ (t : State) x, t.OnlySent (f t x)) (l : List α) (s : State) :
    s.OnlySent (l.foldl f s) := by
  induction l generalizing s with
  | nil => exact .refl s
  | cons x l ih => exact (hf s x).trans (ih _)

theorem State.OnlyTraced.sent (h : s.OnlyTraced t) : s.OnlySent t := by
  unfold State.OnlySent
  rw [h]

theorem State.OnlyHalves.sent (h : s.OnlyHalves t) : s.OnlySent t := by
  unfold State.OnlySent
  rw [h]

theorem State.Sends.sent {P : Nat → Prop} (h : s.Sends P t) : s.OnlySent t := by
  unfold State.OnlySent
  rw [h.only]

theorem State.onlySent_net (s : State) (n : Net) : s.OnlySent { s with net := n } := rfl

theorem State.onlySent_modHalf (s : State) (h : Nat) (f : Half → Half) : s.OnlySent (s.modHalf h f) := rfl

theorem State.onlySent_setCmd (s : State) (c : Cmd) : s.OnlySent (s.setCmd c) := rfl

theorem State.onlySent_modCmd (s : State) (cid : Nat) (f : Cmd → Cmd) : s.OnlySent (s.modCmd cid f) := rfl

theorem State.onlySent_stopBlocks (s : State) (cid : Nat) : s.OnlySent (s.stopBlocks cid) := rfl

theorem State.onlySent_oredSync (s : State) (h : Nat) : s.OnlySent (s.oredSync h) :=
  (State.OnlyRegs.traced ((State.onlyRegs_wg ..).trans (State.onlyRegs_wg ..))).sent

theorem State.onlySent_dropStaged (s : State) (p : Staged → Bool) : s.OnlySent (s.dropStaged p) :=
  .foldl (fun t h => (t.onlySent_modHalf h _).trans (State.onlySent_oredSync _ h)) _ s

theorem State.onlySent_unreported (s : State) (status : Nat) (d : Detail) : s.OnlySent (s.unreported status d) :=
  (s.unreported_onlyTraced status d).sent

/-- The end of a command is among what may differ. -/
theorem State.onlySent_endCmd (s : State) (cid status : Nat) (d : Detail) : s.OnlySent (s.endCmd cid status d) := by
  have hd : ∀ t : State, t.OnlySent (if status = 0x13 then t.dropStaged (fun x => x.cid == cid) else t) := fun t =>
    .ite (t.onlySent_dropStaged _) (.refl t)
  have go : ∀ (t : State) (c c' : Cmd), t.OnlySent (((if status = 0x13 then (t.stopBlocks cid).dropStaged (fun x => x.cid == cid)
      else t.stopBlocks cid).setCmd c').freeUnits c) := fun t c c' =>
    ((t.onlySent_stopBlocks cid).trans (hd _)).trans ((State.onlySent_setCmd _ c').trans (State.onlyHalves_freeUnits _ c).sent)
  unfold State.endCmd
  split
  · exact .refl s
  · dsimp only
    split
    · exact go ..
    · exact go ..
    · split
      · exact .refl s
      · exact .ite ((s.onlySent_unreported ..).trans (go ..)) (s.onlySent_unreported ..)
    · exact .refl s

theorem State.onlySent_remoteFail (s : State) (cid code port : Nat) : s.OnlySent (s.remoteFail cid code port) :=
  (s.onlySent_endCmd ..).trans (State.onlySent_modCmd ..)

theorem State.onlySent_inject (s : State) (key cls budget u : Nat) (drop : Blk × Nat) : s.OnlySent (s.inject key cls budget u drop).1 := by
  unfold State.inject
  dsimp only
  exact (s.onlySent_net _).trans (.ite (State.onlyTraced_bump ..).sent (.refl _))

theorem State.onlySent_cpInject (s : State) (home p n : Nat) : s.OnlySent (s.cpInject home p n).1 := s.onlySent_inject ..

theorem State.onlySent_injectFor (s : State) (r : Req) (n : Nat) : s.OnlySent (s.injectFor r n).1 := by
  unfold State.injectFor
  split
  · exact (s.onlySent_net _).trans (State.onlySent_inject ..)
  · split
    · exact s.onlySent_cpInject (r.lane % 64) r.part n
    · split
      · exact s.onlySent_cpInject ..
      · split
        · exact s.onlySent_inject ..
        · split
          · exact s.onlySent_inject ..
          · exact .refl s

theorem State.onlySent_releaseFor (s : State) (r : Req) : s.OnlySent (s.releaseFor r) :=
  .ite (.refl s) (.ite (.refl s) (s.onlySent_net _))

theorem State.onlySent_sendRemote (s : State) (r : Req) (dst part a : Nat) : s.OnlySent (s.sendRemote r dst part a) := by
  unfold State.sendRemote
  split
  · rfl
  · split
    · exact (State.OnlySent.trans (t := s.dropReq r.rid) rfl (State.onlySent_remoteFail ..))
    · exact (s.sends_emit (P := fun _ => True) trivial _ _).sent

theorem State.onlySent_goOut (s : State) (r : Req) : s.OnlySent (s.goOut r) := by
  unfold State.goOut
  split
  · exact s.onlySent_sendRemote ..
  · split
    · exact (s.onlyTraced_bump64 ..).sent
    · exact State.OnlySent.trans (.ite (s.onlyTraced_bump64 ..).sent (.refl s)) (State.onlySent_net ..)

theorem State.onlySent_departs (s : State) (r : Req) : s.OnlySent (s.departs r).1 := by
  unfold State.departs
  dsimp only
  split
  · exact s.onlySent_net _
  · exact (s.onlySent_injectFor r _).trans ((State.onlySent_net ..).trans ((State.onlySent_releaseFor ..).trans ((State.onlySent_net ..).trans
      (State.onlySent_goOut ..))))

theorem State.onlySent_departAll (s : State) (rs : List Req) : s.OnlySent (s.departAll rs) := by
  have h : ∀ (rs : List Req) (a : State × List Nat), a.1.OnlySent (rs.foldl (fun (a : State × List Nat) r =>
      if a.2.contains r.lineUp then a
      else match a.1.departs r with
        | (t, none) => (t, a.2)
        | (t, some _) => (t, r.lineUp :: a.2)) a).1 := fun rs => by
    induction rs with
    | nil => exact fun a => .refl a.1
    | cons r rs ih =>
      refine fun a => State.OnlySent.trans ?_ (ih _)
      dsimp only
      split
      · exact .refl a.1
      · have hd := a.1.onlySent_departs r
        split <;> rename_i he <;> rw [he] at hd <;> exact hd
  exact h rs (s, [])

theorem State.onlySent_sendQueued (s : State) (site : Nat) : s.OnlySent (s.sendQueued site) := s.onlySent_departAll _

end OnlySent

/-! ## A request that waits goes on -/

section Reqs

variable (s : State)

theorem State.OnlyTraced.net {s t : State} (h : s.OnlyTraced t) : t.net = s.net := by rw [h]

theorem State.reqs_inject (key cls budget u : Nat) (drop : Blk × Nat) : (s.inject key cls budget u drop).1.net.reqs = s.net.reqs := by
  unfold State.inject
  dsimp only
  split
  · rw [(State.onlyTraced_bump ..).net]
  · rfl

theorem State.reqs_injectFor (r : Req) (n : Nat) : (s.injectFor r n).1.net.reqs = s.net.reqs := by
  have hcp : (s.cpInject (r.lane % 64) r.part n).1.net.reqs = s.net.reqs := s.reqs_inject ..
  unfold State.injectFor
  split
  · exact State.reqs_inject ..
  · split
    · exact hcp
    · split
      · exact hcp
      · split
        · exact s.reqs_inject ..
        · split
          · exact s.reqs_inject ..
          · rfl

end Reqs

/-- What names a request through its way: its number, its master, and what it asks for. -/
def Req.mark (r : Req) : Nat × Nat × Nat × Nat × Nat × Nat × ReqKind × Option (Nat × Nat × Nat) × Nat × Nat :=
  (r.rid, r.site, r.slot, r.lane, r.cid, r.serial, r.kind, r.remote, r.addr, r.size)

theorem Req.rid_of_mark {q r : Req} (h : q.mark = r.mark) : q.rid = r.rid := congrArg Prod.fst h

theorem Req.remote_of_mark {q r : Req} (h : q.mark = r.mark) : q.remote = r.remote := by
  simp only [Req.mark, Prod.mk.injEq] at h
  exact h.2.2.2.2.2.2.2.1

/-- The requests of t are among those of s, each once, and those of s for this part that nothing has answered are there yet. -/
structure State.Carried (s t : State) : Prop where
  nodup : (t.net.reqs.map (·.rid)).Nodup
  old : ∀ q ∈ t.net.reqs, ∃ r ∈ s.net.reqs, q.mark = r.mark
  kept : ∀ r ∈ s.net.reqs, r.remote = none → r.state ≠ .answered → ∃ q ∈ t.net.reqs, q.mark = r.mark ∧ q.state ≠ .answered

section Carried

variable {s t u : State}

/-- Requests with one number are one. -/
theorem eq_of_rid {l : List Req} (h : (l.map (·.rid)).Nodup) {q r : Req} (hq : q ∈ l) (hr : r ∈ l) (he : q.rid = r.rid) : q = r :=
  List.inj_on_of_nodup_map h hq hr he

theorem State.Carried.refl (h : (s.net.reqs.map (·.rid)).Nodup) : s.Carried s :=
  ⟨h, fun q hq => ⟨q, hq, rfl⟩, fun r hr _ ha => ⟨r, hr, rfl, ha⟩⟩

theorem State.Carried.of_reqs (h : s.Carried t) (he : u.net.reqs = t.net.reqs) : s.Carried u :=
  ⟨he ▸ h.nodup, he ▸ h.old, he ▸ h.kept⟩

/-- A request that moves on. -/
theorem State.Carried.setReq (h : s.Carried t) (hs : (s.net.reqs.map (·.rid)).Nodup) {r r' : Req} (hr : r ∈ s.net.reqs) (hm : r'.mark = r.mark)
    (ha : r'.state ≠ .answered) : s.Carried (t.setReq r') := by
  have hid : ∀ q : Req, q ∈ t.net.reqs → q.rid = r'.rid → q.mark = r'.mark := fun q hq he => by
    obtain ⟨x, hx, hqx⟩ := h.old q hq
    have hxr : x = r := eq_of_rid hs hx hr (by rw [← Req.rid_of_mark hqx, he, Req.rid_of_mark hm])
    rw [hqx, hxr, hm]
  refine ⟨?_, fun q hq => ?_, fun x hx hn hans => ?_⟩
  · have hmap : (t.setReq r').net.reqs.map (·.rid) = t.net.reqs.map (·.rid) := by
      rw [State.setReq, List.map_map]
      refine List.map_congr_left fun q _ => ?_
      dsimp only [Function.comp]
      split
      · next he => exact he.symm
      · rfl
    rw [hmap]
    exact h.nodup
  · rw [State.setReq] at hq
    obtain ⟨x, hx, rfl⟩ := List.mem_map.1 hq
    obtain ⟨y, hy, hxy⟩ := h.old x hx
    refine ⟨y, hy, ?_⟩
    split
    · next he => rw [← hid x hx he, hxy]
    · exact hxy
  · obtain ⟨q, hq, hqx, hqa⟩ := h.kept x hx hn hans
    refine ⟨if q.rid = r'.rid then r' else q, List.mem_map.2 ⟨q, hq, rfl⟩, ?_⟩
    split
    · next he => exact ⟨by rw [← hid q hq he, hqx], ha⟩
    · exact ⟨hqx, hqa⟩

/-- What leaves is answered, or goes to another part. -/
theorem State.Carried.filter (h : s.Carried t) {p : Req → Bool} (he : u.net.reqs = t.net.reqs.filter p)
    (hp : ∀ q ∈ t.net.reqs, q.remote = none → q.state ≠ .answered → p q = true) : s.Carried u := by
  refine ⟨?_, fun q hq => h.old q ?_, fun r hr hn ha => ?_⟩
  · rw [he]
    exact h.nodup.sublist (List.filter_sublist.map _)
  · rw [he] at hq
    exact List.mem_of_mem_filter hq
  · obtain ⟨q, hq, hqr, hqa⟩ := h.kept r hr hn ha
    refine ⟨q, ?_, hqr, hqa⟩
    rw [he]
    exact List.mem_filter.2 ⟨hq, hp q hq ((Req.remote_of_mark hqr).trans hn) hqa⟩

theorem State.Carried.releaseFor (h : s.Carried t) (r : Req) : s.Carried (t.releaseFor r) := by
  unfold State.releaseFor State.releaseRecords
  split
  · exact h
  · dsimp only
    split
    · exact h
    · refine h.filter rfl fun q hq _ ha => ?_
      rw [Bool.not_eq_true', ← Bool.not_eq_true, List.contains_iff_mem, List.mem_map]
      rintro ⟨x, hx, he⟩
      rw [List.mem_filter] at hx
      obtain ⟨hx, hc⟩ := hx
      obtain rfl := eq_of_rid h.nodup hx hq he
      simp only [Bool.and_eq_true, beq_iff_eq] at hc
      exact ha hc.1.2

theorem State.net_remoteFail (s : State) (cid code port : Nat) : (s.remoteFail cid code port).net = s.net := by
  have go : ∀ (t : State) (c c' : Cmd), (((if (0x16 : Nat) = 0x13 then (t.stopBlocks cid).dropStaged (fun x => x.cid == cid)
      else t.stopBlocks cid).setCmd c').freeUnits c).net = t.net := fun t c c' => by
    rw [if_neg (by omega), State.onlyHalves_freeUnits]
    rfl
  have hu : ∀ (t : State) (n : Nat) (d : Detail), (t.unreported n d).net = t.net := fun t n d => (t.unreported_onlyTraced n d).net
  have he : ∀ d, (s.endCmd cid 0x16 d).net = s.net := fun d => by
    unfold State.endCmd
    split
    · rfl
    · dsimp only
      split
      · exact go ..
      · exact go ..
      · split
        · rfl
        · split
          · exact (go ..).trans (hu ..)
          · exact hu ..
      · rfl
  rw [State.remoteFail, State.modCmd_net, he]

theorem State.Carried.goOut (h : s.Carried t) {r : Req} (hr : ∃ q ∈ s.net.reqs, r.mark = q.mark) (hs : (s.net.reqs.map (·.rid)).Nodup) :
    s.Carried (t.goOut r) := by
  unfold State.goOut
  split
  · next dst part a hrem =>
    unfold State.sendRemote
    split
    · exact h.of_reqs rfl
    · split
      · refine State.Carried.filter (p := fun q => q.rid != r.rid) h (by rw [State.net_remoteFail]; rfl) fun q hq hn _ => ?_
        rw [bne_iff_ne]
        intro he
        obtain ⟨x, hx, hrx⟩ := hr
        obtain ⟨y, hy, hqy⟩ := h.old q hq
        have hxy : y = x := eq_of_rid hs hy hx (by rw [← Req.rid_of_mark hqy, he, Req.rid_of_mark hrx])
        rw [Req.remote_of_mark hqy, hxy, ← Req.remote_of_mark hrx, hrem] at hn
        cases hn
      · exact h.of_reqs (by rw [(t.sends_emit (P := fun _ => True) trivial _ _).net])
  · split
    · exact h.of_reqs (by rw [(t.onlyTraced_bump64 _ _ _).net])
    · refine h.of_reqs ?_
      rw [State.postPacket]
      dsimp only
      split
      · rw [(t.onlyTraced_bump64 _ _ _).net]
      · rfl

theorem State.Carried.departs (h : s.Carried t) (hs : (s.net.reqs.map (·.rid)).Nodup) {r : Req} (hr : r ∈ s.net.reqs) :
    s.Carried (t.departs r).1 := by
  unfold State.departs
  dsimp only
  split
  · exact h.of_reqs rfl
  · have h1 : s.Carried ((t.injectFor r r.size).1.unstall (.request r.rid)) := h.of_reqs (t.reqs_injectFor r r.size)
    have ha : ∀ (u : State) (q : Req), (u.leaving q).state ≠ .answered := fun u q => by
      rw [State.leaving]
      dsimp only
      split <;> simp
    refine State.Carried.goOut (State.Carried.setReq (h1.releaseFor r) hs hr ?_ (ha _ _)) ⟨r, hr, ?_⟩ hs
    · rfl
    · rfl

theorem State.carried_sendQueued (hs : (s.net.reqs.map (·.rid)).Nodup) (site : Nat) : s.Carried (s.sendQueued site) := by
  have h : ∀ (rs : List Req), (∀ r ∈ rs, r ∈ s.net.reqs) → ∀ a : State × List Nat, s.Carried a.1 →
      s.Carried (rs.foldl (fun (a : State × List Nat) r =>
        if a.2.contains r.lineUp then a
        else match a.1.departs r with
          | (t, none) => (t, a.2)
          | (t, some _) => (t, r.lineUp :: a.2)) a).1 := fun rs => by
    induction rs with
    | nil => exact fun _ a ha => ha
    | cons r rs ih =>
      refine fun hm a ha => ih (fun x hx => hm x (List.mem_cons_of_mem _ hx)) _ ?_
      dsimp only
      split
      · exact ha
      · have hd := ha.departs hs (hm r (by simp))
        split <;> rename_i he <;> rw [he] at hd <;> exact hd
  exact h _ (fun r hr => List.mem_of_mem_filter hr) (s, []) (.refl hs)

end Carried

/-! ## Reads of an engine -/

section Reads

variable {s : State} {e : Eng}

theorem State.numbered_enter (h : Numbered s) (r : Req) : Numbered (s.enter r) := by
  obtain ⟨hn, hl⟩ := h
  refine ⟨?_, fun q hq => ?_⟩
  · rw [State.enter, List.map_append, List.nodup_append]
    refine ⟨hn, List.nodup_singleton _, fun a ha b hb => ?_⟩
    obtain ⟨q, hq, rfl⟩ := List.mem_map.1 ha
    obtain rfl := List.mem_singleton.1 hb
    have := hl q hq
    dsimp only
    omega
  · rw [State.enter, List.mem_append, List.mem_singleton] at hq
    rcases hq with hq | rfl
    · exact (hl q hq).trans (Nat.lt_succ_self _)
    · exact Nat.lt_succ_self _

/-- A read of an engine that nothing has answered. -/
def Eng.reading (e : Eng) (x : Nat × Nat) (r : Req) : Prop :=
  e.owns r = true ∧ r.kind = .read ∧ r.remote = none ∧ r.addr = x.1 ∧ r.size = x.2 ∧ r.state ≠ .answered

theorem State.reading_queueRead (h : Numbered s) (a n : Nat) : Numbered (s.queueRead e a n) ∧
    ∀ x ∈ linePieces a n, ∃ r ∈ (s.queueRead e a n).net.reqs, e.reading x r := by
  have key : ∀ (l : List (Nat × Nat)) (t : State), Numbered t →
      let u := l.foldl (fun t x => if (t.engReq e .read none x.1 x.2).isSome then t else t.enter (e.req .read none x.1 x.2)) t
      Numbered u ∧ (∀ r ∈ t.net.reqs, r ∈ u.net.reqs) ∧ ∀ x ∈ l, ∃ r ∈ u.net.reqs, e.reading x r := fun l => by
    induction l with
    | nil => exact fun t ht => ⟨ht, fun _ hr => hr, fun x hx => absurd hx (by simp)⟩
    | cons x l ih =>
      intro t ht
      dsimp only [List.foldl_cons]
      split
      · next hs =>
        obtain ⟨r, hr⟩ := Option.isSome_iff_exists.1 hs
        obtain ⟨h1, h2, h3⟩ := ih t ht
        refine ⟨h1, h2, fun y hy => ?_⟩
        rcases List.mem_cons.1 hy with rfl | hy
        · refine ⟨r, h2 r (List.mem_of_find?_eq_some hr), ?_⟩
          have hp := List.find?_some hr
          simp only [Bool.and_eq_true, beq_iff_eq, bne_iff_ne, ne_eq] at hp
          obtain ⟨⟨⟨⟨⟨ho, hk⟩, hm⟩, ha⟩, hz⟩, hst⟩ := hp
          exact ⟨ho, hk, hm, ha, hz, hst⟩
        · exact h3 y hy
      · obtain ⟨h1, h2, h3⟩ := ih _ (State.numbered_enter ht (e.req .read none x.1 x.2))
        refine ⟨h1, fun r hr => h2 r (List.mem_append_left _ hr), fun y hy => ?_⟩
        rcases List.mem_cons.1 hy with rfl | hy
        · exact ⟨_, h2 _ (List.mem_append_right _ (List.mem_singleton_self _)), by simp [Eng.owns, Eng.req], rfl, rfl, rfl, rfl, by simp [Eng.req]⟩
        · exact h3 y hy
  obtain ⟨h1, -, h3⟩ := key (linePieces a n) s h
  exact ⟨h1, h3⟩

/-- What an engine reads is on its way, once it has been asked for and what waits is sent. -/
theorem State.reads_sendQueued (h : Numbered s) (a n site : Nat) : Reads ((s.queueRead e a n).sendQueued site) e a n := by
  obtain ⟨hn, hr⟩ := State.reading_queueRead (e := e) h a n
  intro x hx
  obtain ⟨r, hm, ho, hk, hrem, ha, hz, hst⟩ := hr x hx
  obtain ⟨q, hq, hqr, -⟩ := (State.carried_sendQueued hn.1 site).kept r hm hrem hst
  simp only [Req.mark, Prod.mk.injEq] at hqr
  obtain ⟨-, h1, h2, h3, h4, h5, h6, h7, h8, h9⟩ := hqr
  refine ⟨q, hq, ?_, h6.trans hk, h7.trans hrem, h8.trans ha, h9.trans hz⟩
  simp only [Eng.owns, h1, h2, h3, h4, h5]
  exact ho

theorem State.onlySent_queueRead (s : State) (e : Eng) (a n : Nat) : s.OnlySent (s.queueRead e a n) :=
  .foldl (fun t _ => .ite (.refl t) (t.onlySent_net _)) _ s

end Reads

end Sys2Proof.Machine
end


section
/-! PROOF. Queue enable, doorbells, command fetch and interrupts (R262, R266 to R270, R277): O37. -/

namespace Sys2Proof.Machine

open Sys2Proof.Claims

/-! ## Queues through counts and records -/

section Frames

variable {s t : State}

theorem State.OnlyTraced.host (h : s.OnlyTraced t) : t.host = s.host := by rw [h]

theorem State.OnlySent.host (h : s.OnlySent t) : t.host = s.host := by rw [h]

theorem State.OnlySent.nextCid (h : s.OnlySent t) : t.nextCid = s.nextCid := by rw [h]

theorem State.queue_congr (h : t.host = s.host) (p q : Nat) : t.queue p q = s.queue p q := by rw [State.queue, State.queue, h]

theorem State.port_congr (h : t.host = s.host) (p : Nat) : t.port p = s.port p := by rw [State.port, State.port, h]

theorem State.host_hostRx (s : State) (port n : Nat) : (s.hostRx port n).host = s.host := (s.onlyTraced_hostRx port n).host

theorem State.baseOk_congr (h : t.parts = s.parts) (q : Nat) (dev : Bool) (a n : Nat) : t.baseOk q dev a n = s.baseOk q dev a n := by
  rw [State.baseOk, State.baseOk, State.inRanges, State.inRanges, h]

/-- A queue that stops. -/
theorem State.queue_stopQueue (s : State) (port q code : Nat) : (s.stopQueue port q code).queue port q =
    { s.queue port q with en := false, qerr := true, qerrCode := code } := by
  have h : ∀ t : State, t.OnlyTraced (if q < 1024 then t.tracePart (t.part.grade.hostPort port).1 (q / 64) 6 7 0xFFF (toBytes 4 q ++ toBytes 4 code)
      else t.traceAdmin (t.part.grade.hostPort port).1 6 7 0xFFF (toBytes 4 q ++ toBytes 4 code)) := fun t => by
    split
    · exact t.onlyTraced_trace _
    · exact t.onlyTraced_trace _
  rw [State.stopQueue]
  dsimp only
  rw [State.queue_congr (h _).host, State.queue_setQueue, if_pos rfl]

end Frames

/-! ## Enable -/

theorem queueEnables (s : State) (port queue : Nat) (word : W32) (q : Queue) (hp : port < 4) (hu : s.linkUp port = true)
    (hq : s.queueOf port queue = true) (he : (s.queue port queue).en = false) (h0 : word.getLsbD 0 = true)
    (hw : q = { s.queue port queue with
      sqDev := word.getLsbD 1, cqDev := word.getLsbD 2, detailDev := word.getLsbD 3, intEach := word.getLsbD 4
      sizeM1 := getF 23 8 word }) :
    let good : Bool := s.baseOk queue q.sqDev q.sqBase (64 * q.size) && s.baseOk queue q.cqDev q.cqBase (16 * q.size) &&
      s.baseOk queue q.detailDev q.detailBase (32 * q.size)
    (good = true → Answers (.queueEnable port queue word) s (fun u => u.queue port queue = { q with en := true })) ∧
    (good = false → Answers (.queueEnable port queue word) s (fun u => (u.queue port queue).en = false ∧
      (u.queue port queue).qerr = true ∧ (u.queue port queue).qerrCode = 4)) := by
  intro good
  have hx : exec (.queueEnable port queue word) s = execQueueEnable port queue word s := rfl
  have hh := s.host_hostRx port 4
  have hpt : (s.hostRx port 4).parts = s.parts := by rw [s.onlyTraced_hostRx port 4]
  rw [execQueueEnable, if_neg (by omega), if_neg (by simp [hu]), if_neg (by simp [hq])] at hx
  dsimp only at hx
  generalize s.hostRx port 4 = t at hx hh hpt
  rw [State.queue_congr hh, if_neg (by simp [he]), if_neg (by simp [h0])] at hx
  replace hx : exec (.queueEnable port queue word) s =
      if (t.setQueue port queue q).baseOk queue q.sqDev q.sqBase (64 * q.size) &&
          (t.setQueue port queue q).baseOk queue q.cqDev q.cqBase (16 * q.size) &&
          (t.setQueue port queue q).baseOk queue q.detailDev q.detailBase (32 * q.size) then
        .next ((t.setQueue port queue q).setQueue port queue { q with en := true })
      else .next ((t.setQueue port queue q).stopQueue port queue 4) := by
    subst hw
    exact hx
  have hb : ∀ (d : Bool) (x y : Nat), (t.setQueue port queue q).baseOk queue d x y = s.baseOk queue d x y := fun d x y =>
    State.baseOk_congr (s := s) (t := t.setQueue port queue q) hpt queue d x y
  rw [hb, hb, hb] at hx
  change _ = (if good = true then _ else _) at hx
  refine ⟨fun hg => ?_, fun hg => ?_⟩
  · rw [if_pos hg] at hx
    exact ⟨_, hx, (State.queue_setQueue ..).trans (if_pos rfl)⟩
  · rw [if_neg (by simp [hg])] at hx
    refine ⟨_, hx, ?_⟩
    beta_reduce
    rw [State.queue_stopQueue]
    exact ⟨rfl, rfl, rfl⟩

/-! ## Doorbells -/

section Bells

variable {s : State} {port : Nat} (queue : Nat) (tail : Bool) (value : W32) (hp : port < 4) (hu : s.linkUp port = true)
include hp hu

theorem doorbell_of_up : doorbell s port queue tail value = .next (if (s.port port).posted = [] then s.ringBell port queue tail (getF 15 0 value)
    else s.setPosted port ((s.port port).posted ++ [(false, 2 * queue + (if tail then 0 else 1), toBytes 4 value.toNat)])) := by
  rw [doorbell, if_neg (by omega), if_neg (by simp [hu])]
  split <;> rfl

theorem bellWaits (hn : (s.port port).posted ≠ []) : ∃ u, doorbell s port queue tail value = .next u ∧ u.host.queues = s.host.queues ∧
    (u.port port).posted = (s.port port).posted ++ [(false, 2 * queue + (if tail then 0 else 1), toBytes 4 value.toNat)] := by
  refine ⟨_, (doorbell_of_up queue tail value hp hu).trans (congrArg _ (if_neg hn)), ?_⟩
  rw [State.setPosted, if_neg (by simp)]
  exact ⟨rfl, by rw [State.port_setPort, if_pos rfl]⟩

theorem bellRings (h0 : (s.port port).posted = []) (hl : s.queueLive port queue = true) (hv : getF 15 0 value < (s.queue port queue).size) :
    ∃ u, doorbell s port queue tail value = .next u ∧ u.queue port queue =
      if tail then { s.queue port queue with sqTail := getF 15 0 value } else { s.queue port queue with cqHead := getF 15 0 value } := by
  refine ⟨_, (doorbell_of_up queue tail value hp hu).trans (congrArg _ (if_pos h0)), ?_⟩
  have hq := State.queue_congr (s.host_hostRx port 4) port queue
  unfold State.ringBell
  rw [if_neg (by simp [hl])]
  dsimp only
  generalize s.hostRx port 4 = t at hq ⊢
  rw [hq]
  cases tail with
  | true =>
    simp only [if_true]
    split
    · next he => rw [hq, he]
    · rw [if_neg (by omega), State.queue_setQueue, if_pos rfl]
  | false =>
    simp only [Bool.false_eq_true, if_false]
    split
    · next he => rw [hq, he]
    · rw [if_neg (by omega), State.queue_setQueue, if_pos rfl]

theorem bellStops (h0 : (s.port port).posted = []) (hl : s.queueLive port queue = true) (hv : (s.queue port queue).size ≤ getF 15 0 value)
    (hn : getF 15 0 value ≠ if tail then (s.queue port queue).sqTail else (s.queue port queue).cqHead) :
    ∃ u, doorbell s port queue tail value = .next u ∧ (u.queue port queue).en = false ∧ (u.queue port queue).qerrCode = 1 := by
  refine ⟨_, (doorbell_of_up queue tail value hp hu).trans (congrArg _ (if_pos h0)), ?_⟩
  have hq := State.queue_congr (s.host_hostRx port 4) port queue
  unfold State.ringBell
  rw [if_neg (by simp [hl])]
  dsimp only
  rw [hq, if_neg hn, if_pos hv, State.queue_stopQueue]
  exact ⟨rfl, rfl⟩

theorem bellIgnored (h0 : (s.port port).posted = []) (hl : s.queueLive port queue = false) :
    ∃ u, doorbell s port queue tail value = .next u ∧ u.host.queues = s.host.queues ∧ Counted s u (s.hpBlk port) 0x108 1 := by
  refine ⟨_, (doorbell_of_up queue tail value hp hu).trans (congrArg _ (if_pos h0)), ?_⟩
  unfold State.ringBell
  rw [if_pos (by simp [hl])]
  refine ⟨?_, Counted.of_rg ?_ (State.counted_bump _ _ _ _)⟩
  · rw [(State.onlyTraced_bump ..).host, State.host_hostRx]
  · obtain ⟨x, k, hk, e⟩ := s.hpBlk_eq port
    unfold State.hostRx
    rw [e, (State.regsBut_bump64 (b := .cnt 0) _ trivial 0x108 4).rg (by simp only [tally, Blk.base]; omega),
      (s.regsBut_bump64 (b := .hp x k) hk 0x110 4).rg (by simp only [tally, Blk.base]; omega)]

end Bells

/-! ## Interrupts -/

theorem irqGoes (s : State) (port v : Nat) (vs : List Nat) (hp : port < 4) (hi : (s.port port).irqs = v :: vs) (hu : s.linkUp port = true) :
    ((s.port port).d3hot = true → exec (.msiXInterrupt port) s = .next s) ∧
    ((s.port port).d3hot = false → Answers (.msiXInterrupt port) s (fun u => (u.port port).irqs = vs ∧
      if port * 2048 + v ∉ s.host.msixUnmasked then port * 2048 + v ∈ u.host.msixPending ∧ (u.port port).sent = (s.port port).sent
      else (u.port port).sent = (s.port port).sent ++ [v] ∧ u.host.msixPending = s.host.msixPending)) := by
  have hx : exec (.msiXInterrupt port) s = execMsiXInterrupt port s := rfl
  rw [execMsiXInterrupt, if_neg (by omega)] at hx
  dsimp only at hx
  rw [hi] at hx
  dsimp only at hx
  refine ⟨fun hd => by rwa [if_pos (by simp [hd])] at hx, fun hd => ?_⟩
  rw [if_neg (by simp [hd, hu])] at hx
  by_cases hm : port * 2048 + v ∈ s.host.msixUnmasked
  · rw [if_neg (by simp [hm])] at hx
    refine ⟨_, hx, ?_⟩
    beta_reduce
    rw [if_neg (by simp [hm]), State.port_setPort, if_pos rfl]
    exact ⟨rfl, rfl, rfl⟩
  · rw [if_pos (by simp [hm])] at hx
    refine ⟨_, hx, ?_⟩
    beta_reduce
    have hport : ∀ (p : Port) (l : List Nat), ({ s.setPort port p with host := { (s.setPort port p).host with msixPending := l } } : State).port port = p :=
      fun p l => (s.port_setPort port port p).trans (if_pos rfl)
    rw [if_pos hm, hport]
    exact ⟨rfl, by simp [mem_insNat], rfl⟩

/-! ## The fetch of a command -/

section Fetch

variable {s : State} {port queue : Nat}

theorem exec_fetch (hp : port < 4) (hm : s.mayFetch port queue = true) (hc : s.cmds.length < 4096) (fails : Bool) :
    exec (.commandFetch port queue fails) s =
      if (s.queue port queue).sqDev then
        match (s.unstall (.queue port queue)).gatherOne (s.ringEng port queue)
          (.here ((s.queue port queue).sqBase + 64 * (s.queue port queue).sqHead) 64) with
        | .data bs => .next (((s.unstall (.queue port queue)).used (s.ringEng port queue)).arrives port queue bs)
        | _ => .next (((s.unstall (.queue port queue)).queueRead (s.ringEng port queue)
            ((s.queue port queue).sqBase + 64 * (s.queue port queue).sqHead) 64).sendQueued noSite)
      else if !(s.port port).reads.contains queue then .next (s.askHost port queue)
      else if fails then .next (((s.unstall (.queue port queue)).endRead port queue).stopQueue port queue 2)
      else .next ((((s.unstall (.queue port queue)).endRead port queue).hostRx port 64).arrives port queue
        ((((s.unstall (.queue port queue)).endRead port queue).hostBytes port
          ((s.queue port queue).sqBase + 64 * (s.queue port queue).sqHead) 64).map (fun b => (b, false)))) := by
  have hx : exec (.commandFetch port queue fails) s = execCommandFetch port queue fails s := rfl
  rw [execCommandFetch, if_neg (by omega), if_neg (by simp [hm]), if_neg (by omega)] at hx
  refine hx.trans ?_
  split <;> rfl

/-- What a queue's read gathers does not hang on what is stalled. -/
theorem State.gatherOne_unstall (who : Staller) (e : Eng) (p : Piece) : (s.unstall who).gatherOne e p = s.gatherOne e p := rfl

theorem State.Numbered_unstall (h : Numbered s) (who : Staller) : Numbered (s.unstall who) := h

/-- A read of an entry goes to the host. -/
theorem fetchAsksHost (hp : port < 4) (hm : s.mayFetch port queue = true) (hc : s.cmds.length < 4096)
    (hd : (s.queue port queue).sqDev = false) (hn : queue ∉ (s.port port).reads) (hl : (s.port port).reads.length < 4096) (fails : Bool) :
    Answers (.commandFetch port queue fails) s (fun u =>
        (u.port port).reads = (s.port port).reads ++ [queue] ∧ u.cmds = s.cmds ∧ u.host.queues = s.host.queues) := by
  have hx := exec_fetch hp hm hc fails
  rw [if_neg (by simp [hd]), if_pos (by simpa using hn), State.askHost, if_neg (by omega)] at hx
  exact ⟨_, hx, by rw [State.port_setPort, if_pos rfl], rfl, rfl⟩

/-- A read of an entry goes to its place in device memory. -/
theorem fetchReads (hp : port < 4) (hm : s.mayFetch port queue = true) (hc : s.cmds.length < 4096) (hd : (s.queue port queue).sqDev = true)
    (hw : s.gatherOne (s.ringEng port queue) (.here ((s.queue port queue).sqBase + 64 * (s.queue port queue).sqHead) 64) = .wait)
    (hn : Numbered s) (fails : Bool) : Answers (.commandFetch port queue fails) s (fun u =>
        Reads u (s.ringEng port queue) ((s.queue port queue).sqBase + 64 * (s.queue port queue).sqHead) 64 ∧ u.nextCid = s.nextCid ∧
          u.host.queues = s.host.queues) := by
  have hx := exec_fetch hp hm hc fails
  rw [if_pos hd, State.gatherOne_unstall, hw] at hx
  have ho := ((s.unstall (.queue port queue)).onlySent_queueRead (s.ringEng port queue)
    ((s.queue port queue).sqBase + 64 * (s.queue port queue).sqHead) 64).trans (State.onlySent_sendQueued _ noSite)
  exact ⟨_, hx, State.reads_sendQueued (s := s.unstall (.queue port queue)) hn _ _ _, ho.nextCid, congrArg (·.queues) ho.host⟩

/-- The command of a packet as it is accepted. -/
theorem State.accept_eq (s : State) (port queue slot : Nat) (pkt : List W32) : (s.accept port queue slot pkt).cid = s.nextCid ∧
    (s.accept port queue slot pkt).pkt = pkt ∧ (s.accept port queue slot pkt).port = port ∧ (s.accept port queue slot pkt).queue = queue ∧
    (s.accept port queue slot pkt).accepted = s.timeOf (s.part.grade.hostPort port).1 ∧ (s.accept port queue slot pkt).phase = .accepted := by
  have h : ∀ (p : Prop) [Decidable p] (c : Cmd) (l : List Nat), (if p then { c with cores := l } else c).cid = c.cid ∧
      (if p then { c with cores := l } else c).pkt = c.pkt ∧ (if p then { c with cores := l } else c).port = c.port ∧
      (if p then { c with cores := l } else c).queue = c.queue ∧ (if p then { c with cores := l } else c).accepted = c.accepted ∧
      (if p then { c with cores := l } else c).phase = c.phase := fun p _ c l => by
    split <;> exact ⟨rfl, rfl, rfl, rfl, rfl, rfl⟩
  exact h _ _ _

/-- A command that has been accepted ends where its packet is poisoned. -/
theorem State.consumed_accepted {t : State} {c : Cmd} (port : Nat) (h : t.cmd? c.cid = some c) (hp : c.phase = .accepted) :
    ∃ d, (t.consumePort c.cid port).cmd? c.cid = some { c with phase := .ending, status := 0x12, detail := some d, replay := [] } := by
  refine ⟨{ Detail.plain t (t.cmdStack c.cid) 3 0 with port := port }, ?_⟩
  have he : t.consumePort c.cid port = ((t.stopBlocks c.cid).setCmd { c with
      phase := .ending, status := 0x12, detail := some { Detail.plain t (t.cmdStack c.cid) 3 0 with port := port }, replay := [] }).freeUnits c := by
    simp [State.consumePort, State.endCmd, h, hp]
  rw [he, State.cmd?_congr (State.onlyHalves_freeUnits _ _).cmds, State.cmd?_setCmd, if_pos rfl]
  dsimp only
  rw [State.cmd?_congr (t.cmds_stopBlocks c.cid), h]
  rfl

/-- A command as its packet arrives, by whether the packet is poisoned and its opcode known. -/
theorem State.arrives_takes (s : State) (port queue : Nat) (bs : List PByte) (hf : ∀ c ∈ s.cmds, c.cid ≠ s.nextCid) :
    (s.arrives port queue bs).queue port queue = { s.queue port queue with
      sqHead := ((s.queue port queue).sqHead + 1) % (s.queue port queue).size, inflight := (s.queue port queue).inflight + 1 } ∧
    (s.arrives port queue bs).nextCid = s.nextCid + 1 ∧
    ∃ k, (s.arrives port queue bs).cmd? s.nextCid = some k ∧ k.pkt = dwordsOf 16 (bs.map (·.1)) ∧ k.port = port ∧ k.queue = queue ∧
      k.accepted = s.timeOf (s.part.grade.hostPort port).1 ∧
      if bs.any (·.2) = true then k.phase = .ending ∧ k.status = 0x12
      else if (partOnly ++ bothQueues ++ adminOnly).contains (getF 7 0 (nth 0 (dwordsOf 16 (bs.map (·.1))) 0)) = true then k.phase = .accepted
      else k.phase = .ending ∧ k.status = 0x01 := by
  obtain ⟨hcid, hpkt, hport, hqueue, hacc, hph⟩ := s.accept_eq port queue (s.queue port queue).sqHead (dwordsOf 16 (bs.map (·.1)))
  have hop : (s.accept port queue (s.queue port queue).sqHead (dwordsOf 16 (bs.map (·.1)))).opcode =
      getF 7 0 (nth 0 (dwordsOf 16 (bs.map (·.1))) 0) := by rw [Cmd.opcode, Cmd.f, Cmd.dw, hpkt]
  unfold State.arrives
  dsimp only
  rw [hop]
  generalize s.accept port queue (s.queue port queue).sqHead (dwordsOf 16 (bs.map (·.1))) = c at *
  generalize hq : ({ s.queue port queue with
      sqHead := ((s.queue port queue).sqHead + 1) % (s.queue port queue).size, inflight := (s.queue port queue).inflight + 1 } : Queue) = q
  generalize ht : State.setQueue { s with cmds := s.cmds ++ [c], nextCid := s.nextCid + 1 } port queue q = t
  have htq : t.queue port queue = q := by rw [← ht, State.queue_setQueue, if_pos rfl]
  have htn : t.nextCid = s.nextCid + 1 := by rw [← ht]; rfl
  have htc : t.cmd? c.cid = some c := by
    rw [← ht]
    have hnone : s.cmds.find? (fun d => d.cid == c.cid) = none :=
      List.find?_eq_none.2 fun d hd => by simpa [hcid] using hf d hd
    change (s.cmds ++ [c]).find? (fun d => d.cid == c.cid) = some c
    rw [List.find?_append, hnone]
    simp
  rw [← hcid] at htn ⊢
  split
  · obtain ⟨d, hd⟩ := State.consumed_accepted port htc hph
    have ho := t.onlySent_endCmd c.cid 0x12 { Detail.plain t (t.cmdStack c.cid) 3 0 with port := port }
    exact ⟨(State.queue_congr ho.host ..).trans htq, ho.nextCid.trans htn, _, hd, hpkt, hport, hqueue, hacc, rfl, rfl⟩
  · split
    · exact ⟨htq, htn, c, htc, hpkt, hport, hqueue, hacc, hph⟩
    · have hfin := State.cmd?_modCmd t c.cid c.cid (fun c => match c.phase with
        | .accepted => { c with phase := .ending, status := 0x01, result := 0 }
        | .running => { c with phase := .ending, status := 0x01, result := 0 }
        | _ => c) (by intro d hd; split <;> exact hd)
      rw [if_pos rfl, htc, Option.map_some, hph] at hfin
      exact ⟨htq, htn, _, hfin, hpkt, hport, hqueue, hacc, rfl, rfl⟩

/-- The packet of a queue arrives. -/
theorem fetchTakes (q : Queue) (pkt : List W32) (bs : List PByte) (a : Nat) (hp : port < 4) (hm : s.mayFetch port queue = true)
    (hc : s.cmds.length < 4096) (hf : ∀ c ∈ s.cmds, c.cid ≠ s.nextCid) (hq : q = s.queue port queue) (ha : a = q.sqBase + 64 * q.sqHead)
    (hb : q.sqDev = false ∧ queue ∈ (s.port port).reads ∧ bs = clean (s.hostBytes port a 64) ∨
        q.sqDev = true ∧ s.gatherOne (s.ringEng port queue) (.here a 64) = .data bs)
    (hk : pkt = dwordsOf 16 (bs.map (·.1))) : Answers (.commandFetch port queue false) s (fun u =>
        u.queue port queue = { q with sqHead := (q.sqHead + 1) % q.size, inflight := q.inflight + 1 } ∧
        u.nextCid = s.nextCid + 1 ∧
        ∃ k, u.cmd? s.nextCid = some k ∧ k.pkt = pkt ∧ k.port = port ∧ k.queue = queue ∧ k.accepted = s.timeOf (s.part.grade.hostPort port).1 ∧
          if bs.any (·.2) = true then k.phase = .ending ∧ k.status = 0x12
          else if (partOnly ++ bothQueues ++ adminOnly).contains (getF 7 0 (nth 0 pkt 0)) = true then k.phase = .accepted
          else k.phase = .ending ∧ k.status = 0x01) := by
  have hx := exec_fetch hp hm hc false
  subst hk hq ha
  suffices hs : ∃ t : State, t.host.queues = s.host.queues ∧ t.cmds = s.cmds ∧ t.nextCid = s.nextCid ∧ t.time = s.time ∧ t.part = s.part ∧
      exec (.commandFetch port queue false) s = .next (t.arrives port queue bs) by
    obtain ⟨t, hh, hcm, hn, ht, hpt, he⟩ := hs
    have h := t.arrives_takes port queue bs (by rw [hcm, hn]; exact hf)
    have hq : t.queue port queue = s.queue port queue := by rw [State.queue, State.queue, hh]
    rw [hq, hn, hpt, State.timeOf, ht, ← State.timeOf] at h
    exact ⟨_, he, h⟩
  rcases hb with ⟨hd, hr, rfl⟩ | ⟨hd, hg⟩
  · rw [if_neg (by simp [hd]), if_neg (by simpa using hr), if_neg (by simp)] at hx
    have hu : ∀ t : State, (t.endRead port queue).host.queues = t.host.queues ∧ (t.endRead port queue).cmds = t.cmds ∧
        (t.endRead port queue).nextCid = t.nextCid ∧ (t.endRead port queue).time = t.time ∧ (t.endRead port queue).part = t.part ∧
        (t.endRead port queue).hmem = t.hmem := fun t => by
      unfold State.endRead
      dsimp only
      split <;> exact ⟨rfl, rfl, rfl, rfl, rfl, rfl⟩
    obtain ⟨h1, h2, h3, h4, h5, h6⟩ := hu (s.unstall (.queue port queue))
    have hb : ((s.unstall (.queue port queue)).endRead port queue).hostBytes = s.hostBytes := by
      funext p a n
      rw [State.hostBytes, State.hostBytes, h6]
      rfl
    rw [hb] at hx
    generalize (s.unstall (.queue port queue)).endRead port queue = v at *
    have hv := v.onlyTraced_hostRx port 64
    have hvc : (v.hostRx port 64).cmds = v.cmds := by rw [hv]
    have hvn : (v.hostRx port 64).nextCid = v.nextCid := by rw [hv]
    have hvt : (v.hostRx port 64).time = v.time := by rw [hv]
    have hvp : (v.hostRx port 64).part = v.part := by rw [hv]
    exact ⟨_, (congrArg (·.queues) hv.host).trans h1, hvc.trans h2, hvn.trans h3, hvt.trans h4, hvp.trans h5, hx⟩
  · rw [if_pos hd, State.gatherOne_unstall, hg] at hx
    refine ⟨_, ?_, ?_, ?_, ?_, ?_, hx⟩ <;> rfl

end Fetch

/-- Settles O37. -/
theorem queuesAndDoorbells : Obligations.QueuesAndDoorbells := by
  unfold Obligations.QueuesAndDoorbells
  refine ⟨fun s port queue word q hp hu hq he h0 hw => queueEnables s port queue word q hp hu hq he h0 hw, fun s port queue value hp hu hn p hm => ?_,
    fun s port queue v value hp hu h0 hv => ⟨fun hl hlt => ⟨?_, ?_⟩, fun hl hle => ⟨fun hn => ?_, fun hn => ?_⟩, fun hl i hi => ?_⟩,
    fun s port queue a q pkt bs hp hm hc hf hq ha => ⟨fun hd hn hl fails => ?_, fun hd hw hn fails => ?_, fun hb hk =>
      fetchTakes q pkt bs a hp hm hc hf hq ha hb hk⟩, irqGoes⟩
  · simp only [List.mem_cons, List.not_mem_nil, or_false] at hm
    rcases hm with rfl | rfl
    · exact bellWaits queue true value hp hu hn
    · exact bellWaits queue false value hp hu hn
  · subst hv; exact bellRings queue true value hp hu h0 hl hlt
  · subst hv; exact bellRings queue false value hp hu h0 hl hlt
  · subst hv; exact bellStops queue true value hp hu h0 hl hle hn
  · subst hv; exact bellStops queue false value hp hu h0 hl hle hn
  · simp only [List.mem_cons, List.not_mem_nil, or_false] at hi
    rcases hi with rfl | rfl
    · exact bellIgnored queue true value hp hu h0 hl
    · exact bellIgnored queue false value hp hu h0 hl
  · subst hq; exact fetchAsksHost hp hm hc hd hn hl fails
  · subst hq ha; exact fetchReads hp hm hc hd hw hn fails

end Sys2Proof.Machine
end


section
/-! PROOF. A host port's register writes, and the clears of counters and logs (R6, R9, R167, R169, R215, R256, R262, R267, R371, R416,
R421, R429): the layer that O52 stands on. -/

namespace Sys2Proof.Machine

open Sys2Proof.Claims

/-! ## What a written word sets -/

/-- A byte that is written takes the byte of the word. -/
theorem setF_low (v w : W32) : setF 7 0 (getF 7 0 v) w = v &&& 0xFF#32 ||| (w &&& 0xFFFFFF00#32) := by
  refine BitVec.eq_of_getLsbD_eq fun i hi => ?_
  have h1 : ∀ n < 32, (0xFF#32).getLsbD n = decide (n ≤ 7) := by decide
  have h2 : ∀ n < 32, (0xFFFFFF00#32).getLsbD n = !decide (n ≤ 7) := by decide
  rw [getLsbD_setF _ _ _ _ _ (by omega), testBit_getF, BitVec.getLsbD_or, BitVec.getLsbD_and, BitVec.getLsbD_and, h1 i hi, h2 i hi]
  by_cases h : i ≤ 7
  · simp [h, show i < 8 by omega]
  · simp [h]

/-- A field within one that a write takes reads as the word's bits. -/
theorem getF_eq (hi lo : Nat) (v : W32) : getF hi lo v = v.toNat / 2 ^ lo % 2 ^ (hi + 1 - lo) := rfl

/-! ## Places of registers -/

/-- How many bytes of the register map a block takes. -/
def Blk.span : Blk → Nat
  | .arr _ | .esp _ | .cntCore _ | .router _ => 0x400
  | .sc _ | .mif _ | .fp _ | .hp _ _ => 0x4000
  | _ => 0x10000

/-- Where a register of the map is said to lie, its block is one of the part and its offset within it. -/
def Located (r : Option (Blk × Nat)) : Prop := ∀ b o, r = some (b, o) → b.placed ∧ o < b.span

theorem located_none : Located none := fun _ _ h => nomatch h

theorem located_some {b : Blk} {o : Nat} (hb : b.placed) (ho : o < b.span) : Located (some (b, o)) := fun _ _ h => by
  obtain ⟨rfl, rfl⟩ := Prod.mk.inj (Option.some.inj h); exact ⟨hb, ho⟩

theorem Located.ite {p : Prop} [Decidable p] {r q : Option (Blk × Nat)} (h : p → Located r) (k : ¬ p → Located q) :
    Located (if p then r else q) := iteInduction h k

theorem located_locateStack (t : Nat) {x : Nat} (hx : x < 0x100000) : Located (locateStack t x) := by
  unfold locateStack
  repeat' refine .ite (fun _ => ?_) fun _ => ?_
  all_goals first
    | exact located_none
    | exact located_some (by simp only [Blk.placed] <;> omega) (by simp only [Blk.span]; omega)

theorem located_locate {a : Nat} (ha : a < 0x1800000) : Located (locate a) := by
  unfold locate
  refine .ite (fun h => ?_) fun _ => .ite (fun _ => located_locateStack _ (Nat.mod_lt _ (by omega))) fun h => absurd ha h
  dsimp only
  repeat' refine .ite (fun _ => ?_) fun _ => ?_
  all_goals exact located_some (by simp only [Blk.placed]; omega) (by simp only [Blk.span]; omega)

/-- Whether no count, no event and no record writes a block's registers but for its own counters. -/
def Blk.quiet : Blk → Prop
  | .sc _ | .mif _ | .msh _ | .pwr _ | .clk _ | .thm _ | .trim => True
  | _ => False

theorem Blk.quiet.not_eventKey {b : Blk} (h : b.quiet) {o : Nat} (ho : o < b.span) : ¬ eventKey (b.base + o) := by
  cases b with
  | sc _ | mif _ | msh _ | pwr _ | clk _ | thm _ | trim =>
    revert ho; simp only [eventKey, tally, Blk.base, Blk.span]; omega
  | _ => exact h.elim

/-! ## Plain writes -/

section Plain

variable {s : State} {port off o : Nat} {b : Blk} {v : W32}

theorem exec_registerWrite (hp : port < 4) (hl : s.linkUp port = true) (ho : off < 0x1800000) :
    exec (.registerWrite port off v) s = .next ((s.writeReg port off v).hostRx port 4) := by
  change execRegisterWrite port off v s = _
  rw [execRegisterWrite, if_neg (by omega), if_neg (by simp [hl]), if_pos ho]

theorem State.writeReg_of_taken (hl : locate off = some (b, o)) (ha : off % 4 = 0) (hf : blkFields b o ≠ []) (hm : s.mayWrite port b o = true)
    (hr : ownRow b o = false) : s.writeReg port off v = s.applyWrite b o v := by
  have hn : ¬ (off % 4 ≠ 0 ∨ fieldsAt off = [] ∨ s.mayWrite port b o = false ∨ ownRow b o = true) := by
    rw [fieldsAt, hl, hm, hr]
    simp [ha, hf]
  rw [State.writeReg, hl]
  exact if_neg hn

theorem State.writeReg_of_refused (hl : locate off = some (b, o)) (hm : s.mayWrite port b o = false) : s.writeReg port off v = s := by
  rw [State.writeReg, hl]
  exact if_pos (.inr (.inr (.inl hm)))

/-- A write that its master may make is that write, and its bytes are counted. -/
theorem registerWrite_taken (hp : port < 4) (hu : s.linkUp port = true) (ho : off < 0x1800000) (ha : off % 4 = 0)
    (hl : locate off = some (b, o)) (hf : blkFields b o ≠ []) (hm : s.mayWrite port b o = true) (hr : ownRow b o = false) :
    exec (.registerWrite port off v) s = .next ((s.applyWrite b o v).hostRx port 4) := by
  rw [exec_registerWrite hp hu ho, State.writeReg_of_taken hl ha hf hm hr]

/-- One that it may not make is counted only. -/
theorem registerWrite_refused (hp : port < 4) (hu : s.linkUp port = true) (ho : off < 0x1800000)
    (hl : locate off = some (b, o)) (hm : s.mayWrite port b o = false) :
    exec (.registerWrite port off v) s = .next (s.hostRx port 4) := by
  rw [exec_registerWrite hp hu ho, State.writeReg_of_refused hl hm]

/-- A block of the part's stacks, but for the host ports. -/
theorem State.hasBlk_of {b : Blk} (h : b.stack < s.stacks) (hb : ∀ t k, b ≠ .hp t k) : s.hasBlk b = true := by
  cases b with
  | hp t k => exact absurd rfl (hb t k)
  | _ => exact (Bool.and_true _).trans (decide_eq_true h)

end Plain

/-! ## The registers of O52 -/

section Writes

variable {s : State} {port off : Nat} {v : W32}

theorem fillerWrite {site : Nat} (hp : port < 4) (hu : s.linkUp port = true) (ho : off < 0x1800000) (ha : off % 4 = 0)
    (hl : locate off = some (.arr site, 0x004)) (hs : site < s.sites) :
    (s.coreOwner site = port → Answers (.registerWrite port off v) s (fun u =>
      u.rg (.arr site) 0x004 = v &&& 0xFF#32 ||| (s.rg (.arr site) 0x004 &&& 0xFFFFFF00#32))) ∧
    (s.coreOwner site ≠ port → Answers (.registerWrite port off v) s (fun u => u.rg (.arr site) 0x004 = s.rg (.arr site) 0x004)) := by
  have hk : ¬ eventKey ((Blk.arr site).base + 0x004) := by
    have : site < 4096 := (located_locate ho _ _ hl).1
    simp only [eventKey, tally, Blk.base]; omega
  have hb : s.hasBlk (.arr site) = true := State.hasBlk_of (show site / 512 < s.stacks by rw [State.sites] at hs; omega) (by simp)
  refine ⟨fun hown => ⟨_, registerWrite_taken hp hu ho ha hl (by simp [blkFields, arrFields]) ?_ rfl, ?_⟩,
    fun hown => ⟨_, registerWrite_refused hp hu ho hl ?_, (s.regsBut_hostRx port 4).rg hk⟩⟩
  · simp [State.mayWrite, hb, hown]
  · beta_reduce
    rw [(State.regsBut_hostRx _ port 4).rg hk]
    change (s.wg (.arr site) 0x004 _).rg (.arr site) 0x004 = _
    rw [State.rg_wg_self]
    exact setF_low _ _
  · simp [State.mayWrite, hown]

/-- The registers of a half, of an interface, of a stack's mesh, clock, sensors and power are the administrative port's to write. -/
theorem State.mayWrite_quiet (s : State) {b : Blk} (hq : b.quiet) (o : Nat) :
    s.mayWrite port b o = (s.hasBlk b && decide (port = s.boot.cfg.adminPort)) := by
  cases b with
  | sc _ | mif _ | msh _ | pwr _ | clk _ | thm _ | trim => rfl
  | _ => exact hq.elim

theorem State.mayWrite_admin {b : Blk} {o : Nat} (hq : b.quiet) (hb : b.stack < s.stacks) (h : port = s.boot.cfg.adminPort) :
    s.mayWrite port b o = true := by
  rw [s.mayWrite_quiet hq, State.hasBlk_of hb (by rintro t k rfl; exact hq), decide_eq_true h]; rfl

theorem State.mayWrite_other {b : Blk} {o : Nat} (hq : b.quiet) (h : port ≠ s.boot.cfg.adminPort) : s.mayWrite port b o = false := by
  rw [s.mayWrite_quiet hq, decide_eq_false h, Bool.and_false]

/-- What the administrative port's write to such a register does, once its bytes are counted. -/
theorem adminWrite {b : Blk} {o : Nat} (hp : port < 4) (hu : s.linkUp port = true) (ho : off < 0x1800000) (ha : off % 4 = 0)
    (hl : locate off = some (b, o)) (hq : b.quiet) (hb : b.stack < s.stacks) (h : port = s.boot.cfg.adminPort) (hf : blkFields b o ≠ []) :
    exec (.registerWrite port off v) s = .next ((s.applyWrite b o v).hostRx port 4) := by
  refine registerWrite_taken hp hu ho ha hl hf (State.mayWrite_admin hq hb h) ?_
  cases b with
  | sc _ | mif _ | msh _ | pwr _ | clk _ | thm _ | trim => rfl
  | _ => exact hq.elim

theorem faultClearWrite {h : Nat} (hp : port < 4) (hu : s.linkUp port = true) (ho : off < 0x1800000) (ha : off % 4 = 0)
    (hl : locate off = some (.sc h, 0x00C)) (hs : h < s.devices) (had : port = s.boot.cfg.adminPort) :
    Answers (.registerWrite port off v) s (fun u => u.rg (.sc h) 0x00C = s.rg (.sc h) 0x00C &&& ~~~ (v &&& 0x08000001#32)) := by
  refine ⟨_, adminWrite hp hu ho ha hl trivial (by rw [State.devices] at hs; simp only [Blk.stack]; omega) had (by simp [blkFields, scFields]), ?_⟩
  beta_reduce
  rw [(State.regsBut_hostRx _ port 4).rg (Blk.quiet.not_eventKey (b := .sc h) trivial (by simp [Blk.span]))]
  change (s.wg (.sc h) 0x00C ((s.rg (.sc h) 0x00C &&& ~~~ (v &&& maskF 27 27)) &&& ~~~ (v &&& maskF 0 0))).rg (.sc h) 0x00C = _
  rw [State.rg_wg_self, BitVec.and_assoc, ← BitVec.not_or, ← BitVec.and_or_distrib_left]
  rfl

/-- The pin cap that a write leaves, within its bound (R169). -/
def pinCap (v w : W32) : W32 := clampWrite (.sc 0) 0x004 (writeFields (scFields 0x004) w v)

theorem getF_pinCap (v w : W32) : getF 3 0 (pinCap v w) = min 12 (v.toNat % 16) := by
  have h : getF 3 0 (writeFields (scFields 0x004) w v) = v.toNat % 16 := by
    change getF 3 0 (setF 3 0 (getF 3 0 v) w) = _
    rw [getF_setF _ _ _ _ (by omega), getF_eq]; omega
  change getF 3 0 (setF 3 0 (min 12 (getF 3 0 (writeFields (scFields 0x004) w v))) _) = _
  rw [getF_setF _ _ _ _ (by omega), h]; omega

theorem State.rgF_pinSync (s : State) (t x : Nat) : (s.pinSync t).rgF (.sc x) 0x004 3 0 = s.rgF (.sc x) 0x004 3 0 := by
  unfold State.pinSync
  refine State.foldl_same (fun u => u.rgF (.sc x) 0x004 3 0) (fun u h => ?_) _ s
  refine (State.rgF_wgF_apart _ (by omega) (.inr (by omega))).trans ?_
  refine State.foldl_same (fun u => u.rgF (.sc x) 0x004 3 0) (fun u i => ?_) _ u
  dsimp only
  split
  · rfl
  · exact State.rgF_wgF_ne _ _ _ _ _ _ (by simp only [Blk.base, pinOff]; omega)

theorem pinCapWrite {h : Nat} (hp : port < 4) (hu : s.linkUp port = true) (ho : off < 0x1800000) (ha : off % 4 = 0)
    (hl : locate off = some (.sc h, 0x004)) (hs : h < s.devices) (had : port = s.boot.cfg.adminPort) :
    Answers (.registerWrite port off v) s (fun u => ∀ e < 2, u.rgF (.sc (h / 2 * 2 + e)) 0x004 3 0 = min 12 (v.toNat % 16)) := by
  refine ⟨_, adminWrite hp hu ho ha hl trivial (by rw [State.devices] at hs; simp only [Blk.stack]; omega) had (by simp [blkFields, scFields]),
    fun e he => ?_⟩
  rw [(State.regsBut_hostRx _ port 4).rgF _ _ (Blk.quiet.not_eventKey (b := .sc _) trivial (by simp [Blk.span]))]
  change (((s.wg (.sc (h / 2 * 2)) 0x004 (pinCap v _)).wg (.sc (h / 2 * 2 + 1)) 0x004 (pinCap v _)).pinSync (h / 2)).rgF _ _ 3 0 = _
  rw [State.rgF_pinSync, State.rgF, State.rg_wg]
  split
  · exact getF_pinCap _ _
  · next hne =>
    obtain rfl : e = 0 := by simp only [Blk.base] at hne; omega
    rw [Nat.add_zero, State.rg_wg_self]
    exact getF_pinCap _ _

theorem clockWrite {t : Nat} (hp : port < 4) (hu : s.linkUp port = true) (ho : off < 0x1800000) (ha : off % 4 = 0)
    (hl : locate off = some (.clk t, 0x004)) (hs : t < s.stacks) (had : port = s.boot.cfg.adminPort) :
    Answers (.registerWrite port off v) s (fun u => u.rgF (.clk t) 0x004 7 0 = max 10 (min 120 (v.toNat % 256))) := by
  refine ⟨_, adminWrite hp hu ho ha hl trivial hs had (by simp [blkFields, clkFields]), ?_⟩
  beta_reduce
  rw [(State.regsBut_hostRx _ port 4).rgF _ _ (Blk.quiet.not_eventKey (b := .clk t) trivial (by simp [Blk.span])), State.rgF]
  change getF 7 0 ((s.wg (.clk t) 0x004 (setF 7 0 (max 10 (min 120 (getF 7 0 (setF 7 0 (getF 7 0 v) (s.rg (.clk t) 0x004))))) _)).rg _ _) = _
  rw [State.rg_wg_self, getF_setF _ _ _ _ (by omega), getF_setF _ _ _ _ (by omega), getF_eq]
  omega

theorem limitWrite {t : Nat} (hp : port < 4) (hu : s.linkUp port = true) (ho : off < 0x1800000) (ha : off % 4 = 0)
    (hl : locate off = some (.thm t, 0x004)) (hs : t < s.stacks) (had : port = s.boot.cfg.adminPort) :
    Answers (.registerWrite port off v) s (fun u =>
      u.rgF (.thm t) 0x004 7 1 = min 100 (v.toNat / 2 % 128) ∧ u.rgF (.thm t) 0x004 14 8 = min 95 (v.toNat / 256 % 128)) := by
  refine ⟨_, adminWrite hp hu ho ha hl trivial hs had (by simp [blkFields, thmFields]), ?_⟩
  have hk := Blk.quiet.not_eventKey (b := .thm t) (o := 0x004) trivial (by simp [Blk.span])
  generalize hwd : writeFields (thmFields 0x004) (s.rg (.thm t) 0x004) v = w
  have hw : (s.applyWrite (.thm t) 0x004 v).rg (.thm t) 0x004 = setF 7 1 (min 100 (getF 7 1 w)) (setF 14 8 (min 95 (getF 14 8 w)) w) := by
    subst hwd
    exact s.rg_wg_self (.thm t) 0x004 _
  have h1 : getF 7 1 w = v.toNat / 2 % 128 := by
    rw [← hwd]
    change getF 7 1 (setF 0 0 _ (setF 7 1 (getF 7 1 v) _)) = _
    rw [getF_setF_of_disjoint _ _ _ _ _ _ (by omega) (by omega), getF_setF _ _ _ _ (by omega), getF_eq]; omega
  have h2 : getF 14 8 w = v.toNat / 256 % 128 := by
    rw [← hwd]
    change getF 14 8 (setF 0 0 _ (setF 7 1 _ (setF 14 8 (getF 14 8 v) _))) = _
    rw [getF_setF_of_disjoint _ _ _ _ _ _ (by omega) (by omega), getF_setF_of_disjoint _ _ _ _ _ _ (by omega) (by omega),
      getF_setF _ _ _ _ (by omega), getF_eq]; omega
  constructor
  · rw [(State.regsBut_hostRx _ port 4).rgF _ _ hk, State.rgF, hw, getF_setF _ _ _ _ (by omega), h1]; omega
  · rw [(State.regsBut_hostRx _ port 4).rgF _ _ hk, State.rgF, hw, getF_setF_of_disjoint _ _ _ _ _ _ (by omega) (by omega),
      getF_setF _ _ _ _ (by omega), h2]; omega

theorem classWrite {t p : Nat} (hp : port < 4) (hu : s.linkUp port = true) (ho : off < 0x1800000) (ha : off % 4 = 0) (h16 : p < 16)
    (hl : locate off = some (.msh t, 0x100 + 4 * p)) (hs : t < s.stacks) (had : port = s.boot.cfg.adminPort) (hpt : (mfind s.parts p).isSome = true) :
    Answers (.registerWrite port off v) s (fun u => u.rg (.msh t) (0x100 + 4 * p) = s.rg (.msh t) (0x100 + 4 * p) ∧
      ∃ w, mfind u.net.pendingRegs ((Blk.msh t).base + (0x100 + 4 * p)) = some w ∧ getF 20 0 w = v.toNat % 2 ^ 21) := by
  have hf : mshFields (0x100 + 4 * p) = [⟨20, 0, .rw, 0⟩] := by
    rw [mshFields, if_neg (by omega), if_neg (by omega), if_pos (by simp only [inStep, Bool.and_eq_true, decide_eq_true_eq]; omega)]
  have hw : s.applyWrite (.msh t) (0x100 + 4 * p) v = { s with net := { s.net with
      pendingRegs := mput s.net.pendingRegs ((Blk.msh t).base + (0x100 + 4 * p)) (setF 20 0 (getF 20 0 v) (s.rg (.msh t) (0x100 + 4 * p))) } } := by
    have hd : (0x100 + 4 * p - 0x100) / 4 = p := by omega
    change (if atBoundary (0x100 + 4 * p) then _ else _) = _
    simp only [atBoundary, hd, blkFields, hf, writeFields]
    rw [if_pos (by simp only [Bool.and_eq_true, decide_eq_true_eq]; omega), if_neg fun h => absurd h.2 (by rw [Option.isNone_eq_false_iff.2 hpt]; decide)]
  refine ⟨_, adminWrite hp hu ho ha hl trivial hs had (by simp [blkFields, hf]), ?_, ?_⟩
  · rw [hw, (State.regsBut_hostRx _ port 4).rg (Blk.quiet.not_eventKey (b := .msh t) trivial (by simp only [Blk.span]; omega))]
    rfl
  · rw [hw, (State.onlyTraced_hostRx _ port 4).net]
    refine ⟨_, (mfind_mput ..).trans (if_pos rfl), ?_⟩
    rw [getF_setF _ _ _ _ (by omega), getF_eq]
    omega

theorem otherWrite {b : Blk} {o : Nat} (hp : port < 4) (hu : s.linkUp port = true) (ho : off < 0x1800000) (hl : locate off = some (b, o))
    (had : port ≠ s.boot.cfg.adminPort) (hb : (∃ h, b = .sc h) ∨ (∃ d, b = .mif d) ∨ (∃ t, b = .clk t) ∨ (∃ t, b = .thm t) ∨
      (∃ t, b = .pwr t) ∨ b = .trim) : Answers (.registerWrite port off v) s (fun u => u.rg b o = s.rg b o) := by
  have hq : b.quiet := by rcases hb with ⟨_, rfl⟩ | ⟨_, rfl⟩ | ⟨_, rfl⟩ | ⟨_, rfl⟩ | ⟨_, rfl⟩ | rfl <;> trivial
  exact ⟨_, registerWrite_refused hp hu ho hl (State.mayWrite_other hq had),
    (s.regsBut_hostRx port 4).rg (hq.not_eventKey (located_locate ho _ _ hl).2)⟩

end Writes

end Sys2Proof.Machine
end


section
/-! PROOF. Queue blocks, MSI-X masks, clears of counters and logs, TR_RPTR (R262, R267, R215, R416, R421, R429): O52. -/

namespace Sys2Proof.Machine

open Sys2Proof.Claims

/-! ## Queue blocks and MSI-X entries -/

section Queues

variable {s : State} {port qi : Nat} {v : W32}

theorem State.queue_setQueue_self (s : State) (port qi : Nat) (q : Queue) : (s.setQueue port qi q).queue port qi = q :=
  mget_mset_self _ _ _ _

theorem exec_queueWrite {o : Nat} (hp : port < 4) (hu : s.linkUp port = true) (hq : qi < 1028) (ho : o < 0x40) (hown : s.queueOf port qi = true) :
    Answers (.registerWrite port (0x2000000 + 0x40 * qi + o) v) s (fun u => u.queue port qi = (s.queue port qi).writeWord o v) := by
  have h1 : (0x2000000 + 0x40 * qi + o - 0x2000000) / 0x40 = qi := by omega
  have h2 : (0x2000000 + 0x40 * qi + o) % 0x40 = o := by omega
  refine ⟨(s.setQueue port qi ((s.queue port qi).writeWord o v)).hostRx port 4, ?_, ?_⟩
  · change execRegisterWrite _ _ _ s = _
    rw [execRegisterWrite, if_neg (by omega), if_neg (by simp [hu]), if_neg (by omega), if_pos (by omega)]
    simp only [h1, h2, hown, if_true]
  · beta_reduce
    rw [State.queue_congr (State.host_hostRx ..), State.queue_setQueue_self]

theorem queueWrites (hp : port < 4) (hu : s.linkUp port = true) (hq : qi < 1028) (hown : s.queueOf port qi = true) :
    ((s.queue port qi).en = false →
      Answers (.registerWrite port (0x2000000 + 0x40 * qi + 0x08) v) s (fun u =>
        (u.queue port qi).sqBase % 2 ^ 32 = v.toNat ∧ (u.queue port qi).sqBase / 2 ^ 32 = (s.queue port qi).sqBase / 2 ^ 32) ∧
      Answers (.registerWrite port (0x2000000 + 0x40 * qi + 0x28) v) s (fun u => (u.queue port qi).vector = v.toNat % 2048)) ∧
    ((s.queue port qi).en = true → Answers (.registerWrite port (0x2000000 + 0x40 * qi + 0x08) v) s (fun u =>
      u.queue port qi = s.queue port qi)) ∧
    (v.getLsbD 0 = true → Answers (.registerWrite port (0x2000000 + 0x40 * qi + 0x04) v) s (fun u =>
      (u.queue port qi).qerr = false)) := by
  have hw : ∀ o, o < 0x40 → Answers (.registerWrite port (0x2000000 + 0x40 * qi + o) v) s (fun u =>
      u.queue port qi = (s.queue port qi).writeWord o v) := fun o ho => exec_queueWrite hp hu hq ho hown
  have hv := v.isLt
  refine ⟨fun he => ⟨?_, ?_⟩, fun he => ?_, fun h0 => ?_⟩
  · obtain ⟨t, hx, ht⟩ := hw 0x08 (by omega)
    refine ⟨t, hx, ?_⟩
    beta_reduce
    rw [ht]
    simp only [Queue.writeWord, he]
    simp
    omega
  · obtain ⟨t, hx, ht⟩ := hw 0x28 (by omega)
    refine ⟨t, hx, ?_⟩
    beta_reduce
    rw [ht]
    simp [Queue.writeWord, he, getF_eq]
  · obtain ⟨t, hx, ht⟩ := hw 0x08 (by omega)
    refine ⟨t, hx, ?_⟩
    beta_reduce
    rw [ht]
    simp [Queue.writeWord, he]
  · obtain ⟨t, hx, ht⟩ := hw 0x04 (by omega)
    refine ⟨t, hx, ?_⟩
    beta_reduce
    rw [ht]
    simp [Queue.writeWord, h0]

end Queues

section Masks

variable {s : State} {port k : Nat}

theorem exec_maskWrite (v : W32) (hp : port < 4) (hu : s.linkUp port = true) (hk : k < 2048) :
    exec (.registerWrite port (0x3F00000 + 16 * k + 12) v) s = .next ((s.msixWrite port k 3 v).hostRx port 4) := by
  have h1 : (0x3F00000 + 16 * k + 12 - 0x3F00000) / 16 = k := by omega
  have h2 : (0x3F00000 + 16 * k + 12) % 16 / 4 = 3 := by omega
  change execRegisterWrite _ _ _ s = _
  rw [execRegisterWrite, if_neg (by omega), if_neg (by simp [hu]), if_neg (by omega), if_neg (by omega), if_pos (by omega)]
  rw [h1, h2]

theorem maskWrites (hp : port < 4) (hu : s.linkUp port = true) (hk : k < 2048) (hd : (s.port port).d3hot = false) :
    Answers (.registerWrite port (0x3F00000 + 16 * k + 12) 1#32) s (fun u => port * 2048 + k ∉ u.host.msixUnmasked) ∧
    (port * 2048 + k ∈ s.host.msixPending → Answers (.registerWrite port (0x3F00000 + 16 * k + 12) 0#32) s (fun u =>
      port * 2048 + k ∈ u.host.msixUnmasked ∧ port * 2048 + k ∉ u.host.msixPending ∧ k ∈ (u.port port).irqs)) := by
  constructor
  · refine ⟨_, exec_maskWrite 1#32 hp hu hk, ?_⟩
    beta_reduce
    rw [State.host_hostRx]
    change port * 2048 + k ∉ delNat s.host.msixUnmasked (port * 2048 + k)
    simp [mem_delNat]
  · intro hm
    refine ⟨_, exec_maskWrite 0#32 hp hu hk, ?_⟩
    let t : State := { s with host := { s.host with
      msixUnmasked := insNat s.host.msixUnmasked (port * 2048 + k), msixPending := delNat s.host.msixPending (port * 2048 + k) } }
    have ht : s.msixWrite port k 3 0#32 = t.setPort port { s.port port with irqs := (s.port port).irqs ++ [k] } := by
      change (if s.host.msixPending.contains (port * 2048 + k) then t.raiseIrq port k else t) = _
      rw [if_pos (List.contains_iff_mem.2 hm)]
      change t.setPort port (if (s.port port).d3hot then _ else _) = _
      rw [if_neg (by simp [hd])]
      rfl
    beta_reduce
    rw [State.host_hostRx, State.port_congr (State.host_hostRx ..), ht]
    refine ⟨?_, ?_, ?_⟩
    · change port * 2048 + k ∈ insNat s.host.msixUnmasked (port * 2048 + k)
      simp [mem_insNat]
    · change port * 2048 + k ∉ delNat s.host.msixPending (port * 2048 + k)
      simp [mem_delNat]
    · rw [State.port, State.setPort]
      simp

end Masks

/-! ## Clears of counters -/

/-- One of the elements of a list sets what the others keep. -/
theorem foldl_of_mem {α β : Type} {f : β → α → β} {P : β → Prop} {l : List α} {a : α} (ha : a ∈ l) (hset : ∀ u, P (f u a))
    (hkeep : ∀ u x, P u → P (f u x)) (s : β) : P (l.foldl f s) := by
  have keep : ∀ (l : List α) s, P s → P (l.foldl f s) := fun l => by
    induction l with
    | nil => exact fun s h => h
    | cons x l ih => exact fun s h => ih _ (hkeep s x h)
  induction l generalizing s with
  | nil => exact absurd ha List.not_mem_nil
  | cons x l ih =>
    rcases List.mem_cons.1 ha with rfl | h
    · exact keep l _ (hset s)
    · exact ih h _

/-- The keys of the event counters of a block. -/
def eventOf (b : Blk) (k : Nat) : Prop := ∃ o, isEvent b o = true ∧ k = b.base + o

/-- Bit i of a word of flags at 0. -/
def State.lowerFlag (s : State) (w i : Nat) : State := { s with regs := mset 0 s.regs w (setF i i 0 (mget 0 s.regs w)) }

/-- An event counter and its flag at 0. -/
def State.clearWord (b : Blk) (s : State) (o : Nat) : State :=
  if isEvent b o then (s.wg b o 0).lowerFlag (flagPlace b o).1 (flagPlace b o).2 else s

theorem State.clearCounters_eq (s : State) (b : Blk) : s.clearCounters b = (counterWords b).foldl (State.clearWord b) s := rfl

section Clear

variable (s : State) {b : Blk}

theorem State.onlyRegs_clearWord (o : Nat) : s.OnlyRegs (State.clearWord b s o) := by
  unfold State.clearWord
  split
  · unfold State.OnlyRegs State.wg; rfl
  · exact .refl s

theorem State.regsBut_clearWord (hb : b.placed) (o : Nat) : s.RegsBut (fun k => tally k ∨ eventOf b k) (State.clearWord b s o) := by
  unfold State.clearWord
  split
  · next he =>
    refine (s.regsBut_wg b o 0 (.inr ⟨o, he, rfl⟩)).trans fun k hk => ?_
    exact mfind_mset_ne _ _ _ fun e => hk (.inl (e ▸ tally_flagPlace hb o))
  · exact .refl s

theorem State.onlyRegs_clearCounters (b : Blk) : s.OnlyRegs (s.clearCounters b) := by
  rw [State.clearCounters_eq]
  generalize counterWords b = l
  induction l generalizing s with
  | nil => exact .refl s
  | cons o l ih => exact (s.onlyRegs_clearWord o).trans (ih _)

theorem State.regsBut_clearCounters (hb : b.placed) : s.RegsBut (fun k => tally k ∨ eventOf b k) (s.clearCounters b) :=
  State.RegsBut.foldl (fun t o => t.regsBut_clearWord hb o) _ s

/-- An event counter that is cleared reads as 0. -/
theorem State.rg_clearCounters {o : Nat} (hb : b.placed) (ho : o ∈ counterWords b) (he : isEvent b o = true) (hk : ¬ tally (b.base + o)) :
    (s.clearCounters b).rg b o = 0 := by
  have hz : ∀ u : State, ∀ x, (State.clearWord b u x).rg b o = if isEvent b x = true ∧ x = o then 0 else u.rg b o := fun u x => by
    unfold State.clearWord
    split
    · next hx =>
      refine ((State.RegsBut.rg (K := tally) (s := u.wg b x 0) (fun k hk => ?_) hk).trans (u.rg_wg ..)).trans ?_
      · exact mfind_mset_ne _ _ _ fun e => hk (e ▸ tally_flagPlace hb x)
      · simp [hx, eq_comm]
    · next hx => rw [if_neg fun h => hx h.1]
  rw [State.clearCounters_eq]
  refine foldl_of_mem (P := fun u : State => u.rg b o = 0) ho (fun u => ?_) (fun u x hu => ?_) s
  · rw [hz, if_pos ⟨he, rfl⟩]
  · rw [hz, hu, ite_self]

end Clear

/-- The keys of the event counters of a site. -/
theorem eventOf_site {i k : Nat} {b : Blk} (hb : b ∈ coreBlks i) (h : eventOf b k) :
    b = .arr i ∧ i * 0x1000 + 0x40 ≤ k ∧ k < i * 0x1000 + 0x68 ∨ b = .esp i ∧ i * 0x1000 + 0x440 ≤ k ∧ k < i * 0x1000 + 0x44C ∨
    b = .router i ∧ i * 0x1000 + 0xD00 ≤ k ∧ k < i * 0x1000 + 0xD24 ∨ b = .cntCore i ∧ i * 0x1000 + 0x880 ≤ k ∧ k < i * 0x1000 + 0x8A0 := by
  obtain ⟨o, he, rfl⟩ := h
  simp only [coreBlks, List.mem_cons, List.not_mem_nil, or_false] at hb
  rcases hb with rfl | rfl | rfl | rfl <;>
    · simp only [isEvent, inStep, Bool.and_eq_true, decide_eq_true_eq] at he
      simp only [Blk.base, reduceCtorEq, false_and, true_and, false_or, or_false]
      omega

section Core

variable (s : State) {site : Nat}

/-- Clearing a site's counters changes registers and what the commands keep of them. -/
theorem State.regs_clearCore (site : Nat) : (s.clearCore site).regs =
    ((((s.clearCounters (.arr site)).clearCounters (.esp site)).clearCounters (.router site)).clearCounters (.cntCore site)).regs := rfl

theorem State.memory_clearCore (site : Nat) : SameMemory s (s.clearCore site) := by
  have h : s.OnlyRegs ((((s.clearCounters (.arr site)).clearCounters (.esp site)).clearCounters (.router site)).clearCounters (.cntCore site)) :=
    (((s.onlyRegs_clearCounters _).trans (State.onlyRegs_clearCounters _ _)).trans (State.onlyRegs_clearCounters _ _)).trans
      (State.onlyRegs_clearCounters _ _)
  exact h.memory

theorem State.clearCore_zero (hs : site < 4096) :
    (∀ k < 8, (s.clearCore site).rg (.cntCore site) (0x080 + 4 * k) = 0) ∧ (∀ k < 10, (s.clearCore site).rg (.arr site) (0x040 + 4 * k) = 0) ∧
    (∀ k < 10, (s.clearCore site).rg64 (.cntCore site) (8 * k) = s.rg64 (.cntCore site) (8 * k)) := by
  have hp : ∀ b ∈ coreBlks site, b.placed := by simp [coreBlks, Blk.placed, hs]
  have hev : ∀ b ∈ coreBlks site, ∀ t : State, t.RegsBut (fun k => tally k ∨ eventOf b k) (t.clearCounters b) := fun b hb t =>
    t.regsBut_clearCounters (hp b hb)
  have ha : Blk.arr site ∈ coreBlks site := by simp [coreBlks]
  have hes : Blk.esp site ∈ coreBlks site := by simp [coreBlks]
  have hr : Blk.router site ∈ coreBlks site := by simp [coreBlks]
  have hc : Blk.cntCore site ∈ coreBlks site := by simp [coreBlks]
  refine ⟨fun k hk => ?_, fun k hk => ?_, fun k hk => ?_⟩
  · rw [State.rg_congr (s.regs_clearCore site)]
    refine State.rg_clearCounters _ (hp _ hc) ?_ ?_ ?_
    · simp only [counterWords, upTo_eq_range', List.mem_append, List.mem_map, List.mem_range'_1]
      exact .inr ⟨k, by omega, rfl⟩
    · simp only [isEvent, inStep, Bool.and_eq_true, decide_eq_true_eq]; omega
    · simp only [tally, Blk.base]; omega
  · rw [State.rg_congr (s.regs_clearCore site)]
    have hn : ∀ b ∈ coreBlks site, b ≠ .arr site → ¬ (tally ((Blk.arr site).base + (0x040 + 4 * k)) ∨ eventOf b ((Blk.arr site).base + (0x040 + 4 * k))) := by
      rintro b hb hne (h | h)
      · revert h; simp only [tally, Blk.base]; omega
      · rcases eventOf_site hb h with ⟨h, -⟩ | ⟨-, h⟩ | ⟨-, h⟩ | ⟨-, h⟩
        · exact hne h
        all_goals revert h; simp only [Blk.base]; omega
    rw [(hev _ hc _).rg (hn _ hc (by simp)), (hev _ hr _).rg (hn _ hr (by simp)), (hev _ hes _).rg (hn _ hes (by simp))]
    refine State.rg_clearCounters _ (hp _ ha) ?_ ?_ ?_
    · simp only [counterWords, upTo_eq_range', List.mem_map, List.mem_range'_1]
      exact ⟨k, by omega, rfl⟩
    · simp only [isEvent, inStep, Bool.and_eq_true, decide_eq_true_eq]; omega
    · simp only [tally, Blk.base]; omega
  · have hn : ∀ b ∈ coreBlks site, ∀ o < 0x80, ¬ (tally ((Blk.cntCore site).base + o) ∨ eventOf b ((Blk.cntCore site).base + o)) := by
      rintro b hb o ho (h | h)
      · revert h; simp only [tally, Blk.base]; omega
      · rcases eventOf_site hb h with ⟨-, h⟩ | ⟨-, h⟩ | ⟨-, h⟩ | ⟨-, h⟩
        all_goals revert h; simp only [Blk.base]; omega
    have h4 : ∀ b ∈ coreBlks site, ∀ t : State, (t.clearCounters b).rg64 (.cntCore site) (8 * k) = t.rg64 (.cntCore site) (8 * k) := fun b hb t =>
      (hev b hb t).rg64 (hn b hb _ (by omega)) (hn b hb _ (by omega))
    rw [State.rg64, State.rg_congr (s.regs_clearCore site), State.rg_congr (s.regs_clearCore site), ← State.rg64, h4 _ hc, h4 _ hr, h4 _ hes, h4 _ ha]

theorem State.quiet_hostRx (port n : Nat) : s.Quiet (s.hostRx port n) := by
  have hp : ∀ o, o < 0x4000 → ¬ ringKey ((s.hpBlk port).base + o) := fun o ho => by
    obtain ⟨t, k, hk, e⟩ := s.hpBlk_eq port
    rw [e]
    rintro ⟨r, hr, he⟩
    simp only [Blk.base, ringOff] at he
    omega
  exact (s.quiet_bump64 (not_ringKey_flagPlace (s.placed_hpBlk port) _) (hp _ (by omega)) (hp _ (by omega)) n).trans
    (State.quiet_bump64 _ (not_ringKey_flagPlace (b := .cnt 0) trivial _) (not_ringKey_cnt0 (by omega)) (not_ringKey_cnt0 (by omega)) n)

end Core

theorem coreClear {s : State} {port site : Nat} (hp : port < 4) (hs : site < s.sites) (hu : s.linkUp port = true) :
    (s.coreOwner site = port → Answers (.cntCoreClear port site) s (fun u =>
      (∀ k < 8, u.rg (.cntCore site) (0x080 + 4 * k) = 0) ∧ (∀ k < 10, u.rg (.arr site) (0x040 + 4 * k) = 0) ∧
      (∀ k < 10, u.rg64 (.cntCore site) (8 * k) = s.rg64 (.cntCore site) (8 * k)) ∧ (TraceOff s → SameMemory s u))) ∧
    (s.coreOwner site ≠ port → Answers (.cntCoreClear port site) s (fun u => ∀ k < 8,
      u.rg (.cntCore site) (0x080 + 4 * k) = s.rg (.cntCore site) (0x080 + 4 * k))) := by
  have hx : exec (.cntCoreClear port site) s =
      .next (if (s.hostRx port 4).coreOwner site = port then (s.hostRx port 4).clearCore site else s.hostRx port 4) := by
    change execCntCoreClear _ _ s = _
    rw [execCntCoreClear, if_neg (by omega), if_neg (by simp [hu])]
  have ho : (s.hostRx port 4).coreOwner site = s.coreOwner site := by rw [s.onlyTraced_hostRx port 4]; rfl
  have hs' : site < 4096 := hs.trans_le s.sites_le
  have hk : ∀ o < 0x300, ¬ eventKey ((Blk.cntCore site).base + o) := fun o ho => by simp only [eventKey, tally, Blk.base]; omega
  have hr := s.regsBut_hostRx port 4
  rw [ho] at hx
  refine ⟨fun h => ?_, fun h => ?_⟩
  · rw [if_pos h] at hx
    obtain ⟨h1, h2, h3⟩ := (s.hostRx port 4).clearCore_zero hs'
    refine ⟨_, hx, h1, h2, fun k hk' => ?_, fun ht => ?_⟩
    · rw [h3 k hk', hr.rg64 (hk _ (by omega)) (hk _ (by omega))]
    · obtain ⟨-, m1, m2, m3⟩ := s.quiet_hostRx port 4 ht
      obtain ⟨c1, c2, c3⟩ := (s.hostRx port 4).memory_clearCore site
      exact ⟨c1.trans m1, c2.trans m2, c3.trans m3⟩
  · rw [if_neg h] at hx
    exact ⟨_, hx, fun k hk' => hr.rg (hk _ (by omega))⟩

end Sys2Proof.Machine
end


section
/-! PROOF. CNT_CLEAR, ELOG_CLEAR and TR_RPTR (R215, R416, R421, R429), and O52. -/

namespace Sys2Proof.Machine

open Sys2Proof.Claims

/-! ## The clears of a stack's blocks -/

theorem isEvent_lt {b : Blk} {o : Nat} (h : isEvent b o = true) : o < b.span := by
  cases b with
  | ctx _ | dbg _ => exact absurd h Bool.false_ne_true
  | _ =>
    revert h
    simp only [isEvent, inStep, Blk.span, Bool.and_eq_true, Bool.or_eq_true, decide_eq_true_eq]
    omega

/-- Of the blocks that CLEAR names, the ninth alone has its counters in the power block. -/
theorem eventOf_stackBlk {t x o : Nat} (ho : o < 0x10000) (h : eventOf (stackBlk t x) ((Blk.pwr t).base + o)) : x = 9 := by
  obtain ⟨o', he, hk⟩ := h
  replace he := isEvent_lt he
  revert he hk
  unfold stackBlk
  split <;> intro he hk <;> simp only [Blk.base, Blk.span] at he hk <;> omega

section Blocks

variable {s : State} {stack : Nat} {mask : W32}

/-- What CLEAR does to one block. -/
def State.clearBlock (stack : Nat) (mask : W32) (t : State) (b : Nat) : State :=
  if !mask.getLsbD b || (decide (b = 12) && decide (stack ≠ 0)) then t
  else if b = 10 then { t.clearCounters (stackBlk stack b) with
      cmds := (t.clearCounters (stackBlk stack b)).cmds.map (fun (c : Cmd) => c.clearStretch stack) }
    else t.clearCounters (stackBlk stack b)

theorem State.clearBlocks_eq (s : State) (stack : Nat) (mask : W32) :
    s.clearBlocks stack mask = (upTo 0 14).foldl (State.clearBlock stack mask) s := rfl

theorem placed_stackBlk (t x : Nat) : (stackBlk t x).placed := by
  unfold stackBlk
  split <;> simp [Blk.placed]

theorem State.regsBut_clearBlock (t : State) (x : Nat) :
    t.RegsBut (fun k => mask.getLsbD x = true ∧ (tally k ∨ eventOf (stackBlk stack x) k)) (t.clearBlock stack mask x) := by
  unfold State.clearBlock
  split
  · exact .refl t
  · next h =>
    have hx : mask.getLsbD x = true := by
      simp only [Bool.or_eq_true, Bool.not_eq_true', not_or, Bool.not_eq_false] at h; exact h.1
    have hr : t.RegsBut (fun k => mask.getLsbD x = true ∧ (tally k ∨ eventOf (stackBlk stack x) k)) (t.clearCounters (stackBlk stack x)) :=
      (t.regsBut_clearCounters (placed_stackBlk stack x)).mono fun k hk => ⟨hx, hk⟩
    exact .ite (hr.trans (.of_eq rfl)) hr

theorem State.rg_clearBlock_ne (t : State) {x k : Nat} (hk : k < 6) (h : x ≠ 9 ∨ mask.getLsbD 9 = false) :
    (t.clearBlock stack mask x).rg (.pwr stack) (0x800 + 4 * k) = t.rg (.pwr stack) (0x800 + 4 * k) := by
  refine (t.regsBut_clearBlock x).rg ?_
  rintro ⟨hm, ht | he⟩
  · revert ht; simp only [tally, Blk.base]; omega
  · obtain rfl := eventOf_stackBlk (by omega) he
    rcases h with h | h
    · exact h rfl
    · rw [h] at hm; exact absurd hm (by simp)

theorem State.rg_clearBlock_power (t : State) {k : Nat} (hk : k < 6) (h : mask.getLsbD 9 = true) :
    (t.clearBlock stack mask 9).rg (.pwr stack) (0x800 + 4 * k) = 0 := by
  have he : t.clearBlock stack mask 9 = t.clearCounters (.pwr stack) := by
    rw [State.clearBlock, if_neg (by simp [h]), if_neg (by omega)]; rfl
  rw [he]
  refine State.rg_clearCounters _ trivial ?_ ?_ ?_
  · simp only [counterWords, upTo_eq_range', List.mem_map, List.mem_range'_1]
    exact ⟨k, by omega, rfl⟩
  · simp only [isEvent, inStep, Bool.and_eq_true, decide_eq_true_eq]; omega
  · simp only [tally, Blk.base]; omega

theorem stackClear {port : Nat} (hp : port < 4) (hs : stack < s.stacks) (hu : s.linkUp port = true) (had : port = s.boot.cfg.adminPort) :
    Answers (.cntClear port stack mask) s (fun u =>
      (mask.getLsbD 9 = true → ∀ k < 6, u.rg (.pwr stack) (0x800 + 4 * k) = 0) ∧
      (mask.getLsbD 9 = false → ∀ k < 6, u.rg (.pwr stack) (0x800 + 4 * k) = s.rg (.pwr stack) (0x800 + 4 * k))) := by
  have hb : (s.hostRx port 4).boot = s.boot := by rw [s.onlyTraced_hostRx port 4]
  refine ⟨(s.hostRx port 4).clearBlocks stack mask, ?_, fun h k hk => ?_, fun h k hk => ?_⟩
  · change execCntClear _ _ _ s = _
    rw [execCntClear, if_neg (by omega), if_neg (by simp [hu])]
    exact congrArg _ (if_neg (by rw [hb]; exact fun h => h had))
  · rw [State.clearBlocks_eq]
    refine foldl_of_mem (a := 9) (P := fun u : State => u.rg (.pwr stack) (0x800 + 4 * k) = 0) (by simp [upTo_eq_range'])
      (fun u => u.rg_clearBlock_power hk h) (fun u x hz => ?_) _
    by_cases hx : x = 9
    · rw [hx]; exact u.rg_clearBlock_power hk h
    · exact (u.rg_clearBlock_ne hk (.inl hx)).trans hz
  · rw [State.clearBlocks_eq]
    refine (State.foldl_same (fun u => u.rg (.pwr stack) (0x800 + 4 * k)) (fun u x => u.rg_clearBlock_ne hk (.inr h)) _ _).trans ?_
    exact (s.regsBut_hostRx port 4).rg (Blk.quiet.not_eventKey (b := .pwr stack) trivial (by simp only [Blk.span]; omega))

end Blocks

/-! ## The clear of a log -/

section Log

variable {s : State} {b : Blk} {k : LogKind}

/-- One entry of a log, cleared where it has been repaired. -/
def State.clearEntry (b : Blk) (k : LogKind) (t : State) (i : Nat) : State := if t.logOld b k i then t.wgB b (logOff i) 0 false else t

theorem State.rg_clearEntry_ne (t : State) {i x : Nat} (h : x ≠ i) : (t.clearEntry b k x).rg b (logOff i) = t.rg b (logOff i) := by
  unfold State.clearEntry
  split
  · exact t.rg_wg_ne _ (by simp only [logOff]; omega)
  · rfl

theorem State.logOld_clearEntry (hk : 2 < k.remapBit ∧ k.remapBit < 32) (t : State) (i x : Nat) : (t.clearEntry b k x).logOld b k i = t.logOld b k i := by
  by_cases h : x = i
  · subst h
    unfold State.clearEntry
    split
    · rw [State.logOld, State.rgF_wgB_of_disjoint _ _ _ _ _ _ _ (by omega) (by omega), State.rgB_wgB_ne_bit _ _ _ _ _ _ (by omega) (by omega), State.logOld]
    · rfl
  · rw [State.logOld, State.logOld, State.rgF, State.rgB, t.rg_clearEntry_ne h, ← State.rgF, ← State.rgB]

/-- An entry that has been repaired leaves the log, every other stays. -/
theorem State.foldl_clearEntry (hk : 2 < k.remapBit ∧ k.remapBit < 32) {l : List Nat} {i : Nat} (hi : i ∈ l) (t : State) :
    (t.logOld b k i = true → (l.foldl (State.clearEntry b k) t).rgB b (logOff i) 0 = false) ∧
    (t.logOld b k i = false → (l.foldl (State.clearEntry b k) t).rg b (logOff i) = t.rg b (logOff i)) := by
  have hold : ∀ (l : List Nat) t, (l.foldl (State.clearEntry b k) t).logOld b k i = t.logOld b k i := fun l t =>
    State.foldl_same (fun u => u.logOld b k i) (fun u x => u.logOld_clearEntry hk i x) l t
  constructor
  · intro h
    have hp : ∀ u : State, (u.clearEntry b k i).logOld b k i = true → (u.clearEntry b k i).rgB b (logOff i) 0 = false := fun u hu => by
      rw [u.logOld_clearEntry hk] at hu
      rw [State.clearEntry, if_pos hu, State.rgB_wgB_self _ _ _ _ _ (by omega)]
    refine foldl_of_mem (P := fun u : State => u.logOld b k i = true → u.rgB b (logOff i) 0 = false) hi hp (fun u x hu => ?_) t
      ((hold l t).trans h)
    by_cases hx : x = i
    · rw [hx]; exact hp u
    · rw [u.logOld_clearEntry hk, State.rgB, u.rg_clearEntry_ne hx]; exact hu
  · intro h
    have hstep : ∀ u : State, u.logOld b k i = false → ∀ x, (u.clearEntry b k x).rg b (logOff i) = u.rg b (logOff i) := fun u hu x => by
      by_cases hx : x = i
      · rw [hx, State.clearEntry, if_neg (by simp [hu])]
      · exact u.rg_clearEntry_ne hx
    clear hi
    induction l generalizing t with
    | nil => rfl
    | cons x l ih => exact (ih _ ((t.logOld_clearEntry hk i x).trans h)).trans (hstep t h x)

theorem logClear {port unit i : Nat} {mem : Bool} (hp : port < 4) (hn : unit < s.devices) (hu : s.linkUp port = true)
    (had : port = s.boot.cfg.adminPort) (hi : i < 32) (hb : b = if mem then Blk.mif unit else .sc unit) (hk : k = if mem then mifLog else scLog) :
    Answers (.elogClear port mem unit) s (fun u => (s.logOld b k i = true → u.rgB b (logOff i) 0 = false) ∧
      (s.logOld b k i = false → u.rg b (logOff i) = s.rg b (logOff i))) := by
  have hbt : (s.hostRx port 4).boot = s.boot := by rw [s.onlyTraced_hostRx port 4]
  have hbit : 2 < k.remapBit ∧ k.remapBit < 32 := by rw [hk]; split <;> decide
  have hq : ¬ eventKey (b.base + logOff i) := by
    rw [hb]; split
    · exact Blk.quiet.not_eventKey (b := .mif unit) trivial (by simp only [Blk.span, logOff]; omega)
    · exact Blk.quiet.not_eventKey (b := .sc unit) trivial (by simp only [Blk.span, logOff]; omega)
  have hr := s.regsBut_hostRx port 4
  have hold : (s.hostRx port 4).logOld b k i = s.logOld b k i := by
    rw [State.logOld, hr.rgF _ _ hq, hr.rgB _ hq, State.logOld]
  refine ⟨(s.hostRx port 4).clearLog mem unit, ?_, ?_⟩
  · change execElogClear _ _ _ s = _
    rw [execElogClear, if_neg (by omega), if_neg (by simp [hu])]
    exact congrArg _ (if_neg (by rw [hbt]; exact fun h => h had))
  · have he : (s.hostRx port 4).clearLog mem unit = (upTo 0 32).foldl (State.clearEntry b k) (s.hostRx port 4) := by
      rw [hb, hk]; rfl
    obtain ⟨h1, h2⟩ := State.foldl_clearEntry (b := b) hbit (l := upTo 0 32) (i := i) (by simp [upTo_eq_range', hi]) (s.hostRx port 4)
    beta_reduce
    rw [he]
    exact ⟨fun h => h1 (hold.trans h), fun h => (h2 (hold.trans h)).trans (hr.rg hq)⟩

end Log

/-! ## TR_RPTR -/

/-- The keys of the rings' read pointers. -/
def readKey (k : Nat) : Prop := ∃ r < 17, k = (Blk.cnt 0).base + (ringOff r + 0x24)

theorem not_readKey_flagPlace {b : Blk} (h : b.placed) (o : Nat) : ¬ readKey (flagPlace b o).1 := by
  have hp := (posOf_le (counterWords b) o).trans (length_counterWords b)
  rintro ⟨r, hr, he⟩
  revert he hp h
  simp only [flagPlace, ringOff]
  generalize posOf (counterWords b) o = i
  cases b <;> simp [Blk.site, Blk.flagNo, Blk.base, Blk.stack, Blk.placed] <;> omega

section Rptr

variable (s : State)

theorem State.keepsRead_setFlag {b : Blk} (h : b.placed) (o : Nat) : s.RegsBut (fun k => ¬ readKey k) (s.setFlag b o) := fun _ hk =>
  mfind_mset_ne _ _ _ fun e => hk (e ▸ not_readKey_flagPlace h o)

theorem State.keepsRead_count {o : Nat} (ho : ¬ readKey ((Blk.cnt 0).base + o)) (n : Nat) :
    s.RegsBut (fun k => ¬ readKey k) (s.count (.cnt 0) o n).1 := by
  unfold State.count
  dsimp only
  have hw : ∀ v, s.RegsBut (fun k => ¬ readKey k) (s.wg (.cnt 0) o v) := fun v => s.regsBut_wg _ o v ho
  split
  · exact .refl s
  · split
    · exact hw _
    · exact (hw _).trans (State.keepsRead_setFlag _ (b := .cnt 0) trivial o)

theorem State.keepsRead_putRecord (r : Nat) (bs : List Byte) : s.RegsBut (fun k => ¬ readKey k) (s.putRecord r bs) := by
  refine State.RegsBut.trans (t := if r = 16 then s.hostStore s.boot.cfg.adminPort _ bs else s.store _ bs false) ?_
    (State.regsBut_wg _ (.cnt 0) (ringOff r + 0x20) _ ?_)
  · exact .ite (.of_eq rfl) (.of_eq rfl)
  · rintro ⟨q, hq, he⟩; simp only [Blk.base, ringOff] at he; omega

theorem State.keepsRead_ringLost (r : Nat) : s.RegsBut (fun k => ¬ readKey k) (s.ringLost r) :=
  .ite ((s.keepsRead_putRecord r _).trans (.of_eq rfl)) (.refl s)

theorem State.keepsRead_ringOne (j : Job) : s.RegsBut (fun k => ¬ readKey k) (s.ringOne j).1 := by
  obtain ⟨r, mask, bs⟩ := j
  unfold State.ringOne
  dsimp only
  have h := s.keepsRead_ringLost r
  split
  · exact .refl s
  · split
    · exact h.trans (State.keepsRead_putRecord _ r bs)
    · refine h.trans (State.RegsBut.trans (State.keepsRead_count _ ?_ 1) (State.RegsBut.trans (State.keepsRead_count _ ?_ 1) (.of_eq rfl)))
      all_goals rintro ⟨q, hq, he⟩; simp only [Blk.base, ringOff] at he; omega

theorem State.keepsRead_trace (js : List Job) : s.RegsBut (fun k => ¬ readKey k) (s.trace js) := by
  have h : ∀ (f : Nat) (s : State) js, s.RegsBut (fun k => ¬ readKey k) (State.rings f s js) := fun f => by
    induction f with
    | zero => exact fun s _ => .refl s
    | succ f ih => exact fun s js => match js with
      | [] => .refl s
      | j :: js => (s.keepsRead_ringOne j).trans (ih _ _)
  exact h 100 s js

theorem State.keepsRead_bump64 {b : Blk} (h : b.placed) {o : Nat} (ho : ¬ readKey (b.base + o)) (h4 : ¬ readKey (b.base + (o + 4))) (n : Nat) :
    s.RegsBut (fun k => ¬ readKey k) (s.bump64 b o n) := by
  unfold State.bump64 State.count64
  dsimp only
  have hw := s.regsBut_wg64 (K := fun k => ¬ readKey k) b o (s.rg64 b o + n) ho h4
  split
  · exact hw
  · exact hw.trans ((State.keepsRead_setFlag _ h o).trans (State.keepsRead_trace _ _))

theorem State.keepsRead_hostRx (port n : Nat) : s.RegsBut (fun k => ¬ readKey k) (s.hostRx port n) := by
  obtain ⟨t, k, hk, e⟩ := s.hpBlk_eq port
  refine State.RegsBut.trans (s.keepsRead_bump64 (s.placed_hpBlk port) (o := 0x110) ?_ ?_ n) (State.keepsRead_bump64 _ (b := .cnt 0) trivial (o := 0x108) ?_ ?_ n)
  all_goals
    try rw [e]
    rintro ⟨q, hq, he⟩; simp only [Blk.base, ringOff] at he; omega

theorem State.rg_setRptr {ring : Nat} (h : ring < 17) (v : W32) : (s.setRptr ring v).rg (.cnt 0) (ringOff ring + 0x24) = v := by
  have hw := s.rg_wg_self (.cnt 0) (ringOff ring + 0x24) v
  unfold State.setRptr
  dsimp only
  split
  · exact ((State.keepsRead_ringLost _ ring).rg fun hn => hn ⟨ring, h, rfl⟩).trans hw
  · exact hw

end Rptr

theorem readPointerWrite {s : State} {port ring : Nat} {v : W32} (hp : port < 4) (hr : ring < 16) (hu : s.linkUp port = true) :
    (s.ownerOf ring = some port → Answers (.trRptrWrite port ring v) s (fun u => u.rg (.cnt 0) (ringOff ring + 0x24) = v)) ∧
    (s.ownerOf ring ≠ some port → Answers (.trRptrWrite port ring v) s (fun u =>
      u.rg (.cnt 0) (ringOff ring + 0x24) = s.rg (.cnt 0) (ringOff ring + 0x24))) := by
  have ho : (s.hostRx port 4).ownerOf ring = s.ownerOf ring := by rw [s.onlyTraced_hostRx port 4]; rfl
  have hx : exec (.trRptrWrite port ring v) s =
      .next (if s.ownerOf ring ≠ some port then s.hostRx port 4 else (s.hostRx port 4).setRptr ring v) := by
    change execTrRptrWrite _ _ _ s = _
    rw [execTrRptrWrite, if_neg (by omega), if_neg (by simp [hu])]
    simp only [ho, show ring ≠ 16 by omega, if_false]
  refine ⟨fun h => ⟨_, hx.trans (by rw [if_neg (fun hn => hn h)]), State.rg_setRptr _ (by omega) v⟩,
    fun h => ⟨_, hx.trans (by rw [if_pos h]), (s.keepsRead_hostRx port 4).rg fun hn => hn ⟨ring, by omega, rfl⟩⟩⟩

/-! ## O52 -/

/-- Settles O52: a write by each kind of register, the clears by their folds. -/
theorem registersAndCounters : Obligations.RegistersAndCounters := by
  refine ⟨fun s port off o b v hp hu ho ha hl => ⟨?_, ?_, ?_, ?_, ?_, ?_, fun had hb => otherWrite hp hu ho hl had hb⟩,
    fun s port qi v hp hu hq hown => queueWrites hp hu hq hown, fun s port k hp hu hk hd => maskWrites hp hu hk hd,
    fun s port site hp hs hu => coreClear hp hs hu, fun s port stack mask hp hs hu had => stackClear hp hs hu had,
    fun s port unit i mem hp hn hu had hi b k hb hk => logClear hp hn hu had hi hb hk,
    fun s port ring v hp hr hu => readPointerWrite hp hr hu⟩
  · rintro site rfl rfl hs; exact fillerWrite hp hu ho ha hl hs
  · rintro h rfl rfl hs had; exact faultClearWrite hp hu ho ha hl hs had
  · rintro h rfl rfl hs had; exact pinCapWrite hp hu ho ha hl hs had
  · rintro t rfl rfl hs had; exact clockWrite hp hu ho ha hl hs had
  · rintro t rfl rfl hs had; exact limitWrite hp hu ho ha hl hs had
  · rintro t p rfl h16 rfl hs had hpt; exact classWrite hp hu ho ha h16 hl hs had hpt

end Sys2Proof.Machine
end


section
/-! PROOF. Bands of the SRAM sensors, the thermal trip and its latch (R364, R367 to R370): what O50 says of them. -/

namespace Sys2Proof.Machine

open Sys2Proof.Claims

/-! ## SRAM bands -/

section Bands

variable {s : State} {stack i band : Nat}

/-- A slice's band is a matter of its half alone. -/
theorem State.regs_foldl_bandStall (h : Nat) (l : List Nat) (s : State) : (l.foldl (fun t sl => t.bandStall h sl) s).regs = s.regs :=
  State.foldl_same (f := fun t sl => t.bandStall h sl) State.regs (fun _ _ => rfl) l s

/-- A band that is due is taken and counted. -/
theorem exec_bandChange {v : Int} (hs : stack < s.stacks) (hc : cacheSensor i = true) (hm : stack ∈ s.therm.sampled)
    (h16 : s.sensorB stack i 16 = false) (h17 : s.sensorB stack i 17 = false) (hv : v = sint 16 (s.rgF (.thm stack) (0x100 + 4 * i) 15 0))
    (hd : s.bandDue stack i v = band) (hne : band ≠ s.rgF (.thm stack) (0x100 + 4 * i) 19 18) (h4 : band < 4) :
    Answers (.sramBandChange stack i band) s (fun u =>
      u.rgF (.thm stack) (0x100 + 4 * i) 19 18 = band ∧ Counted s u (.thm stack) 0x808 1) := by
  have hi : 128 ≤ i ∧ i < 192 := by simpa [cacheSensor] using hc
  have hg : s.governs stack i (sint 16 (s.rgF (.thm stack) (0x100 + 4 * i) 15 0)) (mget 0 s.therm.estimates (stack * 256 + i)) = v := by
    rw [State.governs, h16, h17, hv]; rfl
  have hx : exec (.sramBandChange stack i band) s = .next ((sensorSlices i).foldl (fun t sl => t.bandStall (2 * stack + i / 16 % 2) sl)
      ((s.wgF (.thm stack) (0x100 + 4 * i) 19 18 band).bump (.thm stack) 0x808 1)) := by
    change execSramBandChange stack i band s = _
    rw [execSramBandChange, if_neg (by omega)]
    dsimp only
    rw [hg, if_pos (by simp [hc, hm, hd, hne])]
  have hr := (s.wgF (.thm stack) (0x100 + 4 * i) 19 18 band).regsBut_bump (b := .thm stack) trivial 0x808 1
  refine ⟨_, hx, ?_, fun hlt => ?_⟩
  · rw [State.rgF_congr (State.regs_foldl_bandStall ..), hr.rgF _ _ (by simp only [tally, Blk.base]; omega),
      State.rgF_wgF_self _ _ _ _ _ _ (by omega)]
    omega
  · have hw : (s.wgF (.thm stack) (0x100 + 4 * i) 19 18 band).rg (.thm stack) 0x808 = s.rg (.thm stack) 0x808 := by
      rw [State.rg_wgF, if_neg (by simp only [Blk.base]; omega)]
    rw [State.rg_congr (State.regs_foldl_bandStall ..), State.counted_bump _ _ _ _ (by rw [hw]; exact hlt), hw]

theorem bandChanges {cur : Nat} {v : Int} (hs : stack < s.stacks) (hc : cacheSensor i = true) (hm : stack ∈ s.therm.sampled)
    (h16 : s.sensorB stack i 16 = false) (h17 : s.sensorB stack i 17 = false) (hcur : cur = s.rgF (.thm stack) (0x100 + 4 * i) 19 18)
    (hv : v = sint 16 (s.rgF (.thm stack) (0x100 + 4 * i) 15 0)) :
    (1520 < v → cur < 3 → Answers (.sramBandChange stack i 3) s (fun u =>
      u.rgF (.thm stack) (0x100 + 4 * i) 19 18 = 3 ∧ Counted s u (.thm stack) 0x808 1)) ∧
    (1120 < v → v ≤ 1520 → cur < 2 → Answers (.sramBandChange stack i 2) s (fun u =>
      u.rgF (.thm stack) (0x100 + 4 * i) 19 18 = 2 ∧ Counted s u (.thm stack) 0x808 1)) ∧
    (v < 160 → cur = 1 → Answers (.sramBandChange stack i 0) s (fun u =>
      u.rgF (.thm stack) (0x100 + 4 * i) 19 18 = 0 ∧ Counted s u (.thm stack) 0x808 1)) := by
  have hup : ∀ b, bandOf v = b → cur < b → 1 < b → s.bandDue stack i v = b := fun b hb hlt h1 => by
    unfold State.bandDue
    simp only [← hcur, hb]
    rw [if_neg (by omega)]
    rcases Nat.eq_zero_or_pos cur with h0 | h0
    · rw [if_pos h0, if_pos h1]
    · rw [if_neg (by omega), if_pos hlt]
  refine ⟨fun h hlt => ?_, fun h h' hlt => ?_, fun h h1 => ?_⟩
  · have hb : bandOf v = 3 := by unfold bandOf; split_ifs <;> omega
    exact exec_bandChange hs hc hm h16 h17 hv (hup 3 hb hlt (by omega)) (by omega) (by omega)
  · have hb : bandOf v = 2 := by unfold bandOf; split_ifs <;> omega
    exact exec_bandChange hs hc hm h16 h17 hv (hup 2 hb hlt (by omega)) (by omega) (by omega)
  · have hb : bandOf v = 0 := by rw [bandOf, if_pos h]
    refine exec_bandChange hs hc hm h16 h17 hv ?_ (by rw [← hcur, h1]; decide) (by omega)
    unfold State.bandDue
    simp only [← hcur, hb]
    rw [if_pos ⟨by omega, trivial⟩]

end Bands

/-! ## The trip -/

/-- One stack as the trip switches it off and shows its sensor. -/
def State.tripStack (v : Nat) (s : State) (t : Nat) : State := ((s.stackOff t).wgF (.thm t) 0x000 14 3 v).wgB (.thm t) 0x000 0 false

/-- The rails, the links and the fabric ports of the part, switched off. -/
def State.tripOff (s : State) (stack sensor : Nat) : State :=
  let a := (upTo 0 s.tearStore.stacks).foldl (State.tripStack (1 + sensor * 2 + stack * 512)) s.tearStore
  let b := (upTo 0 4).foldl State.linkDown a
  ((upTo 0 b.fabPorts).foldl State.fabDown b).wgB (.pwr 0) 0x040 4 false

section Trip

variable (s : State) (stack sensor : Nat)

/-- What the trip leaves: the registers of the part switched off, Trim off as well, and none of its work. -/
def State.tripped (s : State) (stack sensor : Nat) : State :=
  let a := s.tripOff stack sensor
  { a.haltWork with
      mem := [], poison := [], granules := [], cmds := []
      halves := a.haltWork.halves.map (fun (e : Nat × Half) => (e.1, { Half.empty with lost := e.2.lost }))
      host := ⟨[], [], [], [], [], [], a.haltWork.host.cpMap⟩
      fab := { a.haltWork.fab with ports := [], records := [], out := [], failed := [], frames := [], naks := [], loop := [] }
      pins := { a.haltWork.pins with thermtrip := true, alert := true }
      therm := { a.haltWork.therm with tripCool := [] }
      boot := { a.haltWork.boot with stopped := true }
      health := { a.knownHealth with excursion := true, trips := (stack * 256 + sensor, a.timeOf stack) :: a.knownHealth.trips } }

theorem State.trip_eq (h : s.pins.thermtrip = false) : s.trip stack sensor = (s.tripped stack sensor).storeHealth :=
  if_neg (by simp [h])

theorem State.storeHealth_eq : ∃ f : Flash, s.storeHealth = { s with flash := f } := by
  unfold State.storeHealth
  split
  · exact ⟨_, rfl⟩
  · exact ⟨_, rfl⟩

/-- The registers of a trip are those of the part switched off, and Trim's. -/
theorem State.regs_trip (h : s.pins.thermtrip = false) : (s.trip stack sensor).regs = (s.tripOff stack sensor).trimOff.regs := by
  rw [s.trip_eq stack sensor h]
  obtain ⟨f, hf⟩ := (s.tripped stack sensor).storeHealth_eq
  rw [hf]
  rfl

/-! What a stack's part of the trip writes, a link's, a port's. -/

theorem State.regsBut_tripStack (v t : Nat) : s.RegsBut (fun k => powerKey k ∨ ∃ t, k = (Blk.thm t).base + 0x000) (s.tripStack v t) :=
  ((s.regsBut_stackOff t).mono fun _ => .inl).trans ((State.regsBut_wgF _ _ _ _ _ _ (.inr ⟨t, rfl⟩)).trans
    (State.regsBut_wgB _ _ _ _ _ (.inr ⟨t, rfl⟩)))

theorem State.regsBut_linkDown (p : Nat) : s.RegsBut (fun k => ∃ t j, j < 2 ∧ k = (Blk.hp t j).base + 0x000) (s.linkDown p) := by
  obtain ⟨t, j, hj, e⟩ := s.hpBlk_eq p
  exact s.regsBut_wgF _ _ _ _ _ ⟨t, j, hj, by rw [e]⟩

/-- The keys of what the fabric's ports write as they go down. -/
def portKey (k : Nat) : Prop := fabCount (fun _ => True) k ∨ ∃ j o, o < 0x4000 ∧ k = (Blk.fp j).base + o

theorem State.regsBut_fabDown' (j : Nat) : s.RegsBut portKey (s.fabDown j) := by
  have hk : ∀ o, o < 0x4000 → portKey ((Blk.fp j).base + o) := fun o h => .inr ⟨j, o, h, rfl⟩
  refine State.RegsBut.trans (t := s.downRegs j) ?_ ((s.regsBut_fabDown j).mono fun k hk => .inl ?_)
  · exact (s.regsBut_wgF _ _ _ _ _ (hk _ (by omega))).trans ((State.regsBut_wgF _ _ _ _ _ _ (hk _ (by omega))).trans
      ((State.regsBut_wgF _ _ _ _ _ _ (hk _ (by omega))).trans ((State.regsBut_wgB _ _ _ _ _ (hk _ (by omega))).trans
        (State.regsBut_wgB _ _ _ _ _ (hk _ (by omega))))))
  · rcases hk with hk | ⟨i, o, -, h⟩
    · exact .inl hk
    · exact .inr ⟨i, o, trivial, h⟩

/-- The keys of what a trip writes. -/
def tripKey (k : Nat) : Prop := (powerKey k ∨ ∃ t, k = (Blk.thm t).base + 0x000) ∨ (∃ t j, j < 2 ∧ k = (Blk.hp t j).base + 0x000) ∨ portKey k ∨
  k = (Blk.pwr 0).base + 0x040

theorem State.regsBut_tripOff : s.RegsBut tripKey (s.tripOff stack sensor) := by
  refine .from s.tearStore_regs (.trans (.foldl (fun u t => ?_) _ _) (.trans (.foldl (fun u p => ?_) _ _) (.trans (.foldl (fun u j => ?_) _ _)
    (State.regsBut_wgB _ _ _ _ _ (.inr (.inr (.inr rfl)))))))
  · exact (u.regsBut_tripStack _ t).mono fun _ => .inl
  · exact (u.regsBut_linkDown p).mono fun _ h => .inr (.inl h)
  · exact (u.regsBut_fabDown' j).mono fun _ h => .inr (.inr (.inl h))

/-- A sensor's reading stays through the trip. -/
theorem State.reading_trip (h : s.pins.thermtrip = false) (t : Nat) {i : Nat} (hi : i < 208) :
    (s.trip stack sensor).rg (.thm t) (0x100 + 4 * i) = s.rg (.thm t) (0x100 + 4 * i) := by
  have hk : ∀ k, k = (Blk.thm t).base + (0x100 + 4 * i) → ¬ tripKey k ∧ ¬ (powerKey k ∨ trimKey k) := by
    rintro k rfl
    refine ⟨?_, by simp only [powerKey, trimKey, Blk.base]; omega⟩
    rintro ((hp | ⟨t', hp⟩) | ⟨t', j, hj, hp⟩ | ((hp | ⟨j, o, -, -, ho, hp⟩) | ⟨j, o, ho, hp⟩) | hp)
    all_goals revert hp; simp only [powerKey, tally, Blk.base]; omega
  obtain ⟨h1, h2⟩ := hk _ rfl
  rw [State.rg_congr (s.regs_trip stack sensor h), (State.regsBut_trimOff _).rg h2, (s.regsBut_tripOff stack sensor).rg h1]

/-- The rails of a stack that the trip has come to, and what it shows of the sensor. -/
def State.TrippedStack (v t : Nat) (s : State) : Prop := s.rgF (.pwr t) 0x000 3 0 = 0 ∧ s.rgF (.thm t) 0x000 14 3 = v % 4096

theorem State.trippedStack_self (v t : Nat) : (s.tripStack v t).TrippedStack v t := by
  constructor
  · rw [State.tripStack, State.rgF_wgB_ne _ _ _ _ _ (by simp only [Blk.base]; omega), State.rgF_wgF_ne _ _ _ _ _ _ (by simp only [Blk.base]; omega),
      State.status_stackOff, if_pos rfl]
  · rw [State.tripStack, State.rgF_wgB_of_disjoint _ _ _ _ _ _ _ (by omega) (by omega), State.rgF_wgF_self _ _ _ _ _ _ (by omega)]
    rfl

theorem State.TrippedStack.tripStack {s : State} {v t : Nat} (h : s.TrippedStack v t) (x : Nat) : (s.tripStack v x).TrippedStack v t := by
  by_cases hx : t = x
  · rw [hx]; exact s.trippedStack_self v x
  · obtain ⟨h1, h2⟩ := h
    constructor
    · rw [State.tripStack, State.rgF_wgB_ne _ _ _ _ _ (by simp only [Blk.base]; omega), State.rgF_wgF_ne _ _ _ _ _ _ (by simp only [Blk.base]; omega),
        State.status_stackOff, if_neg hx, h1]
    · rw [State.tripStack, State.rgF_wgB_ne _ _ _ _ _ (by simp only [Blk.base]; omega), State.rgF_wgF_ne _ _ _ _ _ _ (by simp only [Blk.base]; omega),
        (s.regsBut_stackOff x).rgF _ _ (by simp only [powerKey, Blk.base]; omega), h2]

/-- What leaves PWR_STATUS and THM_STATUS leaves what the trip shows there. -/
theorem State.TrippedStack.keep {s u : State} {v t : Nat} {K : Nat → Prop} (h : s.TrippedStack v t) (hr : s.RegsBut K u)
    (h1 : ¬ K ((Blk.pwr t).base + 0x000)) (h2 : ¬ K ((Blk.thm t).base + 0x000)) : u.TrippedStack v t := by
  obtain ⟨hp, ht⟩ := h
  exact ⟨(hr.rgF _ _ h1).trans hp, (hr.rgF _ _ h2).trans ht⟩

/-- Every stack's rails are off after the trip, and each shows the sensor. -/
theorem State.trippedStack_trip (h : s.pins.thermtrip = false) {t : Nat} (ht : t < s.stacks) :
    (s.trip stack sensor).TrippedStack (1 + sensor * 2 + stack * 512) t := by
  have hm : t ∈ upTo 0 s.tearStore.stacks := by
    rw [mem_upTo, State.stacks, s.tearStore_part]; exact ⟨Nat.zero_le t, by rw [Nat.zero_add]; exact ht⟩
  have h0 := foldl_of_mem (f := State.tripStack (1 + sensor * 2 + stack * 512)) (P := State.TrippedStack (1 + sensor * 2 + stack * 512) t)
    hm (fun u => u.trippedStack_self _ t) (fun u x hu => hu.tripStack x) s.tearStore
  have hlater : State.RegsBut (fun k => (∃ t j, j < 2 ∧ k = (Blk.hp t j).base + 0x000) ∨ portKey k ∨ k = (Blk.pwr 0).base + 0x040)
      ((upTo 0 s.tearStore.stacks).foldl (State.tripStack (1 + sensor * 2 + stack * 512)) s.tearStore) (s.tripOff stack sensor) := by
    refine .trans (.foldl (fun u p => ?_) _ _) (.trans (.foldl (fun u j => ?_) _ _) (State.regsBut_wgB _ _ _ _ _ (.inr (.inr rfl))))
    · exact (u.regsBut_linkDown p).mono fun _ h => .inl h
    · exact (u.regsBut_fabDown' j).mono fun _ h => .inr (.inl h)
  have h1 : (s.tripOff stack sensor).TrippedStack (1 + sensor * 2 + stack * 512) t := by
    refine h0.keep hlater ?_ ?_
    all_goals
      rintro (⟨t', j, hj, hp⟩ | ((hp | ⟨j, o, -, -, ho, hp⟩) | ⟨j, o, ho, hp⟩) | hp)
      all_goals revert hp; simp only [tally, Blk.base]; omega
  obtain ⟨hp, ht'⟩ := h1
  constructor
  · rw [State.rgF_congr (s.regs_trip stack sensor h), State.status_trimOff, hp]
  · rw [State.rgF_congr (s.regs_trip stack sensor h), (State.regsBut_trimOff _).rgF _ _ (by simp only [powerKey, trimKey, Blk.base]; omega), ht']

/-- No link of a host port stays up. -/
theorem State.linkUp_trip (h : s.pins.thermtrip = false) {p : Nat} (hp : p < 4) : (s.trip stack sensor).linkUp p = false := by
  let a := (upTo 0 s.tearStore.stacks).foldl (State.tripStack (1 + sensor * 2 + stack * 512)) s.tearStore
  obtain ⟨t, j, hj, e⟩ := s.hpBlk_eq p
  have hpart : ∀ u : State, u.part = s.part → u.hpBlk p = .hp t j := fun u hu => by rw [State.hpBlk, hu]; exact e
  have hka : a.part = s.part :=
    (State.foldl_same (f := State.tripStack (1 + sensor * 2 + stack * 512)) State.part
      (fun u t => (State.Keeps.wgB (State.Keeps.wgF (State.Keeps.stackOff (.refl u)))).part) _ _).trans s.tearStore_part
  have hb : ((upTo 0 4).foldl State.linkDown a).part = s.part ∧ ((upTo 0 4).foldl State.linkDown a).rgB (.hp t j) 0x000 0 = false := by
    have hpt : ∀ l : List Nat, (l.foldl State.linkDown a).part = s.part := fun l =>
      (State.foldl_same State.part (fun u p => (State.Keeps.linkDown (.refl u)).part) l a).trans hka
    refine ⟨hpt _, ?_⟩
    have hset : ∀ u : State, u.part = s.part → ∀ q, u.rgB (.hp t j) 0x000 0 = false ∨ q = p → (u.linkDown q).rgB (.hp t j) 0x000 0 = false := by
      intro u hu q hq
      rw [State.linkDown]
      by_cases hk : (u.hpBlk q).base + 0x000 = (Blk.hp t j).base + 0x000
      · rw [State.rgB, State.rg_wgF, if_pos hk.symm, getLsbD_setF _ _ _ _ _ (by omega), if_pos (by omega), Nat.zero_testBit]
      · rcases hq with hq | rfl
        · rw [State.rgB_wgF_ne _ _ _ _ _ (fun he => hk he.symm), hq]
        · exact absurd (by rw [hpart u hu]) hk
    refine (foldl_of_mem (f := State.linkDown) (P := fun u : State => u.part = s.part → u.rgB (.hp t j) 0x000 0 = false)
      (by simp [hp] : p ∈ upTo 0 4) (fun u hu => ?_) (fun u x hu hux => ?_) a) (hpt _)
    · exact hset u ((State.Keeps.linkDown (.refl u)).part.symm.trans hu) p (.inr rfl)
    · have hu' : u.part = s.part := (State.Keeps.linkDown (.refl u)).part.symm.trans hux
      exact hset u hu' x (.inl (hu hu'))
  have hlater : State.RegsBut (fun k => portKey k ∨ k = (Blk.pwr 0).base + 0x040) ((upTo 0 4).foldl State.linkDown a) (s.tripOff stack sensor) :=
    .trans (.foldl (fun u j => (u.regsBut_fabDown' j).mono fun _ => .inl) _ _) (State.regsBut_wgB _ _ _ _ _ (.inr rfl))
  have hpt : (s.trip stack sensor).part = s.part := (State.Keeps.trip (.refl s)).part
  rw [State.linkUp, hpart _ hpt, State.rgB_congr (s.regs_trip stack sensor h),
    (State.regsBut_trimOff _).rgB _ (by simp only [powerKey, trimKey, Blk.base]; omega), hlater.rgB]
  · exact hb.2
  · rintro (((hp | ⟨j, o, -, -, ho, hp⟩) | ⟨j, o, ho, hp⟩) | hp)
    all_goals revert hp; simp only [tally, Blk.base]; omega

/-- No port of the fabric stays up, and the part is no longer ready. -/
theorem State.ports_trip (h : s.pins.thermtrip = false) : (∀ j < s.fabPorts, (s.trip stack sensor).fabState j = 0) ∧
    (s.trip stack sensor).rgB (.pwr 0) 0x040 4 = false := by
  let b := (upTo 0 4).foldl State.linkDown
    ((upTo 0 s.tearStore.stacks).foldl (State.tripStack (1 + sensor * 2 + stack * 512)) s.tearStore)
  have hpart : b.part = s.part :=
    ((State.foldl_same State.part (fun u p => (State.Keeps.linkDown (.refl u)).part) _ _).trans
      (State.foldl_same (f := State.tripStack (1 + sensor * 2 + stack * 512)) State.part
        (fun u t => (State.Keeps.wgB (State.Keeps.wgF (State.Keeps.stackOff (.refl u)))).part) _ _)).trans s.tearStore_part
  refine ⟨fun j hj => ?_, ?_⟩
  · have hm : j ∈ upTo 0 b.fabPorts := by
      rw [mem_upTo, State.fabPorts, State.stacks, hpart]; exact ⟨Nat.zero_le j, by rw [Nat.zero_add]; exact hj⟩
    have hd := foldl_of_mem (f := State.fabDown) (P := fun u : State => u.fabState j = 0) hm (fun u => u.fabState_fabDown j) (fun u x hu => ?_) b
    · rw [State.fabState, State.rgF_congr (s.regs_trip stack sensor h),
        (State.regsBut_trimOff _).rgF _ _ (by simp only [powerKey, trimKey, Blk.base]; omega)]
      exact (State.rgF_wgB_ne _ _ _ _ _ (by simp only [Blk.base]; omega)).trans hd
    · by_cases hx : x = j
      · rw [hx]; exact u.fabState_fabDown j
      · rw [State.fabState, (u.regsBut_fabDown x).rgF _ _ (not_fabCount_fp (by omega) (.inl (by omega)))]
        have hne : ∀ o, o < 0x4000 → (Blk.fp j).base + 0x000 ≠ (Blk.fp x).base + o := fun o ho => by simp only [Blk.base]; omega
        rw [State.downRegs, State.rgF_wgB_ne _ _ _ _ _ (hne _ (by omega)), State.rgF_wgB_ne _ _ _ _ _ (hne _ (by omega)),
          State.rgF_wgF_ne _ _ _ _ _ _ (hne _ (by omega)), State.rgF_wgF_ne _ _ _ _ _ _ (hne _ (by omega)),
          State.rgF_wgF_ne _ _ _ _ _ _ (hne _ (by omega))]
        exact hu
  · rw [State.rgB_congr (s.regs_trip stack sensor h), (State.regsBut_trimOff _).rgB _ (by simp only [powerKey, trimKey, Blk.base]; omega)]
    exact State.rgB_wgB_self _ _ _ _ _ (by omega)

end Trip

/-- What THM_STATUS shows of a trip's sensor. -/
theorem shown_of_trip {s : State} {b : Blk} {o sensor stack : Nat} (h : s.rgF b o 14 3 = (1 + sensor * 2 + stack * 512) % 4096)
    (h1 : sensor < 208) (h2 : stack < 8) : s.rgB b o 3 = true ∧ s.rgF b o 11 4 = sensor ∧ s.rgF b o 14 12 = stack := by
  have h' : (s.rg b o).toNat / 2 ^ 3 % 2 ^ 12 = 1 + sensor * 2 + stack * 512 := by
    rw [State.rgF, getF_eq] at h; omega
  refine ⟨?_, ?_, ?_⟩
  · rw [State.rgB, ← BitVec.testBit_toNat, Nat.testBit_eq_decide_div_mod_eq, decide_eq_true_eq]; omega
  · rw [State.rgF, getF_eq]; omega
  · rw [State.rgF, getF_eq]; omega

theorem tripSwitchesOff {s : State} {stack sensor : Nat} (hs : stack < s.stacks) (hn : sensor < 208) (hv : s.pins.vddAon = true)
    (h : s.pins.thermtrip = false) :
    Answers (.thermalTrip stack sensor) s (fun u => u.pins.thermtrip = true ∧ u.pins.alert = true ∧ u.mem = [] ∧ u.poison = [] ∧
      u.cmds = [] ∧ u.boot.stopped = true ∧ u.rgB (.pwr 0) 0x040 4 = false ∧ (∀ p < 4, u.linkUp p = false) ∧
      (∀ j < s.fabPorts, u.fabState j = 0) ∧ u.health.excursion = true ∧ (stack * 256 + sensor, s.timeOf stack) ∈ u.health.trips ∧
      ∀ t < s.stacks, u.rgF (.pwr t) 0x000 3 0 = 0 ∧ u.rgB (.thm t) 0x000 3 = true ∧
        u.rgF (.thm t) 0x000 11 4 = sensor ∧ u.rgF (.thm t) 0x000 14 12 = stack) := by
  have hx : exec (.thermalTrip stack sensor) s = .next (s.trip stack sensor) := by
    change execThermalTrip stack sensor s = _
    rw [execThermalTrip, if_neg (by omega), if_pos hv]
  obtain ⟨hports, hready⟩ := s.ports_trip stack sensor h
  have htime : (s.tripOff stack sensor).timeOf stack = s.timeOf stack := by
    have : (s.tripOff stack sensor).time = s.time :=
      (State.Keeps.wgB (State.Keeps.foldl (fun _ _ h0 => h0.fabDown) _ (State.Keeps.foldl (fun _ _ h0 => h0.linkDown) _
        (State.Keeps.foldl (fun _ _ h0 => h0.stackOff.wgF.wgB) _ (State.Keeps.tearStore (.refl s)))))).time
    rw [State.timeOf, this, State.timeOf]
  have hlinks := fun p (hp : p < 4) => s.linkUp_trip stack sensor h hp
  have hstacks := fun t (ht : t < s.stacks) => s.trippedStack_trip stack sensor h ht
  obtain ⟨f, hf⟩ := (s.tripped stack sensor).storeHealth_eq
  have hu := (s.trip_eq stack sensor h).trans hf
  refine ⟨_, hx, ?_, ?_, ?_, ?_, ?_, ?_, hready, hlinks, hports, ?_, ?_, fun t ht => ?_⟩
  · rw [hu]; rfl
  · rw [hu]; rfl
  · rw [hu]; rfl
  · rw [hu]; rfl
  · rw [hu]; rfl
  · rw [hu]; rfl
  · rw [hu]; rfl
  · rw [hu, ← htime]; exact List.mem_cons_self
  · obtain ⟨hp, ht'⟩ := hstacks t ht
    exact ⟨hp, shown_of_trip ht' hn (hs.trans_le s.stacks_le)⟩

/-! ## The latch -/

/-- The end of a store touches neither pins nor registers. -/
theorem State.storeDone_pins_regs (s : State) (ok : Bool) : (s.storeDone ok).pins = s.pins ∧ (s.storeDone ok).regs = s.regs := by
  unfold State.storeDone
  split
  · exact ⟨rfl, rfl⟩
  · exact ⟨State.foldl_same (f := fun t (c : Cmd) => t.finish c.cid (if ok then 0 else 0x39) 0) State.pins (fun _ _ => rfl) _ _,
      State.foldl_same (f := fun t (c : Cmd) => t.finish c.cid (if ok then 0 else 0x39) 0) State.regs (fun _ _ => rfl) _ _⟩

/-- The part with its trip latch clear. -/
def State.unlatched (s : State) : State :=
  { s.storeDone true with
    pins := { (s.storeDone true).pins with thermtrip := false }, therm := { (s.storeDone true).therm with tripCool := [] } }

theorem exec_tripLatchClear (s : State) : exec .tripLatchClear s =
    .next (if s.pins.thermtrip && (upTo 0 s.stacks).all (fun t => decide (10000 < mget 0 s.therm.tripCool t)) then
      (if s.unlatched.pins.resetN && s.unlatched.pins.pwrgd && s.unlatched.rgB (.thm 0) 0x004 0 then s.unlatched.partReset else s.unlatched)
      else s) := rfl

theorem latchClears {s : State} (h : s.pins.thermtrip = true) :
    ((∀ t < s.stacks, 10000 < mget 0 s.therm.tripCool t) → Answers .tripLatchClear s (fun u => u.pins.thermtrip = false ∧
      (s.pins.resetN = true → s.pins.pwrgd = true → s.rgB (.thm 0) 0x004 0 = true →
        u.bootStage = 0 ∧ u.boot.stopped = false ∧ u.pins.alert = false ∧ u.pending = s.pending))) ∧
    (∀ t < s.stacks, mget 0 s.therm.tripCool t ≤ 10000 → exec .tripLatchClear s = .next s) := by
  have hx := exec_tripLatchClear s
  obtain ⟨hpins, hregs⟩ := s.storeDone_pins_regs true
  constructor
  · intro hc
    have hall : (upTo 0 s.stacks).all (fun t => decide (10000 < mget 0 s.therm.tripCool t)) = true := by
      simp only [List.all_eq_true, mem_upTo, decide_eq_true_eq]
      exact fun t ht => hc t (by omega)
    rw [h, hall, Bool.and_self, if_pos rfl] at hx
    refine ⟨_, hx, ?_, fun hn hp hr => ?_⟩
    · split
      · exact State.partReset_thermtrip s.unlatched
      · rfl
    · have hn' : s.unlatched.pins.resetN = true := (congrArg Pins.resetN hpins).trans hn
      have hp' : s.unlatched.pins.pwrgd = true := (congrArg Pins.pwrgd hpins).trans hp
      have hr' : s.unlatched.rgB (.thm 0) 0x004 0 = true := (State.rgB_congr (s := s) hregs ..).trans hr
      rw [if_pos (by rw [hn', hp', hr']; rfl)]
      refine ⟨?_, rfl, ?_, ?_⟩
      · rw [State.bootStage, State.rgF, State.rg_keptRegs_ne _ _ s.unlatched.partReset_regs (by intro t _; simp only [Blk.base]; omega)]
        decide +kernel
      · change s.unlatched.tearStore.pins.thermtrip = false
        rw [State.tearStore_pins]; rfl
      · change s.unlatched.tearStore.pending = _
        rw [State.tearStore_eq]
        exact (State.Keeps.storeDone (.refl s)).pending
  · intro t ht hle
    have hall : (upTo 0 s.stacks).all (fun t => decide (10000 < mget 0 s.therm.tripCool t)) = false := by
      rw [List.all_eq_false]
      exact ⟨t, (mem_upTo ..).2 ⟨by omega, by omega⟩, by simpa using hle⟩
    rw [hx, hall, Bool.and_false]
    rfl

end Sys2Proof.Machine
end


section
/-! PROOF. A sample of a stack's sensors, and what follows from it (R361 to R367): O50. -/

namespace Sys2Proof.Machine

open Sys2Proof.Claims

/-! ## What a sample leaves of the part -/

/-- The keys of a stack's sensors. -/
def sensorKey (t k : Nat) : Prop := ∃ i < 208, k = (Blk.thm t).base + (0x100 + 4 * i)

/-- The keys of what watching the sensors writes: their own marks, events, and the count of suspect ones. -/
def watchKey (t k : Nat) : Prop := sensorKey t k ∨ eventKey k ∨ k = (Blk.thm t).base + 0x008 ∨ k = (Blk.thm t).base + 0x804

/-- Between s and t only registers, memory with its marks, the hosts and their memory, lost records, pins, the health record and the flash
differ. -/
def State.OnlyNoted (s t : State) : Prop := t = { s with
  regs := t.regs, mem := t.mem, poison := t.poison, hmem := t.hmem, lostRecs := t.lostRecs, host := t.host, pins := t.pins
  health := t.health, flash := t.flash }

theorem State.OnlyNoted.trans {s t u : State} (h : s.OnlyNoted t) (k : t.OnlyNoted u) : s.OnlyNoted u := by
  unfold State.OnlyNoted at *; rw [k, h]

theorem State.OnlyTraced.noted {s t : State} (h : s.OnlyTraced t) : s.OnlyNoted t := by
  unfold State.OnlyTraced at h; unfold State.OnlyNoted; rw [h]

theorem State.OnlyRegs.noted {s t : State} (h : s.OnlyRegs t) : s.OnlyNoted t := h.traced.noted

theorem State.onlyNoted_pins (s : State) (p : Pins) : s.OnlyNoted { s with pins := p } := rfl

theorem State.onlyNoted_entries (s : State) (h : Health) : s.OnlyNoted { s.storeDue with health := h } := rfl

theorem State.onlyNoted_raiseIrq (s : State) (p v : Nat) : s.OnlyNoted (s.raiseIrq p v) := rfl

theorem State.onlyNoted_portEvent (s : State) (p i : Nat) : s.OnlyNoted (s.portEvent p i) := by
  have hw : s.OnlyNoted (s.wgB (s.hpBlk p) 0x014 i true) := (s.onlyRegs_wg ..).noted
  unfold State.portEvent
  dsimp only
  split
  · exact hw.trans (State.onlyNoted_raiseIrq ..)
  · exact hw

theorem State.onlyNoted_thermEvent (s : State) (t b : Nat) : s.OnlyNoted (s.thermEvent t b) := by
  cases h : s.rgB (.thm t) 0x008 b with
  | true => rw [s.thermEvent_of_set h]; rfl
  | false =>
    rw [s.thermEvent_of_clear h]
    have hw : s.OnlyNoted (s.wgB (.thm t) 0x008 b true) := (s.onlyRegs_wg ..).noted
    exact (hw.trans (State.onlyNoted_portEvent _ _ 8)).trans ((State.onlyNoted_pins _ _).trans (State.onlyTraced_trace _ _).noted)

theorem State.onlyNoted_healthEntry (s : State) (stack kind site detail : Nat) : s.OnlyNoted (s.healthEntry stack kind site detail) :=
  (s.onlyNoted_entries _).trans (State.onlyNoted_portEvent _ _ 6)

/-- What watching a stack's sensors leaves: power, time, what the throttle remembers, and the readings. -/
structure State.Watches (t : Nat) (s u : State) : Prop where
  time : u.time = s.time
  power : u.power = s.power
  cool : u.therm.coolSince = s.therm.coolSince
  below : u.therm.below = s.therm.below
  regs : s.RegsBut (watchKey t) u
  reading : ∀ i < 208, u.rgF (.thm t) (0x100 + 4 * i) 15 0 = s.rgF (.thm t) (0x100 + 4 * i) 15 0

section Watch

variable {s u v : State} {t : Nat}

theorem State.Watches.refl (s : State) (t : Nat) : s.Watches t s := ⟨rfl, rfl, rfl, rfl, .refl s, fun _ _ => rfl⟩

theorem State.Watches.trans (h : s.Watches t u) (k : u.Watches t v) : s.Watches t v :=
  ⟨k.time.trans h.time, k.power.trans h.power, k.cool.trans h.cool, k.below.trans h.below, h.regs.trans k.regs,
    fun i hi => (k.reading i hi).trans (h.reading i hi)⟩

theorem State.Watches.ite {p : Prop} [Decidable p] (h : s.Watches t u) (k : s.Watches t v) : s.Watches t (if p then u else v) := by
  split <;> assumption

theorem State.Watches.foldl {α : Type} {f : State → α → State} (l : List α) (hf : ∀ (u : State), ∀ x ∈ l, u.Watches t (f u x)) (s : State) :
    s.Watches t (l.foldl f s) := by
  induction l generalizing s with
  | nil => exact .refl s t
  | cons x l ih => exact (hf s x List.mem_cons_self).trans (ih (fun u y hy => hf u y (List.mem_cons_of_mem _ hy)) _)

/-- What changes neither registers nor what the throttle looks at. -/
theorem State.Watches.of_eq (ht : u.time = s.time) (hp : u.power = s.power) (hc : u.therm.coolSince = s.therm.coolSince)
    (hb : u.therm.below = s.therm.below) (hr : u.regs = s.regs) : s.Watches t u :=
  ⟨ht, hp, hc, hb, .of_eq hr, fun _ _ => State.rgF_congr hr ..⟩

/-- What notes an event beside the sensors' registers. -/
theorem State.Watches.of_noted (h : s.OnlyNoted u) (hr : s.RegsBut (fun k => watchKey t k ∧ ¬ sensorKey t k) u) : s.Watches t u := by
  unfold State.OnlyNoted at h
  refine ⟨by rw [h], by rw [h], by rw [h], by rw [h], hr.mono fun _ hk => hk.1, fun i hi => hr.rgF _ _ ?_⟩
  rintro ⟨-, hn⟩
  exact hn ⟨i, hi, rfl⟩

theorem not_sensorKey_of_eventKey {k : Nat} (h : eventKey k) : ¬ sensorKey t k := by
  rintro ⟨i, hi, rfl⟩
  revert h
  simp only [eventKey, tally, Blk.base]
  omega

theorem not_sensorKey_thm {o : Nat} (h : o < 0x100 ∨ 0x440 ≤ o) : ¬ sensorKey t ((Blk.thm t).base + o) := by
  rintro ⟨i, hi, he⟩; simp only [Blk.base] at he; omega

/-- A mark of a sensor. -/
theorem State.watches_mark (s : State) (t : Nat) {i b : Nat} (v : Bool) (hi : i < 208) (hb : 16 ≤ b ∧ b < 32) :
    s.Watches t (s.wgB (.thm t) (0x100 + 4 * i) b v) := by
  refine ⟨State.wgB_time .., State.wgB_power .., by rw [State.wgB_therm], by rw [State.wgB_therm], s.regsBut_wgB _ _ _ _ (.inl ⟨i, hi, rfl⟩),
    fun j hj => ?_⟩
  by_cases h : j = i
  · rw [h, State.rgF_wgB_of_disjoint _ _ _ _ _ _ _ (by omega) (by omega)]
  · exact State.rgF_wgB_ne _ _ _ _ _ (by simp only [Blk.base]; omega)

theorem State.watches_thermEvent (s : State) (t b : Nat) : s.Watches t (s.thermEvent t b) :=
  .of_noted (s.onlyNoted_thermEvent t b) ((s.regsBut_thermEvent t b).mono fun _ hk => hk.elim
    (fun h => ⟨.inr (.inl h), not_sensorKey_of_eventKey h⟩)
    fun h => ⟨.inr (.inr (.inl h)), by rw [h]; exact not_sensorKey_thm (.inl (by omega))⟩)

theorem State.watches_suspectCount (s : State) (t : Nat) : s.Watches t (s.bump (.thm t) 0x804 1) :=
  .of_noted (s.onlyTraced_bump ..).noted ((s.regsBut_bump (b := .thm t) trivial 0x804 1).mono fun _ hk => hk.elim
    (fun h => ⟨.inr (.inl (.inl h)), not_sensorKey_of_eventKey (.inl h)⟩)
    fun h => ⟨.inr (.inr (.inr h)), by rw [h]; exact not_sensorKey_thm (.inr (by omega))⟩)

theorem State.watches_healthEntry (s : State) (t stack kind site detail : Nat) : s.Watches t (s.healthEntry stack kind site detail) :=
  .of_noted (s.onlyNoted_healthEntry ..) (State.RegsBut.from (u := { s.storeDue with
      health := { s.health with entries := ⟨kind, site, detail, s.timeOf stack⟩ :: s.health.entries } }) rfl
    ((State.regsBut_adminEvent _ 6).mono fun _ h => ⟨.inr (.inl h), not_sensorKey_of_eventKey h⟩))

theorem State.Watches.modHealth (h : s.Watches t u) (f : Health → Health) : s.Watches t (u.modHealth f) := h.trans (.of_eq rfl rfl rfl rfl rfl)

theorem State.Watches.modTherm (h : s.Watches t u) {f : Therm → Therm} (hc : (f u.therm).coolSince = u.therm.coolSince)
    (hb : (f u.therm).below = u.therm.below) : s.Watches t (u.modTherm f) := h.trans (.of_eq rfl rfl hc hb rfl)

theorem State.Watches.mark (h : s.Watches t u) {i b : Nat} (v : Bool) (hi : i < 208) (hb : 16 ≤ b ∧ b < 32) :
    s.Watches t (u.wgB (.thm t) (0x100 + 4 * i) b v) := h.trans (u.watches_mark t v hi hb)

/-- A sensor's mark, its event and its count. -/
def State.suspectMark (s : State) (t i : Nat) : State := ((s.wgB (.thm t) (0x100 + 4 * i) 16 true).thermEvent t 1).bump (.thm t) 0x804 1

/-- The health record's count of it. -/
def State.suspectNoted (s : State) (k n : Nat) : State :=
  (s.modHealth (fun h => { h with suspectCount := mput h.suspectCount k n })).modTherm (fun th => { th with clearFrom := merase th.clearFrom k })

theorem State.declareSuspect_eq (s : State) (t i : Nat) : s.declareSuspect t i =
    let n := mget 0 s.health.suspectCount (t * 256 + i) + 1
    let u := (s.suspectMark t i).suspectNoted (t * 256 + i) n
    if n = 3 then ((u.wgB (.thm t) (0x100 + 4 * i) 17 true).modHealth (fun h =>
      { h with failedSensors := insNat h.failedSensors (t * 256 + i) })).healthEntry t 11 0xFFF i
    else u := rfl

theorem State.watches_declareSuspect (s : State) (t : Nat) {i : Nat} (hi : i < 208) : s.Watches t (s.declareSuspect t i) := by
  have h : s.Watches t (s.suspectMark t i) :=
    (s.watches_mark t true hi (by omega)).trans ((State.watches_thermEvent _ t 1).trans (State.watches_suspectCount _ t))
  have hn : ∀ (u : State) (k n : Nat), u.Watches t (u.suspectNoted k n) := fun u k n => .of_eq rfl rfl rfl rfl rfl
  rw [s.declareSuspect_eq t i]
  exact .ite ((((h.trans (hn ..)).mark true hi (by omega)).modHealth _).trans (State.watches_healthEntry ..)) (h.trans (hn ..))

theorem State.watches_suspectOne (s : State) (t : Nat) {i : Nat} (raw est : Int) (hi : i < 208) : s.Watches t (s.suspectOne t i raw est) := by
  unfold State.suspectOne
  dsimp only
  have h := State.Watches.refl s t
  refine .ite (.ite ?_ ?_) (.ite ?_ ?_)
  · exact (((h.modTherm rfl rfl).modTherm rfl rfl).mark false hi (by omega)).modTherm rfl rfl
  · exact (h.modTherm rfl rfl).modTherm rfl rfl
  · exact (h.modTherm rfl rfl).trans (State.watches_declareSuspect _ t hi)
  · exact h.modTherm rfl rfl

theorem State.watches_bandTrack (s : State) (t i : Nat) (v : Int) : s.Watches t (s.bandTrack t i v) := .of_eq rfl rfl rfl rfl rfl

end Watch

end Sys2Proof.Machine
end


section
/-! PROOF. The readings of a sample, the throttle of a half, and O50 (R361 to R367). -/

namespace Sys2Proof.Machine

open Sys2Proof.Claims

/-! ## The readings -/

section Readings

variable (s : State) (t : Nat) (readings : List Int)

/-- The readings by sensor. -/
def rawsOf (readings : List Int) : List (Nat × Int) := (upTo 0 208).map (fun i => (i, nth 0 readings i))

/-- The stack with a sample taken. -/
def State.sampled (s : State) (t : Nat) (raws : List (Nat × Int)) : State :=
  (s.takeSample t raws).modTherm (fun th => { th with sampleAt := mput th.sampleAt t s.time.now })

/-- Each reading in its register. -/
def State.foldReadings (s : State) (t : Nat) (raws : List (Nat × Int)) : State :=
  raws.foldl (fun u x => u.wgF (.thm t) (0x100 + 4 * x.1) 15 0 (x.2 % 65536).toNat) s

/-- The readings of all the sensors in their registers. -/
def State.withReadings (s : State) (t : Nat) (readings : List Int) : State :=
  (upTo 0 208).foldl (fun u i => u.wgF (.thm t) (0x100 + 4 * i) 15 0 (nth 0 readings i % 65536).toNat) s

theorem State.foldReadings_raws : s.foldReadings t (rawsOf readings) = s.withReadings t readings := by
  rw [State.foldReadings, rawsOf, List.foldl_map, State.withReadings]

section Raws

variable (raws : List (Nat × Int))

theorem State.onlyRegs_foldReadings : s.OnlyRegs (s.foldReadings t raws) := by
  unfold State.foldReadings
  induction raws generalizing s with
  | nil => exact .refl s
  | cons i l ih => exact (s.onlyRegs_wg ..).trans (ih _)

/-- What the hub remembers of a sample. -/
def Therm.afterSample (th : Therm) (t now : Nat) (cool : Bool) : Therm :=
  { th with
    tripCool := if cool then mput th.tripCool t (mget 0 th.tripCool t + 1) else merase th.tripCool t
    sampleAt := mput th.sampleAt t now }

/-- The stack with a sample taken: its readings, and what the hub remembers. -/
theorem State.sampled_eq : s.sampled t raws = (s.foldReadings t raws).modTherm (fun th => th.afterSample t s.time.now
    ((s.foldReadings t raws).pins.thermtrip && raws.all (fun x => decide (x.2 < 1200)))) := rfl

theorem State.regs_sampled : (s.sampled t raws).regs = (s.foldReadings t raws).regs := by rw [s.sampled_eq, State.modTherm_regs]

/-- A sample leaves power, time, the part and what the throttle remembers. -/
theorem State.sampled_keeps : (s.sampled t raws).time = s.time ∧ (s.sampled t raws).power = s.power ∧
    (s.sampled t raws).part = s.part ∧ (s.sampled t raws).therm.coolSince = s.therm.coolSince ∧
    (s.sampled t raws).therm.below = s.therm.below ∧ (s.sampled t raws).pins = s.pins := by
  have hr := s.onlyRegs_foldReadings t raws
  rw [s.sampled_eq]
  generalize s.foldReadings t raws = v at hr ⊢
  unfold State.OnlyRegs at hr
  rw [hr]
  exact ⟨rfl, rfl, rfl, rfl, rfl, rfl⟩

end Raws

theorem State.reading_withReadings {i : Nat} (hi : i < 208) :
    (s.withReadings t readings).rgF (.thm t) (0x100 + 4 * i) 15 0 = (nth 0 readings i % 65536).toNat := by
  have hw : ∀ u : State, (u.wgF (.thm t) (0x100 + 4 * i) 15 0 (nth 0 readings i % 65536).toNat).rgF (.thm t) (0x100 + 4 * i) 15 0 =
      (nth 0 readings i % 65536).toNat := fun u => by
    rw [State.rgF_wgF_self _ _ _ _ _ _ (by omega)]
    omega
  refine foldl_of_mem (P := fun u : State => u.rgF (.thm t) (0x100 + 4 * i) 15 0 = _) (by simp [hi] : i ∈ upTo 0 208) hw (fun u x hu => ?_) s
  by_cases hx : x = i
  · rw [hx]; exact hw u
  · rw [State.rgF_wgF_ne _ _ _ _ _ _ (by simp only [Blk.base]; omega)]; exact hu

theorem State.regsBut_withReadings : s.RegsBut (sensorKey t) (s.withReadings t readings) := by
  unfold State.withReadings
  have h : ∀ l : List Nat, (∀ i ∈ l, i < 208) → ∀ s : State,
      s.RegsBut (sensorKey t) (l.foldl (fun u i => u.wgF (.thm t) (0x100 + 4 * i) 15 0 (nth 0 readings i % 65536).toNat) s) := by
    intro l hl
    induction l with
    | nil => exact fun s => .refl s
    | cons i l ih =>
      exact fun s => (s.regsBut_wgF _ _ _ _ _ ⟨i, hl i List.mem_cons_self, rfl⟩).trans (ih (fun j hj => hl j (List.mem_cons_of_mem _ hj)) _)
  exact h _ (fun i hi => by rw [mem_upTo] at hi; omega) s

/-- The marks of a sensor stay as they were. -/
theorem State.sensorB_sampled (i : Nat) {b : Nat} (hb : 16 ≤ b) : (s.sampled t (rawsOf readings)).sensorB t i b = s.sensorB t i b := by
  rw [State.sensorB, State.rgB_congr (s.regs_sampled t (rawsOf readings)), s.foldReadings_raws]
  refine State.foldl_same (f := fun u j => u.wgF (.thm t) (0x100 + 4 * j) 15 0 (nth 0 readings j % 65536).toNat)
    (fun u => u.rgB (.thm t) (0x100 + 4 * i) b) (fun u j => ?_) _ s
  by_cases hj : (Blk.thm t).base + (0x100 + 4 * i) = (Blk.thm t).base + (0x100 + 4 * j)
  · rw [State.rgB, State.rg_wgF, if_pos hj, getLsbD_setF _ _ _ _ _ (by omega), if_neg (by omega), State.rgB, State.rg, State.rg, hj]
  · exact State.rgB_wgF_ne _ _ _ _ _ hj

end Readings

theorem execSensorSample_skip {s : State} {stack : Nat} {readings powers : List Int} (hs : stack < s.stacks) (hd : s.sampleDue stack = false) :
    exec (.sensorSample stack readings powers) s = .next s := by
  change execSensorSample stack readings powers s = _
  rw [execSensorSample, if_neg (by omega), if_pos (by simp [hd])]

/-- What a sample that has been taken leads to: nothing while the part is held or a trip is latched. -/
def State.actedOn (s : State) (t : Nat) (raws : List (Nat × Int)) (est : Nat → Int) : State :=
  if !s.pins.resetN || !s.pins.pwrgd || s.pins.thermtrip then s
  else match estimatesTrip est with
    | some i => (s.actOn t raws est).trip t i
    | none => s.actOn t raws est

theorem State.actedOn_eq (s : State) (t : Nat) (raws : List (Nat × Int)) (est : Nat → Int) : (.next (s.actedOn t raws est) : Out) =
    if !s.pins.resetN || !s.pins.pwrgd || s.pins.thermtrip then .next s
    else .next (match estimatesTrip est with
      | some i => (s.actOn t raws est).trip t i
      | none => s.actOn t raws est) := by
  rw [State.actedOn]
  split <;> rfl

theorem sample_of_due {s : State} {stack : Nat} {readings powers : List Int} (hs : stack < s.stacks) (hv : s.pins.vddAon = true)
    (hd : s.sampleDue stack = true) : exec (.sensorSample stack readings powers) s = .next ((s.sampled stack (rawsOf readings)).actedOn stack
      (rawsOf readings) (fun i => (s.sampled stack (rawsOf readings)).estimate stack i readings (nth 0 powers i))) := by
  change execSensorSample stack readings powers s = _
  rw [execSensorSample, if_neg (by omega), if_neg (by simp [hv, hd]), State.actedOn_eq]
  rfl

theorem estimate_sampled (s : State) (t : Nat) (readings powers : List Int) :
    (fun i => (s.sampled t (rawsOf readings)).estimate t i readings (nth 0 powers i)) = fun i => s.estimate t i readings (nth 0 powers i) := by
  obtain ⟨-, -, hp, -⟩ := s.sampled_keeps t (rawsOf readings)
  funext i
  rw [State.estimate, State.estimate, hp]

/-! ## Watching the sensors -/

/-- The estimates that a sample gives. -/
def Therm.estimated (th : Therm) (t : Nat) (raws : List (Nat × Int)) (est : Nat → Int) : Therm :=
  { th with
    sampled := insNat th.sampled t
    estimates := (raws.filter (fun x => buried x.1)).foldl (fun m x => mput m (t * 256 + x.1) (est x.1)) th.estimates }

/-- The stack as a sample's estimates, marks and bands leave it. -/
def State.watched (s : State) (t : Nat) (raws vs : List (Nat × Int)) (est : Nat → Int) : State :=
  (vs.filter (fun x => cacheSensor x.1)).foldl (fun u x => u.bandTrack t x.1 x.2)
    ((raws.filter (fun x => buried x.1)).foldl (fun u x => u.suspectOne t x.1 x.2 (est x.1)) (s.modTherm (fun th => th.estimated t raws est)))

theorem State.watches_watched (s : State) (t : Nat) {raws : List (Nat × Int)} (vs : List (Nat × Int)) (est : Nat → Int)
    (h : ∀ x ∈ raws, x.1 < 208) : s.Watches t (s.watched t raws vs est) := by
  have h0 : s.Watches t (s.modTherm (fun th => th.estimated t raws est)) := .of_eq rfl rfl rfl rfl rfl
  refine h0.trans (.trans (.foldl _ (fun u x hx => ?_) _) (.foldl _ (fun u x _ => u.watches_bandTrack t x.1 x.2) _))
  exact u.watches_suspectOne t _ _ (h x (List.mem_of_mem_filter hx))

/-- Throttled time is counted. -/
def State.countThrottle (s : State) (t : Nat) : State :=
  if s.rgB (.thm t) 0x000 1 || s.rgB (.thm t) 0x000 2 then s.bump (.thm t) 0x800 (if s.rgB (.thm t) 0x000 0 then 50 else 1000) else s

/-- The values that govern. -/
def State.governed (s : State) (t : Nat) (raws : List (Nat × Int)) (est : Nat → Int) : List (Nat × Int) :=
  raws.map (fun x => (x.1, s.governs t x.1 x.2 (est x.1)))

theorem State.actOn_eq (s : State) (t : Nat) (raws : List (Nat × Int)) (est : Nat → Int) : s.actOn t raws est =
    ((((s.watched t raws (s.governed t raws est) est).throttle t 0 (s.governed t raws est)).throttle t 1 (s.governed t raws est)).sampleRate t
      (s.governed t raws est)).countThrottle t := rfl

/-- With no sensor suspect or failed the readings govern. -/
theorem State.governed_rawsOf (s : State) (t : Nat) (readings : List Int) (est : Nat → Int)
    (h : ∀ i < 208, s.sensorB t i 16 = false ∧ s.sensorB t i 17 = false) : s.governed t (rawsOf readings) est = rawsOf readings := by
  have hx : ∀ x ∈ rawsOf readings, (x.1, s.governs t x.1 x.2 (est x.1)) = x := fun x hx => by
    obtain ⟨i, hi, rfl⟩ := List.mem_map.1 hx
    obtain ⟨h16, h17⟩ := h i (by rw [mem_upTo] at hi; omega)
    rw [State.governs, h16, h17]; rfl
  exact (List.map_congr_left hx).trans (List.map_id' _)

/-! ## The throttle -/

section Throttle

variable (s : State) (t hf : Nat) (vs : List (Nat × Int))

/-- Whether a sensor of a half is at its limit. -/
def State.hotHalf : Bool := (vs.filter (fun x => (sensorHalves x.1).contains hf)).any (fun x => decide (s.sensorLimit t x.1 ≤ x.2))

/-- Whether every sensor of a half is 2 °C below its limit. -/
def State.coolHalf : Bool := (vs.filter (fun x => (sensorHalves x.1).contains hf)).all (fun x => decide (x.2 ≤ s.sensorLimit t x.1 - 32))

/-- Whether a half's step is to rise. -/
def State.throttleRaise : Bool :=
  !s.hotHalf t hf vs && heldFor (holdSince s.therm.coolSince (2 * t + hf) s.time.now (s.coolHalf t hf vs)) (2 * t + hf) s.time.now 2500000 &&
    decide (mget 16 s.power.thrReq (2 * t + hf) < 16) &&
    (match mfind s.therm.below (2 * t + hf) with | some x => decide (x + 2500000 ≤ s.time.now) | none => true)

/-- The step that a sample asks of a half. -/
def State.throttleReq : Nat :=
  if s.hotHalf t hf vs then max 4 (mget 16 s.power.thrReq (2 * t + hf) - 1)
  else if s.throttleRaise t hf vs then mget 16 s.power.thrReq (2 * t + hf) + 1 else mget 16 s.power.thrReq (2 * t + hf)

/-- Since when a hot half has stood at its lowest step. -/
def State.step4 : Map Nat :=
  holdSince s.therm.step4Since (2 * t + hf) s.time.now (s.hotHalf t hf vs && decide (s.throttleReq t hf vs = 4))

/-- What the throttle asks for, and what it remembers. -/
def State.asked : State := { s with
  power := { s.power with thrReq := mset 16 s.power.thrReq (2 * t + hf) (s.throttleReq t hf vs) }
  therm := { s.therm with
    coolSince := holdSince s.therm.coolSince (2 * t + hf) s.time.now (s.coolHalf t hf vs), step4Since := s.step4 t hf vs
    below := if s.throttleRaise t hf vs then mput s.therm.below (2 * t + hf) s.time.now else s.therm.below } }

/-- The alarms of a half that stays hot, or whose cache does, and its hold. -/
def State.alarmed (s : State) (t h : Nat) (long hot cold : Bool) : State :=
  let s := if long then s.thermEvent t 0 else s
  let s := if hot then { s.thermEvent t 2 with power := { s.power with hotHold := insNat s.power.hotHold h } } else s
  if cold then { s with power := { s.power with hotHold := delNat s.power.hotHold h } } else s

/-- The sensors of a half's cache. -/
def cacheOf (vs : List (Nat × Int)) : List (Nat × Int) := (vs.filter (fun x => (sensorHalves x.1).contains hf)).filter (fun x => cacheSensor x.1)

theorem State.throttle_eq : s.throttle t hf vs =
    ((s.asked t hf vs).wgB (.thm t) 0x000 (1 + hf) (s.hotHalf t hf vs)).alarmed t (2 * t + hf)
      (heldFor (s.step4 t hf vs) (2 * t + hf) s.time.now 25000000)
      ((cacheOf hf vs).any (fun x => decide (1680 < x.2))) ((cacheOf hf vs).all (fun x => decide (x.2 ≤ 1600))) := rfl

/-- What alarms leave: time, the steps asked for, what the throttle remembers, and the other registers. -/
structure State.Alarms (t : Nat) (s u : State) : Prop where
  time : u.time = s.time
  req : u.power.thrReq = s.power.thrReq
  therm : u.therm = s.therm
  regs : s.RegsBut (fun k => eventKey k ∨ k = (Blk.thm t).base + 0x008) u

theorem State.Alarms.trans {s u v : State} (h : s.Alarms t u) (k : u.Alarms t v) : s.Alarms t v :=
  ⟨k.time.trans h.time, k.req.trans h.req, k.therm.trans h.therm, h.regs.trans k.regs⟩

theorem State.Alarms.ite {s u v : State} {p : Prop} [Decidable p] (h : s.Alarms t u) (k : s.Alarms t v) : s.Alarms t (if p then u else v) := by
  split <;> assumption

theorem State.Alarms.refl (s : State) : s.Alarms t s := ⟨rfl, rfl, rfl, .refl s⟩

theorem State.alarms_thermEvent (b : Nat) : s.Alarms t (s.thermEvent t b) := by
  have h := s.onlyNoted_thermEvent t b
  unfold State.OnlyNoted at h
  exact ⟨by rw [h], by rw [h], by rw [h], s.regsBut_thermEvent t b⟩

theorem State.alarms_hold (l : List Nat) : s.Alarms t { s with power := { s.power with hotHold := l } } := ⟨rfl, rfl, rfl, .of_eq rfl⟩

theorem State.alarms_alarmed (h : Nat) (long hot cold : Bool) : s.Alarms t (s.alarmed t h long hot cold) := by
  have h1 : s.Alarms t (if long then s.thermEvent t 0 else s) := .ite t (s.alarms_thermEvent t 0) (.refl t s)
  unfold State.alarmed
  generalize (if long then s.thermEvent t 0 else s) = u at h1
  have hp : (u.thermEvent t 2).power = u.power := by
    have h := u.onlyNoted_thermEvent t 2
    unfold State.OnlyNoted at h
    rw [h]
  have h2 : s.Alarms t (if hot then { u.thermEvent t 2 with power := { u.power with hotHold := insNat u.power.hotHold h } } else u) := by
    refine .ite t (h1.trans t ((u.alarms_thermEvent t 2).trans t ?_)) h1
    rw [← hp]
    exact State.alarms_hold _ t _
  exact .ite t (h2.trans t (State.alarms_hold _ t _)) h2

/-- What the throttle of a half leaves, and what it gives. -/
structure State.Throttles (t hf : Nat) (vs : List (Nat × Int)) (s u : State) : Prop where
  time : u.time = s.time
  req : u.power.thrReq = mset 16 s.power.thrReq (2 * t + hf) (s.throttleReq t hf vs)
  cool : u.therm.coolSince = holdSince s.therm.coolSince (2 * t + hf) s.time.now (s.coolHalf t hf vs)
  below : ∀ h, h ≠ 2 * t + hf → mfind u.therm.below h = mfind s.therm.below h
  hot : u.rgB (.thm t) 0x000 (1 + hf) = s.hotHalf t hf vs
  bits : ∀ b, b ≠ 1 + hf → u.rgB (.thm t) 0x000 b = s.rgB (.thm t) 0x000 b
  regs : s.RegsBut (fun k => k = (Blk.thm t).base + 0x000 ∨ eventKey k ∨ k = (Blk.thm t).base + 0x008) u

theorem State.throttles_throttle (h2 : hf < 2) : s.Throttles t hf vs (s.throttle t hf vs) := by
  rw [s.throttle_eq]
  have ha := State.alarms_alarmed ((s.asked t hf vs).wgB (.thm t) 0x000 (1 + hf) (s.hotHalf t hf vs)) t (2 * t + hf)
    (heldFor (s.step4 t hf vs) (2 * t + hf) s.time.now 25000000)
    ((cacheOf hf vs).any (fun x => decide (1680 < x.2))) ((cacheOf hf vs).all (fun x => decide (x.2 ≤ 1600)))
  generalize State.alarmed _ _ _ _ _ _ = u at ha ⊢
  have h0 : ¬ (eventKey ((Blk.thm t).base + 0x000) ∨ (Blk.thm t).base + 0x000 = (Blk.thm t).base + 0x008) := by
    simp only [eventKey, tally, Blk.base]; omega
  refine ⟨ha.time.trans (State.wgB_time ..), ha.req.trans (by rw [State.wgB_power]; rfl), ?_, fun h hne => ?_, ?_, fun b hb => ?_, ?_⟩
  · rw [ha.therm, State.wgB_therm]; rfl
  · rw [ha.therm, State.wgB_therm, State.asked]
    dsimp only
    split
    · rw [mfind_mput, if_neg hne]
    · rfl
  · rw [ha.regs.rgB _ h0, State.rgB_wgB_self _ _ _ _ _ (by omega)]
  · rw [ha.regs.rgB _ h0, State.rgB_wgB_ne_bit _ _ _ _ _ _ (by omega) hb]
    exact State.rgB_congr rfl ..
  · exact .from (u := s.asked t hf vs) rfl ((State.regsBut_wgB _ _ _ _ _ (.inl rfl)).trans (ha.regs.mono fun _ => .inr))

variable {s t hf vs}

theorem State.throttleReq_of_hot (h : s.hotHalf t hf vs = true) : s.throttleReq t hf vs = max 4 (mget 16 s.power.thrReq (2 * t + hf) - 1) :=
  if_pos h

/-- A half that has not been cool keeps its step. -/
theorem State.throttleReq_of_mild (h : s.hotHalf t hf vs = false) (hc : mfind s.therm.coolSince (2 * t + hf) = none) :
    s.throttleReq t hf vs = mget 16 s.power.thrReq (2 * t + hf) := by
  have hr : s.throttleRaise t hf vs = false := by
    have hh : heldFor (holdSince s.therm.coolSince (2 * t + hf) s.time.now (s.coolHalf t hf vs)) (2 * t + hf) s.time.now 2500000 = false := by
      unfold heldFor holdSince
      cases s.coolHalf t hf vs
      · simp [mfind_merase]
      · simp [hc]
    rw [State.throttleRaise, hh, Bool.and_false, Bool.false_and, Bool.false_and]
  rw [State.throttleReq, h, hr]; rfl

/-- One that has been cool for 10 ms steps up. -/
theorem State.throttleReq_of_cool (h : s.hotHalf t hf vs = false) (hc : s.coolHalf t hf vs = true) {x : Nat}
    (hx : mfind s.therm.coolSince (2 * t + hf) = some x) (hle : x + 2500000 ≤ s.time.now) (hlt : mget 16 s.power.thrReq (2 * t + hf) < 16)
    (hb : mfind s.therm.below (2 * t + hf) = none) : s.throttleReq t hf vs = mget 16 s.power.thrReq (2 * t + hf) + 1 := by
  have hr : s.throttleRaise t hf vs = true := by
    simp [State.throttleRaise, h, hc, holdSince, heldFor, hx, hle, hlt, hb]
  rw [State.throttleReq, h, hr]; rfl

/-- A half is hot where one of its sensors is at its limit. -/
theorem State.hotHalf_rawsOf {readings : List Int} :
    s.hotHalf t hf (rawsOf readings) = true ↔ ∃ i < 208, hf ∈ sensorHalves i ∧ s.sensorLimit t i ≤ nth 0 readings i := by
  simp only [State.hotHalf, rawsOf, List.any_eq_true, List.mem_filter, List.mem_map, mem_upTo, decide_eq_true_eq, List.contains_iff_mem]
  constructor
  · rintro ⟨x, ⟨⟨i, hi, rfl⟩, hm⟩, hle⟩
    exact ⟨i, by omega, hm, hle⟩
  · rintro ⟨i, hi, hm, hle⟩
    exact ⟨_, ⟨⟨i, by omega, rfl⟩, hm⟩, hle⟩

theorem State.coolHalf_rawsOf {readings : List Int} (h : ∀ i < 208, hf ∈ sensorHalves i → nth 0 readings i ≤ s.sensorLimit t i - 32) :
    s.coolHalf t hf (rawsOf readings) = true := by
  simp only [State.coolHalf, rawsOf, List.all_eq_true, List.mem_filter, List.mem_map, mem_upTo, decide_eq_true_eq, List.contains_iff_mem]
  rintro x ⟨⟨i, hi, rfl⟩, hm⟩
  exact h i (by omega) hm

end Throttle

end Sys2Proof.Machine
end


section
/-! PROOF. What a sample of the sensors gives (R361 to R367), and O50. -/

namespace Sys2Proof.Machine

open Sys2Proof.Claims

/-! ## The rate, and the count of throttled time -/

section Rate

variable (s : State) (t : Nat) (vs : List (Nat × Int))

theorem State.OnlyTraced.power {s t : State} (h : s.OnlyTraced t) : t.power = s.power := by unfold State.OnlyTraced at h; rw [h]

/-- What the rate of a stack leaves. -/
structure State.Rates (t : Nat) (s u : State) : Prop where
  req : u.power = s.power
  bits : ∀ b, b ≠ 0 → u.rgB (.thm t) 0x000 b = s.rgB (.thm t) 0x000 b
  regs : s.RegsBut (fun k => k = (Blk.thm t).base + 0x000 ∨ tally k ∨ k = (Blk.thm t).base + 0x80C) u

/-- A stack's rate: fast where a reading is near its limit, slow again after its time. -/
def State.setRate (s : State) (t : Nat) (near slow : Bool) : State :=
  if near then (if s.rgB (.thm t) 0x000 0 then s else (s.wgB (.thm t) 0x000 0 true).bump (.thm t) 0x80C 1)
  else if slow then s.wgB (.thm t) 0x000 0 false else s

/-- Since when a stack's readings have been far from their limits. -/
def State.farSince (s : State) (m : Map Nat) : State := { s with therm := { s.therm with fastSince := m } }

theorem State.sampleRate_eq : s.sampleRate t vs =
    let m := holdSince s.therm.fastSince t s.time.now (vs.all (fun x => decide (x.2 < s.sensorLimit t x.1 - 112)))
    (s.farSince m).setRate t (vs.any (fun x => decide (s.sensorLimit t x.1 - 80 ≤ x.2))) (heldFor m t s.time.now 25000000) := rfl

theorem State.rates_setRate (near slow : Bool) : s.Rates t (s.setRate t near slow) := by
  have h0 : s.Rates t s := ⟨rfl, fun _ _ => rfl, .refl s⟩
  have hw : ∀ v, s.Rates t (s.wgB (.thm t) 0x000 0 v) := fun v => ⟨State.wgB_power ..,
    fun b hb => State.rgB_wgB_ne_bit _ _ _ _ _ _ (by omega) hb, s.regsBut_wgB _ _ _ _ (.inl rfl)⟩
  unfold State.setRate
  split
  · split
    · exact h0
    · have hr := (s.wgB (.thm t) 0x000 0 true).regsBut_bump (b := .thm t) trivial 0x80C 1
      refine ⟨?_, fun b hb => ?_, (hw true).regs.trans (hr.mono fun _ hk => hk.elim (fun h => .inr (.inl h)) fun h => .inr (.inr h))⟩
      · exact ((s.wgB (.thm t) 0x000 0 true).onlyTraced_bump (.thm t) 0x80C 1).power.trans (hw true).req
      · rw [hr.rgB _ (by simp only [tally, Blk.base]; omega)]; exact (hw true).bits b hb
  · split
    · exact hw false
    · exact h0

theorem State.rates_sampleRate : s.Rates t (s.sampleRate t vs) := by
  rw [s.sampleRate_eq]
  dsimp only
  generalize holdSince s.therm.fastSince t s.time.now (vs.all fun x => decide (x.2 < s.sensorLimit t x.1 - 112)) = m
  have h := (s.farSince m).rates_setRate t (vs.any (fun x => decide (s.sensorLimit t x.1 - 80 ≤ x.2))) (heldFor m t s.time.now 25000000)
  exact ⟨h.req, fun b hb => (h.bits b hb).trans (State.rgB_congr rfl ..), .from rfl h.regs⟩

theorem State.countThrottle_power : (s.countThrottle t).power = s.power := by
  unfold State.countThrottle
  split
  · exact (s.onlyTraced_bump ..).power
  · rfl

theorem State.regsBut_countThrottle : s.RegsBut (fun k => tally k ∨ k = (Blk.thm t).base + 0x800) (s.countThrottle t) :=
  .ite (s.regsBut_bump (b := .thm t) trivial 0x800 _) (.refl s)

theorem State.bits_countThrottle (b : Nat) : (s.countThrottle t).rgB (.thm t) 0x000 b = s.rgB (.thm t) 0x000 b :=
  (s.regsBut_countThrottle t).rgB _ (by simp only [tally, Blk.base]; omega)

theorem State.counted_countThrottle (h : s.rgB (.thm t) 0x000 1 = true) :
    Counted s (s.countThrottle t) (.thm t) 0x800 (if s.rgB (.thm t) 0x000 0 then 50 else 1000) := by
  rw [State.countThrottle, if_pos (by rw [h]; rfl)]
  exact s.counted_bump _ _ _

end Rate

/-! ## A sample that is acted on -/

section Acted

variable {s : State} {t : Nat} {readings : List Int} {est : Nat → Int}

/-- The keys that acting on a sample may write, but for THM_STATUS and the count of throttled time. -/
def actKey (t k : Nat) : Prop := watchKey t k ∨ k = (Blk.thm t).base + 0x000 ∨ k = (Blk.thm t).base + 0x80C

theorem mem_rawsOf {x : Nat × Int} (h : x ∈ rawsOf readings) : x.1 < 208 := by
  obtain ⟨i, hi, rfl⟩ := List.mem_map.1 h
  rw [mem_upTo] at hi
  omega

/-- The stack with both halves' throttles set, and its rate. -/
def State.rated (s : State) (t : Nat) (raws : List (Nat × Int)) (est : Nat → Int) : State :=
  (((s.watched t raws (s.governed t raws est) est).throttle t 0 (s.governed t raws est)).throttle t 1 (s.governed t raws est)).sampleRate t
    (s.governed t raws est)

theorem State.actOn_rated (s : State) (t : Nat) (raws : List (Nat × Int)) (est : Nat → Int) :
    s.actOn t raws est = (s.rated t raws est).countThrottle t := s.actOn_eq t raws est

theorem State.regsBut_rated (h : ∀ x ∈ raws, x.1 < 208) : s.RegsBut (actKey t) (s.rated t raws est) := by
  have hw := (s.watches_watched t (s.governed t raws est) est h).regs
  have h0 := (State.throttles_throttle (s.watched t raws (s.governed t raws est) est) t 0 (s.governed t raws est) (by omega)).regs
  have h1 := (State.throttles_throttle ((s.watched t raws (s.governed t raws est) est).throttle t 0 (s.governed t raws est)) t 1
    (s.governed t raws est) (by omega)).regs
  have hr := (State.rates_sampleRate (((s.watched t raws (s.governed t raws est) est).throttle t 0 (s.governed t raws est)).throttle t 1
    (s.governed t raws est)) t (s.governed t raws est)).regs
  have hk : ∀ k, (k = (Blk.thm t).base + 0x000 ∨ eventKey k ∨ k = (Blk.thm t).base + 0x008) → actKey t k := by
    rintro k (h | h | h)
    · exact .inr (.inl h)
    · exact .inl (.inr (.inl h))
    · exact .inl (.inr (.inr (.inl h)))
  refine (hw.mono fun _ => .inl).trans ((h0.mono hk).trans ((h1.mono hk).trans (hr.mono ?_)))
  rintro k (h | h | h)
  · exact .inr (.inl h)
  · exact .inl (.inr (.inl (.inl h)))
  · exact .inr (.inr h)

/-- What acting on a sample gives each half. -/
theorem State.rated_half (h : ∀ x ∈ raws, x.1 < 208) {hf : Nat} (h2 : hf < 2) : ∃ u : State, u.time = s.time ∧
    mget 16 u.power.thrReq (2 * t + hf) = mget 16 s.power.thrReq (2 * t + hf) ∧
    mfind u.therm.coolSince (2 * t + hf) = mfind s.therm.coolSince (2 * t + hf) ∧
    mfind u.therm.below (2 * t + hf) = mfind s.therm.below (2 * t + hf) ∧ (∀ i, u.sensorLimit t i = s.sensorLimit t i) ∧
    mget 16 (s.rated t raws est).power.thrReq (2 * t + hf) = u.throttleReq t hf (s.governed t raws est) ∧
    (s.rated t raws est).rgB (.thm t) 0x000 (1 + hf) = u.hotHalf t hf (s.governed t raws est) := by
  let vs := s.governed t raws est
  have hw := s.watches_watched t vs est h
  have h0 := State.throttles_throttle (s.watched t raws vs est) t 0 vs (by omega)
  have h1 := State.throttles_throttle ((s.watched t raws vs est).throttle t 0 vs) t 1 vs (by omega)
  have hr := State.rates_sampleRate (((s.watched t raws vs est).throttle t 0 vs).throttle t 1 vs) t vs
  have hlim : ∀ u : State, s.RegsBut (fun k => k ≠ (Blk.thm t).base + 0x004) u → ∀ i, u.sensorLimit t i = s.sensorLimit t i := fun u hu i => by
    rw [State.sensorLimit, State.sensorLimit, hu.rgF _ _ (fun hn => hn rfl), hu.rgF _ _ (fun hn => hn rfl)]
  have hwl : s.RegsBut (fun k => k ≠ (Blk.thm t).base + 0x004) (s.watched t raws vs est) := hw.regs.mono fun k hk => by
    rintro rfl
    rcases hk with ⟨i, hi, hk⟩ | hk | hk | hk
    all_goals revert hk; simp only [eventKey, tally, Blk.base]; omega
  have h0l : s.RegsBut (fun k => k ≠ (Blk.thm t).base + 0x004) ((s.watched t raws vs est).throttle t 0 vs) := hwl.trans (h0.regs.mono fun k hk => by
    rintro rfl
    rcases hk with hk | hk | hk
    all_goals revert hk; simp only [eventKey, tally, Blk.base]; omega)
  rcases (by omega : hf = 0 ∨ hf = 1) with rfl | rfl
  · refine ⟨s.watched t raws vs est, hw.time, by rw [hw.power], by rw [hw.cool], by rw [hw.below], hlim _ hwl, ?_, ?_⟩
    · change mget 16 (State.sampleRate _ t vs).power.thrReq (2 * t + 0) = _
      rw [hr.req, h1.req, mget_mset, if_neg (by omega), h0.req, mget_mset_self]
    · change (State.sampleRate _ t vs).rgB (.thm t) 0x000 (1 + 0) = _
      rw [hr.bits _ (by omega), h1.bits _ (by omega), h0.hot]
  · refine ⟨(s.watched t raws vs est).throttle t 0 vs, h0.time.trans hw.time, ?_, ?_, ?_, hlim _ h0l, ?_, ?_⟩
    · rw [h0.req, mget_mset, if_neg (by omega), hw.power]
    · rw [h0.cool, holdSince]
      split
      · split
        · rw [hw.cool]
        · rw [mfind_mput, if_neg (by omega), hw.cool]
      · rw [mfind_merase, if_neg (by omega), hw.cool]
    · rw [h0.below _ (by omega), hw.below]
    · change mget 16 (State.sampleRate _ t vs).power.thrReq (2 * t + 1) = _
      rw [hr.req, h1.req, mget_mset_self]
    · change (State.sampleRate _ t vs).rgB (.thm t) 0x000 (1 + 1) = _
      rw [hr.bits _ (by omega), h1.hot]

/-- Acting on a sample leaves its readings. -/
theorem State.reading_actOn (h : ∀ x ∈ raws, x.1 < 208) {i : Nat} (hi : i < 208) :
    (s.actOn t raws est).rgF (.thm t) (0x100 + 4 * i) 15 0 = s.rgF (.thm t) (0x100 + 4 * i) 15 0 := by
  let vs := s.governed t raws est
  have hw := s.watches_watched t vs est h
  have h0 := (State.throttles_throttle (s.watched t raws vs est) t 0 vs (by omega)).regs
  have h1 := (State.throttles_throttle ((s.watched t raws vs est).throttle t 0 vs) t 1 vs (by omega)).regs
  have hr := (State.rates_sampleRate (((s.watched t raws vs est).throttle t 0 vs).throttle t 1 vs) t vs).regs
  have hk : ¬ ((Blk.thm t).base + (0x100 + 4 * i) = (Blk.thm t).base + 0x000 ∨ eventKey ((Blk.thm t).base + (0x100 + 4 * i)) ∨
      (Blk.thm t).base + (0x100 + 4 * i) = (Blk.thm t).base + 0x008) := by
    simp only [eventKey, tally, Blk.base]; omega
  rw [s.actOn_rated, (State.regsBut_countThrottle _ t).rgF _ _ (by simp only [tally, Blk.base]; omega)]
  change (State.sampleRate _ t vs).rgF _ _ 15 0 = _
  rw [hr.rgF _ _ (by simp only [tally, Blk.base]; omega), h1.rgF _ _ hk, h0.rgF _ _ hk, hw.reading i hi]

end Acted

theorem State.thermtrip_trip (s : State) (stack sensor : Nat) : (s.trip stack sensor).pins.thermtrip = true := by
  cases h : s.pins.thermtrip with
  | true => rw [State.trip, if_pos h]; exact h
  | false =>
    obtain ⟨f, hf⟩ := (s.tripped stack sensor).storeHealth_eq
    rw [s.trip_eq stack sensor h, hf]
    rfl

/-- A reading stays through a trip, latched before or not. -/
theorem State.reading_trip' (s : State) (stack sensor t : Nat) {i : Nat} (hi : i < 208) :
    (s.trip stack sensor).rgF (.thm t) (0x100 + 4 * i) 15 0 = s.rgF (.thm t) (0x100 + 4 * i) 15 0 := by
  cases h : s.pins.thermtrip with
  | true => rw [State.trip, if_pos h]
  | false => rw [State.rgF, s.reading_trip stack sensor h t hi, State.rgF]

section Sample

variable {s : State} {stack : Nat} {readings powers : List Int}

/-- A buried sensor whose estimate reaches 115 °C is found, and none else. -/
theorem estimatesTrip_none {est : Nat → Int} (h : ∀ i < 208, buried i = true → est i < 1840) : estimatesTrip est = none := by
  rw [estimatesTrip, List.find?_eq_none]
  intro i hi hb
  rw [mem_upTo] at hi
  simp only [Bool.and_eq_true, decide_eq_true_eq] at hb
  exact absurd (h i (by omega) hb.1) (by omega)

theorem estimatesTrip_some {est : Nat → Int} (h : ∃ i < 208, buried i = true ∧ 1840 ≤ est i) : ∃ i, estimatesTrip est = some i := by
  obtain ⟨i, hi, hb, hle⟩ := h
  rw [← Option.isSome_iff_exists, estimatesTrip, List.find?_isSome]
  exact ⟨i, by rw [mem_upTo]; omega, by simp [hb, hle]⟩

theorem sampleNotDue (hs : stack < s.stacks) (hr : s.time.running = true) (h : ∃ x, mfind s.therm.sampleAt stack = some x ∧
    s.time.now < x + if s.rgB (.thm stack) 0x000 0 then 12500 else 250000) : exec (.sensorSample stack readings powers) s = .next s := by
  obtain ⟨x, hx, hlt⟩ := h
  refine execSensorSample_skip hs ?_
  rw [State.sampleDue, hr, hx]
  simp only [Bool.not_true, Bool.false_or, decide_eq_false_iff_not, Nat.not_le]
  exact hlt

theorem State.sampleDue_of (h : s.time.running = true → ∀ x, mfind s.therm.sampleAt stack = some x →
    x + (if s.rgB (.thm stack) 0x000 0 then 12500 else 250000) ≤ s.time.now) : s.sampleDue stack = true := by
  cases hr : s.time.running with
  | false => rw [State.sampleDue, hr]; rfl
  | true =>
    rw [State.sampleDue, hr]
    cases hx : mfind s.therm.sampleAt stack with
    | none => rfl
    | some x => exact decide_eq_true (h hr x hx)

/-- The readings stand in their registers, whatever follows. -/
theorem reading_actedOn {est : Nat → Int} {i : Nat} (hi : i < 208) :
    ((s.sampled stack (rawsOf readings)).actedOn stack (rawsOf readings) est).rgF (.thm stack) (0x100 + 4 * i) 15 0 =
      (nth 0 readings i % 65536).toNat := by
  have h0 : (s.sampled stack (rawsOf readings)).rgF (.thm stack) (0x100 + 4 * i) 15 0 = (nth 0 readings i % 65536).toNat := by
    rw [State.rgF_congr (s.regs_sampled stack (rawsOf readings)), s.foldReadings_raws, s.reading_withReadings stack readings hi]
  have h1 := State.reading_actOn (s := s.sampled stack (rawsOf readings)) (t := stack) (est := est) (fun x => mem_rawsOf (readings := readings)) hi
  unfold State.actedOn
  split
  · exact h0
  · split
    · rw [State.reading_trip' _ _ _ _ hi, h1, h0]
    · rw [h1, h0]

/-- What a sample gives a half. -/
theorem halfThrottled {u : State} {hf : Nat} {readings : List Int} (hlim : ∀ i, u.sensorLimit stack i = s.sensorLimit stack i)
    (hreq : mget 16 u.power.thrReq (2 * stack + hf) = mget 16 s.power.thrReq (2 * stack + hf))
    (hcool : mfind u.therm.coolSince (2 * stack + hf) = mfind s.therm.coolSince (2 * stack + hf))
    (hbelow : mfind u.therm.below (2 * stack + hf) = mfind s.therm.below (2 * stack + hf)) (htime : u.time = s.time) :
    ((∃ i < 208, hf ∈ sensorHalves i ∧ s.sensorLimit stack i ≤ nth 0 readings i) →
      u.throttleReq stack hf (rawsOf readings) = max 4 (mget 16 s.power.thrReq (2 * stack + hf) - 1) ∧ u.hotHalf stack hf (rawsOf readings) = true) ∧
    ((∀ i < 208, hf ∈ sensorHalves i → nth 0 readings i < s.sensorLimit stack i) → u.hotHalf stack hf (rawsOf readings) = false ∧
      (mfind s.therm.coolSince (2 * stack + hf) = none →
        u.throttleReq stack hf (rawsOf readings) = mget 16 s.power.thrReq (2 * stack + hf))) ∧
    ((∀ i < 208, hf ∈ sensorHalves i → nth 0 readings i ≤ s.sensorLimit stack i - 32) →
      (∃ t, mfind s.therm.coolSince (2 * stack + hf) = some t ∧ t + 2500000 ≤ s.time.now) → mget 16 s.power.thrReq (2 * stack + hf) < 16 →
      mfind s.therm.below (2 * stack + hf) = none → u.throttleReq stack hf (rawsOf readings) = mget 16 s.power.thrReq (2 * stack + hf) + 1) := by
  have hmild : (∀ i < 208, hf ∈ sensorHalves i → nth 0 readings i < s.sensorLimit stack i) → u.hotHalf stack hf (rawsOf readings) = false := by
    intro h
    rw [← Bool.not_eq_true, State.hotHalf_rawsOf]
    rintro ⟨i, hi, hm, hle⟩
    exact absurd (h i hi hm) (by rw [hlim] at hle; omega)
  refine ⟨fun h => ?_, fun h => ⟨hmild h, fun hc => ?_⟩, fun h ⟨x, hx, hle⟩ hlt hb => ?_⟩
  · have hh : u.hotHalf stack hf (rawsOf readings) = true := by
      obtain ⟨i, hi, hm, hle⟩ := h
      exact State.hotHalf_rawsOf.2 ⟨i, hi, hm, by rw [hlim]; exact hle⟩
    exact ⟨by rw [State.throttleReq_of_hot hh, hreq], hh⟩
  · rw [State.throttleReq_of_mild (hmild h) (hcool.trans hc), hreq]
  · have hc := State.coolHalf_rawsOf (s := u) (t := stack) (hf := hf) (readings := readings) (fun i hi hm => by rw [hlim]; exact h i hi hm)
    rw [State.throttleReq_of_cool (hmild fun i hi hm => by have := h i hi hm; omega) hc (hcool.trans hx) (by rw [htime]; exact hle)
      (by rw [hreq]; exact hlt) (hbelow.trans hb), hreq]

/-- A sample that is due: the stack it leaves, and what follows from it. -/
theorem sample_acted (hs : stack < s.stacks) (hv : s.pins.vddAon = true) (hd : s.sampleDue stack = true) : ∃ v : State,
    exec (.sensorSample stack readings powers) s =
      .next (v.actedOn stack (rawsOf readings) (fun i => s.estimate stack i readings (nth 0 powers i))) ∧
    v.time = s.time ∧ v.power = s.power ∧ v.therm.coolSince = s.therm.coolSince ∧ v.therm.below = s.therm.below ∧ v.pins = s.pins ∧
    s.RegsBut (sensorKey stack) v ∧ (∀ i b, 16 ≤ b → v.sensorB stack i b = s.sensorB stack i b) ∧
    ∀ est, ∀ i < 208, (v.actedOn stack (rawsOf readings) est).rgF (.thm stack) (0x100 + 4 * i) 15 0 = (nth 0 readings i % 65536).toNat := by
  obtain ⟨htime, hpower, -, hcool, hbelow, hpins⟩ := s.sampled_keeps stack (rawsOf readings)
  have hr := s.regsBut_withReadings stack readings
  rw [← s.foldReadings_raws] at hr
  refine ⟨s.sampled stack (rawsOf readings), ?_, htime, hpower, hcool, hbelow, hpins, hr.trans (.of_eq (s.regs_sampled stack (rawsOf readings))),
    fun i b hb => s.sensorB_sampled stack readings i hb, fun est i hi => reading_actedOn hi⟩
  rw [sample_of_due hs hv hd, estimate_sampled]

theorem sampleTaken (hs : stack < s.stacks) (hv : s.pins.vddAon = true)
    (hd : s.time.running = true → ∀ x, mfind s.therm.sampleAt stack = some x →
        x + (if s.rgB (.thm stack) 0x000 0 then 12500 else 250000) ≤ s.time.now) :
    Answers (.sensorSample stack readings powers) s (fun u =>
      (∀ i < 208, u.rgF (.thm stack) (0x100 + 4 * i) 15 0 = (nth 0 readings i % 65536).toNat) ∧
      (s.pins.resetN = true → s.pins.pwrgd = true → s.pins.thermtrip = false →
        (∃ i < 208, buried i = true ∧ 1840 ≤ s.estimate stack i readings (nth 0 powers i)) → u.pins.thermtrip = true) ∧
      (s.pins.resetN = true → s.pins.pwrgd = true → s.pins.thermtrip = false →
        (∀ i < 208, buried i = true → s.estimate stack i readings (nth 0 powers i) < 1840) →
        (∀ i < 208, s.sensorB stack i 16 = false ∧ s.sensorB stack i 17 = false) →
        (∀ hf < 2, ∀ h, h = 2 * stack + hf →
          ((∃ i < 208, hf ∈ sensorHalves i ∧ s.sensorLimit stack i ≤ nth 0 readings i) →
            mget 16 u.power.thrReq h = max 4 (mget 16 s.power.thrReq h - 1) ∧ u.rgB (.thm stack) 0x000 (1 + hf) = true) ∧
          ((∀ i < 208, hf ∈ sensorHalves i → nth 0 readings i < s.sensorLimit stack i) →
            u.rgB (.thm stack) 0x000 (1 + hf) = false ∧
            (mfind s.therm.coolSince h = none → mget 16 u.power.thrReq h = mget 16 s.power.thrReq h)) ∧
          ((∀ i < 208, hf ∈ sensorHalves i → nth 0 readings i ≤ s.sensorLimit stack i - 32) →
            (∃ t, mfind s.therm.coolSince h = some t ∧ t + 2500000 ≤ s.time.now) → mget 16 s.power.thrReq h < 16 →
            mfind s.therm.below h = none → mget 16 u.power.thrReq h = mget 16 s.power.thrReq h + 1)) ∧
        (u.rgB (.thm stack) 0x000 1 = true →
          Counted s u (.thm stack) 0x800 (if u.rgB (.thm stack) 0x000 0 then 50 else 1000)))) := by
  obtain ⟨v, hx, htime, hpower, hcool, hbelow, hpins, hregs, hmark, hread⟩ :=
    sample_acted (readings := readings) (powers := powers) hs hv (State.sampleDue_of hd)
  have hacted : s.pins.resetN = true → s.pins.pwrgd = true → s.pins.thermtrip = false → ∀ est,
      v.actedOn stack (rawsOf readings) est = match estimatesTrip est with
        | some i => (v.actOn stack (rawsOf readings) est).trip stack i
        | none => v.actOn stack (rawsOf readings) est := fun h1 h2 h3 est => by
    rw [State.actedOn]
    exact if_neg (by simp [hpins, h1, h2, h3])
  refine ⟨_, hx, fun i hi => hread _ i hi, fun h1 h2 h3 hhot => ?_, fun h1 h2 h3 hcold hflag => ?_⟩
  · obtain ⟨i, hi⟩ := estimatesTrip_some hhot
    rw [hacted h1 h2 h3, hi]
    exact State.thermtrip_trip _ _ _
  · rw [hacted h1 h2 h3, estimatesTrip_none hcold]
    dsimp only
    rw [State.actOn_rated]
    generalize (fun i => s.estimate stack i readings (nth 0 powers i)) = est
    have hraws : ∀ x ∈ rawsOf readings, x.1 < 208 := fun x hx => mem_rawsOf hx
    have hgov : v.governed stack (rawsOf readings) est = rawsOf readings := by
      refine v.governed_rawsOf stack readings est fun i hi => ?_
      rw [hmark i 16 (by omega), hmark i 17 (by omega)]
      exact hflag i hi
    have hlim : ∀ i, v.sensorLimit stack i = s.sensorLimit stack i := fun i => by
      rw [State.sensorLimit, State.sensorLimit, hregs.rgF _ _ (not_sensorKey_thm (.inl (by omega))), hregs.rgF _ _ (not_sensorKey_thm (.inl (by omega)))]
    refine ⟨fun hf h2 h hh => ?_, fun hb => ?_⟩
    · subst hh
      obtain ⟨u, ut, ur, uc, ub, ul, hreq, hbit⟩ := v.rated_half (t := stack) (est := est) hraws h2
      rw [hgov] at hreq hbit
      have hres := halfThrottled (s := s) (u := u) (stack := stack) (hf := hf) (readings := readings) (fun i => (ul i).trans (hlim i))
        (ur.trans (by rw [hpower])) (uc.trans (by rw [hcool])) (ub.trans (by rw [hbelow])) (ut.trans htime)
      rw [State.countThrottle_power, State.bits_countThrottle, hreq, hbit]
      exact hres
    · rw [State.bits_countThrottle] at hb
      rw [State.bits_countThrottle]
      have hreg : (v.rated stack (rawsOf readings) est).rg (.thm stack) 0x800 = s.rg (.thm stack) 0x800 := by
        rw [(v.regsBut_rated hraws).rg, hregs.rg (not_sensorKey_thm (.inr (by omega)))]
        rintro ((⟨i, hi, hk⟩ | hk | hk | hk) | hk | hk)
        all_goals revert hk; simp only [eventKey, tally, Blk.base]; omega
      intro hlt
      have hc := State.counted_countThrottle (v.rated stack (rawsOf readings) est) stack hb
      rw [Counted, hreg] at hc
      exact hc hlt

end Sample

/-! ## O50 -/

/-- Settles O50: a sample's readings, its throttles and its trip, the bands, the trip's registers, and its latch. -/
theorem temperatureControl : Obligations.TemperatureControl := by
  refine ⟨fun s stack readings powers hs hv => ⟨fun hr h => sampleNotDue hs hr h, fun hd => sampleTaken hs hv hd⟩,
    fun s stack i cur v hs hc hm h16 h17 hcur hval => bandChanges hs hc hm h16 h17 hcur hval,
    fun s stack sensor hs hn hv h => tripSwitchesOff hs hn hv h, fun s h => latchClears h⟩

end Sys2Proof.Machine
end


section
/-! PROOF. The stack governor (R335, R348): what its measurements do to the steps of the regions. O49. -/

namespace Sys2Proof.Machine

open Sys2Proof.Claims

/-! ## The governor's request -/

/-- The lowest of the lowerings that a list makes for a region, and of m. -/
def lowest (r : Nat) (l : List (Nat × Nat)) (m : Nat) : Nat := l.foldl (fun m x => if x.1 = r then min m x.2 else m) m

theorem lowest_min (r : Nat) (l : List (Nat × Nat)) (a b : Nat) : lowest r l (min a b) = min (lowest r l a) b := by
  unfold lowest
  induction l generalizing a with
  | nil => rfl
  | cons x l ih =>
    simp only [List.foldl_cons]
    split
    · rw [show min (min a b) x.2 = min (min a x.2) b by omega, ih]
    · exact ih a

theorem lowest_le (r : Nat) (l : List (Nat × Nat)) (a : Nat) : lowest r l a ≤ a := by
  have h := lowest_min r l a a
  rw [Nat.min_self] at h
  omega

/-- A lowering of a list for a region bounds it. -/
theorem lowest_le_of_mem {r v : Nat} {l : List (Nat × Nat)} (h : (r, v) ∈ l) (a : Nat) : lowest r l a ≤ v := by
  unfold lowest
  induction l generalizing a with
  | nil => exact absurd h List.not_mem_nil
  | cons x l ih =>
    rw [List.foldl_cons]
    rcases List.mem_cons.1 h with rfl | h
    · exact (lowest_le _ l _).trans (by simp)
    · exact ih h _

/-- The lowest of the lowerings of several lists. -/
def lowestOf (r : Nat) (m : Map (List (Nat × Nat))) (a : Nat) : Nat := m.foldl (fun a e => lowest r e.2 a) a

theorem lowestOf_min (r : Nat) (m : Map (List (Nat × Nat))) (a b : Nat) : lowestOf r m (min a b) = min (lowestOf r m a) b := by
  unfold lowestOf
  induction m generalizing a with
  | nil => rfl
  | cons e m ih => rw [List.foldl_cons, List.foldl_cons, lowest_min, ih]

theorem lowestOf_le_of_mem {r v : Nat} {m : Map (List (Nat × Nat))} {e : Nat × List (Nat × Nat)} (he : e ∈ m) (h : (r, v) ∈ e.2) (a : Nat) :
    lowestOf r m a ≤ v := by
  have hle : ∀ (m : Map (List (Nat × Nat))) a, lowestOf r m a ≤ a := fun m a => by
    have h := lowestOf_min r m a a
    rw [Nat.min_self] at h
    omega
  unfold lowestOf at hle ⊢
  induction m generalizing a with
  | nil => exact absurd he List.not_mem_nil
  | cons x m ih =>
    rw [List.foldl_cons]
    rcases List.mem_cons.1 he with rfl | he
    · exact (hle m _).trans (lowest_le_of_mem h a)
    · exact ih he _

theorem Power.govStep_eq (p : Power) (r : Nat) : p.govStep r = lowestOf r p.lowered (min (mget 16 p.govHold r) (mget 16 p.capStep r)) := rfl

/-- A lower hold lowers the request with it. -/
theorem Power.govStep_hold (p : Power) (r v : Nat) :
    ({ p with govHold := mset 16 p.govHold r (min (mget 16 p.govHold r) v) } : Power).govStep r = min (p.govStep r) v := by
  rw [Power.govStep_eq, Power.govStep_eq]
  dsimp only
  rw [mget_mset_self, show min (min (mget 16 p.govHold r) v) (mget 16 p.capStep r) = min (min (mget 16 p.govHold r) (mget 16 p.capStep r)) v by omega,
    lowestOf_min]

/-- The request for a region rests on its own hold and cap, and on the lowerings. -/
theorem Power.govStep_congr {p q : Power} {r : Nat} (hl : q.lowered = p.lowered) (hc : q.capStep = p.capStep)
    (hh : mget 16 q.govHold r = mget 16 p.govHold r) : q.govStep r = p.govStep r := by
  rw [Power.govStep_eq, Power.govStep_eq, hl, hc, hh]

/-! ## Rounds of the governor -/

/-- The state with the governor's hold on a region. -/
def State.withHold (s : State) (r v : Nat) : State := { s with power := { s.power with govHold := mset 16 s.power.govHold r v } }

section Rounds

variable {s : State}

theorem State.oneLower_lt (s : State) (r : Nat) : s.oneLower r < 32 := by
  have h := getF_lt 14 10 (s.rg (.pwr (r / 256)) (0x100 + 4 * (r % 256)))
  have h' : s.regF r 14 10 < 32 := h
  rw [State.oneLower]; omega

theorem State.govSet_power (s : State) (r : Nat) : (s.govSet r).power = s.power := State.wgF_power ..

theorem State.regF_govSet_self (s : State) (r : Nat) : (s.govSet r).regF r 14 10 = s.power.govStep r % 32 := s.regF_setReg_self r 10 _ (by omega)

theorem State.regF_govSet_ne (s : State) {x r : Nat} (h : r ≠ x) (hi lo : Nat) : (s.govSet x).regF r hi lo = s.regF r hi lo :=
  s.regF_setReg_apart _ _ _ (by omega) (.inl h)

/-- A round that gives each region of a list a new hold. -/
def State.holdRound (v : State → Nat → Nat) (s : State) (r : Nat) : State := (s.withHold r (v s r)).govSet r

theorem State.govLower_eq (s : State) (r : Nat) : s.govLower r = s.holdRound (fun u x => min (mget 16 u.power.govHold x) (u.oneLower x)) r := rfl

theorem State.govRaise_eq (s : State) (r : Nat) : s.govRaise r = s.holdRound (fun u x => min 16 (mget 16 u.power.govHold x + 1)) r := rfl

theorem State.power_holdRound (v : State → Nat → Nat) (s : State) (r : Nat) :
    (s.holdRound v r).power = { s.power with govHold := mset 16 s.power.govHold r (v s r) } := by
  rw [State.holdRound, State.govSet_power]; rfl

/-- A round of holds keeps what it does not come to, and gives each region that it does come to its hold and its step. -/
theorem State.foldl_holdRound {v : State → Nat → Nat}
    (hv : ∀ u w : State, ∀ x, mget 16 w.power.govHold x = mget 16 u.power.govHold x → (∀ hi lo, w.regF x hi lo = u.regF x hi lo) → v w x = v u x)
    (l : List Nat) (hn : l.Nodup) (s : State) :
    (l.foldl (State.holdRound v) s).power.lowered = s.power.lowered ∧ (l.foldl (State.holdRound v) s).power.capStep = s.power.capStep ∧
    (∀ r, r ∉ l → mget 16 (l.foldl (State.holdRound v) s).power.govHold r = mget 16 s.power.govHold r ∧
      ∀ hi lo, (l.foldl (State.holdRound v) s).regF r hi lo = s.regF r hi lo) ∧
    (∀ r ∈ l, mget 16 (l.foldl (State.holdRound v) s).power.govHold r = v s r ∧
      (l.foldl (State.holdRound v) s).regF r 14 10 = (l.foldl (State.holdRound v) s).power.govStep r % 32) := by
  induction l generalizing s with
  | nil => exact ⟨rfl, rfl, fun _ _ => ⟨rfl, fun _ _ => rfl⟩, fun _ h => absurd h List.not_mem_nil⟩
  | cons x l ih =>
    obtain ⟨hx, hl⟩ := List.nodup_cons.1 hn
    obtain ⟨h1, h2, h3, h4⟩ := ih hl (s.holdRound v x)
    have hp := s.power_holdRound v x
    have hne : ∀ r, r ≠ x → mget 16 (s.holdRound v x).power.govHold r = mget 16 s.power.govHold r ∧
        ∀ hi lo, (s.holdRound v x).regF r hi lo = s.regF r hi lo := fun r hr =>
      ⟨by rw [hp]; exact (mget_mset ..).trans (if_neg (by tauto)), fun hi lo =>
        (State.regF_govSet_ne _ hr hi lo).trans (State.regF_congr rfl ..)⟩
    rw [List.foldl_cons]
    refine ⟨h1.trans (by rw [hp]), h2.trans (by rw [hp]), fun r hr => ?_, fun r hr => ?_⟩
    · obtain ⟨hrx, hrl⟩ := not_or.1 (fun h => hr (List.mem_cons.2 h))
      obtain ⟨g1, g2⟩ := hne r hrx
      obtain ⟨k1, k2⟩ := h3 r hrl
      exact ⟨k1.trans g1, fun hi lo => (k2 hi lo).trans (g2 hi lo)⟩
    · by_cases hrx : r = x
      · subst hrx
        obtain ⟨k1, k2⟩ := h3 r hx
        have hold : mget 16 (s.holdRound v r).power.govHold r = v s r := by rw [hp]; exact mget_mset_self ..
        refine ⟨k1.trans hold, (k2 14 10).trans ?_⟩
        rw [Power.govStep_congr h1 h2 k1, hp]
        exact State.regF_govSet_self _ r
      · obtain ⟨g1, g2⟩ := hne r hrx
        obtain ⟨k1, k2⟩ := h4 r ((List.mem_cons.1 hr).resolve_left hrx)
        exact ⟨k1.trans (hv _ _ r g1 g2), k2⟩

/-- A round lowers each region by one step, and leaves the others. -/
theorem State.foldl_govLower (l : List Nat) (hn : l.Nodup) (s : State) :
    (∀ r, r ∉ l → (l.foldl State.govLower s).regF r 14 10 = s.regF r 14 10) ∧
    (∀ r ∈ l, (l.foldl State.govLower s).regF r 14 10 = min (s.power.govStep r) (s.oneLower r)) := by
  obtain ⟨h1, h2, h3, h4⟩ := State.foldl_holdRound (v := fun u x => min (mget 16 u.power.govHold x) (u.oneLower x))
    (fun u w x hm hf => by rw [hm, State.oneLower, hf, hf, State.oneLower]) l hn s
  have he : l.foldl State.govLower s = l.foldl (State.holdRound fun u x => min (mget 16 u.power.govHold x) (u.oneLower x)) s := rfl
  rw [he]
  refine ⟨fun r hr => (h3 r hr).2 14 10, fun r hr => ?_⟩
  obtain ⟨k1, k2⟩ := h4 r hr
  have hs := s.power.govStep_hold r (s.oneLower r)
  rw [k2, ← hs, Power.govStep_congr (p := { s.power with govHold := mset 16 s.power.govHold r (min (mget 16 s.power.govHold r) (s.oneLower r)) })
    h1 h2 (k1.trans (mget_mset_self ..).symm), hs, Nat.mod_eq_of_lt]
  have := s.oneLower_lt r
  omega

/-- A round raises the governor's hold on each region by one. -/
theorem State.foldl_govRaise (l : List Nat) (hn : l.Nodup) (s : State) (r : Nat) (hr : r ∈ l) :
    mget 16 (l.foldl State.govRaise s).power.govHold r = min 16 (mget 16 s.power.govHold r + 1) ∧
    (l.foldl State.govRaise s).regF r 14 10 = (l.foldl State.govRaise s).power.govStep r % 32 := by
  obtain ⟨-, -, -, h4⟩ := State.foldl_holdRound (v := fun u x => min 16 (mget 16 u.power.govHold x + 1)) (fun u w x hm _ => by rw [hm]) l hn s
  exact h4 r hr

end Rounds

/-! ## A measurement -/

/-- The time of a measurement. -/
def State.govTimed (s : State) (t : Nat) : State := { s with power := { s.power with govAt := mput s.power.govAt t s.time.now } }

theorem State.govTimed_regs (s : State) (t : Nat) : (s.govTimed t).regs = s.regs := rfl

/-- The measured power shown, and the time of the measurement kept. -/
def State.measured (s : State) (t p : Nat) : State := (s.wgF (.pwr t) 0x004 15 0 (min p 65535)).govTimed t

/-- The time of a round of the governor. -/
def State.govStamp (s : State) (t now : Nat) : State := { s with power := { s.power with govLast := mput s.power.govLast t now } }

/-- Since when a stack has stood below 95 % of its cap. -/
def State.govBelowIs (s : State) (m : Map Nat) : State := { s with power := { s.power with govBelow := m } }

/-- What a measurement above the cap, far below it, or between does. -/
def State.govActs (s : State) (t p cap : Nat) : State :=
  let on := (stackRegions t).filter s.regionOn
  if cap < p then
    let u := s.govBelowIs (merase s.power.govBelow t)
    if u.past u.power.govLast t 500 then (on.foldl State.govLower u).govStamp t s.time.now else u
  else if p * 100 < cap * 95 then
    let f := (mfind s.power.govBelow t).getD s.time.now
    let u := s.govBelowIs (mput s.power.govBelow t f)
    if f + 12500 ≤ s.time.now && u.past u.power.govLast t 5000 then
      ((on.filter (fun r => decide (mget 16 u.power.govHold r < 16))).foldl State.govRaise u).govStamp t s.time.now
    else u
  else s.govBelowIs (merase s.power.govBelow t)

/-- GOV_ACTIVE, and the count of the time it stands. -/
def State.govCount (s : State) (t : Nat) : State :=
  let u := s.govSync t
  if u.rgB (.pwr t) 0x000 4 then u.bump (.pwr t) 0x800 1 else u

theorem exec_governor {s : State} {t p : Nat} (ht : t < s.stacks) (h : s.past s.power.govAt t 250 = true) :
    exec (.governorMeasure t p) s = .next (((s.measured t p).govActs t p ((s.measured t p).stackCap t)).govCount t) := by
  change execGovernorMeasure t p s = _
  rw [execGovernorMeasure, if_neg (by omega), if_neg (by simp [h])]
  rfl

section Measure

variable (s : State) (t p : Nat)

theorem State.past_iff {m : Map Nat} {k n : Nat} : s.past m k n = true ↔ ∀ x, mfind m k = some x → x + n ≤ s.time.now := by
  unfold State.past
  cases mfind m k with
  | none => simp
  | some x => simp

theorem State.onlyPower_measured : s.OnlyPower (s.measured t p) := (s.onlyPower_wgF ..).trans (State.onlyPower_power _ _)

theorem State.measured_power : (s.measured t p).power = { s.power with govAt := mput s.power.govAt t s.time.now } := by
  have h : ∀ u : State, u.power = s.power → u.time = s.time →
      (u.govTimed t).power = { s.power with govAt := mput s.power.govAt t s.time.now } := fun u hp ht => by rw [← hp, ← ht]; rfl
  exact h _ (State.wgF_power ..) (State.wgF_time ..)

theorem State.OnlyPower.time {s t : State} (h : s.OnlyPower t) : t.time = s.time := by unfold State.OnlyPower at h; rw [h]

theorem State.OnlyPower.memory {s t : State} (h : s.OnlyPower t) : SameMemory s t := by unfold State.OnlyPower at h; rw [h]; exact ⟨rfl, rfl, rfl⟩

theorem State.OnlyPower.stacks {s t : State} (h : s.OnlyPower t) : t.stacks = s.stacks := by unfold State.OnlyPower at h; rw [h]; rfl

theorem State.regsBut_measured : s.RegsBut (fun k => k = (Blk.pwr t).base + 0x004) (s.measured t p) :=
  .trans (t := s.wgF (.pwr t) 0x004 15 0 (min p 65535)) (s.regsBut_wgF _ _ _ _ _ rfl)
    (.of_eq (State.govTimed_regs _ t))

theorem State.regF_measured (r hi lo : Nat) : (s.measured t p).regF r hi lo = s.regF r hi lo :=
  (s.regsBut_measured t p).rgF _ _ (by simp only [Blk.base]; omega)

theorem State.regionOn_congr {s u : State} {r : Nat} (h : u.regF r 1 0 = s.regF r 1 0) : u.regionOn r = s.regionOn r := by
  rw [State.regionOn, State.regionOn, h]

theorem State.regionOn_measured (r : Nat) : (s.measured t p).regionOn r = s.regionOn r := State.regionOn_congr (s.regF_measured t p r 1 0)

theorem State.stackCap_measured : (s.measured t p).stackCap t = if s.stacks = 8 then 216 * s.rgF (.pwr t) 0x000 10 5 else 8640 := by
  have hs : (s.measured t p).stacks = s.stacks := (s.onlyPower_measured t p).stacks
  rw [State.stackCap, hs, (s.regsBut_measured t p).rgF _ _ (by simp only [Blk.base]; omega)]

/-- What the governor writes: the regions' registers, GOV_ACTIVE and its count. -/
theorem State.regsBut_govCount : s.RegsBut (fun k => tally k ∨ k = (Blk.pwr t).base + 0x000 ∨ k = (Blk.pwr t).base + 0x800) (s.govCount t) := by
  have hw : s.RegsBut (fun k => tally k ∨ k = (Blk.pwr t).base + 0x000 ∨ k = (Blk.pwr t).base + 0x800) (s.govSync t) :=
    s.regsBut_wgB _ _ _ _ (.inr (.inl rfl))
  refine .ite (hw.trans ((State.regsBut_bump _ (b := .pwr t) trivial 0x800 1).mono ?_)) hw
  rintro k (h | h)
  · exact .inl h
  · exact .inr (.inr h)

theorem State.regF_govCount (r hi lo : Nat) : (s.govCount t).regF r hi lo = s.regF r hi lo :=
  (s.regsBut_govCount t).rgF _ _ (by simp only [tally, Blk.base]; omega)

theorem State.power_bump (b : Blk) (o n : Nat) : (s.bump b o n).power = s.power := (s.onlyTraced_bump b o n).power

theorem State.govCount_eq :
    s.govCount t = if (s.govSync t).rgB (.pwr t) 0x000 4 then (s.govSync t).bump (.pwr t) 0x800 1 else s.govSync t := rfl

theorem State.power_govCount : (s.govCount t).power = s.power := by
  have hw : (s.govSync t).power = s.power := by rw [State.govSync, State.wgB_power]
  rw [State.govCount_eq, apply_ite State.power, State.power_bump, ite_self]
  exact hw

theorem State.counted_govCount (h : (s.govCount t).rgB (.pwr t) 0x000 4 = true) : Counted s (s.govCount t) (.pwr t) 0x800 1 := by
  have hrg : (s.govSync t).rg (.pwr t) 0x800 = s.rg (.pwr t) 0x800 := by
    rw [State.govSync, State.wgB, State.rg_wgF, if_neg (by omega)]
  unfold State.govCount at h ⊢
  dsimp only at h ⊢
  split at h
  · next hb =>
    rw [if_pos hb]
    intro hlt
    rw [State.counted_bump _ _ _ _ (by rw [hrg]; exact hlt), hrg]
  · next hb => exact absurd h hb

theorem State.quiet_govCount : s.Quiet (s.govCount t) := by
  have hk : ∀ o, o < 0x10000 → ¬ ringKey ((Blk.pwr t).base + o) := fun o ho => by
    rintro ⟨r, hr, he⟩; simp only [Blk.base, ringOff] at he; omega
  have hw : s.Quiet (s.govSync t) := .of_regs (s.onlyRegs_wg ..).memory (s.regsBut_wgB _ _ _ _ (hk _ (by omega)))
  exact .ite (hw.trans (State.quiet_bump _ (not_ringKey_flagPlace (b := .pwr t) trivial _) (hk _ (by omega)) 1)) hw

theorem nodup_stackRegions (t : Nat) : (stackRegions t).Nodup := by
  rw [stackRegions, upTo_eq_range']; exact List.nodup_range'

theorem mem_stackRegions {t r : Nat} : r ∈ stackRegions t ↔ r / 256 = t := by
  rw [stackRegions, mem_upTo]; omega

/-- Rounds change registers of regions, and power control's record. -/
theorem State.regsBut_govLowers (l : List Nat) : s.RegsBut powerKey (l.foldl State.govLower s) :=
  .foldl (fun u r => .from (u := u.withHold r _) rfl (State.regsBut_govSet _ r)) l s

theorem State.onlyPower_govLowers (l : List Nat) : s.OnlyPower (l.foldl State.govLower s) :=
  .foldl (fun u r => (u.onlyPower_power _).trans (State.onlyPower_govSet _ r)) l s

end Measure

/-- What a measurement leaves for the governor's rounds. -/
structure State.Measured (t p : Nat) (s m : State) : Prop where
  only : s.OnlyPower m
  power : m.power = { s.power with govAt := mput s.power.govAt t s.time.now }
  regs : s.RegsBut (fun k => k = (Blk.pwr t).base + 0x004) m
  shown : m.rgF (.pwr t) 0x004 15 0 = min p 65535

theorem State.measured_measured (s : State) (t p : Nat) : s.Measured t p (s.measured t p) := by
  refine ⟨s.onlyPower_measured t p, s.measured_power t p, s.regsBut_measured t p, ?_⟩
  rw [State.measured, State.rgF_congr (State.govTimed_regs _ t), State.rgF_wgF_self _ _ _ _ _ _ (by omega)]
  omega

section Acts

variable {s m : State} {t p cap : Nat}

theorem State.Measured.region (h : s.Measured t p m) (r hi lo : Nat) : m.regF r hi lo = s.regF r hi lo :=
  h.regs.rgF _ _ (by simp only [Blk.base]; omega)

theorem State.Measured.on (h : s.Measured t p m) (r : Nat) : m.regionOn r = s.regionOn r := State.regionOn_congr (h.region r 1 0)

theorem State.Measured.govStep (h : s.Measured t p m) (r : Nat) : m.power.govStep r = s.power.govStep r := by
  refine Power.govStep_congr ?_ ?_ ?_ <;> rw [h.power]

/-- A measurement above the cap, with the last round 2 µs past, is a round that lowers. -/
theorem State.govActs_above (m : State) (hlt : cap < p) (hl : ∀ x, mfind m.power.govLast t = some x → x + 500 ≤ m.time.now) :
    m.govActs t p cap = (((stackRegions t).filter m.regionOn).foldl State.govLower (m.govBelowIs (merase m.power.govBelow t))).govStamp t m.time.now := by
  have hp : (m.govBelowIs (merase m.power.govBelow t)).past m.power.govLast t 500 = true := State.past_iff _ |>.2 hl
  rw [State.govActs, if_pos hlt]
  exact if_pos hp

/-- One below 95 % of it for 50 µs, with the last round 20 µs past, is a round that raises. -/
theorem State.govActs_below (m : State) (hlt : p * 100 < cap * 95) {x : Nat} (hx : mfind m.power.govBelow t = some x) (hle : x + 12500 ≤ m.time.now)
    (hl : ∀ x, mfind m.power.govLast t = some x → x + 5000 ≤ m.time.now) :
    m.govActs t p cap = ((((stackRegions t).filter m.regionOn).filter (fun r => decide (mget 16 m.power.govHold r < 16))).foldl State.govRaise
      (m.govBelowIs (mput m.power.govBelow t x))).govStamp t m.time.now := by
  have hp : (m.govBelowIs (mput m.power.govBelow t x)).past m.power.govLast t 5000 = true := State.past_iff _ |>.2 hl
  rw [State.govActs, if_neg (by omega), if_pos hlt, hx]
  exact if_pos (by rw [Bool.and_eq_true]; exact ⟨decide_eq_true hle, hp⟩)

theorem exec_governor_of {s : State} {t p : Nat} (ht : t < s.stacks) (ha : ∀ x, mfind s.power.govAt t = some x → x + 250 ≤ s.time.now)
    (hcap : cap = if s.stacks = 8 then 216 * s.rgF (.pwr t) 0x000 10 5 else 8640) :
    ∃ m, s.Measured t p m ∧ exec (.governorMeasure t p) s = .next ((m.govActs t p cap).govCount t) := by
  refine ⟨s.measured t p, s.measured_measured t p, ?_⟩
  rw [exec_governor ht (s.past_iff.2 ha), s.stackCap_measured t p, hcap]

theorem State.govStamp_regs (s : State) (t now : Nat) : (s.govStamp t now).regs = s.regs := rfl

theorem State.govBelowIs_regs (s : State) (b : Map Nat) : (s.govBelowIs b).regs = s.regs := rfl

/-- Above the cap every running region of a stack is lowered. -/
theorem governorLowers (ht : t < s.stacks) (hcap : cap = if s.stacks = 8 then 216 * s.rgF (.pwr t) 0x000 10 5 else 8640)
    (ha : ∀ x, mfind s.power.govAt t = some x → x + 250 ≤ s.time.now) (hlt : cap < p)
    (hl : ∀ x, mfind s.power.govLast t = some x → x + 500 ≤ s.time.now) :
    Answers (.governorMeasure t p) s (fun u => u.rgF (.pwr t) 0x004 15 0 = min p 65535 ∧
        (∀ r, r / 256 = t → s.regionOn r = true →
          u.regF r 14 10 = min (s.power.govStep r) (max 4 (min (s.regF r 14 10) (s.regF r 9 5) - 1))) ∧
        (∀ r, r / 256 = t → s.regionOn r = false → u.regF r 14 10 = s.regF r 14 10) ∧ (TraceOff s → SameMemory s u) ∧
        (u.rgB (.pwr t) 0x000 4 = true → Counted s u (.pwr t) 0x800 1)) := by
  obtain ⟨m, hm, hx⟩ := exec_governor_of (p := p) ht ha hcap
  have hl' : ∀ x, mfind m.power.govLast t = some x → x + 500 ≤ m.time.now := by
    rw [hm.power, hm.only.time]; exact hl
  rw [m.govActs_above hlt hl'] at hx
  have hbr : ∀ r hi lo, (m.govBelowIs (merase m.power.govBelow t)).regF r hi lo = s.regF r hi lo := fun r hi lo =>
    (State.regF_congr (m.govBelowIs_regs _) ..).trans (hm.region r hi lo)
  have hbs : ∀ r, (m.govBelowIs (merase m.power.govBelow t)).power.govStep r = s.power.govStep r := fun r =>
    (Power.govStep_congr (p := m.power) rfl rfl rfl).trans (hm.govStep r)
  have hbk : m.OnlyPower (m.govBelowIs (merase m.power.govBelow t)) := m.onlyPower_power _
  have hrb : m.RegsBut powerKey (m.govBelowIs (merase m.power.govBelow t)) := .of_eq (m.govBelowIs_regs _)
  generalize m.govBelowIs (merase m.power.govBelow t) = b at hx hbr hbs hbk hrb
  obtain ⟨h1, h2⟩ := State.foldl_govLower ((stackRegions t).filter m.regionOn) ((nodup_stackRegions t).filter _) b
  have hvr := hrb.trans (b.regsBut_govLowers ((stackRegions t).filter m.regionOn))
  have hvo := (hm.only.trans hbk).trans (b.onlyPower_govLowers ((stackRegions t).filter m.regionOn))
  generalize ((stackRegions t).filter m.regionOn).foldl State.govLower b = w at hx h1 h2 hvr hvo
  have hv : m.RegsBut powerKey (w.govStamp t m.time.now) := hvr.trans (.of_eq (w.govStamp_regs ..))
  have hmem : ∀ r, r / 256 = t → (r ∈ (stackRegions t).filter m.regionOn ↔ s.regionOn r = true) := fun r hr => by
    rw [List.mem_filter, mem_stackRegions, hm.on]; simp [hr]
  have hreg : ∀ r hi lo, (w.govStamp t m.time.now).regF r hi lo = w.regF r hi lo := fun r hi lo => State.regF_congr (w.govStamp_regs ..) ..
  refine ⟨_, hx, ?_, fun r hr hon => ?_, fun r hr hoff => ?_, fun ht' => ?_, fun hg => ?_⟩
  · rw [(State.regsBut_govCount _ t).rgF _ _ (by simp only [tally, Blk.base]; omega), hv.rgF _ _ (by simp only [powerKey, Blk.base]; omega), hm.shown]
  · rw [State.regF_govCount, hreg, h2 r ((hmem r hr).2 hon), hbs, State.oneLower, hbr, hbr]
  · rw [State.regF_govCount, hreg, h1 r (fun h => by rw [(hmem r hr).1 h] at hoff; exact absurd hoff (by decide)), hbr]
  · have hq : s.Quiet (w.govStamp t m.time.now) := by
      refine .of_regs (hvo.trans (w.onlyPower_power _)).memory ((hm.regs.mono fun k hk => ?_).trans (hv.mono fun k hk => ?_))
      · rintro ⟨r, hr, he⟩
        rw [hk] at he
        simp only [Blk.base, ringOff] at he; omega
      · rintro ⟨r, hr, rfl⟩
        revert hk; simp only [powerKey, Blk.base, ringOff]; omega
    exact ((hq.trans (State.quiet_govCount _ t)) ht').2
  · have hrg : (w.govStamp t m.time.now).rg (.pwr t) 0x800 = s.rg (.pwr t) 0x800 := by
      rw [hv.rg (by simp only [powerKey, Blk.base]; omega), hm.regs.rg (by simp only [Blk.base]; omega)]
    have hc := State.counted_govCount _ t hg
    rwa [Counted, hrg] at hc

/-- Below 95 % of it for 50 µs each region that the governor holds is raised. -/
theorem governorRaises (ht : t < s.stacks) (hcap : cap = if s.stacks = 8 then 216 * s.rgF (.pwr t) 0x000 10 5 else 8640)
    (ha : ∀ x, mfind s.power.govAt t = some x → x + 250 ≤ s.time.now) (hlt : p * 100 < cap * 95)
    (hb : ∃ x, mfind s.power.govBelow t = some x ∧ x + 12500 ≤ s.time.now)
    (hl : ∀ x, mfind s.power.govLast t = some x → x + 5000 ≤ s.time.now) :
    Answers (.governorMeasure t p) s (fun u => ∀ r, r / 256 = t → s.regionOn r = true → mget 16 s.power.govHold r < 16 →
        mget 16 u.power.govHold r = mget 16 s.power.govHold r + 1 ∧ u.regF r 14 10 = u.power.govStep r % 32) := by
  obtain ⟨m, hm, hx⟩ := exec_governor_of (p := p) ht ha hcap
  obtain ⟨x, hfx, hle⟩ := hb
  have hl' : ∀ x, mfind m.power.govLast t = some x → x + 5000 ≤ m.time.now := by
    rw [hm.power, hm.only.time]; exact hl
  rw [m.govActs_below hlt (x := x) (by rw [hm.power]; exact hfx) (by rw [hm.only.time]; exact hle) hl'] at hx
  refine ⟨_, hx, fun r hr hon h16 => ?_⟩
  have hhold : ∀ r, mget 16 m.power.govHold r = mget 16 s.power.govHold r := fun r => by rw [hm.power]
  have hbh : mget 16 (m.govBelowIs (mput m.power.govBelow t x)).power.govHold r = mget 16 s.power.govHold r := hhold r
  generalize m.govBelowIs (mput m.power.govBelow t x) = b at hx hbh
  have hmem : r ∈ ((stackRegions t).filter m.regionOn).filter (fun r => decide (mget 16 m.power.govHold r < 16)) := by
    rw [List.mem_filter, List.mem_filter, mem_stackRegions, hm.on, hhold]
    exact ⟨⟨hr, hon⟩, decide_eq_true h16⟩
  obtain ⟨k1, k2⟩ := State.foldl_govRaise _ (((nodup_stackRegions t).filter _).filter _) b r hmem
  rw [State.power_govCount, State.regF_govCount]
  generalize List.foldl State.govRaise b _ = w at k1 k2
  refine ⟨k1.trans ?_, (State.regF_congr (w.govStamp_regs ..) ..).trans (k2.trans ?_)⟩
  · rw [hbh]; omega
  · rw [Power.govStep_congr (p := w.power) (q := (w.govStamp t m.time.now).power) rfl rfl rfl]

theorem governorEarly {x : Nat} (ha : mfind s.power.govAt t = some x) (hlt : s.time.now < x + 250) :
    exec (.governorMeasure t p) s = .next s := by
  change execGovernorMeasure t p s = _
  rw [execGovernorMeasure]
  split
  · rfl
  · exact if_pos (by rw [State.past, ha]; simp; omega)

end Acts

end Sys2Proof.Machine
end


section
/-! PROOF. Steps of regions, droops, and the steps of a switch-on (R330, R331, R349, R353 to R356). O49. -/

namespace Sys2Proof.Machine

open Sys2Proof.Claims

/-! ## The step in effect, and the mesh clock that follows it -/

section Mesh

variable (s : State) (h r : Nat)

/-- The crossings of a half switch mode. -/
def State.crossed : State := { s with net := { s.net with crossing := mput s.net.crossing h 1 } }

theorem State.crossed_regs : (s.crossed h).regs = s.regs := rfl

theorem State.crossed_power : (s.crossed h).power = s.power := rfl

/-- The mesh clock of a half takes a step, and its crossings switch mode. -/
def State.meshSet (k : Nat) : State := (s.wgF (.msh (h / 2)) 0x000 (2 + 4 * (h % 2) + 3) (2 + 4 * (h % 2)) k).crossed h

theorem State.meshSync_eq : s.meshSync h =
    if s.rgF (.msh (h / 2)) 0x000 (2 + 4 * (h % 2) + 3) (2 + 4 * (h % 2)) = s.meshStep h - 1 then s else s.meshSet h (s.meshStep h - 1) := rfl

theorem State.regs_meshSet (k : Nat) : (s.meshSet h k).regs = (s.wgF (.msh (h / 2)) 0x000 (2 + 4 * (h % 2) + 3) (2 + 4 * (h % 2)) k).regs :=
  State.crossed_regs ..

theorem State.power_meshSync : (s.meshSync h).power = s.power := by
  rw [State.meshSync_eq]
  split
  · rfl
  · exact (State.crossed_power ..).trans (State.wgF_power ..)

theorem State.regsBut_meshSync : s.RegsBut (fun k => k = (Blk.msh (h / 2)).base + 0x000) (s.meshSync h) := by
  rw [State.meshSync_eq]
  exact .ite (.refl s) (.trans (t := s.wgF (.msh (h / 2)) 0x000 (2 + 4 * (h % 2) + 3) (2 + 4 * (h % 2)) (s.meshStep h - 1))
    (s.regsBut_wgF _ _ _ _ _ rfl) (.of_eq (State.regs_meshSet ..)))

theorem State.regF_meshSync (x hi lo : Nat) : (s.meshSync h).regF x hi lo = s.regF x hi lo :=
  (s.regsBut_meshSync h).rgF _ _ (by simp only [Blk.base]; omega)

theorem State.meshStep_congr {s t : State} (hr : ∀ x hi lo, t.regF x hi lo = s.regF x hi lo) (h : Nat) : t.meshStep h = s.meshStep h := by
  simp only [State.meshStep, State.clocked, hr]; rfl

/-- The clock's field shows the half's mesh step. -/
theorem State.clock_meshSync : (s.meshSync h).rgF (.msh (h / 2)) 0x000 (2 + 4 * (h % 2) + 3) (2 + 4 * (h % 2)) = ((s.meshSync h).meshStep h - 1) % 16 := by
  rw [State.meshStep_congr (s.regF_meshSync h), State.meshSync_eq]
  split
  · next he =>
    have hlt := getF_lt (2 + 4 * (h % 2) + 3) (2 + 4 * (h % 2)) (s.rg (.msh (h / 2)) 0x000)
    rw [show 2 + 4 * (h % 2) + 3 + 1 - (2 + 4 * (h % 2)) = 4 by omega] at hlt
    rw [← he]
    exact (Nat.mod_eq_of_lt hlt).symm
  · rw [State.rgF_congr (State.regs_meshSet ..), State.rgF_wgF_self _ _ _ _ _ _ (by omega), show 2 + 4 * (h % 2) + 3 + 1 - (2 + 4 * (h % 2)) = 4 by omega]
    rfl

theorem State.regF_setStep_self (k : Nat) : (s.setStep r k).regF r 9 5 = k % 32 := by
  rw [State.setStep, State.regF_meshSync]
  exact s.regF_setReg_self r 5 k (by omega)

theorem State.regF_setStep_apart (k x : Nat) {hi lo : Nat} (ha : x ≠ r ∨ hi < 5 ∨ 9 < lo) : (s.setStep r k).regF x hi lo = s.regF x hi lo := by
  rw [State.setStep, State.regF_meshSync]
  exact s.regF_setReg_apart _ _ _ (by omega) ha

theorem State.wantStep_lt : s.wantStep r < 32 := by
  have hlt : s.regF r 14 10 < 32 := getF_lt 14 10 (s.rg (.pwr (r / 256)) (0x100 + 4 * (r % 256)))
  rw [State.wantStep]; omega

end Mesh

/-! ## A change of step -/

theorem region_parts {t g r : Nat} (hg : g < 256) (hr : r = t * 256 + g) : r / 256 = t ∧ r % 256 = g ∧ regionHalf r / 2 = t := by
  unfold regionHalf; omega

/-- The state with the time of a region's last change of step. -/
def State.stepped (s : State) (r : Nat) : State := { s with power := { s.power with stepAt := mput s.power.stepAt r s.time.now } }

section Step

variable {s : State} {t g r : Nat}

theorem State.wantStep_stepped (s : State) (r : Nat) : (s.stepped r).wantStep r = s.wantStep r := rfl

theorem stepChanges (ht : t < s.stacks) (hg : g < 256) (hr : r = t * 256 + g) (hon : s.regionOn r = true) (hf : s.time.now % 4 = 0)
    (ha : ∀ x, mfind s.power.stepAt r = some x → x < s.time.now) :
    Answers (.stepChange t g) s (fun u =>
      u.regF r 9 5 = min (min (s.regF r 14 10) (s.regF r 19 15)) (s.thermStep (regionHalf r)) ∧
      u.rgF (.msh t) 0x000 (5 + 4 * (regionHalf r % 2)) (2 + 4 * (regionHalf r % 2)) = (u.meshStep (regionHalf r) - 1) % 16) := by
  obtain ⟨-, -, hh⟩ := region_parts hg hr
  have hp : s.past s.power.stepAt r 1 = true := s.past_iff.2 ha
  have hx : exec (.stepChange t g) s = .next ((s.stepped r).setStep r (s.wantStep r)) := by
    change execStepChange t g s = _
    rw [execStepChange, if_neg (by omega), ← hr]
    exact congrArg Host.Outcome.next (if_pos (by rw [hon, hp, hf]; rfl))
  refine ⟨_, hx, ?_, ?_⟩
  · rw [State.regF_setStep_self, Nat.mod_eq_of_lt (s.wantStep_lt r), State.wantStep]
  · rw [State.setStep]
    have hc := State.clock_meshSync ((s.stepped r).setReg r 9 5 (s.wantStep r)) (regionHalf r)
    rwa [hh, show 2 + 4 * (regionHalf r % 2) + 3 = 5 + 4 * (regionHalf r % 2) by omega] at hc

theorem stepNotDue (hf : s.time.now % 4 ≠ 0) : exec (.stepChange t g) s = .next s := by
  change execStepChange t g s = _
  rw [execStepChange]
  split
  · rfl
  · exact congrArg Host.Outcome.next (if_neg (by simp [hf]))

end Step

/-! ## Droops -/

/-- What a droop leaves in power control's record. -/
def State.drooped (s : State) (r below : Nat) : State :=
  { s with power := { s.power with late := mput s.power.late r (mget 0 s.power.late r + 2), sag := mput s.power.sag r (below, true) } }

theorem State.drooped_regs (s : State) (r below : Nat) : (s.drooped r below).regs = s.regs := rfl

theorem State.drooped_power (s : State) (r below : Nat) : (s.drooped r below).power =
    { s.power with late := mput s.power.late r (mget 0 s.power.late r + 2), sag := mput s.power.sag r (below, true) } := rfl

theorem State.stretch_regs (s : State) (r n : Nat) : (s.stretch r n).regs = (s.bump (.clk (r / 256)) (0x400 + 4 * (r % 256)) n).regs := rfl

theorem State.stretch_power (s : State) (r n : Nat) : (s.stretch r n).power = { s.power with droop := insNat s.power.droop r } := rfl

section Droop

variable {s : State} {t g r below : Nat}

theorem droopCounted (ht : t < s.stacks) (hg : g < 256) (hr : r = t * 256 + g) (hon : s.regionOn r = true)
    (hlt : s.rgF (.clk t) 0x004 7 0 < below) (hn : mfind s.power.sag r = none) :
    Answers (.droopCrossing t g below) s (fun u => r ∈ u.power.droop ∧ mget 0 u.power.late r = mget 0 s.power.late r + 2 ∧
        Counted s u (.clk t) (0x400 + 4 * g) 1) := by
  obtain ⟨ht', hg', -⟩ := region_parts hg hr
  have hd : s.droops r below = true := by rw [State.droops, ht']; exact decide_eq_true hlt
  have hx : exec (.droopCrossing t g below) s = .next ((s.stretch r 1).drooped r below) := by
    change execDroopCrossing t g below s = _
    rw [execDroopCrossing, if_neg (by omega), ← hr]
    dsimp only
    rw [if_neg (by simp [hon]), if_neg (by simp [hd]), hn]
    rfl
  refine ⟨_, hx, ?_, ?_, ?_⟩
  · rw [State.drooped_power, State.stretch_power]
    exact (mem_insNat ..).2 (.inl rfl)
  · rw [State.drooped_power, State.stretch_power]
    exact (mget_mput ..).trans (if_pos rfl)
  · have hc := s.counted_bump (.clk (r / 256)) (0x400 + 4 * (r % 256)) 1
    intro h
    rw [State.rg_congr (State.drooped_regs ..), State.rg_congr (State.stretch_regs ..)]
    rw [ht', hg'] at hc ⊢
    exact hc h

theorem droopEnds (ht : t < s.stacks) (hr : r = t * 256 + g) (hg : g < 256) (hon : s.regionOn r = true)
    (hle : below ≤ s.rgF (.clk t) 0x004 7 0) :
    Answers (.droopCrossing t g below) s (fun u => mfind u.power.sag r = none ∧ u = { s with power := u.power } ∧ u.power.late = s.power.late) := by
  obtain ⟨ht', -, -⟩ := region_parts hg hr
  have hd : s.droops r below = false := by rw [State.droops, ht']; exact decide_eq_false (by omega)
  refine ⟨{ s with power := { s.power with sag := merase s.power.sag r } }, ?_, (mfind_merase ..).trans (if_pos rfl), rfl, rfl⟩
  change execDroopCrossing t g below s = _
  rw [execDroopCrossing, if_neg (by omega), ← hr]
  dsimp only
  rw [if_neg (by simp [hon]), if_pos (by simp [hd])]

end Droop

end Sys2Proof.Machine
end


section
/-! PROOF. The steps of a switch-on, and the wait for headroom (R328, R330, R331, R347). O49. -/

namespace Sys2Proof.Machine

open Sys2Proof.Claims

/-! ## Closing a step -/

theorem merase_of_none {α : Type} {m : Map α} {i : Nat} (h : mfind m i = none) : merase m i = m := by
  have hne : ∀ e ∈ m, e.1 ≠ i := fun e he hi => absurd (mfind_isSome_of_mem he) (by simp [hi, h])
  clear h
  induction m with
  | nil => rfl
  | cons e m ih =>
    exact (if_neg (hne e List.mem_cons_self)).trans (congrArg _ (ih fun x hx => hne x (List.mem_cons_of_mem _ hx)))

/-- A wait for headroom that ends is counted in µs. -/
def State.waitCounted (s : State) (r : Nat) : State :=
  match mfind s.power.swWait r with
  | some t => { s.bump (.pwr (r / 256)) 0x804 ((s.time.now - t) / 250) with power := { s.power with swWait := merase s.power.swWait r } }
  | none => s

/-- The eighth step of a region has closed: the lowerings go, and the cap of a failed regulator applies. -/
def State.allClosed (s : State) (r : Nat) : State :=
  let w := s.unlower r
  (if w.regF r 3 3 = 1 then w.capRegion r else w).govSync (r / 256)

/-- One more step of a region is closed. -/
def State.oneClosed (s : State) (r : Nat) : State :=
  let n := s.regF r 23 20 + 1
  if n = 8 then (s.setReg r 23 20 n).allClosed r else s.setReg r 23 20 n

section Close

variable (s : State) (r : Nat)

theorem State.closeStep_eq : s.closeStep r = (s.waitCounted r).oneClosed r := rfl

theorem State.waitCounted_power : (s.waitCounted r).power = { s.power with swWait := merase s.power.swWait r } := by
  unfold State.waitCounted
  split
  · rfl
  · next h => rw [merase_of_none h]

theorem State.regsBut_waitCounted : s.RegsBut (fun k => tally k ∨ k = (Blk.pwr (r / 256)).base + 0x804) (s.waitCounted r) := by
  unfold State.waitCounted
  split
  · next t _ =>
    exact .trans (t := s.bump (.pwr (r / 256)) 0x804 ((s.time.now - t) / 250))
      (s.regsBut_bump (b := .pwr (r / 256)) trivial 0x804 ((s.time.now - t) / 250)) (.of_eq rfl)
  · exact .refl s

theorem State.counted_waitCounted {t : Nat} (h : mfind s.power.swWait r = some t) :
    Counted s (s.waitCounted r) (.pwr (r / 256)) 0x804 ((s.time.now - t) / 250) := by
  unfold State.waitCounted
  rw [h]
  exact s.counted_bump (.pwr (r / 256)) 0x804 ((s.time.now - t) / 250)

theorem State.regF_waitCounted (x hi lo : Nat) : (s.waitCounted r).regF x hi lo = s.regF x hi lo :=
  (s.regsBut_waitCounted r).rgF _ _ (by simp only [tally, Blk.base]; omega)

theorem State.power_unlower : (s.unlower r).power = { s.power with lowered := merase s.power.lowered r } :=
  State.foldl_same (fun u => u.power) (fun u x => u.govSet_power x) _ _

/-- The state with a cap kept, and the free value that it took. -/
def State.withCap (u : State) (d : Nat) (p : Power) : State := { u with drawn := d, power := p }

theorem State.withCap_regs (u : State) (d : Nat) (p : Power) : (u.withCap d p).regs = u.regs := rfl

theorem State.withCap_power (u : State) (d : Nat) (p : Power) : (u.withCap d p).power = p := rfl

/-- The cap of a region. -/
def State.capped (s : State) (r : Nat) : State :=
  (s.setReg r 4 4 1).withCap (s.drawn + 1) { s.power with
    capStep := mput s.power.capStep r ((mfind s.power.capStep r).getD (4 + (Config.freeWord s.drawn).toNat % 13)) }

theorem State.capRegion_eq : s.capRegion r = (s.capped r).govSet r := rfl

theorem State.capped_regs : (s.capped r).regs = (s.setReg r 4 4 1).regs := State.withCap_regs ..

theorem State.capped_swWait : (s.capped r).power.swWait = s.power.swWait := by rw [State.capped, State.withCap_power]

theorem State.swWait_allClosed : (s.allClosed r).power.swWait = s.power.swWait := by
  have hu : (s.unlower r).power.swWait = s.power.swWait := by rw [State.power_unlower]
  unfold State.allClosed
  dsimp only
  rw [State.govSync, State.wgB_power, apply_ite State.power, State.capRegion_eq, State.govSet_power, apply_ite Power.swWait, State.capped_swWait, ite_self, hu]

theorem State.regsBut_allClosed : s.RegsBut powerKey (s.allClosed r) := by
  refine .trans (s.regsBut_unlower r) (.trans (.ite ?_ (.refl _)) (State.regsBut_govSync _ _))
  exact .trans (t := (s.unlower r).capped r) (.trans (State.regsBut_setReg _ r 4 4 1) (.of_eq (State.capped_regs ..))) (State.regsBut_govSet _ r)

/-- The closed steps stay as they are where the eighth one has closed. -/
theorem State.regF_allClosed (x : Nat) {hi lo : Nat} (h : 14 < lo) : (s.allClosed r).regF x hi lo = s.regF x hi lo := by
  have hu : (s.unlower r).regF x hi lo = s.regF x hi lo := s.regF_unlower r x (.inr h)
  unfold State.allClosed
  dsimp only
  rw [State.regF_govSync]
  split
  · rw [State.capRegion_eq, State.regF_govSet _ _ _ (.inr h), State.regF_congr (State.capped_regs ..), State.regF_setReg_apart _ _ _ _ (by omega) (by omega), hu]
  · exact hu

theorem State.swWait_oneClosed : (s.oneClosed r).power.swWait = s.power.swWait := by
  unfold State.oneClosed
  dsimp only
  rw [apply_ite State.power, apply_ite Power.swWait, State.swWait_allClosed, State.setReg_power, ite_self]

theorem State.regsBut_oneClosed : s.RegsBut powerKey (s.oneClosed r) :=
  .ite ((s.regsBut_setReg r 23 20 _).trans (State.regsBut_allClosed _ r)) (s.regsBut_setReg r 23 20 _)

theorem State.steps_oneClosed (h : s.regF r 23 20 < 8) : (s.oneClosed r).regF r 23 20 = s.regF r 23 20 + 1 := by
  have hs : (s.setReg r 23 20 (s.regF r 23 20 + 1)).regF r 23 20 = s.regF r 23 20 + 1 := by
    rw [State.regF_setReg_self _ _ _ _ (by omega)]; omega
  unfold State.oneClosed
  dsimp only
  split
  · rw [State.regF_allClosed _ _ _ (by omega), hs]
  · exact hs

theorem State.steps_closeStep (h : s.regF r 23 20 < 8) : (s.closeStep r).regF r 23 20 = s.regF r 23 20 + 1 := by
  rw [State.closeStep_eq, State.steps_oneClosed _ _ (by rw [State.regF_waitCounted]; exact h), State.regF_waitCounted]

theorem State.swWait_closeStep : (s.closeStep r).power.swWait = merase s.power.swWait r := by
  rw [State.closeStep_eq, State.swWait_oneClosed, State.waitCounted_power]

theorem State.counted_closeStep {t : Nat} (h : mfind s.power.swWait r = some t) :
    Counted s (s.closeStep r) (.pwr (r / 256)) 0x804 ((s.time.now - t) / 250) := by
  intro hlt
  rw [State.closeStep_eq, (State.regsBut_oneClosed _ r).rg (by simp only [powerKey, Blk.base]; omega)]
  exact s.counted_waitCounted r h hlt

/-- A step before the eighth leaves the governor's requests. -/
theorem State.gov_closeStep (h : s.regF r 23 20 < 7) : (s.closeStep r).power = { s.power with swWait := merase s.power.swWait r } ∧
    ∀ x, (s.closeStep r).regF x 14 10 = s.regF x 14 10 := by
  have hw := s.regF_waitCounted r
  have hp := s.waitCounted_power r
  have hne : ¬ (s.waitCounted r).regF r 23 20 + 1 = 8 := by rw [hw]; omega
  rw [State.closeStep_eq, State.oneClosed]
  dsimp only
  rw [if_neg hne]
  refine ⟨(State.setReg_power ..).trans hp, fun x => ?_⟩
  rw [State.regF_setReg_apart _ _ _ _ (by omega) (by omega), hw]

theorem State.switchTurn_steps (h : s.switchTurn r = true) : s.regF r 23 20 < 8 := by
  simp only [State.switchTurn, Bool.and_eq_true, decide_eq_true_eq] at h
  omega

end Close

/-! ## A step, with headroom and without -/

section Switch

variable {s : State} {t g r cur : Nat} {peaks : List Nat}

theorem exec_switchOnStep (ht : t < s.stacks) (hg : g < 256) (hr : r = t * 256 + g) (hs : s.switchTurn r = true) :
    exec (.switchOnStep t g cur peaks) s = .next (if decide (cur < 324) && peaks.all (fun p => !neighbours g p) then s.closeStep r
      else { s with power := { s.power with
        swWait := if (mfind s.power.swWait r).isSome then s.power.swWait else mput s.power.swWait r s.time.now } }) := by
  change execSwitchOnStep t g cur peaks s = _
  rw [execSwitchOnStep, if_neg (by omega), ← hr]
  dsimp only
  rw [if_neg (by simp [hs])]

theorem stepCloses (ht : t < s.stacks) (hg : g < 256) (hr : r = t * 256 + g) (hs : s.switchTurn r = true) (hc : cur < 324)
    (hp : ∀ p ∈ peaks, neighbours g p = false) :
    Answers (.switchOnStep t g cur peaks) s (fun u => u.regF r 23 20 = s.regF r 23 20 + 1 ∧ mfind u.power.swWait r = none ∧
          ∀ x, mfind s.power.swWait r = some x → Counted s u (.pwr t) 0x804 ((s.time.now - x) / 250)) := by
  obtain ⟨ht', -, -⟩ := region_parts hg hr
  have hx := exec_switchOnStep (cur := cur) (peaks := peaks) ht hg hr hs
  rw [if_pos (by simpa [hc] using hp)] at hx
  refine ⟨_, hx, s.steps_closeStep r (s.switchTurn_steps r hs), ?_, fun x hw => ?_⟩
  · rw [State.swWait_closeStep, mfind_merase, if_pos rfl]
  · rw [← ht']
    exact s.counted_closeStep r hw

theorem stepWaits (ht : t < s.stacks) (hg : g < 256) (hr : r = t * 256 + g) (hs : s.switchTurn r = true)
    (hc : 324 ≤ cur ∨ ∃ p ∈ peaks, neighbours g p = true) :
    Answers (.switchOnStep t g cur peaks) s (fun u => u.regs = s.regs ∧
          mfind u.power.swWait r = some ((mfind s.power.swWait r).getD s.time.now)) := by
  have hx := exec_switchOnStep (cur := cur) (peaks := peaks) ht hg hr hs
  rw [if_neg] at hx
  · refine ⟨_, hx, rfl, ?_⟩
    dsimp only
    cases hw : mfind s.power.swWait r with
    | none => exact (mfind_mput ..).trans (if_pos rfl)
    | some x => exact hw
  · rw [Bool.and_eq_true, decide_eq_true_eq, List.all_eq_true]
    rintro ⟨h1, h2⟩
    rcases hc with hc | ⟨p, hp, hn⟩
    · omega
    · have := h2 p hp
      rw [hn] at this
      exact absurd this (by decide)

/-! ## The end of a wait -/

/-- Whom the governor lowers for a switch-on that has waited. -/
def State.yielding (s : State) (r : Nat) (peaks : List Nat) : List Nat :=
  let near := (neighboursOf r).filter (fun x => peaks.contains (x % 256) && s.regionOn x)
  if near = [] then (halfRegions (regionHalf r)).filter s.regionOn else near

/-- The lowerings kept for a switch-on, and counted. -/
def State.loweredFor (s : State) (r : Nat) (who : List Nat) : State :=
  { s.bump (.pwr (r / 256)) 0x808 who.length with power := { s.power with
    lowered := mput s.power.lowered r (((mfind s.power.lowered r).getD []) ++ who.map (fun x => (x, s.oneLower x))) } }

theorem State.loweredFor_regs (s : State) (r : Nat) (who : List Nat) :
    (s.loweredFor r who).regs = (s.bump (.pwr (r / 256)) 0x808 who.length).regs := rfl

theorem State.loweredFor_power (s : State) (r : Nat) (who : List Nat) : (s.loweredFor r who).power = { s.power with
    lowered := mput s.power.lowered r (((mfind s.power.lowered r).getD []) ++ who.map (fun x => (x, s.oneLower x))) } := rfl

theorem State.loweredFor_time (s : State) (r : Nat) (who : List Nat) : (s.loweredFor r who).time = s.time := by
  have h := s.onlyTraced_bump (.pwr (r / 256)) 0x808 who.length
  unfold State.OnlyTraced at h
  have ht : (s.bump (.pwr (r / 256)) 0x808 who.length).time = s.time := by rw [h]
  exact ht

/-- A region that has been lowered is asked for no more than one step below what it had. -/
theorem State.govStep_loweredFor (s : State) (r : Nat) {who : List Nat} {x : Nat} (h : x ∈ who) :
    (s.loweredFor r who).power.govStep x ≤ s.oneLower x := by
  rw [Power.govStep_eq, State.loweredFor_power]
  refine lowestOf_le_of_mem (e := (r, _)) (mem_of_mfind ((mfind_mput ..).trans (if_pos rfl))) ?_ _
  exact List.mem_append_right _ (List.mem_map.2 ⟨x, h, rfl⟩)

/-- The regions of a list stand at the governor's request once it has set them. -/
theorem State.foldl_govSet (l : List Nat) (s : State) {x : Nat} (h : x ∈ l) : (l.foldl State.govSet s).regF x 14 10 = s.power.govStep x % 32 := by
  induction l generalizing s with
  | nil => exact absurd h List.not_mem_nil
  | cons y l ih =>
    rw [List.foldl_cons]
    by_cases hx : x ∈ l
    · rw [ih _ hx, State.govSet_power]
    · obtain rfl := (List.mem_cons.1 h).resolve_right hx
      have hkeep : ∀ (l : List Nat), x ∉ l → ∀ u : State, (l.foldl State.govSet u).regF x 14 10 = u.regF x 14 10 := fun l => by
        induction l with
        | nil => exact fun _ _ => rfl
        | cons z l ih =>
          exact fun hn u => (ih (fun hm => hn (List.mem_cons_of_mem _ hm)) _).trans
            (u.regF_govSet_ne (by rintro rfl; exact hn List.mem_cons_self) _ _)
      rw [hkeep l hx, State.regF_govSet_self]

theorem exec_switchOnWaitExpiry {x : Nat} (ht : t < s.stacks) (hg : g < 256) (hr : r = t * 256 + g) (hs : s.switchTurn r = true)
    (hw : mfind s.power.swWait r = some x) (hd : x + 12500 ≤ s.time.now) :
    exec (.switchOnWaitExpiry t g peaks) s =
      .next ((((s.yielding r peaks).foldl State.govSet (s.loweredFor r (s.yielding r peaks))).govSync t).closeStep r) := by
  obtain ⟨ht', -, -⟩ := region_parts hg hr
  change execSwitchOnWaitExpiry t g peaks s = _
  rw [execSwitchOnWaitExpiry, if_neg (by omega), ← hr]
  dsimp only
  rw [hw]
  dsimp only
  rw [if_neg (by rw [hs]; simp; omega)]
  rw [State.loweredFor, ht']
  rfl

/-- What a wait's end does to the regions that yield. -/
theorem waitExpires {x : Nat} (ht : t < s.stacks) (hg : g < 256) (hr : r = t * 256 + g) (hs : s.switchTurn r = true)
    (hw : mfind s.power.swWait r = some x) (hd : x + 12500 ≤ s.time.now) (h7 : s.regF r 23 20 < 7) :
    Answers (.switchOnWaitExpiry t g peaks) s (fun u => u.regF r 23 20 = s.regF r 23 20 + 1 ∧
        Counted s u (.pwr t) 0x804 ((s.time.now - x) / 250) ∧
        ∀ y ∈ s.yielding r peaks, u.regF y 14 10 = u.power.govStep y ∧
          u.regF y 14 10 ≤ max 4 (min (s.regF y 14 10) (s.regF y 9 5) - 1)) := by
  obtain ⟨ht', -, -⟩ := region_parts hg hr
  refine ⟨_, exec_switchOnWaitExpiry (peaks := peaks) ht hg hr hs hw hd, ?_⟩
  generalize s.yielding r peaks = who
  have hb : s.RegsBut (fun k => tally k ∨ k = (Blk.pwr (r / 256)).base + 0x808) (s.loweredFor r who) :=
    .trans (t := s.bump (.pwr (r / 256)) 0x808 who.length)
      (s.regsBut_bump (b := .pwr (r / 256)) trivial 0x808 who.length) (.of_eq (s.loweredFor_regs r who))
  have hp := s.loweredFor_power r who
  have htm := s.loweredFor_time r who
  have hgs := fun y (hy : y ∈ who) => s.govStep_loweredFor r hy
  generalize s.loweredFor r who = v at hb hp htm hgs
  have hv : v.RegsBut powerKey ((who.foldl State.govSet v).govSync t) := .trans (.foldl (fun u y => u.regsBut_govSet y) _ _) (State.regsBut_govSync _ t)
  have hvp : ((who.foldl State.govSet v).govSync t).power = v.power := by
    rw [State.govSync, State.wgB_power]
    exact State.foldl_same (fun u => u.power) (fun u x => u.govSet_power x) _ _
  have hvt : ((who.foldl State.govSet v).govSync t).time = v.time := by
    rw [State.govSync, State.wgB_time]
    exact State.foldl_same (fun u => u.time) (fun u x => State.wgF_time ..) _ _
  have h2320 : ((who.foldl State.govSet v).govSync t).regF r 23 20 = s.regF r 23 20 := by
    rw [State.regF_govSync, State.foldl_same (fun u => u.regF r 23 20) (fun u x => u.regF_govSet x r (by omega))]
    exact hb.rgF _ _ (by simp only [tally, Blk.base]; omega)
  have hset : ∀ y ∈ who, ((who.foldl State.govSet v).govSync t).regF y 14 10 = v.power.govStep y % 32 := fun y hy => by
    rw [State.regF_govSync, State.foldl_govSet who v hy]
  generalize (who.foldl State.govSet v).govSync t = w at hv hvp hvt h2320 hset
  obtain ⟨hcp, hcr⟩ := w.gov_closeStep r (by rw [h2320]; exact h7)
  refine ⟨?_, ?_, fun y hy => ?_⟩
  · rw [w.steps_closeStep r (by rw [h2320]; omega), h2320]
  · have hrg : w.rg (.pwr (r / 256)) 0x804 = s.rg (.pwr (r / 256)) 0x804 := by
      rw [hv.rg (by simp only [powerKey, Blk.base]; omega), hb.rg (by simp only [tally, Blk.base]; omega)]
    have hc := w.counted_closeStep r (t := x) (by rw [hvp, hp]; exact hw)
    rw [Counted, hrg, hvt, htm, ht'] at hc
    exact hc
  · have hle := hgs y hy
    have hlt := s.oneLower_lt y
    have hgov : (w.closeStep r).power.govStep y = v.power.govStep y := by
      rw [hcp, ← hvp]
      exact Power.govStep_congr rfl rfl rfl
    rw [hcr, hset y hy, hgov, Nat.mod_eq_of_lt (by omega)]
    exact ⟨rfl, hle⟩

theorem mem_yielding_near {x : Nat} (h : x ∈ neighboursOf r) (hp : x % 256 ∈ peaks) (hon : s.regionOn x = true) : x ∈ s.yielding r peaks := by
  have hm : x ∈ (neighboursOf r).filter (fun x => peaks.contains (x % 256) && s.regionOn x) :=
    List.mem_filter.2 ⟨h, by simp [hp, hon]⟩
  unfold State.yielding
  dsimp only
  rwa [if_neg (List.ne_nil_of_mem hm)]

theorem mem_yielding_half {x : Nat} (hn : ∀ x ∈ neighboursOf r, x % 256 ∈ peaks → s.regionOn x = false) (h : x ∈ halfRegions (regionHalf r))
    (hon : s.regionOn x = true) : x ∈ s.yielding r peaks := by
  unfold State.yielding
  dsimp only
  rw [if_pos]
  · exact List.mem_filter.2 ⟨h, hon⟩
  · refine List.filter_eq_nil_iff.2 fun x hx => ?_
    rw [Bool.and_eq_true, List.contains_iff_mem]
    rintro ⟨hp, ho⟩
    rw [hn x hx hp] at ho
    exact absurd ho (by decide)

end Switch

end Sys2Proof.Machine
end


section
/-! PROOF. A region that comes on, and the periods and reports of Trim (R331, R337 to R346). O49. -/

namespace Sys2Proof.Machine

open Sys2Proof.Claims

/-! ## The standing step -/

theorem foldl_max_le {l : List Nat} {a b : Nat} (ha : a ≤ b) (h : ∀ x ∈ l, x ≤ b) : l.foldl max a ≤ b := by
  induction l generalizing a with
  | nil => exact ha
  | cons x l ih => exact ih (max_le ha (h x List.mem_cons_self)) fun y hy => h y (List.mem_cons_of_mem _ hy)

theorem le_foldl_max (l : List Nat) (a : Nat) : a ≤ l.foldl max a := by
  induction l generalizing a with
  | nil => exact le_rfl
  | cons x l ih => exact (le_max_left a x).trans (ih _)

theorem standingStep_bounds (p hi n load : Nat) : 4 ≤ standingStep p hi n load ∧ standingStep p hi n load ≤ 16 := by
  refine ⟨le_foldl_max _ _, foldl_max_le (by omega) fun x hx => ?_⟩
  have h := (mem_upTo ..).1 (List.mem_of_mem_filter hx)
  omega

section Standing

variable (s : State)

/-- A field of the regions of a list takes a value, and the others keep theirs. -/
theorem State.regF_foldl_setReg (l : List Nat) (k r : Nat) :
    (l.foldl (fun t r => t.setReg r 19 15 k) s).regF r 19 15 = if r ∈ l then k % 32 else s.regF r 19 15 := by
  induction l generalizing s with
  | nil => exact (if_neg List.not_mem_nil).symm
  | cons x l ih =>
    rw [List.foldl_cons, ih]
    by_cases hl : r ∈ l
    · rw [if_pos hl, if_pos (List.mem_cons_of_mem _ hl)]
    · rw [if_neg hl]
      by_cases hx : r = x
      · subst hx
        rw [if_pos List.mem_cons_self, State.regF_setReg_self _ _ _ _ (by omega)]
        rfl
      · rw [State.regF_setReg_apart _ _ _ _ (by omega) (.inl hx), if_neg (by simp [hx, hl])]

theorem State.regF_foldl_setReg_apart (l : List Nat) (k r : Nat) {hi lo : Nat} (h : hi < 15 ∨ 19 < lo) :
    (l.foldl (fun t r => t.setReg r 19 15 k) s).regF r hi lo = s.regF r hi lo :=
  State.foldl_same (fun u => u.regF r hi lo) (fun u x => u.regF_setReg_apart x r k (by omega) (.inr h)) l s

/-- Regions with no block, which Trim's standing step is for. -/
def State.standing (s : State) : List Nat := s.allRegions.filter (fun r => s.regionOn r && !s.regionBusy r)

theorem State.standIdle_of_none (h : s.power.trimSeen = none) : s.standIdle = s := by
  unfold State.standIdle
  rw [h]

theorem State.standIdle_of_some {p hi load : Nat} (h : s.power.trimSeen = some (p, hi, load)) :
    s.standIdle = s.standing.foldl (fun t r => t.setReg r 19 15 (standingStep p hi s.standing.length load)) s := by
  unfold State.standIdle
  rw [h]
  rfl

theorem State.regF_standIdle_apart (r : Nat) {hi lo : Nat} (h : hi < 15 ∨ 19 < lo) : s.standIdle.regF r hi lo = s.regF r hi lo := by
  cases hs : s.power.trimSeen with
  | none => rw [s.standIdle_of_none hs]
  | some x => rw [s.standIdle_of_some (p := x.1) (hi := x.2.1) (load := x.2.2) hs, State.regF_foldl_setReg_apart _ _ _ _ h]

theorem State.power_standIdle : s.standIdle.power = s.power := by
  cases hs : s.power.trimSeen with
  | none => rw [s.standIdle_of_none hs]
  | some x =>
    rw [s.standIdle_of_some (p := x.1) (hi := x.2.1) (load := x.2.2) hs]
    exact State.foldl_same (fun u => u.power) (fun u x => u.setReg_power _ _ _ _) _ _

/-- Where a region stands at 16, Trim leaves it there or gives it the standing step. -/
theorem State.regF_standIdle {r : Nat} (h : s.regF r 19 15 = 16) :
    (4 ≤ s.standIdle.regF r 19 15 ∧ s.standIdle.regF r 19 15 ≤ 16) ∧
    ∀ p hi load, s.power.trimSeen = some (p, hi, load) → r ∈ s.standing → ∃ n, s.standIdle.regF r 19 15 = standingStep p hi n load := by
  cases hs : s.power.trimSeen with
  | none =>
    rw [s.standIdle_of_none hs, h]
    exact ⟨by omega, fun _ _ _ h => nomatch h⟩
  | some x =>
    obtain ⟨p, hi, load⟩ := x
    have hb := standingStep_bounds p hi s.standing.length load
    rw [s.standIdle_of_some hs, State.regF_foldl_setReg]
    refine ⟨?_, ?_⟩
    · split
      · omega
      · omega
    · rintro _ _ _ ⟨⟩ hm
      rw [if_pos hm]
      exact ⟨_, Nat.mod_eq_of_lt (by omega)⟩

end Standing

/-! ## A region comes on -/

/-- A region runs, and asks for step 16. -/
def State.runs (s : State) (r : Nat) : State := (s.setReg r 1 0 2).setReg r 19 15 16

section On

variable {s : State} {t g r : Nat}

theorem State.regF_runs (s : State) (r : Nat) : (s.runs r).regF r 1 0 = 2 ∧ (s.runs r).regF r 19 15 = 16 ∧ (s.runs r).regF r 14 10 = s.regF r 14 10 := by
  refine ⟨?_, ?_, ?_⟩
  · rw [State.runs, State.regF_setReg_apart _ _ _ _ (by omega) (by omega), State.regF_setReg_self _ _ _ _ (by omega)]
    rfl
  · rw [State.runs, State.regF_setReg_self _ _ _ _ (by omega)]
    rfl
  · rw [State.runs, State.regF_setReg_apart _ _ _ _ (by omega) (by omega), State.regF_setReg_apart _ _ _ _ (by omega) (by omega)]

theorem State.power_runs (s : State) (r : Nat) : (s.runs r).power = s.power := by rw [State.runs, State.setReg_power, State.setReg_power]

theorem State.onlyPower_runs (s : State) (r : Nat) : s.OnlyPower (s.runs r) := (s.onlyPower_setReg ..).trans (State.onlyPower_setReg ..)

theorem State.OnlyPower.regionBusy {s u : State} (h : s.OnlyPower u) (r : Nat) : u.regionBusy r = s.regionBusy r := by
  have hc : u.cores = s.cores := by unfold State.OnlyPower at h; rw [h]
  simp only [State.regionBusy, State.core, hc]

theorem State.mem_standing_runs (s : State) {r : Nat} (hr : r / 256 < s.stacks) (hb : s.regionBusy r = false) : r ∈ (s.runs r).standing := by
  have ho := s.onlyPower_runs r
  refine List.mem_filter.2 ⟨(mem_upTo ..).2 ?_, ?_⟩
  · rw [ho.stacks]; omega
  · rw [ho.regionBusy, hb, State.regionOn, (s.regF_runs r).1]
    rfl

theorem regionComesOn (ht : t < s.stacks) (hg : g < 256) (hr : r = t * 256 + g) (h1 : s.regF r 1 0 = 1) (h8 : s.regF r 23 20 = 8) :
    Answers (.regionOn t g) s (fun u => u.regionOn r = true ∧
      (s.power.trimEnabled = false → u.regF r 19 15 = 16 ∧
        u.regF r 9 5 = min (min (s.regF r 14 10) 16) (s.thermStep (regionHalf r))) ∧
      (s.power.trimEnabled = true → 4 ≤ u.regF r 19 15 ∧ u.regF r 19 15 ≤ 16 ∧
        ∀ p hi load, s.power.trimSeen = some (p, hi, load) → s.regionBusy r = false → ∃ n, u.regF r 19 15 = standingStep p hi n load)) := by
  obtain ⟨ht', -, -⟩ := region_parts hg hr
  have hx : exec (.regionOn t g) s = .next
      (((if s.power.trimEnabled then (s.runs r).standIdle else s.runs r).setStep r
        ((if s.power.trimEnabled then (s.runs r).standIdle else s.runs r).wantStep r)).govSync t) := by
    change execRegionOn t g s = _
    rw [execRegionOn, if_neg (by omega), ← hr]
    dsimp only
    rw [if_pos ⟨h1, h8⟩]
    rfl
  refine ⟨_, hx, ?_⟩
  obtain ⟨k1, k2, k3⟩ := s.regF_runs r
  have hst := (s.runs r).regF_standIdle k2
  have hmem := s.mem_standing_runs (r := r) (by omega)
  have hp := s.power_runs r
  generalize s.runs r = v at k1 k2 k3 hst hmem hp
  have hon : (if s.power.trimEnabled then v.standIdle else v).regF r 1 0 = 2 := by
    split
    · rw [State.regF_standIdle_apart _ _ (by omega), k1]
    · exact k1
  refine ⟨?_, fun hf => ?_, fun he => ?_⟩
  · rw [State.regionOn, State.regF_govSync, State.regF_setStep_apart _ _ _ _ (by omega), hon]
    rfl
  · rw [hf, if_neg (by decide), State.regF_govSync, State.regF_govSync, State.regF_setStep_apart _ _ _ _ (by omega), State.regF_setStep_self,
      Nat.mod_eq_of_lt (v.wantStep_lt r), State.wantStep, State.thermStep, hp, k2, k3]
    exact ⟨rfl, rfl⟩
  · rw [he, if_pos rfl, State.regF_govSync, State.regF_setStep_apart _ _ _ _ (by omega)]
    rw [hp] at hst
    exact ⟨hst.1.1, hst.1.2, fun p hi load h hb => hst.2 p hi load h (hmem hb)⟩

end On

/-! ## A period of Trim -/

/-- What the end of a period leaves in power control's record. -/
def State.periodEnded (s : State) (p : Nat) : State :=
  { s with power := { s.power with
    trimSum := (if s.time.now % 250000 = 25000 then 0 else s.power.trimSum) + p
    trimN := (if s.time.now % 250000 = 25000 then 0 else s.power.trimN) + 1
    droop := (s.power.sag.map (·.1)).foldl insNat [], trimLast := some s.time.now } }

/-- What Trim moves towards its target: the new state, and what is left to move. -/
def State.trimMoved (s : State) (m : TrimMeas) (p hi lo : Nat) : TrimAcc :=
  let u := State.standIdle { s with power := { s.power with trimSeen := some (m.power, hi / 10000, m.idleLoad) } }
  if hi < p then u.trimLower m (cdiv (p - hi) 10000)
  else if p < lo then u.trimRaise m (cdiv (lo - p) 10000)
  else ((trimRelease (cdiv lo 10000) (hi / 10000) (u.trimUnits m) (u, m.power)).1, 0)

/-- The flags of R345. -/
def State.trimFlagged (s : State) (p hi lo left : Nat) : State :=
  let u := (s.trimFlag 3 (decide (p < lo) && decide (0 < left))).trimFlag 4 (decide (hi < p) && decide (0 < left))
  u.trimFlag 5 u.overridden

/-- The target of a period, kept. -/
def State.trimAims (s : State) (r : Nat) : State := { s with power := { s.power with trimR := some r, trimRot := s.power.trimRot + 1 } }

/-- The target of a period, kept and shown. -/
def State.trimShown (s : State) (r : Nat) : State := (s.trimAims r).wgF .trim 0x014 15 0 (r / 10000)

section Trim

variable (s : State)

theorem State.trimAims_regs (r : Nat) : (s.trimAims r).regs = s.regs := rfl

theorem State.regs_trimIdle : s.trimIdle.regs = s.regs := rfl

theorem State.power_trimIdle : s.trimIdle.power = { s.power with idleSince := s.trimIdle.power.idleSince } := rfl

theorem State.time_trimIdle : s.trimIdle.time = s.time := rfl

theorem State.periodEnded_regs (p : Nat) : (s.periodEnded p).regs = s.regs := rfl

theorem trimPeriodNotDue {m : TrimMeas} (h : s.time.running = false ∨ s.time.now % 25000 ≠ 0) : exec (.trimPeriod m) s = .next s := by
  change execTrimPeriod m s = _
  rw [execTrimPeriod, if_pos]
  rw [State.trimDue]
  rcases h with h | h <;> simp [h]

theorem exec_trimPeriod {m : TrimMeas} (h : s.trimDue = true) (hp : s.power.trimPending = none) : exec (.trimPeriod m) s =
    .next ((if s.power.trimEnabled then s.trimIdle.trimLoop m else s.trimIdle).periodEnded m.power) := by
  change execTrimPeriod m s = _
  have hp' : s.trimIdle.power.trimPending = none := hp
  have he : s.trimIdle.power.trimEnabled = s.power.trimEnabled := rfl
  rw [execTrimPeriod, if_neg (by simp [h])]
  dsimp only
  rw [hp']
  dsimp only
  rw [he]
  rfl

theorem trimPeriodOff {m : TrimMeas} (h : s.trimDue = true) (hp : s.power.trimPending = none) (he : s.power.trimEnabled = false) :
    Answers (.trimPeriod m) s (fun u => u.regs = s.regs ∧
        (s.time.now % 250000 ≠ 25000 → u.power.trimSum = s.power.trimSum + m.power ∧ u.power.trimN = s.power.trimN + 1) ∧
        (s.time.now % 250000 = 25000 → u.power.trimSum = m.power ∧ u.power.trimN = 1) ∧
        (s.power.sag = [] → u.power.droop = [])) := by
  have hx := exec_trimPeriod s (m := m) h hp
  rw [he] at hx
  refine ⟨s.trimIdle.periodEnded m.power, hx, rfl, fun hn => ?_, fun hn => ?_, fun hs => ?_⟩
  · exact ⟨congrArg (· + m.power) (if_neg hn), congrArg (· + 1) (if_neg hn)⟩
  · exact ⟨(congrArg (· + m.power) (if_pos hn)).trans (Nat.zero_add _), (congrArg (· + 1) (if_pos hn)).trans (Nat.zero_add _)⟩
  · change (s.power.sag.map (·.1)).foldl insNat [] = []
    rw [hs]
    rfl

theorem trimBand_still (setp flr p r : Nat) :
    trimBand setp flr 0 p r = (setp, min flr setp, min (max p (min flr setp)) setp) := rfl

/-- Trim's loop without a ramp, of a Trim that is not being released. -/
theorem State.trimLoop_of {m : TrimMeas} {setp flr : Nat} (hrel : s.rgB .trim 0x000 1 = false) (hset : setp = s.rgF .trim 0x004 15 0)
    (hflr : flr = s.rgF .trim 0x00C 15 0) (hramp : s.rgF .trim 0x008 15 0 = 0) {x : TrimAcc}
    (hx : x = s.trimMoved m (m.power * 10000) (setp * 80000) (min (flr * 80000) (setp * 80000))) :
    s.trimLoop m = (x.1.trimFlagged (m.power * 10000) (setp * 80000) (min (flr * 80000) (setp * 80000)) x.2).trimShown
      (min (max (m.power * 10000) (min (flr * 80000) (setp * 80000))) (setp * 80000)) := by
  unfold State.trimLoop
  rw [hrel, hramp, ← hset, ← hflr]
  simp only [Bool.false_eq_true, if_false, trimBand_still, Bool.false_and]
  subst hx
  rfl

theorem State.rgB_trim_adminEvent (i o k : Nat) (ho : o < 0x10000) : (s.adminEvent i).rgB .trim o k = s.rgB .trim o k :=
  (s.regsBut_adminEvent i).rgB _ (by simp only [eventKey, tally, Blk.base]; omega)

theorem State.rgB_trimFlag_self (i : Nat) (v : Bool) (hi : i < 32) : (s.trimFlag i v).rgB .trim 0x000 i = v := by
  unfold State.trimFlag
  dsimp only
  rw [apply_ite (fun u : State => u.rgB .trim 0x000 i), State.rgB_trim_adminEvent _ _ _ _ (by omega), ite_self, State.rgB_wgB_self _ _ _ _ _ hi]

theorem State.rgB_trimFlag_ne {i k : Nat} (v : Bool) (hi : i < 32) (hk : k ≠ i) : (s.trimFlag i v).rgB .trim 0x000 k = s.rgB .trim 0x000 k := by
  unfold State.trimFlag
  dsimp only
  rw [apply_ite (fun u : State => u.rgB .trim 0x000 k), State.rgB_trim_adminEvent _ _ _ _ (by omega), ite_self]
  exact State.rgB_wgB_ne_bit _ _ _ _ _ _ hi hk

/-- A draw above the target that nothing could bring down is flagged. -/
theorem State.rgB_trimFlagged {p hi lo left : Nat} (h : hi < p) (hl : 0 < left) : (s.trimFlagged p hi lo left).rgB .trim 0x000 4 = true := by
  unfold State.trimFlagged
  dsimp only
  rw [State.rgB_trimFlag_ne _ (i := 5) _ (by omega) (by omega), State.rgB_trimFlag_self _ _ _ (by omega)]
  simp [h, hl]

theorem State.trimShown_target (r : Nat) : (s.trimShown r).rgF .trim 0x014 15 0 = r / 10000 % 2 ^ 16 := by
  rw [State.trimShown, State.rgF_wgF_self _ _ _ _ _ _ (by omega)]

theorem State.trimShown_status (r k : Nat) : (s.trimShown r).rgB .trim 0x000 k = s.rgB .trim 0x000 k := by
  rw [State.trimShown, State.rgB, State.rg_wgF, if_neg (by decide), State.rg_congr (State.trimAims_regs ..), State.rgB]

theorem trimRounds_nil (down : Bool) (unit n : Nat) (x : TrimAcc) : trimRounds down unit [] n x = x := by
  induction n with
  | zero => rfl
  | succ n ih => exact ih

/-- With nothing that runs there is nothing to lower. -/
theorem State.trimLower_off {m : TrimMeas} {e : Nat} (h : ∀ r ∈ s.allRegions, s.regionOn r = false) : s.trimLower m e = (s, e) := by
  have hn : s.allRegions.filter s.regionOn = [] := List.filter_eq_nil_iff.2 fun r hr => by rw [h r hr]; decide
  have hrot : s.rotation [] = [] := by rw [State.rotation]; simp
  unfold State.trimLower
  rw [hn]
  simp only [List.filter_nil, hrot, trimRounds_nil]
  rfl

theorem State.standIdle_off (h : ∀ r ∈ s.allRegions, s.regionOn r = false) : s.standIdle = s := by
  have hn : s.standing = [] := List.filter_eq_nil_iff.2 fun r hr => by rw [h r hr]; exact Bool.false_ne_true
  cases hs : s.power.trimSeen with
  | none => exact s.standIdle_of_none hs
  | some x => rw [s.standIdle_of_some (p := x.1) (hi := x.2.1) (load := x.2.2) hs, hn]; rfl

theorem State.trimMoved_off {m : TrimMeas} {p hi lo : Nat} (h : ∀ r ∈ s.allRegions, s.regionOn r = false) (hlt : hi < p) :
    (s.trimMoved m p hi lo).2 = cdiv (p - hi) 10000 := by
  have hs : ∀ u : State, u.regs = s.regs → u.part = s.part → (∀ r ∈ u.allRegions, u.regionOn r = false) := fun u hu hp r hr => by
    have hst : u.allRegions = s.allRegions := by rw [State.allRegions, State.allRegions, State.stacks, State.stacks, hp]
    rw [State.regionOn_congr (State.regF_congr hu r 1 0)]
    exact h r (hst ▸ hr)
  have ho := hs { s with power := { s.power with trimSeen := some (m.power, hi / 10000, m.idleLoad) } } rfl rfl
  rw [State.trimMoved]
  dsimp only
  rw [if_pos hlt, State.standIdle_off _ ho, State.trimLower_off _ ho]

theorem trimPeriodRuns {m : TrimMeas} {setp flr : Nat} (hset : setp = s.rgF .trim 0x004 15 0) (hflr : flr = s.rgF .trim 0x00C 15 0)
    (h : s.trimDue = true) (he : s.power.trimEnabled = true) (hp : s.power.trimPending = none)
    (hrel : s.rgB .trim 0x000 1 = false) (hramp : s.rgF .trim 0x008 15 0 = 0) :
    Answers (.trimPeriod m) s (fun u =>
          u.rgF .trim 0x014 15 0 = min (max m.power (8 * min flr setp)) (8 * setp) % 2 ^ 16 ∧
          ((∀ r < s.stacks * 256, s.regionOn r = false) → 8 * setp < m.power → u.rgB .trim 0x000 4 = true)) := by
  have hx := exec_trimPeriod s (m := m) h hp
  have hir := s.regs_trimIdle
  have hst : s.trimIdle.allRegions = s.allRegions := rfl
  rw [he, if_pos rfl] at hx
  generalize s.trimIdle = i at hx hir hst
  rw [i.trimLoop_of (setp := setp) (flr := flr) (by rw [State.rgB, State.rg_congr hir]; exact hrel) (by rw [State.rgF_congr hir]; exact hset)
    (by rw [State.rgF_congr hir]; exact hflr) (by rw [State.rgF_congr hir]; exact hramp) rfl] at hx
  have hleft : (∀ r < s.stacks * 256, s.regionOn r = false) → setp * 80000 < m.power * 10000 →
      0 < (i.trimMoved m (m.power * 10000) (setp * 80000) (min (flr * 80000) (setp * 80000))).2 := fun hoff hlt => by
    rw [i.trimMoved_off (fun r hr => ?_) hlt, cdiv]
    · omega
    · rw [State.regionOn_congr (State.regF_congr hir r 1 0)]
      exact hoff r (by rw [hst] at hr; simpa [State.allRegions, mem_upTo] using hr)
  generalize i.trimMoved m (m.power * 10000) (setp * 80000) (min (flr * 80000) (setp * 80000)) = x at hx hleft
  refine ⟨_, hx, ?_, fun hoff hlt => ?_⟩
  · rw [State.rgF_congr (State.periodEnded_regs ..), State.trimShown_target]
    congr 1
    omega
  · rw [State.rgB, State.rg_congr (State.periodEnded_regs ..), ← State.rgB, State.trimShown_status, State.rgB_trimFlagged _ (by omega) (hleft hoff (by omega))]

end Trim

end Sys2Proof.Machine
end


section
/-! PROOF. Trim's report, a phase that fails, a power fault (R324, R344, R348, R350, R409), and O49. -/

namespace Sys2Proof.Machine

open Sys2Proof.Claims

/-! ## Trim's report -/

/-- The sums of a millisecond start anew. -/
def State.sumsAnew (s : State) : State := { s with power := { s.power with trimSum := 0, trimN := 0 } }

/-- The average of a millisecond, its number and its time are shown, and the sums start anew. -/
def State.averaged (s : State) : State :=
  let t := s.wgF .trim 0x018 15 0 (s.power.trimSum / s.power.trimN)
  let t := t.wgF .trim 0x018 31 16 (t.rgF .trim 0x018 31 16 + 1)
  (t.wg64 .trim 0x020 t.time.now).sumsAnew

/-- The payload of a report. -/
def State.reportBytes (s : State) : List Byte :=
  traceBytes s.time.now (toBytes 4 (s.rgF .trim 0x018 15 0) ++ toBytes 4 (s.rgF .trim 0x014 15 0) ++ toBytes 4 (s.rgF .trim 0x000 5 0)) 4 0 0xFFF

/-- The count of periods that missed their target. -/
def State.missCounted (s : State) : State := if s.rgB .trim 0x000 3 || s.rgB .trim 0x000 4 then s.bump .trim 0x100 1 else s

/-- The count of those in which another governor held a region. -/
def State.overrideCounted (s : State) : State := if s.rgB .trim 0x000 5 then s.bump .trim 0x104 1 else s

/-- The counts of a report. -/
def State.missesCounted (s : State) : State := s.missCounted.overrideCounted

section Report

variable (s : State)

theorem State.sumsAnew_regs : s.sumsAnew.regs = s.regs := rfl

theorem State.sumsAnew_power : s.sumsAnew.power = { s.power with trimSum := 0, trimN := 0 } := rfl

theorem State.averaged_rgF_low : s.averaged.rgF .trim 0x018 15 0 = s.power.trimSum / s.power.trimN % 2 ^ 16 := by
  unfold State.averaged
  dsimp only
  rw [State.rgF_congr (State.sumsAnew_regs _), State.rgF, State.rg_wg64_ne _ _ (by decide) (by decide), ← State.rgF,
    State.rgF_wgF_of_disjoint _ _ _ _ _ _ _ _ (by omega) (by omega), State.rgF_wgF_self _ _ _ _ _ _ (by omega)]

theorem State.averaged_rgF_high : s.averaged.rgF .trim 0x018 31 16 = (s.rgF .trim 0x018 31 16 + 1) % 2 ^ 16 := by
  unfold State.averaged
  dsimp only
  rw [State.rgF_congr (State.sumsAnew_regs _), State.rgF, State.rg_wg64_ne _ _ (by decide) (by decide), ← State.rgF,
    State.rgF_wgF_self _ _ _ _ _ _ (by omega), State.rgF_wgF_of_disjoint _ _ _ _ _ _ _ _ (by omega) (by omega)]

theorem State.averaged_time : s.averaged.rg64 .trim 0x020 = s.time.now % 2 ^ 64 := by
  unfold State.averaged
  dsimp only
  rw [State.rg64, State.rg_congr (State.sumsAnew_regs _), State.rg_congr (State.sumsAnew_regs _), ← State.rg64, State.rg64_wg64_self, State.wgF_time, State.wgF_time]

theorem State.averaged_power : s.averaged.power = { s.power with trimSum := 0, trimN := 0 } := by
  unfold State.averaged
  dsimp only
  rw [State.sumsAnew_power, State.wg64_power, State.wgF_power, State.wgF_power]

/-- What a report writes of Trim's registers. -/
def reportKey (k : Nat) : Prop := k = Blk.trim.base + 0x018 ∨ k = Blk.trim.base + 0x020 ∨ k = Blk.trim.base + (0x020 + 4)

theorem State.regsBut_averaged : s.RegsBut reportKey s.averaged := by
  have h1 := s.regsBut_wgF .trim 0x018 15 0 (s.power.trimSum / s.power.trimN) (K := reportKey) (.inl rfl)
  unfold State.averaged
  dsimp only
  generalize s.wgF .trim 0x018 15 0 (s.power.trimSum / s.power.trimN) = a at h1 ⊢
  have h2 := a.regsBut_wgF .trim 0x018 31 16 (a.rgF .trim 0x018 31 16 + 1) (K := reportKey) (.inl rfl)
  generalize a.wgF .trim 0x018 31 16 (a.rgF .trim 0x018 31 16 + 1) = b at h2 ⊢
  have h3 := b.regsBut_wg64 .trim 0x020 b.time.now (K := reportKey) (.inr (.inl rfl)) (.inr (.inr rfl))
  exact h1.trans (h2.trans (h3.trans (.of_eq (State.sumsAnew_regs _))))

/-- A count of Trim's changes that count alone, beside the trace's registers. -/
theorem State.regsBut_missCounted : s.RegsBut (fun k => tally k ∨ k = Blk.trim.base + 0x100) s.missCounted :=
  .ite (s.regsBut_bump (b := .trim) trivial 0x100 1) (.refl s)

theorem State.regsBut_overrideCounted : s.RegsBut (fun k => tally k ∨ k = Blk.trim.base + 0x104) s.overrideCounted :=
  .ite (s.regsBut_bump (b := .trim) trivial 0x104 1) (.refl s)

/-- The keys of a report's counts. -/
def missKey (k : Nat) : Prop := tally k ∨ k = Blk.trim.base + 0x100 ∨ k = Blk.trim.base + 0x104

theorem State.regsBut_missesCounted : s.RegsBut missKey s.missesCounted :=
  (s.regsBut_missCounted.mono fun _ h => h.imp_right .inl).trans (s.missCounted.regsBut_overrideCounted.mono fun _ h => h.imp_right .inr)

theorem State.counted_misses :
    (s.rgB .trim 0x000 3 = true ∨ s.rgB .trim 0x000 4 = true → Counted s s.missesCounted .trim 0x100 1) ∧
      (s.rgB .trim 0x000 5 = true → Counted s s.missesCounted .trim 0x104 1) := by
  have h1 := s.regsBut_missCounted
  have h2 := s.missCounted.regsBut_overrideCounted
  refine ⟨fun h hlt => ?_, fun h => ?_⟩
  · rw [State.missesCounted, h2.rg (by simp only [tally, Blk.base]; omega), State.missCounted, if_pos (by simpa using h)]
    exact s.counted_bump .trim 0x100 1 hlt
  · have hb : s.missCounted.rgB .trim 0x000 5 = true := by rw [h1.rgB _ (by simp only [tally, Blk.base]; omega), h]
    have hc := s.missCounted.counted_bump .trim 0x104 1
    rw [Counted, h1.rg (by simp only [tally, Blk.base]; omega)] at hc
    rwa [State.missesCounted, State.overrideCounted, if_pos hb]

theorem State.power_missesCounted : s.missesCounted.power = s.power := by
  have hb : ∀ u : State, ∀ o, (u.bump .trim o 1).power = u.power := fun u o => u.power_bump .trim o 1
  rw [State.missesCounted, State.overrideCounted, apply_ite State.power, hb, ite_self, State.missCounted, apply_ite State.power, hb, ite_self]

theorem exec_trimReport (h : s.time.now % 250000 = 0) (hn : s.power.trimN = 10) : exec .trimReport s =
    .next (s.averaged.missesCounted.traceEvery 3 (s.averaged.missesCounted.reportBytes)) := by
  change execTrimReport s = _
  rw [execTrimReport, if_neg (by omega)]
  rfl

theorem trimReports (h : s.time.now % 250000 = 0) (hn : s.power.trimN = 10) : Answers .trimReport s (fun u =>
      u.rgF .trim 0x018 15 0 = s.power.trimSum / 10 % 2 ^ 16 ∧
      u.rgF .trim 0x018 31 16 = (s.rgF .trim 0x018 31 16 + 1) % 2 ^ 16 ∧ u.rg64 .trim 0x020 = s.time.now % 2 ^ 64 ∧
      u.power.trimSum = 0 ∧ u.power.trimN = 0 ∧
      (s.rgB .trim 0x000 3 = true ∨ s.rgB .trim 0x000 4 = true → Counted s u .trim 0x100 1) ∧ (s.rgB .trim 0x000 5 = true → Counted s u .trim 0x104 1)) := by
  have hx := exec_trimReport s h hn
  have h1 := s.averaged_rgF_low
  have h2 := s.averaged_rgF_high
  have h3 := s.averaged_time
  have hp := s.averaged_power
  have hr := s.regsBut_averaged
  rw [hn] at h1
  generalize s.averaged = a at hx h1 h2 h3 hp hr
  have hbit : ∀ i, a.rgB .trim 0x000 i = s.rgB .trim 0x000 i := fun i => hr.rgB _ (by simp only [reportKey, Blk.base]; omega)
  have hrg : ∀ o, o = 0x100 ∨ o = 0x104 → a.rg .trim o = s.rg .trim o := fun o ho => hr.rg (by simp only [reportKey, Blk.base]; omega)
  have hm := a.regsBut_missesCounted
  have hmp := a.power_missesCounted
  obtain ⟨c1, c2⟩ := a.counted_misses
  generalize a.missesCounted = m at hx hm hmp c1 c2
  generalize m.reportBytes = bs at hx
  have ht : m.RegsBut tally (m.traceEvery 3 bs) := m.regsBut_trace _
  have htp : (m.traceEvery 3 bs).power = m.power := (m.onlyTraced_trace _).power
  refine ⟨_, hx, ?_, ?_, ?_, ?_, ?_, fun hb => ?_, fun hb => ?_⟩
  · rw [ht.rgF _ _ (by simp only [tally, Blk.base]; omega), hm.rgF _ _ (by simp only [missKey, tally, Blk.base]; omega), h1]
  · rw [ht.rgF _ _ (by simp only [tally, Blk.base]; omega), hm.rgF _ _ (by simp only [missKey, tally, Blk.base]; omega), h2]
  · rw [ht.rg64 (by simp only [tally, Blk.base]; omega) (by simp only [tally, Blk.base]; omega),
      hm.rg64 (by simp only [missKey, tally, Blk.base]; omega) (by simp only [missKey, tally, Blk.base]; omega), h3]
  · rw [htp, hmp, hp]
  · rw [htp, hmp, hp]
  · have hc := c1 (by rwa [hbit, hbit])
    rw [Counted, ← ht.rg (by simp only [tally, Blk.base]; omega), hrg _ (.inl rfl)] at hc
    exact hc
  · have hc := c2 (by rwa [hbit])
    rw [Counted, ← ht.rg (by simp only [tally, Blk.base]; omega), hrg _ (.inr rfl)] at hc
    exact hc

end Report

/-! ## A phase that fails -/

/-- The count of working phases, and the draw that they allow. -/
def State.phaseLost (s : State) (t n : Nat) : State := (s.wgF (.pwr t) 0x000 10 5 (n - 1)).wgF (.pwr t) 0x004 31 16 (540 * (n - 1) / 40)

/-- The failed phase goes into the health record's part. -/
def State.phaseNoted (s : State) (t : Nat) : State := s.modHealth (fun h => { h with phaseFails := h.phaseFails ++ [t * 2] })

section Phase

variable (s : State) {t : Nat}

/-- An entry of the health record's list, whose store falls due. -/
def State.entered (e : UnitEntry) : State := { s.storeDue with health := { s.health with entries := e :: s.health.entries } }

theorem State.entered_rest (e : UnitEntry) : (s.entered e).health.entries = e :: s.health.entries ∧ (s.entered e).boot = s.boot ∧
    (s.entered e).regs = s.regs := ⟨rfl, rfl, rfl⟩

theorem State.healthEntry_eq (stack kind site detail : Nat) :
    s.healthEntry stack kind site detail = (s.entered ⟨kind, site, detail, s.timeOf stack⟩).adminEvent 6 := rfl

theorem State.raiseIrq_rest (p v : Nat) : (s.raiseIrq p v).health = s.health ∧ (s.raiseIrq p v).boot = s.boot := ⟨rfl, rfl⟩

theorem State.adminEvent_rest (i : Nat) : (s.adminEvent i).health = s.health ∧ (s.adminEvent i).boot = s.boot := by
  have hp : ∀ (b : Blk) q n, ((s.wgB b 0x014 i true).raiseIrq q n).health = s.health ∧ ((s.wgB b 0x014 i true).raiseIrq q n).boot = s.boot := fun b q n => by
    obtain ⟨h1, h2⟩ := (s.wgB b 0x014 i true).raiseIrq_rest q n
    exact ⟨h1.trans (State.wgB_health ..), h2.trans (State.wgB_boot ..)⟩
  unfold State.adminEvent State.portEvent
  dsimp only
  split
  · exact hp _ _ _
  · exact ⟨State.wgB_health .., State.wgB_boot ..⟩

theorem State.health_healthEntry (stack kind site detail : Nat) :
    (s.healthEntry stack kind site detail).health.entries = ⟨kind, site, detail, s.timeOf stack⟩ :: s.health.entries ∧
      (s.healthEntry stack kind site detail).boot = s.boot := by
  obtain ⟨h1, h2, -⟩ := s.entered_rest ⟨kind, site, detail, s.timeOf stack⟩
  obtain ⟨k1, k2⟩ := (s.entered ⟨kind, site, detail, s.timeOf stack⟩).adminEvent_rest 6
  rw [State.healthEntry_eq]
  exact ⟨(congrArg Health.entries k1).trans h1, k2.trans h2⟩

theorem State.regsBut_healthEntry (stack kind site detail : Nat) : s.RegsBut eventKey (s.healthEntry stack kind site detail) :=
  .from (u := s.entered ⟨kind, site, detail, s.timeOf stack⟩) (s.entered_rest _).2.2 (State.regsBut_adminEvent _ 6)

theorem State.phaseNoted_regs : (s.phaseNoted t).regs = s.regs := rfl

theorem State.phaseNoted_health : (s.phaseNoted t).health.entries = s.health.entries := rfl

theorem State.phaseNoted_rest : (s.phaseNoted t).boot = s.boot ∧ (s.phaseNoted t).time = s.time := ⟨rfl, rfl⟩

theorem State.phaseLost_rest (n : Nat) : (s.phaseLost t n).health = s.health ∧ (s.phaseLost t n).boot = s.boot ∧ (s.phaseLost t n).time = s.time := by
  rw [State.phaseLost, State.wgF_health, State.wgF_health, State.wgF_boot, State.wgF_boot, State.wgF_time, State.wgF_time]
  exact ⟨rfl, rfl, rfl⟩

theorem State.phaseLost_regs (n : Nat) : (s.phaseLost t n).rgF (.pwr t) 0x000 10 5 = (n - 1) % 64 ∧
    (s.phaseLost t n).rgF (.pwr t) 0x004 31 16 = 540 * (n - 1) / 40 % 2 ^ 16 ∧ (s.phaseLost t n).rg (.pwr t) 0x810 = s.rg (.pwr t) 0x810 := by
  refine ⟨?_, ?_, ?_⟩
  · rw [State.phaseLost, State.rgF_wgF_ne _ _ _ _ _ _ (by omega), State.rgF_wgF_self _ _ _ _ _ _ (by omega)]
    rfl
  · rw [State.phaseLost, State.rgF_wgF_self _ _ _ _ _ _ (by omega)]
  · rw [State.phaseLost, State.rg_wgF, if_neg (by omega), State.rg_wgF, if_neg (by omega)]

theorem exec_phaseFail (ht : t < s.stacks) (h8 : s.stacks = 8) (hn : s.rgF (.pwr t) 0x000 10 5 ≠ 0) (hr : s.rgF (.pwr t) 0x000 1 0 ≠ 0) :
    exec (.phaseFail t false) s = .next (((((s.phaseLost t (s.rgF (.pwr t) 0x000 10 5)).phaseNoted t).bump (.pwr t) 0x810 1).healthEntry
      t 9 0xFFF t).storeHealth) := by
  change execPhaseFail t false s = _
  rw [execPhaseFail, if_neg (by omega)]
  dsimp only
  simp only [Bool.false_eq_true, if_false, Bool.false_and]
  rw [if_neg (by omega)]
  exact congrArg Host.Outcome.next (congrArg State.storeHealth (congrArg (fun u => State.healthEntry u t 9 0xFFF t) rfl))

/-- A store of the health record changes the flash alone. -/
theorem State.storeHealth_rest : s.storeHealth.regs = s.regs ∧ s.storeHealth.health = s.health ∧ s.storeHealth.boot = s.boot ∧
    s.storeHealth.pins = s.pins ∧ s.storeHealth.cores = s.cores ∧ s.storeHealth.parts = s.parts ∧ s.storeHealth.cmds = s.cmds := by
  obtain ⟨f, hf⟩ := s.storeHealth_eq
  rw [hf]
  exact ⟨rfl, rfl, rfl, rfl, rfl, rfl, rfl⟩

theorem phaseFails (ht : t < s.stacks) (h8 : s.stacks = 8) (hn : s.rgF (.pwr t) 0x000 10 5 ≠ 0) (hr : s.rgF (.pwr t) 0x000 1 0 ≠ 0) :
    Answers (.phaseFail t false) s (fun u => u.rgF (.pwr t) 0x000 10 5 = s.rgF (.pwr t) 0x000 10 5 - 1 ∧
        u.rgF (.pwr t) 0x004 31 16 = 540 * (s.rgF (.pwr t) 0x000 10 5 - 1) / 40 ∧
        Counted s u (.pwr t) 0x810 1 ∧
        u.health.entries = ⟨9, 0xFFF, t, s.timeOf t⟩ :: s.health.entries ∧ u.boot.stopped = s.boot.stopped) := by
  have hx := exec_phaseFail s ht h8 hn hr
  have h64 : s.rgF (.pwr t) 0x000 10 5 < 64 := getF_lt 10 5 (s.rg (.pwr t) 0x000)
  generalize s.rgF (.pwr t) 0x000 10 5 = n at hx hn h64 ⊢
  obtain ⟨l1, l2, l3⟩ := s.phaseLost_rest (t := t) n
  obtain ⟨k1, k2, k3⟩ := s.phaseLost_regs (t := t) n
  generalize s.phaseLost t n = a at hx l1 l2 l3 k1 k2 k3
  have hbr := (a.phaseNoted_regs (t := t))
  have hbh := (a.phaseNoted_health (t := t)).trans (congrArg Health.entries l1)
  have hbb := (a.phaseNoted_rest (t := t)).1.trans l2
  have hbt := (a.phaseNoted_rest (t := t)).2.trans l3
  generalize a.phaseNoted t = b at hx hbr hbh hbb hbt
  have hc := b.counted_bump (.pwr t) 0x810 1
  have hcr := b.regsBut_bump (b := .pwr t) trivial 0x810 1
  have hco := b.onlyTraced_bump (.pwr t) 0x810 1
  generalize b.bump (.pwr t) 0x810 1 = c at hx hc hcr hco
  unfold State.OnlyTraced at hco
  have hch : c.health.entries = s.health.entries := by rw [hco]; exact hbh
  have hcb : c.boot = s.boot := by rw [hco]; exact hbb
  have hct : c.time = s.time := by rw [hco]; exact hbt
  obtain ⟨e1, e2⟩ := c.health_healthEntry t 9 0xFFF t
  have her := c.regsBut_healthEntry t 9 0xFFF t
  generalize c.healthEntry t 9 0xFFF t = e at hx e1 e2 her
  obtain ⟨f1, f2, f3, -⟩ := e.storeHealth_rest
  generalize e.storeHealth = u at hx f1 f2 f3
  refine ⟨u, hx, ?_, ?_, fun hlt => ?_, ?_, ?_⟩
  · rw [State.rgF_congr f1, her.rgF _ _ (by simp only [eventKey, tally, Blk.base]; omega), hcr.rgF _ _ (by simp only [tally, Blk.base]; omega),
      State.rgF_congr hbr, k1]
    omega
  · rw [State.rgF_congr f1, her.rgF _ _ (by simp only [eventKey, tally, Blk.base]; omega), hcr.rgF _ _ (by simp only [tally, Blk.base]; omega),
      State.rgF_congr hbr, k2]
    omega
  · rw [Counted, State.rg_congr hbr, k3] at hc
    rw [State.rg_congr f1, her.rg (by simp only [eventKey, tally, Blk.base]; omega)]
    exact hc hlt
  · rw [f2, e1, hch, State.timeOf, State.timeOf, hct]
  · rw [f3, e2, hcb]

end Phase

/-! ## A power fault -/

/-- The fault goes into the health record's part. -/
def State.faultNoted (s : State) (t n : Nat) : State := s.modHealth (fun h => { h with powerFault := (t, n) :: h.powerFault })

section Fault

variable (s : State) {t : Nat}

theorem State.faultNoted_regs (n : Nat) : (s.faultNoted t n).regs = s.regs := rfl

theorem State.faultNoted_rest (n : Nat) : (s.faultNoted t n).boot = s.boot ∧ (s.faultNoted t n).time = s.time ∧
    (s.faultNoted t n).health.powerFault = (t, n) :: s.health.powerFault := ⟨rfl, rfl, rfl⟩

/-- A region's register keeps whether it runs through a stop. -/
theorem State.regF_stopPart (reason detail r : Nat) (h : s.boot.stopped = false) : (s.stopPart reason detail).regF r 1 0 = s.regF r 1 0 := by
  have hne : ∀ o, 0x040 ≤ o → o < 0x100 → (Blk.pwr (r / 256)).base + (0x100 + 4 * (r % 256)) ≠ (Blk.pwr 0).base + o := fun o h1 h2 => by
    simp only [Blk.base]; omega
  have hs : ∀ u : State, (u.stopRegs reason detail).regF r 1 0 = u.regF r 1 0 := fun u => by
    rw [State.stopRegs, State.regF, State.rgF, State.rg_wg64_ne _ _ (hne _ (by omega) (by omega)) (hne _ (by omega) (by omega)), ← State.rgF,
      State.rgF_wgF_ne _ _ _ _ _ _ (hne _ (by omega) (by omega)), State.rgF_wgF_ne _ _ _ _ _ _ (hne _ (by omega) (by omega)),
      State.rgF_wgB_ne _ _ _ _ _ (hne _ (by omega) (by omega)), State.regF]
  have ht : ∀ u : State, u.trimOff.regF r 1 0 = u.regF r 1 0 := fun u => by
    have hk : ∀ (v : State) (o : Nat) (w : W32), o < 0x10000 → (v.wg .trim o w).regF r 1 0 = v.regF r 1 0 := fun v o w ho => by
      rw [State.regF, State.rgF, State.rg_wg_ne _ _ (by simp only [Blk.base]; omega), State.regF, State.rgF]
    unfold State.trimOff
    dsimp only
    refine (State.regF_congr rfl ..).trans ((State.foldl_same (fun v => v.regF r 1 0) (fun v x => v.regF_setReg_apart x r 16 (by omega) (by omega)) _ _).trans ?_)
    rw [State.wgF, hk _ _ _ (by omega), hk _ _ _ (by omega)]
  rw [s.stopPart_of_running reason detail h]
  refine (State.regF_congr rfl ..).trans ((State.regF_congr (t := (s.stopNoted reason detail).haltWork) (s := (s.stopNoted reason detail).trimOff) rfl ..).trans ?_)
  rw [ht, State.regF, (s.regsBut_stopNoted reason detail).rgF _ _ (by simp only [tally, Blk.base]; omega), ← State.regF, hs]
  exact State.regF_congr rfl ..

theorem State.onlyPower_boot {u : State} (h : s.OnlyPower u) : u.boot = s.boot := by unfold State.OnlyPower at h; rw [h]

theorem exec_powerFault (ht : t < s.stacks) (hh : s.held = false) (hb : 2 ≤ s.bootStage) :
    exec (.powerFault t) s = .next ((((s.stackOff t).faultNoted t (s.timeOf t)).stopPart 8 t).storeHealth) := by
  change execPowerFault t s = _
  rw [execPowerFault, if_neg (by omega), State.faultPower, if_neg (by simp [hh]; omega)]
  rfl

theorem powerFaultStops (ht : t < s.stacks) (hh : s.held = false) (hb : 2 ≤ s.bootStage) (hs : s.boot.stopped = false) :
    Answers (.powerFault t) s (fun u => u.boot.stopped = true ∧ u.pins.alert = true ∧
        u.rgB (.pwr 0) 0x040 4 = false ∧ u.rgF (.pwr 0) 0x040 11 8 = 8 ∧ u.rgF (.pwr 0) 0x040 27 12 = t ∧
        u.rgF (.pwr t) 0x000 3 0 = 0 ∧ u.rg64 (.pwr 0) 0x044 = s.time.now % 2 ^ 64 ∧
        (∀ r, r / 256 = t → s.regF r 1 0 ≠ 3 → u.regF r 1 0 = 0) ∧
        (t, s.timeOf t) ∈ u.health.powerFault ∧ u.cores = [] ∧ u.parts = [] ∧
        ∀ c ∈ u.cmds, c.admin = true ∧ c.opcode = 0x48) := by
  have hx := exec_powerFault s ht hh hb
  have h8 := s.stacks_le
  have ho := s.onlyPower_stackOff t
  have hst := s.status_stackOff t t
  rw [if_pos rfl] at hst
  have hreg : ∀ r, r / 256 = t → s.regF r 1 0 ≠ 3 → (s.stackOff t).regF r 1 0 = 0 := fun r hr h3 => s.regF_stackOff hr h3
  generalize s.stackOff t = a at hx ho hst hreg
  obtain ⟨b1, b2, b3⟩ := a.faultNoted_rest (t := t) (s.timeOf t)
  have hbr := a.faultNoted_regs (t := t) (s.timeOf t)
  generalize a.faultNoted t (s.timeOf t) = b at hx b1 b2 b3 hbr
  have hstop : b.boot.stopped = false := by rw [b1, s.onlyPower_boot ho, hs]
  obtain ⟨c1, c2, c3, c4⟩ := b.stopPart_status 8 t hstop
  obtain ⟨d1, d2, d3, d4, d5, d6, -⟩ := b.stopPart_work 8 t hstop
  have hstat := b.status_stopPart 8 t hstop t 3 0
  have hregs := fun r => b.regF_stopPart 8 t r hstop
  generalize b.stopPart 8 t = c at hx c1 c2 c3 c4 d1 d2 d3 d4 d5 d6 hstat hregs
  obtain ⟨f1, f2, f3, f4, f5, f6, f7⟩ := c.storeHealth_rest
  generalize c.storeHealth = u at hx f1 f2 f3 f4 f5 f6 f7
  refine ⟨u, hx, ?_, ?_, ?_, ?_, ?_, ?_, ?_, fun r hr h3 => ?_, ?_, ?_, ?_, fun x hm => ?_⟩
  · rw [f3, d1]
  · rw [f4, d2]
  · rw [State.rgB, State.rg_congr f1, ← State.rgB, c1]
  · rw [State.rgF_congr f1, c2]
  · rw [State.rgF_congr f1, c3]
    omega
  · rw [State.rgF_congr f1, hstat, State.rgF_congr hbr, hst]
  · rw [State.rg64, State.rg_congr f1, State.rg_congr f1, ← State.rg64, c4, b2, ho.time]
  · rw [State.regF_congr f1, hregs, State.regF_congr hbr, hreg r hr h3]
  · rw [f2, d6, b3]
    exact List.mem_cons_self
  · rw [f5, d3]
  · rw [f6, d4]
  · rw [f7, d5, List.mem_filter, Bool.and_eq_true, beq_iff_eq] at hm
    exact hm.2

end Fault

/-! ## O49 -/

/-- Settles O49: the governor's rounds, steps, droops, switch-on, Trim, failed phases and power faults. -/
theorem powerControl : Obligations.PowerControl := by
  refine ⟨fun s t p cap ht hcap ha => ⟨fun h hl => governorLowers ht hcap ha h hl, fun h hb hl => governorRaises ht hcap ha h hb hl⟩,
    fun s t p x ha h => governorEarly ha h, fun s t g r ht hg hr => ⟨fun hon hf ha => stepChanges ht hg hr hon hf ha, stepNotDue,
      fun below hon => ⟨fun hlt hn => droopCounted ht hg hr hon hlt hn, fun hle => droopEnds ht hr hg hon hle⟩,
      fun cur peaks hs => ⟨fun hc hp => stepCloses ht hg hr hs hc hp, fun hc => stepWaits ht hg hr hs hc⟩,
      fun x peaks hs hw hd h7 => ?_, fun h1 h8 => regionComesOn ht hg hr h1 h8⟩,
    fun s m setp flr hset hflr => ⟨trimPeriodNotDue s, fun hd => ⟨fun he hp => trimPeriodOff s hd hp he,
      fun he hp hrel hramp => trimPeriodRuns s hset hflr hd he hp hrel hramp⟩, fun h hn => trimReports s h hn⟩,
    fun s t ht => ⟨fun h8 hn hr => phaseFails s ht h8 hn hr, fun hh hb hs => powerFaultStops s ht hh hb hs⟩⟩
  obtain ⟨u, hx, h1, h2, h3⟩ := waitExpires (peaks := peaks) ht hg hr hs hw hd h7
  exact ⟨u, hx, h1, h2, fun y hy hp hon => h3 y (mem_yielding_near hy hp hon), fun hn y hy hon => h3 y (mem_yielding_half hn hy hon)⟩

end Sys2Proof.Machine
end


section
/-! PROOF. The array's passes: staging, start, end, drain, prior values (R26, R28, R52 to R63, R67). O23. -/

namespace Sys2Proof.Machine

open Sys2Proof.Claims

/-! ## What leaves an array as it is -/

section Kept

variable {s t : State} {site : Nat}

theorem State.arr_modArr (s : State) (site : Nat) (f : Machine.Array → Machine.Array) : ((s.modArr site f).core site).arr = f (s.core site).arr := by
  have h : (s.modArr site f).core site = (s.modCore site (fun k => { k with arr := f k.arr })).core site := rfl
  rw [h, State.core_modCore, if_pos rfl]

/-- But for its own registers, a change of an array leaves memory and the other registers. -/
theorem State.rg_modArr (s : State) (site : Nat) (f : Machine.Array → Machine.Array) {o : Nat} (h : o ≠ 0) :
    (s.modArr site f).rg (.arr site) o = s.rg (.arr site) o := by
  have hw := State.rg_wg_ne (s.modCore site (fun k => { k with arr := f k.arr })) (b := .arr site) (b' := .arr site) (o := 0x000) (o' := o)
    ((s.modCore site (fun k => { k with arr := f k.arr })).core site).arr.status (by omega)
  exact hw

theorem State.sameMemory_modArr (s : State) (site : Nat) (f : Machine.Array → Machine.Array) : SameMemory s (s.modArr site f) :=
  ⟨rfl, rfl, rfl⟩

theorem State.arr_moved (s : State) (e : Eng) (ps : List Piece) (i : Nat) : ((s.moved e ps).core i).arr = (s.core i).arr := by
  refine State.foldl_same (fun u => (u.core i).arr) (fun u p => ?_) ps s
  cases p with
  | here a n =>
    dsimp only
    split
    · exact State.arr_of_bare (u.bare_bump64 ..) i
    · rfl
  | xlat c x pg =>
    dsimp only
    unfold State.keepXlat
    rw [State.core_modCore]
    split <;> simp_all
  | _ => rfl

theorem State.arr_used (s : State) (e : Eng) (i : Nat) : ((s.used e).core i).arr = (s.core i).arr := rfl

theorem State.bare_queueRead (s : State) (e : Eng) (a n : Nat) : (s.queueRead e a n).bare = s.bare := by
  unfold State.queueRead
  refine State.bare_foldl (fun u x => ?_) _ _
  split
  · rfl
  · exact u.bare_enter _

theorem State.arr_ask (s : State) (e : Eng) (ps : List Piece) (i : Nat) : ((s.ask e ps).core i).arr = (s.core i).arr := by
  refine State.arr_of_bare ((State.bare_sendQueued _ _).trans (State.bare_foldl (fun u p => ?_) ps s)) i
  cases p with
  | here a n =>
    dsimp only
    split
    · rfl
    · exact u.bare_queueRead ..
  | away dst part a n =>
    dsimp only
    split
    · rfl
    · exact u.bare_enter _
  | _ => rfl

/-- What an array whose rows are to hand does next begins with the array as it was. -/
theorem State.arr_taken (s : State) (e : Eng) (ps : List Piece) (i : Nat) (f : Machine.Array → Machine.Array) :
    ((((s.moved e ps).used e).modArr i f).core i).arr = f (s.core i).arr := by
  rw [State.arr_modArr, State.arr_used, State.arr_moved]

/-- A changed tile of those that have its number. -/
theorem Array.of_mem_modTile {a : Machine.Array} {n : Nat} {f : Tile → Tile} {x : Tile}
    (h : x ∈ (a.modTile n f).tiles) (hx : x.num = n) : ∃ t, x = f t := by
  obtain ⟨t, -, rfl⟩ := List.mem_map.mp h
  split at hx
  case isTrue hn => rw [if_pos hn]; exact ⟨t, rfl⟩
  case isFalse hn => exact absurd hx hn

theorem onArray_of {f : Machine.Array → State} (h : site < s.sites) (hf : (s.core site).arr.fault = false) :
    onArray s site f = .next (f (s.core site).arr) := by
  unfold onArray
  rw [if_neg (by omega), hf]
  rfl

end Kept

/-! ## Prior values -/

/-- The banks whose prior values are still to be read, each with its tile. -/
def Array.unread (a : Machine.Array) : List (Bank × Tile) :=
  a.banks.filterMap (fun b => b.bind (fun x =>
    match a.tile? x.tile with
    | some t => if t.desc.acc && !x.priorRead then some (x, t) else none
    | none => none))

theorem Array.mem_unread {a : Machine.Array} {b : Bank} {t : Tile} :
    (b, t) ∈ a.unread ↔ some b ∈ a.banks ∧ a.tile? b.tile = some t ∧ t.desc.acc = true ∧ b.priorRead = false := by
  constructor
  · intro h
    obtain ⟨x, hx, hxy⟩ := List.mem_filterMap.mp h
    cases x with
    | none => simp at hxy
    | some x =>
      cases ht : a.tile? x.tile with
      | none => simp [ht] at hxy
      | some y =>
        simp only [Option.bind_some, ht, Option.ite_none_right_eq_some, Option.some.injEq, Prod.mk.injEq, Bool.and_eq_true,
          Bool.not_eq_true'] at hxy
        obtain ⟨⟨hacc, hr⟩, rfl, rfl⟩ := hxy
        exact ⟨hx, ht, hacc, hr⟩
  · rintro ⟨hb, ht, hacc, hr⟩
    exact List.mem_filterMap.mpr ⟨some b, hb, by simp [ht, hacc, hr]⟩

/-- Of an array with one bank in use. -/
theorem Array.head_unread {a : Machine.Array} {b : Bank} {t : Tile} (hb : some b ∈ a.banks) (hall : ∀ x, some x ∈ a.banks → x = b)
    (ht : a.tile? b.tile = some t) (hacc : t.desc.acc = true) (hr : b.priorRead = false) : a.unread.head? = some (b, t) := by
  obtain ⟨⟨x, y⟩, hy⟩ := Option.isSome_iff_exists.mp
    (List.isSome_head?.mpr (List.ne_nil_of_mem (Array.mem_unread.mpr ⟨hb, ht, hacc, hr⟩)))
  obtain ⟨hx, hxy, -, -⟩ := Array.mem_unread.mp (List.mem_of_head? hy)
  obtain rfl := hall x hx
  obtain rfl := Option.some.inj (hxy.symm.trans ht)
  exact hy

/-! ## One event each -/

section Events

variable {s : State} {site : Nat} {a : Machine.Array} (hsite : site < s.sites) (ha : a = (s.core site).arr) (hf : a.fault = false)

include hsite ha hf

theorem exec_stageWeights_frozen (h : a.state = 3) : exec (.stageWeights site) s = .next s := by
  subst ha
  change execStageWeights site s = _
  unfold execStageWeights
  rw [onArray_of hsite hf]
  rw [if_pos h]

/-- R52, R59: the slots of the next pass of the first tile that has one to stage. -/
theorem stageWeights_stages {t : Tile} {e : Eng} {r q : List (List PByte)} (h3 : a.state ≠ 3) (hst : a.stage = none)
    (ht : a.toStage = some t) (he : s.tileEng site 65 t = some e)
    (hr : s.gatherRows e (s.weightRows e t.desc t.staged).1 = .data r)
    (hq : s.gatherRows e (s.weightRows e t.desc t.staged).2 = .data q) :
    Answers (.stageWeights site) s (fun u =>
      (u.core site).arr.stage = some (t.num, t.staged, .of t.desc (weightBlocks t.desc t.staged r q)) ∧
      ∀ x ∈ (u.core site).arr.tiles, x.num = t.num → x.staged = t.staged + 1) := by
  subst ha
  change ∃ u, execStageWeights site s = .next u ∧ _
  unfold execStageWeights
  rw [onArray_of hsite hf]
  refine ⟨_, rfl, ?_⟩
  rw [if_neg h3, hst, ht]
  dsimp only
  rw [he]
  dsimp only
  rw [hr, hq]
  dsimp only
  rw [State.arr_taken]
  refine ⟨rfl, fun x hx hn => ?_⟩
  obtain ⟨y, rfl⟩ := Array.of_mem_modTile (f := fun y => { y with staged := t.staged + 1 }) hx hn
  rfl

/-- PASS_START as it stands for a staged pass. -/
theorem exec_passStart {n p : Nat} {ws : WSet} {t : Tile} {e : Eng} (hp : a.pass = none) (hst : a.stage = some (n, p, ws))
    (ht : a.tile? n = some t) (he : s.tileEng site 66 t = some e) :
    exec (.passStart site false) s = .next (
      if decide (a.eighths < 8) && !a.starved then s
      else
        match s.gatherRows e (s.actRows e t.desc p).1, s.gatherRows e (s.actRows e t.desc p).2 with
        | .eat, _ => s.tileEat site t
        | _, .eat => s.tileEat site t
        | .exc _, _ => s.tileBad site t 2
        | _, .exc _ => s.tileBad site t 2
        | .data r, .data q =>
          (match (if a.hasBank n (t.desc.stripOf p) then some a.banks
              else takeBank a.banks ⟨n, t.desc.stripOf p, freshVals t.desc (t.desc.stripOf p), false, false⟩) with
           | none => if a.starved then s.modArr site (fun a => { a with starved := false, arrived := true, ramp := 0 }) else s
           | some banks =>
             if a.drainWaits || decide (a.eighths < 8) then
               if a.starved then s.modArr site (fun a => { a with starved := false, arrived := true, ramp := 0 }) else s
             else ((s.moved e ((s.actRows e t.desc p).1.flatten ++ (s.actRows e t.desc p).2.flatten)).used e).modArr site (fun a =>
               { a.modTile n (fun t => { t with started := p + 1 }) with
                 stage := none, pass := some (n, p, ws, actBlocks t.desc p r q), run := 0, banks := banks, gap := none
                 arrived := false, ramp := 0, starved := false }))
        | _, _ => (s.ask e ((s.actRows e t.desc p).1.flatten ++ (s.actRows e t.desc p).2.flatten)).modArr site
            (fun a => { a with starved := true })) := by
  subst ha
  change execPassStart site false s = _
  unfold execPassStart
  rw [onArray_of hsite hf]
  rw [hp, hst]
  dsimp only
  rw [ht]
  dsimp only
  rw [he]
  rfl

section Start

variable {n p : Nat} {ws : WSet} {t : Tile} {e : Eng} {banks : List (Option Bank)} (hp : a.pass = none) (hst : a.stage = some (n, p, ws))
  (ht : a.tile? n = some t) (he : s.tileEng site 66 t = some e)
  (hb : (if a.hasBank n (t.desc.stripOf p) then some a.banks
    else takeBank a.banks ⟨n, t.desc.stripOf p, freshVals t.desc (t.desc.stripOf p), false, false⟩) = some banks)

include hp hst ht he

/-- R62: all eighths must be enabled. -/
theorem exec_passStart_ramping (h8 : a.eighths < 8) (hs : a.starved = false) : exec (.passStart site false) s = .next s := by
  rw [exec_passStart hsite ha hf hp hst ht he, if_pos (by simp [h8, hs])]

/-- R63: rows that are not to hand freeze the array. -/
theorem passStart_freezes (h : 8 ≤ a.eighths ∨ a.starved = true) (hr : s.gatherRows e (s.actRows e t.desc p).1 = .wait)
    (hq : ∃ r, s.gatherRows e (s.actRows e t.desc p).2 = .data r) :
    Answers (.passStart site false) s (fun u => (u.core site).arr.starved = true ∧ (u.core site).arr.state = 3 ∧
      (u.core site).arr.pass = none ∧ (u.core site).arr.stage = a.stage) := by
  obtain ⟨q, hq⟩ := hq
  refine ⟨_, exec_passStart hsite ha hf hp hst ht he, ?_⟩
  rw [if_neg (by rcases h with h | h <;> simp [h]), hr, hq]
  dsimp only
  rw [State.arr_modArr, State.arr_ask, ← ha]
  exact ⟨rfl, by simp [Array.state], hp, rfl⟩

include hb

/-- R57, R62: the rows are to hand, while the drain or the ramp holds the pass. -/
theorem passStart_holds {r q : List (List PByte)} (h : 8 ≤ a.eighths ∨ a.starved = true) (hw : a.drainWaits = true ∨ a.eighths < 8)
    (hr : s.gatherRows e (s.actRows e t.desc p).1 = .data r) (hq : s.gatherRows e (s.actRows e t.desc p).2 = .data q) :
    Answers (.passStart site false) s (fun u => (u.core site).arr.pass = none ∧ (u.core site).arr.stage = a.stage ∧
      (u.core site).arr.banks = a.banks ∧ (u.core site).arr.starved = false) := by
  refine ⟨_, exec_passStart hsite ha hf hp hst ht he, ?_⟩
  rw [if_neg (by rcases h with h | h <;> simp [h]), hr, hq]
  dsimp only
  rw [hb]
  dsimp only
  rw [if_pos (by simpa using hw)]
  split
  · rw [State.arr_modArr, ← ha]
    exact ⟨hp, rfl, rfl, rfl⟩
  · rw [← ha]
    exact ⟨hp, rfl, rfl, by simp_all⟩

/-- R53, R54: the staged set moves into the array with the pass's activation rows. -/
theorem passStart_starts {r q : List (List PByte)} (hw : a.drainWaits = false) (h8 : 8 ≤ a.eighths)
    (hr : s.gatherRows e (s.actRows e t.desc p).1 = .data r) (hq : s.gatherRows e (s.actRows e t.desc p).2 = .data q) :
    Answers (.passStart site false) s (fun u =>
      (u.core site).arr.pass = some (n, p, ws, actBlocks t.desc p r q) ∧ (u.core site).arr.stage = none ∧
      (u.core site).arr.banks = banks ∧ (u.core site).arr.starved = false) := by
  refine ⟨_, exec_passStart hsite ha hf hp hst ht he, ?_⟩
  rw [if_neg (by simp [h8]), hr, hq]
  dsimp only
  rw [hb]
  dsimp only
  rw [if_neg (by simp [hw, h8]), State.arr_taken]
  exact ⟨rfl, rfl, rfl, rfl⟩

end Start

section End

variable {n p : Nat} {ws : WSet} {ab : List (List ABlock)} {t : Tile} (hp : a.pass = some (n, p, ws, ab)) (ht : a.tile? n = some t)

include hp ht

/-- R28, R67: the accumulators go to the drain, and the planes that no tick counted are counted. -/
theorem passEnd_ends (h2 : a.state = 2) : Answers (.passEnd site) s (fun u => (u.core site).arr.pass = none ∧
    (u.core site).arr.drain = a.drain ++ [(n, p, passAccs t.desc ws ab)] ∧
    (∀ x ∈ (u.core site).arr.tiles, x.num = n → x.ended = p + 1) ∧
    Counted s u (.arr site) 0x044 (t.desc.planesOf p - a.run)) := by
  subst ha
  change ∃ u, execPassEnd site s = .next u ∧ _
  unfold execPassEnd
  rw [onArray_of hsite hf]
  refine ⟨_, rfl, ?_⟩
  rw [hp]
  dsimp only
  rw [ht]
  dsimp only
  rw [if_neg (by simpa using h2), State.arr_of_bare (State.bare_bump ..), State.arr_modArr]
  refine ⟨rfl, rfl, fun x hx hn => ?_, ?_⟩
  · obtain ⟨y, rfl⟩ := Array.of_mem_modTile (f := fun y => { y with ended := p + 1 }) hx hn
    rfl
  · have h := State.counted_bump (s := s.modArr site (fun a => { a.modTile n (fun t => { t with ended := p + 1 }) with
      pass := none, run := 0, drain := a.drain ++ [(n, p, passAccs t.desc ws ab)], arrived := a.stage.isSome, ramp := 0 }))
      (.arr site) 0x044 (t.desc.planesOf p - (s.core site).arr.run)
    unfold Counted at h ⊢
    rw [State.rg_modArr _ _ _ (by omega)] at h
    exact h

/-- R60: a frozen array, or one that ramps up, ends no pass. -/
theorem exec_passEnd_frozen (h2 : a.state ≠ 2) : exec (.passEnd site) s = .next s := by
  subst ha
  change execPassEnd site s = _
  unfold execPassEnd
  rw [onArray_of hsite hf]
  rw [hp]
  dsimp only
  rw [ht]
  dsimp only
  rw [if_pos h2]

end End

/-- R41, R53: the oldest ended pass is added into its strip's bank. -/
theorem drainPartials_adds {n p : Nat} {xs : List (List (List ColAcc))} {rest : List (Nat × Nat × List (List (List ColAcc)))} {t : Tile}
    (hd : a.drain = (n, p, xs) :: rest) (ht : a.tile? n = some t) (hw : a.drainWaits = false) :
    Answers (.drainPartials site false) s (fun u => (u.core site).arr.drain = rest ∧
      (u.core site).arr.banks = a.banks.map (Option.map (fun b =>
        if b.tile = n ∧ b.strip = t.desc.stripOf p then
          { b with vals := (b.vals.zip xs).map (fun r => (r.1.zip r.2).map (fun x => DVal.add x.1 x.2)) }
        else b)) ∧ SameMemory s u) := by
  subst ha
  change ∃ u, execDrainPartials site false s = .next u ∧ _
  unfold execDrainPartials
  rw [onArray_of hsite hf]
  refine ⟨_, rfl, ?_⟩
  rw [hd]
  dsimp only
  rw [ht]
  dsimp only
  rw [if_neg (by simp [hw]), if_neg (by simp), State.arr_modArr]
  refine ⟨rfl, List.map_congr_left fun b _ => ?_, State.sameMemory_modArr ..⟩
  cases b with
  | none => rfl
  | some b => simp only [Option.map_some, Bank.is, Bool.and_eq_true, beq_iff_eq]

/-- R40, R57: an accumulate strip's prior values are read into its bank. -/
theorem priorValueRead_reads {b : Bank} {t : Tile} {e : Eng} {r : List (List PByte)} (hb : some b ∈ a.banks)
    (hall : ∀ x, some x ∈ a.banks → x = b) (ht : a.tile? b.tile = some t) (hacc : t.desc.acc = true) (hun : b.priorRead = false)
    (he : s.tileEng site 67 t = some e)
    (hr : s.gatherRows e (s.rowPieces e t.desc.out (t.desc.outParts t.desc.ofmt false) 0 (t.desc.rowOf b.strip)
      (t.desc.rowsOf b.strip) (t.desc.colOf b.strip * elemBits t.desc.ofmt / 8)
      (rowBytes t.desc.ofmt (t.desc.colsOf b.strip))) = .data r) :
    Answers (.priorValueRead site) s (fun u => ∀ x, some x ∈ (u.core site).arr.banks → x.priorRead = true ∧
      x.vals.length = r.length) := by
  have hhead := Array.head_unread hb hall ht hacc hun
  subst ha
  change ∃ u, execPriorValueRead site s = .next u ∧ _
  unfold execPriorValueRead
  rw [onArray_of hsite hf]
  refine ⟨_, rfl, ?_⟩
  generalize hu : List.head? _ = o
  obtain rfl : o = some (b, t) := hu.symm.trans hhead
  dsimp only
  rw [he]
  dsimp only
  rw [hr]
  dsimp only
  rw [State.arr_taken]
  intro x hx
  obtain ⟨y, hy, hxy⟩ := List.mem_map.mp hx
  cases y with
  | none => simp at hxy
  | some y =>
    obtain rfl := hall y hy
    rw [Option.map_some, if_pos (by simp [Bank.is]), Option.some.injEq] at hxy
    subst hxy
    exact ⟨rfl, by simp⟩

end Events

/-- Settles O23. -/
theorem arrayPasses : Obligations.ArrayPasses := by
  intro s site a hsite ha hf
  refine ⟨exec_stageWeights_frozen hsite ha hf, fun t e r q h3 hst ht he hr hq => stageWeights_stages hsite ha hf h3 hst ht he hr hq,
    fun n p ws t banks e hp hst ht hb he => ⟨exec_passStart_ramping hsite ha hf hp hst ht he,
      fun r q h hw hr hq => passStart_holds hsite ha hf hp hst ht he hb h hw hr hq,
      fun r q hw h8 hr hq => passStart_starts hsite ha hf hp hst ht he hb hw h8 hr hq, passStart_freezes hsite ha hf hp hst ht he⟩,
    fun n p ws ab t hp ht => ⟨passEnd_ends hsite ha hf hp ht, exec_passEnd_frozen hsite ha hf hp ht⟩,
    fun n p xs rest t hd ht hw => drainPartials_adds hsite ha hf hd ht hw,
    fun b t e r hb hall ht hacc hun he hr => priorValueRead_reads hsite ha hf hb hall ht hacc hun he hr⟩

end Sys2Proof.Machine
end


section
/-! PROOF. TILE: a descriptor that is queued, and one that is refused (R50, R55, R56, R79, R136, R449). O21. -/

namespace Sys2Proof.Machine

open Sys2Proof.Claims

/-! ## Registers that the end of a command writes -/

/-- The keys of all blocks but the arrays' and the espaliers'. -/
def unitKey (k : Nat) : Prop := 0x1000000 ≤ k ∨ 0x800 ≤ k % 0x1000

theorem unitKey_of_tally {k : Nat} (h : tally k) : unitKey k := by simp only [tally, unitKey] at *; omega

theorem unitKey_sc (h o : Nat) : unitKey ((Blk.sc h).base + o) := by simp only [unitKey, Blk.base]; omega

theorem unitKey_dbg (t o : Nat) : unitKey ((Blk.dbg t).base + o) := by simp only [unitKey, Blk.base]; omega

theorem unitKey_cntCore (i : Nat) {o : Nat} (h : o < 0x800) : unitKey ((Blk.cntCore i).base + o) := by
  simp only [unitKey, Blk.base]; omega

theorem not_unitKey_arr {i o : Nat} (hi : i < 4096) (h : o < 0x800) : ¬ unitKey ((Blk.arr i).base + o) := by
  simp only [unitKey, Blk.base]; omega

section Ends

variable (s : State)

theorem State.regsBut_oredSync (h : Nat) : s.RegsBut unitKey (s.oredSync h) :=
  (State.regsBut_wgF _ _ _ _ _ _ (unitKey_sc h _)).trans (State.regsBut_wgB _ _ _ _ _ (unitKey_sc h _))

theorem State.regsBut_dropStaged (p : Staged → Bool) : s.RegsBut unitKey (s.dropStaged p) :=
  .foldl (fun t h => (State.RegsBut.of_eq (t := t.modHalf h _) rfl).trans (State.regsBut_oredSync _ h)) _ s

theorem State.regsBut_xposeSync (h : Nat) : s.RegsBut unitKey (s.xposeSync h) :=
  .foldl (fun _ _ => ((State.regsBut_wgB _ _ _ _ _ (unitKey_sc h _)).trans (State.regsBut_wgB _ _ _ _ _ (unitKey_sc h _))).trans
    (State.regsBut_wgB _ _ _ _ _ (unitKey_sc h _))) _ s

theorem State.regsBut_flushOver (i : Nat) : s.RegsBut unitKey (s.flushOver i) :=
  (State.RegsBut.of_eq (K := unitKey) rfl).trans (State.regsBut_wgB _ _ _ _ _ (unitKey_sc _ _))

theorem State.regsBut_freeUnits (c : Cmd) : s.RegsBut unitKey (s.freeUnits c) := by
  have hx : s.RegsBut unitKey (s.xposeSyncAll c) := .ite (.foldl (fun t h => t.regsBut_xposeSync h) _ s) (.refl s)
  exact .ite (hx.trans (.foldl (fun t i => t.regsBut_flushOver i) _ _)) hx

theorem State.regsBut_unreported (status : Nat) (d : Detail) : s.RegsBut unitKey (s.unreported status d) := by
  unfold State.unreported
  split
  · next h =>
    refine (s.regsBut_bump (b := .cntCore d.site) (h.2.trans_le s.sites_le) 0x094 1).mono ?_
    rintro k (hk | rfl)
    · exact unitKey_of_tally hk
    · exact unitKey_cntCore _ (by omega)
  · exact .refl s

theorem State.regsBut_endCmd (cid status : Nat) (d : Detail) : s.RegsBut unitKey (s.endCmd cid status d) := by
  have go : ∀ (t : State) (c c' : Cmd), t.RegsBut unitKey (((if status = 0x13 then (t.stopBlocks cid).dropStaged (fun x => x.cid == cid)
      else t.stopBlocks cid).setCmd c').freeUnits c) := fun t c c' => by
    have hs : t.RegsBut unitKey (t.stopBlocks cid) := .of_eq rfl
    refine .trans ?_ ((State.RegsBut.of_eq rfl).trans (State.regsBut_freeUnits _ c))
    exact .ite (hs.trans (State.regsBut_dropStaged _ _)) hs
  unfold State.endCmd
  dsimp only
  split
  · exact .refl s
  · split
    · exact go s _ _
    · exact go s _ _
    · split
      · exact .refl s
      · exact .ite (.trans (s.regsBut_unreported _ _) (go _ _ _)) (s.regsBut_unreported _ _)
    · exact .refl s

theorem State.regsBut_issued {c : Ctx} (hc : c.site < 4096) : s.RegsBut unitKey (s.issued c) := by
  have hb : s.RegsBut unitKey (s.beforeCounts c) := by
    refine .trans (t := if (s.modCore c.site _).stepPending c.site c.slot then
      (s.modCore c.site _).wgB (.dbg (siteStack c.site)) (dbgOff c.site) 2 false else _) ?_ (.of_eq rfl)
    exact .ite ((State.RegsBut.of_eq rfl).trans (State.regsBut_wgB _ _ _ _ _ (unitKey_dbg ..))) (.of_eq rfl)
  have hk : ∀ (t : State) o n, o < 0x100 → t.RegsBut unitKey (t.bump64 (.cntCore c.site) o n) := fun t o n ho => by
    refine (t.regsBut_bump64 (b := .cntCore c.site) hc o n).mono ?_
    rintro k (h | rfl | rfl)
    · exact unitKey_of_tally h
    · exact unitKey_cntCore _ (by omega)
    · exact unitKey_cntCore _ (by omega)
  rw [State.issued_eq]
  exact hb.trans ((hk _ _ _ (by omega)).trans (hk _ _ _ (by omega)))

theorem State.regsBut_raise {c : Ctx} (hc : c.site < 4096) (code lane trap : Nat) : s.RegsBut unitKey (s.raise c code lane trap) := by
  rw [State.raise_eq]
  have hs : s.RegsBut unitKey (s.stoppedAt c) :=
    .trans (t := s.modGroup c.site c.slot (fun g => { g with stopped := true })) (.of_eq rfl) (State.regsBut_issued _ hc)
  exact hs.trans (State.regsBut_endCmd _ _ _ _)

/-- An exception leaves the array as it is. -/
theorem State.arr_raise {c : Ctx} {g : Group} (h : mfind (s.core c.site).groups c.slot = some g) (code lane trap : Nat) :
    ((s.raise c code lane trap).core c.site).arr = (s.core c.site).arr := by
  rw [State.raise_eq, State.arr_of_bare (State.bare_endCmd ..), State.stoppedAt, State.modGroup_const _ h]
  obtain ⟨bl, -, hput⟩ := s.core_put c { g with stopped := true }
  have := congrArg Core.arr hput
  exact this

end Ends

/-! ## The fault register of the array -/

section Fault

variable (s : State) (site code group detail : Nat)

theorem State.onlyTraced_arrFault : s.OnlyTraced (s.arrFault site code group detail) := by
  have h : (s.bump (.arr site) 0x064 1).OnlyTraced ((s.bump (.arr site) 0x064 1).wg (.arr site) 0x008
      (BitVec.ofNat 32 (1 + code * 2 + group * 16 + detail * 65536))) := rfl
  unfold State.arrFault
  dsimp only
  split
  · exact s.onlyTraced_bump ..
  · exact (s.onlyTraced_bump ..).trans h

/-- While it holds nothing, and the count has room, it takes the fault. -/
theorem State.rg_arrFault (h : s.rgB (.arr site) 0x008 0 = false) (hroom : (s.rg (.arr site) 0x064).toNat + 1 < 0xFFFFFFFF) :
    (s.arrFault site code group detail).rg (.arr site) 0x008 = BitVec.ofNat 32 (1 + code * 2 + group * 16 + detail * 65536) := by
  have hb : (s.bump (.arr site) 0x064 1).rgB (.arr site) 0x008 0 = false := by
    rw [State.bump_of_lt s _ _ 1 (by omega) hroom, State.rgB, State.rg_wg_ne _ _ (by simp only [Blk.base]; omega)]
    exact h
  unfold State.arrFault
  dsimp only
  rw [hb]
  exact State.rg_wg_self ..

end Fault

/-- The fields of a fault. -/
theorem fields_fault {code group detail : Nat} (hc : code < 8) (hg : group < 4096) (hd : detail < 65536) :
    (BitVec.ofNat 32 (1 + code * 2 + group * 16 + detail * 65536)).getLsbD 0 = true ∧
      getF 3 1 (BitVec.ofNat 32 (1 + code * 2 + group * 16 + detail * 65536)) = code ∧
      getF 31 16 (BitVec.ofNat 32 (1 + code * 2 + group * 16 + detail * 65536)) = detail := by
  refine ⟨?_, ?_, ?_⟩
  · rw [BitVec.getLsbD_ofNat, Nat.testBit_zero]
    simp; omega
  · simp only [getF, fld, BitVec.toNat_ofNat]; omega
  · simp only [getF, fld, BitVec.toNat_ofNat]; omega

/-! ## The exception of a refused descriptor -/

/-- The command ends, with the exception where that goes first. -/
theorem named_raise {v : State} {c : Ctx} (hcmd : v.cmd? c.blk.cid = some c.cmd)
    (hphase : c.cmd.phase = .running ∨ c.cmd.phase = .ending ∧ ∃ o, c.cmd.detail = some o) (code lane trap : Nat) :
    Named (v.raise c code lane trap) c ⟨1, code, c.site, c.slot, c.grp.blk, lane, c.pc, 0xFF, trap, v.timeOf (siteStack c.site)⟩ := by
  have hcid := State.cmd?_cid hcmd
  have hcmd : (v.stoppedAt c).cmd? c.cmd.cid = some c.cmd := by rw [State.cmd?_congr (v.cmds_stoppedAt c), hcid, hcmd]
  rw [State.raise_eq]
  generalize (⟨1, code, c.site, c.slot, c.grp.blk, lane, c.pc, 0xFF, trap, v.timeOf (siteStack c.site)⟩ : Detail) = d
  rw [Named, ← hcid]
  rcases hphase with hrun | ⟨hend, old, hold⟩
  · rw [State.endCmd_of_running d hcmd hrun]
    exact ⟨_, State.cmd?_excepted d hcmd, rfl, by rw [if_pos (.inl hrun)]; exact ⟨rfl, rfl⟩⟩
  · rw [State.endCmd_of_ending d hcmd hend hold]
    split
    · rename_i hbefore
      refine ⟨_, State.cmd?_excepted d ?_, rfl, ?_⟩
      · rw [State.cmd?_congr (State.cmds_unreported ..), hcmd]
      · rw [if_pos (.inr ⟨old, hold, hbefore⟩)]; exact ⟨rfl, rfl⟩
    · rename_i hbefore
      refine ⟨c.cmd, ?_, hend, ?_⟩
      · rw [State.cmd?_congr (State.cmds_unreported ..), hcmd]
      · rw [if_neg]
        · exact ⟨rfl, rfl⟩
        · rintro (hrun | ⟨o, ho, hb⟩)
          · exact absurd hrun (by rw [hend]; decide)
          · rw [hold] at ho
            exact hbefore (Option.some.inj ho ▸ hb)

section Refused

variable {s : State} {w : At} {c : Ctx}

/-- What a refused descriptor leaves. -/
theorem refused_arrFault (hf : Fetches s w c) {k code detail lane : Nat} (hk : k < 8) (hd : detail < 65536) :
    let t := (s.arrFault c.site k c.slot detail).raise c code lane 0
    Named t c ⟨1, code, c.site, c.slot, c.grp.blk, lane, c.pc, 0xFF, 0, s.timeOf (siteStack c.site)⟩ ∧
      (t.core c.site).arr.tiles = c.core.arr.tiles ∧
      (s.rgB (.arr c.site) 0x008 0 = false → (s.rg (.arr c.site) 0x064).toNat + 1 < 0xFFFFFFFF →
        t.rgB (.arr c.site) 0x008 0 = true ∧ t.rgF (.arr c.site) 0x008 3 1 = k ∧ t.rgF (.arr c.site) 0x008 31 16 = detail) := by
  intro t
  have hsite := site_lt_of_fetches hf
  obtain ⟨hcore, hgrp, -⟩ := site_slot_of_fetches hf
  obtain ⟨-, hlt, hctx, -⟩ := hf
  obtain ⟨-, hslot, -, -, -, hcmd, hmay, -⟩ := State.issueCtx_eq hctx
  have ho := s.onlyTraced_arrFault c.site k c.slot detail
  have hcores : (s.arrFault c.site k c.slot detail).cores = s.cores := by rw [ho]
  have hcmds : (s.arrFault c.site k c.slot detail).cmds = s.cmds := by rw [ho]
  have htime : (s.arrFault c.site k c.slot detail).time = s.time := by rw [ho]
  refine ⟨?_, ?_, fun hclear hroom => ?_⟩
  · have hn := named_raise (v := s.arrFault c.site k c.slot detail) ((State.cmd?_congr hcmds _).trans hcmd)
      (State.phase_of_mayIssue hmay) code lane 0
    have ht : (s.arrFault c.site k c.slot detail).timeOf (siteStack c.site) = s.timeOf (siteStack c.site) := by
      simp only [State.timeOf, htime]
    rw [ht] at hn
    exact hn
  · rw [State.arr_raise _ (g := c.grp) (by rw [State.core_congr hcores]; exact hgrp), State.core_congr hcores, hcore]
  · have hr : t.rg (.arr c.site) 0x008 = _ :=
      ((State.regsBut_raise _ hsite code lane 0).rg (not_unitKey_arr hsite (by omega))).trans
        (s.rg_arrFault c.site k c.slot detail hclear hroom)
    rw [State.rgB, State.rgF, State.rgF, hr]
    exact fields_fault hk (by omega) hd

end Refused

end Sys2Proof.Machine
end


section
/-! PROOF. TILE (O21): the instruction as it stands, and its three outcomes. -/

namespace Sys2Proof.Machine

open Sys2Proof.Claims

/-! ## A tile has strips -/

theorem cdiv_pos {a b : Nat} (ha : 0 < a) (hb : 0 < b) : 0 < cdiv a b := Nat.div_pos (by omega) hb

theorem slotBits_mem (f : Nat) : slotBits f ∈ [2, 4, 16, 8] := by
  unfold slotBits
  split <;> simp

theorem TileDesc.nout_mem (d : TileDesc) : d.nout ∈ [64, 256, 128, 32] := by
  have h := slotBits_mem d.wfmt
  unfold TileDesc.nout TileDesc.ncap
  split
  · simp
  · simp only [List.mem_cons, List.not_mem_nil, or_false] at h
    rcases h with h | h | h | h <;> rw [h] <;> decide

theorem TileDesc.allStrips_pos {d : TileDesc} (hm : 0 < d.m) (hc : 0 < d.cols) : 0 < d.allStrips := by
  have hn : 0 < d.nout ∧ 0 < d.ms := by
    have h := d.nout_mem
    simp only [List.mem_cons, List.not_mem_nil, or_false] at h
    unfold TileDesc.ms
    rcases h with h | h | h | h <;> rw [h] <;> decide
  exact Nat.mul_pos (cdiv_pos hc hn.1) (cdiv_pos hm hn.2)

/-- Each of a descriptor's sizes is one more than its field. -/
theorem allStrips_tileDescOf_pos (w : Nat → W32) : 0 < (tileDescOf w).allStrips := by
  refine TileDesc.allStrips_pos (Nat.succ_pos _) ?_
  unfold TileDesc.cols
  split
  · exact Nat.succ_pos _
  · exact Nat.succ_pos _

/-! ## DETAIL of a failed check -/

theorem lt_of_ite {p : Prop} [Decidable p] {a n : Nat} {o : Option Nat} (ha : a < n) (ho : ∀ x, o = some x → x < n) :
    ∀ x, (if p then some a else o) = some x → x < n := by
  intro x h
  split at h
  · exact Option.some.inj h ▸ ha
  · exact ho x h

theorem lt_of_none {n : Nat} : ∀ x, (none : Option Nat) = some x → x < n := fun _ h => nomatch h

theorem formatFault_lt (d : TileDesc) (img : Option (List Byte)) : ∀ x, formatFault d img = some x → x < 65536 := by
  unfold formatFault
  refine lt_of_ite (by omega) (lt_of_ite (by omega) (lt_of_ite (by omega) (lt_of_ite (by omega) (lt_of_ite (by omega) ?_))))
  split
  · exact lt_of_none
  · cases img with
    | none => exact fun x h => Option.some.inj h ▸ (by omega)
    | some bs =>
      exact lt_of_ite (by omega) (lt_of_ite (by omega) (lt_of_ite (by omega) (lt_of_ite (by omega) lt_of_none)))

theorem addrFault_lt (s : State) (e : Eng) (d : TileDesc) (img : Option (List Byte)) : ∀ x, s.addrFault e d img = some x → x < 65536 :=
  lt_of_ite (by omega) (lt_of_ite (by omega) (lt_of_ite (by omega) lt_of_none))

theorem overlapFault_lt (d : TileDesc) (img : Option (List Byte)) : ∀ x, overlapFault d img = some x → x < 65536 :=
  lt_of_ite (by omega) (lt_of_ite (by omega) lt_of_none)

/-! ## The instruction -/

/-- The tile that the instruction queues. -/
def Ctx.tile (c : Ctx) (d : TileDesc) (lane : Nat) : Tile :=
  let skip := c.skipStrips d
  { num := c.core.arr.nextTile, desc := d, group := c.slot, lane := lane, index := c.pc, blk := c.grp.blk
    cid := c.blk.cid, image := if d.esp then c.core.esp.active else none
    staged := skip * d.reds, started := skip * d.reds, ended := skip * d.reds, drained := skip * d.reds
    woStarted := skip, woDone := skip, interlock := !c.core.locked c.core.arr.tiles c.grp.blk d, alone := c.core.arr.live.isEmpty }

/-- A tile joins the queue of its array. -/
def State.queueTile (s : State) (c : Ctx) (t : Tile) : State :=
  s.modArr c.site (fun a => { a with
    tiles := a.tiles ++ [t], nextTile := a.nextTile + 1, arrived := a.arrived || t.alone
    ramp := if a.arrived then a.ramp else 0 })

/-- The group's count of accumulate strips. -/
def State.issueStrips (s : State) (c : Ctx) (d : TileDesc) : State :=
  if d.acc ∧ d.out.space ≠ 0 then s.modGroup c.site c.slot (fun g => { g with accIssued := g.accIssued + d.allStrips }) else s

/-- The exception of a failed check, recorded in ARR_FAULT. -/
def State.failTile (s : State) (c : Ctx) (lane code arr det : Nat) : State :=
  (s.arrFault c.site arr c.slot det).raise c code lane 0

/-- TILE once it knows that it consumes no poison. -/
def State.runTile (s : State) (c : Ctx) (d : TileDesc) (lane : Nat) : State :=
  let img := c.core.image c.core.esp.active
  match formatFault d img with
  | some x => s.failTile c lane 0x08 1 x
  | none =>
    match s.addrFault (engOf c.site 65 0 c.blk c.cmd c.pc) d img with
    | some x => s.failTile c lane 0x09 2 x
    | none =>
      match overlapFault d img with
      | some x => s.failTile c lane 0x0A 3 x
      | none =>
        if c.skipStrips d = d.allStrips then ((((s.queueTile c (c.tile d lane)).issueStrips c d).moveOn c).tileOver c.site (c.tile d lane))
        else ((s.queueTile c (c.tile d lane)).issueStrips c d).moveOn c

section Issue

variable {s : State} {w : At} {f : TForm} {c : Ctx} {ls : List Nat} {d : TileDesc}

/-- The needs of TILE. -/
def tileNeed (f : TForm) : Need := tNeed f 8 8 (decide (f.mod = 0)) (decide (f.imm = 0))

theorem execTile_eq (w : At) (f : TForm) (s : State) : exec (.tile w f) s = runThread w s (tileNeed f) (fun c ls =>
    let d := tileDescOf (fun i => mget 0 c.grp.uregs (f.ubase.toNat + i))
    let ctxBad (l : Loc) : Bool := l.space = 3 && s.poisoned (s.descAddr (l.addr / 2 ^ 28)) 64
    if 3 ≤ c.core.arr.live.length then s
    else if ctxBad d.act || ctxBad d.wgt then s.consume c (ls.headD c.low)
    else s.runTile c d (ls.headD c.low)) := rfl

section Run

variable (h : Issues s w (tileNeed f) c ls)

include h

theorem exec_tile_waits (hn : 3 ≤ c.core.arr.live.length) : exec (.tile w f) s = .next s := by
  rw [execTile_eq, runThread_of_issues _ h]
  dsimp only
  rw [if_pos hn]

variable (hd : d = tileDescOf (fun i => mget 0 c.grp.uregs (f.ubase.toNat + i)))

include hd

theorem exec_tile_runs (hp : ∀ x ∈ [d.act, d.wgt], x.space = 3 → s.poisoned (s.descAddr (x.addr / 2 ^ 28)) 64 = false)
    (hn : c.core.arr.live.length < 3) : exec (.tile w f) s = .next (s.runTile c d (ls.headD 0)) := by
  have hgood : ∀ x ∈ [d.act, d.wgt], (decide (x.space = 3) && s.poisoned (s.descAddr (x.addr / 2 ^ 28)) 64) = false := by
    intro x hx
    by_cases h3 : x.space = 3
    · rw [hp x hx h3, Bool.and_false]
    · rw [decide_eq_false h3, Bool.false_and]
  rw [execTile_eq, runThread_of_issues _ h]
  dsimp only
  rw [← hd, if_neg (by omega), if_neg (by simp only [hgood d.act (by simp), hgood d.wgt (by simp)]; decide), headD_of_issues h c.low 0]

end Run

/-! ## Refused -/

/-- The code and the DETAIL of a failed check. -/
theorem runTile_of_fault {img : Option (List Byte)} {e : Eng} (himg : img = c.core.image c.core.esp.active)
    (he : e = engOf c.site 65 0 c.blk c.cmd c.pc) {k code detail : Nat} (hf :
      (k = 1 ∧ code = 0x08 ∧ formatFault d img = some detail) ∨
      (k = 2 ∧ code = 0x09 ∧ formatFault d img = none ∧ s.addrFault e d img = some detail) ∨
      (k = 3 ∧ code = 0x0A ∧ formatFault d img = none ∧ s.addrFault e d img = none ∧ overlapFault d img = some detail)) (lane : Nat) :
    s.runTile c d lane = s.failTile c lane code k detail ∧ k < 8 ∧ detail < 65536 := by
  subst himg he
  unfold State.runTile
  dsimp only
  rcases hf with ⟨rfl, rfl, h1⟩ | ⟨rfl, rfl, h1, h2⟩ | ⟨rfl, rfl, h1, h2, h3⟩
  · rw [h1]; exact ⟨rfl, by omega, formatFault_lt _ _ _ h1⟩
  · rw [h1, h2]; exact ⟨rfl, by omega, addrFault_lt _ _ _ _ _ h2⟩
  · rw [h1, h2, h3]; exact ⟨rfl, by omega, overlapFault_lt _ _ _ h3⟩

/-! ## Queued -/

theorem State.core_queueTile (t : Tile) : ((s.queueTile c t).core c.site).groups = (s.core c.site).groups ∧
    ((s.queueTile c t).core c.site).arr.tiles = (s.core c.site).arr.tiles ++ [t] := by
  refine ⟨?_, ?_⟩
  · have hk : (s.queueTile c t).core c.site = (s.modCore c.site (fun k => { k with arr := { k.arr with
      tiles := k.arr.tiles ++ [t], nextTile := k.arr.nextTile + 1, arrived := k.arr.arrived || t.alone
      ramp := if k.arr.arrived then k.arr.ramp else 0 } })).core c.site := rfl
    rw [hk, State.core_modCore, if_pos rfl]
  · rw [State.queueTile, State.arr_modArr]

/-- The strips count in the group alone. -/
theorem State.core_issueStrips (hg : mfind (s.core c.site).groups c.slot = some c.grp) :
    ((s.issueStrips c d).core c.site).arr = (s.core c.site).arr ∧
      ∃ n, mfind ((s.issueStrips c d).core c.site).groups c.slot = some { c.grp with accIssued := n } := by
  unfold State.issueStrips
  split
  · rw [State.modGroup_const _ hg, State.modGroup, State.core_modCore, if_pos rfl]
    exact ⟨rfl, c.grp.accIssued + d.allStrips, by simp [hg]⟩
  · exact ⟨rfl, c.grp.accIssued, hg⟩

/-- The tile is the last of its core, and the path moves on. -/
theorem queued_runTile (hf : Fetches s w c) (hd : 0 < d.allStrips) {img : Option (List Byte)} {e : Eng}
    (himg : img = c.core.image c.core.esp.active) (he : e = engOf c.site 65 0 c.blk c.cmd c.pc) (h1 : formatFault d img = none)
    (h2 : s.addrFault e d img = none) (h3 : overlapFault d img = none) (hskip : c.skipStrips d = 0) (lane : Nat) :
    let t := s.runTile c d lane
    (∃ g, groupAt t c = some g ∧ KeptRegs c g ∧ KeptPreds c g ∧ ∀ l ∈ c.path, (g.th l).pc = c.pc + 1) ∧
      (t.core c.site).arr.tiles = c.core.arr.tiles ++ [c.tile d lane] := by
  intro t
  subst himg he
  obtain ⟨hcore, hgrp, -⟩ := site_slot_of_fetches hf
  obtain ⟨-, -, hm⟩ := mayMoveOn hf
  have ht : t = ((s.queueTile c (c.tile d lane)).issueStrips c d).moveOn c := by
    change s.runTile c d lane = _
    unfold State.runTile
    dsimp only
    rw [h1, h2, h3]
    exact if_neg (by omega)
  obtain ⟨hqg, hqt⟩ := State.core_queueTile (s := s) (c := c) (c.tile d lane)
  obtain ⟨harr, n, hg⟩ := State.core_issueStrips (s := s.queueTile c (c.tile d lane)) (d := d) (by rw [hqg]; exact hgrp)
  rw [ht]
  refine ⟨⟨{ ({ c.grp with accIssued := n } : Group).advance c.path c.low c.pc with bpSkip := false }, ?_,
    fun l r => ⟨Group.reg_advance _ _ _ _ l r, Group.rpois_advance _ _ _ _ l r⟩, fun l m => Group.pred_advance _ _ _ _ l m,
    fun l hl => ?_⟩, ?_⟩
  · rw [State.moveOn_eq_put hg]
    exact State.groupAt_put _ { c with grp := { c.grp with accIssued := n } } _ hg
  · have hsame : (({ c.grp with accIssued := n } : Group).advance c.path c.low c.pc).th l = (c.grp.advance c.path c.low c.pc).th l :=
      (Group.th_advance _ _ _ _ l).trans (c.grp.th_advance c.path c.low c.pc l).symm
    have hpc := congrArg Thread.pc (hm.2.1 l)
    exact ((congrArg Thread.pc hsame).trans hpc).trans (if_pos hl)
  · obtain ⟨bl, gs, hmv⟩ := State.core_moveOn hg
    rw [hmv]
    change ((State.issueStrips _ c d).core c.site).arr.tiles = _
    rw [harr, hqt, hcore]

end Issue

/-- Settles O21. -/
theorem tileIsQueuedOrRefused : Obligations.TileIsQueuedOrRefused := by
  intro s w f c ls d img e h hd himg he hp
  refine ⟨fun h1 h2 h3 hn hskip => ?_, exec_tile_waits h, fun k code detail hn hfault => ?_⟩
  · obtain ⟨hg, ht⟩ := queued_runTile (fetches_of_issues h) (hd ▸ allStrips_tileDescOf_pos _) himg he h1 h2 h3 hskip (ls.headD 0)
    refine ⟨_, exec_tile_runs h hd hp hn, hg, c.tile d (ls.headD 0), ht, rfl, rfl, rfl, rfl, rfl, ?_, hskip, ?_⟩
    · simp [Ctx.tile, hskip]
    · simp [Ctx.tile]
  · obtain ⟨hrun, hk, hdet⟩ := runTile_of_fault himg he hfault (ls.headD 0)
    obtain ⟨hn', ht, hr⟩ := refused_arrFault (fetches_of_issues h) (code := code) (lane := ls.headD 0) hk hdet
    exact ⟨_, (exec_tile_runs h hd hp hn).trans (congrArg _ hrun), hn', ht, fun hclear _ hroom => hr hclear hroom⟩

end Sys2Proof.Machine
end


section
/-! PROOF. Budget windows, crossings, and the messages of the rings but fence, end and reset orders (R239, R241, R243, R250, R251, R255,
R256). O32. -/

namespace Sys2Proof.Machine

open Sys2Proof.Claims

/-! ## Budget windows and crossings -/

/-- Registers written one after the other each keep their value, where one key is written with one value. -/
theorem mget_foldl_pending {r : Map W32} {xs : List (Nat × W32)} (hxs : ∀ x ∈ xs, ∀ y ∈ xs, x.1 = y.1 → x = y) :
    ∀ x ∈ xs, mget (regReset x.1) (xs.foldl (fun m e => mset (regReset e.1) m e.1 e.2) r) x.1 = x.2 := by
  have keep : ∀ (ys : List (Nat × W32)) (m : Map W32) (x : Nat × W32), (∀ y ∈ ys, x.1 = y.1 → x = y) → mget (regReset x.1) m x.1 = x.2 →
      mget (regReset x.1) (ys.foldl (fun m e => mset (regReset e.1) m e.1 e.2) m) x.1 = x.2 := by
    intro ys
    induction ys with
    | nil => exact fun m x _ h => h
    | cons y ys ih =>
      intro m x hx hm
      refine ih _ x (fun z hz => hx z (List.mem_cons_of_mem _ hz)) ?_
      by_cases he : x.1 = y.1
      · obtain rfl := hx y (List.mem_cons_self ..) he
        rw [mget_mset_self]
      · rw [mget, mfind_mset_ne _ _ _ he]
        exact hm
  induction xs generalizing r with
  | nil => exact fun x hx => absurd hx (List.not_mem_nil)
  | cons y ys ih =>
    intro x hx
    rcases List.mem_cons.mp hx with rfl | hmem
    · exact keep ys _ x (fun z hz => hxs x hx z (List.mem_cons_of_mem _ hz)) (mget_mset_self ..)
    · exact ih (fun a ha b hb => hxs a (List.mem_cons_of_mem _ ha) b (List.mem_cons_of_mem _ hb)) x hmem

/-- R241, R256: the counts start anew, and what waits takes effect. -/
theorem answers_windowBoundary (s : State) (hnow : s.time.now % 250 = 0)
    (hp : ∀ x ∈ s.net.pendingRegs, ∀ y ∈ s.net.pendingRegs, x.1 = y.1 → x = y) :
    Answers .budgetWindowBoundary s (fun u => u.net.units = [] ∧ u.net.c0 = [] ∧ u.net.pendingRegs = [] ∧
      ∀ x ∈ s.net.pendingRegs, mget (regReset x.1) u.regs x.1 = x.2) := by
  have hnet : (s.net.overC0.foldl (fun t i => t.bump (.router i) 0x104 1) s).net = s.net :=
    State.foldl_same State.net (fun u i => by rw [u.onlyTraced_bump (.router i) 0x104 1]) _ s
  refine ⟨_, if_neg (by simpa using hnow), rfl, rfl, rfl, ?_⟩
  dsimp only
  rw [hnet]
  exact mget_foldl_pending hp

/-- R239, R255: the mode of the crossings of a stack whose halves run at one step or at two. -/
theorem answers_crossingModeSwitch (s : State) (t h x : Nat) (ht : t < s.stacks) (hh : h < 2)
    (hx : mfind s.net.crossing (2 * t + h) = some x) :
    Answers (.crossingModeSwitch t h) s (fun u => mfind u.net.crossing (2 * t + h) = none ∧
      (u.rgB (.msh t) 0x000 10 = true ↔ s.meshStep (2 * t) ≠ s.meshStep (2 * t + 1))) := by
  let v : State := { s with net := { s.net with crossing := merase s.net.crossing (2 * t + h) } }
  have hv : ∀ i, v.meshStep i = s.meshStep i := State.meshStep_congr (fun _ _ _ => rfl)
  have he : exec (.crossingModeSwitch t h) s =
      .next (v.wgB (.msh t) 0x000 10 (decide (v.meshStep (2 * t) ≠ v.meshStep (2 * t + 1)))) := by
    change execCrossingModeSwitch t h s = _
    unfold execCrossingModeSwitch
    rw [if_neg (by omega)]
    dsimp only
    rw [hx]
  refine ⟨_, he, ?_, ?_⟩
  · rw [State.wgB_net]
    exact (mfind_merase ..).trans (if_pos rfl)
  · rw [State.rgB_wgB_self _ _ _ _ _ (by omega), hv, hv, decide_eq_true_iff]

/-! ## Messages -/

section Messages

variable {s : State} {cid site : Nat} {c : Cmd} (hsite : site < s.sites) (hring : s.ringRuns site = true)

theorem onSite_of {u : State} (h : site < s.sites) : onSite s site u = .next u := if_neg (by omega)

include hsite hring

/-- R250: the mesh carries no message of a layer whose ring runs. -/
theorem exec_launchMessage_ring (ho : s.order? (.launch cid site) = none) : exec (.launchMessage cid site) s = .next s := by
  have h : s.order cid (.launch cid site) = s := by
    unfold State.order
    split
    · exact if_pos hring
    · rfl
  change execLaunchMessage cid site s = _
  unfold execLaunchMessage
  rw [if_neg (by omega), ho]
  dsimp only
  rw [h, ite_self]

theorem exec_endBoundaryOrder_ring (ho : s.order? (.endOrder cid site) = none) : exec (.endBoundaryOrder cid site) s = .next s := by
  have h : s.order cid (.endOrder cid site) = s := by
    unfold State.order
    split
    · exact if_pos hring
    · rfl
  change execEndBoundaryOrder cid site s = _
  unfold execEndBoundaryOrder
  rw [if_neg (by omega), ho]
  dsimp only
  rw [h, ite_self]

theorem exec_coreAcknowledge_ring : exec (.coreAcknowledge cid site) s = .next s := by
  change execCoreAcknowledge cid site s = _
  unfold execCoreAcknowledge
  rw [if_neg (by omega)]
  split
  · rfl
  · rw [hring, Bool.or_true, if_pos rfl]

/-- What a message does on the mesh it does by the ring. -/
theorem exec_ringMessage_invalidate : exec (.ringMessage (.invalidate site)) s = .next (s.dropL1 site) := by
  change onSite s site (if s.ringRuns site then s.dropL1 site else s) = _
  rw [onSite_of hsite, if_pos hring]

theorem exec_ringMessage_launch : exec (.ringMessage (.launch cid site)) s = .next (s.launchReach cid site) := by
  change onSite s site (if s.ringRuns site then s.launchReach cid site else s) = _
  rw [onSite_of hsite, if_pos hring]

theorem exec_ringMessage_endOrder : exec (.ringMessage (.endOrder cid site)) s = .next (s.endReach cid site) := by
  change onSite s site (if s.ringRuns site then s.endReach cid site else s) = _
  rw [onSite_of hsite, if_pos hring]

theorem exec_ringMessage_acknowledge : exec (.ringMessage (.acknowledge cid site)) s = .next (s.ackReach cid site) := by
  change onSite s site (if s.ringRuns site then s.ackReach cid site else s) = _
  rw [onSite_of hsite, if_pos hring]

theorem exec_ringMessage_latch : exec (.ringMessage (.latch cid site)) s = .next (s.latchReach cid site) := by
  change onSite s site (if s.ringRuns site then s.latchReach cid site else s) = _
  rw [onSite_of hsite, if_pos hring]

theorem exec_ringMessage_reset : exec (.ringMessage (.reset site)) s = .next (s.resetReach site) := by
  change onSite s site (if s.ringRuns site then s.resetReach site else s) = _
  rw [onSite_of hsite, if_pos hring]

theorem exec_ringMessage_fence : exec (.ringMessage (.fence site)) s = .next (s.fenceReach site) := by
  change onSite s site (if s.ringRuns site then s.fenceReach site else s) = _
  rw [onSite_of hsite, if_pos hring]

end Messages

section Reach

variable {s : State} {cid site : Nat} {c : Cmd}

/-- The command that a change is for. -/
theorem State.cmd?_changed {f : Cmd → Cmd} (h : s.cmd? cid = some c) (hf : ∀ k, (f k).cid = k.cid) :
    (s.modCmd cid f).cmd? cid = some (f c) := by
  rw [State.cmd?_modCmd s cid cid f (fun k hk => (hf k).trans hk), if_pos rfl, h]
  rfl

theorem State.l1_dropL1 (s : State) (site : Nat) : ((s.dropL1 site).core site).l1 = [] := by
  have h : (s.dropL1 site).core site = (s.modCore site (fun k => { k with l1 := [] })).core site := rfl
  rw [h, State.core_modCore, if_pos rfl]

theorem State.l1_coreBoundary (s : State) (site : Nat) : ((s.coreBoundary site).core site).l1 = [] := by
  unfold State.coreBoundary
  rw [State.core_modCore, if_pos rfl]
  exact s.l1_dropL1 site

/-- The commands with a core's counters cleared under them: each keeps what it has reached. -/
theorem State.cmd?_clearCore (i : Nat) : ∃ f : Cmd → Cmd, (∀ k, (f k).cid = k.cid ∧ (f k).launched = k.launched ∧ (f k).started = k.started) ∧
    ∀ j, (s.clearCore i).cmd? j = (s.cmd? j).map f := by
  let f : Cmd → Cmd := fun c => match mfind c.startVals i with
    | some v => if (mfind c.endVals i).isSome then c
      else { c with startVals := mput c.startVals i (v.take 10 ++ (upTo 10 12).map (fun _ => 0) ++ (v.drop 22).take 1 ++ [0]), cleared := true }
    | none => c
  have hf : ∀ k, (f k).cid = k.cid ∧ (f k).launched = k.launched ∧ (f k).started = k.started := by
    intro k
    simp only [f]
    split
    · split <;> exact ⟨rfl, rfl, rfl⟩
    · exact ⟨rfl, rfl, rfl⟩
  have hc : ((coreBlks i).foldl State.clearCounters s).cmds = s.cmds :=
    State.foldl_same State.cmds (fun u b => State.foldl_same State.cmds (fun t o => by dsimp only; split <;> rfl) _ u) _ s
  refine ⟨f, hf, fun j => ?_⟩
  have hcmds : (s.clearCore i).cmds = s.cmds.map f := congrArg (List.map f) hc
  rw [State.cmd?, State.cmd?, hcmds, List.find?_map]
  exact congrArg (Option.map f) (congrArg (s.cmds.find? ·) (funext fun k => by simp only [Function.comp]; rw [(hf k).1]))

/-- R232, R250: the core passes the boundary, and the command has it launched. -/
theorem launchReach_launches (hc : s.cmd? cid = some c) (hrun : c.phase = .running) (hb : c.begun = true) (hin : site ∈ c.cores)
    (hnot : site ∉ c.launched) :
    ∃ k, (s.launchReach cid site).cmd? cid = some k ∧ site ∈ k.launched ∧ k.started = s.timeOf (siteStack site) := by
  have hdue : c.launchDue site = true := by simp [Cmd.launchDue, hb, hin, hnot, hrun]
  unfold State.launchReach
  rw [hc]
  dsimp only
  rw [if_pos hdue]
  have hcb : (s.coreBoundary site).cmd? cid = some c := (State.cmd?_congr rfl cid).trans hc
  have hm := State.cmd?_changed (f := fun c => { c with
      launched := insNat c.launched site, started := (s.coreBoundary site).timeOf (siteStack site)
      startVals := mput c.startVals site ((s.coreBoundary site).fieldVals site) }) hcb (fun _ => rfl)
  generalize (s.coreBoundary site).modCmd cid _ = v at hm ⊢
  split
  · obtain ⟨f, hf, hv⟩ := State.cmd?_clearCore (s := v) site
    obtain ⟨-, hl, hs⟩ := hf { c with
        launched := insNat c.launched site, started := (s.coreBoundary site).timeOf (siteStack site)
        startVals := mput c.startVals site ((s.coreBoundary site).fieldVals site) }
    refine ⟨_, by rw [hv, hm]; rfl, ?_, hs⟩
    rw [hl]
    simp
  · exact ⟨_, hm, by simp, rfl⟩

theorem ackReach_acks (hc : s.cmd? cid = some c) (ho : site ∈ c.ordered) (ha : site ∉ c.acked) (hacc : s.accessing cid (some site) = false) :
    ∃ k, (s.ackReach cid site).cmd? cid = some k ∧ site ∈ k.acked := by
  have hdue : s.ackDue site c = true := by simp [State.ackDue, ho, ha, State.cmd?_cid hc, hacc]
  unfold State.ackReach
  rw [hc]
  dsimp only
  rw [if_pos hdue]
  exact ⟨_, State.cmd?_changed hc (fun _ => rfl), by simp⟩

theorem latchReach_latches (hc : s.cmd? cid = some c) (hb : c.begun = true) (hin : site ∈ c.cores) (hno : mfind c.startVals site = none) :
    ∃ k, (s.latchReach cid site).cmd? cid = some k ∧ mfind k.startVals site = some (s.fieldVals site) := by
  unfold State.latchReach
  refine ⟨_, State.cmd?_changed hc (fun k => by split <;> rfl), ?_⟩
  rw [if_pos (by simp [hb, hin, hno])]
  simp

end Reach

/-! ## A ring that fails -/

theorem not_eventKey_msh (t : Nat) {o : Nat} (h : o < 0x10000) : ¬ eventKey ((Blk.msh t).base + o) := by
  simp only [eventKey, tally, Blk.base]; omega

/-- R251, R255: its layer's messages go over the mesh. -/
theorem answers_ringLinkFail (s : State) (t layer : Nat) (ht : t < s.stacks) (hl : layer < 2) (hr : s.rgB (.msh t) 0x000 0 = true) :
    Answers (.ringLinkFail t layer) s (fun u => u.rgB (.msh t) 0x000 1 = true ∧
      ∀ site, siteStack site = t → siteLayer site = layer → u.ringRuns site = false) := by
  have hx : exec (.ringLinkFail t layer) s = .next (({ s with net := { s.net with ringFailed := insNat s.net.ringFailed (t * 2 + layer) } }.wgB
      (.msh t) 0x000 1 true).adminEvent 4) := by
    change execRingLinkFail t layer s = _
    unfold execRingLinkFail
    rw [if_neg (by omega), if_pos hr]
  refine ⟨_, hx, ?_, ?_⟩
  · rw [(State.regsBut_adminEvent _ 4).rgB 1 (not_eventKey_msh t (by omega)), State.rgB_wgB_self _ _ _ _ _ (by omega)]
  · rintro site rfl rfl
    rw [State.ringRuns, State.net_adminEvent, State.wgB_net]
    simp

end Sys2Proof.Machine
end


section
/-! PROOF. What the ends of blocks leave of the list of commands; end and reset orders by a ring (R246, R250, R285). O32. -/

namespace Sys2Proof.Machine

open Sys2Proof.Claims

/-! ## The commands by their numbers -/

/-- The same commands are there, in whatever phase. -/
def State.SameCids (s t : State) : Prop := t.cmds.map (·.cid) = s.cmds.map (·.cid)

section Cids

variable {s t u : State}

theorem State.SameCids.refl (s : State) : s.SameCids s := rfl

theorem State.SameCids.of_eq (h : t.cmds = s.cmds) : s.SameCids t := congrArg (List.map Cmd.cid) h

theorem State.SameCids.trans (h : s.SameCids t) (k : t.SameCids u) : s.SameCids u := Eq.trans k h

theorem State.SameCids.ite {p : Prop} [Decidable p] (h : s.SameCids t) (h' : s.SameCids u) : s.SameCids (if p then t else u) := by
  split <;> assumption

theorem State.SameCids.foldl {α : Type} {f : State → α → State} (hf : ∀ (t : State) x, t.SameCids (f t x)) (l : List α) (s : State) :
    s.SameCids (l.foldl f s) := by
  induction l generalizing s with
  | nil => exact .refl s
  | cons x l ih => exact (hf s x).trans (ih _)

theorem State.OnlyTraced.sameCids (h : s.OnlyTraced t) : s.SameCids t := .of_eq (by rw [h])

theorem State.OnlyHalves.sameCids (h : s.OnlyHalves t) : s.SameCids t := .of_eq h.cmds

theorem State.SameCids.isSome (h : s.SameCids t) (cid : Nat) : (t.cmd? cid).isSome = (s.cmd? cid).isSome := by
  have key : ∀ u : State, (u.cmd? cid).isSome = (u.cmds.map (·.cid)).any (fun x => x == cid) := fun u => by
    rw [State.cmd?, List.isSome_find?, List.any_map]
    rfl
  rw [key, key, h]

theorem State.sameCids_modCmd (s : State) (cid : Nat) (f : Cmd → Cmd) (hf : ∀ c, (f c).cid = c.cid) : s.SameCids (s.modCmd cid f) := by
  unfold State.SameCids State.modCmd
  rw [List.map_map]
  refine List.map_congr_left fun d _ => ?_
  simp only [Function.comp]
  split
  · exact hf d
  · rfl

theorem State.sameCids_setCmd (s : State) (c : Cmd) : s.SameCids (s.setCmd c) := by
  unfold State.SameCids State.setCmd
  rw [List.map_map]
  refine List.map_congr_left fun d _ => ?_
  simp only [Function.comp]
  split
  · next h => exact h.symm
  · rfl

end Cids

section Ends

variable (s : State)

theorem State.sameCids_dropStaged (p : Staged → Bool) : s.SameCids (s.dropStaged p) :=
  .foldl (fun t h => .of_eq (by rw [State.oredSync, State.wgB_cmds, State.wgF_cmds]; rfl)) _ s

theorem State.sameCids_unreported (status : Nat) (d : Detail) : s.SameCids (s.unreported status d) := .of_eq (s.cmds_unreported status d)

theorem State.sameCids_endCmd (cid status : Nat) (d : Detail) : s.SameCids (s.endCmd cid status d) := by
  have go : ∀ (t : State) (c c' : Cmd), t.SameCids (((if status = 0x13 then (t.stopBlocks cid).dropStaged (fun x => x.cid == cid)
      else t.stopBlocks cid).setCmd c').freeUnits c) := fun t c c' => by
    refine .trans (t := if status = 0x13 then (t.stopBlocks cid).dropStaged (fun x => x.cid == cid) else t.stopBlocks cid) ?_
      ((State.sameCids_setCmd _ c').trans (State.onlyHalves_freeUnits _ c).sameCids)
    exact .ite (.trans (t := t.stopBlocks cid) (.of_eq rfl) (State.sameCids_dropStaged _ _)) (.of_eq rfl)
  unfold State.endCmd
  dsimp only
  split
  · exact .refl s
  · split
    · exact go s _ _
    · exact go s _ _
    · split
      · exact .refl s
      · exact .ite (.trans (s.sameCids_unreported _ _) (go _ _ _)) (s.sameCids_unreported _ _)
    · exact .refl s

theorem State.sameCids_remoteFail (cid code port : Nat) : s.SameCids (s.remoteFail cid code port) :=
  (s.sameCids_endCmd ..).trans (State.sameCids_modCmd _ _ _ fun c => by split <;> rfl)

/-! ## Requests that go out -/

theorem State.sameCids_inject (key cls budget u : Nat) (drop : Blk × Nat) : s.SameCids (s.inject key cls budget u drop).1 := by
  unfold State.inject
  dsimp only
  exact .ite (.trans (t := { s with net := { s.net with units := mset 0 s.net.units key (mget 0 s.net.units key + u) } }) (.of_eq rfl)
    (State.onlyTraced_bump ..).sameCids) (.of_eq rfl)

theorem State.sameCids_cpInject (home p n : Nat) : s.SameCids (s.cpInject home p n).1 := s.sameCids_inject ..

theorem State.sameCids_injectFor (r : Req) (n : Nat) : s.SameCids (s.injectFor r n).1 := by
  unfold State.injectFor
  split
  · exact .trans (t := { s with net := { s.net with unitUse := mput s.net.unitUse (r.site * 4 + unitOf r.slot) s.time.now } }) (.of_eq rfl)
      (State.sameCids_inject ..)
  · split
    · exact s.sameCids_cpInject (r.lane % 64) r.part n
    · split
      · exact s.sameCids_cpInject ..
      · split
        · exact s.sameCids_inject ..
        · split
          · exact s.sameCids_inject ..
          · exact .refl s

theorem State.sameCids_releaseFor (r : Req) : s.SameCids (s.releaseFor r) :=
  .ite (.refl s) (.ite (.refl s) (.of_eq rfl))

theorem State.sameCids_sendRemote (r : Req) (dst part a : Nat) : s.SameCids (s.sendRemote r dst part a) := by
  unfold State.sendRemote
  split
  · exact .of_eq rfl
  · split
    · exact .trans (t := s.dropReq r.rid) (.of_eq rfl) (State.sameCids_remoteFail ..)
    · exact .of_eq (s.sends_emit (P := fun _ => True) trivial _ _).cmds

theorem State.sameCids_goOut (r : Req) : s.SameCids (s.goOut r) := by
  unfold State.goOut
  split
  · exact s.sameCids_sendRemote ..
  · split
    · exact (s.onlyTraced_bump64 ..).sameCids
    · refine .trans (t := if r.slot ≤ 70 then s.bump64 (.cntCore r.site) 0x038 r.carries else s) ?_ (.of_eq rfl)
      exact .ite (s.onlyTraced_bump64 ..).sameCids (.refl s)

theorem State.sameCids_departs (r : Req) : s.SameCids (s.departs r).1 := by
  unfold State.departs
  dsimp only
  split
  · exact .of_eq rfl
  · refine (s.sameCids_injectFor r r.size).trans ?_
    generalize s.injectFor r r.size = x
    obtain ⟨t, cls⟩ := x
    refine .trans (t := t.unstall (.request r.rid)) (.of_eq rfl) ((State.sameCids_releaseFor _ r).trans ?_)
    generalize (t.unstall (.request r.rid)).releaseFor r = v
    exact .trans (t := v.setReq (v.leaving { r with cls := cls })) (.of_eq rfl) (State.sameCids_goOut _ _)

theorem State.sameCids_departAll (rs : List Req) : s.SameCids (s.departAll rs) := by
  have h : ∀ (rs : List Req) (a : State × List Nat), a.1.SameCids (rs.foldl (fun (a : State × List Nat) r =>
      if a.2.contains r.lineUp then a
      else match a.1.departs r with
        | (t, none) => (t, a.2)
        | (t, some _) => (t, r.lineUp :: a.2)) a).1 := fun rs => by
    induction rs with
    | nil => exact fun a => .refl a.1
    | cons r rs ih =>
      refine fun a => State.SameCids.trans ?_ (ih _)
      dsimp only
      split
      · exact .refl a.1
      · have hd := a.1.sameCids_departs r
        split <;> rename_i he <;> rw [he] at hd <;> exact hd
  exact h rs (s, [])

theorem State.sameCids_sendQueued (site : Nat) : s.SameCids (s.sendQueued site) := s.sameCids_departAll _

/-! ## Blocks that leave their core -/

theorem State.cmds_unhalt (site : Nat) (slots : List Nat) : (s.unhalt site slots).cmds = s.cmds := by
  have hf : (slots.foldl (fun t k => t.wgB (.dbg (siteStack site)) (dbgOff site + 0x08 + k / 32 * 4) (k % 32) false) s).cmds = s.cmds :=
    State.foldl_same State.cmds (fun t k => t.wgB_cmds ..) slots s
  unfold State.unhalt
  dsimp only
  split
  · rw [State.wgB_cmds, hf]
  · exact hf

theorem State.cmds_espSync (i : Nat) : (s.espSync i).cmds = s.cmds := by
  unfold State.espSync
  dsimp only
  rw [State.wg_cmds, State.wgB_cmds]

theorem State.cmds_arrSync (i : Nat) : (s.arrSync i).cmds = s.cmds := State.wg_cmds ..

theorem State.cmds_setPlace (site k base units : Nat) (v : Bool) : (s.setPlace site k base units v).cmds = s.cmds := State.wg_cmds ..

theorem State.cmds_setCore (i : Nat) (k : Core) : (s.setCore i k).cmds = s.cmds := rfl

theorem State.cmds_orphanReqs (site : Nat) (slots : List Nat) : (s.orphanReqs site slots).cmds = s.cmds := rfl

theorem State.cmds_dropBlock (site b : Nat) : (s.dropBlock site b).cmds = s.cmds := by
  unfold State.dropBlock
  dsimp only
  rw [State.cmds_espSync, State.cmds_arrSync, State.cmds_setPlace, State.cmds_unhalt, State.cmds_orphanReqs, State.cmds_setCore]
  split <;> rfl

theorem State.sameCids_takeForReplay (site : Nat) (bs : Option Nat) (b : Block) (ate : Option Detail) :
    s.SameCids (s.takeForReplay site bs b ate) := by
  unfold State.takeForReplay
  dsimp only
  refine .trans ?_ (State.sameCids_modCmd _ _ _ fun _ => rfl)
  refine .trans (t := match bs with | some k => (s.dropQueued site _).dropBlock site k | none => s.dropQueued site _) ?_
    ((State.sameCids_dropStaged _ _).trans (.of_eq rfl))
  cases bs with
  | none => exact .of_eq rfl
  | some k => exact .of_eq (State.cmds_dropBlock ..)

theorem State.sameCids_consumeThread (site slot bs : Nat) (b : Block) (lane index : Nat) :
    s.SameCids (s.consumeThread site slot bs b lane index) := by
  unfold State.consumeThread State.consumeBlock
  split
  · exact .refl s
  · exact .ite (s.sameCids_takeForReplay ..) (s.sameCids_endCmd ..)

theorem State.sameCids_commitBlock (site bs : Nat) : s.SameCids (s.commitBlock site bs) := by
  unfold State.commitBlock
  dsimp only
  split
  · exact .refl s
  · have hfold : ∀ (k : Core) (b : Block) (l : List Contrib), s.SameCids (l.foldl (fun t x => t.release site b x) (s.setCore site k)) :=
      fun k b l => .trans (t := s.setCore site k) (.of_eq rfl) (.foldl (fun t x => .of_eq (t := t.release site b x) rfl) _ _)
    exact .ite (hfold _ _ _) ((hfold _ _ _).trans (State.sameCids_sendQueued ..))

theorem State.sameCids_commitPoint (site bs : Nat) : s.SameCids (s.commitPoint site bs) := by
  unfold State.commitPoint
  dsimp only
  split
  · exact .refl s
  · split
    · exact s.sameCids_commitBlock ..
    · have ht : ∀ (b : Block) (x : Contrib) (p : Nat), s.SameCids (match s.contribSlot site x with
          | some slot => s.consumeThread site slot bs b (x.thread % 32) x.index
          | none => s.consumePort b.cid p) := fun b x p => by
        split
        · exact s.sameCids_consumeThread ..
        · exact s.sameCids_endCmd ..
      exact .ite (ht _ _ _) (.trans (.trans (ht _ _ _) (.of_eq rfl)) (State.sameCids_commitBlock ..))

end Ends

/-! ## End and reset orders -/

section Orders

variable {s : State} {cid site : Nat} {c : Cmd}

/-- R246, R250: the core passes the end boundary, and its answer is on its way. -/
theorem endReach_orders (hc : s.cmd? cid = some c) (he : c.isEnding = true) (hl : site ∈ c.launched) (hno : site ∉ c.ordered) :
    (∃ k, (s.endReach cid site).cmd? cid = some k ∧ site ∈ k.ordered) ∧ ((s.endReach cid site).core site).l1 = [] := by
  have hdue : c.endDue site = true := by simp [Cmd.endDue, he, hl, hno]
  unfold State.endReach
  rw [hc]
  dsimp only
  rw [if_pos hdue]
  have hcids := State.SameCids.foldl (fun (t : State) b => (t.sameCids_commitPoint site b).trans (.of_eq (State.cmds_dropBlock _ site b)))
    (((s.core site).blocks.filter (fun b => b.2.cid == cid)).map (·.1)) s
  generalize (((s.core site).blocks.filter (fun b => b.2.cid == cid)).map (·.1)).foldl _ s = v at hcids ⊢
  obtain ⟨d, hd⟩ := Option.isSome_iff_exists.mp ((hcids.isSome cid).trans (by rw [hc]; rfl))
  have hb : (v.coreBoundary site).cmd? cid = some d := (State.cmd?_congr rfl cid).trans hd
  exact ⟨⟨_, State.cmd?_changed hb (fun _ => rfl), by simp⟩, v.l1_coreBoundary site⟩

theorem keys_merase {α : Type} (m : Map α) (i : Nat) : (merase m i).map (·.1) = (m.map (·.1)).filter (fun k => k != i) := by
  induction m with
  | nil => rfl
  | cons e m ih =>
    obtain ⟨k, v⟩ := e
    by_cases h : k = i
    · simp [merase, h, ih]
    · simp [merase, h, ih]

/-- A block that leaves a core leaves the others there. -/
theorem State.keys_dropBlock (s : State) (site b : Nat) :
    ((s.dropBlock site b).core site).blocks.map (·.1) = ((s.core site).blocks.map (·.1)).filter (fun k => k != b) := by
  have h : ∃ k : Core, k.blocks = merase (s.core site).blocks b ∧ (s.dropBlock site b).bare = (s.setCore site k).bare := by
    unfold State.dropBlock
    dsimp only
    refine ⟨Core.espNext ?k, ?_, ?_⟩
    pick_goal 3
    · rw [State.bare_espSync, State.bare_arrSync, State.bare_setPlace, State.bare_unhalt, State.bare_orphanReqs]
      refine State.bare_setCore ?_ _ _
      split
      · rfl
      · rfl
    · rw [Core.espNext_eq]
  obtain ⟨k, hb, he⟩ := h
  have hk : ∀ c : Core, c.bare.blocks.map (·.1) = c.blocks.map (·.1) := fun c => by
    rw [Core.bare, List.map_map]
    rfl
  rw [← hk, State.core_bare he site, hk, State.core_setCore, if_pos rfl, hb, keys_merase]

/-- R285: a reset order leaves no block on its core. -/
theorem blocks_resetReach (h : s.coreResets site = true) : ((s.resetReach site).core site).blocks = [] := by
  have key : ∀ (l : List Nat) (u : State), (∀ k ∈ (u.core site).blocks.map (·.1), k ∈ l) →
      ((l.foldl (fun t b => t.dropBlock site b) u).core site).blocks = [] := by
    intro l
    induction l with
    | nil =>
      intro u hu
      exact List.map_eq_nil_iff.mp (List.eq_nil_iff_forall_not_mem.mpr fun k hk => List.not_mem_nil (hu k hk))
    | cons b l ih =>
      intro u hu
      refine ih _ fun k hk => ?_
      rw [State.keys_dropBlock, List.mem_filter] at hk
      rcases List.mem_cons.mp (hu k hk.1) with rfl | hl
      · simp at hk
      · exact hl
  unfold State.coreResets at h
  unfold State.resetReach
  rw [if_pos h]
  exact key _ s fun _ hk => hk

end Orders

end Sys2Proof.Machine
end


section
/-! PROOF. Fence orders by a ring: the core is out of service for good, whatever its replacement does (R250, R373, R374). O32. -/

namespace Sys2Proof.Machine

open Sys2Proof.Claims

/-! ## Sets of sites -/

theorem hasSite_addSite {m : Sites} {i : Nat} (h : i < 4096) : hasSite (addSite m i) i = true := by
  simp [hasSite, addSite, h]

theorem hasSite_delSite (m : Sites) (i : Nat) : hasSite (delSite m i) i = false := by
  by_cases h : i < 4096
  · simp [hasSite, delSite, h]
  · exact BitVec.getLsbD_of_ge _ _ (by omega)

/-! ## What leaves the roster as it is -/

section Roster

variable (s : State)

theorem State.roster_ite {p : Prop} [Decidable p] {t u : State} {r : Roster} (h : t.roster = r) (h' : u.roster = r) :
    (if p then t else u).roster = r := by
  split <;> assumption

theorem State.roster_respond (r : Req) : (s.respond r).roster = s.roster := State.roster_ite rfl rfl

theorem State.roster_setReq (r : Req) : (s.setReq r).roster = s.roster := rfl

theorem State.roster_obeyed (r : Req) : (s.obeyed r).roster = s.roster := by
  unfold State.obeyed
  rw [State.roster_setReq, State.roster_respond]

theorem State.roster_answerFenced (site : Nat) : (s.answerFenced site).roster = s.roster :=
  State.foldl_same State.roster (fun u r => u.roster_obeyed r) _ s

theorem State.roster_trace (js : List Job) : (s.trace js).roster = s.roster := by rw [s.onlyTraced_trace js]

theorem State.roster_bump (b : Blk) (o n : Nat) : (s.bump b o n).roster = s.roster := by rw [s.onlyTraced_bump b o n]

theorem State.roster_bump64 (b : Blk) (o n : Nat) : (s.bump64 b o n).roster = s.roster := by rw [s.onlyTraced_bump64 b o n]

theorem State.roster_traceCoppice (stack : Nat) (p : Option Nat) (cls act site other : Nat) :
    (s.traceCoppice stack p cls act site other).roster = s.roster := by
  cases p with
  | none => exact s.roster_trace _
  | some q => exact s.roster_trace _

theorem State.roster_unrecoveredBy (cid code site other : Nat) : (s.unrecoveredBy cid code site other).roster = s.roster := by
  have hgo : ∀ (c c' : Cmd), (((s.stopBlocks cid).setCmd c').freeUnits c).roster = s.roster := fun c c' => by
    rw [State.onlyHalves_freeUnits]
    rfl
  unfold State.unrecoveredBy
  dsimp only
  split
  · rfl
  · split
    · split <;> rfl
    · rfl
    · rfl
    · rw [State.roster_traceCoppice, hgo]

theorem State.roster_unrecovered (cid code site : Nat) : (s.unrecovered cid code site).roster = s.roster := s.roster_unrecoveredBy ..

theorem State.roster_foldl_unrecovered (code site : Nat) (cs : List Cmd) :
    (cs.foldl (fun t c => t.unrecovered c.cid code site) s).roster = s.roster :=
  State.foldl_same State.roster (fun u c => u.roster_unrecovered c.cid code site) cs s

theorem State.roster_noCoreLeft (p : Option Nat) (site : Nat) : (s.noCoreLeft p site).roster = s.roster := by
  unfold State.noCoreLeft
  split
  · rfl
  · split
    · exact s.roster_foldl_unrecovered ..
    · rfl

/-! ## Windows and regions -/

theorem State.roster_writeLine (dev line : Nat) (dirty : BitVec 4) : (s.writeLine dev line dirty).roster = s.roster := by
  unfold State.writeLine
  exact State.roster_ite (State.roster_bump ..) rfl

theorem State.roster_flushLine (h line : Nat) (dirty : BitVec 4) : (s.flushLine h line dirty).roster = s.roster := by
  unfold State.flushLine
  dsimp only
  split
  · rfl
  · rw [State.roster_bump64, State.roster_bump64, State.roster_bump64, State.roster_writeLine]; rfl

theorem State.roster_setMif (d : Nat) (x : Mif) : (s.setMif d x).roster = s.roster := rfl

theorem State.roster_poisonAll (a n : Nat) : (s.poisonAll a n).roster = s.roster := rfl

theorem State.roster_modHalf (h : Nat) (f : Half → Half) : (s.modHalf h f).roster = s.roster := rfl

theorem State.roster_uncover (h : Nat) (l : Line) : (s.uncover h l).roster = s.roster := by
  unfold State.uncover
  refine State.roster_ite rfl ?_
  rw [State.foldl_same State.roster (fun u w => u.roster_poisonAll (w * 32) 32), State.roster_setMif]

theorem State.roster_wayGranule (h k : Nat) : (s.wayGranule h k).roster = s.roster := by
  unfold State.wayGranule
  split
  · rfl
  · rw [State.roster_bump]; rfl

theorem State.roster_pinSync (t : Nat) : (s.pinSync t).roster = s.roster := by
  refine State.foldl_same State.roster (fun u h => ?_) _ s
  rw [State.wgB_roster]
  exact State.foldl_same State.roster (fun v i => State.roster_ite rfl (State.wgF_roster ..)) _ u

theorem State.roster_resizeWindow (h sl w p : Nat) : (s.resizeWindow h sl w p).roster = s.roster := by
  unfold State.resizeWindow
  dsimp only
  rw [State.roster_pinSync, State.wg_roster, State.foldl_same State.roster (fun u k => u.roster_wayGranule h k)]
  exact State.foldl_same State.roster (fun u e => by rw [State.roster_uncover, State.roster_flushLine]) _ s

theorem State.roster_loseWindow (h sl site : Nat) : (s.loseWindow h sl site).roster = s.roster := by
  unfold State.loseWindow
  dsimp only
  rw [State.roster_resizeWindow]
  split
  · exact s.roster_foldl_unrecovered ..
  · rfl

theorem State.roster_crossed (h : Nat) : (s.crossed h).roster = s.roster := rfl

theorem State.roster_meshSync (h : Nat) : (s.meshSync h).roster = s.roster := by
  rw [State.meshSync_eq]
  exact State.roster_ite rfl ((State.roster_crossed ..).trans (State.wgF_roster ..))

theorem State.roster_setReg (r hi lo v : Nat) : (s.setReg r hi lo v).roster = s.roster := State.wgF_roster ..

/-- A region that starts to switch on, with the mesh clock of its half. -/
def State.starting (r : Nat) : State := (((s.setReg r 1 0 1).setReg r 2 2 0).setReg r 23 20 0).meshSync (regionHalf r)

theorem State.wakeRegion_eq (r : Nat) : s.wakeRegion r =
    if s.regF r 1 0 = 0 then
      let t := (s.starting r).modHalf (regionHalf r) (fun x => { x with woken := false })
      if (t.half (regionHalf r)).retained then t.modHalf (regionHalf r) (fun x => { x with waking := some (x.waking.getD t.time.now) }) else t
    else s := rfl

theorem State.roster_wakeRegion (r : Nat) : (s.wakeRegion r).roster = s.roster := by
  have h : ∀ f, ((s.starting r).modHalf (regionHalf r) f).roster = s.roster := fun f => by
    rw [State.roster_modHalf, State.starting, State.roster_meshSync, State.roster_setReg, State.roster_setReg, State.roster_setReg]
  rw [State.wakeRegion_eq]
  dsimp only
  generalize s.starting r = v at h ⊢
  refine State.roster_ite ?_ rfl
  have hv := h (fun x => { x with woken := false })
  generalize v.modHalf (regionHalf r) (fun x => { x with woken := false }) = t at hv ⊢
  exact State.roster_ite ((t.roster_modHalf ..).trans hv) hv

theorem State.roster_raiseIrq (p v : Nat) : (s.raiseIrq p v).roster = s.roster := rfl

theorem State.roster_adminEvent (i : Nat) : (s.adminEvent i).roster = s.roster := by
  unfold State.adminEvent State.portEvent
  exact State.roster_ite ((State.roster_raiseIrq ..).trans (State.wgB_roster ..)) (State.wgB_roster ..)

theorem State.roster_healthEntry (stack kind site detail : Nat) : (s.healthEntry stack kind site detail).roster = s.roster :=
  State.roster_adminEvent _ 6

end Roster

/-! ## A core out of service -/

section Fence

variable (s : State)

/-- Neither the cores in service nor those out of it differ. -/
def State.SameService (s t : State) : Prop := t.roster.fenced = s.roster.fenced ∧ t.roster.enabled = s.roster.enabled

theorem State.SameService.of_roster {s t : State} (h : t.roster = s.roster) : s.SameService t := ⟨by rw [h], by rw [h]⟩

theorem State.SameService.trans {s t u : State} (h : s.SameService t) (k : t.SameService u) : s.SameService u :=
  ⟨k.1.trans h.1, k.2.trans h.2⟩

theorem State.sameService_modRoster (f : Roster → Roster) (hf : ∀ r, (f r).fenced = r.fenced ∧ (f r).enabled = r.enabled) :
    s.SameService (s.modRoster f) := hf s.roster

/-- A replacement only wakes. -/
theorem State.sameService_replaceCore (p : Option Nat) (site : Nat) : s.SameService (s.replaceCore p site).1 := by
  unfold State.replaceCore
  dsimp only
  split
  · exact .of_roster (s.roster_noCoreLeft p site)
  · next i hi =>
    have hr : ∀ w, (if w ≠ 0 && !s.sliceTakes i w then s.loseWindow (siteHalf site) (siteSlice site) site else s).roster = s.roster :=
      fun w => State.roster_ite (s.roster_loseWindow ..) rfl
    have key : ∀ (v : State) (f : Roster → Roster) (n : Nat), v.roster = s.roster →
        (∀ r, (f r).fenced = r.fenced ∧ (f r).enabled = r.enabled) → s.SameService ((v.modRoster f).wakeRegion n) := fun v f n hv hf =>
      (State.SameService.of_roster hv).trans ((v.sameService_modRoster f hf).trans (.of_roster (State.roster_wakeRegion _ n)))
    exact key _ _ _ (hr _) fun r => ⟨rfl, rfl⟩

theorem State.fenced_fenceOnly {site : Nat} (h : site < 4096) (cls : Nat) (router : Bool) :
    hasSite (s.fenceOnly site cls router).roster.fenced site = true ∧ hasSite (s.fenceOnly site cls router).roster.enabled site = false := by
  unfold State.fenceOnly
  dsimp only
  generalize (((s.takeBlocks site cls router).latchEnd site).idleCore site).dropHalts site = v
  have hr := (v.modRoster (fun r => { r with
    enabled := delSite r.enabled site, spare := delSite r.spare site, fenced := addSite r.fenced site
    retired := addSite r.retired site, lent := merase r.lent site, waking := merase r.waking site })).roster_answerFenced site
  have hf := congrArg Roster.fenced hr
  have he := congrArg Roster.enabled hr
  exact ⟨(congrArg (hasSite · site) hf).trans (hasSite_addSite h), (congrArg (hasSite · site) he).trans (hasSite_delSite _ _)⟩

/-- R373, R376: whatever replaces it. -/
theorem State.fenced_fenceCore {site : Nat} (h : site < 4096) (hr : s.removable site = true) (cls : Nat) (router : Bool) :
    hasSite (s.fenceCore site cls router).roster.fenced site = true ∧ hasSite (s.fenceCore site cls router).roster.enabled site = false := by
  obtain ⟨hf, he⟩ := s.fenced_fenceOnly h cls router
  have key : ∀ x : State × Nat, (s.fenceOnly site cls router).SameService x.1 →
      hasSite ((x.1.healthEntry (siteStack site) 1 site x.2).traceCoppice (siteStack site) (s.corePart site) cls 1 site x.2).roster.fenced site = true ∧
      hasSite ((x.1.healthEntry (siteStack site) 1 site x.2).traceCoppice (siteStack site) (s.corePart site) cls 1 site x.2).roster.enabled site = false :=
    fun x hx => by
      rw [State.roster_traceCoppice, State.roster_healthEntry, hx.1, hx.2]
      exact ⟨hf, he⟩
  unfold State.fenceCore
  rw [if_neg (by simp [hr])]
  refine key (match (mfind s.roster.waking site).filter (fun f => f < 4096) with
    | some f => (s.fenceOnly site cls router).replaceCore (s.corePart site) f
    | none => if hasSite s.roster.enabled site then (s.fenceOnly site cls router).replaceCore (s.corePart site) site
      else (s.fenceOnly site cls router, 0xFFF)) ?_
  split
  · exact State.sameService_replaceCore ..
  · split
    · exact State.sameService_replaceCore ..
    · exact ⟨rfl, rfl⟩

theorem State.removable_net (n : Net) (site : Nat) : ({ s with net := n } : State).removable site = s.removable site := by
  unfold State.removable
  rfl

/-- R250, R374: a fence order that has come. -/
theorem State.fenced_fenceReach {site : Nat} (h : site < 4096) (ho : (mfind s.net.fences site).isSome = true) (hr : s.removable site = true) :
    hasSite (s.fenceReach site).roster.fenced site = true ∧ hasSite (s.fenceReach site).roster.enabled site = false := by
  obtain ⟨cls, hc⟩ := Option.isSome_iff_exists.mp ho
  unfold State.fenceReach
  rw [hc]
  dsimp only
  rw [← s.removable_net { s.net with fences := merase s.net.fences site }] at hr
  generalize ({ s with net := { s.net with fences := merase s.net.fences site } } : State) = v at hr ⊢
  exact v.fenced_fenceCore h hr cls false

end Fence

theorem State.sameMemory_dropL1 (s : State) (site : Nat) : SameMemory s (s.dropL1 site) := ⟨rfl, rfl, rfl⟩

/-- Settles O32. -/
theorem windowsAndRings : Obligations.WindowsAndRings := by
  unfold Obligations.WindowsAndRings
  refine ⟨answers_windowBoundary, answers_crossingModeSwitch, fun s cid site c hsite hring hc => ?_, answers_ringLinkFail⟩
  refine ⟨exec_launchMessage_ring hsite hring, exec_endBoundaryOrder_ring hsite hring, exec_coreAcknowledge_ring hsite hring,
    fun hrun hb hin hno => ⟨_, exec_ringMessage_launch hsite hring, launchReach_launches hc hrun hb hin hno⟩,
    fun he hl hno => ⟨_, exec_ringMessage_endOrder hsite hring, endReach_orders hc he hl hno⟩,
    fun ho ha hacc => ⟨_, exec_ringMessage_acknowledge hsite hring, ackReach_acks hc ho ha hacc⟩,
    fun hb hin hno => ⟨_, exec_ringMessage_latch hsite hring, latchReach_latches hc hb hin hno⟩,
    ⟨_, exec_ringMessage_invalidate hsite hring, s.l1_dropL1 site, s.sameMemory_dropL1 site⟩,
    fun ho hr => ⟨_, exec_ringMessage_fence hsite hring, s.fenced_fenceReach (hsite.trans_le s.sites_le) ho hr⟩,
    fun hr => ⟨_, exec_ringMessage_reset hsite hring, blocks_resetReach hr⟩⟩

end Sys2Proof.Machine
end
